-- ==== Sys2Proof/Word.lean ====
section
/-! DEFINITION. The widths the manual gives its words, and their plainest arithmetic (00_scope R4). -/
namespace Sys2Proof

/-- A register of the module, or one item of a queue: 32 bits (00_scope R4). -/
abbrev Word := BitVec 32

/-- One byte. -/
abbrev Byte := BitVec 8

/-- Bit `i` of a number. -/
def bit (v i : Nat) : Bool := v.testBit i

/-- The field of `width` bits of `v` whose lowest bit is `lo`. -/
def bits (v lo width : Nat) : Nat := (v / 2 ^ lo) % 2 ^ width

/-- A truth value as one bit. -/
def ofBool (b : Bool) : Nat := if b then 1 else 0

/-- `v + 1`, saturating at `max`. -/
def satInc (max v : Nat) : Nat := if v < max then v + 1 else max

/-- `v + d`, saturating at `max`. -/
def satAdd (max v d : Nat) : Nat := min max (v + d)

/-- `v` limited to the range from `lo` to `hi`. -/
def clamp (lo hi v : Nat) : Nat := max lo (min hi v)

/-- A signed quantity as the number that holds its low `width` bits (two's complement). -/
def signedField (width : Nat) (v : Int) : Nat := (v % (2 ^ width : Int)).toNat

/-- The signed quantity that `width` bits spell in two's complement. -/
def signedOf (width v : Nat) : Int :=
  if v % 2 ^ width < 2 ^ (width - 1) then (v % 2 ^ width : Nat) else ((v % 2 ^ width : Nat) : Int) - (2 ^ width : Nat)

/-- A signed quantity saturated to `width` bits. -/
def satSigned (width : Nat) (v : Int) : Int :=
  max (-(2 ^ (width - 1) : Int)) (min ((2 ^ (width - 1) : Int) - 1) v)

end Sys2Proof
end

