-- ==== Sys2Proof/Syntax.lean ====
section
/-! DEFINITION. The commands of the module, one constructor per row of the opcode table, and the kinds of operand they
carry. -/
namespace Sys2Proof

/-- The role mode that MSEL1 and MSEL0 name (R23). -/
inductive Role where
  | standalone | hub | head | repeater
  deriving DecidableEq, Repr


/-- A sample of CP_SNS (R121): its place in the PWM period, at 10 µs + `k` × 20 µs from the start, and the signed mV. -/
structure PilotSample where
  k : Fin 50
  mv : BitVec 16
  deriving DecidableEq, Repr

/-- A strand fault that no instruction row brings (03 R50, R56). -/
inductive StrandError where
  /-- Its class-0 activation would pass CAP_HMAX0. -/
  | hmax (n : Fin 320)
  /-- An uncorrectable error in its own register or predicate storage. -/
  | context (n : Fin 320)
  deriving DecidableEq, Repr

/-- A request for a certificate (07 R138, R142). -/
structure CertRequest where
  /-- CertificateUpdate, else CertificateInstallation. -/
  update : Bool
  /-- The vehicle's timeout for it, µs from now. -/
  timeout : BitVec 32
  deriving DecidableEq, Repr

/-- What a join frame carried, with the samples of its reception: those of the 2 ms before it, then its own (12 R260). -/
structure Received (α : Type) where
  frame : α
  input : List (BitVec 16)
  deriving DecidableEq, Repr

/-- A misbehaviour that only decoding the request shows (R143). -/
inductive HlcBad where
  /-- A request out of sequence. -/
  | sequence
  /-- An unknown session identifier. -/
  | session
  /-- DC, WPT or another unsupported energy mode (-2). -/
  | energyMode
  /-- An unsupported service ID (-20). -/
  | service
  /-- EXI that does not decode against the schema of the protocol in use. -/
  | undecodable
  /-- A request that decodes but that R138 does not list, such as a DC message. -/
  | unlisted
  deriving DecidableEq, Repr

/-- What the check of a contract chain finds (R114). -/
inductive ContractVerdict where
  | valid (ref expiry : BitVec 32)
  | invalid
  | revoked
  deriving DecidableEq, Repr

/-- The identifier of a card: 4, 7 or 10 bytes, byte 0 in the lowest bits (14 R307). -/
inductive Uid where
  | four (v : BitVec 32)
  | seven (v : BitVec 56)
  | ten (v : BitVec 80)
  deriving DecidableEq, Repr

/-- A card in the reader's field. -/
structure FieldCard where
  typeB : Bool
  uid : Uid
  deriving DecidableEq, Repr

/-- Misbehaviours that leave a card out of an inventory: 14 R313 k = 1, 2 and 6. -/
inductive CardFault where
  | malformed | badCheck | badCascade
  deriving DecidableEq, Repr

/-- What a card does in a READER_CHECK exchange (14 R309, R310). -/
inductive SignatureAnswer where
  /-- It does not answer the wake-up and select within 3 tries, or leaves. -/
  | gone
  /-- It asks for more waiting time than FWT_MAX, or gives no frame in time. -/
  | late
  /-- What it identifies itself by (ATQA and SAK, or the ATQB application data), and the signature it gives when it is asked
  for one: r, then s. -/
  | card (identity : BitVec 64) (signature : List (BitVec 8))
  deriving DecidableEq, Repr

/-- What a card does in a CARD_AUTH exchange (14 R309, R311). -/
inductive AuthAnswer where
  | gone
  | late
  /-- It answers with a status other than 9000. -/
  | refused
  /-- It answers with 16 bytes and 9000. -/
  | block (r : BitVec 128)
  deriving DecidableEq, Repr

/-- One sample of the nine chains (10 R197): what each decimator gives, signed, in 0.1 µV at the pad (DESIGN CHOICE:
the manual gives its 24 bits no unit). -/
structure Frame where
  chain : Vector (BitVec 24) 9
  deriving DecidableEq, Repr

/-- What the chains gave up to the end of a block (10 R197 to R204). -/
structure BlockData where
  /-- The samples, oldest first, from before the block to after its end, as the delays and the windows need them. -/
  frames : List Frame
  /-- Where the block's first sample stands in `frames`. -/
  first : BitVec 10
  /-- How many samples the block holds. -/
  samples : BitVec 10
  /-- Where the first sample stands that the map in force serves; those before it came from the map the block began with. -/
  moved : BitVec 11
  /-- The rising crossings of VA, VB, VC, IA, IB, IC found in the block, in the STR_USEC base, oldest first. -/
  crossings : Vector (List (BitVec 32)) 6
  /-- By how much IA, IB, IC lag their voltage, 0.001°, signed. -/
  padAng : Vector (BitVec 32) 3
  deriving DecidableEq, Repr

/-- What a receiver measures of a frame (12 R256, R259, R260, R269). -/
structure Reception where
  /-- Bit i: carrier i of the plan is usable. -/
  tones : BitVec 70
  /-- Mean SNR over the usable carriers, 0.25 dB. -/
  snr : BitVec 8
  /-- The samples of the 2 ms before the frame, then those of the frame. -/
  input : List (BitVec 16)
  /-- From its own last VA rising zero crossing to the start of the frame's SYNC, µs. -/
  sinceZc : BitVec 16
  /-- The strongest other senders heard since the last answer: channel and SNR. -/
  heard : List (BitVec 8 × BitVec 8)
  deriving DecidableEq, Repr

/-- A poll (12 R254, R257, R258): the whole round counter it was made with, and its fields. -/
structure PollFrame where
  round : BitVec 32
  retry : Bool
  /-- HOPS, and ROUTE to HOPS entries. -/
  hops : BitVec 4
  route : List (BitVec 8)
  modulation : BitVec 2
  zc : Option (BitVec 15)
  clock16 : BitVec 16
  grantImp : BitVec 14
  grantExp : BitVec 14
  ack : BitVec 4
  fallback : BitVec 14
  var : BitVec 32
  replyKind : BitVec 2
  replyValue : BitVec 14
  duty : BitVec 2
  coSend : Bool
  /-- ROUND [14]: the join window is open. -/
  joinOpen : Bool
  /-- TAG. A frame with a codeword that does not decode is no command. -/
  tag : BitVec 32
  deriving DecidableEq, Repr

/-- An answer (12 R259). -/
structure AnswerFrame where
  hops : BitVec 4
  route : List (BitVec 8)
  /-- ROUND [13:0]. -/
  round : BitVec 14
  lqSnr : BitVec 8
  /-- Usable carriers. -/
  lqUsable : BitVec 8
  lqBlanked : BitVec 8
  tones : BitVec 70
  neigh : List (BitVec 8 × BitVec 8)
  state : BitVec 8
  /-- Per phase, 0.01 A. -/
  amps : Vector (BitVec 15) 3
  exporting : BitVec 3
  evReq : BitVec 16
  phase : BitVec 16
  /-- The 14 bytes of REQ. -/
  req : List (BitVec 8)
  cost : BitVec 32
  delivNext : BitVec 16
  delivId : BitVec 16
  slotCtrl : BitVec 16
  slot : List (BitVec 8)
  tag : BitVec 32
  deriving DecidableEq, Repr

/-- Why an exchange fails its check at the hub (12 R257, R283). -/
inductive FailCause where
  | silent | undecoded | tag | header
  deriving DecidableEq, Repr

/-- What a chunk frame carries (12 R272, R273). -/
inductive ChunkBody where
  /-- A descriptor: object length and SHA-256, the parent table, the 16 owner bytes, the signature, and whether it
  verifies. -/
  | descriptor (length : BitVec 32) (sha : BitVec 256) (table : List (BitVec 16)) (owner signature : List (BitVec 8))
      (signed : Bool)
  /-- A notice: its records, its signature, and whether it verifies. -/
  | notice (records : List (List (BitVec 8))) (signature : List (BitVec 8)) (signed : Bool)
  | data (bytes : List (BitVec 8))
  deriving DecidableEq, Repr

/-- A chunk frame that is heard (12 R273). -/
structure ChunkFrame where
  kind : BitVec 8
  fromHub : Bool
  sender : BitVec 8
  delivery : BitVec 16
  chunk : BitVec 16
  chunks : BitVec 16
  crc : BitVec 32
  body : ChunkBody
  /-- The samples of the 2 ms before the frame, then those of the frame. -/
  input : List (BitVec 16)
  deriving DecidableEq, Repr

/-- A join frame as a node receives it (12 R280, R281, 16 R353). -/
inductive JoinFrame where
  | joined (channel : BitVec 8) (fallback : BitVec 14)
  | full (fallback : BitVec 14)
  | leave
  /-- The hub's ephemeral public key and its site public key, and whether the signature verifies. -/
  | hubKey (ephemeral site : List (BitVec 8)) (signed : Bool)
  /-- The node secret, wrapped under the pairing key. -/
  | nodeSecret (wrapped : List (BitVec 8))
  deriving DecidableEq, Repr

/-- How the frame of a write of the host ends, or begins (18 R387, R391). -/
inductive Framing where
  /-- CRC out carries this value. -/
  | crc (received : BitVec 16)
  /-- The frame has a command code that R386 does not list. -/
  | unknown (code : BitVec 8)
  deriving DecidableEq, Repr

/-- A physical block of the store (19 R403). -/
structure DieBlock where
  /-- It is on die 1, else on die 0. -/
  die1 : Bool
  block : BitVec 10
  deriving DecidableEq, Repr


/-- The commands, one per row of the opcode table: those with operands first, each part in the order of the table. -/
inductive Instr where
  /-- SUPPLIES_GOOD (R30): VSYS and VAUX have been good for 1 ms with RESET_N high; the power-on reset starts BOOT. `msel`: the role that the MSEL straps spell. -/
  | suppliesGood (msel : Role)
  /-- COMMISSION_COMMIT (R28): The commit command in COMMISSION validates and stores the settings and returns the module to its role mode. `valid`: the settings pass validation. -/
  | commissionCommit (valid : Bool)
  /-- PFW_CONFIRM (R33): At 1 ms PFW_N is confirmed: metrology freezes, the pilot goes to state F and the last-gasp snapshot is written. `data`: what the block in progress measured up to the freeze. -/
  | pfwConfirm (data : BlockData)
  /-- PFW_RETURN_RESET (R33): PFW_N has been high for 100 ms after confirmation with supplies good, so the module performs a power-on reset. `msel`: the role that the MSEL straps spell. -/
  | pfwReturnReset (msel : Role)
  /-- RESET_N_RELEASE (R23): RESET_N rises with the supplies good; MSEL is sampled and BOOT starts. `msel`: the role that the MSEL straps spell. -/
  | resetNRelease (msel : Role)
  /-- CAPSTAN_DOUBLE_FAULT (R61): A program-store uncorrectable error, or a fault during another strand's FALLBACK_PUT, runs the pending FALLBACK_PUTs and causes a Capstan reset. `faulted`: strands that fault, in the order of their faults, while a FALLBACK_PUT executes. -/
  | capstanDoubleFault (faulted : List (Fin 320))
  /-- REF_CLOCK_RESTORED (R432): The reference has run correctly for 100 ms and power-up resumes at step 1. `msel`: the role that the MSEL straps spell. -/
  | refClockRestored (msel : Role)
  /-- X32_RETRY (R432): The 32.768 kHz crystal is tried again every 60 s. `runs`: the crystal runs again. -/
  | x32Retry (runs : Bool)
  /-- NOP (R86): No effect. `n`: the strand that issues it. `word`: the instruction word: opcode 0x01, or one that R72 reserves. -/
  | nop (n : Fin 320) (word : BitVec 32)
  /-- ADD (R74): wd = wa + wb. `n`: the strand that issues it. `body`: bits [25:0] of the instruction word. -/
  | add (n : Fin 320) (body : BitVec 26)
  /-- SUB (R74): wd = wa - wb. `n`: the strand that issues it. `body`: bits [25:0] of the instruction word. -/
  | sub (n : Fin 320) (body : BitVec 26)
  /-- AND (R74): Bitwise AND of two registers. `n`: the strand that issues it. `body`: bits [25:0] of the instruction word. -/
  | and (n : Fin 320) (body : BitVec 26)
  /-- OR (R74): Bitwise OR of two registers. `n`: the strand that issues it. `body`: bits [25:0] of the instruction word. -/
  | or (n : Fin 320) (body : BitVec 26)
  /-- XOR (R74): Bitwise XOR of two registers. `n`: the strand that issues it. `body`: bits [25:0] of the instruction word. -/
  | xor (n : Fin 320) (body : BitVec 26)
  /-- SHL (R74): Shift left by wb[4:0]. `n`: the strand that issues it. `body`: bits [25:0] of the instruction word. -/
  | shl (n : Fin 320) (body : BitVec 26)
  /-- SHR (R74): Logical shift right by wb[4:0]. `n`: the strand that issues it. `body`: bits [25:0] of the instruction word. -/
  | shr (n : Fin 320) (body : BitVec 26)
  /-- SAR (R74): Arithmetic shift right by wb[4:0]. `n`: the strand that issues it. `body`: bits [25:0] of the instruction word. -/
  | sar (n : Fin 320) (body : BitVec 26)
  /-- MUL (R74): The low 32 bits of wa × wb. `n`: the strand that issues it. `body`: bits [25:0] of the instruction word. -/
  | mul (n : Fin 320) (body : BitVec 26)
  /-- MULU64 (R74): The unsigned 64-bit product into a register pair. `n`: the strand that issues it. `body`: bits [25:0] of the instruction word. -/
  | mulu64 (n : Fin 320) (body : BitVec 26)
  /-- MINU (R74): The unsigned minimum of two registers. `n`: the strand that issues it. `body`: bits [25:0] of the instruction word. -/
  | minu (n : Fin 320) (body : BitVec 26)
  /-- MAXU (R74): The unsigned maximum of two registers. `n`: the strand that issues it. `body`: bits [25:0] of the instruction word. -/
  | maxu (n : Fin 320) (body : BitVec 26)
  /-- CMP (R75): Sets a predicate from a condition on two registers. `n`: the strand that issues it. `body`: bits [25:0] of the instruction word. -/
  | cmp (n : Fin 320) (body : BitVec 26)
  /-- PLOG (R75): Sets a predicate from a truth table over two predicates. `n`: the strand that issues it. `body`: bits [25:0] of the instruction word. -/
  | plog (n : Fin 320) (body : BitVec 26)
  /-- ADDI (R74): Adds a sign-extended immediate. `n`: the strand that issues it. `body`: bits [25:0] of the instruction word. -/
  | addi (n : Fin 320) (body : BitVec 26)
  /-- ANDI (R74): ANDs with a zero-extended immediate. `n`: the strand that issues it. `body`: bits [25:0] of the instruction word. -/
  | andi (n : Fin 320) (body : BitVec 26)
  /-- ORI (R74): ORs with a zero-extended immediate. `n`: the strand that issues it. `body`: bits [25:0] of the instruction word. -/
  | ori (n : Fin 320) (body : BitVec 26)
  /-- XORI (R74): XORs with a zero-extended immediate. `n`: the strand that issues it. `body`: bits [25:0] of the instruction word. -/
  | xori (n : Fin 320) (body : BitVec 26)
  /-- SHLI (R74): Shift left by an immediate. `n`: the strand that issues it. `body`: bits [25:0] of the instruction word. -/
  | shli (n : Fin 320) (body : BitVec 26)
  /-- SHRI (R74): Logical shift right by an immediate. `n`: the strand that issues it. `body`: bits [25:0] of the instruction word. -/
  | shri (n : Fin 320) (body : BitVec 26)
  /-- SARI (R74): Arithmetic shift right by an immediate. `n`: the strand that issues it. `body`: bits [25:0] of the instruction word. -/
  | sari (n : Fin 320) (body : BitVec 26)
  /-- CMPI (R75): Sets a predicate from a condition against an immediate. `n`: the strand that issues it. `body`: bits [25:0] of the instruction word. -/
  | cmpi (n : Fin 320) (body : BitVec 26)
  /-- EXT (R74): Extracts a bit field, zero- or sign-extended. `n`: the strand that issues it. `body`: bits [25:0] of the instruction word. -/
  | ext (n : Fin 320) (body : BitVec 26)
  /-- INS (R74): Inserts a bit field into a register. `n`: the strand that issues it. `body`: bits [25:0] of the instruction word. -/
  | ins (n : Fin 320) (body : BitVec 26)
  /-- LDI (R74): Loads the 32-bit value of the second word. `n`: the strand that issues it. `body`: bits [25:0] of the instruction word. `w1`: the second word. -/
  | ldi (n : Fin 320) (body : BitVec 26) (w1 : BitVec 32)
  /-- LD (R76): Loads a word from the case-memory window. `n`: the strand that issues it. `body`: bits [25:0] of the instruction word. -/
  | ld (n : Fin 320) (body : BitVec 26)
  /-- LDH (R76): Loads a halfword from the window. `n`: the strand that issues it. `body`: bits [25:0] of the instruction word. -/
  | ldh (n : Fin 320) (body : BitVec 26)
  /-- LDB (R76): Loads a byte from the window. `n`: the strand that issues it. `body`: bits [25:0] of the instruction word. -/
  | ldb (n : Fin 320) (body : BitVec 26)
  /-- ST (R76): Stores a word into the window, or into the galley while speculative. `n`: the strand that issues it. `body`: bits [25:0] of the instruction word. -/
  | st (n : Fin 320) (body : BitVec 26)
  /-- STH (R76): Stores a halfword. `n`: the strand that issues it. `body`: bits [25:0] of the instruction word. -/
  | sth (n : Fin 320) (body : BitVec 26)
  /-- STB (R76): Stores a byte. `n`: the strand that issues it. `body`: bits [25:0] of the instruction word. -/
  | stb (n : Fin 320) (body : BitVec 26)
  /-- LD64 (R76): Loads 8 bytes into a register pair. `n`: the strand that issues it. `body`: bits [25:0] of the instruction word. -/
  | ld64 (n : Fin 320) (body : BitVec 26)
  /-- ST64 (R76): Stores a register pair. `n`: the strand that issues it. `body`: bits [25:0] of the instruction word. -/
  | st64 (n : Fin 320) (body : BitVec 26)
  /-- ADD64 (R77): 64-bit addition of pairs. `n`: the strand that issues it. `body`: bits [25:0] of the instruction word. -/
  | add64 (n : Fin 320) (body : BitVec 26)
  /-- SUB64 (R77): 64-bit subtraction of pairs. `n`: the strand that issues it. `body`: bits [25:0] of the instruction word. -/
  | sub64 (n : Fin 320) (body : BitVec 26)
  /-- CMP64 (R75): 64-bit compare into a predicate. `n`: the strand that issues it. `body`: bits [25:0] of the instruction word. -/
  | cmp64 (n : Fin 320) (body : BitVec 26)
  /-- SHR64I (R77): 64-bit logical shift right by an immediate. `n`: the strand that issues it. `body`: bits [25:0] of the instruction word. -/
  | shr64i (n : Fin 320) (body : BitVec 26)
  /-- ACC (R77): Adds a pair to a ledger accumulator. `n`: the strand that issues it. `body`: bits [25:0] of the instruction word. -/
  | acc (n : Fin 320) (body : BitVec 26)
  /-- BR (R78): A relative branch with an optional link. `n`: the strand that issues it. `body`: bits [25:0] of the instruction word. -/
  | br (n : Fin 320) (body : BitVec 26)
  /-- JR (R78): Jumps to a register address with a link. `n`: the strand that issues it. `body`: bits [25:0] of the instruction word. -/
  | jr (n : Fin 320) (body : BitVec 26)
  /-- GET (R80): Reads a port's current value, blocking on STORE_READ. `n`: the strand that issues it. `body`: bits [25:0] of the instruction word. -/
  | get (n : Fin 320) (body : BitVec 26)
  /-- PUT (R81): Writes a port, held in the galley when it is outward and the strand is speculative. `n`: the strand that issues it. `body`: bits [25:0] of the instruction word. -/
  | put (n : Fin 320) (body : BitVec 26)
  /-- PUTS (R81): Writes the port's PUTS-rule value at once and removes earlier held writes to that port. `n`: the strand that issues it. `body`: bits [25:0] of the instruction word. -/
  | puts (n : Fin 320) (body : BitVec 26)
  /-- ENQ (R83): Appends an item to a queue if it has room and sets pd. `n`: the strand that issues it. `body`: bits [25:0] of the instruction word. -/
  | enq (n : Fin 320) (body : BitVec 26)
  /-- ENQW (R83): Appends an item, blocking while the queue is full. `n`: the strand that issues it. `body`: bits [25:0] of the instruction word. -/
  | enqw (n : Fin 320) (body : BitVec 26)
  /-- DEQ (R83): Takes the head item if the queue is not empty, otherwise returns IDLE. `n`: the strand that issues it. `body`: bits [25:0] of the instruction word. -/
  | deq (n : Fin 320) (body : BitVec 26)
  /-- DEQW (R83): Takes the head item, blocking while the queue is empty. `n`: the strand that issues it. `body`: bits [25:0] of the instruction word. -/
  | deqw (n : Fin 320) (body : BitVec 26)
  /-- SVC (R84): Issues a service call and blocks until it completes. `n`: the strand that issues it. `body`: bits [25:0] of the instruction word. -/
  | svc (n : Fin 320) (body : BitVec 26)
  /-- SVCA (R84): Issues an asynchronous service call with a completion event and a result block. `n`: the strand that issues it. `body`: bits [25:0] of the instruction word. -/
  | svca (n : Fin 320) (body : BitVec 26)
  /-- WAIT (R44): Waits on the selected subscription slots or the strand timer. `n`: the strand that issues it. `body`: bits [25:0] of the instruction word. -/
  | wait (n : Fin 320) (body : BitVec 26)
  /-- YIELD (R86): Ends the turn of a class-1 to class-3 strand. `n`: the strand that issues it. `body`: bits [25:0] of the instruction word. -/
  | yield (n : Fin 320) (body : BitVec 26)
  /-- SIG (R86): Raises a software event from 0xC0 to 0xFF. `n`: the strand that issues it. `body`: bits [25:0] of the instruction word. -/
  | sig (n : Fin 320) (body : BitVec 26)
  /-- GSET (R87): Opens a galley: checkpoints the registers, starts the timeout and marks the strand speculative. `n`: the strand that issues it. `body`: bits [25:0] of the instruction word. `w1`: the second word. -/
  | gset (n : Fin 320) (body : BitVec 26) (w1 : BitVec 32)
  /-- CAP_HMAX_EXCEEDED (R50): A class-0 activation passes CAP_HMAX0 issue cycles and the strand faults with CAP_HMAX. `e`: the fault, and the strand. -/
  | capHmaxExceeded (e : StrandError)
  /-- TURN_END (R46): A strand has issued TURN_LEN instructions and rejoins the tail of its class queue. `n`: the strand. -/
  | turnEnd (n : Fin 320)
  /-- STRAND_TIMER_EXPIRY (R44): A strand timer reaches 0 and wakes a strand waiting on it. `n`: the strand. -/
  | strandTimerExpiry (n : Fin 320)
  /-- SVC_COMPLETE (R84): A blocking service completes; the results land in w1 to w5 and the strand becomes READY. `n`: the strand. -/
  | svcComplete (n : Fin 320)
  /-- SVCA_COMPLETE (R84): An asynchronous service completes, writes its result block and raises its completion event. `n`: the calling strand. -/
  | svcaComplete (n : Fin 320)
  /-- QUEUE_WAIT_COMPLETE (R42): A strand blocked in ENQW or DEQW gets room or an item and becomes READY. `n`: the strand. -/
  | queueWaitComplete (n : Fin 320)
  /-- STORE_READ_COMPLETE (R110): A blocking STORE_READ value becomes available and the strand becomes READY. `n`: the strand. -/
  | storeReadComplete (n : Fin 320)
  /-- GALLEY_RESOLVE (R88): The resolving event arrives and the outcome is compared with EXP, leaving a lock-up or a pie pending. `ev`: the event. `word`: its outcome word. -/
  | galleyResolve (ev : BitVec 8) (word : BitVec 32)
  /-- GALLEY_TIMEOUT (R98): The galley timeout expires and a pie with w1 = 0xFFFF_FFFF is left pending. `n`: the strand. -/
  | galleyTimeout (n : Fin 320)
  /-- LOCK_UP (R99): When the strand gets the engine, the commit cycle and then the held operations run in program order. `n`: the strand. -/
  | lockUp (n : Fin 320)
  /-- PIE (R102): When the strand gets the engine, the held effects are discarded, the checkpoint is restored and the PC goes to ALT. `n`: the strand. -/
  | pie (n : Fin 320)
  /-- ENABLE (R42): The strand command ENABLE starts a strand at its entry address, subject to the class-0 checks. `n`: strand number of the command. -/
  | enable (n : BitVec 9)
  /-- DISABLE (R42): The strand command DISABLE pies any open galley and disables the strand, subject to R63. `n`: strand number of the command. -/
  | disable (n : BitVec 9)
  /-- RESTART (R42): The strand command RESTART restarts a faulted or disabled strand at its entry address. `n`: strand number of the command. -/
  | restart (n : BitVec 9)
  /-- HALT (R65): The debug HALT stops a non-class-0 strand under installer presence. `n`: strand number of the command. -/
  | halt (n : BitVec 9)
  /-- STEP (R65): The debug STEP issues one instruction of a halted strand. `n`: strand number of the command. -/
  | step (n : BitVec 9)
  /-- RESUME (R65): The debug RESUME returns a halted strand to its previous state. `n`: strand number of the command. -/
  | resume (n : BitVec 9)
  /-- BREAKPOINT_HIT (R65): A strand reaches an enabled breakpoint PC and stops HALTED. `n`: the strand. -/
  | breakpointHit (n : Fin 320)
  /-- STR_TIMER (R107): A write to the STR_TIMER port sets or stops the strand timer. `n`: the strand that writes the port. `value`: the value written. -/
  | strTimer (n : Fin 320) (value : BitVec 32)
  /-- STR_CTRL (R60): A class-3 strand enables, disables or restarts a strand through the STR_CTRL port. `n`: the strand that writes the port. `value`: the value written. -/
  | strCtrl (n : Fin 320) (value : BitVec 32)
  /-- SAFE_TRIP (R111): A forme trip opens the contactors and drives the pilot to state F. `n`: the strand that writes the port. `value`: the value written. -/
  | safeTrip (n : Fin 320) (value : BitVec 32)
  /-- SAFE_RECLOSE (R190): The forme asks for release of FORME, OVERCURRENT or CLOSE_FAIL trips. `n`: the strand that writes the port. `value`: the value written. -/
  | safeReclose (n : Fin 320) (value : BitVec 32)
  /-- SAFE_LIMIT (R193): A write of a protection limit: a lowering applies at once, a raise only while the supervisor is not running. `n`: the strand that writes the port. `arg`: the argument. `value`: the value written. -/
  | safeLimit (n : Fin 320) (arg : BitVec 32) (value : BitVec 32)
  /-- SAFE_SELFTEST (R176): The forme requests an RCM self-test. `n`: the strand that writes the port. `value`: the value written. -/
  | safeSelftest (n : Fin 320) (value : BitVec 32)
  /-- PILOT_PWM (R126): Starts or stops 1 kHz PWM on the pilot. `n`: the strand that writes the port. `value`: the value written. -/
  | pilotPwm (n : Fin 320) (value : BitVec 32)
  /-- PILOT_STOP (R111): Stops PWM and holds the pilot steady at +12 V. `n`: the strand that writes the port. `value`: the value written. -/
  | pilotStop (n : Fin 320) (value : BitVec 32)
  /-- PILOT_F (R111): Drives the pilot to -12 V, state F. `n`: the strand that writes the port. `value`: the value written. -/
  | pilotF (n : Fin 320) (value : BitVec 32)
  /-- PILOT_RELEASE (R107): Leaves state F for steady +12 V. `n`: the strand that writes the port. `value`: the value written. -/
  | pilotRelease (n : Fin 320) (value : BitVec 32)
  /-- PILOT_HLC (R126): Selects 5 % duty or the duty coded from ALLOC_CURRENT. `n`: the strand that writes the port. `value`: the value written. -/
  | pilotHlc (n : Fin 320) (value : BitVec 32)
  /-- LOCK_CMD (R134): Drives the socket-lock pulse to lock or unlock, subject to the interlock. `n`: the strand that writes the port. `value`: the value written. -/
  | lockCmd (n : Fin 320) (value : BitVec 32)
  /-- ALLOC_CURRENT (R125): Writes the allocated current, limited to the ceiling, which moves the duty and the overcurrent threshold. `n`: the strand that writes the port. `value`: the value written. -/
  | allocCurrent (n : Fin 320) (value : BitVec 32)
  /-- HLC_OFFER (R137): Sets the protocols offered at the next SLAC. `n`: the strand that writes the port. `value`: the value written. -/
  | hlcOffer (n : Fin 320) (value : BitVec 32)
  /-- CONT_CLOSE_REQ (R149): Arms or withdraws a contactor close, or refuses the arm with its cause. `n`: the strand that writes the port. `value`: the value written. -/
  | contCloseReq (n : Fin 320) (value : BitVec 32)
  /-- CONT_OPEN (R152): Value 1 opens the contactors at once; value 0 starts a controlled disconnect. `n`: the strand that writes the port. `value`: the value written. -/
  | contOpen (n : Fin 320) (value : BitVec 32)
  /-- OUT_ON (R162): Turns outputs on, opens their inrush window and moves a worn output to cell B. `n`: the strand that writes the port. `value`: the value written. -/
  | outOn (n : Fin 320) (value : BitVec 32)
  /-- OUT_OFF (R162): Turns outputs off, or a coil output opens its contactor. `n`: the strand that writes the port. `value`: the value written. -/
  | outOff (n : Fin 320) (value : BitVec 32)
  /-- ALLOC_CEIL (R288): Sets a channel's host ceiling from the next allocation run. `n`: the strand that writes the port. `arg`: the argument. `value`: the value written. -/
  | allocCeil (n : Fin 320) (arg : BitVec 32) (value : BitVec 32)
  /-- ALLOC_PAUSE (R288): Gives a channel a grant of 0 from the next run until its next request. `n`: the strand that writes the port. `arg`: the argument. `value`: the value written. -/
  | allocPause (n : Fin 320) (arg : BitVec 32) (value : BitVec 32)
  /-- RD_POLL (R305): Starts or stops reader inventories. `n`: the strand that writes the port. `value`: the value written. -/
  | rdPoll (n : Fin 320) (value : BitVec 32)
  /-- PLATEN_PROOF (R373): Draws content in the proof layer in LIVE, with the proof marker and saved greys. `n`: the strand that writes the port. `arg`: the argument. `value`: the value written. -/
  | platenProof (n : Fin 320) (arg : BitVec 32) (value : BitVec 32)
  /-- PLATEN_COMMIT (R372): Composes the region's content and draws it final in GRAY. `n`: the strand that writes the port. `arg`: the argument. `value`: the value written. -/
  | platenCommit (n : Fin 320) (arg : BitVec 32) (value : BitVec 32)
  /-- PLATEN_CLEAR (R372): Draws a region white in GRAY. `n`: the strand that writes the port. `value`: the value written. -/
  | platenClear (n : Fin 320) (value : BitVec 32)
  /-- HLC_CONTRACT_CHECK (R114): Checks a contract chain and returns its reference and expiry. `verdict`: what the check finds. -/
  | hlcContractCheck (verdict : ContractVerdict)
  /-- READER_CHECK (R310): Reads and verifies a card's originality signature. `answer`: what the card does. -/
  | readerCheck (answer : SignatureAnswer)
  /-- CARD_AUTH (R311): Authenticates a card's AES key through INTERNAL AUTHENTICATE. `answer`: what the card does. -/
  | cardAuth (answer : AuthAnswer)
  /-- PILOT_STATE_CHANGE (R123): CP_FILT counted samples in a new band change the reported pilot state and raise EV_PILOT. `first`: the first sample taken. `samples`: the samples after it, oldest first. -/
  | pilotStateChange (first : PilotSample) (samples : List PilotSample)
  /-- PILOT_ANOMALY (R130): An anomaly is recognised after CP_FILT violating samples and answered as its row gives. `samples`: the samples taken, oldest first. `duties`: the duty measured in each PWM period, 0.05 %, oldest first. -/
  | pilotAnomaly (samples : List PilotSample) (duties : List (BitVec 11))
  /-- DIODE_TEST_PULSE (R128): A 100 µs test pulse is evaluated and EV_DIODE is raised. `low`: the low plateau of the pulse, signed mV. -/
  | diodeTestPulse (low : BitVec 16)
  /-- PP_CHANGE (R132): Three readings in a new band update PP_CODE and raise EV_PP. `readings`: the readings of the cable resistance, Ω, oldest first. -/
  | ppChange (readings : List (BitVec 32))
  /-- LOCK_FEEDBACK_CHECK (R134): 50 ms after a lock pulse the feedback is read, and a retry pulse is scheduled if it does not match. `level`: the level of the feedback input. -/
  | lockFeedbackCheck (level : Bool)
  /-- LOCK_RETRY (R134): The second lock pulse is driven 500 ms later, with LOCK_FAIL if it also fails. `level`: the level of the feedback input. -/
  | lockRetry (level : Bool)
  /-- TLS_HANDSHAKE (R348): A TLS handshake completes, or fails and records TLS_FAIL. `tls13`: TLS 1.3, else TLS 1.2. `suites`: the cipher suites the vehicle offers. `rest`: the rest of the handshake succeeds. -/
  | tlsHandshake (tls13 : Bool) (suites : List (BitVec 16)) (rest : Bool)
  /-- SUPPORTED_APP_PROTOCOL (R138): Firmware answers supportedAppProtocol from the offer in force and enters session state 4. `names`: the protocols the vehicle names, coded as HLC_OFFER. `first20`: it ranks ISO 15118-20 first. -/
  | supportedAppProtocol (names : BitVec 3) (first20 : Bool)
  /-- HLC_REQUEST (R139): A decoded request is written as a record and enqueued on Q_HLC_IN, or answered by firmware under R143. `msg`: the message ID of R138. `body`: the decoded fields from 0x10 on. `bad`: a misbehaviour that decoding shows. `processing`: its response has EVSEProcessing. `timeout`: the vehicle timeout, us from now. -/
  | hlcRequest (msg : BitVec 16) (body : List (BitVec 8)) (bad : Option HlcBad) (processing : Bool) (timeout : BitVec 32)
  /-- METERING_RECEIPT (R138): Firmware answers MeteringReceipt and flags the record answered. `body`: the decoded fields. `timeout`: the vehicle timeout, us from now. -/
  | meteringReceipt (body : List (BitVec 8)) (timeout : BitVec 32)
  /-- CERTIFICATE_INSTALLATION (R142): A certificate request is passed to the host on Q4, or answered FAILED_NoCertificateAvailable in HEAD. `request`: which request it is. `exi`: the EXI of the request. -/
  | certificateInstallation (request : CertRequest) (exi : List (BitVec 8))
  /-- CLOSE_TIMEOUT (R151): The close is not confirmed by CLOSE_GAP + MIR_T; both coils drop with CLOSE_FAIL. `live`: the supply-side phases that Metrology reports live. -/
  | closeTimeout (live : BitVec 3)
  /-- MIRROR_CHANGE (R148): A mirror reading changes after MIR_DEB and the feedback is judged. `second`: MIR2. `reads`: it reads open. `live`: the supply-side phases that Metrology reports live. -/
  | mirrorChange (second : Bool) (reads : Bool) (live : BitVec 3)
  /-- LOAD_SIDE_CHANGE (R148): A load-side phase changes between live and dead and the feedback is judged. `phase`: VLA, VLB or VLC. `on`: it is live. `live`: the supply-side phases that Metrology reports live. -/
  | loadSideChange (phase : Fin 3) (on : Bool) (live : BitVec 3)
  /-- DISC_CURRENT_WAIT_END (R153): The current falls to DISC_I or DISC_WAIT passes, and the target zero is picked. `ia`: current of phase A, 0.1 A. `ib`: of phase B. `ic`: of phase C. -/
  | discCurrentWaitEnd (ia : BitVec 16) (ib : BitVec 16) (ic : BitVec 16)
  /-- DUTY_COIL_OFF (R153): At target zero minus OPEN_DLY minus ARC_LEAD the duty coil turns off. `amps`: current of the largest phase, 0.1 A. -/
  | dutyCoilOff (amps : BitVec 16)
  /-- DISCONNECT_FEEDBACK (R159): MIR_T after the last coil-off the opening is judged and an open confirmed raises EV_CONT. `live`: the supply-side phases that Metrology reports live. -/
  | disconnectFeedback (live : BitVec 3)
  /-- OPEN_DELAY_LEARN (R154): An arc-voltage sample after coil-off measures the opening delay and updates OPEN_DLY. `second`: K2. `delay`: from coil-off to separation, 0.1 ms. -/
  | openDelayLearn (second : Bool) (delay : BitVec 16)
  /-- WEAR_MIRROR (R156): Every 100 ms while closed the pair state is mirrored into backup SRAM. `ia`: current of phase A, 0.1 A. `ib`: of phase B. `ic`: of phase C. -/
  | wearMirror (ia : BitVec 16) (ib : BitVec 16) (ic : BitVec 16)
  /-- INRUSH_END (R162): The inrush window closes and the later overload threshold applies. `n`: the output. -/
  | inrushEnd (n : Fin 12)
  /-- OUTPUT_OVERLOAD (R162): Current above the threshold for its filter turns the output off with cause OVERLOAD. `n`: the output. -/
  | outputOverload (n : Fin 12)
  /-- THERMAL_SHUTDOWN (R163): A cell reaches 165 °C and shuts off, or latches off after the last permitted restart. `n`: the output. -/
  | thermalShutdown (n : Fin 12)
  /-- THERMAL_RESTART (R163): A cell cooled below 145 °C restarts while its output is still commanded on. `n`: the output. -/
  | thermalRestart (n : Fin 12)
  /-- OPEN_LOAD (R165): An on output below OL_TH for 50 ms, or an off output open for 10 ms, is reported. `n`: the output. `reading`: on: load current, 0.1 mA; off: pad voltage, mV. -/
  | openLoad (n : Fin 12) (reading : BitVec 16)
  /-- RCM_UPDATE (R174): The 1 ms residual update counts the DC and AC tiers and trips when one is met. `dc`: DC residual, 0.1 mA. `backward`: it flows from load to supply. `ac`: AC residual, 0.1 mA. -/
  | rcmUpdate (dc : BitVec 15) (backward : Bool) (ac : BitVec 16)
  /-- RCM_SELFTEST (R177): The self-test starts once the pair is open confirmed and runs its zero, gain and tier checks. `dc`: DC residual at this step, 0.1 mA. `backward`: it is negative. `ac`: AC residual at this step, 0.1 mA. `symmetric`: the excitation peaks are symmetric. `peaks`: no excitation saturation peak is missing. `inRange`: FG_SNS reads within the range of the drive. -/
  | rcmSelftest (dc : BitVec 15) (backward : Bool) (ac : BitVec 16) (symmetric : Bool) (peaks : Bool) (inRange : Bool)
  /-- RCM_SELFTEST_RESULT (R177): The return check ends the test and posts its result. `returnDc`: DC residual of the return check, 0.1 mA. `healthy`: the chain is healthy. -/
  | rcmSelftestResult (returnDc : BitVec 16) (healthy : Bool)
  /-- PEN_TRIP (R179): A PE-to-N voltage above PEN_TH for PEN_T trips with cause PEN. `volts`: PE-to-N voltage, 0.1 V. -/
  | penTrip (volts : BitVec 16)
  /-- PEN_CLEAR (R179): 30 s below 0.8 × PEN_TH clears PEN. `volts`: PE-to-N voltage, 0.1 V. -/
  | penClear (volts : BitVec 16)
  /-- TEMP_WARN (R180): A reading at or above WARN for TEMP_FILT samples raises EV_TEMP. `k`: 0 TEMP1, 1 TEMP2. `t`: the reading, signed 0.1 C. -/
  | tempWarn (k : Fin 2) (t : BitVec 16)
  /-- TEMP_TRIP (R180): A reading at or above TRIP for TEMP_FILT samples trips TEMP_SOCKET or TEMP_TERM. `k`: 0 TEMP1, 1 TEMP2. `t`: the reading, signed 0.1 C. -/
  | tempTrip (k : Fin 2) (t : BitVec 16)
  /-- TEMP_CLEAR (R180): TEMP_FILT samples below TRIP - HYST clear the temperature trip. `k`: 0 TEMP1, 1 TEMP2. `t`: the reading, signed 0.1 C. -/
  | tempClear (k : Fin 2) (t : BitVec 16)
  /-- SUPPLY_TRIP (R181): An over-, under- or unbalanced voltage, or a frequency fault, held for its time trips SUPPLY_V or SUPPLY_F. `va`: voltage of phase A, 0.1 V. `vb`: of phase B. `vc`: of phase C. `freq`: frequency, 0.01 Hz. -/
  | supplyTrip (va : BitVec 16) (vb : BitVec 16) (vc : BitVec 16) (freq : BitVec 16)
  /-- SUPPLY_CLEAR (R181): 10 s back within limits clears the supply cause. `va`: voltage of phase A, 0.1 V. `vb`: of phase B. `vc`: of phase C. `freq`: frequency, 0.01 Hz. -/
  | supplyClear (va : BitVec 16) (vb : BitVec 16) (vc : BitVec 16) (freq : BitVec 16)
  /-- OC_GRACE_MIDPOINT (R184): At the grace midpoint a phase above NEXT_TH raises EV_OC_WARN. `ia`: current of phase A, 0.1 A. `ib`: of phase B. `ic`: of phase C. -/
  | ocGraceMidpoint (ia : BitVec 16) (ib : BitVec 16) (ic : BitVec 16)
  /-- OVERCURRENT_TRIP (R185): A phase above the threshold for OC_T, or above 1.5 × it for 200 ms, trips OVERCURRENT. `ia`: current of phase A, 0.1 A. `ib`: of phase B. `ic`: of phase C. -/
  | overcurrentTrip (ia : BitVec 16) (ib : BitVec 16) (ic : BitVec 16)
  /-- RECLOSE_TIMER (R191): RECLOSE_T after an RCM or overcurrent trip, the reclose policy tests and releases the cause. `bit`: the cause whose RECLOSE_T has passed. -/
  | recloseTimer (bit : Fin 16)
  /-- SAFE_CLEAR (R190): A host release request for trip causes, with a self-test first for the RCM causes. `mask`: the causes to release. -/
  | safeClear (mask : BitVec 16)
  /-- METRO_BLOCK_END (R200): A 100 ms block ends, its energies are derived, EV_METRO_BLOCK is raised and the ledger reconciles the additions. `data`: what the chains gave. `partial_`: the block ends early. -/
  | metroBlockEnd (data : BlockData) (partial_ : Bool)
  /-- ROTATION_HANDOVER (R208): After the overlap comparison the free chain takes the input, or the handover is abandoned. `ratio`: mean ratio of the outputs minus 1, 0.001 ppm, signed. -/
  | rotationHandover (ratio : BitVec 32)
  /-- CHAIN_REFERENCE_SWITCH (R206): At 0.4 × ROT_PERIOD the checked chain switches from zero to the internal reference. `zero`: mean of the shorted chain before its trims, 0.1 uV, signed. -/
  | chainReferenceSwitch (zero : BitVec 32)
  /-- CHAIN_JUDGEMENT (R207): The checked chain's deviation is judged, with a recheck or a retirement beyond budget. `reading`: mean of the chain on the reference before its trims, 0.1 uV. -/
  | chainJudgement (reading : BitVec 32)
  /-- CHAIN_HARD_FAIL (R209): A parity or stability failure makes the free chain take the input within 2.5 ms. `chain`: the chain that fails. -/
  | chainHardFail (chain : Fin 9)
  /-- FREQ_BAND_EXIT (R203): The frequency leaves the metrology band and EV_FREQ is raised. `freq`: the frequency, mHz. -/
  | freqBandExit (freq : BitVec 17)
  /-- MET_CAL_STAGE (R214): A write to MET_CAL_VAL stages a calibration value. `value`: the value written to MET_CAL_VAL. -/
  | metCalStage (value : BitVec 32)
  /-- AO_RTC_SET (R218): The host writes a new wall clock to apply at the next rollover. `w`: the wall clock written. -/
  | aoRtcSet (w : BitVec 32)
  /-- LED_CLEAR (R246): A keyed clear under metrology presence zeroes the registers. `key`: KEY. -/
  | ledClear (key : BitVec 16)
  /-- LED_EXP_ACK (R244): The host acknowledges exported ledger bytes. `offset`: the partition byte offset written. -/
  | ledExpAck (offset : BitVec 32)
  /-- TAMPER_CHANGE (R247): Two agreeing samples accept a tamper change and write an AO log entry. `terminal`: the terminal cover, else the cover. `opened`: it is open. -/
  | tamperChange (terminal : Bool) (opened : Bool)
  /-- VBACK_TEST (R15): Every 24 h VBACK is tested under a 1 ms load. `low`: VBACK under the test load is below 2.2 V. -/
  | vbackTest (low : Bool)
  /-- POLL (R258): A node receives a poll that passes its check and adopts the grant, clock and fallback value. `f`: the poll. `r`: what this node measures of it. -/
  | poll (f : PollFrame) (r : Reception)
  /-- ANSWER (R259): The hub receives a node's answer with its measurements, requests and fragments. `a`: the answer, whose codewords decode. `r`: what the hub measures of it. -/
  | answer (a : AnswerFrame) (r : Reception)
  /-- RELAY_FORWARD (R261): A relay retransmits a poll or answer T_g after it ends. `answer`: an answer, else a poll. `message`: the message as received. `modulation`: modulation of the frame. `delay`: d: from the SYNC received to the start of the own SYNC, µs. `input`: the samples of the 2 ms before the frame, then those of the frame. -/
  | relayForward (answer : Bool) (message : List (BitVec 8)) (modulation : BitVec 2) (delay : BitVec 16) (input : List (BitVec 16))
  /-- EXCHANGE_FAIL (R13): A failed poll or answer is retried once more robust, or the node is marked missed. `why`: what fails. -/
  | exchangeFail (why : FailCause)
  /-- CHUNK (R274): A chunk frame in a pass window is sent as the duty gives, and taken by nodes whose parent sent it. `heard`: the frame heard, or none in the own pass window. -/
  | chunk (heard : Option ChunkFrame)
  /-- ALLOC_SA (R299): The host sets the STANDALONE limit and WRITTEN. `imp`: IMPORT, 0.1 A. `exp`: EXPORT, 0.1 A. -/
  | allocSa (imp : BitVec 14) (exp : BitVec 14)
  /-- REMOVE_RESERVE_END (R301): 10 s after a removal the hub frees the channel's committed use. `channel`: the channel. -/
  | removeReserveEnd (channel : BitVec 8)
  /-- LNK_JOIN_OPEN (R279): The hub opens a join window for WIN seconds. `win`: LNK_JOIN.WIN. -/
  | lnkJoinOpen (win : BitVec 16)
  /-- JOIN_REQUEST (R279): An unpaired module's join request is relayed up and the hub raises EV_SITE_JOIN. `ident`: module identifier of the requester. `repeater`: its role is REPEATER. `snr`: SNR it heard, 0.25 dB. `sponsor`: channel of its sponsor, with the samples of the frame. -/
  | joinRequest (ident : BitVec 64) (repeater : Bool) (snr : BitVec 8) (sponsor : Received (BitVec 8))
  /-- JOIN_FRAME (R280): The hub's join frame gives the result, the channel or JOIN_FULL. `f`: the frame as a node receives it. -/
  | joinFrame (f : Received JoinFrame)
  /-- LNK_REMOVE (R281): The hub sends LEAVE and frees a channel. `channel`: the channel. -/
  | lnkRemove (channel : BitVec 8)
  /-- INVENTORY (R305): Every POLL_MS the reader finds the cards, replaces a changed presentation and raises EV_CARD. `cards`: the cards in the field. `faults`: the cards that misbehave and are left out. -/
  | inventory (cards : List FieldCard) (faults : List (CardFault × Uid))
  /-- DETECTION_PULSE (R312): In STANDBY a field pulse checks the antenna loading and may end STANDBY. `change`: change of the antenna loading, %. -/
  | detectionPulse (change : BitVec 8)
  /-- DIR_CMD_PUT (R319): The host puts a directory entry. `offset`: DIR_CMD.OFFSET. -/
  | dirCmdPut (offset : BitVec 18)
  /-- DIR_CMD_DELETE (R319): The host deletes a directory entry. `offset`: DIR_CMD.OFFSET. -/
  | dirCmdDelete (offset : BitVec 18)
  /-- DIR_CMD_LOOKUP (R319): The host looks up an entry in the directory. `offset`: DIR_CMD.OFFSET. -/
  | dirCmdLookup (offset : BitVec 18)
  /-- SELECT_APPLICATION (R329): Selects the NDEF application. `apdu`: a command APDU as sent: the SELECT of the NDEF application, or one that R329 does not list. -/
  | selectApplication (apdu : List (BitVec 8))
  /-- SELECT_FILE (R329): Selects a tag file. `file`: the file identifier. -/
  | selectFile (file : BitVec 16)
  /-- READ_BINARY (R329): Reads tag file data. `off`: the offset. `le`: Le, 0 for 256. -/
  | readBinary (off : BitVec 16) (le : BitVec 8)
  /-- UPDATE_BINARY (R333): Writes to the inactive commissioning copy under the write mode. `off`: the offset. `data`: the data. `vr`: the tag supply, 0.1 V. -/
  | updateBinary (off : BitVec 16) (data : List (BitVec 8)) (vr : BitVec 8)
  /-- KNOCK (R329): Exchanges challenges and starts authentication. `ch`: the challenge Ch. -/
  | knock (ch : BitVec 128)
  /-- KNOCK_PROOF (R329): Verifies the reader's proof and authenticates the transaction. `proof`: the first 8 bytes of the proof. -/
  | knockProof (proof : BitVec 64)
  /-- TAG_COMMIT (R333): Checks the commissioning record, makes it active and sets COMM_PENDING. `vr`: the tag supply, 0.1 V. -/
  | tagCommit (vr : BitVec 8)
  /-- CREATE (R343): The host creates a knot. `parent`: KEY_CMD.KNOT. `mask`: KEY_CMD.OPT. `len`: KEY_CMD.LEN: label length and CUTCLASS. -/
  | create (parent : BitVec 12) (mask : BitVec 8) (len : BitVec 8)
  /-- DERIVE (R344): The host derives a working key into a slot. `parent`: KEY_CMD.KNOT. `opt`: KEY_CMD.OPT: engine and WIDE. `len`: KEY_CMD.LEN: label length. -/
  | derive (parent : BitVec 12) (opt : BitVec 8) (len : BitVec 8)
  /-- RELEASE (R345): The host releases a slot, which is scrubbed and verified. `slot`: KEY_CMD.KNOT: the slot. `fails`: the scrubbed slot fails its verify. -/
  | release (slot : BitVec 12) (fails : Bool)
  /-- CUT (R349): The host cuts a knot, scrubbing its descendants and slots. `knot`: KEY_CMD.KNOT. -/
  | cut (knot : BitVec 12)
  /-- IMPORT (R352): The host imports a 32-byte secret as a knot under installer presence. `parent`: KEY_CMD.KNOT. `mask`: KEY_CMD.OPT. `len`: KEY_CMD.LEN: label length and CUTCLASS. -/
  | importKnot (parent : BitVec 12) (mask : BitVec 8) (len : BitVec 8)
  /-- READ_PUBLIC (R346): Shows a slot's public key in the KEY_PUB window. `slot`: KEY_CMD.KNOT: the slot. -/
  | readPublic (slot : BitVec 12)
  /-- SEAL_BTN_PRESS (R354): An accepted press opens or restarts the installer window, and the metrology window with the jumper fitted. `jumper`: SEAL_JMP reads fitted. -/
  | sealBtnPress (jumper : Bool)
  /-- PRESENCE_WINDOW_CLOSE (R355): A presence window expires or the jumper is removed; staged work is dropped and halted strands resume. `metroOnly`: SEAL_JMP reads unfitted and the metrology window alone closes. -/
  | presenceWindowClose (metroOnly : Bool)
  /-- PL_CMD (R372): The host requests a display update in a named mode. `mode`: PL_CMD.MODE. `region`: PL_CMD.REGION. `asset`: PL_CMD.ASSET. -/
  | plCmd (mode : BitVec 3) (region : BitVec 5) (asset : BitVec 16)
  /-- UPDATE_START (R371): A queued update composes, checks the crack loop, powers the panel, journals and starts its first frame. `crackOk`: the crack-loop test passes. `powerGood`: the panel supply comes up in time. -/
  | updateStart (crackOk : Bool) (powerGood : Bool)
  /-- PANEL_FRAME (R364): Each frame drives the phase codes and runs the blank-line checks. `crackOk`: the crack-loop test of the frame passes. `mismatch`: the read-back differs from the drive codes. `t`: panel temperature, 0.1 °C, signed. -/
  | panelFrame (crackOk : Bool) (mismatch : Bool) (t : BitVec 16)
  /-- CRACK_TEST_IDLE (R377): Every 1 s while idle the crack loop is tested, clearing CRACK after two passes. `passes`: the test passes. -/
  | crackTestIdle (passes : Bool)
  /-- PANEL_TEMP_READ (R367): The idle 1 s panel temperature reading updates the band. `t`: panel temperature, 0.1 °C, signed. -/
  | panelTempRead (t : BitVec 16)
  /-- WRITE (R388): A host WRITE applies words in address order from the status phase. `addr`: ADDR. `words`: the data words, LEN of them. `frame`: how the frame comes in. -/
  | write (addr : BitVec 32) (words : List (BitVec 32)) (frame : Framing)
  /-- READ (R389): A host READ returns the named words. `addr`: ADDR. `len`: LEN, words. -/
  | read (addr : BitVec 32) (len : BitVec 16)
  /-- QPUSH (R394): The host appends items to a host-produced queue, or none. `addr`: ADDR. `items`: the items, LEN of them. `frame`: how the frame comes in. -/
  | qpush (addr : BitVec 32) (items : List (BitVec 32)) (frame : Framing)
  /-- QPOP (R394): The host takes up to N items from a host-consumed queue. `addr`: ADDR. `len`: LEN, words. -/
  | qpop (addr : BitVec 32) (len : BitVec 16)
  /-- SWRITE (R409): The host writes into an allowed store-window target. `addr`: ADDR. `words`: the data words, LEN of them. `frame`: how the frame comes in. -/
  | swrite (addr : BitVec 32) (words : List (BitVec 32)) (frame : Framing)
  /-- SREAD (R409): The host reads an unencrypted store partition. `addr`: ADDR. `len`: LEN, words. -/
  | sread (addr : BitVec 32) (len : BitVec 16)
  /-- HOST_ABORT (R390): An SCK pause over 10 ms or an early CS rise aborts the transaction. `pause`: a pause of HP_SCK over 10 ms, else an early rise of HP_CS_N. -/
  | hostAbort (pause : Bool)
  /-- REGISTER_WRITE (R6): A write to a register field without its own row applies under its access type. `addr`: address of the register. `value`: the word written. -/
  | registerWrite (addr : BitVec 32) (value : BitVec 32)
  /-- Q_FLUSH (R395): Empties a queue at once. `q`: the queue. -/
  | qFlush (q : Fin 64)
  /-- QUEUE_STALE (R396): A queue held items for Q_STALE ms with no dequeue, so the stale notice fires. `q`: the queue. -/
  | queueStale (q : Fin 64)
  /-- MB_IN_RING (R398): The host rings inbound doorbells, which raise EV_HOST_DB for mailbox 7 or start a handover for mailboxes 5 and 6. `mailbox`: the mailbox. `bells`: MBk_IN_RING. -/
  | mbInRing (mailbox : Fin 8) (bells : BitVec 32)
  /-- SCRUB (R407): Every DAYS the store reads each in-use block and rewrites any that needed corrections. `corrected`: blocks that needed corrections in some units, up to 8 of them. `worn`: blocks that needed corrections in more units. `uncorrectable`: blocks that gave an uncorrectable error. `tagFails`: encrypted blocks whose tag fails. `old`: blocks that nothing has written for 5 years. -/
  | scrub (corrected : List (DieBlock × BitVec 4)) (worn : List (DieBlock × BitVec 13)) (uncorrectable : List DieBlock) (tagFails : List DieBlock) (old : List DieBlock)
  /-- CORE_RETIRE (R421): A core over its corrected-error limit, or with an uncorrectable error, is retired and CORE_NO_SPARE is set. `coreB`: the core is Core B. `corrected`: its corrected SRAM errors of the last 30 days. `uncorrectable`: it gave an uncorrectable error. -/
  | coreRetire (coreB : Bool) (corrected : BitVec 16) (uncorrectable : Bool)
  /-- DIE_HOT (R437): The controller die at 125 °C sets HOT, and at 135 °C HOT_HELD and OUTLET_HELD. `hot135`: the controller die has reached 135 °C, not 125 °C alone. -/
  | dieHot (hot135 : Bool)
  /-- PAIRING_REPLY (R353): The hub receives the head's pairing reply (ephemeral key, ledger key, identifier), computes the ECDH secret and the pairing key, and posts the check code in KEY_PAIR.CODE. `ephemeral`: ephemeral public key. `ledgerKey`: ledger public key. `ident`: module identifier, with the samples of the frame. -/
  | pairingReply (ephemeral : List (BitVec 8)) (ledgerKey : List (BitVec 8)) (ident : Received (BitVec 64))
  /-- VBACK_RISE (R28): VBACK rises above 2.0 V with no main power, the module enters BACKUP and the RTC starts. -/
  | vbackRise
  /-- RF_FIELD_APPEAR (R28): An RF field able to power the tag appears without main power and the module enters TAG_ONLY. -/
  | rfFieldAppear
  /-- FIELD_LOST (R28): The RF field is lost; the tag transaction ends and the module returns to BACKUP or to no power. -/
  | fieldLost
  /-- STANDBY_READY (R30): The standby core reports standby-ready after booting the image. -/
  | standbyReady
  /-- STANDBY_READY_TIMEOUT (R31): Core B has not reported standby-ready 5 s after step 0, so CORE_NO_SPARE is set. -/
  | standbyReadyTimeout
  /-- FACTORY_DONE_BLOWN (R28): The FACTORY_DONE fuse is blown in FACTORY and an internal reset restarts BOOT. -/
  | factoryDoneBlown
  /-- REQ_COMMISSION (R28): A write of SYS_CTRL.REQ_COMMISSION under installer presence enters COMMISSION, or is answered ERR_MODE during a session. -/
  | reqCommission
  /-- STANDBY_ENTRY (R28): After STBY_IDLE of idle with STBY_EN set, the module enters STANDBY and turns the standby core off. -/
  | standbyEntry
  /-- STANDBY_EXIT (R28): A pilot change, a card, host access, a poll with a grant change or STBY_EN = 0 restores the role mode and its clocks. -/
  | standbyExit
  /-- PFW_N_FALL (R33): PFW_N goes low and the power-fail timeline begins. -/
  | pfwNFall
  /-- PFW_CONTACTOR_OPEN (R33): At 5 ms after PFW_N the supervisor opens both contactors without waiting for a current zero. -/
  | pfwContactorOpen
  /-- RESET_N_ASSERT (R32): RESET_N is low for 10 µs or more: the contactors drop, PD2 to PD7 clear and sessions end. -/
  | resetNAssert
  /-- VAUX_LOSS (R32): VAUX is below 3.10 V for 10 µs; the energy path drops and PD2 to PD7 clear. -/
  | vauxLoss
  /-- AO_LOSS (R32): VBACK falls below 1.8 V with no main power and PD0 loses its state. -/
  | aoLoss
  /-- SOFT_RESET (R32): A keyed SYS_RESET.SOFT clears PD2 to PD7 and reboots, or is refused with ERR_LOCKED during a session. -/
  | softReset
  /-- CAPSTAN_RESET (R32): A keyed SYS_RESET.CAP or a double fault clears the strand contexts and galleys, and the strands restart at their entry addresses. -/
  | capstanReset
  /-- CORE_FAILURE (R34): A watchdog or a firmware fault trap on the active core; SAFE holds the energy path while the standby core takes over. -/
  | coreFailure
  /-- CORE_TAKEOVER (R34): The standby core completes its takeover within HOLD_T and becomes active. -/
  | coreTakeover
  /-- HOLD_T_EXPIRY (R34): No takeover has come within HOLD_T, so the supervisor starts a controlled stop. -/
  | holdTExpiry
  /-- REF_CLOCK_FAIL (R432): The 25 MHz reference stops or departs by more than 5 %; the energy path acts as for RESET_N and the module is held in BOOT. -/
  | refClockFail
  /-- X32_FAIL (R432): The 32.768 kHz crystal stops for 2 s; the RTC switches to a substitute source and TIME_UNSURE is set. -/
  | x32Fail
  /-- INERT_IMAGE_RECEIVED (R36): A complete, signature-checked firmware slot in INERT causes a power-on reset of PD2 to PD7 and a boot of that slot. -/
  | inertImageReceived
  /-- GALLEY_ENTRY_FREED (R96): A galley entry frees and the longest-stalled strand resumes. -/
  | galleyEntryFreed
  /-- SVC_TIME (R114): Returns ledger time, the wall clock and STR_USEC. -/
  | svcTime
  /-- LOG_EVENT (R114): Writes an event-log entry. -/
  | logEvent
  /-- HLC_START (R137): Starts SLAC with the offer in force. -/
  | hlcStart
  /-- HLC_REPLY_AUTH (R141): Answers the oldest AuthorizationReq as Ongoing or Finished. -/
  | hlcReplyAuth
  /-- HLC_REPLY_CPD (R140): Answers ChargeParameterDiscovery from a parameter record. -/
  | hlcReplyCpd
  /-- HLC_REPLY (R140): Answers the oldest other request from a response record. -/
  | hlcReply
  /-- HLC_FAILED (R140): Answers the oldest request with a failing ResponseCode. -/
  | hlcFailed
  /-- LEDGER_OPEN (R238): Opens a session, writes SESSION_OPEN and a seal, and returns the session number. -/
  | ledgerOpen
  /-- LEDGER_CLOSE (R238): Closes the session, writes SESSION and a seal, and returns the record SEQ. -/
  | ledgerClose
  /-- LEDGER_EMERGENCY (R235): Grants emergency credit when the conditions hold. -/
  | ledgerEmergency
  /-- LEDGER_READ (R221): Returns a ledger register by index. -/
  | ledgerRead
  /-- HUB_CONFIRM (R115): Asks the hub to confirm balance and revocation for a directory entry. -/
  | hubConfirm
  /-- ALLOC_REQUEST (R296): Requests a per-phase import or export current and completes with the grant as a value word. -/
  | allocRequest
  /-- ALLOC_RELEASE (R300): Sets the grants in force to 0 and ends the standing requests. -/
  | allocRelease
  /-- SITE_SEND (R271): Sends a record up the site link, or in a notice object at the hub. -/
  | siteSend
  /-- DIR_LOOKUP (R317): Searches the home buckets and the stash for a UID. -/
  | dirLookup
  /-- TAG_RECEIPT (R330): Writes a receipt into the inactive NDEF copy and switches the active copy. -/
  | tagReceipt
  /-- KEY_DERIVE (R344): Derives a working key into an engine slot, or creates a child knot. -/
  | keyDerive
  /-- KEY_CUT (R349): A strand cuts a knot and everything beneath it. -/
  | keyCut
  /-- CRYPTO_MAC (R114): Computes a MAC with a slot key. -/
  | cryptoMac
  /-- STORE_WRITE (R409): Writes bytes into the forme data area. -/
  | storeWrite
  /-- PILOT_TRIP_HOLD_END (R130): 3 s after a pilot trip the line goes from -12 V to steady +12 V while the trip is held. -/
  | pilotTripHoldEnd
  /-- SLAC_PARM_REQ (R137): CM_SLAC_PARM.REQ arrives and the EVSE SLAC exchange runs. -/
  | slacParmReq
  /-- SLAC_MATCH (R137): SLAC matches, a fresh network membership key is issued and HLC_STATUS goes to 2. -/
  | slacMatch
  /-- SLAC_TIMEOUT (R137): No CM_SLAC_PARM.REQ within 40 s, or a broken match, ends SLAC with reason 1. -/
  | slacTimeout
  /-- CERT_ANSWER (R142): The host's certificate answer arrives on Q5 and is sent to the vehicle. -/
  | certAnswer
  /-- CERT_ANSWER_TIMEOUT (R142): No host answer within 4 s, so the module answers FAILED_NoCertificateAvailable. -/
  | certAnswerTimeout
  /-- HLC_DEADLINE (R141): At DEADLINE firmware answers by itself, raises EV_HLC_TIMEOUT and records HLC_TIMEOUT. -/
  | hlcDeadline
  /-- HLC_IDLE_TIMEOUT (R144): 60 s without a new request ends the session. -/
  | hlcIdleTimeout
  /-- CLOSE_START (R151): Once armed and every close condition holds, the non-duty coil turns on. -/
  | closeStart
  /-- DUTY_COIL_ON (R151): After CLOSE_GAP the duty contactor's coil turns on. -/
  | dutyCoilOn
  /-- OTHER_COIL_OFF (R153): OPEN_GAP after the target zero the other coil turns off. -/
  | otherCoilOff
  /-- VSYS_UNDERVOLT (R164): VSYS below 7 V for more than 1 ms turns every output off and opens the contactors. -/
  | vsysUndervolt
  /-- VSYS_RECOVERED (R164): VSYS has been above 8.6 V for 10 ms and OUT_ON is accepted again. -/
  | vsysRecovered
  /-- GOVERNOR_ACT (R170): The output sum has been above 14 A for 5 ms, or above 12 A at the 1 ms re-look, and the governor turns an output off. -/
  | governorAct
  /-- RCM_WARN (R174): A DC residual of at least WARN_PCT of DC_TH, held for 1 s, raises EV_RCM_WARN. -/
  | rcmWarn
  /-- TRIP_PILOT_RELEASE (R186): 3 s after a trip the pilot goes to steady +12 V unless the cause keeps state F. -/
  | tripPilotRelease
  /-- RCM_SELFTEST_REPEAT (R178): 5 s after a failed test it is repeated, tripping RCM_TEST if it fails again. -/
  | rcmSelftestRepeat
  /-- RCM_SELFTEST_DAILY (R176): Every 24 h with the pair open a self-test comes due. -/
  | rcmSelftestDaily
  /-- RCM_CHAIN_UNHEALTHY (R178): A missing saturation peak or an out-of-range FG_SNS for 10 ms trips RCM_CHAIN. -/
  | rcmChainUnhealthy
  /-- RCM_CHAIN_HEALTHY (R178): The chain has been healthy for 10 s, which allows a passing test to clear RCM_CHAIN. -/
  | rcmChainHealthy
  /-- MEAS_LOST (R182): No fresh currents for 100 ms while a coil is on trips MEAS_LOST. -/
  | measLost
  /-- MEAS_RESTORED (R182): 1 s of fresh data clears MEAS_LOST. -/
  | measRestored
  /-- OC_GRACE_END (R184): The grace time ends and the threshold for the current allocation applies. -/
  | ocGraceEnd
  /-- SAFE_CLEAR_P_WELD (R190): Installer release of WELD once open is confirmed. -/
  | safeClearPWeld
  /-- SAFE_CLEAR_P_CONTACTOR (R190): Installer release of CONTACTOR held for FB_MISMATCH. -/
  | safeClearPContactor
  /-- SAFE_CTRL_SELFTEST (R176): The host requests an RCM self-test. -/
  | safeCtrlSelftest
  /-- HOST_TRIP (R186): The host trips with cause HOST. -/
  | hostTrip
  /-- ROTATION_STEP (R206): Every ROT_PERIOD the free chain starts converting the next input alongside its serving chain. -/
  | rotationStep
  /-- MET_CAL_COMMIT (R214): COMMIT schedules every staged item for the next block boundary. -/
  | metCalCommit
  /-- MET_CAL_DISCARD (R214): DISCARD drops every staged calibration value. -/
  | metCalDiscard
  /-- RTC_SECOND (R217): At each RTC second rollover ledger time advances or holds, and any pending clock set applies. -/
  | rtcSecond
  /-- BOUNDARY_CLOSE (R227): At the end of the block after a boundary, intervals, billing, tariff and BOUNDARY records are completed in order. -/
  | boundaryClose
  /-- LED_BILL_CLOSE (R223): Closes the billing period at the next whole second. -/
  | ledBillClose
  /-- LED_CAL_LOAD (R226): Checks a tariff calendar image and accepts it as passive or rejects it. -/
  | ledCalLoad
  /-- LED_CAL_DROP_PASSIVE (R226): Discards the passive calendar. -/
  | ledCalDropPassive
  /-- REGISTER_IMAGE (R233): Every 5 minutes the ledger writes a register image. -/
  | registerImage
  /-- LED_TOPUP (R236): A top-up adds the amount to an account's balance and writes a TOPUP record. -/
  | ledTopup
  /-- SEAL_TIMER (R242): 24 h after the last seal with records chained since, a SEAL is written. -/
  | sealTimer
  /-- SEAL_RETRY (R242): A pending seal is retried every 1 s. -/
  | sealRetry
  /-- TAMPER_COPY (R248): Within 1 s the ledger copies new AO log entries into TAMPER records. -/
  | tamperCopy
  /-- ROUND_START (R267): The hub starts a round and chooses each node's lead. -/
  | roundStart
  /-- OBJECT_VERIFY (R277): A node holding every chunk checks the object hash. -/
  | objectVerify
  /-- FALLBACK_ENTRY (R264): Three missed poll intervals make the head enter fallback and fail its pending site services. -/
  | fallbackEntry
  /-- ALLOCATION_RUN (R284): After the round's last poll the hub admits, fills and commits grants, and raises EV_SITE_ROUND. -/
  | allocationRun
  /-- INPUT_STALE (R285): No dynamic input write for INPUT_TMO sets STALE. -/
  | inputStale
  /-- SA_TIMEOUT (R299): SA_TMO without a host write returns WRITTEN to 0. -/
  | saTimeout
  /-- JOIN_WINDOW_CLOSE (R279): The join window expires. -/
  | joinWindowClose
  /-- KEY_PAIR_OK (R353): The hub host confirms the pairing and the node secret is sent. -/
  | keyPairOk
  /-- PAIRING_TIMEOUT (R353): Without confirmation within 60 s the pairing is abandoned. -/
  | pairingTimeout
  /-- LNK_UNPAIR (R281): A node leaves the site under installer presence. -/
  | lnkUnpair
  /-- DIR_DELTA_APPLY (R321): A delta image from staging is applied in operation order. -/
  | dirDeltaApply
  /-- DIR_PUBLISH (R323): The hub publishes the gathered DIR_CMD operations as a delta after PUB_T, on NOW, or when full. -/
  | dirPublish
  /-- TAG_TRANSACTION_START (R329): The tag answers REQA or WUPA and a field transaction begins. -/
  | tagTransactionStart
  /-- GET_ORIGIN (R336): Returns the tag's originality signature. -/
  | getOrigin
  /-- DESELECT (R329): Ends the field transaction. -/
  | deselect
  /-- HLTA (R329): Halts the tag and ends the transaction. -/
  | hlta
  /-- TAG_IDLE_TIMEOUT (R329): 1 s without a frame ends the field transaction. -/
  | tagIdleTimeout
  /-- QUIET_HOLD_END (R334): QUIET_T expires and the tag answers fields again. -/
  | quietHoldEnd
  /-- AO_PRES_CLOSE (R355): The host closes both presence windows. -/
  | aoPresClose
  /-- CRACK_FAIL (R377): A failed crack test stops all panel drive and raises EV_DISPLAY_FAULT. -/
  | crackFail
  /-- RECOVER_RETRY (R378): RECOVER of a read-back failure runs after 10 s and then every 60 s. -/
  | recoverRetry
  /-- PANEL_POWER_FAIL (R379): EP_PWR_GOOD is not reached within 40 ms, or falls; POWER is set and retried after 10 s. -/
  | panelPowerFail
  /-- PANEL_POWER_OFF (R381): PWR_HOLD after the last update, panel power goes off. -/
  | panelPowerOff
  /-- STATUS (R386): Returns HOST_IRQ. -/
  | status
  /-- UPD_OPEN (R415): Opens the inactive slot for receiving. -/
  | updOpen
  /-- UPD_VERIFY (R415): Verifies the received slot into STAGED or REJECTED. -/
  | updVerify
  /-- UPD_DISCARD (R415): Empties the inactive slot. -/
  | updDiscard
  /-- UPD_ACT (R415): Activates the inactive slot under installer presence. -/
  | updAct
  /-- AUTO_ACTIVATION (R415): A staged slot with AUTO activates at staging or at ACT_TIME once its conditions hold. -/
  | autoActivation
  /-- HANDOVER_READY (R420): After self-test and migration the standby core reports handover-ready and the service pause begins. -/
  | handoverReady
  /-- HANDOVER_T_EXPIRY (R415): HANDOVER_T passes and the slot fails. -/
  | handoverTExpiry
  /-- TAKEOVER_COMPLETE (R420): The new core becomes active, the maps switch and EV_HANDOVER is raised with outcome 1. -/
  | takeoverComplete
  /-- HANDOVER_ABORT (R420): The new core has not taken over by H + 45 ms, so the old core resumes and the slot fails. -/
  | handoverAbort
  /-- FORME_LOAD (R413): At an idle moment a verified forme is loaded and the strands restarted within 40 ms. -/
  | formeLoad
  /-- DIE_COOL (R437): After 60 s below 120 °C, HOT_HELD and its OUTLET_HELD clear. -/
  | dieCool
  /-- TLS_CLOSED (R144): The vehicle closes the TLS connection, which ends the HLC session, sets HLC_STATUS to 5 with reason 3 and may raise EV_HLC_ESTOP. -/
  | tlsClosed
  /-- PILOT_SHORT_CLEAR (R130): 1 s after the high plateau leaves band E, the supervisor releases the pilot trip held for SHORT and raises EV_TRIP_CLEAR. -/
  | pilotShortClear
  /-- PANEL_POWER_RETRY (R379): 10 s after a panel power failure, Platen retries panel power and the RECOVER of the regions left unknown. -/
  | panelPowerRetry
  deriving DecidableEq, Repr

end Sys2Proof
end

