-- ==== Sys2Proof/Decode.lean ====
section
/-! DEFINITION. The opcode table gives its rows no bits, so no word spells a command; and the fields of the Capstan's
instruction words (04 R69). -/
namespace Sys2Proof

/-- The command that a word spells by the bits of the opcode table: its rows give none. -/
def decodeTableWord (_nbits _w : Nat) : Option Instr := none

/-! ## Fields of an instruction word, from its bits [25:0] (04 R69) -/

/-- G, [25:24]. -/
def fieldG (b : BitVec 26) : Fin 4 := Fin.ofNat 4 (bits b.toNat 24 2)
/-- RD, R or RL, [23:20]. -/
def fieldRD (b : BitVec 26) : Fin 16 := Fin.ofNat 16 (bits b.toNat 20 4)
/-- RA or RX, [19:16]. -/
def fieldRA (b : BitVec 26) : Fin 16 := Fin.ofNat 16 (bits b.toNat 16 4)
/-- RB, [15:12]. -/
def fieldRB (b : BitVec 26) : Fin 16 := Fin.ofNat 16 (bits b.toNat 12 4)
/-- F, [11:8]. -/
def fieldF (b : BitVec 26) : Nat := bits b.toNat 8 4
/-- [7:0]. -/
def fieldLow8 (b : BitVec 26) : Nat := bits b.toNat 0 8
/-- M of format I, [15:14]. -/
def fieldM (b : BitVec 26) : Nat := bits b.toNat 14 2
/-- IMM, [13:0], zero-extended. -/
def fieldImm (b : BitVec 26) : Nat := bits b.toNat 0 14
/-- IMM, sign-extended to 32 bits. -/
def fieldSimm (b : BitVec 26) : Word := (b.truncate 14).signExtend 32
/-- PD of format P, [15:14]. -/
def fieldPDp (b : BitVec 26) : Fin 4 := Fin.ofNat 4 (bits b.toNat 14 2)
/-- M of format P, [13:12]. -/
def fieldMp (b : BitVec 26) : Nat := bits b.toNat 12 2
/-- PORT, [11:0]. -/
def fieldPort (b : BitVec 26) : Nat := bits b.toNat 0 12
/-- The 8-bit value of PUT and PUTS in their M = 1 form, [23:16]. -/
def fieldImm8 (b : BitVec 26) : Nat := bits b.toNat 16 8
/-- DISP, [16:0], sign-extended. -/
def fieldDisp (b : BitVec 26) : BitVec 17 := b.truncate 17
/-- MASK, [8:0]. -/
def fieldMask (b : BitVec 26) : BitVec 9 := b.truncate 9
/-- PD of CMP, CMP64 and PLOG, [21:20]. -/
def fieldPDa (b : BitVec 26) : Fin 4 := Fin.ofNat 4 (bits b.toNat 20 2)
/-- PA of PLOG, [17:16]. -/
def fieldPA (b : BitVec 26) : Fin 4 := Fin.ofNat 4 (bits b.toNat 16 2)
/-- PB of PLOG, [13:12]. -/
def fieldPB (b : BitVec 26) : Fin 4 := Fin.ofNat 4 (bits b.toNat 12 2)
/-- EV of SVCA, [23:16]. -/
def fieldEvSvca (b : BitVec 26) : BitVec 8 := BitVec.ofNat 8 (bits b.toNat 16 8)
/-- PD of GSET, [23:22]. -/
def fieldPDg (b : BitVec 26) : Fin 4 := Fin.ofNat 4 (bits b.toNat 22 2)
/-- EV of GSET, [21:14]. -/
def fieldEvGset (b : BitVec 26) : BitVec 8 := BitVec.ofNat 8 (bits b.toNat 14 8)
/-- EXP of GSET, [13:0]. -/
def fieldExp (b : BitVec 26) : BitVec 14 := b.truncate 14
/-- ALT of the second GSET word, [31:15]. -/
def fieldAlt (w : Word) : BitVec 17 := BitVec.ofNat 17 (bits w.toNat 15 17)
/-- TMO of the second GSET word, [14:0]. -/
def fieldTmo (w : Word) : Nat := bits w.toNat 0 15

/-- The first condition of a list that holds, by the code beside it: the fault order of an instruction (04 R89). -/
def firstFault : List (Bool × Nat) → Option Nat
  | [] => none
  | (b, c) :: fs => if b then some c else firstFault fs

/-- Format A with F = 0: [7:0] and F are reserved (04 R68, R69). -/
def illA (b : BitVec 26) : Bool := fieldLow8 b != 0 || fieldF b != 0
/-- Format I with M = 0 (04 R74). -/
def illI (b : BitVec 26) : Bool := fieldM b != 0
/-- A shift by an immediate: IMM[13:5] and M are 0 (04 R74). -/
def illShift (b : BitVec 26) : Bool := fieldM b != 0 || 32 ≤ fieldImm b
/-- A register field that must name the low register of a pair names an odd one (04 R70). -/
def oddPair (r : Fin 16) : Bool := r.val % 2 == 1

/-- The opcodes of the map, [31:26] (04 R72). -/
def opcodeOf (w : Word) : Nat := bits w.toNat 26 6
/-- Bits [25:0] of an instruction word. -/
def bodyOf (w : Word) : BitVec 26 := w.truncate 26
/-- Words of an instruction by its opcode: LDI and GSET take two (04 R66, R72). -/
def wordsOf (op : Nat) : Nat := if op = 0x1A ∨ op = 0x36 then 2 else 1
/-- Issue cycles of an instruction by its opcode: PUT and PUTS take two (04 R72). -/
def cyclesOf (op : Nat) : Nat := if op = 0x2B ∨ op = 0x2C then 2 else 1

end Sys2Proof
end

