-- ==== Sys2Proof/Config.lean ====
section
/-! DEFINITION. The values the manual leaves open: constants with no body, so that no proof can see what they are
(assumption log 2). -/
namespace Sys2Proof.Config

/-- The next value the manual leaves open, as a number; callers cut it to the width or the range the manual gives. -/
opaque freeNat : Nat → Nat

/-- As `freeNat`, for 256-bit results of a cryptographic engine. -/
opaque freeWide : Nat → BitVec 256

/-- The energy in mJ that the clamp takes up in a turn-off, by the number of the turn-off: it is measured (08 R167). -/
opaque clampMj : Nat → Nat

/-- SHA-256 of a byte string: the manual names the function and does not define it. -/
opaque sha256 : List Byte → BitVec 256

/-- HMAC-SHA-256 of a key and a message. -/
opaque hmac : List Byte → List Byte → BitVec 256

/-- The secret of the root knot, from the on-die PUF response and the fused seed (16 R340). -/
opaque pufRoot : BitVec 256

/-- AES-128 of a block under a key (16 R347, engines READER and TAG). -/
opaque aes128 : BitVec 128 → BitVec 128 → BitVec 128

/-- AES-128 CMAC of a message under a key (16 R347, engine TAG). -/
opaque cmac : BitVec 128 → List Byte → BitVec 128

/-- The public key, X then Y, of a P-256 scalar (false) or of a P-384 scalar (true). -/
opaque publicKey : Bool → Nat → List Byte

/-- The ECDSA P-256 signature of a message under a private scalar; the last argument is the index of the nonce drawn. -/
opaque ecdsaSign : Nat → List Byte → Nat → List Byte

/-- Whether an ECDSA P-256 signature verifies: public key, message, signature. -/
opaque ecdsaVerify : List Byte → List Byte → List Byte → Bool

/-- The ECDH secret of a private scalar and a public key, on P-256. -/
opaque ecdh : Nat → List Byte → BitVec 256

/-- What AES-128-GCM makes of a plaintext, given the key, the nonce, the additional data and the plaintext: the ciphertext,
then the tag (12 R257). -/
opaque gcm : List Byte → List Byte → List Byte → List Byte → List Byte

/-- Whether a firmware image's signature verifies under the fused firmware key (19 R412): what is signed, the signature. -/
opaque imageSigned : List Byte → List Byte → Bool

/-- Whether a forme's signature verifies under the forme key or an integrator key (19 R413): what is signed, the signature,
the trust store. -/
opaque formeSigned : List Byte → List Byte → List Byte → Bool

/-- The version of a legal section, from its bytes (19 R414). -/
opaque legalVersion : List Byte → Nat

/-- The pairing key, with the label "PAIR", from an ECDH secret (16 R353). -/
opaque pairKey : BitVec 256 → BitVec 128

/-- A node secret wrapped under a pairing key, and unwrapped again (16 R353). -/
opaque wrap : BitVec 128 → BitVec 256 → List Byte
opaque unwrap : BitVec 128 → List Byte → Option (BitVec 256)

/-- Where the card profile table begins in the certificates and trust store partition (14 R310). -/
opaque profileTable : Nat

/-- A byte of a store region whose layout the manual does not give: the region's address, the index of the read. -/
opaque storeByte : Nat → Nat → Byte

/-- The display-asset partition, as the cells listed in it (17 R362 to R366): whether an asset stands there and passes its
check; the grey it gives the pixel at (x, y) of a region of width w and height h, with its parameter bytes; the waveform
file, native (false) or compatible (true); the bytes of the trim map; the register writes of the PMIC script. -/
opaque assetSound : List (Nat × BitVec 8) → Nat → Bool
opaque assetGrey : List (Nat × BitVec 8) → Nat → List (BitVec 8) → Nat → Nat → Nat → Nat → BitVec 4
opaque waveFile : List (Nat × BitVec 8) → Bool → List (BitVec 8)
opaque trimMap : List (Nat × BitVec 8) → List (BitVec 8)
opaque pmicScript : List (Nat × BitVec 8) → List (BitVec 8 × BitVec 8)

/-- Whether the block with this number of the display-asset partition is in use by updates that show these assets. -/
opaque assetInUse : List (Nat × BitVec 8) → List Nat → Nat → Bool

/-- What the legal section draws in region 0: the grey of the pixel at (x, y), by composition serial (17 R370). -/
opaque legalGrey : Nat → Nat → Nat → BitVec 4

/-- Where the alternation of the proof marker starts on each of the four sides: top, bottom, left, right (17 R373). -/
opaque markerStart : Fin 4 → Nat

/-- The tag's UID bytes, its originality signature, and the control block's bytes: address, index of the read (15 R327,
R336). -/
opaque tagUid : BitVec 56
opaque tagOrigin : List (BitVec 8)
opaque tagControl : Nat → Nat → BitVec 8

/-- The derivation label of the commissioning key in engine TAG (15 R329, 16 R352). -/
opaque tagKeyLabel : List (BitVec 8)

end Sys2Proof.Config
end

