-- ==== Sys2Proof/Machine/Types.lean ====
section
/-! DEFINITION. The kinds of thing that State holds: register fields, strands and their galleys, service calls,
queues, records. Plain data throughout. -/
namespace Sys2Proof.Machine

/-- A register field: the address of its register, its lowest bit, its width and its Reset column (R4, R5). -/
structure Field where
  addr : Nat
  lo : Nat
  width : Nat
  reset : Nat
  deriving DecidableEq, Repr

/-- A finite map from numbers: strictly rising keys, each with its value. -/
abbrev NMap (α : Type) := List (Nat × α)

/-! ## Modes (02) -/

/-- The modes of the module (R21), and no power at all. -/
inductive Mode where
  | noPower | backup | tagOnly | boot | factory | commission | standalone | hub | head | repeater | standby | handover
  | inert
  deriving DecidableEq, Repr

/-- SYS_MODE.MODE of each mode (R21); with no power nothing reads it. -/
def Mode.code : Mode → Nat
  | .noPower => 0 | .backup => 0 | .tagOnly => 1 | .boot => 2 | .factory => 3 | .commission => 4
  | .standalone => 5 | .hub => 6 | .head => 7 | .repeater => 8 | .standby => 9 | .handover => 10 | .inert => 11

/-- The role mode of a role (R23). -/
def roleMode : Role → Mode
  | .standalone => .standalone | .hub => .hub | .head => .head | .repeater => .repeater

/-! ## The Capstan (03, 04, 05) -/

/-- The states of a strand (R41). -/
inductive StrandState where
  | disabled | waiting | ready | running | blocked | stalled | halted | faulted
  deriving DecidableEq, Repr

/-- ST_STATE.STATE of each state (R41). -/
def StrandState.code : StrandState → Nat
  | .disabled => 0 | .waiting => 1 | .ready => 2 | .running => 3
  | .blocked => 4 | .stalled => 5 | .halted => 6 | .faulted => 7

/-- One thing held in a galley (R87, R93 to R95). -/
inductive HeldKind where
  /-- Bytes written in the 64-byte unit `k` of the window, keyed by their place in the unit (R93). -/
  | unit (k : Nat) (bytes : NMap Byte)
  /-- The sum added to ledger accumulator `idx` (R87). -/
  | acc (idx : Nat) (sum : BitVec 64)
  /-- An outward port write (R87). -/
  | port (port : Nat) (arg value : Word)
  /-- An enqueue of `item` to queue `q` (R87). -/
  | enq (q : Fin 64) (item : Word)
  /-- `count` items taken from queue `q`; `void` once a flush has emptied it (R94). -/
  | take (q : Fin 64) (count : Nat) (void : Bool)
  /-- An outward SVC with w2 to w6 as captured (R87). -/
  | svc (num : Nat) (args : List Word)
  /-- An outward SVCA with its completion event and the case address of its result block (R87). -/
  | svca (num : Nat) (args : List Word) (ev : BitVec 8) (block : Nat) (blockOff : Nat)
  /-- A software event with its outcome word (R87). -/
  | sig (ev : BitVec 8) (word : Word)
  deriving DecidableEq, Repr

/-- A galley entry: what it holds, whether it is fenced whole, and the bits of a held OUT_ON write that are fenced
(R95). -/
structure Held where
  kind : HeldKind
  fenced : Bool := false
  cut : BitVec 12 := 0
  deriving DecidableEq, Repr

/-- What a galley has resolved to, not yet performed (R88, R98). -/
inductive Resolution where
  | lockUp
  | pie (word : Word)
  | timeout
  deriving DecidableEq, Repr

/-- An open galley (R87, R88, R96 to R99). -/
structure Galley where
  ev : BitVec 8
  exp : BitVec 14
  pd : Nat
  alt : BitVec 17
  /-- STR_USEC time at which TMO ms have passed. -/
  tmoEnd : Nat
  ckW : Vector Word 16
  ckP : BitVec 4
  /-- The most entries it may hold (R97). -/
  limit : Nat
  /-- What it holds, in program order. -/
  held : List Held := []
  /-- The SVCA call whose completion alone resolves it (R88). -/
  call : Option Nat := none
  resolved : Option Resolution := none
  /-- The state the strand held at resolution (R99 step 5). -/
  back : StrandState := .running
  /-- The commit cycle of the lock-up has run (R99 step 3). -/
  committed : Bool := false
  /-- Held operations fenced so far in the lock-up (R95). -/
  fenced : Nat := 0
  deriving DecidableEq, Repr

/-- Why a strand is BLOCKED (R41, R42, R85, R101). -/
inductive Block where
  /-- In an SVC, until call `id` completes. -/
  | svc (id : Nat)
  /-- In an ENQW of `item` to queue `q`. -/
  | enqw (q : Fin 64) (item : Word) (pd : Nat)
  /-- In a DEQW from queue `q` into register `rd`. -/
  | deqw (q : Fin 64) (rd : Nat) (pd : Nat)
  /-- In a store read of byte address `addr` into register `rd` (R80, R110). -/
  | storeRead (rd : Nat) (addr : Word)
  /-- In an SVC of an outward service held in the galley (R87). -/
  | svcHeld
  /-- At a fifth SVCA, which has not been issued (R85). -/
  | svca
  /-- Inside a lock-up, whose next held operation cannot complete yet (R101). -/
  | lockUp
  deriving DecidableEq, Repr

/-- A strand: what it holds in hardware (R37) and its entry of the strand table (03, Registers). -/
structure Strand where
  w : Vector Word 16 := Vector.replicate 16 0
  /-- p3 to p0, p0 in bit 0. -/
  p : BitVec 4 := 1
  pc : BitVec 17 := 0
  /-- STR_USEC time at which the running timer reaches 0 (R37, R44). -/
  timerEnd : Option Nat := none
  /-- The timer has fired and no WAIT has taken it. -/
  timerFired : Bool := false
  pending : BitVec 8 := 0
  st : StrandState := .disabled
  /-- State kept for RESUME while HALTED (R42). -/
  prev : StrandState := .ready
  /-- Mask of the WAIT the strand stopped at, until it issues again (R44). -/
  waitMask : Option (BitVec 9) := none
  block : Option Block := none
  galley : Option Galley := none
  /-- STR_GAL: the last resolution of its galley (R107). -/
  lastGal : BitVec 10 := 0
  /-- Instructions left in its turn (R45, R46). -/
  turnLeft : Nat := 0
  /-- Issue cycles of the present class-0 activation (R50). -/
  used : Nat := 0
  /-- CAP_HMAX0 of the present class-0 activation (R50). -/
  hmax : Nat := 64
  /-- ST_INFO.HWM. -/
  hwm : Nat := 0
  /-- ST_INFO.FAULT. -/
  fault : Nat := 0
  /-- RESUME lets it pass the breakpoint it stands at (R65). -/
  bpPass : Bool := false
  /-- Its FALLBACK_PUT is armed (R59). -/
  armed : Bool := false
  /-- A galley entry that was freed is kept for it (R96). -/
  reserved : Bool := false
  /-- STR_USEC times at which the forme restarted it after a fault (R60). -/
  restarts : List Nat := []
  /-- ST_CFG.CLASS (R45, R49). -/
  cls : Fin 4 := 3
  /-- ST_CFG.ENTRY. -/
  entry : BitVec 17 := 0
  /-- ST_WIN.BASE and SIZE, in 64-byte units (R38). -/
  winBase : Nat := 0
  winSize : Nat := 0
  /-- ST_EVSUB0 and ST_EVSUB1 as last written, and as in force since the last WAIT (R43). -/
  sub : Vector (BitVec 8) 8 := Vector.replicate 8 0
  subOn : Vector (BitVec 8) 8 := Vector.replicate 8 0
  /-- ST_EVEN.EN as last written, and as in force since the last WAIT. -/
  en : BitVec 8 := 0
  enOn : BitVec 8 := 0
  /-- ST_FBK (R58). -/
  fbEn : Bool := false
  fbPort : Nat := 0
  fbValue : Nat := 0
  deriving DecidableEq, Repr

/-- A strand as PD7 leaves it at reset (03, Registers). -/
def Strand.reset : Strand := {}

/-- A service call in firmware (R84, R85, R88). -/
structure Call where
  id : Nat
  strand : Fin 320
  num : Nat
  /-- w2 to w6 as read when the call was issued. -/
  args : List Word
  /-- The presentation there was when it was issued (14 R309). -/
  pres : Nat := 0
  /-- SVCA: the completion event and the case address of the result block. -/
  async : Option (BitVec 8 × Nat)
  /-- The result word and the values returned, once the service has run. -/
  done : Option (Word × List Word) := none
  /-- The completion has been delivered; kept until a GSET uses it (R88). -/
  delivered : Bool := false
  /-- A GSET has used it (R88). -/
  used : Bool := false
  /-- Used up with a later call: its completion resolves no galley (R88). -/
  spent : Bool := false
  /-- The caller was disabled, enabled, restarted or reset (R85). -/
  abandoned : Bool := false
  deriving DecidableEq, Repr

/-! ## The pilot monitor (07 R121 to R123) -/

/-- The bands of the high plateau (R122). -/
inductive Band where
  | over | a | b | c | d | e | under
  deriving DecidableEq, Repr

/-- The classes of a low-plateau sample (R122). -/
inductive LowClass where
  | over | good | suspect | absent
  deriving DecidableEq, Repr

/-- What the monitor counts: the band of the latest high-plateau sample and the counted samples in it without a break, the class
of the latest low-plateau sample, the samples without a break that meet each of the anomalies 1 to 5, the periods without a
break whose duty is off, and the times of the last changes among B, C and D. -/
structure Monitor where
  band : Option Band := none
  run : Nat := 0
  low : Option LowClass := none
  viol : Vector Nat 5 := Vector.replicate 5 0
  dutyRun : Nat := 0
  moves : List Nat := []
  deriving DecidableEq, Repr

/-! ## Queues (18) -/

/-- Who holds the take of a queue: a strand's galley (R94). -/
structure Queue where
  /-- The items, head first. -/
  items : List Word := []
  /-- The strand whose galley holds a take, and how many items it has taken (R94). -/
  taker : Option (Fin 320) := none
  taken : Nat := 0
  /-- The stale notice is armed (R396). -/
  staleArmed : Bool := false
  deriving DecidableEq, Repr

/-! ## Pilot, contactors, outputs and supervisor (07, 08, 09) -/

/-- What CP_DRV drives (R126, R127, R21). -/
inductive Line where
  | hiZ | plus12 | minus12 | pwm
  deriving DecidableEq, Repr

/-- The disconnects that run to a timeline (R152): controlled, pilot, and the controlled disconnect of violation
D_NOVENT, which keeps PWM (R130). -/
inductive DiscKind where
  | controlled | pilot | noVent
  deriving DecidableEq, Repr

/-- Where the contactor pair stands in a close or an opening (R151, R153, R157). -/
inductive Stage where
  /-- Both coils off, the opening judged. -/
  | opened
  /-- The coil of the contactor that is not the duty contactor is on (step 1 of R151). -/
  | closing
  /-- Both coils are on, the close not confirmed (step 2). -/
  | closing2
  | closed
  /-- Step 2 of R153. -/
  | currentWait
  /-- The target zero is picked; the duty coil goes off before it (step 3). -/
  | opening
  /-- The duty coil is off (step 4). -/
  | dutyOff
  /-- After the last coil-off, until MIR_T has passed. -/
  | feedback
  /-- One contactor commanded open and judged, the other commanded closed (R157). -/
  | split
  deriving DecidableEq, Repr

/-- Why the CONTACTOR trip is held (R186 bit 8). -/
inductive ConTrip where
  | dropout | closeFail | mismatch
  deriving DecidableEq, Repr

/-- An output (R162, R163). -/
structure OutCh where
  /-- Commanded on. -/
  on : Bool := false
  /-- Its high-side cell conducts; in a bridge its low-side cell may instead (R169). -/
  high : Bool := false
  low : Bool := false
  /-- Its cell has shut off hot and awaits its restart (R163). -/
  hot : Bool := false
  /-- Its inrush window is open (R162). -/
  inrush : Bool := false
  /-- STR_USEC times of its thermal restarts, newest first (R163). -/
  restarts : List Nat := []
  deriving DecidableEq, Repr

/-- Who waits for a self-test: the cause to release, and whether the reclose policy asks (R190, R191). -/
structure TestAsk where
  bit : Nat
  reclose : Bool
  deriving DecidableEq, Repr

/-- A residual-current self-test that is due or runs (R176 to R178). -/
structure SelfTest where
  /-- Steps of R177 done: 0 it is due, 1 the zero check runs, 2 at 1.2 × DC_TH, 3 at 10 × DC_TH, 4 with FG_TST off. -/
  step : Nat := 0
  /-- Tier DC 2 has been met since FG_TST rose to 10 × DC_TH. -/
  tier : Bool := false
  /-- It is the repeat of a failed test (R178). -/
  again : Bool := false
  /-- It came due at a change from A to B (R176). -/
  plugIn : Bool := false
  asks : List TestAsk := []
  deriving DecidableEq, Repr

/-- The vehicle's unanswered request (R139, R141). -/
structure HlcReq where
  /-- Record offset from VI_REC.BASE. -/
  offset : Nat
  /-- The message ID of R138. -/
  msg : Nat
  /-- Its response has an EVSEProcessing field (R141). -/
  processing : Bool
  /-- STR_USEC time of the vehicle's timeout; DEADLINE is 250 ms before it (R141). -/
  timeout : Nat
  deriving DecidableEq, Repr

/-- Response codes of firmware's own answers, and those a strand chooses by value (R140, R143). -/
inductive HlcCode where
  | ok | ongoing | failed | noNegotiation | sequenceError | unknownSession | wrongEnergyTransferMode
  | serviceSelectionInvalid | noCertificateAvailable
  | chosen (value : Nat)
  deriving DecidableEq, Repr

/-- What the module answered the vehicle: the message ID, 0 for supportedAppProtocol, its response code, and the fields
that a strand chose, limited as R140 says, or the bytes of a certificate answer (R142). -/
structure HlcReply where
  msg : Nat
  code : HlcCode
  fields : List Nat := []
  deriving DecidableEq, Repr

/-- What firmware fills into a response beside the strand's fields (R140): the session identifier, the EVSEID of the
commissioning record, the IDs of the services offered, the limit of the one schedule of an ISO 15118-2 session in 0.01 W, the
register of the meter for import in mWh, and ledger time. -/
structure HlcFill where
  session : Nat
  evseid : List Byte
  services : List Nat
  limit : Option Nat
  /-- The length of that schedule, s. -/
  schedule : Option Nat
  meter : Nat
  /-- The signature of the meter reading. -/
  signature : List Byte
  time : Nat
  deriving DecidableEq, Repr

/-! ## Logs and settings (19) -/

/-- An entry of the event log or of the violation log (R410). -/
structure LogEntry where
  time : Nat
  /-- The port block number of the source. -/
  source : Nat
  /-- The violation k, or the event code. -/
  code : Nat
  /-- Session number or channel. -/
  session : Nat
  value : Nat
  deriving DecidableEq, Repr

/-- A settings or configuration item: its ID and its LEN value bytes (R411). -/
structure SettingItem where
  item : Nat
  value : List Byte
  deriving DecidableEq, Repr

/-! ## Keys (16) -/

/-- The states of a knot that is not free (R340). -/
inductive KnotState where
  | live | cut | imported
  deriving DecidableEq, Repr

/-- STATE of a knot table entry (R340). -/
def KnotState.code : KnotState → Nat
  | .live => 1 | .cut => 2 | .imported => 3

/-- An entry of the knot table (R340). -/
structure Knot where
  parent : Nat
  depth : Nat
  state : KnotState := .live
  mask : BitVec 8
  cutClass : Nat
  label : List Byte
  epoch : Nat := 0
  deriving DecidableEq, Repr

/-- Knots 1 to 6, the subtree knots, as they exist from manufacture (R341). -/
def Knot.subtrees : NMap Knot := [
  (1, { parent := 0, depth := 1, mask := 0x08, cutClass := 2, label := [0x4C, 0x45, 0x47, 0x41, 0x4C] }),
  (2, { parent := 0, depth := 1, mask := 0x15, cutClass := 0, label := [0x56, 0x45, 0x48, 0x49, 0x43, 0x4C, 0x45] }),
  (3, { parent := 0, depth := 1, mask := 0x06, cutClass := 1, label := [0x53, 0x49, 0x54, 0x45] }),
  (4, { parent := 0, depth := 1, mask := 0x20, cutClass := 0, label := [0x54, 0x41, 0x47] }),
  (5, { parent := 0, depth := 1, mask := 0x90, cutClass := 3, label := [0x53, 0x54, 0x4F, 0x52, 0x45] }),
  (6, { parent := 0, depth := 1, mask := 0x55, cutClass := 0, label := [0x55, 0x53, 0x45, 0x52] })]

/-- A working key in a slot: what it was derived from, and the key (R344, R345). -/
structure WorkKey where
  parent : Nat
  epoch : Nat
  /-- The parent and every knot above it. -/
  lineage : List Nat
  label : List Byte
  engine : Nat
  wide : Bool
  key : Nat
  deriving DecidableEq, Repr

/-- A slot of the pool: its working key and its holders other than strands (R345). -/
structure Slot where
  work : Option WorkKey := none
  host : Bool := false
  firmware : Bool := false
  deriving DecidableEq, Repr

/-- A slot that a strand holds; `cut` once a cut has scrubbed it (R345, R350). -/
structure KeyHold where
  strand : Fin 320
  slot : Nat
  cut : Bool := false
  deriving DecidableEq, Repr

/-! ## Reader and directory (14) -/

/-- A card of the presentation: its UID bytes in the order the card sends them, and its type (R306). -/
structure Card where
  uid : List Byte
  typeB : Bool
  deriving DecidableEq, Repr

/-- An entry of the credential directory (R314). -/
structure DirEntry where
  len : Nat
  /-- UID bytes 0 to 6. -/
  uid : List Byte
  flags : Nat
  account : Nat
  gen : Nat
  validFrom : Nat
  validTo : Nat
  ref : Nat
  group : Nat
  check : Nat
  deriving DecidableEq, Repr

/-- An operation of a delta: a put, or a delete (R320). -/
structure DirOp where
  delete : Bool
  entry : DirEntry
  deriving DecidableEq, Repr

/-- A DIR_CMD operation that waits: OP, OFFSET, and the 32 bytes it was given (R319, 19 R419). -/
structure DirCommand where
  op : Nat
  offset : Nat
  bytes : List Byte
  deriving DecidableEq, Repr

/-- A full series under way: its generation, and the part it takes next (R322). -/
structure DirSeries where
  gen : Nat
  next : Nat
  deriving DecidableEq, Repr

/-! ## Metrology (10) -/

/-- The step of the rotation or of a check that is under way (R206). -/
inductive RotPhase where
  | idle
  /-- The free chain `f` converts input `k` beside the chain that serves it. -/
  | overlap (f k : Nat)
  /-- Chain `c` measures zero. -/
  | zero (c : Nat)
  /-- Chain `c` measures the reference; its zero reading under its trims, 10 fV. -/
  | reference (c : Nat) (zero : Int)
  deriving DecidableEq, Repr

/-! ## The ledger (11) -/

/-- A demand interval that is open (R222). -/
structure Interval where
  start : Nat := 0
  tariff : Nat := 1
  /-- Nominal length, minutes. -/
  nominal : Nat := 15
  /-- RTC seconds since it opened: its real length so far. -/
  secs : Nat := 0
  imp : Nat := 0
  exp : Nat := 0
  rea : Nat := 0
  /-- FLAGS of its record (R240). -/
  flags : BitVec 8 := 0
  /-- Blocks whose additions differed (R220). -/
  diffs : Nat := 0
  deriving DecidableEq, Repr

/-- The energy registers that a BILLING and a BOUNDARY record hold (R240). -/
structure BillRegs where
  totals : Vector Nat 3
  imp : Vector Nat 8
  exp : Vector Nat 8
  deriving DecidableEq, Repr

/-- A boundary that ledger time has reached and whose BOUNDARY record is not yet written (R227). -/
structure Boundary where
  time : Nat
  /-- KINDS of its record: tariff, demand, billing, activation, from snapshot, skipped, during outage (R240). -/
  kinds : BitVec 8
  oldTariff : Nat
  newTariff : Nat
  /-- FLAGS that the interval it ends takes, none where it ends none. -/
  ends : Option (BitVec 8) := none
  /-- The interval that starts at it. -/
  opens : Option Interval := none
  /-- The calendar it activates: CAL_ID and activation time. -/
  activates : Option (Nat × Nat) := none
  /-- The registers with the blocks before it, taken as the block that starts at it begins (R227). -/
  regs : Option BillRegs := none
  /-- The block that started at it has ended. -/
  ended : Bool := false
  deriving DecidableEq, Repr

/-- A prepayment account: the balance B and the emergency limit E, 0.001 unit (R234). -/
structure Account where
  b : Int := 0
  e : Nat := 0
  deriving DecidableEq, Repr

/-- The open session (R238). -/
structure Session where
  number : Nat
  start : Nat
  entry : Nat
  contract : Nat
  impOpen : Nat
  exp : Nat := 0
  /-- Cost so far, 10⁻¹⁰ currency units (R234). -/
  cost : Int := 0
  /-- Whole 0.001 units taken so far. -/
  taken : Int := 0
  /-- FLAGS [3:1] of its record: interrupted, ESTIMATED, clock change. -/
  flags : BitVec 8 := 0
  tariffs : BitVec 8 := 0
  prepay : Bool := false
  account : Nat := 0
  deriving DecidableEq, Repr

/-- What a snapshot or a register image holds (R230, R233), and what runs while PD7 is up. -/
structure LedRegs where
  /-- L and W when the copy was made, and the RTC seconds counted by then. -/
  ltime : Nat := 0
  wall : Nat := 0
  rtcSecs : Nat := 0
  /-- Total import, export, reactive. -/
  totals : Vector Nat 3 := #v[0, 0, 0]
  imp : Vector Nat 8 := Vector.replicate 8 0
  exp : Vector Nat 8 := Vector.replicate 8 0
  /-- Maximum demand, W, and the end of its interval. -/
  maxDem : Vector (Nat × Nat) 8 := Vector.replicate 8 (0, 0)
  intv : Interval := {}
  lastClose : Nat := 0
  period : Nat := 0
  /-- Year × 12 + month of the last automatic billing close. -/
  billMonth : Nat := 0
  accounts : NMap Account := []
  sess : Option Session := none
  /-- Boundaries reached and not yet closed, oldest first. -/
  pend : List Boundary := []
  /-- The tariff that the calendar gives for L. -/
  tariff : Nat := 1
  unsure : Bool := false
  deriving DecidableEq, Repr

/-- A physical block of the store, as an entry of its die's map says (19 R403). -/
structure MapEntry where
  /-- Its logical block, or 0xFFFF for a pool block. -/
  logical : Nat := 0xFFFF
  inUse : Bool := false
  /-- Second copy of a mirrored block. -/
  second : Bool := false
  retired : Bool := false
  erased : Bool := false
  /-- In store service: a map block, or the partner of the last-gasp area (19 R404). -/
  service : Bool := false
  erases : Nat := 0
  /-- Write counter of the logical block. -/
  counter : Nat := 0
  /-- GCM tag, for an encrypted block. -/
  tag : BitVec 128 := 0
  deriving DecidableEq, Repr

/-- An entry of a map log: the entries that changed, by physical block, and its CRC (19 R403). -/
structure MapLog where
  changes : NMap MapEntry
  crc : BitVec 32
  deriving DecidableEq, Repr

/-- A map block: its sequence, its snapshot and its log, oldest entry first (19 R403). -/
structure MapBlock where
  seq : Nat := 0
  snap : NMap MapEntry := []
  log : List MapLog := []
  deriving DecidableEq, Repr

/-- A die of the store (19 R403 to R407). -/
structure Die where
  /-- The blocks that hold a map. -/
  maps : NMap MapBlock
  /-- The map block in use. -/
  mapAt : Nat
  /-- The map as it stands: the entries that are not those of manufacture, by physical block. -/
  live : NMap MapEntry := []
  /-- Free pool blocks. -/
  free : Nat
  /-- Those of them that hold the shadows of a migration (19 R418). -/
  shadow : Nat := 0
  /-- Blocks that are to be retired at their next erase (19 R407). -/
  condemned : List Nat := []
  deriving DecidableEq, Repr

/-- A record of the ring: its position in bytes since the ring began, and its bytes (R239). -/
structure Record where
  pos : Nat
  bytes : List Byte
  deriving DecidableEq, Repr

/-- A record that waits to be written: TYPE, CHANNEL, FLAGS and body (19, no free block). -/
structure RecDraft where
  type : Nat
  channel : Nat
  flags : Nat
  body : List Byte
  deriving DecidableEq, Repr

/-- A switch point of a day profile (R225). -/
structure SwitchPoint where
  hour : Nat
  minute : Nat
  tariff : Nat
  deriving DecidableEq, Repr

/-- A tariff calendar that was accepted (R225). -/
structure Calendar where
  id : Nat
  activate : Nat
  /-- Start month, start day, week profile. -/
  seasons : List (Nat × Nat × Nat)
  /-- Day profiles for Monday to Sunday. -/
  weeks : List (List Nat)
  days : List (List SwitchPoint)
  /-- Year − 2000 or 0xFF, month, day, day profile. -/
  specials : List (Nat × Nat × Nat × Nat)
  /-- Import price, export price, 0.0001 unit per kWh. -/
  prices : List (Nat × Nat)
  /-- Ledger time of the change, new offset in minutes. -/
  dst : List (Nat × Int)
  offset : Int
  billDay : Nat
  deriving DecidableEq, Repr

/-- An entry of the AO tamper log (R247). -/
structure TamperEntry where
  time : Nat
  input : Nat
  opened : Bool
  flags : Nat
  deriving DecidableEq, Repr

/-! ## Firmware slots (19) -/

/-- The states of a firmware slot (R415). -/
inductive FwState where
  | empty | receiving | staged | trying | active | previous | failed | rejected
  deriving DecidableEq, Repr

/-- UPD_SLOTk.STATE (19, Registers). -/
def FwState.code : FwState → Nat
  | .empty => 0 | .receiving => 1 | .staged => 2 | .trying => 3
  | .active => 4 | .previous => 5 | .failed => 6 | .rejected => 7

/-- A firmware slot (R415). -/
structure FwSlot where
  state : FwState := .empty
  fmtOld : Bool := false
  result : Nat := 0
  version : Nat := 0
  /-- What it holds passes the boot check (R412). -/
  sound : Bool := false
  /-- The slot carries a legal section that LEGAL_MIN needs, of this version (R414). -/
  legal : Option Nat := none
  /-- Ledger time from which the slot may activate by itself (R416). -/
  actTime : Nat := 0
  /-- It may activate by itself (R416). -/
  auto : Bool := true
  /-- Format versions of its items, and the oldest it migrates from (R412). -/
  fmts : List Nat := [1, 1, 1, 1, 1, 1]
  oldest : List Nat := [1, 1, 1, 1, 1, 1]
  /-- LEGAL_MIN (R412). -/
  legalMin : Nat := 0
  deriving DecidableEq, Repr

/-- An activation under way (R415, R420). -/
structure Activation where
  slot : Nat
  /-- It is a handover to the image that already runs (R421). -/
  same : Bool := false
  /-- An item is migrated. -/
  migrated : Bool := false
  /-- The legal section that is installed with it (R414). -/
  legal : Option Nat := none
  deriving DecidableEq, Repr

/-! ## The site link (12) -/

/-- What a request asks of the hub (R270). -/
inductive ReqBody where
  | confirm (balance revocation : Bool) (uid : List Byte)
  | alloc (current mask dir : Nat)
  | emergency
  deriving DecidableEq, Repr

/-- The kind of a request in REQ and REPLY: 1 CONFIRM, 2 ALLOC, 3 EMERGENCY (R258, R270). -/
def ReqBody.kind : ReqBody → Nat
  | .confirm _ _ _ => 1 | .alloc _ _ _ => 2 | .emergency => 3

/-- A request held for the hub, and the call that waits for it; a release has none (R270, R300). -/
structure SiteReq where
  body : ReqBody
  call : Option Nat := none
  deriving DecidableEq, Repr

/-- What waits for the upward stream beside the ledger: SITE_SEND records, and join requests that are relayed (R271,
R279). -/
structure UpItem where
  /-- 2 SITE_SEND, 3 join request. -/
  kind : Nat
  bytes : List Byte
  call : Option Nat := none
  deriving DecidableEq, Repr

/-- The fragment in SLOT, resent until it is acknowledged (R259, R271). -/
structure UpFrag where
  seq : Nat
  kind : Nat
  last : Bool
  bytes : List Byte
  deriving DecidableEq, Repr

/-- A delivery at a node (R273, R277). -/
structure Delivery where
  id : Nat
  kind : Nat
  /-- CHUNKS, the descriptor included. -/
  chunks : Nat
  /-- The next chunk needed: 0xFFFF where a full series is wanted instead (14 R323). -/
  next : Nat
  length : Nat := 0
  sha : BitVec 256 := 0
  parent : Nat := 0
  parentHub : Bool := true
  member : Bool := true
  owner : List Byte := []
  /-- The data of its chunk 0. -/
  desc : List Byte := []
  /-- Data bytes of kind 3, so far. -/
  data : List Byte := []
  /-- Every chunk is held, and the object is still to be checked. -/
  whole : Bool := false
  deriving DecidableEq, Repr

/-- A frame that the module sends: kind 0 poll, 1 answer, 2 chunk, 3 join; modulation 0 HAWSER, 1 DBPSK, 2 DQPSK, 3 D8PSK;
the tone map of its hop; the message (R253, R254). -/
structure TxFrame where
  kind : Nat
  modulation : Nat
  tones : BitVec 70
  message : List Byte
  deriving DecidableEq, Repr

/-- What a relay sent on: the header it rewrites (R261). -/
structure Relay where
  answer : Bool
  hop : Nat
  zc : Option Nat
  deriving DecidableEq, Repr

/-- An entry of the link table: sender and receiver, the hub being 256; the map, none when known from NEIGH alone; the
mean SNR, 0.25 dB; the round of the measurement (R266). -/
structure Hop where
  a : Nat
  b : Nat
  tones : Option (BitVec 70)
  snr : Nat
  round : Nat
  deriving DecidableEq, Repr

/-- What the hub keeps of a node (R265 to R274, R237). -/
structure Node where
  reg : Bool := false
  missed : Bool := false
  dormant : Bool := false
  inert : Bool := false
  repeater : Bool := false
  three : Bool := false
  rotRev : Bool := false
  phase : Nat := 3
  /-- ROUTE of its lead. -/
  lead : List Nat := []
  modulation : Nat := 0
  missRun : Nat := 0
  seen : Nat := 0
  ident : BitVec 64 := 0
  ledgerKey : List Byte := []
  /-- Sequence of the last upward slot received in order. -/
  ack : Nat := 0
  /-- What has been reassembled of the ledger, SITE_SEND and join kinds. -/
  asm : Vector (List Byte) 3 := Vector.replicate 3 []
  /-- Records that wait for the SEAL that covers them. -/
  recs : List (List Byte) := []
  cost : Int := 0
  prepay : Bool := false
  /-- The account its session debits, from its last CONFIRM. -/
  account : Option Nat := none
  /-- Replies not yet delivered: kind and value, oldest first. -/
  replies : List (Nat × Nat) := []
  /-- An ALLOC request waits for the run: 0 import, 1 export. -/
  allocWait : Option Nat := none
  delivNext : Nat := 0
  delivId : Nat := 0
  /-- The chunk it last sent as a sender, as the hub knows it. -/
  ptr : Int := -1
  deriving DecidableEq, Repr

/-- An object that the hub delivers (R273). -/
structure Pub where
  id : Nat
  kind : Nat
  bytes : List Byte
  members : List Nat
  /-- Members that count as complete. -/
  done : List Nat := []
  /-- The chunk the hub itself last sent. -/
  ptr : Int := -1
  deriving DecidableEq, Repr

/-- A join request being handled at the hub (R279). -/
structure JoinReq where
  ident : BitVec 64
  repeater : Bool
  snr : Nat
  sponsor : Nat
  /-- The channel offered; none when none is free. -/
  channel : Option Nat
  /-- The identifier was registered already. -/
  again : Bool
  deriving DecidableEq, Repr

/-- A pairing under way (16 R353). -/
structure Pairing where
  channel : Nat
  ident : BitVec 64
  repeater : Bool
  /-- The own ephemeral private scalar. -/
  eph : Nat
  peer : List Byte := []
  ledgerKey : List Byte := []
  /-- The pairing key's slot in AES1. -/
  slot : Option Nat := none
  key : List Byte := []
  sponsor : Nat
  snr : Nat
  deriving DecidableEq, Repr

/-! ## Site allocation (13) -/

/-- A learned ceiling's watch, or a probe (R293, R294). -/
structure Watch where
  count : Nat := 0
  /-- Highest measured phase over those answers, 0.1 A. -/
  high : Nat := 0
  deriving DecidableEq, Repr

/-- One direction of a channel: its standing request and its grants, 0.1 A (R288 to R295). -/
structure Flow where
  /-- The current of the standing request. -/
  req : Option Nat := none
  grant : Nat := 0
  /-- The held amount, 0 for none. -/
  held : Nat := 0
  want : Nat := 0
  /-- Target 0 with a want of at least 6.0 A in the latest run. -/
  paused : Bool := false
  /-- Times, in µs, since which it has been paused, and since which its grant has been 0. -/
  pausedAt : Option Nat := none
  zeroAt : Nat := 0
  deriving DecidableEq, Repr

/-- What the hub keeps of a channel for allocation (R287 to R302). -/
structure Chan where
  imp : Flow := {}
  exp : Flow := {}
  /-- Mask of local phases of the last request. -/
  mask : Nat := 1
  /-- It has passed its check this round. -/
  answered : Bool := false
  /-- Per phase, 0.01 A, and the phases that export. -/
  amps : Vector Nat 3 := #v[0, 0, 0]
  exporting : BitVec 3 := 0
  evReq : Nat := 0
  closed : Bool := false
  /-- Time, in µs, since which it has been drawing. -/
  runAt : Option Nat := none
  /-- ALLOC_PAUSE holds. -/
  pause : Bool := false
  /-- Learned ceiling, 0 for none; when it was set or last probed. -/
  learned : Nat := 0
  learnedAt : Nat := 0
  watch : Watch := {}
  /-- Answers a probe still waits for. -/
  probe : Option Nat := none
  over1 : Nat := 0
  over2 : Nat := 0
  /-- Latest run: reserved for want of an answer; site phases counted. -/
  reserved : Bool := false
  phases : BitVec 3 := 0
  /-- Committed use kept for 10 s after its removal (R301). -/
  leaving : Nat := 0
  deriving DecidableEq, Repr

/-! ## The field tag (15) -/

/-- The files that a field selects (R327): E103, E104, E105, E106. -/
inductive TagFile where
  | cc | ndef | host | comm
  deriving DecidableEq, Repr

/-! ## Platen (17) -/

/-- An image: an asset with its parameters and composition serial; `white` for a region cleared or never drawn; `legal` for
what the legal section draws in region 0 (R370, R375). -/
structure Image where
  asset : Nat := 0
  serial : Nat := 0
  params : List Byte := []
  white : Bool := true
  legal : Bool := false
  deriving DecidableEq, Repr

/-- An entry of the last-image table (R375). -/
structure LastImage where
  valid : Bool := false
  proofShown : Bool := false
  image : Image := {}
  deriving DecidableEq, Repr

/-- A journal entry (R375). -/
structure Journal where
  region : Nat
  mode : Nat
  band : Nat
  frame : Nat := 0
  old : Image
  new : Image
  deriving DecidableEq, Repr

/-- What an update is for: a commit, a clear or a host command; a proof draw; the removal of proof content, with the pixels
that receive the clearing waveform first; a RECOVER; the redraw of R368. -/
inductive UpdKind where
  | commit
  | proof
  | removal (clear : List Nat)
  | recover
  | redraw
  deriving DecidableEq, Repr

/-- An update that waits or runs (R369, R371). -/
structure Upd where
  region : Nat
  kind : UpdKind
  /-- 0 FULL, 1 GRAY, 2 FAST, 3 LIVE, 4 RECOVER. -/
  mode : Nat
  image : Image := {}
  /-- The strand that asked, while it was speculative. -/
  tag : Option (Fin 320) := none
  /-- Latched at the first frame. -/
  band : Nat := 0
  frame : Nat := 0
  /-- The clearing waveform runs, before the image. -/
  clearing : Bool := false
  /-- The pixels it drives. -/
  keys : List Nat := []
  /-- TEMP_DRIFT has been set for it. -/
  drift : Bool := false
  /-- Mismatching frames in a row. -/
  mismatches : Nat := 0
  /-- Stopped by a pie at the end of its frame. -/
  stop : Bool := false
  deriving DecidableEq, Repr

end Sys2Proof.Machine
end

