-- ==== Sys2Proof/Machine/Regs.lean ====
section
/-! DEFINITION. The home of every register field of the manual: its address, its lowest bit, its width and its
Reset column, as the register tables of the chapters give them (00_scope R4, R5). A field of a register that the
manual numbers (`VI_VIOLk`, `OUT_CFGn`) takes its index. -/
namespace Sys2Proof.Machine.Reg

/-! Registers of spec/01_architecture.md. -/

/-- SYS_HEALTH.VBACK_LOW [7], RO: VBACK below 2.2 V under test load -/
def SYS_HEALTH_VBACK_LOW : Field := ⟨0x00000080, 7, 1, 0⟩
/-- SYS_HEALTH.CONTACTOR_WORN [6], RO: K1 and K2 have both reached their rated break count -/
def SYS_HEALTH_CONTACTOR_WORN : Field := ⟨0x00000080, 6, 1, 0⟩
/-- SYS_HEALTH.LINK_CARRIER_LOW [5], RO: At least one registered head has no lead meeting the carrier minimum (hub only) -/
def SYS_HEALTH_LINK_CARRIER_LOW : Field := ⟨0x00000080, 5, 1, 0⟩
/-- SYS_HEALTH.KEY_SLOT_LOW [4], RO: Fewer than 56 key slots are usable -/
def SYS_HEALTH_KEY_SLOT_LOW : Field := ⟨0x00000080, 4, 1, 0⟩
/-- SYS_HEALTH.STORE_SPARE_LOW [3], RO: Fewer than 75 spare NOR blocks remain -/
def SYS_HEALTH_STORE_SPARE_LOW : Field := ⟨0x00000080, 3, 1, 0⟩
/-- SYS_HEALTH.OUT_NO_SPARE [2], RO: At least one output is running on its second cell. The output is named in Contactors, … -/
def SYS_HEALTH_OUT_NO_SPARE : Field := ⟨0x00000080, 2, 1, 0⟩
/-- SYS_HEALTH.METRO_NO_SPARE [1], RO: The spare metrology chain is in permanent service -/
def SYS_HEALTH_METRO_NO_SPARE : Field := ⟨0x00000080, 1, 1, 0⟩
/-- SYS_HEALTH.CORE_NO_SPARE [0], RO: Only one control core is usable -/
def SYS_HEALTH_CORE_NO_SPARE : Field := ⟨0x00000080, 0, 1, 0⟩
/-! Registers of spec/02_modes_reset_boot.md. -/

/-- SYS_MODE.MODE [3:0], RO: Current mode, coded as in the mode table -/
def SYS_MODE_MODE : Field := ⟨0x00000004, 0, 4, 2⟩
/-- SYS_ROLE.MSEL [9:8], RO: MSEL1 and MSEL0 as sampled at the last reset -/
def SYS_ROLE_MSEL : Field := ⟨0x00000008, 8, 2, 0⟩
/-- SYS_ROLE.ROLE [3:0], RO: Role mode 0x5 to 0x8, per R22 -/
def SYS_ROLE_ROLE : Field := ⟨0x00000008, 0, 4, 0⟩
/-- SYS_CTRL.REQ_COMMISSION [1], RWP: Installer class. Writing 1 requests COMMISSION per R28. Reads 1 while COMMISSION is … -/
def SYS_CTRL_REQ_COMMISSION : Field := ⟨0x0000000C, 1, 1, 0⟩
/-- SYS_CTRL.STBY_EN [0], RW: 1 allows STANDBY. Writing 0 in STANDBY returns the module to the role mode. -/
def SYS_CTRL_STBY_EN : Field := ⟨0x0000000C, 0, 1, 0⟩
/-- SYS_RESET.KEY [31:16], WO: Must be 0xA5C3 in the same write, or the write has no effect -/
def SYS_RESET_KEY : Field := ⟨0x00000010, 16, 16, 0⟩
/-- SYS_RESET.CAP [1], WO: 1 performs a Capstan reset -/
def SYS_RESET_CAP : Field := ⟨0x00000010, 1, 1, 0⟩
/-- SYS_RESET.SOFT [0], WO: 1 performs a soft reset. ERR_LOCKED while a session is active. -/
def SYS_RESET_SOFT : Field := ⟨0x00000010, 0, 1, 0⟩
/-- SYS_RST_CAUSE.AO_LOST [7], W1C: PD0 lost its supply -/
def SYS_RST_CAUSE_AO_LOST : Field := ⟨0x00000014, 7, 1, 1⟩
/-- SYS_RST_CAUSE.CAPSTAN [6], W1C: Capstan reset -/
def SYS_RST_CAUSE_CAPSTAN : Field := ⟨0x00000014, 6, 1, 0⟩
/-- SYS_RST_CAUSE.CORE_FAIL [5], W1C: Active-core failure. The core is given by SYS_STATUS.ACTIVE_CORE. -/
def SYS_RST_CAUSE_CORE_FAIL : Field := ⟨0x00000014, 5, 1, 0⟩
/-- SYS_RST_CAUSE.CTRL_STOP [4], W1C: Controlled stop after HOLD_T -/
def SYS_RST_CAUSE_CTRL_STOP : Field := ⟨0x00000014, 4, 1, 0⟩
/-- SYS_RST_CAUSE.SOFT [3], W1C: Soft reset -/
def SYS_RST_CAUSE_SOFT : Field := ⟨0x00000014, 3, 1, 0⟩
/-- SYS_RST_CAUSE.PFAIL [2], W1C: Power fail through PFW_N -/
def SYS_RST_CAUSE_PFAIL : Field := ⟨0x00000014, 2, 1, 0⟩
/-- SYS_RST_CAUSE.VAUX [1], W1C: Loss of VAUX -/
def SYS_RST_CAUSE_VAUX : Field := ⟨0x00000014, 1, 1, 0⟩
/-- SYS_RST_CAUSE.RESET_PAD [0], W1C: RESET_N -/
def SYS_RST_CAUSE_RESET_PAD : Field := ⟨0x00000014, 0, 1, 0⟩
/-- SYS_INERT_REASON.REASON [1:0], RO: 0 not INERT, 1 NO_IMAGE, 2 NOT_CALIBRATED, 3 reserved -/
def SYS_INERT_REASON_REASON : Field := ⟨0x00000018, 0, 2, 0⟩
/-- SYS_TIMING.HOLD_T [20:16], RWS: Seconds, 1 to 30. Values outside the range are treated as 10. Boundary: the next core … -/
def SYS_TIMING_HOLD_T : Field := ⟨0x0000001C, 16, 5, 10⟩
/-- SYS_TIMING.STBY_IDLE [15:0], RW: Seconds of idle before STANDBY, 10 to 65,535. Values below 10 are treated as 10. -/
def SYS_TIMING_STBY_IDLE : Field := ⟨0x0000001C, 0, 16, 300⟩
/-- SYS_STATUS.RTC_VALID [5], RO: The wall clock has been set since the last AO loss -/
def SYS_STATUS_RTC_VALID : Field := ⟨0x00000020, 5, 1, 0⟩
/-- SYS_STATUS.ACTIVE_CORE [4], RO: 0 Core A, 1 Core B -/
def SYS_STATUS_ACTIVE_CORE : Field := ⟨0x00000020, 4, 1, 0⟩
/-- SYS_STATUS.SESSION_ACTIVE [3], RO: At least one session is open -/
def SYS_STATUS_SESSION_ACTIVE : Field := ⟨0x00000020, 3, 1, 0⟩
/-- SYS_STATUS.OUTLET_HELD [2], RO: The outlet is withheld per R26 -/
def SYS_STATUS_OUTLET_HELD : Field := ⟨0x00000020, 2, 1, 0⟩
/-- SYS_STATUS.UNCOMMISSIONED [1], RO: No committed commissioning record -/
def SYS_STATUS_UNCOMMISSIONED : Field := ⟨0x00000020, 1, 1, 1⟩
/-- SYS_STATUS.READY [0], RO: Ready for plug-in has been reached since the last reset -/
def SYS_STATUS_READY : Field := ⟨0x00000020, 0, 1, 0⟩
/-! Registers of spec/03_capstan_strands_and_timing.md. -/

/-- CAP_CTRL.CL3_W [19:16], RWS: Class-3 turns per scheduler cycle, 1 to 15. The value 0 is treated as 1. Boundary: … -/
def CAP_CTRL_CL3_W : Field := ⟨0x00030000, 16, 4, 1⟩
/-- CAP_CTRL.CL2_W [15:12], RWS: Class-2 turns per scheduler cycle, 1 to 15. The value 0 is treated as 1. Boundary: … -/
def CAP_CTRL_CL2_W : Field := ⟨0x00030000, 12, 4, 4⟩
/-- CAP_CTRL.CL1_W [11:8], RWS: Class-1 turns per scheduler cycle, 1 to 15. The value 0 is treated as 1. Boundary: … -/
def CAP_CTRL_CL1_W : Field := ⟨0x00030000, 8, 4, 8⟩
/-- CAP_CTRL.TURN_LEN [6:0], RWS: Instructions per turn, 4 to 64. Values below 4 are treated as 4 and values above 64 as … -/
def CAP_CTRL_TURN_LEN : Field := ⟨0x00030000, 0, 7, 16⟩
/-- CAP_LIMIT.CAP_CL0_MAX [19:16], RO: Maximum number of class-0 strands -/
def CAP_LIMIT_CAP_CL0_MAX : Field := ⟨0x00030004, 16, 4, 8⟩
/-- CAP_LIMIT.CAP_HMAX0 [8:0], RWS: Issue-cycle limit per class-0 activation, 16 to 256. Values outside the range are … -/
def CAP_LIMIT_CAP_HMAX0 : Field := ⟨0x00030004, 0, 9, 64⟩
/-- CAP_STATUS.FCAP [25:24], RO: f_CAP now: 0 stopped, 1 75 MHz, 2 300 MHz, 3 reserved -/
def CAP_STATUS_FCAP : Field := ⟨0x00030008, 24, 2, 0⟩
/-- CAP_STATUS.CL0_COUNT [19:16], RO: Strands with class 0, 0 to 8 -/
def CAP_STATUS_CL0_COUNT : Field := ⟨0x00030008, 16, 4, 0⟩
/-- CAP_STATUS.DBG_ACTIVE [4], RO: At least one strand is HALTED -/
def CAP_STATUS_DBG_ACTIVE : Field := ⟨0x00030008, 4, 1, 0⟩
/-- CAP_STATUS.HMAX_FAULT [2], W1C: A CAP_HMAX fault has occurred -/
def CAP_STATUS_HMAX_FAULT : Field := ⟨0x00030008, 2, 1, 0⟩
/-- CAP_STATUS.FBK_REFUSED [1], W1C: A FALLBACK_PUT or a class-0 enable was refused (R58) -/
def CAP_STATUS_FBK_REFUSED : Field := ⟨0x00030008, 1, 1, 0⟩
/-- CAP_STATUS.CAP_CL0_REFUSED [0], W1C: A ninth class-0 strand was refused (R49) -/
def CAP_STATUS_CAP_CL0_REFUSED : Field := ⟨0x00030008, 0, 1, 0⟩
/-- CAP_FAULT.COUNT [31:24], RO: Strand faults since the last Capstan or PD7 reset, saturating at 255 -/
def CAP_FAULT_COUNT : Field := ⟨0x0003000C, 24, 8, 0⟩
/-- CAP_FAULT.LAST_STRAND [16:8], RO: Strand of the latest fault -/
def CAP_FAULT_LAST_STRAND : Field := ⟨0x0003000C, 8, 9, 0⟩
/-- CAP_FAULT.LAST_CODE [7:0], RO: Code of the latest fault, 0xA0 to 0xA8, or 0 when there has been none -/
def CAP_FAULT_LAST_CODE : Field := ⟨0x0003000C, 0, 8, 0⟩
/-- CAP_STRAND_CMD.STRAND [24:16], WO: Strand number, 0 to 319 -/
def CAP_STRAND_CMD_STRAND : Field := ⟨0x00030010, 16, 9, 0⟩
/-- CAP_STRAND_CMD.CMD [2:0], WO: 1 ENABLE, 2 DISABLE, 3 RESTART. Other values have no effect. Subject to R58 and R63. -/
def CAP_STRAND_CMD_CMD : Field := ⟨0x00030010, 0, 3, 0⟩
/-- CAP_DBG_CMD.STRAND [24:16], RWP: Installer class. Strand number, 0 to 319. -/
def CAP_DBG_CMD_STRAND : Field := ⟨0x00030014, 16, 9, 0⟩
/-- CAP_DBG_CMD.CMD [1:0], RWP: Installer class. 1 HALT, 2 STEP, 3 RESUME. Subject to R65. -/
def CAP_DBG_CMD_CMD : Field := ⟨0x00030014, 0, 2, 0⟩
/-- CAP_BPk.PC [16:0], RWP: Installer class. Word address of the breakpoint. -/
def CAP_BP_PC (k : Nat) : Field := ⟨0x00030020 + k * 0x8, 0, 17, 0⟩
/-- CAP_BPk_CTL.EN [31], RWP: Installer class. 1 halts the named strand before it issues the instruction at PC. -/
def CAP_BP_CTL_EN (k : Nat) : Field := ⟨0x00030024 + k * 0x8, 31, 1, 0⟩
/-- CAP_BPk_CTL.STRAND [24:16], RWP: Installer class. Strand number. Class-0 strands are refused per R65. -/
def CAP_BP_CTL_STRAND (k : Nat) : Field := ⟨0x00030024 + k * 0x8, 16, 9, 0⟩
/-- ST_CFG.CLASS [29:28], RWL: Class 0 to 3. Locked per R62 and limited per R49. -/
def ST_CFG_CLASS (k : Nat) : Field := ⟨0x00031000 + k * 0x20, 28, 2, 3⟩
/-- ST_CFG.ENTRY [16:0], RWL: Entry word address. Locked per R62. -/
def ST_CFG_ENTRY (k : Nat) : Field := ⟨0x00031000 + k * 0x20, 0, 17, 0⟩
/-- ST_WIN.BASE [27:16], RWL: Window base in 64-byte units, 0 to 4095. Locked per R62. -/
def ST_WIN_BASE (k : Nat) : Field := ⟨0x00031004 + k * 0x20, 16, 12, 0⟩
/-- ST_WIN.SIZE [11:0], RWL: Window size in 64-byte units. 0 means no window. Base plus size beyond 4096 units is … -/
def ST_WIN_SIZE (k : Nat) : Field := ⟨0x00031004 + k * 0x20, 0, 12, 0⟩
/-- ST_EVSUB0.SLOT3 [31:24], RWS: Event number for slot 3. Boundary: the strand's next WAIT. -/
def ST_EVSUB0_SLOT3 (k : Nat) : Field := ⟨0x00031008 + k * 0x20, 24, 8, 0⟩
/-- ST_EVSUB0.SLOT2 [23:16], RWS: Event number for slot 2. Boundary: the strand's next WAIT. -/
def ST_EVSUB0_SLOT2 (k : Nat) : Field := ⟨0x00031008 + k * 0x20, 16, 8, 0⟩
/-- ST_EVSUB0.SLOT1 [15:8], RWS: Event number for slot 1. Boundary: the strand's next WAIT. -/
def ST_EVSUB0_SLOT1 (k : Nat) : Field := ⟨0x00031008 + k * 0x20, 8, 8, 0⟩
/-- ST_EVSUB0.SLOT0 [7:0], RWS: Event number for slot 0. Boundary: the strand's next WAIT. -/
def ST_EVSUB0_SLOT0 (k : Nat) : Field := ⟨0x00031008 + k * 0x20, 0, 8, 0⟩
/-- ST_EVSUB1.SLOT7 [31:24], RWS: Event number for slot 7. Boundary: the strand's next WAIT. -/
def ST_EVSUB1_SLOT7 (k : Nat) : Field := ⟨0x0003100C + k * 0x20, 24, 8, 0⟩
/-- ST_EVSUB1.SLOT6 [23:16], RWS: Event number for slot 6. Boundary: the strand's next WAIT. -/
def ST_EVSUB1_SLOT6 (k : Nat) : Field := ⟨0x0003100C + k * 0x20, 16, 8, 0⟩
/-- ST_EVSUB1.SLOT5 [15:8], RWS: Event number for slot 5. Boundary: the strand's next WAIT. -/
def ST_EVSUB1_SLOT5 (k : Nat) : Field := ⟨0x0003100C + k * 0x20, 8, 8, 0⟩
/-- ST_EVSUB1.SLOT4 [7:0], RWS: Event number for slot 4. Boundary: the strand's next WAIT. -/
def ST_EVSUB1_SLOT4 (k : Nat) : Field := ⟨0x0003100C + k * 0x20, 0, 8, 0⟩
/-- ST_EVEN.PENDING [15:8], RO: Pending bit of each slot -/
def ST_EVEN_PENDING (k : Nat) : Field := ⟨0x00031010 + k * 0x20, 8, 8, 0⟩
/-- ST_EVEN.EN [7:0], RWS: Enable bit of each slot. Boundary: the strand's next WAIT. -/
def ST_EVEN_EN (k : Nat) : Field := ⟨0x00031010 + k * 0x20, 0, 8, 0⟩
/-- ST_FBK.FB_EN [31], RWL: 1 registers a FALLBACK_PUT. Must be 1 for class 0 (R58). Locked per R62. -/
def ST_FBK_FB_EN (k : Nat) : Field := ⟨0x00031014 + k * 0x20, 31, 1, 0⟩
/-- ST_FBK.PORT [27:16], RWL: Port number. Must be safe-direction (R58). Locked per R62. -/
def ST_FBK_PORT (k : Nat) : Field := ⟨0x00031014 + k * 0x20, 16, 12, 0⟩
/-- ST_FBK.VALUE [15:0], RWL: Value written, zero-extended to 32 bits. Locked per R62. -/
def ST_FBK_VALUE (k : Nat) : Field := ⟨0x00031014 + k * 0x20, 0, 16, 0⟩
/-- ST_STATE.STATE [31:28], RO: State code per R41 -/
def ST_STATE_STATE (k : Nat) : Field := ⟨0x00031018 + k * 0x20, 28, 4, 0⟩
/-- ST_STATE.SPEC [27], RO: A galley is open -/
def ST_STATE_SPEC (k : Nat) : Field := ⟨0x00031018 + k * 0x20, 27, 1, 0⟩
/-- ST_STATE.PRED [26:24], RO: p3, p2, p1 -/
def ST_STATE_PRED (k : Nat) : Field := ⟨0x00031018 + k * 0x20, 24, 3, 0⟩
/-- ST_STATE.PC [16:0], RO: Program counter -/
def ST_STATE_PC (k : Nat) : Field := ⟨0x00031018 + k * 0x20, 0, 17, 0⟩
/-- ST_INFO.FAULT [31:24], RO: Fault code while FAULTED, otherwise 0 -/
def ST_INFO_FAULT (k : Nat) : Field := ⟨0x0003101C + k * 0x20, 24, 8, 0⟩
/-- ST_INFO.HWM [20:12], RO: Class 0 only: the most issue cycles any activation has used since the strand was … -/
def ST_INFO_HWM (k : Nat) : Field := ⟨0x0003101C + k * 0x20, 12, 9, 0⟩
/-! Registers of spec/05_galley_speculation.md. -/

/-- GAL_POOL.CL0_FREE [26:16], RO: Free entries of the class-0 reserve -/
def GAL_POOL_CL0_FREE : Field := ⟨0x00030100, 16, 11, 128⟩
/-- GAL_POOL.FREE [10:0], RO: Free entries of the share for classes 1 to 3 -/
def GAL_POOL_FREE : Field := ⟨0x00030100, 0, 11, 896⟩
/-- GAL_STATS.FENCED [31:24], RO: Held operations dropped under R95, saturating at 255 -/
def GAL_STATS_FENCED : Field := ⟨0x00030104, 24, 8, 0⟩
/-- GAL_STATS.TIMEOUTS [23:16], RO: Pies by timeout, saturating at 255 -/
def GAL_STATS_TIMEOUTS : Field := ⟨0x00030104, 16, 8, 0⟩
/-- GAL_STATS.PIES [15:8], RO: Pies by outcome, saturating at 255 -/
def GAL_STATS_PIES : Field := ⟨0x00030104, 8, 8, 0⟩
/-- GAL_STATS.LOCKUPS [7:0], RO: Lock-ups, saturating at 255 -/
def GAL_STATS_LOCKUPS : Field := ⟨0x00030104, 0, 8, 0⟩
/-- GAL_STALL.POOL_EMPTY [9], W1C: A strand has stalled on an empty share of the pool -/
def GAL_STALL_POOL_EMPTY : Field := ⟨0x00030108, 9, 1, 0⟩
/-- GAL_STALL.STALLED [8:0], RO: Strands now STALLED on galley entries -/
def GAL_STALL_STALLED : Field := ⟨0x00030108, 0, 9, 0⟩
/-- GAL_DBG_SEL.STRAND [8:0], RW: Strand shown by the galley debug view, 0 to 319. A larger value is discarded with … -/
def GAL_DBG_SEL_STRAND : Field := ⟨0x00030110, 0, 9, 0⟩
/-- GAL_DBG_HDR.OPEN [31], RO: The selected strand has a galley open -/
def GAL_DBG_HDR_OPEN : Field := ⟨0x00030114, 31, 1, 0⟩
/-- GAL_DBG_HDR.ENTRIES [30:26], RO: Entries held, 0 to 16 -/
def GAL_DBG_HDR_ENTRIES : Field := ⟨0x00030114, 26, 5, 0⟩
/-- GAL_DBG_HDR.EV [25:18], RO: Resolving event -/
def GAL_DBG_HDR_EV : Field := ⟨0x00030114, 18, 8, 0⟩
/-- GAL_DBG_HDR.PD [17:16], RO: Predicate named in GSET -/
def GAL_DBG_HDR_PD : Field := ⟨0x00030114, 16, 2, 0⟩
/-- GAL_DBG_HDR.PENDING [15], RO: Resolved, with lock-up or pie not yet performed -/
def GAL_DBG_HDR_PENDING : Field := ⟨0x00030114, 15, 1, 0⟩
/-- GAL_DBG_HDR.MATCH [14], RO: With PENDING: 1 lock-up, 0 pie -/
def GAL_DBG_HDR_MATCH : Field := ⟨0x00030114, 14, 1, 0⟩
/-- GAL_DBG_HDR.EXP [13:0], RO: Expected outcome -/
def GAL_DBG_HDR_EXP : Field := ⟨0x00030114, 0, 14, 0⟩
/-- GAL_DBG_ALT.ALT [16:0], RO: Alternative word address -/
def GAL_DBG_ALT_ALT : Field := ⟨0x00030118, 0, 17, 0⟩
/-- GAL_DBG_TMO.TMO_LEFT [14:0], RO: Whole milliseconds left before the timeout -/
def GAL_DBG_TMO_TMO_LEFT : Field := ⟨0x0003011C, 0, 15, 0⟩
/-! Registers of spec/07_vehicle_interface.md. -/

/-- VI_CFG.CP_FILT [23:16], RWS: Filter length in samples, 1 to 255. 0 is treated as 1. Boundary: next PWM period, or … -/
def VI_CFG_CP_FILT : Field := ⟨0x00090000, 16, 8, 5⟩
/-- VI_CFG.TLS_EIM [4], RWL: 1 requires TLS for EIM sessions under ISO 15118-2 -/
def VI_CFG_TLS_EIM : Field := ⟨0x00090000, 4, 1, 1⟩
/-- VI_CFG.VENT_OK [3], RWL: 1 allows charging in state D -/
def VI_CFG_VENT_OK : Field := ⟨0x00090000, 3, 1, 0⟩
/-- VI_CFG.BPT_EN [2], RWL: 1 allows AC_BPT (R145) -/
def VI_CFG_BPT_EN : Field := ⟨0x00090000, 2, 1, 0⟩
/-- VI_CFG.TETHERED [1], RWL: 1 means case C: PP unused, rating from TETH_A -/
def VI_CFG_TETHERED : Field := ⟨0x00090000, 1, 1, 0⟩
/-- VI_RATING.TETH_A [29:16], RWL: Tethered cable rating, 0.1 A, 0 to 800 -/
def VI_RATING_TETH_A : Field := ⟨0x00090004, 16, 14, 0⟩
/-- VI_RATING.RATED_A [13:0], RWL: Outlet rating, 0.1 A, 60 to 800. Values outside the range are clamped to it. -/
def VI_RATING_RATED_A : Field := ⟨0x00090004, 0, 14, 160⟩
/-- VI_PILOT.STATE [31:28], RO: 0xA to 0xF for states A to F -/
def VI_PILOT_STATE : Field := ⟨0x00090008, 28, 4, 15⟩
/-- VI_PILOT.ANOM [27:24], RO: Anomaly code 0 to 9 (R130) -/
def VI_PILOT_ANOM : Field := ⟨0x00090008, 24, 4, 0⟩
/-- VI_PILOT.PWM [23], RO: PWM running -/
def VI_PILOT_PWM : Field := ⟨0x00090008, 23, 1, 0⟩
/-- VI_PILOT.HLC [22], RO: Duty is 5 % -/
def VI_PILOT_HLC : Field := ⟨0x00090008, 22, 1, 0⟩
/-- VI_PILOT.TRIP [21], RO: Supervisor holds a pilot trip -/
def VI_PILOT_TRIP : Field := ⟨0x00090008, 21, 1, 0⟩
/-- VI_PILOT.DUTY [10:0], RO: Duty generated, in 0.05 % steps, 0 to 2000 -/
def VI_PILOT_DUTY : Field := ⟨0x00090008, 0, 11, 0⟩
/-- VI_PLATEAU.LOW [31:16], RO: Latest low plateau, signed mV -/
def VI_PLATEAU_LOW : Field := ⟨0x0009000C, 16, 16, 0⟩
/-- VI_PLATEAU.HIGH [15:0], RO: Latest high plateau, signed mV -/
def VI_PLATEAU_HIGH : Field := ⟨0x0009000C, 0, 16, 0⟩
/-- VI_DIODE.RESULT [1:0], RO: 0 not tested, 1 pass, 2 fail -/
def VI_DIODE_RESULT : Field := ⟨0x00090010, 0, 2, 0⟩
/-- VI_PP.OHMS [31:16], RO: Measured Rc in Ω, saturating at 65,535 -/
def VI_PP_OHMS : Field := ⟨0x00090014, 16, 16, 65535⟩
/-- VI_PP.CODE [13:0], RO: PP_CODE, 0.1 A -/
def VI_PP_CODE : Field := ⟨0x00090014, 0, 14, 0⟩
/-- VI_CEIL.SOURCE [15:14], RO: Limiting value: 0 RATED_A, 1 PP, 2 TETH_A, 3 cable rating 0 -/
def VI_CEIL_SOURCE : Field := ⟨0x00090018, 14, 2, 0⟩
/-- VI_CEIL.CEIL [13:0], RO: Ceiling, 0.1 A (R125) -/
def VI_CEIL_CEIL : Field := ⟨0x00090018, 0, 14, 0⟩
/-- VI_LOCK.EN [31], RWL: 1 enables the lock and the interlock of R135 -/
def VI_LOCK_EN : Field := ⟨0x0009001C, 31, 1, 0⟩
/-- VI_LOCK.PAIR [30], RWL: 0 OUT8 with OUT9, 1 OUT10 with OUT11 -/
def VI_LOCK_PAIR : Field := ⟨0x0009001C, 30, 1, 0⟩
/-- VI_LOCK.FB_GPIO [29:27], RWL: Feedback input, GPIO0 to GPIO7 -/
def VI_LOCK_FB_GPIO : Field := ⟨0x0009001C, 27, 3, 0⟩
/-- VI_LOCK.FB_POL [26], RWL: 1 means the input reads high when locked -/
def VI_LOCK_FB_POL : Field := ⟨0x0009001C, 26, 1, 0⟩
/-- VI_LOCK.PULSE_MS [25:16], RWL: Pulse length in ms, 50 to 1000. Values outside the range are clamped to it. -/
def VI_LOCK_PULSE_MS : Field := ⟨0x0009001C, 16, 10, 300⟩
/-- VI_LOCK.STATE [1:0], RO: LOCK_STATE: 0 unlocked, 1 locked, 2 moving, 3 fault -/
def VI_LOCK_STATE : Field := ⟨0x0009001C, 0, 2, 0⟩
/-- VI_GP.TXATT [19:16], RWS: Transmit attenuation, dB, 0 to 15. Boundary: next HLC_START. -/
def VI_GP_TXATT : Field := ⟨0x00090020, 16, 4, 0⟩
/-- VI_GP.ATTEN_OFS [7:0], RWS: Coupling loss subtracted from reported attenuation, dB. Boundary: next HLC_START. -/
def VI_GP_ATTEN_OFS : Field := ⟨0x00090020, 0, 8, 0⟩
/-- VI_HLC.REASON [11:8], RO: Why the last session ended: 0 SessionStop, 1 SLAC failure, 2 sequence timeout, 3 TLS … -/
def VI_HLC_REASON : Field := ⟨0x00090024, 8, 4, 0⟩
/-- VI_HLC.STATUS [7:0], RO: As HLC_STATUS -/
def VI_HLC_STATUS : Field := ⟨0x00090024, 0, 8, 0⟩
/-- VI_REC.BASE [27:16], RWL: Case-memory base of offsets, 64-byte units (R139) -/
def VI_REC_BASE : Field := ⟨0x00090028, 16, 12, 0⟩
/-- VI_REC.OFF [15:8], RWL: Ring start, in 256-byte units from BASE -/
def VI_REC_OFF : Field := ⟨0x00090028, 8, 8, 8⟩
/-- VI_REC.NUM [4:0], RWL: Records in the ring, 2 to 16. Values outside the range are clamped to it. -/
def VI_REC_NUM : Field := ⟨0x00090028, 0, 5, 8⟩
/-- VI_VIOL_CLR.CLR [0], WO: 1 clears every VI_VIOLk. The violation log is kept. -/
def VI_VIOL_CLR_CLR : Field := ⟨0x00090030, 0, 1, 0⟩
/-- VI_VIOLk.COUNT [15:0], RO: Occurrences of violation k (R130), saturating at 65,535 -/
def VI_VIOL_COUNT (k : Nat) : Field := ⟨0x00090040 + k * 0x4, 0, 16, 0⟩
/-! Registers of spec/08_contactors_and_outputs.md. -/

/-- CONT_CFG.EN [31], RWL: 1 enables the contactor pair (R147). Reads 0 in REPEATER. -/
def CONT_CFG_EN : Field := ⟨0x00050000, 31, 1, 0⟩
/-- CONT_CFG.K2_OUT [27:24], RWL: Coil output of K2, 0 to 11. Must differ from K1_OUT. A write that makes them equal is … -/
def CONT_CFG_K2_OUT : Field := ⟨0x00050000, 24, 4, 1⟩
/-- CONT_CFG.K1_OUT [19:16], RWL: Coil output of K1, 0 to 11 -/
def CONT_CFG_K1_OUT : Field := ⟨0x00050000, 16, 4, 0⟩
/-- CONT_CFG.ARC_LEAD [7:0], RWS: Separation lead before the target zero, 0.1 ms, 5 to 40. Values outside the range are … -/
def CONT_CFG_ARC_LEAD : Field := ⟨0x00050000, 0, 8, 10⟩
/-- CONT_TIMING.MIR_DEB [31:24], RWS: Mirror filter, ms, 5 to 50. Boundary: next close or opening. -/
def CONT_TIMING_MIR_DEB : Field := ⟨0x00050004, 24, 8, 20⟩
/-- CONT_TIMING.MIR_T [23:16], RWS: Feedback window, 10 ms units, 5 to 50. It is never taken below MIR_DEB + 30 ms. … -/
def CONT_TIMING_MIR_T : Field := ⟨0x00050004, 16, 8, 10⟩
/-- CONT_TIMING.CLOSE_GAP [15:8], RWS: ms, 0 to 255. Boundary: next close. -/
def CONT_TIMING_CLOSE_GAP : Field := ⟨0x00050004, 8, 8, 20⟩
/-- CONT_TIMING.OPEN_GAP [7:0], RWS: ms, 10 to 255. The Standard Forme writes 20. Boundary: next opening. -/
def CONT_TIMING_OPEN_GAP : Field := ⟨0x00050004, 0, 8, 50⟩
/-- CONT_DISC.DISC_WAIT [31:16], RWS: Current wait, ms, 100 to 10,000. Boundary: next controlled disconnect. -/
def CONT_DISC_DISC_WAIT : Field := ⟨0x00050008, 16, 16, 3000⟩
/-- CONT_DISC.DISC_I [13:0], RWS: Disconnect level, 0.1 A, 2 to 160. Boundary: next controlled disconnect. -/
def CONT_DISC_DISC_I : Field := ⟨0x00050008, 0, 14, 10⟩
/-- CONT_STATUS.SEQ [19:17], RO: 0 open, 1 closing, 2 closed, 3 current wait, 4 opening, 5 held open by fault -/
def CONT_STATUS_SEQ : Field := ⟨0x0005000C, 17, 3, 0⟩
/-- CONT_STATUS.ARMED [16], RO: A close is armed -/
def CONT_STATUS_ARMED : Field := ⟨0x0005000C, 16, 1, 0⟩
/-- CONT_STATUS.NEXT_DUTY [10], RO: Duty contactor of the next cycle: 0 K1, 1 K2. Loaded from the wear record at boot. -/
def CONT_STATUS_NEXT_DUTY : Field := ⟨0x0005000C, 10, 1, 0⟩
/-- CONT_STATUS.STATE [9:0], RO: As CONT_STATE -/
def CONT_STATUS_STATE : Field := ⟨0x0005000C, 0, 10, 0⟩
/-- CONT_FAULT.DLY_REJECT [31:24], RO: Delay measurements discarded (R154), saturating at 255 -/
def CONT_FAULT_DLY_REJECT : Field := ⟨0x00050010, 24, 8, 0⟩
/-- CONT_FAULT.REFUSE [18:16], RO: Cause of the last refusal: 0 none, 1 EN = 0, 2 weld or disconnect under way, 3 trip … -/
def CONT_FAULT_REFUSE : Field := ⟨0x00050010, 16, 3, 0⟩
/-- CONT_FAULT.UNDER_LOAD [7], W1C: A controlled disconnect broke above DISC_I -/
def CONT_FAULT_UNDER_LOAD : Field := ⟨0x00050010, 7, 1, 0⟩
/-- CONT_FAULT.DROPOUT [6], W1C: A contactor fell open in service -/
def CONT_FAULT_DROPOUT : Field := ⟨0x00050010, 6, 1, 0⟩
/-- CONT_FAULT.PRECHECK [5], W1C: A pre-close check failed -/
def CONT_FAULT_PRECHECK : Field := ⟨0x00050010, 5, 1, 0⟩
/-- CONT_FAULT.CLOSE_FAIL_K2 [4], W1C: K2 did not confirm a close -/
def CONT_FAULT_CLOSE_FAIL_K2 : Field := ⟨0x00050010, 4, 1, 0⟩
/-- CONT_FAULT.CLOSE_FAIL_K1 [3], W1C: K1 did not confirm a close -/
def CONT_FAULT_CLOSE_FAIL_K1 : Field := ⟨0x00050010, 3, 1, 0⟩
/-- CONT_FAULT.FB_MISMATCH [2], W1C: The feedback disagreed (R157) -/
def CONT_FAULT_FB_MISMATCH : Field := ⟨0x00050010, 2, 1, 0⟩
/-- CONT_FAULT.WELD_K2 [1], W1C: K2 weld detected. Clearing the bit does not clear the trip. -/
def CONT_FAULT_WELD_K2 : Field := ⟨0x00050010, 1, 1, 0⟩
/-- CONT_FAULT.WELD_K1 [0], W1C: K1 weld detected. Clearing the bit does not clear the trip. -/
def CONT_FAULT_WELD_K1 : Field := ⟨0x00050010, 0, 1, 0⟩
/-- CONT_DELAY.K2 [31:16], RO: Learned OPEN_DLY of K2, 0.1 ms. Loaded from the wear record at boot. -/
def CONT_DELAY_K2 : Field := ⟨0x00050014, 16, 16, 60⟩
/-- CONT_DELAY.K1 [15:0], RO: Learned OPEN_DLY of K1, 0.1 ms. Loaded from the wear record at boot. -/
def CONT_DELAY_K1 : Field := ⟨0x00050014, 0, 16, 60⟩
/-- CONT_WEARk.COUNT [31:0], RWP: Installer class. Break count (R156), the same value CONT_WEAR reads. A write sets the … -/
def CONT_WEAR_COUNT (k : Nat) : Field := ⟨0x00050018 + k * 0x4, 0, 32, 0⟩
/-- CONT_RATED.RATED [15:0], RWP: Installer class. Rated break count in thousands. 0 means none is set (R155). -/
def CONT_RATED_RATED : Field := ⟨0x00050020, 0, 16, 0⟩
/-- CONT_LASTBRK.K2 [31:16], RO: Breaking current of K2's last break, 0.1 A -/
def CONT_LASTBRK_K2 : Field := ⟨0x00050024, 16, 16, 0⟩
/-- CONT_LASTBRK.K1 [15:0], RO: Breaking current of K1's last break, 0.1 A -/
def CONT_LASTBRK_K1 : Field := ⟨0x00050024, 0, 16, 0⟩
/-- OUT_STATUS.FAULT [23:12], RO: Outputs with a fault cause in force -/
def OUT_STATUS_FAULT : Field := ⟨0x00050040, 12, 12, 0⟩
/-- OUT_STATUS.ON [11:0], RO: Outputs on -/
def OUT_STATUS_ON : Field := ⟨0x00050040, 0, 12, 0⟩
/-- OUT_CELLS.B_SPENT [23:12], RO: Outputs whose cell B has passed 40 kJ -/
def OUT_CELLS_B_SPENT : Field := ⟨0x00050044, 12, 12, 0⟩
/-- OUT_CELLS.ON_B [11:0], RO: Outputs running on cell B. These are the outputs behind SYS_HEALTH.OUT_NO_SPARE. … -/
def OUT_CELLS_ON_B : Field := ⟨0x00050044, 0, 12, 0⟩
/-- OUT_TIMING.THERM_RETRY [19:16], RWS: Thermal restarts per 10 s, 0 to 15. Boundary: next thermal shutdown. -/
def OUT_TIMING_THERM_RETRY : Field := ⟨0x00050048, 16, 4, 3⟩
/-- OUT_TIMING.INRUSH_T [7:0], RWS: Inrush window, ms, 1 to 200. 0 is treated as 1 and larger values as 200. Boundary: … -/
def OUT_TIMING_INRUSH_T : Field := ⟨0x00050048, 0, 8, 50⟩
/-- OUT_SENSE_SEL.ANYFAULT [4], RW: 1 drives the fault level when any output is in fault -/
def OUT_SENSE_SEL_ANYFAULT : Field := ⟨0x0005004C, 4, 1, 0⟩
/-- OUT_SENSE_SEL.SEL [3:0], RW: Output shown on ISENSE, 0 to 11. Values 12 to 15 give 0 mA. -/
def OUT_SENSE_SEL_SEL : Field := ⟨0x0005004C, 0, 4, 0⟩
/-- OUT_GOV.COUNT [31:24], RO: Governor actions, saturating at 255 -/
def OUT_GOV_COUNT : Field := ⟨0x00050050, 24, 8, 0⟩
/-- OUT_GOV.LAST [11:0], RO: Mask of outputs turned off in the last action -/
def OUT_GOV_LAST : Field := ⟨0x00050050, 0, 12, 0⟩
/-- OUT_TEST.MASK [11:0], RWP: Installer class, and COMMISSION only. In any other mode the write is discarded with … -/
def OUT_TEST_MASK : Field := ⟨0x00050054, 0, 12, 0⟩
/-- OUT_CFGn.PRIO [31:28], RW: Governor priority. 0 is never turned off, and 15 is turned off first. -/
def OUT_CFG_PRIO (k : Nat) : Field := ⟨0x00050100 + k * 0x4, 28, 4, 8⟩
/-- OUT_CFGn.SLEW [25:24], RWS: 0 2 µs, 1 8 µs, 2 25 µs; 3 is treated as 2. Boundary: next switching edge. -/
def OUT_CFG_SLEW (k : Nat) : Field := ⟨0x00050100 + k * 0x4, 24, 2, 1⟩
/-- OUT_CFGn.BRIDGE [20], RWL: n = 8 and 10 only; reads 0 for the others. 1 pairs the output with n + 1 (R169). -/
def OUT_CFG_BRIDGE (k : Nat) : Field := ⟨0x00050100 + k * 0x4, 20, 1, 0⟩
/-- OUT_CFGn.OFF_DIAG [17], RW: 1 enables off-state open-load detection -/
def OUT_CFG_OFF_DIAG (k : Nat) : Field := ⟨0x00050100 + k * 0x4, 17, 1, 0⟩
/-- OUT_CFGn.RANGE [16], RWS: 0 normal, 1 LED fine range. Boundary: next off-to-on transition. -/
def OUT_CFG_RANGE (k : Nat) : Field := ⟨0x00050100 + k * 0x4, 16, 1, 0⟩
/-- OUT_CFGn.OL_TH [7:0], RWS: Open-load threshold (R165). 0 disables it. Boundary: next off-to-on transition. -/
def OUT_CFG_OL_TH (k : Nat) : Field := ⟨0x00050100 + k * 0x4, 0, 8, 0⟩
/-- OUT_DIAGn.CAUSE [31:28], RO: 0 none, 1 OPEN_LOAD, 2 OPEN_OFF, 3 OVERLOAD, 4 THERMAL (latched), 5 UNDERVOLT, 6 … -/
def OUT_DIAG_CAUSE (k : Nat) : Field := ⟨0x00050140 + k * 0x4, 28, 4, 0⟩
/-- OUT_DIAGn.RETRIES [27:24], RO: Thermal restarts in the current 10 s -/
def OUT_DIAG_RETRIES (k : Nat) : Field := ⟨0x00050140 + k * 0x4, 24, 4, 0⟩
/-- OUT_ENERGYn.CELL_B [31:16], RO: Clamp energy total of cell B, J, saturating at 65,535. Loaded from the wear record at … -/
def OUT_ENERGY_CELL_B (k : Nat) : Field := ⟨0x00050180 + k * 0x4, 16, 16, 0⟩
/-- OUT_ENERGYn.CELL_A [15:0], RO: Clamp energy total of cell A, J, saturating at 65,535. Loaded from the wear record at … -/
def OUT_ENERGY_CELL_A (k : Nat) : Field := ⟨0x00050180 + k * 0x4, 0, 16, 0⟩
/-! Registers of spec/09_earth_fault_and_safety.md. -/

/-- SAFE_STATUS.SEEN [31:16], W1C: Each cause that has been held since the bit was last cleared, numbered as in the trip … -/
def SAFE_STATUS_SEEN : Field := ⟨0x00040000, 16, 16, 0⟩
/-- SAFE_STATUS.HELD [15:0], RO: Causes now held. The same value as the port SAFE_STATUS. -/
def SAFE_STATUS_HELD : Field := ⟨0x00040000, 0, 16, 0⟩
/-- SAFE_CTRL.SELFTEST [1], WO: 1 requests a self-test (R176) -/
def SAFE_CTRL_SELFTEST : Field := ⟨0x00040004, 1, 1, 0⟩
/-- SAFE_CTRL.HOST_TRIP [0], WO: 1 trips with cause HOST -/
def SAFE_CTRL_HOST_TRIP : Field := ⟨0x00040004, 0, 1, 0⟩
/-- SAFE_CLEAR.CLEAR [15:0], WO: 1 in bit n asks to release cause n (R190). Bits the host may not clear are ignored. -/
def SAFE_CLEAR_CLEAR : Field := ⟨0x00040008, 0, 16, 0⟩
/-- SAFE_CLEAR_P.CONTACTOR [1], RWP: Installer class. 1 releases CONTACTOR held for FB_MISMATCH, once open is confirmed. … -/
def SAFE_CLEAR_P_CONTACTOR : Field := ⟨0x0004000C, 1, 1, 0⟩
/-- SAFE_CLEAR_P.WELD [0], RWP: Installer class. 1 releases WELD, once open is confirmed. Reads 0. -/
def SAFE_CLEAR_P_WELD : Field := ⟨0x0004000C, 0, 1, 0⟩
/-- SAFE_LAST.FORME_VAL [31:24], RO: Value of the latest SAFE_TRIP -/
def SAFE_LAST_FORME_VAL : Field := ⟨0x00040010, 24, 8, 0⟩
/-- SAFE_LAST.CAUSE [3:0], RO: Bit number of the latest trip -/
def SAFE_LAST_CAUSE : Field := ⟨0x00040010, 0, 4, 0⟩
/-- SAFE_RCM_CFG.WARN_PCT [23:16], RWS: EV_RCM_WARN level, % of DC_TH, 20 to 90. Clamped. Boundary: next 1 ms update. -/
def SAFE_RCM_CFG_WARN_PCT : Field := ⟨0x00040020, 16, 8, 50⟩
/-- SAFE_RCM_CFG.DC_TH [7:0], RWL: 0.1 mA, 30 to 100. Clamped. -/
def SAFE_RCM_CFG_DC_TH : Field := ⟨0x00040020, 0, 8, 60⟩
/-- SAFE_RCM_TIME.T2 [23:16], RWL: ms, 25 to 100. Clamped. -/
def SAFE_RCM_TIME_T2 : Field := ⟨0x00040024, 16, 8, 40⟩
/-- SAFE_RCM_TIME.T1 [15:0], RWL: ms, 100 to 10,000. Clamped. -/
def SAFE_RCM_TIME_T1 : Field := ⟨0x00040024, 0, 16, 1000⟩
/-- SAFE_RCM_AC.T_AC [24:16], RWL: ms, 25 to 300. Clamped. -/
def SAFE_RCM_AC_T_AC : Field := ⟨0x00040028, 16, 9, 40⟩
/-- SAFE_RCM_AC.AC_TH [8:0], RWL: mA. 0 means off, otherwise 10 to 300, clamped. -/
def SAFE_RCM_AC_AC_TH : Field := ⟨0x00040028, 0, 9, 0⟩
/-- SAFE_RCM_MEAS.AC [31:16], RO: AC residual rms, 0.1 mA -/
def SAFE_RCM_MEAS_AC : Field := ⟨0x0004002C, 16, 16, 0⟩
/-- SAFE_RCM_MEAS.SIGN [15], RO: 1 when the DC residual flows from load to supply -/
def SAFE_RCM_MEAS_SIGN : Field := ⟨0x0004002C, 15, 1, 0⟩
/-- SAFE_RCM_MEAS.DC [14:0], RO: DC residual magnitude, 0.1 mA -/
def SAFE_RCM_MEAS_DC : Field := ⟨0x0004002C, 0, 15, 0⟩
/-- SAFE_RCM_TEST.RESULT [23:20], RO: 0 none, 1 pass, 2 zero check, 3 gain check, 4 no tier-2 trip, 5 return check, 6 chain … -/
def SAFE_RCM_TEST_RESULT : Field := ⟨0x00040030, 20, 4, 0⟩
/-- SAFE_RCM_TEST.N_T [13:8], RWL: Test-winding turns, 5 to 50. Clamped. -/
def SAFE_RCM_TEST_N_T : Field := ⟨0x00040030, 8, 6, 10⟩
/-- SAFE_PEN.EN [31], RWL: 1 enables PEN monitoring (R179) -/
def SAFE_PEN_EN : Field := ⟨0x00040040, 31, 1, 1⟩
/-- SAFE_PEN.PEN_TH [15:8], RWL: V, 10 to 70. Clamped. -/
def SAFE_PEN_PEN_TH : Field := ⟨0x00040040, 8, 8, 50⟩
/-- SAFE_PEN.PEN_T [7:0], RWL: 100 ms units, 1 to 50. Clamped. -/
def SAFE_PEN_PEN_T : Field := ⟨0x00040040, 0, 8, 10⟩
/-- SAFE_PEN_MEAS.VOLTS [15:0], RO: PE-to-N voltage, 0.1 V rms -/
def SAFE_PEN_MEAS_VOLTS : Field := ⟨0x00040044, 0, 16, 0⟩
/-- SAFE_OC_CFG.OC_T [31:24], RWS: 0.1 s, 10 to 255. Clamped. Boundary: next write to ALLOC_CURRENT. -/
def SAFE_OC_CFG_OC_T : Field := ⟨0x00040050, 24, 8, 50⟩
/-- SAFE_OC_CFG.OC_GRACE [23:16], RWS: 0.1 s, 50 to 255. Clamped. Boundary: next write to ALLOC_CURRENT. -/
def SAFE_OC_CFG_OC_GRACE : Field := ⟨0x00040050, 16, 8, 60⟩
/-- SAFE_OC_CFG.OC_ADD [15:8], RWS: 0.1 A, 0 to 50. Clamped. Boundary: next write to ALLOC_CURRENT. -/
def SAFE_OC_CFG_OC_ADD : Field := ⟨0x00040050, 8, 8, 10⟩
/-- SAFE_OC_CFG.OC_PCT [7:0], RWS: %, 0 to 50. Clamped. Boundary: next write to ALLOC_CURRENT. -/
def SAFE_OC_CFG_OC_PCT : Field := ⟨0x00040050, 0, 8, 10⟩
/-- SAFE_OC_STATUS.GRACE [31], RO: A grace time is running -/
def SAFE_OC_STATUS_GRACE : Field := ⟨0x00040054, 31, 1, 0⟩
/-- SAFE_OC_STATUS.NEXT_TH [29:16], RO: Threshold at the end of the grace time, 0.1 A -/
def SAFE_OC_STATUS_NEXT_TH : Field := ⟨0x00040054, 16, 14, 0⟩
/-- SAFE_OC_STATUS.TH [13:0], RO: Threshold in force, 0.1 A -/
def SAFE_OC_STATUS_TH : Field := ⟨0x00040054, 0, 14, 0⟩
/-- SAFE_TEMP_LIM.TRIP2 [31:24], RWL: TEMP2 trip, °C, 40 to 120 -/
def SAFE_TEMP_LIM_TRIP2 : Field := ⟨0x00040060, 24, 8, 90⟩
/-- SAFE_TEMP_LIM.WARN2 [23:16], RWL: TEMP2 warning, °C -/
def SAFE_TEMP_LIM_WARN2 : Field := ⟨0x00040060, 16, 8, 70⟩
/-- SAFE_TEMP_LIM.TRIP1 [15:8], RWL: TEMP1 trip, °C, 40 to 120 -/
def SAFE_TEMP_LIM_TRIP1 : Field := ⟨0x00040060, 8, 8, 90⟩
/-- SAFE_TEMP_LIM.WARN1 [7:0], RWL: TEMP1 warning, °C -/
def SAFE_TEMP_LIM_WARN1 : Field := ⟨0x00040060, 0, 8, 70⟩
/-- SAFE_TEMP_CTRL.SENS2 [17], RWL: TEMP2 sensor: 0 NTC, 1 PT1000 -/
def SAFE_TEMP_CTRL_SENS2 : Field := ⟨0x00040064, 17, 1, 0⟩
/-- SAFE_TEMP_CTRL.SENS1 [16], RWL: TEMP1 sensor: 0 NTC, 1 PT1000 -/
def SAFE_TEMP_CTRL_SENS1 : Field := ⟨0x00040064, 16, 1, 0⟩
/-- SAFE_TEMP_CTRL.HYST [15:8], RWL: °C, 2 to 30. Clamped. -/
def SAFE_TEMP_CTRL_HYST : Field := ⟨0x00040064, 8, 8, 10⟩
/-- SAFE_TEMP_CTRL.TEMP_FILT [7:0], RWS: Samples, 1 to 255. 0 is treated as 1. Boundary: next 10 ms sample. -/
def SAFE_TEMP_CTRL_TEMP_FILT : Field := ⟨0x00040064, 0, 8, 10⟩
/-- SAFE_SUPPLY.UV [31:16], RWL: Undervoltage limit, 0.1 V, 1500 to 2200. Clamped. -/
def SAFE_SUPPLY_UV : Field := ⟨0x00040070, 16, 16, 1840⟩
/-- SAFE_SUPPLY.OV [15:0], RWL: Overvoltage limit, 0.1 V, 2300 to 2760. Clamped. -/
def SAFE_SUPPLY_OV : Field := ⟨0x00040070, 0, 16, 2645⟩
/-- SAFE_FREQ.EN [31], RWL: 1 enables cause SUPPLY_F -/
def SAFE_FREQ_EN : Field := ⟨0x00040074, 31, 1, 1⟩
/-- SAFE_FREQ.HI [29:16], RWL: 0.01 Hz, 5000 to 6300 -/
def SAFE_FREQ_HI : Field := ⟨0x00040074, 16, 14, 5200⟩
/-- SAFE_FREQ.LO [13:0], RWL: 0.01 Hz, 4500 to 6000 -/
def SAFE_FREQ_LO : Field := ⟨0x00040074, 0, 14, 4750⟩
/-- SAFE_RECLOSE_CFG.COUNT [19:16], RO: Automatic releases in the current plug-in (R191) -/
def SAFE_RECLOSE_CFG_COUNT : Field := ⟨0x00040080, 16, 4, 0⟩
/-- SAFE_RECLOSE_CFG.RECLOSE_T [15:8], RWP: Installer class. s, 10 to 255. Clamped. -/
def SAFE_RECLOSE_CFG_RECLOSE_T : Field := ⟨0x00040080, 8, 8, 30⟩
/-- SAFE_RECLOSE_CFG.N [1:0], RWP: Installer class. Automatic retries, 0 to 3. -/
def SAFE_RECLOSE_CFG_N : Field := ⟨0x00040080, 0, 2, 0⟩
/-- SAFE_TRIPCNTn.COUNT [15:0], RO: Trips of cause n, saturating at 65,535. Kept in the event log across resets. -/
def SAFE_TRIPCNT_COUNT (k : Nat) : Field := ⟨0x000400C0 + k * 0x4, 0, 16, 0⟩
/-! Registers of spec/10_metrology.md. -/

/-- MET_CFG.IN_EN [3], RWP: Metrology class. 1 measures IN. Boundary: next block. -/
def MET_CFG_IN_EN : Field := ⟨0x00060000, 3, 1, 1⟩
/-- MET_CFG.NOM [2], RWP: Metrology class. Nominal frequency: 0 50 Hz, 1 60 Hz (R202). Boundary: next block. -/
def MET_CFG_NOM : Field := ⟨0x00060000, 2, 1, 0⟩
/-- MET_CFG.WIRING [1:0], RWP: Metrology class. 0 single-phase (VA, IA), 1 three-phase four-wire, 2 and 3 treated as … -/
def MET_CFG_WIRING : Field := ⟨0x00060000, 0, 2, 1⟩
/-- MET_ROT.ROT_PERIOD [11:0], RWS: Seconds, 2 to 3600, clamped. Boundary: next rotation step. -/
def MET_ROT_ROT_PERIOD : Field := ⟨0x00060004, 0, 12, 10⟩
/-- MET_BUDGET.OFFSET [31:16], RWP: Metrology class. Offset budget, 0.1 µV, 20 to 1000, clamped. Boundary: next judgement. -/
def MET_BUDGET_OFFSET : Field := ⟨0x00060008, 16, 16, 200⟩
/-- MET_BUDGET.GAIN [15:0], RWP: Metrology class. Gain budget, ppm, 50 to 1000, clamped. Boundary: next judgement. -/
def MET_BUDGET_GAIN : Field := ⟨0x00060008, 0, 16, 500⟩
/-- MET_STATUS.OVERLOAD [22], W1C: An input has clipped (R210) -/
def MET_STATUS_OVERLOAD : Field := ⟨0x0006000C, 22, 1, 0⟩
/-- MET_STATUS.ESTIMATED [21], W1C: A block has been marked ESTIMATED (R209) -/
def MET_STATUS_ESTIMATED : Field := ⟨0x0006000C, 21, 1, 0⟩
/-- MET_STATUS.FREQ_VALID [20], RO: Frequency measured (R202) -/
def MET_STATUS_FREQ_VALID : Field := ⟨0x0006000C, 20, 1, 0⟩
/-- MET_STATUS.ROT_REV [19], RO: Reversed phase rotation (R205) -/
def MET_STATUS_ROT_REV : Field := ⟨0x0006000C, 19, 1, 0⟩
/-- MET_STATUS.RECHECK [18], RO: A recheck is running (R207) -/
def MET_STATUS_RECHECK : Field := ⟨0x0006000C, 18, 1, 0⟩
/-- MET_STATUS.NO_SPARE [17], RO: Rotation has stopped. Mirrors METRO_NO_SPARE. -/
def MET_STATUS_NO_SPARE : Field := ⟨0x0006000C, 17, 1, 0⟩
/-- MET_STATUS.RETIRED [16:8], RO: Retired chains, bit c for chain c -/
def MET_STATUS_RETIRED : Field := ⟨0x0006000C, 8, 9, 0⟩
/-- MET_STATUS.CHECKING [7:4], RO: Chain under check, or 0xF -/
def MET_STATUS_CHECKING : Field := ⟨0x0006000C, 4, 4, 15⟩
/-- MET_STATUS.FREE [3:0], RO: Free chain, or 0xF -/
def MET_STATUS_FREE : Field := ⟨0x0006000C, 0, 4, 8⟩
/-- MET_MAP.IN [31:28], RO: Chain serving IN -/
def MET_MAP_IN : Field := ⟨0x00060010, 28, 4, 7⟩
/-- MET_MAP.IC [27:24], RO: Chain serving IC -/
def MET_MAP_IC : Field := ⟨0x00060010, 24, 4, 6⟩
/-- MET_MAP.IB [23:20], RO: Chain serving IB -/
def MET_MAP_IB : Field := ⟨0x00060010, 20, 4, 5⟩
/-- MET_MAP.IA [19:16], RO: Chain serving IA -/
def MET_MAP_IA : Field := ⟨0x00060010, 16, 4, 4⟩
/-- MET_MAP.VN [15:12], RO: Chain serving VN -/
def MET_MAP_VN : Field := ⟨0x00060010, 12, 4, 3⟩
/-- MET_MAP.VC [11:8], RO: Chain serving VC -/
def MET_MAP_VC : Field := ⟨0x00060010, 8, 4, 2⟩
/-- MET_MAP.VB [7:4], RO: Chain serving VB -/
def MET_MAP_VB : Field := ⟨0x00060010, 4, 4, 1⟩
/-- MET_MAP.VA [3:0], RO: Chain serving VA -/
def MET_MAP_VA : Field := ⟨0x00060010, 0, 4, 0⟩
/-- MET_CHECK.CHAIN [31:28], RO: Chain of the latest judgement -/
def MET_CHECK_CHAIN : Field := ⟨0x00060014, 28, 4, 0⟩
/-- MET_CHECK.RESULT [27:26], RO: 0 none, 1 within budget, 2 beyond budget with a recheck pending, 3 retired -/
def MET_CHECK_RESULT : Field := ⟨0x00060014, 26, 2, 0⟩
/-- MET_CHECK.OFFSET [25:14], RO: Offset part, signed, 0.1 µV, saturating -/
def MET_CHECK_OFFSET : Field := ⟨0x00060014, 14, 12, 0⟩
/-- MET_CHECK.GAIN [13:0], RO: Gain part, signed, ppm, saturating -/
def MET_CHECK_GAIN : Field := ⟨0x00060014, 0, 14, 0⟩
/-- MET_FREQ_W.W [31:17], RO: Window W in µs (R202) -/
def MET_FREQ_W_W : Field := ⟨0x00060020, 17, 15, 20000⟩
/-- MET_FREQ_W.FREQ [16:0], RO: Frequency, mHz; 0 while FREQ_VALID = 0 -/
def MET_FREQ_W_FREQ : Field := ⟨0x00060020, 0, 17, 0⟩
/-- MET_FBAND.HI [31:16], RW: Upper band edge, 10 mHz -/
def MET_FBAND_HI : Field := ⟨0x00060024, 16, 16, 5020⟩
/-- MET_FBAND.LO [15:0], RW: Lower band edge, 10 mHz -/
def MET_FBAND_LO : Field := ⟨0x00060024, 0, 16, 4980⟩
/-- MET_CREEP.CREEP [15:0], RWP: Metrology class. No-load threshold, 0.1 W (and 0.1 var), 0 to 1000, clamped (R201). … -/
def MET_CREEP_CREEP : Field := ⟨0x00060028, 0, 16, 20⟩
/-- MET_VALk.VALUE [31:0], RO: Block value k of the latest block, as the next table gives -/
def MET_VAL_VALUE (k : Nat) : Field := ⟨0x00060040 + k * 0x4, 0, 32, 0⟩
/-- MET_ZCn.STAMP [31:0], RO: n = 0 to 2: voltage A to C; n = 3 to 5: current A to C. STR_USEC time of the last … -/
def MET_ZC_STAMP (k : Nat) : Field := ⟨0x00060080 + k * 0x4, 0, 32, 0⟩
/-- MET_PHASE.VC [31:16], RO: VC behind VA, 0.01°, or 0xFFFF -/
def MET_PHASE_VC : Field := ⟨0x000600A0, 16, 16, 65535⟩
/-- MET_PHASE.VB [15:0], RO: VB behind VA, 0.01°, or 0xFFFF -/
def MET_PHASE_VB : Field := ⟨0x000600A0, 0, 16, 65535⟩
/-- MET_BLOCK.OVERLOAD [28], RO: The latest block had a clipped sample -/
def MET_BLOCK_OVERLOAD : Field := ⟨0x000600B0, 28, 1, 0⟩
/-- MET_BLOCK.ESTIMATED [27], RO: The latest block holds estimated samples -/
def MET_BLOCK_ESTIMATED : Field := ⟨0x000600B0, 27, 1, 0⟩
/-- MET_BLOCK.PARTIAL [26], RO: The latest block ended early (R200) -/
def MET_BLOCK_PARTIAL : Field := ⟨0x000600B0, 26, 1, 0⟩
/-- MET_BLOCK.SAMPLES [25:16], RO: Samples in the latest block -/
def MET_BLOCK_SAMPLES : Field := ⟨0x000600B0, 16, 10, 0⟩
/-- MET_BLOCK.INDEX [13:0], RO: Block index modulo 16,384 -/
def MET_BLOCK_INDEX : Field := ⟨0x000600B0, 0, 14, 0⟩
/-- MET_TOTk_LO.LOW [31:0], RO: Low word of the total, mWh or mvarh. A read latches HIGH for the next read of MET_TOTk_HI. -/
def MET_TOT_LO_LOW (k : Nat) : Field := ⟨0x000600C0 + k * 0x8, 0, 32, 0⟩
/-- MET_TOTk_HI.HIGH [31:0], RO: High word, as latched by the last read of MET_TOTk_LO -/
def MET_TOT_HI_HIGH (k : Nat) : Field := ⟨0x000600C4 + k * 0x8, 0, 32, 0⟩
/-- MET_CAL_IDX.IDX [6:0], RWP: Metrology class. Calibration item selected (R213) -/
def MET_CAL_IDX_IDX : Field := ⟨0x00060100, 0, 7, 0⟩
/-- MET_CAL_VAL.VALUE [31:0], RWP: Metrology class. Stages a value for the item in IDX (R214). Reads the staged value or … -/
def MET_CAL_VAL_VALUE : Field := ⟨0x00060104, 0, 32, 0⟩
/-- MET_CAL_CMD.DISCARD [1], RWP: Metrology class. 1 drops every staged value. Reads 0. -/
def MET_CAL_CMD_DISCARD : Field := ⟨0x00060108, 1, 1, 0⟩
/-- MET_CAL_CMD.COMMIT [0], RWP: Metrology class. 1 commits at the next block boundary. Reads 1 until that boundary. -/
def MET_CAL_CMD_COMMIT : Field := ⟨0x00060108, 0, 1, 0⟩
/-- MET_CAL_STAT.STAGED [16], RO: At least one value is staged -/
def MET_CAL_STAT_STAGED : Field := ⟨0x0006010C, 16, 1, 0⟩
/-- MET_CAL_STAT.COUNT [15:0], RO: Commits since manufacture, saturating at 65,535. Loaded from the calibration partition … -/
def MET_CAL_STAT_COUNT : Field := ⟨0x0006010C, 0, 16, 0⟩
/-- MET_CAL_MEAS.PAD_RMS [31:0], RO: Rms at the pad of the input that IDX selects, over the latest block, 0.1 µV, after … -/
def MET_CAL_MEAS_PAD_RMS : Field := ⟨0x00060110, 0, 32, 0⟩
/-- MET_CAL_ANG.ANGLE [31:0], RO: Signed, 0.001°. For a current input selected by IDX: the angle by which it lags its … -/
def MET_CAL_ANG_ANGLE : Field := ⟨0x00060114, 0, 32, 0⟩
/-! Registers of spec/11_ledger_tariffs_tamper.md. -/

/-- LED_CFG.PREPAY_EN [7], RWS: 1 debits prepayment accounts (R234). Boundary: next block. -/
def LED_CFG_PREPAY_EN : Field := ⟨0x00070000, 7, 1, 0⟩
/-- LED_CFG.EXPORT_CREDIT [6], RWS: 1 credits export at the export price. Boundary: next block. -/
def LED_CFG_EXPORT_CREDIT : Field := ⟨0x00070000, 6, 1, 0⟩
/-- LED_CFG.DEMAND_LEN [2:0], RWS: 0 5 min, 1 10 min, 2 15 min, 3 30 min, 4 60 min; 5 to 7 are treated as 2. Boundary: … -/
def LED_CFG_DEMAND_LEN : Field := ⟨0x00070000, 0, 3, 2⟩
/-- LED_STATUS.BOUNDARY_PENDING [15], RO: A boundary is being processed (R227) -/
def LED_STATUS_BOUNDARY_PENDING : Field := ⟨0x00070004, 15, 1, 0⟩
/-- LED_STATUS.UNVERIFIED [14], W1C: Hub: a head seal failed (R243) -/
def LED_STATUS_UNVERIFIED : Field := ⟨0x00070004, 14, 1, 0⟩
/-- LED_STATUS.ACC_DIFF [13], W1C: Additions differed from Metrology (R220) -/
def LED_STATUS_ACC_DIFF : Field := ⟨0x00070004, 13, 1, 0⟩
/-- LED_STATUS.RECORDS_LOST [12], W1C: Unexported records overwritten -/
def LED_STATUS_RECORDS_LOST : Field := ⟨0x00070004, 12, 1, 0⟩
/-- LED_STATUS.EXPORT_LAG [11], RO: Unexported bytes above 80 % of the ring -/
def LED_STATUS_EXPORT_LAG : Field := ⟨0x00070004, 11, 1, 0⟩
/-- LED_STATUS.SEAL_PENDING [10], RO: A seal awaits its key -/
def LED_STATUS_SEAL_PENDING : Field := ⟨0x00070004, 10, 1, 0⟩
/-- LED_STATUS.HOLD [9], RO: Ledger time held (R217) -/
def LED_STATUS_HOLD : Field := ⟨0x00070004, 9, 1, 0⟩
/-- LED_STATUS.TIME_UNSURE [8], RO: Ledger time free-running since an AO loss (R219) -/
def LED_STATUS_TIME_UNSURE : Field := ⟨0x00070004, 8, 1, 0⟩
/-- LED_STATUS.TARIFF [3:0], RO: Tariff in force, 1 to 8 -/
def LED_STATUS_TARIFF : Field := ⟨0x00070004, 0, 4, 1⟩
/-- LED_TIME.L [31:0], RO: Ledger time, UTC seconds -/
def LED_TIME_L : Field := ⟨0x00070008, 0, 32, 0⟩
/-- LED_HOLD.SECONDS [31:0], RO: L − W while held, otherwise 0 -/
def LED_HOLD_SECONDS : Field := ⟨0x0007000C, 0, 32, 0⟩
/-- LED_NEXT.NEXT [31:0], RO: Ledger time of the next boundary of any kind -/
def LED_NEXT_NEXT : Field := ⟨0x00070010, 0, 32, 0⟩
/-- LED_SEQ.SEQ [31:0], RO: SEQ of the next record -/
def LED_SEQ_SEQ : Field := ⟨0x00070014, 0, 32, 0⟩
/-- LED_SESSION.NUMBER [31:0], RO: Open session number, or 0 -/
def LED_SESSION_NUMBER : Field := ⟨0x00070018, 0, 32, 0⟩
/-- LED_RING_TAIL.OFFSET [31:0], RO (tail, head), RW (ack): Partition byte offsets (R244) -/
def LED_RING_TAIL_OFFSET : Field := ⟨0x00070020, 0, 32, 0⟩
/-- LED_RING_HEAD.OFFSET [31:0], RO (tail, head), RW (ack): Partition byte offsets (R244) -/
def LED_RING_HEAD_OFFSET : Field := ⟨0x00070024, 0, 32, 0⟩
/-- LED_EXP_ACK.OFFSET [31:0], RO (tail, head), RW (ack): Partition byte offsets (R244) -/
def LED_EXP_ACK_OFFSET : Field := ⟨0x00070028, 0, 32, 0⟩
/-- LED_BILL.PERIOD [31:8], RO: Billing period number -/
def LED_BILL_PERIOD : Field := ⟨0x00070030, 8, 24, 0⟩
/-- LED_BILL.CLOSE [0], WO: 1 closes the period at the next whole second (R223) -/
def LED_BILL_CLOSE : Field := ⟨0x00070030, 0, 1, 0⟩
/-- LED_CLEAR.KEY [31:16], RWP: Metrology class. Must be 0xC1EA in the same write. Reads 0. -/
def LED_CLEAR_KEY : Field := ⟨0x00070034, 16, 16, 0⟩
/-- LED_CLEAR.CLEAR [0], RWP: Metrology class. 1 clears under R246. Reads 0. -/
def LED_CLEAR_CLEAR : Field := ⟨0x00070034, 0, 1, 0⟩
/-- LED_CAL_SRC.LEN [31:20], RW: Image length in bytes -/
def LED_CAL_SRC_LEN : Field := ⟨0x00070040, 20, 12, 0⟩
/-- LED_CAL_SRC.OFFSET [17:0], RW: Byte offset in the shared window, 4-aligned -/
def LED_CAL_SRC_OFFSET : Field := ⟨0x00070040, 0, 18, 0⟩
/-- LED_CAL_CTRL.DROP_PASSIVE [1], WO: 1 discards the passive calendar -/
def LED_CAL_CTRL_DROP_PASSIVE : Field := ⟨0x00070044, 1, 1, 0⟩
/-- LED_CAL_CTRL.LOAD [0], WO: 1 loads the image (R226). ERR_MODE in HEAD. -/
def LED_CAL_CTRL_LOAD : Field := ⟨0x00070044, 0, 1, 0⟩
/-- LED_CAL_STAT.BUSY [9], RO: A load is being checked -/
def LED_CAL_STAT_BUSY : Field := ⟨0x00070048, 9, 1, 0⟩
/-- LED_CAL_STAT.PASSIVE [8], RO: A passive calendar awaits activation -/
def LED_CAL_STAT_PASSIVE : Field := ⟨0x00070048, 8, 1, 0⟩
/-- LED_CAL_STAT.RESULT [3:0], RO: Result of the last load (R226), 0 before any -/
def LED_CAL_STAT_RESULT : Field := ⟨0x00070048, 0, 4, 0⟩
/-- LED_CAL_ACTIVE.CAL_ID [31:0], RO: CAL_ID of the active or passive calendar, 0 if none -/
def LED_CAL_ACTIVE_CAL_ID : Field := ⟨0x0007004C, 0, 32, 0⟩
/-- LED_CAL_PASSIVE.CAL_ID [31:0], RO: CAL_ID of the active or passive calendar, 0 if none -/
def LED_CAL_PASSIVE_CAL_ID : Field := ⟨0x00070050, 0, 32, 0⟩
/-- LED_EMERG_AMT.VALUE [31:0], RW: Emergency credit amount, unsigned, or the level below which it may be granted, signed, … -/
def LED_EMERG_AMT_VALUE : Field := ⟨0x00070060, 0, 32, 0⟩
/-- LED_EMERG_LEVEL.VALUE [31:0], RW: Emergency credit amount, unsigned, or the level below which it may be granted, signed, … -/
def LED_EMERG_LEVEL_VALUE : Field := ⟨0x00070064, 0, 32, 0⟩
/-- LED_TOPUP_ACCT.ACCOUNT [7:0], RW: Account, 0 to 255 -/
def LED_TOPUP_ACCT_ACCOUNT : Field := ⟨0x00070070, 0, 8, 0⟩
/-- LED_TOPUP_AMT.VALUE [31:0], RW: Amount in 0.001 unit, or the host's reference, which is recorded -/
def LED_TOPUP_AMT_VALUE : Field := ⟨0x00070074, 0, 32, 0⟩
/-- LED_TOPUP_REF.VALUE [31:0], RW: Amount in 0.001 unit, or the host's reference, which is recorded -/
def LED_TOPUP_REF_VALUE : Field := ⟨0x00070078, 0, 32, 0⟩
/-- LED_TOPUP_CMD.RESULT [11:8], RO: 0 none, 1 credited, 2 busy, 3 amount invalid, 4 prepayment disabled -/
def LED_TOPUP_CMD_RESULT : Field := ⟨0x0007007C, 8, 4, 0⟩
/-- LED_TOPUP_CMD.GO [0], WO: 1 applies the top-up (R236). ERR_MODE in HEAD and REPEATER. -/
def LED_TOPUP_CMD_GO : Field := ⟨0x0007007C, 0, 1, 0⟩
/-- LED_BALk.A [31:0], RO: Available credit of account k, signed, 0.001 unit. Outside HUB, only the own channel's … -/
def LED_BAL_A (k : Nat) : Field := ⟨0x00070400 + k * 0x4, 0, 32, 0⟩
/-- AO_RTC_NOW.W [31:0], RO: Wall clock, UTC seconds; 0 while RTC_VALID = 0 -/
def AO_RTC_NOW_W : Field := ⟨0x000E0000, 0, 32, 0⟩
/-- AO_RTC_SET.W [31:0], RWS: New wall clock (R218). Boundary: next RTC second rollover. ERR_MODE in HEAD and REPEATER. -/
def AO_RTC_SET_W : Field := ⟨0x000E0004, 0, 32, 0⟩
/-- AO_TMP_STATE.TERM_OPEN [1], RO: Terminal cover open -/
def AO_TMP_STATE_TERM_OPEN : Field := ⟨0x000E0010, 1, 1, 0⟩
/-- AO_TMP_STATE.COVER_OPEN [0], RO: Cover open -/
def AO_TMP_STATE_COVER_OPEN : Field := ⟨0x000E0010, 0, 1, 0⟩
/-- AO_TMP_LOG_STAT.DROPPED [31:16], RO: Changes dropped since the last copy, saturating at 65,535 -/
def AO_TMP_LOG_STAT_DROPPED : Field := ⟨0x000E0014, 16, 16, 0⟩
/-- AO_TMP_LOG_STAT.ENTRIES [6:0], RO: Entries waiting to be copied, 0 to 64 -/
def AO_TMP_LOG_STAT_ENTRIES : Field := ⟨0x000E0014, 0, 7, 0⟩
/-- AO_TMP_LOGn.TIME [31:0], RO: RTC time of entry n -/
def AO_TMP_LOG_TIME (k : Nat) : Field := ⟨0x000E0800 + k * 0x8, 0, 32, 0⟩
/-- AO_TMP_INFOn.FLAGS [23:16], RO: [0] main power present, [1] RTC not valid -/
def AO_TMP_INFO_FLAGS (k : Nat) : Field := ⟨0x000E0804 + k * 0x8, 16, 8, 0⟩
/-- AO_TMP_INFOn.STATE [15:8], RO: 1 open, 0 shut -/
def AO_TMP_INFO_STATE (k : Nat) : Field := ⟨0x000E0804 + k * 0x8, 8, 8, 0⟩
/-- AO_TMP_INFOn.INPUT [7:0], RO: 0 cover, 1 terminal cover -/
def AO_TMP_INFO_INPUT (k : Nat) : Field := ⟨0x000E0804 + k * 0x8, 0, 8, 0⟩
/-! Registers of spec/12_lanyard_site_link.md. -/

/-- LNK_CFG.REUSE [2], RW: Hub. 1 allows co-sending (R276). -/
def LNK_CFG_REUSE : Field := ⟨0x00080000, 2, 1, 1⟩
/-- LNK_CFG.OUTLET_0 [1], RWL: Hub. 1 reserves channel 0 for the hub's outlet. -/
def LNK_CFG_OUTLET_0 : Field := ⟨0x00080000, 1, 1, 1⟩
/-- LNK_CFG.PLAN [0], RWL: 0 Plan A, 1 Plan F -/
def LNK_CFG_PLAN : Field := ⟨0x00080000, 0, 1, 0⟩
/-- LNK_TX.ATT [4:0], RWS: Attenuation from 10 Vpp, dB, 0 to 20. Clamped. Boundary: next transmitted frame. -/
def LNK_TX_ATT : Field := ⟨0x00080004, 0, 5, 0⟩
/-- LNK_STATUS.CHANNEL [31:24], RO: Own channel (head, repeater) -/
def LNK_STATUS_CHANNEL : Field := ⟨0x00080008, 24, 8, 0⟩
/-- LNK_STATUS.HOPS [22:20], RO: Hops of own lead in the last poll -/
def LNK_STATUS_HOPS : Field := ⟨0x00080008, 20, 3, 0⟩
/-- LNK_STATUS.MOD [19:18], RO: Modulation of the last poll, coded as in R254 -/
def LNK_STATUS_MOD : Field := ⟨0x00080008, 18, 2, 0⟩
/-- LNK_STATUS.ROUNDS [11:8], RO: As SITE_STATUS [5:2] -/
def LNK_STATUS_ROUNDS : Field := ⟨0x00080008, 8, 4, 0⟩
/-- LNK_STATUS.STATE [1:0], RO: 0 unpaired, 1 joined, 2 fallback -/
def LNK_STATUS_STATE : Field := ⟨0x00080008, 0, 2, 0⟩
/-- LNK_ROUND.COUNTER [31:0], RO: Round counter: the current round (hub) or the last round accepted (node) -/
def LNK_ROUND_COUNTER : Field := ⟨0x0008000C, 0, 32, 0⟩
/-- LNK_RTIME.MS [15:0], RO: Hub: length of the last round. Node: T_p. In ms. -/
def LNK_RTIME_MS : Field := ⟨0x00080010, 0, 16, 0⟩
/-- LNK_PASS.N_PASS [7:0], RWS: Hub. Pass windows per round, 0 to 255. Boundary: next round. -/
def LNK_PASS_N_PASS : Field := ⟨0x00080014, 0, 8, 4⟩
/-- LNK_JOIN.OPEN [31], RW: Hub. 1 opens the join window. It reads 0 once the window has closed. -/
def LNK_JOIN_OPEN : Field := ⟨0x00080018, 31, 1, 0⟩
/-- LNK_JOIN.WIN [15:0], RW: Window length, s, 10 to 65,535. Clamped. -/
def LNK_JOIN_WIN : Field := ⟨0x00080018, 0, 16, 600⟩
/-- LNK_JOIN_STAT.FALLBACK [29:16], RO: Node: SITE_FALLBACK_A from a JOIN_FULL answer, 0.1 A -/
def LNK_JOIN_STAT_FALLBACK : Field := ⟨0x0008001C, 16, 14, 0⟩
/-- LNK_JOIN_STAT.JOINS [15:8], RO: Hub: joins completed, saturating at 255 -/
def LNK_JOIN_STAT_JOINS : Field := ⟨0x0008001C, 8, 8, 0⟩
/-- LNK_JOIN_STAT.RESULT [7:0], RO: Node: 0x00 joined, 0x30 JOIN_FULL, 0x32 JOIN_TIMEOUT, 0xFF no attempt -/
def LNK_JOIN_STAT_RESULT : Field := ⟨0x0008001C, 0, 8, 255⟩
/-- LNK_REMOVE.GO [8], WO: Hub. 1 removes CHANNEL (R281). ERR_MODE outside HUB. -/
def LNK_REMOVE_GO : Field := ⟨0x00080020, 8, 1, 0⟩
/-- LNK_REMOVE.CHANNEL [7:0], WO: Channel to remove -/
def LNK_REMOVE_CHANNEL : Field := ⟨0x00080020, 0, 8, 0⟩
/-- LNK_UNPAIR.LEAVE [0], RWP: Installer class. HEAD and REPEATER. 1 leaves the site (R281). Reads 0. -/
def LNK_UNPAIR_LEAVE : Field := ⟨0x00080024, 0, 1, 0⟩
/-- LNK_DELIV.ID [31:16], RO: Delivery in progress, 0 for none -/
def LNK_DELIV_ID : Field := ⟨0x00080028, 16, 16, 0⟩
/-- LNK_DELIV.NEXT [15:0], RO: Node: next chunk needed. Hub: members complete. -/
def LNK_DELIV_NEXT : Field := ⟨0x00080028, 0, 16, 0⟩
/-- LNK_COUNT.RETRIES [31:16], RO: Retries, saturating at 65,535 -/
def LNK_COUNT_RETRIES : Field := ⟨0x00080030, 16, 16, 0⟩
/-- LNK_COUNT.MISSES [15:0], RO: Nodes marked missed (hub) or rounds counted without a poll (node), saturating -/
def LNK_COUNT_MISSES : Field := ⟨0x00080030, 0, 16, 0⟩
/-- LNK_IMPULSE.SYMBOLS [31:0], RO: Symbols with blanked samples (R260), saturating -/
def LNK_IMPULSE_SYMBOLS : Field := ⟨0x00080034, 0, 32, 0⟩
/-- LNK_LEAD_SEL.CHANNEL [7:0], RW: Hub. Node whose lead LNK_LEAD0 and LNK_LEAD1 show -/
def LNK_LEAD_SEL_CHANNEL : Field := ⟨0x00080038, 0, 8, 0⟩
/-- LNK_LEAD0.ROUTE [31:0], RO: ROUTE[0] in [7:0] to ROUTE[3] in [31:24] -/
def LNK_LEAD0_ROUTE : Field := ⟨0x0008003C, 0, 32, 0⟩
/-- LNK_LEAD1.ROUTE [23:0], RO: ROUTE[4] in [7:0] to ROUTE[6] in [23:16] -/
def LNK_LEAD1_ROUTE : Field := ⟨0x00080040, 0, 24, 0⟩
/-- LNK_VIOLk.COUNT [15:0], RO: Occurrences of violation k (R283), saturating at 65,535 -/
def LNK_VIOL_COUNT (k : Nat) : Field := ⟨0x00080080 + k * 0x4, 0, 16, 0⟩
/-- LNK_NODEn.REG [31], RO: Channel registered -/
def LNK_NODE_REG (k : Nat) : Field := ⟨0x00081000 + k * 0x8, 31, 1, 0⟩
/-- LNK_NODEn.MISSED [30], RO: Marked missed in the last round -/
def LNK_NODE_MISSED (k : Nat) : Field := ⟨0x00081000 + k * 0x8, 30, 1, 0⟩
/-- LNK_NODEn.DORMANT [29], RO: Dormant (R265) -/
def LNK_NODE_DORMANT (k : Nat) : Field := ⟨0x00081000 + k * 0x8, 29, 1, 0⟩
/-- LNK_NODEn.INERT [28], RO: The last answer reported INERT -/
def LNK_NODE_INERT (k : Nat) : Field := ⟨0x00081000 + k * 0x8, 28, 1, 0⟩
/-- LNK_NODEn.REPEATER [27], RO: Node is a REPEATER -/
def LNK_NODE_REPEATER (k : Nat) : Field := ⟨0x00081000 + k * 0x8, 27, 1, 0⟩
/-- LNK_NODEn.HOPS [26:24], RO: Hops of the current lead -/
def LNK_NODE_HOPS (k : Nat) : Field := ⟨0x00081000 + k * 0x8, 24, 3, 0⟩
/-- LNK_NODEn.MOD [23:22], RO: Lead modulation -/
def LNK_NODE_MOD (k : Nat) : Field := ⟨0x00081000 + k * 0x8, 22, 2, 0⟩
/-- LNK_NODEn.PHASE [21:20], RO: Phase code -/
def LNK_NODE_PHASE (k : Nat) : Field := ⟨0x00081000 + k * 0x8, 20, 2, 3⟩
/-- LNK_NODEn.THREE [19], RO: Three-phase -/
def LNK_NODE_THREE (k : Nat) : Field := ⟨0x00081000 + k * 0x8, 19, 1, 0⟩
/-- LNK_NODEn.ROT_REV [18], RO: Reversed rotation -/
def LNK_NODE_ROT_REV (k : Nat) : Field := ⟨0x00081000 + k * 0x8, 18, 1, 0⟩
/-- LNK_NODEn.CARRIERS [14:8], RO: Fewest usable carriers over the lead's hops -/
def LNK_NODE_CARRIERS (k : Nat) : Field := ⟨0x00081000 + k * 0x8, 8, 7, 0⟩
/-- LNK_NODEn.MISS_RUN [7:0], RO: Rounds missed in a row, saturating at 255 -/
def LNK_NODE_MISS_RUN (k : Nat) : Field := ⟨0x00081000 + k * 0x8, 0, 8, 0⟩
/-- LNK_NODEn_SEEN.ROUND [31:0], RO: Round counter of the node's last answer that passed its check -/
def LNK_NODE_SEEN_ROUND (k : Nat) : Field := ⟨0x00081004 + k * 0x8, 0, 32, 0⟩
/-! Registers of spec/13_site_allocation.md. -/

/-- ALLOC_GRID.MARGIN [31:16], RWP: Installer class. 0.1 A, 0 to 500. Clamped. -/
def ALLOC_GRID_MARGIN : Field := ⟨0x00082000, 16, 16, 40⟩
/-- ALLOC_GRID.GRID_LIMIT [15:0], RWP: Installer class. 0.1 A, 0 to 6,300. Clamped. -/
def ALLOC_GRID_GRID_LIMIT : Field := ⟨0x00082000, 0, 16, 0⟩
/-- ALLOC_OTHERp.OTHER [15:0], RW: Site phase p, signed, 0.1 A. A write restarts the input age. -/
def ALLOC_OTHER_OTHER (k : Nat) : Field := ⟨0x00082004 + k * 0x4, 0, 16, 0⟩
/-- ALLOC_IMPORT_W.WATTS [23:0], RW: W (R285). A write to ALLOC_SURPLUS_W restarts the input age. -/
def ALLOC_IMPORT_W_WATTS : Field := ⟨0x00082010, 0, 24, 0⟩
/-- ALLOC_SURPLUS_W.WATTS [23:0], RW: W (R285). A write to ALLOC_SURPLUS_W restarts the input age. -/
def ALLOC_SURPLUS_W_WATTS : Field := ⟨0x00082014, 0, 24, 0⟩
/-- ALLOC_EXPORT_W.WATTS [23:0], RW: W (R285). A write to ALLOC_SURPLUS_W restarts the input age. -/
def ALLOC_EXPORT_W_WATTS : Field := ⟨0x0008201C, 0, 24, 0⟩
/-- ALLOC_BATT_W.WATTS [31:0], RW: Signed W. A write restarts the input age. -/
def ALLOC_BATT_W_WATTS : Field := ⟨0x00082018, 0, 32, 0⟩
/-- ALLOC_EXPORT_LIM.LIMIT [13:0], RWP: Installer class. Export per phase, 0.1 A. -/
def ALLOC_EXPORT_LIM_LIMIT : Field := ⟨0x00082020, 0, 14, 0⟩
/-- ALLOC_SAFE.FALLBACK [29:16], RO: SITE_FALLBACK_A of the latest run, 0.1 A (R298) -/
def ALLOC_SAFE_FALLBACK : Field := ⟨0x00082024, 16, 14, 0⟩
/-- ALLOC_SAFE.SAFE_A [15:0], RWP: Installer class. 0.1 A, 0 to 6,300. Clamped. -/
def ALLOC_SAFE_SAFE_A : Field := ⟨0x00082024, 0, 16, 0⟩
/-- ALLOC_TIMING.INPUT_TMO [31:24], RW: s, 10 to 255. Clamped. -/
def ALLOC_TIMING_INPUT_TMO : Field := ⟨0x00082028, 24, 8, 60⟩
/-- ALLOC_TIMING.MIN_RUN [23:16], RW: min, 1 to 120. Clamped. -/
def ALLOC_TIMING_MIN_RUN : Field := ⟨0x00082028, 16, 8, 15⟩
/-- ALLOC_TIMING.MIN_PAUSE [15:8], RW: min, 1 to 60. Clamped. -/
def ALLOC_TIMING_MIN_PAUSE : Field := ⟨0x00082028, 8, 8, 2⟩
/-- ALLOC_TIMING.PROBE_T [7:0], RW: 10 s units, 6 to 255. Clamped. -/
def ALLOC_TIMING_PROBE_T : Field := ⟨0x00082028, 0, 8, 30⟩
/-- ALLOC_LEARN.LEARN_EN [24], RW: 1 enables learned ceilings (R293) -/
def ALLOC_LEARN_LEARN_EN : Field := ⟨0x0008202C, 24, 1, 1⟩
/-- ALLOC_LEARN.PROBE_STEP [23:16], RW: 0.1 A, 5 to 100. Clamped. -/
def ALLOC_LEARN_PROBE_STEP : Field := ⟨0x0008202C, 16, 8, 20⟩
/-- ALLOC_LEARN.LEARN_GAP [15:8], RW: 0.1 A, 5 to 50. Clamped. -/
def ALLOC_LEARN_LEARN_GAP : Field := ⟨0x0008202C, 8, 8, 10⟩
/-- ALLOC_LEARN.LEARN_N [7:0], RW: Answers, 2 to 32. Clamped. -/
def ALLOC_LEARN_LEARN_N : Field := ⟨0x0008202C, 0, 8, 5⟩
/-- ALLOC_VNOM.VNOM [15:0], RW: 0.1 V, 2,000 to 2,600. Clamped. -/
def ALLOC_VNOM_VNOM : Field := ⟨0x00082030, 0, 16, 2300⟩
/-- ALLOC_STATUS.STALE [31], RO: Dynamic inputs stale (R285) -/
def ALLOC_STATUS_STALE : Field := ⟨0x00082034, 31, 1, 1⟩
/-- ALLOC_STATUS.DEFICIT [30], RO: Reservations exceeded the headroom or B in the latest run (R292) -/
def ALLOC_STATUS_DEFICIT : Field := ⟨0x00082034, 30, 1, 0⟩
/-- ALLOC_STATUS.PAUSED [24:16], RO: Channels paused in the latest run -/
def ALLOC_STATUS_PAUSED : Field := ⟨0x00082034, 16, 9, 0⟩
/-- ALLOC_STATUS.ROUND [13:0], RO: Round number of the latest run, modulo 16,384 -/
def ALLOC_STATUS_ROUND : Field := ⟨0x00082034, 0, 14, 0⟩
/-- ALLOC_BUDGET.VALUE [31:0], RO: B of the latest run, or the phase-amperes it committed, 0.1 A -/
def ALLOC_BUDGET_VALUE : Field := ⟨0x00082038, 0, 32, 0⟩
/-- ALLOC_BUDGET_USED.VALUE [31:0], RO: B of the latest run, or the phase-amperes it committed, 0.1 A -/
def ALLOC_BUDGET_USED_VALUE : Field := ⟨0x0008203C, 0, 32, 0⟩
/-- ALLOC_PHASEp.USED [31:16], RO: Committed on site phase p in the latest run, 0.1 A -/
def ALLOC_PHASE_USED (k : Nat) : Field := ⟨0x00082040 + k * 0x4, 16, 16, 0⟩
/-- ALLOC_PHASEp.HEADROOM [15:0], RO: H[p] of the latest run, 0.1 A -/
def ALLOC_PHASE_HEADROOM (k : Nat) : Field := ⟨0x00082040 + k * 0x4, 0, 16, 0⟩
/-- ALLOC_SA.WRITTEN [31], RO: The host limit is in force (R299) -/
def ALLOC_SA_WRITTEN : Field := ⟨0x00082060, 31, 1, 0⟩
/-- ALLOC_SA.EXPORT [29:16], RW: STANDALONE. Export limit, 0.1 A, 0 to 800. -/
def ALLOC_SA_EXPORT : Field := ⟨0x00082060, 16, 14, 0⟩
/-- ALLOC_SA.IMPORT [13:0], RW: STANDALONE. Import limit, 0.1 A, 0 to 800. -/
def ALLOC_SA_IMPORT : Field := ⟨0x00082060, 0, 14, 0⟩
/-- ALLOC_SA_DEF.SA_TMO [31:16], RWP: Installer class. s, 0 for no expiry. -/
def ALLOC_SA_DEF_SA_TMO : Field := ⟨0x00082064, 16, 16, 0⟩
/-- ALLOC_SA_DEF.DEFAULT [13:0], RWP: Installer class. Configured standalone limit, 0.1 A. -/
def ALLOC_SA_DEF_DEFAULT : Field := ⟨0x00082064, 0, 14, 0⟩
/-- ALLOC_OWN.SOURCE [31:30], RO: 0 poll, 1 fallback, 2 host, 3 hub run -/
def ALLOC_OWN_SOURCE : Field := ⟨0x00082068, 30, 2, 0⟩
/-- ALLOC_OWN.EXPORT [29:16], RO: Export grant in force, 0.1 A (R297) -/
def ALLOC_OWN_EXPORT : Field := ⟨0x00082068, 16, 14, 0⟩
/-- ALLOC_OWN.IMPORT [13:0], RO: Import grant in force, 0.1 A -/
def ALLOC_OWN_IMPORT : Field := ⟨0x00082068, 0, 14, 0⟩
/-- ALLOC_VIOLk.COUNT [15:0], RO: Occurrences of violation k (R302), saturating at 65,535 -/
def ALLOC_VIOL_COUNT (k : Nat) : Field := ⟨0x00082070 + k * 0x4, 0, 16, 0⟩
/-- ALLOC_CHn_CFG.PRIO [30:28], RW: Admission priority, 0 to 7 (R290) -/
def ALLOC_CH_CFG_PRIO (k : Nat) : Field := ⟨0x00083000 + k * 0x10, 28, 3, 4⟩
/-- ALLOC_CHn_CFG.CEIL [13:0], RW: Host ceiling, 0.1 A. The same value the port ALLOC_CEIL sets. -/
def ALLOC_CH_CFG_CEIL (k : Nat) : Field := ⟨0x00083000 + k * 0x10, 0, 14, 800⟩
/-- ALLOC_CHn_GRANT.EXPORT [29:16], RO: Published export grant, 0.1 A -/
def ALLOC_CH_GRANT_EXPORT (k : Nat) : Field := ⟨0x00083004 + k * 0x10, 16, 14, 0⟩
/-- ALLOC_CHn_GRANT.IMPORT [13:0], RO: Published import grant, 0.1 A -/
def ALLOC_CH_GRANT_IMPORT (k : Nat) : Field := ⟨0x00083004 + k * 0x10, 0, 14, 0⟩
/-- ALLOC_CHn_WANT.EXPORT [29:16], RO: Export want of the latest run, 0.1 A -/
def ALLOC_CH_WANT_EXPORT (k : Nat) : Field := ⟨0x00083008 + k * 0x10, 16, 14, 0⟩
/-- ALLOC_CHn_WANT.IMPORT [13:0], RO: Import want of the latest run, 0.1 A (R288) -/
def ALLOC_CH_WANT_IMPORT (k : Nat) : Field := ⟨0x00083008 + k * 0x10, 0, 14, 0⟩
/-- ALLOC_CHn_STATE.PAUSED [31], RO: Target 0 with a want of at least 6.0 A (R290) -/
def ALLOC_CH_STATE_PAUSED (k : Nat) : Field := ⟨0x0008300C + k * 0x10, 31, 1, 0⟩
/-- ALLOC_CHn_STATE.HELD [30], RO: A held amount stands (R289) -/
def ALLOC_CH_STATE_HELD (k : Nat) : Field := ⟨0x0008300C + k * 0x10, 30, 1, 0⟩
/-- ALLOC_CHn_STATE.RESERVED [29], RO: Not passed its check this round (R289) -/
def ALLOC_CH_STATE_RESERVED (k : Nat) : Field := ⟨0x0008300C + k * 0x10, 29, 1, 0⟩
/-- ALLOC_CHn_STATE.PROBING [28], RO: A probe is running (R294) -/
def ALLOC_CH_STATE_PROBING (k : Nat) : Field := ⟨0x0008300C + k * 0x10, 28, 1, 0⟩
/-- ALLOC_CHn_STATE.OVERDRAW [27], RO: Violation 1 or 2 in force -/
def ALLOC_CH_STATE_OVERDRAW (k : Nat) : Field := ⟨0x0008300C + k * 0x10, 27, 1, 0⟩
/-- ALLOC_CHn_STATE.PHASES [22:20], RO: Site phases counted, bit p for phase p (R287) -/
def ALLOC_CH_STATE_PHASES (k : Nat) : Field := ⟨0x0008300C + k * 0x10, 20, 3, 0⟩
/-- ALLOC_CHn_STATE.LEARNED [13:0], RO: Learned ceiling, 0.1 A, or 0 for none (R293) -/
def ALLOC_CH_STATE_LEARNED (k : Nat) : Field := ⟨0x0008300C + k * 0x10, 0, 14, 0⟩
/-! Registers of spec/14_reader_and_directory.md. -/

/-- RD_CFG.FWT_MAX [31:24], RWS: Longest wait a card may ask for, 10 ms units, 1 to 255. Boundary: next card exchange. -/
def RD_CFG_FWT_MAX : Field := ⟨0x000A0000, 24, 8, 50⟩
/-- RD_CFG.DET_TH [23:16], RW: Detection-pulse threshold, %, 1 to 50. Clamped. -/
def RD_CFG_DET_TH : Field := ⟨0x000A0000, 16, 8, 5⟩
/-- RD_CFG.RATE [13:12], RWS: Highest Type A rate: 0 106, 1 212, 2 424 kbit/s; 3 is treated as 2. Boundary: next … -/
def RD_CFG_RATE : Field := ⟨0x000A0000, 12, 2, 2⟩
/-- RD_CFG.TYPES [11:10], RWS: [0] Type A, [1] Type B. Boundary: next inventory. -/
def RD_CFG_TYPES : Field := ⟨0x000A0000, 10, 2, 3⟩
/-- RD_CFG.POLL_MS [9:0], RWS: Inventory period, ms, 50 to 1000. Clamped. Boundary: next inventory. -/
def RD_CFG_POLL_MS : Field := ⟨0x000A0000, 0, 10, 250⟩
/-- RD_TX_CFG.MOD_B [11:8], RWL: Type B modulation index, %, 8 to 14. Clamped. Locked while the field is on. -/
def RD_TX_CFG_MOD_B : Field := ⟨0x000A0004, 8, 4, 10⟩
/-- RD_TX_CFG.LEVEL [3:0], RWL: Output level, 0 to 15, 1 dB per step. Locked while the field is on. -/
def RD_TX_CFG_LEVEL : Field := ⟨0x000A0004, 0, 4, 12⟩
/-- RD_STATE.INVENTORIES [31:16], RO: Inventories run, wrapping -/
def RD_STATE_INVENTORIES : Field := ⟨0x000A0008, 16, 16, 0⟩
/-- RD_STATE.STATUS [5:0], RO: As the port RD_STATUS -/
def RD_STATE_STATUS : Field := ⟨0x000A0008, 0, 6, 0⟩
/-- RD_UIDn_LO.UID [31:0], RO: UID bytes 0 to 3 of card index n, byte 0 in [7:0] -/
def RD_UID_LO_UID (k : Nat) : Field := ⟨0x000A0010 + k * 0x8, 0, 32, 0⟩
/-- RD_UIDn_HI.TYPE [31:30], RO: 0 none, 1 Type A, 2 Type B -/
def RD_UID_HI_TYPE (k : Nat) : Field := ⟨0x000A0014 + k * 0x8, 30, 2, 0⟩
/-- RD_UIDn_HI.LEN [27:24], RO: UID length, 4, 7 or 10 -/
def RD_UID_HI_LEN (k : Nat) : Field := ⟨0x000A0014 + k * 0x8, 24, 4, 0⟩
/-- RD_UIDn_HI.UID [23:0], RO: UID bytes 4 to 6 -/
def RD_UID_HI_UID (k : Nat) : Field := ⟨0x000A0014 + k * 0x8, 0, 24, 0⟩
/-- RD_VIOLk.COUNT [15:0], RO: Occurrences of violation k (R313), saturating at 65,535 -/
def RD_VIOL_COUNT (k : Nat) : Field := ⟨0x000A0040 + k * 0x4, 0, 16, 0⟩
/-- DIR_STATUS.REKEY [31], RO: The stash has filled (R316) -/
def DIR_STATUS_REKEY : Field := ⟨0x000A0100, 31, 1, 0⟩
/-- DIR_STATUS.BAD [30:21], RO: Entries found with a failing CHECK since the last full series, saturating -/
def DIR_STATUS_BAD : Field := ⟨0x000A0100, 21, 10, 0⟩
/-- DIR_STATUS.COUNT [20:0], RO: Entries held, 0 to 1,048,576 -/
def DIR_STATUS_COUNT : Field := ⟨0x000A0100, 0, 21, 0⟩
/-- DIR_STASH_USED.USED [13:0], RO: Stash entries in use, 0 to 8,192 -/
def DIR_STASH_USED_USED : Field := ⟨0x000A0104, 0, 14, 0⟩
/-- DIR_SEQ.SEQ [31:0], RO: Directory sequence (R321) -/
def DIR_SEQ_SEQ : Field := ⟨0x000A0108, 0, 32, 0⟩
/-- DIR_CMD.OP [31:30], WO: 1 put, 2 delete, 3 lookup; 0 no action. Puts and deletes are refused with ERR_MODE … -/
def DIR_CMD_OP : Field := ⟨0x000A010C, 30, 2, 0⟩
/-- DIR_CMD.OFFSET [17:0], WO: Byte offset of the entry in the shared window, 4-aligned -/
def DIR_CMD_OFFSET : Field := ⟨0x000A010C, 0, 18, 0⟩
/-- DIR_RESULT.BUSY [31], RO: An operation is running -/
def DIR_RESULT_BUSY : Field := ⟨0x000A0110, 31, 1, 0⟩
/-- DIR_RESULT.SLOT [28:8], RO: Slot of the entry found or written -/
def DIR_RESULT_SLOT : Field := ⟨0x000A0110, 8, 21, 0⟩
/-- DIR_RESULT.CODE [7:0], RO: OK, DIR_FULL, DIR_MISS or DIR_STASH -/
def DIR_RESULT_CODE : Field := ⟨0x000A0110, 0, 8, 0⟩
/-- DIR_DELTA_CTRL.APPLY [0], WO: 1 applies the image in staging (R320). ERR_MODE in HEAD and REPEATER. -/
def DIR_DELTA_CTRL_APPLY : Field := ⟨0x000A0114, 0, 1, 0⟩
/-- DIR_DELTA_STAT.BUSY [31], RO: A delta is being applied -/
def DIR_DELTA_STAT_BUSY : Field := ⟨0x000A0118, 31, 1, 0⟩
/-- DIR_DELTA_STAT.SERIES [30], RO: A full series is unfinished -/
def DIR_DELTA_STAT_SERIES : Field := ⟨0x000A0118, 30, 1, 0⟩
/-- DIR_DELTA_STAT.SKIPPED [23:8], RO: Puts refused in the last apply, saturating -/
def DIR_DELTA_STAT_SKIPPED : Field := ⟨0x000A0118, 8, 16, 0⟩
/-- DIR_DELTA_STAT.RESULT [7:0], RO: Result of the last apply (R320) -/
def DIR_DELTA_STAT_RESULT : Field := ⟨0x000A0118, 0, 8, 0⟩
/-- DIR_PUB.NOW [31], WO: Hub. 1 publishes waiting operations at once (R323). -/
def DIR_PUB_NOW : Field := ⟨0x000A011C, 31, 1, 0⟩
/-- DIR_PUB.PUB_T [15:0], RW: Hub. s, 10 to 65,535. Clamped. -/
def DIR_PUB_PUB_T : Field := ⟨0x000A011C, 0, 16, 300⟩
/-- DIR_RESYNCw.CHANNELS [31:0], RO: Hub. Bit c marks channel 32 × w + c as awaiting a full series (R323). -/
def DIR_RESYNC_CHANNELS (k : Nat) : Field := ⟨0x000A0120 + k * 0x4, 0, 32, 0⟩
/-! Registers of spec/15_field_tag.md. -/

/-- TAG_CFG.EN [31], RW: 1 lets the tag answer fields. Copied into the control block. -/
def TAG_CFG_EN : Field := ⟨0x000A0200, 31, 1, 1⟩
/-- TAG_CFG.QUIET_T [20:16], RWS: s, 1 to 30, clamped. Boundary: next quiet hold. -/
def TAG_CFG_QUIET_T : Field := ⟨0x000A0200, 16, 5, 5⟩
/-- TAG_CFG.WRMODE [9:8], RWS: TAG_WRMODE (R333). 3 is treated as 2. Boundary: next field transaction. -/
def TAG_CFG_WRMODE : Field := ⟨0x000A0200, 8, 2, 2⟩
/-- TAG_CFG.KEEP [4], RW: 1 keeps unread receipts (R330) -/
def TAG_CFG_KEEP : Field := ⟨0x000A0200, 4, 1, 0⟩
/-- TAG_CFG.RCPT_N [3:0], RWS: Receipts kept, 1 to 8, clamped. Boundary: next TAG_RECEIPT. -/
def TAG_CFG_RCPT_N : Field := ⟨0x000A0200, 0, 4, 4⟩
/-- TAG_STATE.TRANSACTIONS [31:16], RO: Field transactions, wrapping -/
def TAG_STATE_TRANSACTIONS : Field := ⟨0x000A0204, 16, 16, 0⟩
/-- TAG_STATE.COMM_PENDING [9], RO: A committed commissioning record awaits take-up -/
def TAG_STATE_COMM_PENDING : Field := ⟨0x000A0204, 9, 1, 0⟩
/-- TAG_STATE.ACTIVE [8], RO: Active NDEF copy -/
def TAG_STATE_ACTIVE : Field := ⟨0x000A0204, 8, 1, 0⟩
/-- TAG_STATE.STATUS [3:0], RO: As the port TAG_STATUS -/
def TAG_STATE_STATUS : Field := ⟨0x000A0204, 0, 4, 0⟩
/-- TAG_LAST.AUTH [10], RO: The last transaction authenticated -/
def TAG_LAST_AUTH : Field := ⟨0x000A0208, 10, 1, 0⟩
/-- TAG_LAST.COMPLETED [9], RO: It was completed (R329) -/
def TAG_LAST_COMPLETED : Field := ⟨0x000A0208, 9, 1, 0⟩
/-- TAG_LAST.WRITTEN [8], RO: It wrote tag memory -/
def TAG_LAST_WRITTEN : Field := ⟨0x000A0208, 8, 1, 0⟩
/-- TAG_LAST.CODE [7:0], RO: 0x00, or FIELD_WEAK (0x41) -/
def TAG_LAST_CODE : Field := ⟨0x000A0208, 0, 8, 0⟩
/-- TAG_WRCHK.VMIN [7:0], RWL: VR threshold for writes, 0.1 V, 18 to 33, clamped -/
def TAG_WRCHK_VMIN : Field := ⟨0x000A020C, 0, 8, 24⟩
/-- TAG_UID_LO.UID [31:0], RO: UID bytes 0 to 3, byte 0 in [7:0] -/
def TAG_UID_LO_UID : Field := ⟨0x000A0210, 0, 32, 0⟩
/-- TAG_UID_HI.UID [23:0], RO: UID bytes 4 to 6 -/
def TAG_UID_HI_UID : Field := ⟨0x000A0214, 0, 24, 0⟩
/-- TAG_RCPT_SEQ.SEQ [31:0], RO: SESSION SEQ of the newest receipt, or 0 -/
def TAG_RCPT_SEQ_SEQ : Field := ⟨0x000A0218, 0, 32, 0⟩
/-- TAG_ERR.BADSEQ [0], W1C: TAG_RECEIPT named no SESSION record (R330) -/
def TAG_ERR_BADSEQ : Field := ⟨0x000A021C, 0, 1, 0⟩
/-- TAG_VIOLk.COUNT [15:0], RO: Occurrences of violation k (R339), saturating at 65,535 -/
def TAG_VIOL_COUNT (k : Nat) : Field := ⟨0x000A0240 + k * 0x4, 0, 16, 0⟩
/-! Registers of spec/16_keys_and_presence.md. -/

/-- KEY_CMD.OP [31:28], WO: 1 CREATE, 2 DERIVE, 3 RELEASE, 4 CUT, 5 IMPORT, 6 READ_PUBLIC; other values have no effect -/
def KEY_CMD_OP : Field := ⟨0x000B0000, 28, 4, 0⟩
/-- KEY_CMD.KNOT [27:16], WO: Knot, or for RELEASE and READ_PUBLIC the slot -/
def KEY_CMD_KNOT : Field := ⟨0x000B0000, 16, 12, 0⟩
/-- KEY_CMD.OPT [15:8], WO: DERIVE: [2:0] engine, [3] WIDE. CREATE and IMPORT: MASK. -/
def KEY_CMD_OPT : Field := ⟨0x000B0000, 8, 8, 0⟩
/-- KEY_CMD.LEN [7:0], WO: Label length, 1 to 64. CREATE and IMPORT: [4:0] label length, 1 to 16, and [7:6] CUTCLASS. -/
def KEY_CMD_LEN : Field := ⟨0x000B0000, 0, 8, 0⟩
/-- KEY_SRC.OFFSET [17:0], RW: Shared-window byte offset of the label, then for IMPORT the 32-byte secret. 4-aligned. -/
def KEY_SRC_OFFSET : Field := ⟨0x000B0004, 0, 18, 0⟩
/-- KEY_RESULT.BUSY [31], RO: A command is running -/
def KEY_RESULT_BUSY : Field := ⟨0x000B0008, 31, 1, 0⟩
/-- KEY_RESULT.VALUE [27:16], RO: Knot created, or slot derived -/
def KEY_RESULT_VALUE : Field := ⟨0x000B0008, 16, 12, 0⟩
/-- KEY_RESULT.CODE [7:0], RO: 0x00, 0x08, 0x0A, or 0x10 to 0x13 -/
def KEY_RESULT_CODE : Field := ⟨0x000B0008, 0, 8, 0⟩
/-- KEY_SLOTS.FREE [14:8], RO: Usable slots not in use -/
def KEY_SLOTS_FREE : Field := ⟨0x000B000C, 8, 7, 64⟩
/-- KEY_SLOTS.USABLE [6:0], RO: Slots not retired, as KEY_STATUS [6:0] -/
def KEY_SLOTS_USABLE : Field := ⟨0x000B000C, 0, 7, 64⟩
/-- KEY_ENGINE.IN_USE [31:0], RO: Slots in use in engine e at [4e + 3 : 4e], 0 to 8 -/
def KEY_ENGINE_IN_USE : Field := ⟨0x000B0010, 0, 32, 0⟩
/-- KEY_KNOT_SEL.KNOT [11:0], RW: Knot shown by KEY_KNOT_INFO and KEY_KNOT_EPOCH -/
def KEY_KNOT_SEL_KNOT : Field := ⟨0x000B0014, 0, 12, 0⟩
/-- KEY_KNOT_INFO.PARENT [31:20], RO: Parent knot, 0xFFF for the root -/
def KEY_KNOT_INFO_PARENT : Field := ⟨0x000B0018, 20, 12, 4095⟩
/-- KEY_KNOT_INFO.DEPTH [19:16], RO: 0 to 8 -/
def KEY_KNOT_INFO_DEPTH : Field := ⟨0x000B0018, 16, 4, 0⟩
/-- KEY_KNOT_INFO.STATE [15:14], RO: As R340 -/
def KEY_KNOT_INFO_STATE : Field := ⟨0x000B0018, 14, 2, 0⟩
/-- KEY_KNOT_INFO.CUTCLASS [13:12], RO: As R340 -/
def KEY_KNOT_INFO_CUTCLASS : Field := ⟨0x000B0018, 12, 2, 0⟩
/-- KEY_KNOT_INFO.MASK [7:0], RO: As R340 -/
def KEY_KNOT_INFO_MASK : Field := ⟨0x000B0018, 0, 8, 0⟩
/-- KEY_KNOT_EPOCH.EPOCH [31:0], RO: Epoch of the selected knot -/
def KEY_KNOT_EPOCH_EPOCH : Field := ⟨0x000B001C, 0, 32, 0⟩
/-- KEY_PAIR.OK [31], WO: Hub. 1 confirms the pairing in progress (R353). -/
def KEY_PAIR_OK : Field := ⟨0x000B0020, 31, 1, 0⟩
/-- KEY_PAIR.PENDING [30], RO: A pairing awaits confirmation -/
def KEY_PAIR_PENDING : Field := ⟨0x000B0020, 30, 1, 0⟩
/-- KEY_PAIR.CODE [19:0], RO: Check code, 0 to 999,999 -/
def KEY_PAIR_CODE : Field := ⟨0x000B0020, 0, 20, 0⟩
/-- KEY_PUB_LEN.BYTES [6:0], RO: 64 for P-256, 96 for P-384, 0 when no public key is shown -/
def KEY_PUB_LEN_BYTES : Field := ⟨0x000B00FC, 0, 7, 0⟩
/-- KEY_PUBn.BYTES [31:0], RO: Public key from the last READ_PUBLIC: X then Y, big-endian, first byte in [7:0] of n = 0 -/
def KEY_PUB_BYTES (k : Nat) : Field := ⟨0x000B0100 + k * 0x4, 0, 32, 0⟩
/-- AO_PRES_CFG.PRES_WIN [9:0], RWP: Installer class. Window length, s, 30 to 900. Clamped. Boundary: next opening. -/
def AO_PRES_CFG_PRES_WIN : Field := ⟨0x000E0020, 0, 10, 120⟩
/-- AO_PRES_CTRL.CLOSE [0], WO: 1 closes both windows (R355) -/
def AO_PRES_CTRL_CLOSE : Field := ⟨0x000E0024, 0, 1, 0⟩
/-- AO_PRES_STAT.LEFT [15:6], RO: Seconds left in the installer window -/
def AO_PRES_STAT_LEFT : Field := ⟨0x000E0028, 6, 10, 0⟩
/-- AO_PRES_STAT.JMP [2], RO: SEAL_JMP reads fitted -/
def AO_PRES_STAT_JMP : Field := ⟨0x000E0028, 2, 1, 0⟩
/-- AO_PRES_STAT.METRO [1], RO: Metrology window open -/
def AO_PRES_STAT_METRO : Field := ⟨0x000E0028, 1, 1, 0⟩
/-- AO_PRES_STAT.INSTALLER [0], RO: Installer window open -/
def AO_PRES_STAT_INSTALLER : Field := ⟨0x000E0028, 0, 1, 0⟩
/-! Registers of spec/17_platen_display.md. -/

/-- PL_CFG.LEGAL_DISPLAY_REQ [31], RWP: Metrology class. 1 refuses new sessions on a display fault (R380). -/
def PL_CFG_LEGAL_DISPLAY_REQ : Field := ⟨0x000C0000, 31, 1, 1⟩
/-- PL_CFG.TRIM_STEP [17:16], RWL: Frames per trim step, 1 to 3. 0 is treated as 1. -/
def PL_CFG_TRIM_STEP : Field := ⟨0x000C0000, 16, 2, 1⟩
/-- PL_CFG.LINE_SAMPLE [12:8], RWS: Lines sampled per frame, 1 to 31. 0 is treated as 1. Boundary: next frame. -/
def PL_CFG_LINE_SAMPLE : Field := ⟨0x000C0000, 8, 5, 4⟩
/-- PL_CFG.WFMT [0], RWL: PLATEN_WFMT: 0 native, 1 compatible -/
def PL_CFG_WFMT : Field := ⟨0x000C0000, 0, 1, 0⟩
/-- PL_PANEL.V [31:16], RWL: Rows, 64 to 960. Clamped. -/
def PL_PANEL_V : Field := ⟨0x000C0004, 16, 16, 600⟩
/-- PL_PANEL.H [15:0], RWL: Columns, 64 to 1280, multiple of 8. Clamped and rounded down. -/
def PL_PANEL_H : Field := ⟨0x000C0004, 0, 16, 800⟩
/-- PL_TIMING.PWR_HOLD [15:8], RW: Panel power hold after an update, ms, 0 to 255 -/
def PL_TIMING_PWR_HOLD : Field := ⟨0x000C0008, 8, 8, 100⟩
/-- PL_TIMING.FRAME_HZ [6:0], RWL: Panel frame-rate limit, Hz, 20 to 85. Clamped. -/
def PL_TIMING_FRAME_HZ : Field := ⟨0x000C0008, 0, 7, 85⟩
/-- PL_VCOM.PMIC_ADDR [22:16], RWL: Power IC bus address -/
def PL_VCOM_PMIC_ADDR : Field := ⟨0x000C000C, 16, 7, 72⟩
/-- PL_VCOM.VCOM [11:0], RWS: EP_VCOM level, mV, 0 to 2,500. Clamped. Boundary: next panel power-up. -/
def PL_VCOM_VCOM : Field := ⟨0x000C000C, 0, 12, 1250⟩
/-- PL_STATUS.RUNNING [31:28], RO: Updates running, 0 to 8 -/
def PL_STATUS_RUNNING : Field := ⟨0x000C0010, 28, 4, 0⟩
/-- PL_STATUS.JOURNAL [27:24], RO: Journal entries held, 0 to 8 -/
def PL_STATUS_JOURNAL : Field := ⟨0x000C0010, 24, 4, 0⟩
/-- PL_STATUS.LEGAL_REFUSED [11], W1C: A request named region 0 or no region (R370) -/
def PL_STATUS_LEGAL_REFUSED : Field := ⟨0x000C0010, 11, 1, 0⟩
/-- PL_STATUS.ASSET_ERR [10], W1C: An asset failed (R366) -/
def PL_STATUS_ASSET_ERR : Field := ⟨0x000C0010, 10, 1, 0⟩
/-- PL_STATUS.PROOF_FULL [9], W1C: A proof draw found the save area full (R373) -/
def PL_STATUS_PROOF_FULL : Field := ⟨0x000C0010, 9, 1, 0⟩
/-- PL_STATUS.PROOF_SHOWN [8], RO: Proof content is on the panel -/
def PL_STATUS_PROOF_SHOWN : Field := ⟨0x000C0010, 8, 1, 0⟩
/-- PL_STATUS.TEMP_LIMIT [7], RO: EP_TS outside −20 °C to +60 °C (R367) -/
def PL_STATUS_TEMP_LIMIT : Field := ⟨0x000C0010, 7, 1, 0⟩
/-- PL_STATUS.TEMP_DRIFT [6], W1C: R368 -/
def PL_STATUS_TEMP_DRIFT : Field := ⟨0x000C0010, 6, 1, 0⟩
/-- PL_STATUS.FAULT [5], RO: Display fault held (R380) -/
def PL_STATUS_FAULT : Field := ⟨0x000C0010, 5, 1, 0⟩
/-- PL_STATUS.BAND [4:1], RO: Current band -/
def PL_STATUS_BAND : Field := ⟨0x000C0010, 1, 4, 0⟩
/-- PL_STATUS.BUSY [0], RO: An update is running or waiting -/
def PL_STATUS_BUSY : Field := ⟨0x000C0010, 0, 1, 0⟩
/-- PL_FAULT.RB_ERR [31:24], RO: Mismatching frames, saturating at 255 -/
def PL_FAULT_RB_ERR : Field := ⟨0x000C0014, 24, 8, 0⟩
/-- PL_FAULT.CODE [23:16], RO: Latest code, 0x90 to 0x94, or 0 -/
def PL_FAULT_CODE : Field := ⟨0x000C0014, 16, 8, 0⟩
/-- PL_FAULT.POWER [2], W1C: Panel power failed (R379) -/
def PL_FAULT_POWER : Field := ⟨0x000C0014, 2, 1, 0⟩
/-- PL_FAULT.READBACK [1], RO: Held per R378 -/
def PL_FAULT_READBACK : Field := ⟨0x000C0014, 1, 1, 0⟩
/-- PL_FAULT.CRACK [0], RO: Held per R377 -/
def PL_FAULT_CRACK : Field := ⟨0x000C0014, 0, 1, 0⟩
/-- PL_TEMP.LATCHED [19:16], RO: Band latched by the latest update -/
def PL_TEMP_LATCHED : Field := ⟨0x000C0018, 16, 4, 0⟩
/-- PL_TEMP.TEMP [15:0], RO: EP_TS temperature, signed, 0.1 °C -/
def PL_TEMP_TEMP : Field := ⟨0x000C0018, 0, 16, 0⟩
/-- PL_CMD.MODE [31:29], WO: 0 FULL, 1 GRAY, 2 FAST, 3 LIVE. Other values have no effect. ERR_MODE in HEAD and … -/
def PL_CMD_MODE : Field := ⟨0x000C0020, 29, 3, 0⟩
/-- PL_CMD.REGION [28:24], WO: Region 1 to 31 -/
def PL_CMD_REGION : Field := ⟨0x000C0020, 24, 5, 0⟩
/-- PL_CMD.ASSET [15:0], WO: Asset number -/
def PL_CMD_ASSET : Field := ⟨0x000C0020, 0, 16, 0⟩
/-- PL_CMD_SRC.USE [31], RW: 1 takes 32 parameter bytes from OFFSET -/
def PL_CMD_SRC_USE : Field := ⟨0x000C0024, 31, 1, 0⟩
/-- PL_CMD_SRC.OFFSET [17:0], RW: Shared-window byte offset, 4-aligned -/
def PL_CMD_SRC_OFFSET : Field := ⟨0x000C0024, 0, 18, 0⟩
/-- PL_SAVE.USED [19:0], RO: Pixels held in the proof save area -/
def PL_SAVE_USED : Field := ⟨0x000C0028, 0, 20, 0⟩
/-- PL_REGIONn_POS.Y [31:16], RWL: Top row. For n = 0: RWP, metrology class. Subject to R370. -/
def PL_REGION_POS_Y (k : Nat) : Field := ⟨0x000C0100 + k * 0x8, 16, 16, 0⟩
/-- PL_REGIONn_POS.X [15:0], RWL: Left column. For n = 0: RWP, metrology class. Subject to R370. -/
def PL_REGION_POS_X (k : Nat) : Field := ⟨0x000C0100 + k * 0x8, 0, 16, 0⟩
/-- PL_REGIONn_SIZE.HEIGHT [31:16], RWL: Rows. 0 means the region is unused. For n = 0: RWP, metrology class. -/
def PL_REGION_SIZE_HEIGHT (k : Nat) : Field := ⟨0x000C0104 + k * 0x8, 16, 16, 0⟩
/-- PL_REGIONn_SIZE.WIDTH [15:0], RWL: Columns. For n = 0: RWP, metrology class. -/
def PL_REGION_SIZE_WIDTH (k : Nat) : Field := ⟨0x000C0104 + k * 0x8, 0, 16, 0⟩
/-! Registers of spec/18_queues_mailboxes_host_port.md. -/

/-- HOST_IRQ.READY [8], RO: Inbound DB0 of mailbox 0 is pending -/
def HOST_IRQ_READY : Field := ⟨0x00000040, 8, 1, 0⟩
/-- HOST_IRQ.MB [7:0], RO: Bit k: mailbox k has an outbound doorbell pending and enabled (R399) -/
def HOST_IRQ_MB : Field := ⟨0x00000040, 0, 8, 0⟩
/-- HOST_STAT.LAST [31:24], RO: Status byte of the last transaction -/
def HOST_STAT_LAST : Field := ⟨0x00000044, 24, 8, 0⟩
/-- HOST_STAT.CMD [23:16], RO: Its command code -/
def HOST_STAT_CMD : Field := ⟨0x00000044, 16, 8, 0⟩
/-- HOST_STAT.ABORT [9], W1C: A transaction was aborted (R390) -/
def HOST_STAT_ABORT : Field := ⟨0x00000044, 9, 1, 0⟩
/-- HOST_STAT.DONE [8:0], RO: Words applied or items moved by the last transaction, 0 to 256 -/
def HOST_STAT_DONE : Field := ⟨0x00000044, 0, 9, 0⟩
/-- HOST_VIOLk.COUNT [15:0], RO: Occurrences of violation k (R392), saturating at 65,535 -/
def HOST_VIOL_COUNT (k : Nat) : Field := ⟨0x00000048 + k * 0x4, 0, 16, 0⟩
/-- HOST_QNOTICE0.Q [31:0], W1C: Bit i: queue i (HOST_QNOTICE0) or queue 32 + i (HOST_QNOTICE1) has raised a notice to … -/
def HOST_QNOTICE0_Q : Field := ⟨0x00000060, 0, 32, 0⟩
/-- HOST_QNOTICE1.Q [31:0], W1C: Bit i: queue i (HOST_QNOTICE0) or queue 32 + i (HOST_QNOTICE1) has raised a notice to … -/
def HOST_QNOTICE1_Q : Field := ⟨0x00000064, 0, 32, 0⟩
/-- Q_CTRL.EN [31], RW: Queue enabled. A disabled queue refuses enqueues as if it were full. -/
def Q_CTRL_EN (k : Nat) : Field := ⟨0x00020000 + k * 0x20, 31, 1, 1⟩
/-- Q_CTRL.PROD [27:26], RWL; RO for Q0 to Q7: 0 strands, 1 host, 2 firmware, 3 site-link MAC. For Q0 to Q7 the field holds the fixed … -/
def Q_CTRL_PROD (k : Nat) : Field := ⟨0x00020000 + k * 0x20, 26, 2, 0⟩
/-- Q_CTRL.CONS [25:24], RWL; RO for Q0 to Q7: Coded as PROD. For Q0 to Q7 the field holds the fixed consumer of R110: Q0 0, Q1 0, Q2 … -/
def Q_CTRL_CONS (k : Nat) : Field := ⟨0x00020000 + k * 0x20, 24, 2, 0⟩
/-- Q_CTRL.WM_AUTO [14], RW: 1 clears WM_HIT when LEVEL falls below WM -/
def Q_CTRL_WM_AUTO (k : Nat) : Field := ⟨0x00020000 + k * 0x20, 14, 1, 0⟩
/-- Q_CTRL.TO_HOST [13], RW: Notices go to the host (R397) -/
def Q_CTRL_TO_HOST (k : Nat) : Field := ⟨0x00020000 + k * 0x20, 13, 1, 0⟩
/-- Q_CTRL.TO_STRANDS [12], RW: Notices raise EV_Qq -/
def Q_CTRL_TO_STRANDS (k : Nat) : Field := ⟨0x00020000 + k * 0x20, 12, 1, 0⟩
/-- Q_CTRL.PKT_EN [10], RW: Packet notice enabled -/
def Q_CTRL_PKT_EN (k : Nat) : Field := ⟨0x00020000 + k * 0x20, 10, 1, 0⟩
/-- Q_CTRL.STALE_EN [9], RW: Stale notice enabled -/
def Q_CTRL_STALE_EN (k : Nat) : Field := ⟨0x00020000 + k * 0x20, 9, 1, 0⟩
/-- Q_CTRL.WM_EN [8], RW: Watermark notice enabled -/
def Q_CTRL_WM_EN (k : Nat) : Field := ⟨0x00020000 + k * 0x20, 8, 1, 0⟩
/-- Q_ALLOC.BASE [25:16], RWL: First item, in 64-item units (R393) -/
def Q_ALLOC_BASE (k : Nat) : Field := ⟨0x00020004 + k * 0x20, 16, 10, (k * 16)⟩
/-- Q_ALLOC.SIZE [10:0], RWL: Items in 64-item units, 1 to 1,024. Clamped. -/
def Q_ALLOC_SIZE (k : Nat) : Field := ⟨0x00020004 + k * 0x20, 0, 11, 16⟩
/-- Q_WM.WM [16:0], RWS: Watermark level in items, 1 to 65,536. Clamped. Boundary: next enqueue or dequeue. -/
def Q_WM_WM (k : Nat) : Field := ⟨0x00020008 + k * 0x20, 0, 17, 512⟩
/-- Q_STALE.STALE [15:0], RWS: Q_STALE in ms, 1 to 65,535. 0 is treated as 1. Boundary: next arming. -/
def Q_STALE_STALE (k : Nat) : Field := ⟨0x0002000C + k * 0x20, 0, 16, 100⟩
/-- Q_STATUS.WM_HIT [31], W1C: Watermark crossed upwards (R396) -/
def Q_STATUS_WM_HIT (k : Nat) : Field := ⟨0x00020010 + k * 0x20, 31, 1, 0⟩
/-- Q_STATUS.WM_ABOVE [30], RO: LEVEL ≥ WM -/
def Q_STATUS_WM_ABOVE (k : Nat) : Field := ⟨0x00020010 + k * 0x20, 30, 1, 0⟩
/-- Q_STATUS.STALE_HIT [29], W1C: Stale notice fired -/
def Q_STATUS_STALE_HIT (k : Nat) : Field := ⟨0x00020010 + k * 0x20, 29, 1, 0⟩
/-- Q_STATUS.PKT_HIT [28], W1C: Packet notice fired -/
def Q_STATUS_PKT_HIT (k : Nat) : Field := ⟨0x00020010 + k * 0x20, 28, 1, 0⟩
/-- Q_STATUS.FULL [27], RO: No room -/
def Q_STATUS_FULL (k : Nat) : Field := ⟨0x00020010 + k * 0x20, 27, 1, 0⟩
/-- Q_STATUS.HELD [26], RO: The take is held by a galley (R94) or a QPOP (R394) -/
def Q_STATUS_HELD (k : Nat) : Field := ⟨0x00020010 + k * 0x20, 26, 1, 0⟩
/-- Q_STATUS.LEVEL [16:0], RO: Items held, as Q_LEVEL_q -/
def Q_STATUS_LEVEL (k : Nat) : Field := ⟨0x00020010 + k * 0x20, 0, 17, 0⟩
/-- Q_FLUSH.FLUSH [0], WO: 1 empties the queue at once (R395) -/
def Q_FLUSH_FLUSH (k : Nat) : Field := ⟨0x00020014 + k * 0x20, 0, 1, 0⟩
/-- Q_STATS.REFUSED [31:16], RO: Enqueues and QPUSHes refused for lack of room, saturating at 65,535 -/
def Q_STATS_REFUSED (k : Nat) : Field := ⟨0x00020018 + k * 0x20, 16, 16, 0⟩
/-- Q_STATS.FLUSHES [15:0], RO: Flushes, saturating at 65,535 -/
def Q_STATS_FLUSHES (k : Nat) : Field := ⟨0x00020018 + k * 0x20, 0, 16, 0⟩
/-- MBk_IN_RING.RING [31:0], WO: A 1 in bit d rings inbound DBd -/
def MB_IN_RING_RING (k : Nat) : Field := ⟨0x00010000 + k * 0x100, 0, 32, 0⟩
/-- MBk_IN_PEND.PEND [31:0], RO: Inbound doorbells not yet taken. For mailbox 0, bit 0 is W1C (R400). -/
def MB_IN_PEND_PEND (k : Nat) : Field := ⟨0x00010004 + k * 0x100, 0, 32, 0⟩
/-- MBk_OUT_PEND.PEND [31:0], W1C: Outbound doorbells rung by the module -/
def MB_OUT_PEND_PEND (k : Nat) : Field := ⟨0x00010008 + k * 0x100, 0, 32, 0⟩
/-- MBk_OUT_EN.EN [31:0], RW: Bit d lets outbound DBd drive HOST_IRQ (R399) -/
def MB_OUT_EN_EN (k : Nat) : Field := ⟨0x0001000C + k * 0x100, 0, 32, 0⟩
/-- MBk_PTR_IN.LEN [31:18], RW: Length in 16-byte units -/
def MB_PTR_IN_LEN (k j : Nat) : Field := ⟨0x00010010 + k * 0x100 + j * 4, 18, 14, 0⟩
/-- MBk_PTR_IN.OFFSET [17:0], RW: Shared-window byte offset, 4-aligned. Its meaning follows the doorbell it accompanies. -/
def MB_PTR_IN_OFFSET (k j : Nat) : Field := ⟨0x00010010 + k * 0x100 + j * 4, 0, 18, 0⟩
/-- MBk_PTR_OUT.LEN [31:18], RO: Length in 16-byte units -/
def MB_PTR_OUT_LEN (k j : Nat) : Field := ⟨0x00010020 + k * 0x100 + j * 4, 18, 14, 0⟩
/-- MBk_PTR_OUT.OFFSET [17:0], RO: Shared-window byte offset set by the module -/
def MB_PTR_OUT_OFFSET (k j : Nat) : Field := ⟨0x00010020 + k * 0x100 + j * 4, 0, 18, 0⟩
/-! Registers of spec/19_store_and_update.md. -/

/-- STORE_STATUS.RETIRED [31:21], RO: Retired blocks, 0 to 2,047 -/
def STORE_STATUS_RETIRED : Field := ⟨0x000D0000, 21, 11, 0⟩
/-- STORE_STATUS.SPARE_LOW [15], RO: FREE below 75, as STORE_SPARE_LOW -/
def STORE_STATUS_SPARE_LOW : Field := ⟨0x000D0000, 15, 1, 0⟩
/-- STORE_STATUS.FREE [9:0], RO: Free pool blocks (R404) -/
def STORE_STATUS_FREE : Field := ⟨0x000D0000, 0, 10, 0⟩
/-- STORE_ERASE_MAX.COUNT [31:0], RO: Highest, or mean, erase count of in-use blocks -/
def STORE_ERASE_MAX_COUNT : Field := ⟨0x000D0004, 0, 32, 0⟩
/-- STORE_ERASE_MEAN.COUNT [31:0], RO: Highest, or mean, erase count of in-use blocks -/
def STORE_ERASE_MEAN_COUNT : Field := ⟨0x000D0008, 0, 32, 0⟩
/-- STORE_ECC.UNCORR [31:16], RO: Uncorrectable reads since power-on, saturating -/
def STORE_ECC_UNCORR : Field := ⟨0x000D000C, 16, 16, 0⟩
/-- STORE_ECC.CORR [15:0], RO: Corrected units in the last scrub pass, saturating -/
def STORE_ECC_CORR : Field := ⟨0x000D000C, 0, 16, 0⟩
/-- STORE_SCRUB.DAYS [7:0], RW: Scrub period, days, 1 to 60. Clamped. -/
def STORE_SCRUB_DAYS : Field := ⟨0x000D0010, 0, 8, 7⟩
/-- STORE_LOGS.VIOL [31:16], RO: Next violation-log entry, in 16-byte units -/
def STORE_LOGS_VIOL : Field := ⟨0x000D0014, 16, 16, 0⟩
/-- STORE_LOGS.EVENT [15:0], RO: Next event-log entry, in 16-byte units -/
def STORE_LOGS_EVENT : Field := ⟨0x000D0014, 0, 16, 0⟩
/-- STORE_VIOLk.COUNT [15:0], RO: k = 1: unknown settings item; k = 2: SWRITE refused. Saturating at 65,535. -/
def STORE_VIOL_COUNT (k : Nat) : Field := ⟨0x000D0014 + k * 0x4, 0, 16, 0⟩
/-- UPD_SLOTk.STATE [31:28], RO: 0 EMPTY, 1 RECEIVING, 2 STAGED, 3 TRYING, 4 ACTIVE, 5 PREVIOUS, 6 FAILED, 7 REJECTED -/
def UPD_SLOT_STATE (k : Nat) : Field := ⟨0x000D0020 + k * 0x8, 28, 4, 0⟩
/-- UPD_SLOTk.FMT_OLD [27], RO: R415 -/
def UPD_SLOT_FMT_OLD (k : Nat) : Field := ⟨0x000D0020 + k * 0x8, 27, 1, 0⟩
/-- UPD_SLOTk.RESULT [23:16], RO: 0x00, 0x52 to 0x56, or 0x60 -/
def UPD_SLOT_RESULT (k : Nat) : Field := ⟨0x000D0020 + k * 0x8, 16, 8, 0⟩
/-- UPD_SLOTk_VER.VERSION [31:0], RO: Header VERSION, or 0 -/
def UPD_SLOT_VER_VERSION (k : Nat) : Field := ⟨0x000D0024 + k * 0x8, 0, 32, 0⟩
/-- UPD_CMD.OP [31:28], WO: 1 OPEN, 2 VERIFY, 3 DISCARD; other values have no effect. Applies to the inactive slot. -/
def UPD_CMD_OP : Field := ⟨0x000D0030, 28, 4, 0⟩
/-- UPD_ACT.GO [0], RWP: Installer class. 1 activates the inactive slot (R415). Reads 0. -/
def UPD_ACT_GO : Field := ⟨0x000D0034, 0, 1, 0⟩
/-- UPD_CFG.AUTO [31], RW: 1 activates a verified image without UPD_ACT -/
def UPD_CFG_AUTO : Field := ⟨0x000D0038, 31, 1, 1⟩
/-- UPD_CFG.CE_LIM [23:16], RW: Corrected SRAM errors per 30 days, 10 to 255. Clamped. -/
def UPD_CFG_CE_LIM : Field := ⟨0x000D0038, 16, 8, 100⟩
/-- UPD_CFG.HANDOVER_T [15:0], RWS: s, 30 to 1,800. Clamped. Boundary: next activation. -/
def UPD_CFG_HANDOVER_T : Field := ⟨0x000D0038, 0, 16, 120⟩
/-- UPD_STATUS.PHASE [31:28], RO: 0 idle, 1 boot check, 2 self-test, 3 migrating, 4 handover-ready, 5 pause -/
def UPD_STATUS_PHASE : Field := ⟨0x000D003C, 28, 4, 0⟩
/-- UPD_STATUS.RESULT [23:16], RO: Result of the last activation -/
def UPD_STATUS_RESULT : Field := ⟨0x000D003C, 16, 8, 0⟩
/-- UPD_STATUS.MIG_PCT [6:0], RO: Migration progress, % -/
def UPD_STATUS_MIG_PCT : Field := ⟨0x000D003C, 0, 7, 0⟩
/-- UPD_HANDOVER.COUNT [31:16], RO: Handovers completed, saturating -/
def UPD_HANDOVER_COUNT : Field := ⟨0x000D0040, 16, 16, 0⟩
/-- UPD_HANDOVER.PAUSE_US [15:0], RO: Length of the last service pause, µs -/
def UPD_HANDOVER_PAUSE_US : Field := ⟨0x000D0040, 0, 16, 0⟩
/-- CORE_HEALTH.CE_B [31:16], RO: Corrected SRAM errors of Core B in the last 30 days, saturating -/
def CORE_HEALTH_CE_B : Field := ⟨0x000D0044, 16, 16, 0⟩
/-- CORE_HEALTH.CE_A [15:0], RO: As CE_B, for Core A -/
def CORE_HEALTH_CE_A : Field := ⟨0x000D0044, 0, 16, 0⟩
/-- FORME_STATE.RESULT [31:24], RO: 0x00, or IMAGE_REJECTED for the last forme checked -/
def FORME_STATE_RESULT : Field := ⟨0x000D0050, 24, 8, 0⟩
/-- FORME_STATE.PENDING [1], RO: A verified forme waits to be loaded (R413) -/
def FORME_STATE_PENDING : Field := ⟨0x000D0050, 1, 1, 0⟩
/-- FORME_STATE.ACTIVE [0], RO: Active forme copy -/
def FORME_STATE_ACTIVE : Field := ⟨0x000D0050, 0, 1, 0⟩
/-- FORME_VER.VERSION [31:0], RO: Version of the loaded forme, or of the active legal section -/
def FORME_VER_VERSION : Field := ⟨0x000D0054, 0, 32, 0⟩
/-- LEGAL_VER.VERSION [31:0], RO: Version of the loaded forme, or of the active legal section -/
def LEGAL_VER_VERSION : Field := ⟨0x000D0058, 0, 32, 0⟩
/-! Registers of spec/20_power_clocks_pins_electrical.md. -/

/-- PWR_DOMAINS.ON [7:0], RO: Bit k set while PDk is on (R428) -/
def PWR_DOMAINS_ON : Field := ⟨0x000000A0, 0, 8, 167⟩
/-- PWR_MON.VBACK [31:20], RO: VBACK, mV, updated every 10 ms -/
def PWR_MON_VBACK : Field := ⟨0x000000A4, 20, 12, 0⟩
/-- PWR_MON.VSYS [15:0], RO: VSYS, 10 mV, updated every 10 ms -/
def PWR_MON_VSYS : Field := ⟨0x000000A4, 0, 16, 0⟩
/-- PWR_TEMP.POWER [31:16], RO: Power-die junction, signed, 0.1 °C -/
def PWR_TEMP_POWER : Field := ⟨0x000000A8, 16, 16, 0⟩
/-- PWR_TEMP.CONTROL [15:0], RO: Controller-die junction, signed, 0.1 °C (R437) -/
def PWR_TEMP_CONTROL : Field := ⟨0x000000A8, 0, 16, 0⟩
/-- PWR_STATUS.HOT_HELD [5], RO: New sessions refused for temperature (R437) -/
def PWR_STATUS_HOT_HELD : Field := ⟨0x000000AC, 5, 1, 0⟩
/-- PWR_STATUS.HOT [4], W1C: The controller die has reached 125 °C -/
def PWR_STATUS_HOT : Field := ⟨0x000000AC, 4, 1, 0⟩
/-- PWR_STATUS.VSYS_LOW [3], RO: VSYS is not good now -/
def PWR_STATUS_VSYS_LOW : Field := ⟨0x000000AC, 3, 1, 0⟩
/-- PWR_STATUS.CHARGING [2], RO: VBACK is being charged (R427) -/
def PWR_STATUS_CHARGING : Field := ⟨0x000000AC, 2, 1, 0⟩
/-- PWR_STATUS.X32_FAIL [1], RO: The RTC runs from a substitute source (R432) -/
def PWR_STATUS_X32_FAIL : Field := ⟨0x000000AC, 1, 1, 0⟩
/-- PWR_STATUS.XTAL_FAIL [0], RO: The module runs from its internal oscillator (R432) -/
def PWR_STATUS_XTAL_FAIL : Field := ⟨0x000000AC, 0, 1, 0⟩
/-- SYS_GPIO.OE [15:8], RW: Bit i drives GPIOi as an output, subject to R441 -/
def SYS_GPIO_OE : Field := ⟨0x000000B0, 8, 8, 0⟩
/-- SYS_GPIO.OUT [7:0], RW: Level driven on each output GPIO -/
def SYS_GPIO_OUT : Field := ⟨0x000000B0, 0, 8, 0⟩
/-- SYS_GPIO_IN.IN [7:0], RO: Level read on GPIO0 to GPIO7 -/
def SYS_GPIO_IN_IN : Field := ⟨0x000000B4, 0, 8, 0⟩
/-- AO_VBACK_CFG.CHG [0], RWP: Installer class. 1 charges VBACK from VAUX (R427). Must be 0 with a primary cell. -/
def AO_VBACK_CFG_CHG : Field := ⟨0x000E0030, 0, 1, 0⟩

end Sys2Proof.Machine.Reg
end

