-- ==== Sys2Proof/Machine/State.lean ====
section
/-! DEFINITION. The state of the module: every register field in one finite map, and what the manual gives the machine
beside its registers, block by block; the faults and refusals of the model; the state after reset. -/
namespace Sys2Proof.Machine

/-- Why the machine stops. -/
inductive Fault where
  /-- Raised by no command: every command of the table has an effect in every state, and a stimulus that WellFormed
  refuses is taken as it stands. Safe: the model never stops here. -/
  | illFormedStimulus
  deriving DecidableEq, Repr

/-- Why a command has no meaning. -/
inductive Refusal where
  /-- Raised by `exec` for a command that has no meaning yet. Safe: the model stops. -/
  | notModelled (mnemonic : String)
  deriving DecidableEq, Repr

/-- Modes, supplies and cores (R21-R36, R423-R442). -/
structure Sys where
  /-- 02 R21: the current mode; SYS_MODE.MODE is its view. -/
  mode : Mode := .boot
  /-- 02 R23: MSEL as sampled at the last reset. -/
  role : Role := .standalone
  /-- 02 R30: the power-up sequence has completed since the last reset. -/
  booted : Bool := false
  /-- 20 R432: BOOT is held by a 25 MHz reference failure. -/
  refHeld : Bool := false
  /-- 02 R28: VSYS and VAUX are good. -/
  mainGood : Bool := true
  /-- 20 R428: VBACK holds PD0. -/
  vbackOk : Bool := true
  /-- 02 R28: an RF field able to power the tag is present. -/
  rfField : Bool := false
  /-- 02 R28: the FACTORY_DONE fuse. -/
  factoryDone : Bool := true
  /-- 02 R28, 15 R333: uncommitted settings of COMMISSION. -/
  staged : List SettingItem := []
  /-- 19 R411: committed settings and configuration items in the store. -/
  settings : List SettingItem := []
  /-- 02 R30: the standby core is standby-ready. -/
  standbyReady : Bool := false
  /-- 12 R279, 02 R26: paired with a hub. -/
  paired : Bool := false
  /-- 19 R421: one core is retired. -/
  coreRetired : Bool := false
  /-- 02 R34: the active core has failed and no takeover has completed. -/
  takeover : Bool := false
  /-- 02 R34: a controlled stop is under way. -/
  ctrlStop : Bool := false
  /-- 02 R33: PFW_N is low. -/
  pfwLow : Bool := false
  /-- 02 R33: the power fail is confirmed. -/
  pfwConfirmed : Bool := false
  /-- 02 R32: RESET_N is held low. -/
  resetLow : Bool := false
  /-- 02 R26, 07 R130: a NO_NEG or DUTY anomaly since the last reset holds the outlet. -/
  anomHeld : Bool := false
  /-- 02 R26, 03 R60: a strand left FAULTED holds the outlet until the next reset. -/
  strandHeld : Bool := false
  /-- 01 R19: a handover service pause is running. -/
  pause : Bool := false
  /-- 06 R112: firmware-raised events waiting for the pause to end. -/
  pausedEvents : List (BitVec 8 × BitVec 32) := []
  /-- 08 R164: an undervoltage event is in force. -/
  vsysLow : Bool := false
  /-- 19 R410: the violation log, newest first. -/
  violLog : List LogEntry := []
  /-- 19 R410: the event log, newest first. -/
  eventLog : List LogEntry := []
  /-- 06 R107 (STR_USEC): 1 microsecond steps since power-on; STR_USEC is its low 32 bits. -/
  usec : Nat := 0
  /-- 11 R217 (LED_TIME): ledger time L. -/
  ltime : Nat := 0
  /-- model only: MODEL FIELD: index of the next free value. -/
  freeCtr : Nat := 0
  deriving DecidableEq, Repr

/-- Pilot line, proximity and lock (R118-R135). -/
structure Pilot where
  /-- 07 R121, 02 R30: what CP_DRV drives. -/
  line : Line := .hiZ
  /-- 02 R30: the charge pumps are up. -/
  pumps : Bool := false
  /-- 06 PILOT_F: state F of a PILOT_F, until PILOT_RELEASE. -/
  formeF : Bool := false
  /-- 06 PILOT_PWM: the port PILOT_PWM. -/
  pwmReq : Bool := false
  /-- 06 PILOT_HLC: the port PILOT_HLC. -/
  hlcReq : Bool := false
  /-- 06 ALLOC_CURRENT: ALLOC_CURRENT, 0.1 A. -/
  alloc : Nat := 0
  /-- 08 R160: a PILOT_PWM = 1 waits for open confirmed. -/
  deferPwm : Bool := false
  /-- 08 R160: a PILOT_HLC write waits for open confirmed. -/
  deferHlc : Option Bool := none
  /-- 07 R131: lasting violations now in force. -/
  lasting : List Nat := []
  /-- 07 R134: lock command under way: true locks. -/
  lockDir : Option Bool := none
  /-- 07 R134: its second pulse is due. -/
  lockRetry : Bool := false
  /-- 07 R134, 02 R35: the lock's feedback switch, when last read, showed locked. -/
  bolt : Bool := false
  /-- 07 R128: a diode test pulse awaits evaluation. -/
  diodeDue : Bool := false
  /-- 07 R132: band of the last three readings. -/
  ppBand : Option Nat := none
  /-- 07 R132: band of the last reading. -/
  ppSeen : Option Nat := none
  /-- 07 R132: readings in it without a break. -/
  ppRun : Nat := 0
  /-- 07 R134: STR_USEC time at which the lock's pulse ends. -/
  lockPulse : Option Nat := none
  /-- 07 R121-R123, R130: the monitor's counts. -/
  mon : Monitor := {}
  deriving DecidableEq, Repr

/-- High-level communication (R136-R145, R444). -/
structure Hlc where
  /-- 07 R444: HLC_STATUS [2:0]. -/
  status : Nat := 0
  /-- 06 HLC_STATUS: HLC_STATUS [5:4]: 1 -2, 2 -20. -/
  proto : Nat := 0
  /-- 06 HLC_OFFER: port HLC_OFFER. -/
  offer : BitVec 3 := 0
  /-- 07 R137: the offer in force. -/
  offerInForce : BitVec 3 := 0
  /-- 07 R137: the SLAC exchange runs. -/
  slac : Bool := false
  /-- 07 R137: a SLAC match was accepted in this plug-in. -/
  matched : Bool := false
  /-- 07 R137: network membership key of the latest match. -/
  nmk : BitVec 128 := 0
  /-- 07 R444: TLS runs on the connection. -/
  tls : Bool := false
  /-- 16 R348: its cipher suite. -/
  suite : Nat := 0
  /-- 07 R118: it is TLS 1.3, else TLS 1.2. -/
  tls13 : Bool := false
  /-- 07 R137: the attenuations reported to the vehicle, dB. -/
  atten : List Nat := []
  /-- 07 R139: requests in the session. -/
  seq : Nat := 0
  /-- 07 R139: ring index of the next record. -/
  ring : Nat := 0
  /-- 07 R139: the unanswered request. -/
  pend : Option HlcReq := none
  /-- 07 R141: record offsets firmware answered at DEADLINE. -/
  late : List Nat := []
  /-- 16 R347: slot of the TLS session in AES0. -/
  tlsSlot : Option Nat := none
  /-- 07 R140: the last response sent to the vehicle. -/
  lastReply : Option HlcReply := none
  /-- 07 R140: the session identifier. -/
  session : Nat := 0
  /-- 07 R140: what firmware filled into the last response that a strand chose. -/
  lastFill : Option HlcFill := none
  /-- 07 R142: a certificate request waits for the host. -/
  certPend : Bool := false
  /-- 12 R259: EVMaxCurrent of the last ChargeParameterDiscovery. -/
  evMax : Nat := 0
  deriving DecidableEq, Repr

/-- Contactors and outputs (R146-R170). -/
structure Sw where
  /-- 08 R151: K1 commanded closed. -/
  k1 : Bool := false
  /-- 08 R151: K2 commanded closed. -/
  k2 : Bool := false
  /-- 08 R148: MIR1 reading: some true reads open. -/
  mir1 : Option Bool := none
  /-- 08 R148: MIR2 reading. -/
  mir2 : Option Bool := none
  /-- 08 R148: VLA, VLB, VLC live. -/
  vl : BitVec 3 := 0
  /-- 08 R148: supply-side phases live. -/
  supply : BitVec 3 := 0
  /-- 10 R199: latest fast phase currents, 0.1 A. -/
  phaseI : Vector Nat 3 := #v[0, 0, 0]
  /-- 08 R151-R153: step of the close or opening under way. -/
  stage : Stage := .opened
  /-- 08 R150: duty contactor of the present cycle is K2. -/
  duty2 : Bool := false
  /-- 08 R152: disconnect under way. -/
  disc : Option DiscKind := none
  /-- 08 R160: disconnect that runs once the close completes. -/
  discAfter : Option DiscKind := none
  /-- 08 R159: the open state has been reported. -/
  reported : Bool := true
  /-- 08 R150: CONT_STATE [9]. -/
  refused : Bool := false
  /-- 08 R158: K1 weld held. -/
  weld1 : Bool := false
  /-- 08 R158: K2 weld held. -/
  weld2 : Bool := false
  /-- 09 R186: why the CONTACTOR trip is held. -/
  tripWhy : Option ConTrip := none
  /-- 08 R156: backup SRAM: the pair is closed, no opening recorded. -/
  bsClosed : Bool := false
  /-- 08 R156: backup SRAM: the current, 0.1 A. -/
  bsCurrent : Nat := 0
  /-- 08 R156: backup SRAM: NEXT_DUTY. -/
  bsDuty : Bool := false
  /-- 08 R155: wear record: NEXT_DUTY is K2. -/
  wearDuty : Bool := false
  /-- 08 R156: wear record: break count of K1. -/
  wear1 : Nat := 0
  /-- 08 R156: wear record: break count of K2. -/
  wear2 : Nat := 0
  /-- 08 R154: wear record: last opening delays of K1, 0.1 ms, newest first. -/
  dly1 : List Nat := []
  /-- 08 R154: wear record: as dly1 for K2. -/
  dly2 : List Nat := []
  /-- 08 R167: wear record: clamp energy of cells A, mJ. -/
  cellA : Vector Nat 12 := Vector.replicate 12 0
  /-- 08 R167: wear record: clamp energy of cells B, mJ. -/
  cellB : Vector Nat 12 := Vector.replicate 12 0
  /-- 08 R168: wear record: outputs running on cell B. -/
  onB : BitVec 12 := 0
  /-- 08 R162: the twelve outputs. -/
  outs : Vector OutCh 12 := Vector.replicate 12 {}
  /-- 08 R167: MODEL FIELD: index of the next clamp event, whose measured energy is free. -/
  clampCtr : Nat := 0
  deriving DecidableEq, Repr

/-- The safety supervisor (R171-R193). -/
structure Sup where
  /-- 09 R176: self-tests due; the first one waits or runs. -/
  tests : List SelfTest := []
  /-- 09 R178: the repeat of a failed test is due; true when that test was due at an A-to-B change. -/
  repeatDue : Option Bool := none
  /-- 09 R174: ms since the first of the consecutive updates at or above DC_TH. -/
  cntDc1 : Option Nat := none
  /-- 09 R174: ms since the first of those at or above 10 x DC_TH. -/
  cntDc2 : Option Nat := none
  /-- 09 R174: ms since the first of those at or above AC_TH. -/
  cntAc : Option Nat := none
  /-- 09 R174: EV_RCM_WARN raised for the present crossing. -/
  warned : Bool := false
  /-- 09 R178: the fluxgate chain has been healthy for 10 s. -/
  chainOk : Bool := true
  /-- 09 R186: the 3 s of -12 V after a trip run. -/
  trip3s : Bool := false
  /-- 07 R130: violation that the PILOT trip is held for, 0 a state change. -/
  pilotWhy : Nat := 0
  /-- 09 R184: the overcurrent grace time runs. -/
  graceOn : Bool := false
  /-- 09 R184: EV_OC_WARN raised in this grace time. -/
  graceWarned : Bool := false
  /-- 09 R184: allocated current whose threshold is in force during it. -/
  graceA : Nat := 0
  /-- 09 R191: causes whose trip gets no further automatic attempt. -/
  reclOff : BitVec 16 := 0
  /-- 09 R180: EV_TEMP raised and not yet back below WARN - HYST. -/
  tempWarned : Vector Bool 2 := #v[false, false]
  /-- 09 R180 (SAFE_TEMP): TEMP1, TEMP2, 0.1 C. -/
  temps : Vector Int 2 := #v[250, 250]
  /-- 09 R189: welds kept in the configuration partition. -/
  savedWeld : BitVec 2 := 0
  /-- 09 R189: FB_MISMATCH kept in the configuration partition. -/
  savedMismatch : Bool := false
  /-- 10 R202: window W in 100 us, from Metrology. -/
  window : Nat := 200
  deriving DecidableEq, Repr

/-- The Capstan: strands, scheduler, galley pool and calls (R37-R117). -/
structure Cap where
  /-- 03 R37: the 320 strands. -/
  strands : Vector Strand 320 := Vector.replicate 320 Strand.reset
  /-- 03 R42: the strand that holds the engine. -/
  running : Option (Fin 320) := none
  /-- 03 R47: the strand a class-0 cut-in interrupted. -/
  interrupted : Option (Fin 320) := none
  /-- 03 R48: READY class-0 strands in the order woken. -/
  q0 : List (Fin 320) := []
  /-- 03 R46: READY class-1 strands in queue order. -/
  q1 : List (Fin 320) := []
  /-- 03 R46: READY class-2 strands in queue order. -/
  q2 : List (Fin 320) := []
  /-- 03 R46: READY class-3 strands in queue order. -/
  q3 : List (Fin 320) := []
  /-- 03 R46: class 1 to 3 being served in the scheduler cycle. -/
  cycClass : Nat := 1
  /-- 03 R46: turns that class still has in this scheduler cycle. -/
  cycLeft : Nat := 8
  /-- 03 CAP_CTRL: class weights in force in this scheduler cycle. -/
  cycW : Vector Nat 3 := #v[8, 4, 1]
  /-- 05 R96: strands STALLED on galley entries, longest first. -/
  stalled : List (Fin 320) := []
  /-- 04 R84, R85: service calls in firmware, oldest first. -/
  calls : List Call := []
  /-- 04 R84: MODEL FIELD: number of the next call. -/
  nextCall : Nat := 0
  /-- 03 R37, 02 R32: program store, sparse by word address, unlisted 0. -/
  prog : NMap Word := []
  /-- 04 R78, 19 R413: extent of the loaded forme in words. -/
  formeWords : Nat := 0
  /-- 03 R38, 02 R32: case memory, sparse, unlisted 0. -/
  caseMem : NMap Byte := []
  /-- 18 R383: shared window, sparse, unlisted 0. -/
  shared : NMap Byte := []
  /-- 19 R413: a verified forme waits to be loaded. -/
  formePending : Bool := false
  deriving DecidableEq, Repr

/-- Key tree, slots and presence (R340-R356). -/
structure Key where
  /-- 16 R340, R341: knot table but for the root, sparse, unlisted free. -/
  knots : NMap Knot := Knot.subtrees
  /-- 16 R352: secrets of imported knots, by knot. -/
  secrets : NMap (BitVec 256) := []
  /-- 16 R345, 01 R15: slots that failed a verify and are retired. -/
  retired : BitVec 64 := 0
  /-- 16 R345: the slot pool. -/
  slots : Vector Slot 64 := Vector.replicate 64 {}
  /-- 16 R345: slots held by strands, oldest first. -/
  holds : List KeyHold := []
  /-- 16 R340: the root knot is derived (boot step 13). -/
  derived : Bool := false
  /-- 16 R350, 01 R19: host cut that waits for the end of a service pause. -/
  cutLater : Option Nat := none
  /-- 16 R354: SEAL_JMP reads fitted. -/
  jumper : Bool := false
  deriving DecidableEq, Repr

/-- Card reader and directory (R303-R324). -/
structure Rd where
  /-- 06 RD_POLL: RD_POLL. -/
  poll : Bool := false
  /-- 14 R306: cards of the presentation in the order found. -/
  cards : List Card := []
  /-- 14 R308: the presentation overflowed. -/
  tooMany : Bool := false
  /-- 14 R305: STR_USEC time at which the field was last turned off. -/
  offAt : Option Nat := none
  /-- 14 R309: MODEL FIELD: number of the presentation. -/
  pres : Nat := 0
  /-- 14 R314: directory entries by slot, sparse. -/
  dir : NMap DirEntry := []
  /-- 14 R321: DIR_SEQ. -/
  seq : Nat := 0
  /-- 14 R322: full series under way. -/
  series : Option DirSeries := none
  /-- 14 R323: hub: operations waiting to be published, oldest first. -/
  ops : List DirOp := []
  /-- 14 R323: hub: STR_USEC time of the first of them. -/
  opsSince : Nat := 0
  /-- 19 R419: a DIR_CMD operation that waits for firmware. -/
  cmdLater : Option DirCommand := none
  /-- 19 R419: the application of the staged delta waits. -/
  deltaLater : Bool := false
  deriving DecidableEq, Repr

/-- The field tag (R325-R339). -/
structure Tag where
  /-- 15 R327: NDEF copies, commissioning copies, host file and reserved bytes of the tag memory, sparse, unlisted 0. -/
  mem : NMap Byte := []
  /-- 15 R329: a field transaction runs. -/
  inTx : Bool := false
  /-- 15 R329: NDEF application selected. -/
  appSel : Bool := false
  /-- 15 R329: selected file. -/
  file : Option TagFile := none
  /-- 15 R329: Ch and Ct of the last KNOCK. -/
  knock : Option (BitVec 128 × BitVec 128) := none
  /-- 15 R329: transaction authenticated. -/
  auth : Bool := false
  /-- 15 R338: transaction wrote tag memory. -/
  wrote : Bool := false
  /-- 15 R329: bytes of the active NDEF copy read from 0 on without a gap. -/
  readTo : Nat := 0
  /-- 15 R329: the last command of the transaction was a COMMIT that succeeded. -/
  committed : Bool := false
  /-- 15 R334: quiet hold. -/
  quiet : Bool := false
  /-- 15 R334: seconds left of it. -/
  quietLeft : Nat := 0
  /-- 15 R327: active NDEF copy. -/
  active : Nat := 0
  /-- 15 R327: active commissioning copy. -/
  commAct : Nat := 0
  /-- 15 R333: COMM_PENDING. -/
  commPend : Bool := false
  /-- 15 R330: SEQ of each receipt of the active copy, newest first, and whether a completed transaction has read it. -/
  receipts : List (Nat × Bool) := []
  /-- 15 TAG_RCPT_SEQ: SESSION SEQ of the newest receipt. -/
  rcptSeq : Nat := 0
  /-- 15 TAG_STATE: field transactions. -/
  count : Nat := 0
  /-- 15 R333: WRMODE in force since the transaction began. -/
  wrMode : Nat := 2
  /-- 15 R339: TAG_VIOLk. -/
  viol : Vector Nat 4 := #v[0, 0, 0, 0]
  /-- 15 R327: EN in the control block. -/
  cbEn : Bool := true
  /-- 15 R327: QUIET_T in the control block. -/
  cbQuiet : Nat := 5
  /-- 15 R327: WRMODE in the control block. -/
  cbMode : Nat := 2
  /-- 15 R327: VMIN in the control block. -/
  cbVmin : Nat := 24
  /-- 15 R329: the last response APDU. -/
  resp : List (BitVec 8) := []
  deriving DecidableEq, Repr

/-- Metrology (R194-R216). -/
structure Met where
  /-- 02 R33: metering is frozen by a power fail. -/
  frozen : Bool := false
  /-- 10 R197: chain serving VA, VB, VC, VN, IA, IB, IC, IN. -/
  map : Vector Nat 8 := #v[0, 1, 2, 3, 4, 5, 6, 7]
  /-- 10 R197: free chain, or 15. -/
  free : Nat := 8
  /-- 10 R207: retired chains. -/
  retired : BitVec 9 := 0
  /-- 10 R197: MODEL FIELD: the map at the start of the block under way. -/
  blkMap : Vector Nat 8 := #v[0, 1, 2, 3, 4, 5, 6, 7]
  /-- 10 R206: rotation step or check under way. -/
  rot : RotPhase := .idle
  /-- 10 R206: input the next step takes. -/
  nextInput : Nat := 0
  /-- 10 R209: inputs lost to hard failures. -/
  lost : BitVec 8 := 0
  /-- 06 MET_BLOCK_E: energies of the latest block. -/
  blockE : Vector Nat 3 := #v[0, 0, 0]
  /-- 10 R201: remainders below one mWh or mvarh, in the units of `netActive`. -/
  rem : Vector Nat 3 := #v[0, 0, 0]
  /-- 10 R216: MET_TOTk. -/
  tot : Vector Nat 3 := #v[0, 0, 0]
  /-- 10 MET_TOTk_HI: latched high words. -/
  totLatch : Vector Nat 3 := #v[0, 0, 0]
  /-- 10 R202: the reference phase. -/
  refPhase : Option Nat := none
  /-- 10 R202: its last 11 rising crossings, newest first. -/
  refCross : List Nat := []
  /-- 10 R203: frequency has left the band and not returned. -/
  freqOut : Bool := false
  /-- 10 R210: first overload of the session logged. -/
  overLogged : Bool := false
  /-- 10 R209: the block under way holds estimated samples. -/
  estBlock : Bool := false
  /-- 10 R209: every block is ESTIMATED until the next reset. -/
  estAlways : Bool := false
  /-- 10 R200, 11 R229: ledger time has jumped: the block under way ends PARTIAL. -/
  cutBlock : Bool := false
  /-- 10 R213: calibration in force, sparse by item. -/
  cal : NMap Word := [(68, 2000000)]
  /-- 10 R214: staged calibration values. -/
  staged : NMap Word := []
  /-- 10 R200: blocks ended since PD3 came up. -/
  blocks : Nat := 0
  /-- 10 MET_CAL_STAT: commits since manufacture. -/
  calCount : Nat := 0
  /-- 10 MET_CAL_MEAS: pad rms of each input over the latest block. -/
  padRms : Vector Nat 8 := #v[0, 0, 0, 0, 0, 0, 0, 0]
  /-- 10 MET_CAL_ANG: angle of IA, IB, IC behind its voltage. -/
  padAng : Vector Int 3 := #v[0, 0, 0]
  deriving DecidableEq, Repr

/-- The billing ledger, clock and tamper (R217-R249). -/
structure Led where
  /-- 11 R221: the registers, accounts, open interval, session and pending boundaries. -/
  cur : LedRegs := {}
  /-- 02 R30: the ledger runs: it has restored its state at boot step 6. -/
  on : Bool := false
  /-- 11 R217: wall clock in UTC seconds. -/
  w : Nat := 0
  /-- 02 SYS_STATUS: RTC_VALID. -/
  rtcValid : Bool := false
  /-- 11 R219: RTC seconds counted since PD0 came up. -/
  rtcSecs : Nat := 0
  /-- 11 R219: PD0 was lost and the ledger has not yet restarted. -/
  aoLost : Bool := false
  /-- 20 R432: the RTC runs from a substitute source. -/
  x32Sub : Bool := false
  /-- 11 R218: AO_RTC_SET waiting for the rollover. -/
  setPend : Option Nat := none
  /-- 11 R220: additions belonging to the latest ended block. -/
  acc : Vector Nat 3 := #v[0, 0, 0]
  /-- 11 R220: some addition belongs to it. -/
  accSeen : Bool := false
  /-- 11 R220: metrology energies of the latest ended block. -/
  prevE : Option (Vector Nat 3) := none
  /-- 11 R220: MODEL FIELD: pending boundaries reached before that block started. -/
  prevIdx : Nat := 0
  /-- 11 R227: MODEL FIELD: pending boundaries reached before the block under way started. -/
  blkIdx : Nat := 0
  /-- 11 R221: tariff in force at the start of the block under way. -/
  blkTariff : Nat := 1
  /-- 11 R234: import and export price of the tariff in force at that start. -/
  blkPrices : Nat × Nat := (0, 0)
  /-- 11 R223: LED_BILL.CLOSE waits for the next second. -/
  billReq : Bool := false
  /-- 11 R238: session that a SESSION_OPEN record opened and no SESSION record closed. -/
  opened : Option Session := none
  /-- 11 R238: next session number. -/
  nextSess : Nat := 1
  /-- 11 R239: SEQ of the next record. -/
  seq : Nat := 1
  /-- 11 R242: hash chain value. -/
  chain : BitVec 256 := 0
  /-- 11 R242: chain value before the last chained record. -/
  prevChain : BitVec 256 := 0
  /-- 11 R242: records chained since the last seal. -/
  unsealed : Nat := 0
  /-- 11 R242: first SEQ since the previous seal. -/
  sealFirst : Nat := 1
  /-- 11 R242: ledger time of the last seal. -/
  sealTime : Nat := 0
  /-- 11 R239: records of the ring, newest first. -/
  records : List Record := []
  /-- 11 R244: position of the next write, bytes since the ring began. -/
  head : Nat := 0
  /-- 11 R244: position of the oldest record. -/
  tail : Nat := 0
  /-- 11 R244: position exported up to. -/
  ack : Nat := 0
  /-- 19 no free block: records that found no free block, oldest first. -/
  backlog : List RecDraft := []
  /-- 11 R224: active calendar. -/
  calAct : Option Calendar := none
  /-- 11 R226: passive calendar. -/
  calPas : Option Calendar := none
  /-- 11 R246: ledger clear count. -/
  clears : Nat := 0
  /-- 11 R230: newest unconsumed last-gasp snapshot. -/
  snapshot : Option LedRegs := none
  /-- 11 R233: last register image. -/
  image : Option LedRegs := none
  /-- 11 R247: AO tamper log, oldest first. -/
  tmpLog : List TamperEntry := []
  deriving DecidableEq, Repr

/-- Lanyard, node side and hub side (R250-R283). -/
structure Link where
  /-- 12 LNK_STATUS: own channel. -/
  chan : Nat := 0
  /-- 13 R298, 02 R27: stored SITE_FALLBACK_A. -/
  fallbackA : Nat := 0
  /-- 12 R264: the head is in fallback. -/
  inFallback : Bool := false
  /-- 13 R297: import GRANT of the latest poll. -/
  gImp : Nat := 0
  /-- 13 R297: export GRANT of the latest poll. -/
  gExp : Nat := 0
  /-- 13 R300: a release awaits its REPLY. -/
  relWait : Bool := false
  /-- 12 R257: LNK_ROUND: current round (hub) or last accepted (node). -/
  roundCtr : Nat := 0
  /-- 12 R264: STR_USEC times of the last polls since start or fallback, newest first. -/
  pollTimes : List Nat := []
  /-- 12 R264: STR_USEC time of the last poll that passed its check, or of the start. -/
  lastPoll : Option Nat := none
  /-- 12 R264: round of the latest EV_SITE_POLL. -/
  lastPollRound : Option Nat := none
  /-- 12 R270: requests held for the hub, oldest first. -/
  reqs : List SiteReq := []
  /-- 12 R270: what the last answer carried: 0 no request, 1 a CONFIRM, 2 another. -/
  reqTurn : Nat := 0
  /-- 12 R272: identifier of the last notice taken. -/
  noticeId : Nat := 0
  /-- 12 R272: DELIV shows that notice. -/
  noticeNow : Bool := false
  /-- 12 R271: upward stream waiting in SLOT, beside the ledger. -/
  up : List UpItem := []
  /-- 12 R271: the fragment being sent. -/
  upFrag : Option UpFrag := none
  /-- 12 R271: kind of the last fragment sent. -/
  upKind : Nat := 0
  /-- 11 R243: ring position of the ledger bytes acknowledged so far. -/
  upPos : Nat := 0
  /-- 11 R237: session cost in the last answer. -/
  costSent : Int := 0
  /-- 12 R269: last lags behind the hub, 0.1 degree, newest first. -/
  lags : List Nat := []
  /-- 12 R269: SITE_PHASE code. -/
  phase : Nat := 3
  /-- 12 R273: delivery in progress at this node. -/
  deliv : Option Delivery := none
  /-- 12 R274: chunk last sent as a sender. -/
  ptr : Int := -1
  /-- 12 R258: duty of the last poll. -/
  duty : Nat := 0
  /-- 12 R276: armed as co-sender by the last poll. -/
  coSend : Bool := false
  /-- 12 R256: last two reported tone maps, newest first. -/
  tones : List (BitVec 70) := []
  /-- 12 R256: maps of hops to other nodes, learned as a relay. -/
  maps : NMap (BitVec 70) := []
  /-- 12 R259: the last answer sent. -/
  answer : Option AnswerFrame := none
  /-- 12 R253: the frame last sent. -/
  tx : Option TxFrame := none
  /-- 12 R272: the data of the last notice taken. -/
  noticeData : List Byte := []
  /-- 12 R261: the header of the last frame relayed. -/
  relayed : Option Relay := none
  /-- 16 R353: knot of the imported node secret. -/
  nodeKnot : Option Nat := none
  /-- 16 R353: slot of the link key in AES1. -/
  linkSlot : Option Nat := none
  /-- 12 R280: a join request has been sent and not answered. -/
  joinTried : Bool := false
  /-- 12 R280: refused with JOIN_FULL in this presence window. -/
  joinBarred : Bool := false
  /-- 12 R266: hub: per-channel state. -/
  nodes : Vector Node 256 := Vector.replicate 256 {}
  /-- 12 R266: hub: link table. -/
  table : List Hop := []
  /-- 12 R268: hub: suspect hops of this round. -/
  suspect : List (Nat × Nat) := []
  /-- 01 R13: hub: channels still to poll this round, in order. -/
  todo : List Nat := []
  /-- 12 R267: hub: nodes polled on HAWSER this round. -/
  hawser : List Nat := []
  /-- 01 R13: hub: the exchange under way is the retry. -/
  retrying : Bool := false
  /-- 01 R14: hub: no allocation run of the present round is due. -/
  ran : Bool := true
  /-- 12 LNK_RTIME: hub: STR_USEC time at which the round started. -/
  roundAt : Option Nat := none
  /-- 12 R275: hub: pass windows left this round. -/
  passLeft : Nat := 0
  /-- 12 R275: hub: duty of the poll under way. -/
  passDuty : Nat := 0
  /-- 12 R258: hub: the poll of the exchange under way. -/
  poll : Option PollFrame := none
  /-- 12 R273: hub: deliveries, the first of them running. -/
  pubs : List Pub := []
  /-- 12 R273: hub: identifier of the next delivery. -/
  nextId : Nat := 1
  /-- 12 R272: hub: records of the next notice object. -/
  notices : List (List Byte) := []
  /-- 12 R279: hub: join request being handled. -/
  joinReq : Option JoinReq := none
  /-- 12 R280, R281, 16 R353: hub: join frames sent for the module last dealt with, and its identifier, newest first. -/
  joinSent : List (BitVec 64 × JoinFrame) := []
  /-- 16 R353: pairing under way. -/
  pairing : Option Pairing := none
  /-- 16 R353: head: slot of the pairing key in AES1. -/
  pairSlot : Option Nat := none
  deriving DecidableEq, Repr

/-- Site allocation (R284-R302). -/
structure Alloc where
  /-- 13 R287: per-channel allocation state. -/
  ch : Vector Chan 256 := Vector.replicate 256 {}
  /-- 13 R296: HUB channel 0: the call that waits for the run. -/
  ownReq : Option Nat := none
  /-- 13 R296: HUB channel 0: direction that call asks for. -/
  ownDir : Nat := 0
  /-- 13 R300: own grants given up. -/
  released : Bool := false
  deriving DecidableEq, Repr

/-- Platen (R357-R382). -/
structure Plt where
  /-- 17 R362: current grey of each pixel, by row x 1,280 + column, sparse, unlisted 0. -/
  cur : NMap (BitVec 4) := []
  /-- 17 R362: target grey of each pixel, sparse, unlisted 0. -/
  target : NMap (BitVec 4) := []
  /-- 17 R362: phase counter of each pixel, sparse, unlisted 0. -/
  phase : NMap (BitVec 6) := []
  /-- 17 R362, R364: trims of the pixels as loaded, row by row, the pixel of even x in the low nibble. -/
  trims : List (BitVec 8) := []
  /-- 17 R359: drive code of each pixel in the latest frame, sparse, unlisted 0. -/
  codes : NMap (BitVec 2) := []
  /-- 17 R362, R373: proof save area: saved grey by pixel. -/
  saved : NMap (BitVec 4) := []
  /-- 17 R371: running updates. -/
  upds : List Upd := []
  /-- 17 R371: waiting updates, at most one per region, oldest first. -/
  waiting : List Upd := []
  /-- 17 R373: strand that tags the proof content of a region. -/
  tags : NMap (Fin 320) := []
  /-- 17 R373: regions showing proof content. -/
  proof : List Nat := []
  /-- 17 R375: last-image table. -/
  images : NMap LastImage := []
  /-- 17 R375: journal entries. -/
  journal : List Journal := []
  /-- 17 R376: regions in an unknown state. -/
  unknown : List Nat := []
  /-- 17 R378: regions whose RECOVER is due after a read-back failure. -/
  rbDue : List Nat := []
  /-- 17 R379: regions whose RECOVER is due after a panel power failure. -/
  pwrDue : List Nat := []
  /-- 17 R381: EP_PWR_EN. -/
  panelOn : Bool := false
  /-- 17 R381: EP_VCOM, mV. -/
  vcom : Nat := 0
  /-- 17 R381: register writes sent to the PMIC at the last panel power-up: register, value. -/
  pmic : List (BitVec 8 × BitVec 8) := []
  /-- 17 R377: consecutive passing idle tests while CRACK is held. -/
  crackOk : Nat := 0
  /-- 17 R375: composition serial. -/
  serial : Nat := 0
  /-- 17 R381: STR_USEC time of the last update start. -/
  lastStart : Option Nat := none
  deriving DecidableEq, Repr

/-- Host port, queues and mailboxes (R383-R401). -/
structure Hp where
  /-- 18 R389: data words the last transaction returned. -/
  out : List (BitVec 32) := []
  /-- 18 R387: the CRC over those words; none where the transaction returned no data. -/
  outCrc : Option (BitVec 16) := none
  /-- 18 R393: the items of the 64 queues and the galley that holds a take. -/
  queues : Vector Queue 64 := Vector.replicate 64 {}
  deriving DecidableEq, Repr

/-- Store and update (R402-R422). -/
structure Store where
  /-- 19 R402: unencrypted store contents that have no other home in the state, by window offset, sparse, unlisted 0xFF. -/
  cells : NMap Byte := []
  /-- 19 R415: firmware slots A and B. -/
  slots : Vector FwSlot 2 := #v[{ state := .active, sound := true }, {}]
  /-- 19 R415: slot that the active core runs. -/
  runs : Nat := 0
  /-- 02 R30: the active core is core B. -/
  coreB : Bool := false
  /-- 19 R420: activation under way. -/
  act : Option Activation := none
  /-- 19 R415: activation that waits for its conditions, with RESULT UPD_BUSY. -/
  wait : Option Activation := none
  /-- 19 R412: stored format versions of ledger, directory, knot table, configuration, site tables, settings. -/
  formats : List Nat := [1, 1, 1, 1, 1, 1]
  /-- 19 UPD_HANDOVER: STR_USEC time at which the service pause began. -/
  pauseAt : Nat := 0
  /-- 19 R421: the active core is to be retired after a handover. -/
  retireAfter : Bool := false
  /-- 19 R403 to R407: the maps and blocks of die 0 and die 1. -/
  dies : Vector Die 2 := #v[{ maps := [(1, {})], mapAt := 1, free := 373 }, { maps := [(0, {})], mapAt := 0, free := 372 }]
  /-- 11 R230: slots used of the last-gasp area. -/
  gaspUsed : Nat := 0
  /-- 19 UPD_HANDOVER: handovers completed. -/
  handovers : Nat := 0
  /-- 19 R413: active forme copy. -/
  formeAct : Nat := 0
  /-- 19 R413: the inactive forme copy holds what has not been loaded or rejected yet (the model's own field). -/
  formeNew : Bool := false
  /-- 19 FORME_VER: version of the loaded forme. -/
  formeVer : Nat := 0
  /-- 19 LEGAL_VER: version of the active legal section. -/
  legalVer : Nat := 0
  /-- 19 STORE_LOGS: next event-log entry, in 16-byte units. -/
  logEv : Nat := 0
  /-- 19 STORE_LOGS: next violation-log entry, in 16-byte units. -/
  logVi : Nat := 0
  deriving DecidableEq, Repr

/-- The state of the module. -/
structure State where
  /-- Every register field, keyed by 32 × address + lowest bit; a field not listed holds its Reset column (R4, R5).
  A field with access type RWS holds here the value last written (R6). -/
  regs : NMap Nat := []
  /-- The values in force of RWS fields, keyed as `regs`; a field not listed holds its Reset column (R6, R7). -/
  shadow : NMap Nat := []
  sys : Sys := {}
  pilot : Pilot := {}
  hlc : Hlc := {}
  sw : Sw := {}
  sup : Sup := {}
  cap : Cap := {}
  key : Key := {}
  rd : Rd := {}
  tag : Tag := {}
  met : Met := {}
  led : Led := {}
  link : Link := {}
  alloc : Alloc := {}
  plt : Plt := {}
  hp : Hp := {}
  store : Store := {}
  /-- MODEL FIELD: the commands that are waiting, first in, first out. -/
  pending : List Instr := []
  deriving DecidableEq, Repr

/-- The state after reset: BOOT, with the internal power-on reset still held (R30 step 0), every field at its Reset
column or at the value its assumption-log entry names, and no command waiting. -/
def State.reset : State := {}

/-- Changes the sys part of the state, and nothing else. -/
def State.updSys (s : State) (f : Sys → Sys) : State := { s with sys := f s.sys }
/-- Changes the pilot part of the state, and nothing else. -/
def State.updPilot (s : State) (f : Pilot → Pilot) : State := { s with pilot := f s.pilot }
/-- Changes the hlc part of the state, and nothing else. -/
def State.updHlc (s : State) (f : Hlc → Hlc) : State := { s with hlc := f s.hlc }
/-- Changes the sw part of the state, and nothing else. -/
def State.updSw (s : State) (f : Sw → Sw) : State := { s with sw := f s.sw }
/-- Changes the sup part of the state, and nothing else. -/
def State.updSup (s : State) (f : Sup → Sup) : State := { s with sup := f s.sup }
/-- Changes the cap part of the state, and nothing else. -/
def State.updCap (s : State) (f : Cap → Cap) : State := { s with cap := f s.cap }
/-- Changes the key part of the state, and nothing else. -/
def State.updKey (s : State) (f : Key → Key) : State := { s with key := f s.key }
/-- Changes the rd part of the state, and nothing else. -/
def State.updRd (s : State) (f : Rd → Rd) : State := { s with rd := f s.rd }
/-- Changes the tag part of the state, and nothing else. -/
def State.updTag (s : State) (f : Tag → Tag) : State := { s with tag := f s.tag }
/-- Changes the met part of the state, and nothing else. -/
def State.updMet (s : State) (f : Met → Met) : State := { s with met := f s.met }
/-- Changes the led part of the state, and nothing else. -/
def State.updLed (s : State) (f : Led → Led) : State := { s with led := f s.led }
/-- Changes the link part of the state, and nothing else. -/
def State.updLink (s : State) (f : Link → Link) : State := { s with link := f s.link }
/-- Changes the alloc part of the state, and nothing else. -/
def State.updAlloc (s : State) (f : Alloc → Alloc) : State := { s with alloc := f s.alloc }
/-- Changes the plt part of the state, and nothing else. -/
def State.updPlt (s : State) (f : Plt → Plt) : State := { s with plt := f s.plt }
/-- Changes the hp part of the state, and nothing else. -/
def State.updHp (s : State) (f : Hp → Hp) : State := { s with hp := f s.hp }
/-- Changes the store part of the state, and nothing else. -/
def State.updStore (s : State) (f : Store → Store) : State := { s with store := f s.store }
/-- Changes the register fields, and nothing else. -/
def State.updRegs (s : State) (f : NMap Nat → NMap Nat) : State := { s with regs := f s.regs }
/-- Changes the RWS values in force, and nothing else. -/
def State.updShadow (s : State) (f : NMap Nat → NMap Nat) : State := { s with shadow := f s.shadow }

/-- What a command answers. -/
abbrev Out := Host.Outcome State Fault Refusal

end Sys2Proof.Machine
end

