-- ==== Sys2Proof/Machine/Ops.lean ====
section
/-! DEFINITION. The named operations over the finite maps, the register fields, the memories, the logs and the
mailboxes, and the free values. -/
namespace Sys2Proof.Machine

/-! ## Finite maps -/

/-- The value listed for `k`. -/
def mapGet? {α : Type} : NMap α → Nat → Option α
  | [], _ => none
  | (k', v) :: m, k => if k = k' then some v else if k < k' then none else mapGet? m k

/-- The value of `k`, where an unlisted key has the value `d`. -/
def mapGet {α : Type} (d : α) (m : NMap α) (k : Nat) : α := (mapGet? m k).getD d

/-- Takes `k` out of the map. -/
def mapErase {α : Type} : NMap α → Nat → NMap α
  | [], _ => []
  | (k', v) :: m, k => if k = k' then m else if k < k' then (k', v) :: m else (k', v) :: mapErase m k

/-- Gives `k` the value `v`, keeping the keys rising. -/
def mapPut {α : Type} : NMap α → Nat → α → NMap α
  | [], k, v => [(k, v)]
  | (k', v') :: m, k, v =>
    if k = k' then (k, v) :: m else if k < k' then (k, v) :: (k', v') :: m else (k', v') :: mapPut m k v

/-- Gives `k` the value `v` in a map whose unlisted keys have the value `d`: `d` itself is never listed. -/
def mapSet {α : Type} [DecidableEq α] (d : α) (m : NMap α) (k : Nat) (v : α) : NMap α :=
  if v = d then mapErase m k else mapPut m k v

/-- The keys of a map are strictly rising, all at least `lo`. -/
def risingFrom {α : Type} : Nat → NMap α → Bool
  | _, [] => true
  | lo, (k, _) :: m => decide (lo ≤ k) && risingFrom (k + 1) m

/-- The canonical form of a map whose unlisted keys have the value `d`: strictly rising keys, none with the value
`d`. -/
def mapWf {α : Type} [DecidableEq α] (d : α) (m : NMap α) : Bool :=
  risingFrom 0 m && m.all fun e => decide (e.2 ≠ d)

/-! ## Register fields (R4 to R7) -/

/-- Where a field lives in the map of register fields. -/
def Field.key (f : Field) : Nat := 32 * f.addr + f.lo

/-- The current value of a field; for access type RWS, the value last written (R6). -/
def getF (s : State) (f : Field) : Nat := mapGet f.reset s.regs f.key

/-- Gives a field the value `v`, cut to its width. -/
def setF (f : Field) (v : Nat) (s : State) : State :=
  s.updRegs fun m => mapSet f.reset m f.key (v % 2 ^ f.width)

/-- A one-bit field as a truth value. -/
def getB (s : State) (f : Field) : Bool := getF s f ≠ 0

/-- Gives a one-bit field a truth value. -/
def setB (f : Field) (b : Bool) (s : State) : State := setF f (ofBool b) s

/-- A field as a signed quantity. -/
def getI (s : State) (f : Field) : Int := signedOf f.width (getF s f)

/-- Gives a field a signed quantity. -/
def setI (f : Field) (v : Int) (s : State) : State := setF f (signedField f.width v) s

/-- Counts a field up by one, saturating at its width. -/
def incF (f : Field) (s : State) : State := setF f (satInc (2 ^ f.width - 1) (getF s f)) s

/-- The value in force of an RWS field (R6, R7). -/
def inForce (s : State) (f : Field) : Nat := mapGet f.reset s.shadow f.key

/-- At its boundary, an RWS field takes the value last written (R6, R7). -/
def boundary (f : Field) (s : State) : State :=
  s.updShadow fun m => mapSet f.reset m f.key (getF s f)

/-- Several RWS fields reach their boundary together. -/
def boundaries (fs : List Field) (s : State) : State := fs.foldl (fun s f => boundary f s) s

/-- The power domain that holds a register, by its address (R9, R383, R398). -/
def domainOf (addr : Nat) : Nat :=
  let page := addr / 0x10000
  if page = 0 then (if addr = 0x14 then 0 else 7)
  else if page = 1 then (addr / 0x100) % 8
  else if page = 4 ∨ page = 5 ∨ page = 9 then 2
  else if page = 6 then 3
  else if page = 8 then (if addr < 0x82000 then 4 else 7)
  else if page = 10 then (if (0xA0200 ≤ addr ∧ addr < 0xA0300) ∨ 0xA4000 ≤ addr then 1 else 7)
  else if page = 14 then 0
  else 7

/-- A register that is kept through every reset: the trip counters SAFE_TRIPCNTn (R192). -/
def keptReg (addr : Nat) : Bool := 0x400C0 ≤ addr && addr < 0x40100

/-- The register fields of the domains `ds` take their Reset values (R5). -/
def clearRegs (ds : List Nat) (s : State) : State :=
  let keep : NMap Nat → NMap Nat := fun m => m.filter fun e => keptReg (e.1 / 32) || !(ds.contains (domainOf (e.1 / 32)))
  (s.updRegs keep).updShadow keep

/-! ## Memories -/

/-- The byte of a byte memory at `a`, where an unlisted byte reads as `d`. -/
def byteAt (d : Byte) (m : NMap Byte) (a : Nat) : Byte := mapGet d m a

/-- The bytes from `a` up, `n` of them. -/
def bytesAt (d : Byte) (m : NMap Byte) (a : Nat) : Nat → List Byte
  | 0 => []
  | n + 1 => byteAt d m a :: bytesAt d m (a + 1) n

/-- Writes bytes from `a` upwards. -/
def putBytes (d : Byte) (m : NMap Byte) (a : Nat) : List Byte → NMap Byte
  | [] => m
  | b :: bs => putBytes d (mapSet d m a b) (a + 1) bs

/-- The little-endian number that bytes spell (R4, R66). -/
def leNat : List Byte → Nat
  | [] => 0
  | b :: bs => b.toNat + 256 * leNat bs

/-- The `n` little-endian bytes of a number. -/
def leBytes (v : Nat) : Nat → List Byte
  | 0 => []
  | n + 1 => BitVec.ofNat 8 v :: leBytes (v / 256) n

/-- A little-endian word of a byte memory. -/
def wordAt (d : Byte) (m : NMap Byte) (a : Nat) : Word := BitVec.ofNat 32 (leNat (bytesAt d m a 4))

/-- Writes a little-endian word into a byte memory. -/
def putWord (d : Byte) (m : NMap Byte) (a : Nat) (w : Word) : NMap Byte := putBytes d m a (leBytes w.toNat 4)

/-! ## Free values -/

/-- The next value the manual leaves open, below `bound`, and the state that has used it (assumption log 2). -/
def freeBelow (bound : Nat) (s : State) : Nat × State :=
  (Config.freeNat s.sys.freeCtr % bound, s.updSys fun y => { y with freeCtr := y.freeCtr + 1 })

/-- The next free 256-bit result of a cryptographic engine. -/
def freeWide (s : State) : BitVec 256 × State :=
  (Config.freeWide s.sys.freeCtr, s.updSys fun y => { y with freeCtr := y.freeCtr + 1 })

/-! ## Status bytes of the host port (R4 to R8, R391) -/

def statusOk : Nat := 0x00
def errBusy : Nat := 0x01
def errAddr : Nat := 0x02
def errDomainOff : Nat := 0x03
def errPresence : Nat := 0x04
def errLocked : Nat := 0x05
def errMode : Nat := 0x06
def errCrc : Nat := 0x07

/-! ## Mailboxes and logs -/

/-- Rings outbound doorbell `d` of mailbox `k` (R398): a pending bit is set, once. A mailbox whose domain is off keeps
nothing. -/
def ringOut (k d : Nat) (s : State) : State :=
  setF (Reg.MB_OUT_PEND_PEND k) (getF s (Reg.MB_OUT_PEND_PEND k) ||| 2 ^ d) s

/-- The open session's number, or 0 (LED_SESSION). -/
def openSession (s : State) : Nat := getF s Reg.LED_SESSION_NUMBER

/-! ## The blocks of the store (19 R402 to R405) -/

/-- A logical block of a mirrored partition (R402). -/
def mirroredBlock (l : Nat) : Bool :=
  (0x80 ≤ l && l < 0x90) || (0x2A4 ≤ l && l < 0x3A4) || (0x3DC ≤ l && l < 0x3E0)

/-- A logical block of an encrypted partition (R402). -/
def encryptedBlock (l : Nat) : Bool := 0xA0 ≤ l && l < 0x2A4

/-- A free pool block. -/
def MapEntry.pool (e : MapEntry) : Bool := !e.inUse && !e.retired && !e.service

/-- The entry of physical block `p` of die `d` at manufacture. DESIGN CHOICE: logical block `l` stands at physical block `l`,
an unmirrored one on die `l` mod 2; the map blocks are the first pool blocks, and the last-gasp area's partner is block 2 of
die 1 (assumption log 62). -/
def factoryEntry (d p : Nat) : MapEntry :=
  if mirroredBlock p then { logical := p, inUse := true, second := d == 1 }
  else if p % 2 = d then { logical := p, inUse := true }
  else if p = 1 - d ∨ (d = 1 ∧ p = 2) then { service := true }
  else { erased := true }

/-- The entry of physical block `p` of die `d`. -/
def Die.entry (d : Nat) (x : Die) (p : Nat) : MapEntry := (mapGet? x.live p).getD (factoryEntry d p)

/-- The physical block of die `d` that holds logical block `l`. -/
def Die.place (d : Nat) (x : Die) (l : Nat) : Option Nat :=
  match x.live.find? fun e => e.2.inUse && e.2.logical == l with
  | some e => some e.1
  | none => if (mapGet? x.live l).isNone && (factoryEntry d l).inUse then some l else none

/-- Die `d`. -/
def dieOf (d : Nat) (s : State) : Die := s.store.dies.get (Fin.ofNat 2 d)

/-- Free pool blocks of a die, without those that a migration's shadows take (R418). -/
def Die.spare (x : Die) : Nat := x.free - x.shadow

/-- Free pool blocks (STORE_STATUS.FREE). -/
def storeFree (s : State) : Nat := (dieOf 0 s).spare + (dieOf 1 s).spare

/-- A write of logical block `l` finds no free block on a die it needs (R408). -/
def blockWorn (l : Nat) (s : State) : Bool :=
  [0, 1].any fun d => ((dieOf d s).place d l).isSome && (dieOf d s).spare == 0

/-- The same of the ledger, whose blocks stand on both dies (R402, R408). -/
def storeWorn (s : State) : Bool := (dieOf 0 s).spare == 0 || (dieOf 1 s).spare == 0

/-- An item of the store is migrated, or is to be migrated after a cold boot on older formats: changes to the items wait
(19 R417, R419). -/
def migrating (s : State) : Bool := s.store.act.isSome || s.store.wait.any fun a => a.same && a.migrated

/-- The logical blocks of the event log and of the violation log that are written next (R402, R410). -/
def eventBlock (s : State) : Nat := 0x3E2 + s.store.logEv / 4096
def violBlock (s : State) : Nat := 0x3EA + s.store.logVi / 4096

/-- Writes an event-log entry: a ring of 32,768 (R402, R410). -/
def logEvent (source code value : Nat) (s : State) : State :=
  if blockWorn (eventBlock s) s then s
  else
    let e : LogEntry := ⟨s.sys.ltime, source, code, openSession s, value⟩
    (s.updSys fun y => { y with eventLog := (e :: y.eventLog).take 32768 }).updStore
      fun t => { t with logEv := (t.logEv + 1) % 32768 }

/-- Writes a violation-log entry whose session field holds `who`: a ring of 16,384 (R402, R410). -/
def logViolationAs (source k who value : Nat) (s : State) : State :=
  if blockWorn (violBlock s) s then s
  else
    let e : LogEntry := ⟨s.sys.ltime, source, k, who, value⟩
    (s.updSys fun y => { y with violLog := (e :: y.violLog).take 16384 }).updStore
      fun t => { t with logVi := (t.logVi + 1) % 16384 }

/-- Writes a violation-log entry of the open session. -/
def logViolation (source k value : Nat) (s : State) : State := logViolationAs source k (openSession s) value s

/-! ## Domains and the host (R8, R9, R21, R28, R388) -/

/-- The installer presence window is open. -/
def installer (s : State) : Bool := getB s Reg.AO_PRES_STAT_INSTALLER

/-- The metrology presence window is open. -/
def metrologist (s : State) : Bool := getB s Reg.AO_PRES_STAT_METRO

/-- At least one session is open (SYS_STATUS.SESSION_ACTIVE). -/
def sessionActive (s : State) : Bool := openSession s != 0

/-- The domain of the active core, and that of the standby core. -/
def activeDomain (s : State) : Nat := if s.store.coreB then 6 else 5
def standbyDomain (s : State) : Nat := if s.store.coreB then 5 else 6

/-- Power domain `d` is on (R21). -/
def domainOn (d : Nat) (s : State) : Bool :=
  match s.sys.mode with
  | .noPower => false
  | .backup => d == 0
  | .tagOnly => d == 1 || (d == 0 && s.sys.vbackOk)
  | .boot => d == 0 || d == 1 || d == 2 || d == activeDomain s || d == 7
  | .inert => d != 3 && d != standbyDomain s
  | .standby => d != standbyDomain s
  | _ => true

/-- What the supervisor and its sensors do: it acts in every mode in which PD2 is powered (R171). -/
def supervised (f : State → State) (s : State) : Out := .next (if domainOn 2 s then f s else s)

/-- The host port answers: main power is present, RESET_N is high and PD7 is on; in BOOT only while a reference failure
holds the module there (18 R391, 20 R432). -/
def hostUp (s : State) : Bool :=
  s.sys.mainGood && !s.sys.resetLow && domainOn 7 s && (s.sys.mode != .boot || s.sys.refHeld)

/-- SYS_MODE changes: mailbox 0 rings DB0 (R400). -/
def enterMode (m : Mode) (s : State) : State :=
  if s.sys.mode = m then s else s |> (fun s => s.updSys fun y => { y with mode := m }) |> ringOut 0 0

/-- STANDBY ends: the role mode and its clocks come back, and the standby core is rebooted as spare (R28). -/
def standbyExit (s : State) : State :=
  if s.sys.mode = .standby then enterMode (roleMode s.sys.role) (s.updSys fun y => { y with standbyReady := false })
  else s

/-- A transaction ends: its command code, the words applied or items moved, and its status byte (HOST_STAT). -/
def answerAs (cmd done : Nat) (r : Nat × State) : State :=
  r.2 |> setF Reg.HOST_STAT_LAST r.1 |> setF Reg.HOST_STAT_CMD cmd |> setF Reg.HOST_STAT_DONE done

/-- A WRITE of one word ends. -/
def answer (r : Nat × State) : State := answerAs 0x02 (if r.1 = statusOk then 1 else 0) r

/-- What the port serves in INERT: system control, mailbox 0, and the store with the commands that receive a firmware slot
(02 R35). -/
def inertServes (addr : Nat) : Bool := addr < 0x10100 || addr / 0x10000 == 0xD

/-- Why the port turns an access to `addr` away before the block sees it, if it does: ERR_BUSY outside system control while
a reference failure holds the module in BOOT (20 R432); ERR_DOMAIN_OFF while the register's domain is
off (R8, R388); ERR_MODE in INERT for what it does not serve (02 R35). -/
def portStop (addr : Nat) (s : State) : Option Nat :=
  if s.sys.mode = .boot ∧ 0x10000 ≤ addr then some errBusy
  else if !domainOn (domainOf addr) s then some errDomainOff
  else if s.sys.mode = .inert ∧ !inertServes addr then some errMode
  else none

/-- An access to a block other than system control ends STANDBY (R28). -/
def portWake (addr : Nat) (s : State) : State := if addr < 0x10000 then s else standbyExit s

/-- One word written at `addr`: its status code, and the state after it. An access that ends STANDBY is itself answered with
the domains that were on when it came: the standby core's mailbox answers ERR_DOMAIN_OFF (R8; DEDUCED, assumption log 56). -/
def portWord (addr : Nat) (f : State → Nat × State) (s : State) : Nat × State :=
  match portStop addr s with
  | some c => (c, portWake addr s)
  | none => f (portWake addr s)

/-- A host WRITE to the register at `addr`: none while the host port is dead. -/
def hostTo (addr : Nat) (f : State → Nat × State) (s : State) : State :=
  if !hostUp s then s else answer (portWord addr f s)

end Sys2Proof.Machine
end

