-- ==== Sys2Proof/Machine/Crypto.lean ====
section
/-! DEFINITION. Checks and derivations that the manual gives over the crypto engines' functions: CRC-32, the KDF of
16 R342, and byte order (16 R342, 11 R225). -/
namespace Sys2Proof.Machine

/-- The `n` big-endian bytes of a number. -/
def beBytes (v : Nat) (n : Nat) : List Byte := (leBytes v n).reverse

/-- The big-endian number that bytes spell. -/
def beNat (bs : List Byte) : Nat := bs.foldl (fun v b => v * 256 + b.toNat) 0

/-- One bit of CRC-32 (IEEE 802.3), reflected. -/
def crcBit (c : BitVec 32) : BitVec 32 := if c.getLsbD 0 then (c >>> 1) ^^^ 0xEDB88320#32 else c >>> 1

/-- One byte of CRC-32. -/
def crcByte (c : BitVec 32) (b : Byte) : BitVec 32 :=
  (List.range 8).foldl (fun c _ => crcBit c) (c ^^^ b.zeroExtend 32)

/-- CRC-32 (IEEE 802.3) of a byte string. -/
def crc32 (bs : List Byte) : BitVec 32 := ~~~(bs.foldl crcByte 0xFFFFFFFF#32)

/-- HMAC-SHA-256 as its 32 bytes. -/
def hmacBytes (key msg : List Byte) : List Byte := beBytes (Config.hmac key msg).toNat 32

/-- The KDF of R342: block i is HMAC(K, [i] ‖ label ‖ 0 ‖ context ‖ [L]), integers of 32 bits big-endian, the blocks
concatenated and cut to `len` bits. -/
def kdf (key label context : List Byte) (len : Nat) : List Byte :=
  let block (i : Nat) : List Byte := hmacBytes key (beBytes (i + 1) 4 ++ label ++ [0] ++ context ++ beBytes len 4)
  ((List.range ((len + 255) / 256)).flatMap block).take (len / 8)

/-- The order of curve P-256. -/
def orderP256 : Nat := 0xFFFFFFFF00000000FFFFFFFFFFFFFFFFBCE6FAADA7179E84F3B9CAC2FC632551

/-- The order of curve P-384. -/
def orderP384 : Nat :=
  0xFFFFFFFFFFFFFFFFFFFFFFFFFFFFFFFFFFFFFFFFFFFFFFFFC7634D81F4372DDF581A0DB248B0A77AECEC196ACCC52973

/-! ## Engines (R347) -/

def engAes0 : Nat := 0
def engAes1 : Nat := 1
def engEcc0 : Nat := 2
def engEcc1 : Nat := 3
def engHmac : Nat := 4
def engTag : Nat := 5
def engReader : Nat := 6
def engStore : Nat := 7

/-- The engine holds P-256 or P-384 private scalars. -/
def isEcc (engine : Nat) : Bool := engine == engEcc0 || engine == engEcc1

/-- The bits a working key is derived with (R342). -/
def keyBits (engine : Nat) (wide : Bool) : Nat :=
  if isEcc engine then (if wide then 448 else 320) else (if wide then 256 else 128)

/-- The derivation's result as the key of its engine (R342). -/
def keyValue (engine : Nat) (wide : Bool) (bs : List Byte) : Nat :=
  if isEcc engine then beNat bs % ((if wide then orderP384 else orderP256) - 1) + 1 else beNat bs

end Sys2Proof.Machine
end

