-- ==== Sys2Proof/Machine/Blocks.lean ====
section
/-! DEFINITION. The physical blocks of the store: the map of each die, its log and its mount, copy on write, retirement,
leveling (19 R402 to R407). -/
namespace Sys2Proof.Machine

/-! ## Entries, log and mount (R403) -/

/-- The 32 bytes of an entry. -/
def MapEntry.bytes (e : MapEntry) : List Byte :=
  leBytes e.logical 2 ++
  leBytes (ofBool e.inUse + 2 * ofBool e.second + 4 * ofBool e.retired + 8 * ofBool e.erased + 16 * ofBool e.service) 2 ++
  leBytes e.erases 4 ++ leBytes e.counter 8 ++ leBytes e.tag.toNat 16

/-- The CRC of a log entry, over each block it names and that block's 32 bytes. PRESUMED: CRC-32, as elsewhere in the store
(assumption log 62). -/
def logCrc (changes : NMap MapEntry) : BitVec 32 := crc32 (changes.flatMap fun x => leBytes x.1 2 ++ x.2.bytes)

/-- Its CRC holds. -/
def MapLog.sound (x : MapLog) : Bool := x.crc == logCrc x.changes

/-- A map after some of its entries changed. -/
def putAll (m changes : NMap MapEntry) : NMap MapEntry := changes.foldl (fun m x => mapPut m x.1 x.2) m

/-- The log as far as it counts: an entry whose CRC fails is ignored with every entry after it. -/
def MapBlock.sound (b : MapBlock) : List MapLog := b.log.takeWhile MapLog.sound

/-- The map that a map block spells: its snapshot, then its log. -/
def MapBlock.entries (b : MapBlock) : NMap MapEntry := b.sound.foldl (fun m x => putAll m x.changes) b.snap

/-- The map block with the highest sequence, and its place. -/
def newestMap (maps : NMap MapBlock) : Option (Nat × MapBlock) :=
  maps.foldl (fun r x => match r with
    | none => some x
    | some y => if y.2.seq < x.2.seq then some x else r) none

/-- The free pool blocks of die `d` under the map `live`: 373 and 372 at manufacture, 745 in all (R404). -/
def freeCount (d : Nat) (live : NMap MapEntry) : Nat :=
  373 - d + (live.filter fun x => x.2.pool && !(factoryEntry d x.1).pool).length -
    (live.filter fun x => !x.2.pool && (factoryEntry d x.1).pool).length

/-- The mount of die `d`: the map block with the highest sequence is used, and any older one is a pool block again; the
shadows of a migration are discarded (R422). DESIGN CHOICE: the log entries that are ignored are gone from the log that later entries join (assumption log 62). -/
def Die.mount (d : Nat) (x : Die) : Die :=
  match newestMap x.maps with
  | none => x
  | some (p, b) =>
    { x with maps := [(p, { b with log := b.sound })], mapAt := p, live := b.entries, free := freeCount d b.entries
             shadow := 0 }

/-! ## Erasing and choosing (R405, R407) -/

/-- Leveling takes free blocks in order of lowest erase count; DESIGN CHOICE: the lowest number among equals. -/
def Die.freeBlock (d : Nat) (x : Die) : Option Nat :=
  (List.range 1024).foldl (fun r p =>
    if !(x.entry d p).pool then r
    else match r with
    | none => some p
    | some q => if (x.entry d p).erases < (x.entry d q).erases then some p else r) none

/-- Block `p` after its next erase: a pool block, or retired when its erase count has reached 100,000 or a read of it has
condemned it (R407). -/
def Die.afterErase (d : Nat) (x : Die) (p : Nat) : MapEntry :=
  let n := (x.entry d p).erases
  if 100000 ≤ n ∨ x.condemned.contains p then { retired := true, erases := n } else { erased := true, erases := n + 1 }

/-- Entries of the map change, and the count of free blocks with them; a block that was erased is no longer condemned. -/
def Die.change (d : Nat) (c : NMap MapEntry) (x : Die) : Die :=
  let live := putAll x.live c
  { x with
    live := live, free := freeCount d live
    condemned := x.condemned.filter fun p => !((mapGet? c p).map fun e => e.retired || e.erased).getD false }

/-- A full log is compacted into a fresh map block, and the old one returns to the pool (R403). -/
def Die.compact (d : Nat) (x : Die) : Die :=
  match mapGet? x.maps x.mapAt, x.freeBlock d with
  | some b, some m =>
    if b.log.length < 1023 then x
    else
      let fresh := { x.entry d m with service := true, erased := false }
      let y := x.change d (mapPut [(m, fresh)] x.mapAt (x.afterErase d x.mapAt))
      { y with maps := [(m, { seq := b.seq + 1, snap := y.live })], mapAt := m }
  | _, _ => x

/-- The map log records changes as one entry. -/
def Die.record (c : NMap MapEntry) (x : Die) : Die :=
  let add (b : MapBlock) : MapBlock := { b with log := b.log ++ [{ changes := c, crc := logCrc c }] }
  match mapGet? x.maps x.mapAt with
  | some b => { x with maps := mapPut x.maps x.mapAt (add b) }
  | none => x

/-! ## Copy on write (R405, R406) -/

/-- The contents of block `p` go to a free block of the same die, whose entry takes the write counter after it and the tag
of the new contents; the old block is erased and returned to the pool. The changes so far stand first. -/
def Die.renew (d : Nat) (tag : Nat → Nat → BitVec 128) (r : NMap MapEntry × Die) (p : Option Nat) : NMap MapEntry × Die :=
  match p, r.2.freeBlock d with
  | some p, some q =>
    let e := r.2.entry d p
    let n := (e.counter + 1) % 2 ^ 64
    let new : MapEntry := { e with erased := false, erases := (r.2.entry d q).erases, counter := n, tag := tag e.logical n }
    let c := mapPut [(q, new)] p (r.2.afterErase d p)
    (putAll r.1 c, r.2.change d c)
  | _, _ => r

/-- The blocks named are renewed in one entry of the map log. -/
def Die.renewAll (d : Nat) (tag : Nat → Nat → BitVec 128) (ps : Die → List (Option Nat)) (x : Die) : Die :=
  let x := x.compact d
  let r := (ps x).foldl (Die.renew d tag) ([], x)
  if r.1.isEmpty then r.2 else r.2.record r.1

/-- Changes die `d`. -/
def updDie (d : Nat) (f : Die → Die) (s : State) : State :=
  s.updStore fun t =>
    let i : Fin 2 := Fin.ofNat 2 d
    { t with dies := t.dies.set i.val (f (t.dies.get i)) i.isLt }

/-- No tag: the block is not encrypted. -/
def noTag (_ _ : Nat) : BitVec 128 := 0

/-- Copy on write of logical blocks, each copy on the die it stands on: die 0, then die 1. -/
def copyOnWrite (tag : Nat → Nat → BitVec 128) (ls : List Nat) (s : State) : State :=
  [0, 1].foldl (fun s d => updDie d (fun x => x.renewAll d tag fun x => ls.map (x.place d)) s) s

/-- The logical blocks that `n` bytes from the window offset `a` on lie in. -/
def blocksOf (a n : Nat) : List Nat := (List.range ((a + n + 0xFFFF) / 0x10000 - a / 0x10000)).map (a / 0x10000 + ·)

/-- The logical block of the last-gasp area. -/
def gaspBlock : Nat := 0x3EE

/-- A die's block in store service besides its map block: the partner of the last-gasp area (R404). -/
def Die.partner (d : Nat) (x : Die) : Option Nat :=
  (List.range 1024).find? fun p => (x.entry d p).service && p != x.mapAt

/-- The last-gasp area and its partner are exchanged for pre-erased blocks, in one map update of each die (11 R230). -/
def exchangeGasp (s : State) : State :=
  [0, 1].foldl (fun s d =>
    updDie d (fun x => x.renewAll d noTag fun x => [x.place d gaspBlock, x.partner d]) s) s

/-! ## Balance and leveling (R404, R407) -/

/-- An in-use block of die `d` that is not mirrored and may go to the other die; the last-gasp area stays where its partner
is not. -/
def Die.movable (d : Nat) (x : Die) : Option Nat :=
  (List.range 1024).find? fun p =>
    let e := x.entry d p
    e.inUse && !mirroredBlock e.logical && e.logical != gaspBlock

/-- The block leaves die `a` for die `b`. -/
def moveBlock (a b : Nat) (s : State) : State :=
  let (x, y) := ((dieOf a s).compact a, (dieOf b s).compact b)
  match x.movable a, y.freeBlock b with
  | some p, some q =>
    let e := { x.entry a p with erased := false, erases := (y.entry b q).erases }
    let (c, k) := ([(p, x.afterErase a p)], [(q, e)])
    s |> updDie a (fun _ => (x.change a c).record c) |> updDie b fun _ => (y.change b k).record k
  | _, _ => s

/-- The free blocks of the two dies are kept within 16 of each other; each move brings them nearer by two. -/
def balance : Nat → State → State
  | 0, s => s
  | n + 1, s =>
    let (f, g) := ((dieOf 0 s).free, (dieOf 1 s).free)
    if f + 16 < g then balance n (moveBlock 0 1 s)
    else if g + 16 < f then balance n (moveBlock 1 0 s)
    else s

/-- The blocks of a die that are not retired, by number. -/
def Die.kept (d : Nat) (x : Die) : List Nat := (List.range 1024).filter fun p => !(x.entry d p).retired

/-- The least-erased in-use block of a die whose erase counts spread by more than 2,000. -/
def Die.lagging (d : Nat) (x : Die) : Option Nat :=
  let counts := (x.kept d).map fun p => (x.entry d p).erases
  let used := (x.kept d).filter fun p => (x.entry d p).inUse
  let least := (used.map fun p => (x.entry d p).erases).min?
  if counts.min?.getD 0 + 2000 < counts.max?.getD 0 then
    used.find? fun p => some (x.entry d p).erases == least
  else none

/-- Leveling: that block of each die moves. DESIGN CHOICE: once in each scrub pass (assumption log 62). -/
def level (tag : Nat → Nat → BitVec 128) (s : State) : State :=
  [0, 1].foldl (fun s d => updDie d (fun x => x.renewAll d tag fun x => [x.lagging d]) s) s

/-! ## What the registers show -/

/-- The in-use blocks of a die whose entries are not those of manufacture. -/
def Die.usedListed (x : Die) : List MapEntry := (x.live.map (·.2)).filter (·.inUse)

/-- Erase counts of in-use blocks that manufacture has not left at 0. -/
def usedErases (s : State) : List Nat := ((dieOf 0 s).usedListed ++ (dieOf 1 s).usedListed).map (·.erases)

/-- STORE_ERASE_MAX and STORE_ERASE_MEAN, over the 1,300 blocks in use (R402); DESIGN CHOICE: the mean is rounded down. -/
def eraseMax (s : State) : Nat := (usedErases s).foldl max 0
def eraseMean (s : State) : Nat := (usedErases s).foldl (· + ·) 0 / 1300

/-- Retired blocks. -/
def retiredBlocks (s : State) : Nat :=
  min 2047 (((dieOf 0 s).live ++ (dieOf 1 s).live).filter fun x => x.2.retired).length

end Sys2Proof.Machine
end

