-- ==== Sys2Proof/Machine/Events.lean ====
section
/-! DEFINITION. Strands as the scheduler and the events see them: waking, galley resolution, raising an event, fencing
(03 R42 to R50, 04 R88, 05 R95, R98, 06 R112, R113). -/
namespace Sys2Proof.Machine

/-! ## Access to a strand -/

/-- Strand `n` of the Capstan. -/
def Cap.strand (c : Cap) (n : Fin 320) : Strand := c.strands.get n

/-- Replaces strand `n`. -/
def Cap.setStrand (n : Fin 320) (t : Strand) (c : Cap) : Cap := { c with strands := c.strands.set n.val t n.isLt }

/-- Changes strand `n`. -/
def Cap.modStrand (n : Fin 320) (f : Strand → Strand) (c : Cap) : Cap := c.setStrand n (f (c.strand n))

/-- Strand `n` of a state. -/
def getS (s : State) (n : Fin 320) : Strand := s.cap.strand n

/-- Changes strand `n` of a state. -/
def modS (n : Fin 320) (f : Strand → Strand) (s : State) : State := s.updCap (Cap.modStrand n f)

/-- Every strand number, in ascending order. -/
def allStrands : List (Fin 320) := List.finRange 320

/-! ## Queues of READY strands (R45 to R48) -/

/-- Strand `n` joins the tail of its class queue. -/
def Cap.join (n : Fin 320) (c : Cap) : Cap :=
  match (c.strand n).cls with
  | 0 => { c with q0 := c.q0 ++ [n] }
  | 1 => { c with q1 := c.q1 ++ [n] }
  | 2 => { c with q2 := c.q2 ++ [n] }
  | 3 => { c with q3 := c.q3 ++ [n] }

/-- Strand `n` leaves the engine and every queue of strands. -/
def Cap.leave (n : Fin 320) (c : Cap) : Cap :=
  { c with
    running := if c.running = some n then none else c.running
    interrupted := if c.interrupted = some n then none else c.interrupted
    q0 := c.q0.filter (· ≠ n)
    q1 := c.q1.filter (· ≠ n)
    q2 := c.q2.filter (· ≠ n)
    q3 := c.q3.filter (· ≠ n)
    stalled := c.stalled.filter (· ≠ n) }

/-- CAP_HMAX0 as it applies from the next wake: 16 to 256 (R50). -/
def hmaxNow (s : State) : Nat := clamp 16 256 (getF s Reg.CAP_LIMIT_CAP_HMAX0)

/-- A new class-0 activation under the limit `hm` when `fresh`; otherwise the present one goes on (R50). -/
def Strand.activation (hm : Nat) (fresh : Bool) (t : Strand) : Strand :=
  { t with used := if fresh then 0 else t.used, hmax := if fresh then hm else t.hmax }

/-- Strand `n` becomes READY at the tail of its class queue, in a new activation or the present one (R48, R50). -/
def Cap.makeReady (hm : Nat) (fresh : Bool) (n : Fin 320) (c : Cap) : Cap :=
  ((c.leave n).modStrand n fun t =>
    { t with st := .ready, used := if fresh then 0 else t.used, hmax := if fresh then hm else t.hmax }).join n

/-! ## Waiting (R43, R44) -/

/-- The lowest selected slot that is pending, 8 for the timer, or none (R44). -/
def lowestSelected (mask : BitVec 9) (pending : BitVec 8) (timer : Bool) : Option Nat :=
  match (List.range 8).find? fun i => mask.getLsbD i && pending.getLsbD i with
  | some i => some i
  | none => if mask.getLsbD 8 && timer then some 8 else none

/-- The slots of a strand, enabled and in force, that name event `ev` (R43). -/
def hitMask (ev : BitVec 8) (t : Strand) : BitVec 8 :=
  (List.finRange 8).foldl (fun (m : BitVec 8) i =>
    if t.enOn.getLsbD i.val && t.subOn.get i == ev then m ||| BitVec.ofNat 8 (2 ^ i.val) else m) 0

/-- A WAITING strand wakes when something its WAIT selects is pending (R42). -/
def Cap.tryWake (hm : Nat) (n : Fin 320) (c : Cap) : Cap :=
  let t := c.strand n
  match t.st, t.waitMask with
  | .waiting, some m =>
    if (lowestSelected m t.pending t.timerFired).isSome then c.makeReady hm true n else c
  | _, _ => c

/-- Event `ev` reaches strand `n`: the pending bits of R43, and the wake of R42. -/
def Cap.notify (hm : Nat) (ev : BitVec 8) (n : Fin 320) (c : Cap) : Cap :=
  let t := c.strand n
  if t.st = .disabled then c
  else if hitMask ev t = 0 then c
  else (c.modStrand n fun t => { t with pending := t.pending ||| hitMask ev t }).tryWake hm n

/-! ## Resolution of a galley (R88, R98) -/

/-- What the outcome word resolves a galley to: lock-up when its bits [13:0] equal EXP (R88). -/
def outcomeOf (exp : BitVec 14) (word : Word) : Resolution :=
  if word.truncate 14 = exp then .lockUp else .pie word

/-- The galley of strand `n` resolves. A HALTED strand records the resolution; in every other state the strand becomes
READY with it pending, and a RUNNING strand's turn ends (R98). For class 0 a lock-up is an activation of its own (R100), and a
WAITING strand is woken; a pie that meets the strand in its activation goes on with it. DESIGN CHOICE: the cycles of a lock-up
and those that the strand issues after it count together, under the limit taken here (assumption log 57). -/
def Cap.resolve (hm : Nat) (r : Resolution) (n : Fin 320) (c : Cap) : Cap :=
  let t := c.strand n
  match t.galley with
  | none => c
  | some g =>
    if g.resolved.isSome then c
    else
      let c := c.modStrand n fun t => { t with galley := some { g with resolved := some r, back := t.st } }
      let fresh : Bool := r == .lockUp || t.st == .waiting
      match t.st with
      | .halted => c
      | .ready => c.modStrand n (Strand.activation hm fresh)
      | .disabled => c
      | .faulted => c
      | _ => c.makeReady hm fresh n

/-- Event `ev` with outcome `word` resolves the galley of strand `n` when it is the galley's resolving event; `call` is
the SVCA call whose completion raises it, and a galley tied to a call resolves on that call alone (R88). -/
def Cap.resolveOn (hm : Nat) (ev : BitVec 8) (word : Word) (call : Option Nat) (n : Fin 320) (c : Cap) : Cap :=
  match (c.strand n).galley with
  | none => c
  | some g =>
    if g.ev = ev ∧ (g.call = none ∨ g.call = call) then c.resolve hm (outcomeOf g.exp word) n else c

/-- Event `ev` with outcome `word` reaches strand `n`: it resolves the galley before it sets any pending bit; the completion
of a used-up call resolves none (R88). -/
def Cap.reach (hm : Nat) (ev : BitVec 8) (word : Word) (call : Option Nat) (spent : Bool) (n : Fin 320) (c : Cap) : Cap :=
  (if spent then c else c.resolveOn hm ev word call n).notify hm ev n

/-- Event `ev` with outcome `word` is raised: the strands take it, and wake, in ascending order (R48, R88). -/
def Cap.raise (hm : Nat) (ev : BitVec 8) (word : Word) (call : Option Nat) (spent : Bool) (c : Cap) : Cap :=
  allStrands.foldl (fun c n => c.reach hm ev word call spent n) c

/-- Hardware raises an event; it never waits (R112). -/
def raiseHw (ev : Nat) (word : Nat) (s : State) : State :=
  s.updCap (Cap.raise (hmaxNow s) (BitVec.ofNat 8 ev) (BitVec.ofNat 32 word) none false)

/-- Firmware raises an event; during a service pause it waits for the pause to end (R112). -/
def raiseFw (ev : Nat) (word : Nat) (s : State) : State :=
  if s.sys.pause then
    s.updSys fun y => { y with pausedEvents := y.pausedEvents ++ [(BitVec.ofNat 8 ev, BitVec.ofNat 32 word)] }
  else raiseHw ev word s

/-- The firmware events that waited are raised, in order (R112). -/
def raisePaused (s : State) : State :=
  (s.sys.pausedEvents.foldl (fun s e => raiseHw e.1.toNat e.2.toNat s) s).updSys
    fun y => { y with pausedEvents := [] }

/-! ## EV_CONFIG (R112) -/

/-- The registers of the settings that the forme reads at a port of its own: the limits of SAFE_LIMIT, the host's limit
behind ALLOC_GRANT, the ceiling of a channel behind ALLOC_CEIL. -/
def formeSetting (addr : Nat) : Bool :=
  [0x40020, 0x40028, 0x40050, 0x40060, 0x40070, 0x82060, 0x82064].contains addr ||
  (0x83000 ≤ addr && addr < 0x84000 && addr % 16 == 0)

/-- What the map of registers lists for the register at `addr`. -/
def listedAt (addr : Nat) (s : State) : NMap Nat := s.regs.filter fun e => e.1 / 32 == addr

/-- EV_CONFIG is raised when the host, as the module's master (02 R23), has changed such a register between `was` and `s`
(assumption log 55). -/
def noteSetting (addr : Nat) (was s : State) : State :=
  if (s.sys.role == .standalone || s.sys.role == .hub) && formeSetting addr && listedAt addr was != listedAt addr s then
    raiseFw 0x37 0 s
  else s

/-! ## The galley pool (R96) and fences (R95) -/

/-- Entries held by the galleys of class-0 strands, or of the other classes. -/
def Cap.poolUsed (cls0 : Bool) (c : Cap) : Nat :=
  c.strands.toList.foldl (fun k t =>
    match t.galley with
    | some g => if (t.cls == 0) == cls0 then k + g.held.length else k
    | none => k) 0

/-- Entries of a share of the pool: 128 for class 0, 896 for the rest (R96). -/
def poolShare (cls0 : Bool) : Nat := if cls0 then 128 else 896

/-- Entries of a share that are free. -/
def Cap.poolFree (cls0 : Bool) (c : Cap) : Nat := poolShare cls0 - c.poolUsed cls0

/-- A held entry is a write to `port`, and to `arg` where the port has an argument (R82, R95, R109). -/
def heldOn (port : Nat) (arg : Option Word) (h : Held) : Bool :=
  match h.kind with
  | .port p a _ => p == port && (match arg with | some x => x == a | none => true)
  | _ => false

/-- Changes what the galley of a strand holds. -/
def Strand.mapHeld (f : Held → Held) (t : Strand) : Strand :=
  { t with galley := t.galley.map fun g => { g with held := g.held.map f } }

/-- Changes what every galley holds, but that of the agent itself. -/
def mapHeldOfOthers (by_ : Option (Fin 320)) (f : Held → Held) (s : State) : State :=
  let change : (i : Nat) → Strand → i < 320 → Strand := fun i t h => if by_ = some ⟨i, h⟩ then t else t.mapHeld f
  s.updCap fun c => { c with strands := c.strands.mapFinIdx change }

/-- Fences the held writes to a port of every galley but that of the agent itself (R95). -/
def fence (port : Nat) (arg : Option Word) (by_ : Option (Fin 320)) (s : State) : State :=
  mapHeldOfOthers by_ (fun x => if heldOn port arg x then { x with fenced := true } else x) s

/-- A held OUT_ON write loses the bits of `mask` (R95). -/
def cutOutputs (mask : BitVec 12) (x : Held) : Held :=
  match x.kind with
  | .port p _ v => if p = 0x403 then { x with cut := x.cut ||| (mask &&& v.truncate 12) } else x
  | _ => x

/-- A turn-off of the outputs of `mask` fences those bits of every held OUT_ON write of other agents (R95, R170). -/
def fenceOutputs (mask : BitVec 12) (by_ : Option (Fin 320)) (s : State) : State :=
  mapHeldOfOthers by_ (cutOutputs mask) s

/-! ## Health (R16) -/

/-- A SYS_HEALTH bit is set: when it goes from 0 to 1, DB1 of mailbox 0 rings and EV_HEALTH is raised (R16). -/
def setHealth (b : Nat) (s : State) : State :=
  let f : Field := ⟨0x00000080, b, 1, 0⟩
  if getB s f then s else s |> setF f 1 |> ringOut 0 1 |> raiseFw 0x2C b

end Sys2Proof.Machine
end

