-- ==== Sys2Proof/Machine/Keys.lean ====
section
/-! DEFINITION. The key unit: the knot table, derivation, slots and their holders, and the cut (16 R340 to R351). -/
namespace Sys2Proof.Machine

/-! ## Result codes (06 R117) -/

def rcOk : Nat := 0x00
def rcArg : Nat := 0x08
def rcMode : Nat := 0x09
def rcPresence : Nat := 0x0A
def rcKeyCut : Nat := 0x10
def rcKeyBusy : Nat := 0x11
def rcKeyDest : Nat := 0x12
def rcKeyDepth : Nat := 0x13

/-! ## The knot table (R340) -/

/-- The root knot: never stored, never cut (R340). -/
def rootKnot : Knot := { parent := 0xFFF, depth := 0, mask := 0xFF, cutClass := 3, label := [] }

/-- The entry of knot `k`; none where it is free, and none for the root before it is derived. -/
def knotAt (k : Nat) (s : State) : Option Knot :=
  if k = 0 then (if s.key.derived then some rootKnot else none) else mapGet? s.key.knots k

/-- Changes the entries `ks` of the knot table, whose 2,048 entries a block are written by copy on write on both dies (19
R402, R405). -/
def updKnots (ks : List Nat) (f : NMap Knot → NMap Knot) (s : State) : State :=
  (s.updKey fun u => { u with knots := f u.knots }) |> copyOnWrite noTag (ks.map (0x3DC + · / 2048)).dedup

/-- A knot and every knot above it, `fuel` of them at most. -/
def lineageOf (s : State) : Nat → Nat → List Nat
  | 0, _ => []
  | fuel + 1, k =>
    if k = 0 then [0]
    else match mapGet? s.key.knots k with
      | some e => k :: lineageOf s fuel e.parent
      | none => [k]

/-- The lineage of a knot: no knot is deeper than 8 (R340). -/
def lineage (k : Nat) (s : State) : List Nat := lineageOf s 9 k

/-- S(k): the secret of a knot (R342); an imported knot's is the secret imported. -/
def secretOf (s : State) : Nat → Nat → List Byte
  | 0, _ => []
  | fuel + 1, k =>
    if k = 0 then beBytes Config.pufRoot.toNat 32
    else match mapGet? s.key.secrets k with
      | some v => beBytes v.toNat 32
      | none => match mapGet? s.key.knots k with
        | some e => kdf (secretOf s fuel e.parent) e.label (beBytes e.epoch 4 ++ [0xFF]) 256
        | none => []

/-- The secret of knot `k`. -/
def knotSecret (k : Nat) (s : State) : List Byte := secretOf s 9 k

/-- The working key derived under knot `k` (R342). -/
def workingKey (k : Nat) (label : List Byte) (engine : Nat) (wide : Bool) (s : State) : WorkKey :=
  let epoch := ((knotAt k s).map (·.epoch)).getD 0
  let bytes := kdf (knotSecret k s) label (beBytes epoch 4 ++ [BitVec.ofNat 8 engine]) (keyBits engine wide)
  { parent := k, epoch := epoch, lineage := lineage k s, label := label, engine := engine, wide := wide
    key := keyValue engine wide bytes }

/-! ## Slots and holders (R345) -/

/-- Slot `i` of the pool. -/
def slotAt (s : State) (i : Nat) : Slot := if h : i < 64 then s.key.slots.get ⟨i, h⟩ else {}

/-- Changes slot `i`. -/
def modSlot (i : Nat) (f : Slot → Slot) (s : State) : State :=
  if h : i < 64 then s.updKey fun u => { u with slots := u.slots.set i (f (u.slots.get ⟨i, h⟩)) h } else s

/-- Slot `i` is not retired. -/
def slotUsable (s : State) (i : Nat) : Bool := !s.key.retired.getLsbD i

/-- The usable slots (KEY_SLOTS.USABLE). -/
def usableSlots (s : State) : Nat := ((List.range 64).filter (slotUsable s)).length

/-- The usable slots that are not in use. -/
def freeSlots (s : State) : List Nat :=
  (List.range 64).filter fun i => slotUsable s i && (slotAt s i).work.isNone

/-- The slots in use in an engine (R345). -/
def engineUse (engine : Nat) (s : State) : Nat :=
  ((List.range 64).filter fun i => ((slotAt s i).work.map (·.engine)) == some engine).length

/-- A strand, not scrubbed out, holds slot `i`. -/
def strandHolds (i : Nat) (s : State) : Bool := s.key.holds.any fun h => h.slot == i && !h.cut

/-- Slot `i` is scrubbed; a verify that fails retires it (R15, R345). -/
def wipeSlot (fails : Bool) (i : Nat) (s : State) : State :=
  let s := modSlot i (fun _ => {}) s
  if fails then
    let s := s.updKey fun u => { u with retired := u.retired ||| BitVec.ofNat 64 (2 ^ i) }
    if usableSlots s < 56 then setHealth 4 s else s
  else s

/-- A slot whose last holder has let go is scrubbed; `fails` says whether the verify fails, and where the command does not
say it, that is a free value (R15, R345). -/
def settleSlot (fails : Option Bool) (i : Nat) (s : State) : State :=
  let x := slotAt s i
  if x.work.isNone || x.host || x.firmware || strandHolds i s then s
  else match fails with
  | some f => wipeSlot f i s
  | none => let r := freeBelow 2 s; wipeSlot (r.1 == 1) i r.2

/-- A strand lets go of what it holds (R345): DISABLED, restarted, faulted, or a Capstan reset. -/
def keysLetGo (n : Fin 320) (s : State) : State :=
  let mine := s.key.holds.filter (·.strand = n)
  let s := s.updKey fun u => { u with holds := u.holds.filter (·.strand ≠ n) }
  mine.foldl (fun s h => settleSlot none h.slot s) s

/-- Firmware lets go of a slot. -/
def firmwareLetsGo (i : Nat) (s : State) : State := s |> modSlot i (fun x => { x with firmware := false }) |> settleSlot none i

/-- One of a list of numbers; which, the manual leaves open. -/
def pickOne (l : List Nat) (s : State) : Nat × State :=
  let r := freeBelow l.length s
  (l.getD r.1 0, r.2)

/-- Puts a working key into a slot (R345): one in use that matches it, else a free slot; none when the engine already has
8 in use or no usable slot is free. -/
def place (w : WorkKey) (s : State) : Option Nat × State :=
  match (List.range 64).find? fun i => (slotAt s i).work == some w with
  | some i => (some i, s)
  | none =>
    if 8 ≤ engineUse w.engine s ∨ freeSlots s = [] then (none, s)
    else
      let r := pickOne (freeSlots s) s
      (some r.1, modSlot r.1 (fun _ => { work := some w }) r.2)

/-- Why a derivation under knot `k` for an engine is turned away (R343, R344, R350). -/
def deriveRefused (k : Nat) (label : List Byte) (engine : Nat) (s : State) : Option Nat :=
  match knotAt k s with
  | none => some rcArg
  | some e =>
    if e.state = .cut then some rcKeyCut
    else if label.length = 0 ∨ 64 < label.length then some rcArg
    else if !e.mask.getLsbD engine then some rcKeyDest
    else none

/-- Firmware's derivation: the slot, held by firmware. -/
def firmwareDerives (k : Nat) (label : List Byte) (engine : Nat) (wide : Bool) (s : State) : Nat × Option Nat × State :=
  match deriveRefused k label engine s with
  | some c => (c, none, s)
  | none =>
    match place (workingKey k label engine wide s) s with
    | (some i, s) => (rcOk, some i, modSlot i (fun x => { x with firmware := true }) s)
    | (none, s) => (rcKeyBusy, none, s)

/-! ## Creation (R343) -/

/-- The knot that a parent and a label name. -/
def knotNamed (parent : Nat) (label : List Byte) (s : State) : Option (Nat × Knot) :=
  s.key.knots.find? fun e => e.2.parent == parent && e.2.label == label

/-- The numbers of free knots. -/
def freeKnots (s : State) : List Nat := (List.range 4096).filter fun k => k != 0 && (mapGet? s.key.knots k).isNone

/-- Creates a knot, `imported` with a secret of its own: the code, and the knot (R343, R352). A CUTCLASS below the
parent's becomes the parent's. -/
def createKnot (parent : Nat) (label : List Byte) (mask : BitVec 8) (cutClass : Nat) (secret : Option (BitVec 256))
    (s : State) : Nat × Nat × State :=
  match knotAt parent s with
  | none => (rcArg, 0, s)
  | some p =>
    if p.state = .cut then (rcKeyCut, 0, s)
    else if label.length = 0 ∨ 16 < label.length then (rcArg, 0, s)
    else if 8 ≤ p.depth then (rcKeyDepth, 0, s)
    else if mask &&& ~~~p.mask ≠ 0 then (rcKeyDest, 0, s)
    else
      let cls := max cutClass p.cutClass
      let st : KnotState := if secret.isSome then .imported else .live
      let put (k : Nat) (epoch : Nat) (s : State) : State :=
        let e : Knot := { parent := parent, depth := p.depth + 1, state := st, mask := mask, cutClass := cls,
                          label := label, epoch := epoch }
        let s := updKnots [k] (fun m => mapPut m k e) s
        match secret with
        | some v => s.updKey fun u => { u with secrets := mapPut u.secrets k v }
        | none => s
      let full : Bool := secret.isSome && decide (256 ≤ s.key.secrets.length)
      match knotNamed parent label s with
        | some (k, e) => if e.state ≠ .cut then (rcOk, k, s) else if full then (rcKeyBusy, 0, s) else (rcOk, k, put k e.epoch s)
        | none =>
          if full ∨ freeKnots s = [] then (rcKeyBusy, 0, s)
          else
            let r := pickOne (freeKnots s) s
            (rcOk, r.1, put r.1 0 r.2)

/-! ## The cut (R349 to R351) -/

/-- Why a cut of knot `k` is turned away (R350, R351). -/
def cutRefused (k : Nat) (s : State) : Option Nat :=
  if k = 0 then some rcArg
  else match mapGet? s.key.knots k with
  | none => some rcArg
  | some e =>
    if e.state = .cut then some rcKeyCut
    else if s.sys.mode = .factory then none
    else if 3 ≤ e.cutClass then some rcArg
    else if e.cutClass = 1 ∧ !installer s ∧ !metrologist s then some rcPresence
    else if e.cutClass = 2 ∧ !metrologist s then some rcPresence
    else none

/-- The slots whose lineage contains `k`. -/
def slotsUnder (k : Nat) (s : State) : List Nat :=
  (List.range 64).filter fun i => ((slotAt s i).work.map (fun w => w.lineage.contains k)).getD false

/-- The cut itself (R349): the epoch rises, the knot is cut, its descendants are free, the slots of its lineage are
scrubbed; a subtree knot is live again at once (R341). -/
def cutKnot (k : Nat) (s : State) : State :=
  let gone := slotsUnder k s
  let below := (s.key.knots.map (·.1)).filter fun j => j != k && (lineage j s).contains k
  let st : KnotState := if k ≤ 6 then .live else .cut
  let s := updKnots (k :: below) (fun m =>
    (m.filter fun e => !below.contains e.1).map fun e =>
      if e.1 = k then (k, { e.2 with epoch := e.2.epoch + 1, state := st }) else e) s
  let s := s.updKey fun u => { u with
    secrets := u.secrets.filter fun e => e.1 != k && !below.contains e.1
    holds := u.holds.map fun h => if gone.contains h.slot then { h with cut := true } else h }
  gone.foldl (fun s i => let r := freeBelow 2 s; wipeSlot (r.1 == 1) i r.2) s

end Sys2Proof.Machine
end

