-- ==== Sys2Proof/Machine/Directory.lean ====
section
/-! DEFINITION. The credential directory: entries, home buckets, insertion, lookup, deltas (14 R314 to R323). -/
namespace Sys2Proof.Machine

def rcMiss : Nat := 0x21
def rcMulti : Nat := 0x22
def rcDirFull : Nat := 0x20
def rcDirStash : Nat := 0x27
def rcDeltaSeq : Nat := 0x28
def rcDeltaFormat : Nat := 0x29

/-! ## Entries (R314) -/

/-- Bytes 0x00 to 0x1B of an entry. -/
def DirEntry.body (e : DirEntry) : List Byte :=
  leBytes e.len 1 ++ (e.uid ++ List.replicate 7 0).take 7 ++ leBytes e.flags 2 ++ leBytes e.account 1 ++ leBytes e.gen 1 ++
  leBytes e.validFrom 4 ++ leBytes e.validTo 4 ++ leBytes e.ref 4 ++ leBytes e.group 4

/-- The 32 bytes of an entry. -/
def DirEntry.bytes (e : DirEntry) : List Byte := e.body ++ leBytes e.check 4

/-- The entry that 32 bytes spell. -/
def DirEntry.ofBytes (bs : List Byte) : DirEntry :=
  let n (o k : Nat) : Nat := leNat ((bs.drop o).take k)
  { len := n 0 1, uid := (bs.drop 1).take 7, flags := n 8 2, account := n 10 1, gen := n 11 1, validFrom := n 12 4
    validTo := n 16 4, ref := n 20 4, group := n 24 4, check := n 28 4 }

/-- Its CHECK holds. -/
def DirEntry.valid (e : DirEntry) : Bool := (crc32 e.body).toNat == e.check

/-- The entry in generation `g`, its CHECK made again. -/
def DirEntry.inGen (g : Nat) (e : DirEntry) : DirEntry :=
  let e := { e with gen := g }
  { e with check := (crc32 e.body).toNat }

/-- The UID bytes that count. -/
def DirEntry.uidBytes (e : DirEntry) : List Byte := e.uid.take e.len

/-- It is blocked, and it wants prepayment (FLAGS [0], [1]). -/
def DirEntry.blocked (e : DirEntry) : Bool := e.flags.testBit 0
def DirEntry.prepay (e : DirEntry) : Bool := e.flags.testBit 1

/-- Ledger time lies outside VALID_FROM to VALID_TO (R317). -/
def DirEntry.expired (now : Nat) (e : DirEntry) : Bool := now < e.validFrom || (e.validTo != 0 && e.validTo < now)

/-! ## Homes (R315) -/

/-- The first slot of the stash. -/
def stashBase : Nat := 1048576

/-- The hash key "DIRH" of the store subtree, in the HMAC engine. -/
def dirHashKey (s : State) : WorkKey := workingKey 5 [0x44, 0x49, 0x52, 0x48] engHmac true s

/-- The home buckets of a UID. -/
def homes (uid : List Byte) (s : State) : Nat × Nat :=
  let d := hmacBytes (beBytes (dirHashKey s).key 32) (leBytes uid.length 1 ++ uid)
  let b1 := leNat (d.take 2)
  let b2 := leNat ((d.drop 2).take 2)
  (b1, if b1 = b2 then b2 ^^^ 1 else b2)

/-- The slots of a bucket, and those of the stash. -/
def bucketSlots (b : Nat) : List Nat := (List.range 16).map (b * 16 + ·)
def stashSlots : List Nat := (List.range 8192).map (stashBase + ·)

/-- The entries held, by slot. -/
def dirAt (k : Nat) (s : State) : Option DirEntry := mapGet? s.rd.dir k

/-- The logical block of a slot: 2,048 entries a block, the stash behind the buckets (19 R402). -/
def dirBlock (k : Nat) : Nat := 0xA0 + k / 2048

/-- The contents of a block of the directory; an erased entry is free. -/
def dirContents (l : Nat) (s : State) : List Byte :=
  (List.range 2048).flatMap fun i => match dirAt ((l - 0xA0) * 2048 + i) s with
    | some e => e.bytes
    | none => List.replicate 32 0xFF

/-- The GCM tag of a block at write counter `n`: AES-256-GCM under the key "NOR" of the store subtree, the nonce the block
number and the counter; none outside the encrypted partitions (19 R406). -/
def storeTag (s : State) (l n : Nat) : BitVec 128 :=
  if encryptedBlock l then
    let key := beBytes (workingKey 5 [0x4E, 0x4F, 0x52] engStore true s).key 32
    BitVec.ofNat 128 (beNat ((Config.gcm key (beBytes l 4 ++ beBytes n 8) [] (dirContents l s)).drop 0x10000))
  else 0

/-- Changes the slots `ks` of the directory: each block of them is written by copy on write (19 R405, R406). -/
def updDir (ks : List Nat) (f : NMap DirEntry → NMap DirEntry) (s : State) : State :=
  let s := s.updRd fun r => { r with dir := f r.dir }
  copyOnWrite (storeTag s) (ks.map dirBlock).dedup s

/-- The entries held in the stash, in slot order. -/
def inStash (s : State) : NMap DirEntry := s.rd.dir.filter fun e => stashBase ≤ e.1

/-- The free slots of a list. -/
def freeOf (ks : List Nat) (s : State) : List Nat := ks.filter fun k => (dirAt k s).isNone

/-- Entries whose CHECK fails among those a search meets are treated as free: counted, and logged (R317). -/
def dropBad (ks : List Nat) (s : State) : State :=
  let bad := ks.filter fun k => ((dirAt k s).map (!·.valid)).getD false
  bad.foldl (fun s k =>
    s |> (fun s => s.updRd fun r => { r with dir := mapErase r.dir k }) |> incF Reg.DIR_STATUS_BAD |> logEvent 0xA 0 k) s

/-- The slots a search for a UID visits: both home buckets, then the stash. -/
def searchSlots (uid : List Byte) (s : State) : List Nat :=
  let h := homes uid s
  bucketSlots h.1 ++ bucketSlots h.2 ++ (inStash s).map (·.1)

/-- The slot whose entry names a UID. -/
def findUid (uid : List Byte) (s : State) : Option Nat :=
  (searchSlots uid s).find? fun k =>
    match dirAt k s with
    | some e => e.valid && e.len == uid.length && e.uidBytes == uid
    | none => false

/-- A search: entries with a failing CHECK are dropped on the way (R317). -/
def lookup (uid : List Byte) (s : State) : Option Nat × State :=
  let s := dropBad (searchSlots uid s) s
  (findUid uid s, s)

/-! ## Insertion (R315, R316) -/

/-- The other home of the entry in slot `k`, which stands in bucket `b`. -/
def otherHome (k b : Nat) (s : State) : Nat :=
  match dirAt k s with
  | some e => let h := homes e.uidBytes s; if h.1 = b then h.2 else h.1
  | none => b

/-- A path of moves that frees a place in bucket `b`: slots, each of whose entries moves to the next, the last of them
free; at most `fuel` moves (R315). Which entry moves, the manual leaves open. -/
def movePath : Nat → Nat → List Nat → State → Option (List Nat) × State
  | 0, _, _, s => (none, s)
  | fuel + 1, b, path, s =>
    match (bucketSlots b).filter fun k => !path.contains k with
    | [] => (none, s)
    | ks =>
      let r := pickOne ks s
      let k := r.1
      let dest := otherHome k b r.2
      match freeOf (bucketSlots dest) r.2 with
      | [] => movePath fuel dest (path ++ [k]) r.2
      | fs => let q := pickOne fs r.2; (some (path ++ [k, q.1]), q.2)

/-- Performs a path of moves, the last move first: each entry is in its new slot before its old one is free. -/
def runMoves : List Nat → State → State
  | a :: b :: rest, s =>
    let s := runMoves (b :: rest) s
    match dirAt a s with
    | some e => updDir [b, a] (fun m => mapErase (mapPut m b e) a) s
    | none => s
  | _, s => s

/-- A free place for a UID not yet held (R315): the slot. -/
def placeFor (uid : List Byte) (s : State) : Option Nat × State :=
  let h := homes uid s
  let f1 := freeOf (bucketSlots h.1) s
  let f2 := freeOf (bucketSlots h.2) s
  let fs := if f1.length < f2.length then f2 else f1
  if fs ≠ [] then let r := pickOne fs s; (some r.1, r.2)
  else
    match movePath 64 h.1 [] s with
    | (some (k :: path), s) => (some k, runMoves (k :: path) s)
    | (_, s) =>
      match freeOf stashSlots s with
      | [] => (none, s)
      | fs => let r := pickOne fs s; (some r.1, r.2)

/-- Puts an entry: the code, and the slot (R315, R316). An entry whose LEN is neither 4 nor 7 is not put. -/
def dirPut (e : DirEntry) (s : State) : Nat × Nat × State :=
  if e.len ≠ 4 ∧ e.len ≠ 7 then (rcMiss, 0, s)
  else
    match lookup e.uidBytes s with
    | (some k, s) => (rcOk, k, updDir [k] (fun m => mapPut m k e) s)
    | (none, s) =>
      if 1048576 ≤ s.rd.dir.length then (rcDirFull, 0, s)
      else match placeFor e.uidBytes s with
        | (some k, s) => (rcOk, k, updDir [k] (fun m => mapPut m k e) s)
        | (none, s) => (rcDirStash, 0, setF Reg.DIR_STATUS_REKEY 1 s)

/-- Deletes the entry of a UID: the code, and the slot. -/
def dirDelete (uid : List Byte) (s : State) : Nat × Nat × State :=
  match lookup uid s with
  | (some k, s) => (rcOk, k, updDir [k] (fun m => mapErase m k) s)
  | (none, s) => (rcMiss, 0, s)

/-- Performs one operation of a delta: the code. -/
def dirOp (o : DirOp) (s : State) : Nat × State :=
  if o.delete then let r := dirDelete o.entry.uidBytes s; (rcOk, r.2.2)
  else let r := dirPut o.entry s; (r.1, r.2.2)

/-! ## Delta images (R320) -/

/-- The header of a delta image. -/
structure DeltaHead where
  full : Bool
  last : Bool
  nOps : Nat
  baseSeq : Nat
  newSeq : Nat
  part : Nat
  parts : Nat

/-- The header that the first 32 bytes of an image spell; none where MAGIC, FORMAT, N_OPS or FLAGS is wrong. -/
def deltaHead (bs : List Byte) : Option DeltaHead :=
  let n (o k : Nat) : Nat := leNat ((bs.drop o).take k)
  let flags := n 6 2
  if bs.take 4 ≠ [0x44, 0x44, 0x4C, 0x54] ∨ n 4 2 ≠ 1 ∨ n 8 4 = 0 ∨ 14562 < n 8 4 ∨ 3 < flags ∨ flags = 2 then none
  else some { full := flags.testBit 0, last := flags.testBit 1, nOps := n 8 4, baseSeq := n 12 4, newSeq := n 16 4
              part := n 20 2, parts := n 22 2 }

/-- The CRC at 0x18 holds, taken over the image with that field as 0. -/
def deltaCrcOk (bs : List Byte) : Bool :=
  (crc32 (bs.take 24 ++ [0, 0, 0, 0] ++ bs.drop 28)).toNat == leNat ((bs.drop 24).take 4)

/-- The operations of an image: those whose OP is neither 1 nor 2 are none. -/
def deltaOps : Nat → List Byte → List DirOp
  | 0, _ => []
  | n + 1, bs =>
    let rest := deltaOps n (bs.drop 36)
    match bs.head? with
    | some 1 => { delete := false, entry := DirEntry.ofBytes ((bs.drop 4).take 32) } :: rest
    | some 2 => { delete := true, entry := DirEntry.ofBytes ((bs.drop 4).take 32) } :: rest
    | _ => rest

/-- The bytes of a delta image (R320). -/
def deltaBytes (full last : Bool) (part parts base new : Nat) (ops : List DirOp) : List Byte :=
  let opBytes := ops.flatMap fun o => leBytes (if o.delete then 2 else 1) 4 ++ o.entry.bytes
  let head := [0x44, 0x44, 0x4C, 0x54] ++ leBytes 1 2 ++ leBytes (ofBool full + 2 * ofBool last) 2 ++ leBytes ops.length 4 ++
    leBytes base 4 ++ leBytes new 4 ++ leBytes part 2 ++ leBytes parts 2
  let crc := crc32 (head ++ [0, 0, 0, 0] ++ leBytes 0 4 ++ opBytes)
  head ++ leBytes crc.toNat 4 ++ leBytes 0 4 ++ opBytes

/-- Reports the end of an apply (DIR_DELTA_STAT). -/
def deltaResult (code skipped : Nat) (s : State) : State :=
  s |> setF Reg.DIR_DELTA_STAT_RESULT code |> setF Reg.DIR_DELTA_STAT_SKIPPED (min 0xFFFF skipped)
    |> setB Reg.DIR_DELTA_STAT_SERIES s.rd.series.isSome

/-- DIR_SEQ takes a new value, and EV_DIR_UPDATE is raised (R321). -/
def dirSeqTo (v : Nat) (s : State) : State := s |> (fun s => s.updRd fun r => { r with seq := v }) |> raiseFw 0x34 (v % 16384)

/-- The highest generation held. -/
def highestGen (s : State) : Nat := s.rd.dir.foldl (fun g e => max g e.2.gen) 0

/-- The operations run in order: puts refused, and the code of the last refusal. -/
def runOps (ops : List DirOp) (s : State) : Nat × Nat × State :=
  ops.foldl (fun (r : Nat × Nat × State) o =>
    let q := dirOp o r.2.2
    if q.1 = rcOk ∨ q.1 = rcMiss then (r.1, r.2.1, q.2) else (r.1 + 1, q.1, q.2)) (0, rcOk, s)

/-- Applies a delta image (R320 to R322). -/
def applyDelta (bs : List Byte) (s : State) : State :=
  match deltaHead bs with
  | none => deltaResult rcDeltaFormat 0 s
  | some h =>
    let image := bs.take (32 + 36 * h.nOps)
    if !deltaCrcOk image then deltaResult rcDeltaFormat 0 s
    else
      let ops := deltaOps h.nOps (image.drop 32)
      if !h.full then
        if h.baseSeq ≠ s.rd.seq ∨ s.rd.series.isSome then deltaResult rcDeltaSeq 0 s
        else let r := runOps ops s; r.2.2 |> dirSeqTo h.newSeq |> deltaResult r.2.1 r.1
      else
        let series : Option DirSeries :=
          if h.part = 1 then some { gen := (highestGen s + 1) % 256, next := 1 } else s.rd.series
        match series with
        | none => deltaResult rcDeltaSeq 0 s
        | some se =>
          if se.next ≠ h.part then deltaResult rcDeltaSeq 0 s
          else
            let ops := ops.map fun o => { o with entry := if o.delete then o.entry else o.entry.inGen se.gen }
            let r := runOps ops s
            let s := r.2.2.updRd fun d => { d with series := if h.last then none else some { se with next := h.part + 1 } }
            let s := if h.last then
                s |> updDir ((s.rd.dir.filter fun e => e.2.gen != se.gen).map (·.1)) (fun m => m.filter fun e => e.2.gen == se.gen) |> setF Reg.DIR_STATUS_BAD 0 |> dirSeqTo h.newSeq
              else s
            deltaResult r.2.1 r.1 s

end Sys2Proof.Machine
end

