-- ==== Sys2Proof/Machine/Energy.lean ====
section
/-! DEFINITION. The energy path that the vehicle interface, the switching block and the supervisor share: what the pilot
line drives, immediate openings and disconnects, the judgement of the feedback, trips and their release
(07 R121 to R131, 08 R149 to R160, 09 R183 to R192). -/
namespace Sys2Proof.Machine

/-! ## Readings -/

/-- A coil output is on: the contactor part and the supervisor run (08, R193). -/
def coilOn (s : State) : Bool := s.sw.k1 || s.sw.k2

/-- Causes held (SAFE_STATUS.HELD). -/
def held (s : State) : Nat := getF s Reg.SAFE_STATUS_HELD

/-- Cause `bit` is held. -/
def holds (bit : Nat) (s : State) : Bool := (held s).testBit bit

/-- CONT_CFG.EN as it reads: 0 in REPEATER (R147). -/
def contEn (s : State) : Bool := getB s Reg.CONT_CFG_EN && s.sys.role != .repeater

/-- The coil output of K1, or of K2. -/
def coilOut (second : Bool) (s : State) : Nat :=
  if second then getF s Reg.CONT_CFG_K2_OUT else getF s Reg.CONT_CFG_K1_OUT

/-- The mask of the coil outputs; none with EN = 0 (R147). -/
def coilMask (s : State) : Nat := if contEn s then 2 ^ coilOut false s ||| 2 ^ coilOut true s else 0

/-- CONT_STATE (06, port 0x400). -/
def contState (s : State) : Nat :=
  ofBool s.sw.k1 + 2 * ofBool s.sw.k2 + 4 * ofBool (s.sw.mir1 == some true) + 8 * ofBool (s.sw.mir2 == some true) +
  16 * s.sw.vl.toNat + 256 * ofBool (holds 7 s) + 512 * ofBool s.sw.refused

/-- HLC_STATUS (06, port 0x300). -/
def hlcStatus (s : State) : Nat := s.hlc.status + 16 * s.hlc.proto

/-- The largest phase current, 0.1 A. -/
def largestI (s : State) : Nat := s.sw.phaseI.toList.foldl max 0

/-- The role modes, STANDBY and HANDOVER: the modes with the outlet in service under the forme (R21). -/
def inService (m : Mode) : Bool :=
  match m with
  | .standalone | .hub | .head | .repeater | .standby | .handover => true
  | _ => false

/-- OUTLET_HELD: a cause of R26 holds. -/
def outletHeld (s : State) : Bool :=
  getB s Reg.SYS_STATUS_UNCOMMISSIONED ||
  ((s.sys.role == .head || s.sys.role == .repeater) && !s.sys.paired) ||
  ((s.sys.role == .standalone || s.sys.role == .hub) && !getB s Reg.ALLOC_SA_WRITTEN &&
    getF s Reg.ALLOC_SA_DEF_DEFAULT == 0) ||
  (s.sys.role != .repeater && getB s Reg.PL_CFG_LEGAL_DISPLAY_REQ &&
    (getB s Reg.PL_FAULT_CRACK || getB s Reg.PL_FAULT_READBACK)) ||
  s.sys.anomHeld || holds 7 s ||
  (holds 8 s && (s.sw.tripWhy == some .closeFail || s.sw.tripWhy == some .mismatch)) ||
  s.sys.strandHeld || getB s Reg.PWR_STATUS_HOT_HELD

/-! ## The pilot line (R121 to R127) -/

/-- The coded duty in steps of 0.05 % for `a` in 0.1 A, rounded down; 0 below 6.0 A, where no current is offered
(R126). -/
def codedDuty (a : Nat) : Nat :=
  if a < 60 then 0
  else if a ≤ 510 then a * 10 / 3
  else min 2000 (max 1700 (a * 4 / 5 + 1280))

/-- The monitor reports B, C or D. -/
def vehicleThere (s : State) : Bool := 0xB ≤ getF s Reg.VI_PILOT_STATE && getF s Reg.VI_PILOT_STATE ≤ 0xD

/-- The supervisor keeps the pilot at state F while a trip is held: PEN and WELD throughout, and any other for its 3 s
(R186). -/
def tripHoldsF (s : State) : Bool := s.sup.trip3s || holds 4 s || holds 7 s

/-- PWM runs (R126): the monitor reports B, C or D, PILOT_PWM is 1, and a duty is coded or 5 % is selected. -/
def pwmWanted (s : State) : Bool :=
  vehicleThere s && s.pilot.pwmReq && (s.pilot.hlcReq || codedDuty s.pilot.alloc != 0)

/-- What the pilot line drives in service, in the order in which the causes take precedence: the undervoltage of R442, the
power fail, a trip, the 3 s after one, a held outlet with no session, the forme's PILOT_F, STANDBY, then PWM or steady
+12 V (R21, R26, R33, R126, R186). -/
def serviceLine (s : State) : Line :=
  if s.sys.role = .repeater ∨ s.sys.vsysLow ∨ s.sys.pfwConfirmed then .minus12
  else if held s ≠ 0 then (if tripHoldsF s then .minus12 else .plus12)
  else if s.sup.trip3s || (outletHeld s && openSession s == 0) || s.pilot.formeF then .minus12
  else if s.sys.mode = .standby then .plus12
  else if pwmWanted s then .pwm else .plus12

/-- What the pilot line drives (R21, R30, R126). -/
def pilotLine (s : State) : Line :=
  match s.sys.mode with
  | .noPower | .backup | .tagOnly => .hiZ
  | .boot => if s.pilot.pumps then .minus12 else .hiZ
  | .factory | .commission | .inert => .minus12
  | _ => if s.sys.booted then serviceLine s else .minus12

/-- The duty the line carries, in steps of 0.05 %. -/
def dutyNow (s : State) : Nat := if s.pilot.hlcReq then 100 else codedDuty s.pilot.alloc

/-- The monitor's counts when the line changes to `l`: none are kept while the module drives -12 V or nothing, and a line
without PWM has no low plateau (R123). -/
def Monitor.onLine (l : Line) (m : Monitor) : Monitor :=
  match l with
  | .pwm => m
  | .plus12 => { m with low := none, dutyRun := 0 }
  | .minus12 | .hiZ => { moves := m.moves }

/-- The line without PWM: VI_PILOT.PWM, HLC and DUTY read 0. -/
def driveSteady (l : Line) (s : State) : State :=
  (s.updPilot fun p => { p with line := l, mon := p.mon.onLine l })
    |> setB Reg.VI_PILOT_PWM false |> setB Reg.VI_PILOT_HLC false |> setF Reg.VI_PILOT_DUTY 0

/-- The line follows what it is to drive: PWM stops, and state F and +12 V come, at once; PWM starts, and its duty changes, at
the start of a period alone (R127). -/
def driveLine (s : State) : State :=
  match pilotLine s with
  | .pwm => if s.pilot.line = .pwm then s else driveSteady .plus12 s
  | l => driveSteady l s

/-- The start of a PWM period: PWM starts where it is due, and VI_PILOT.DUTY and HLC take the duty in force from here on
(R127). -/
def risingEdge (s : State) : State :=
  if pilotLine s = .pwm then
    (s.updPilot fun p => { p with line := .pwm })
      |> setB Reg.VI_PILOT_PWM true |> setB Reg.VI_PILOT_HLC s.pilot.hlcReq |> setF Reg.VI_PILOT_DUTY (dutyNow s)
  else s

/-- PWM stops: PILOT_PWM reads 0 (R127, R153, R186). -/
def stopPwm (s : State) : State :=
  (s.updPilot fun p => { p with pwmReq := false, deferPwm := false }) |> driveLine

/-- PWM stops by the supervisor, which fences what galleys hold on PILOT_PWM (R95). -/
def supervisorStop (s : State) : State := s |> stopPwm |> fence 0x201 none none

/-! ## Violations (R130, R131) -/

/-- Violation `k` begins: counted, and logged with the value that triggered it (R131). -/
def violation (k value : Nat) (s : State) : State := s |> incF (Reg.VI_VIOL_COUNT k) |> logViolation 2 k value

/-- A lasting violation begins, or goes on uncounted (R131). -/
def lastingBegins (k value : Nat) (s : State) : State :=
  if s.pilot.lasting.contains k then s
  else s |> (fun s => s.updPilot fun p => { p with lasting := k :: p.lasting }) |> violation k value

/-- A lasting violation has ended. -/
def lastingEnds (k : Nat) (s : State) : State := s.updPilot fun p => { p with lasting := p.lasting.filter (· ≠ k) }

/-! ## The arm (R149) and the outputs of the coils -/

/-- The arm is cleared other than by a close: for R95 a safe-direction operation by the supervisor on CONT_CLOSE_REQ. -/
def clearArm (s : State) : State := s |> setF Reg.CONT_STATUS_ARMED 0 |> fence 0x401 none none

/-- Output `n`. -/
def outCh (n : Fin 12) (s : State) : OutCh := s.sw.outs.get n

/-- Changes output `n`. -/
def modOut (n : Fin 12) (f : OutCh → OutCh) (s : State) : State :=
  s.updSw fun w => { w with outs := w.outs.set n.val (f (w.outs.get n)) n.isLt }

/-- OUT8 with OUT9 (`upper` false) or OUT10 with OUT11 form a bridge: by OUT_CFG, or claimed by the lock drive (R169). -/
def bridged (upper : Bool) (s : State) : Bool :=
  getB s (Reg.OUT_CFG_BRIDGE (if upper then 10 else 8)) ||
  (getB s Reg.VI_LOCK_EN && getB s Reg.VI_LOCK_PAIR == upper)

/-- The other output of the H-bridge pair to which output `n` belongs; none outside a bridge (R169). -/
def partner (n : Fin 12) (s : State) : Option (Fin 12) :=
  match n with
  | 8 => if bridged false s then some 9 else none
  | 9 => if bridged false s then some 8 else none
  | 10 => if bridged true s then some 11 else none
  | 11 => if bridged true s then some 10 else none
  | _ => none

/-- Output `n` belongs to an H-bridge pair, whose cells absorb no clamp energy (R167, R169). -/
def inBridge (n : Fin 12) (s : State) : Bool := (partner n s).isSome

/-- The cells of output `n` by its own command and, in a bridge, that of its partner: (1, 0) drives its high side against the
partner's low side, (1, 1) both low sides, (0, 0) nothing (R169). A cell that has shut off hot does not conduct. -/
def OutCh.drive (o : OutCh) (partner : Option OutCh) : OutCh :=
  match partner with
  | none => { o with high := o.on && !o.hot, low := false }
  | some p => { o with high := o.on && !p.on && !o.hot, low := p.on && !o.hot }

/-- Changes output `n`, and its cells and its partner's follow. -/
def switchOut (n : Fin 12) (f : OutCh → OutCh) (s : State) : State :=
  let s := modOut n f s
  match partner n s with
  | none => modOut n (fun o => o.drive none) s
  | some m =>
    let (a, b) := (outCh n s, outCh m s)
    s |> modOut n (fun o => o.drive (some b)) |> modOut m fun o => o.drive (some a)

/-- The measured clamp energy of one turn-off, a free value, goes to the conducting cell's lifetime total (R167). -/
def clampEnergy (n : Fin 12) (s : State) : State :=
  if inBridge n s then s
  else
    let e := Config.clampMj s.sw.clampCtr
    s.updSw fun w =>
      if w.onB.getLsbD n.val then { w with cellB := w.cellB.set n.val (w.cellB.get n + e) n.isLt, clampCtr := w.clampCtr + 1 }
      else { w with cellA := w.cellA.set n.val (w.cellA.get n + e) n.isLt, clampCtr := w.clampCtr + 1 }

/-- Output `n` turns off; a switching edge (R162, R167). A cell that has shut off already has no clamp event left. -/
def outOff (n : Fin 12) (s : State) : State :=
  if (outCh n s).on then
    (if (outCh n s).hot then s else clampEnergy n s) |> boundary (Reg.OUT_CFG_SLEW n.val) |> switchOut n fun o => { o with on := false, hot := false, inrush := false }
  else s

/-- Output `n` turns on: its boundaries, the move of a worn cell A to cell B (R168), and its inrush window (R162). An
output that is on already stays as it is. -/
def outOn (n : Fin 12) (s : State) : State :=
  if (outCh n s).on then s
  else
    let s := if !s.sw.onB.getLsbD n.val && 36000000 ≤ s.sw.cellA.get n then
        s |> (fun s => s.updSw fun w => { w with onB := w.onB ||| BitVec.ofNat 12 (2 ^ n.val) })
          |> raiseHw 0x14 n.val |> setHealth 2
      else s
    s |> boundaries [Reg.OUT_CFG_SLEW n.val, Reg.OUT_CFG_RANGE n.val, Reg.OUT_CFG_OL_TH n.val, Reg.OUT_TIMING_INRUSH_T]
      |> switchOut n fun o => { o with on := true, hot := false, inrush := true }

/-- The output that drives the coil of K1, or of K2. -/
def coilOutput (second : Bool) (s : State) : Option (Fin 12) :=
  let n := coilOut second s
  if h : n < 12 then some ⟨n, h⟩ else none

/-- A coil is switched on or off with its output (R147). -/
def setCoil (second on : Bool) (s : State) : State :=
  let s := match coilOutput second s with
    | some n => if on then outOn n s else outOff n s
    | none => s
  s.updSw fun w => if second then { w with k2 := on } else { w with k1 := on }

/-! ## Wear (R155, R156) -/

/-- CONT_RATED × 1000; 0 while no rating is set. -/
def ratedBreaks (s : State) : Nat := getF s Reg.CONT_RATED_RATED * 1000

/-- The duty contactor of the next cycle is K2 (CONT_STATUS.NEXT_DUTY): a contactor at its rated count yields to the
other, until both have reached it (R155). -/
def nextDuty2 (s : State) : Bool :=
  let r := ratedBreaks s
  let worn1 := r != 0 && r ≤ s.sw.wear1
  let worn2 := r != 0 && r ≤ s.sw.wear2
  if worn1 && !worn2 then true else if worn2 && !worn1 then false else s.sw.wearDuty

/-- Both contactors have reached their rated break count (R155). -/
def wornCheck (s : State) : State :=
  if ratedBreaks s ≠ 0 ∧ ratedBreaks s ≤ s.sw.wear1 ∧ ratedBreaks s ≤ s.sw.wear2 then setHealth 6 s else s

/-- One break is counted for K1 or K2 with the current `i` (R156). -/
def countBreak (second : Bool) (i : Nat) (s : State) : State :=
  let f : Field := if second then Reg.CONT_LASTBRK_K2 else Reg.CONT_LASTBRK_K1
  let bump (w : Sw) : Sw := if second then { w with wear2 := satInc 0xFFFFFFFF w.wear2 } else { w with wear1 := satInc 0xFFFFFFFF w.wear1 }
  (s.updSw bump) |> setF f (min 0xFFFF i) |> wornCheck

/-- The RWS fields whose boundary is the next opening, and those of the next controlled or pilot disconnect. -/
def openingBoundary (s : State) : State :=
  boundaries [Reg.CONT_TIMING_MIR_DEB, Reg.CONT_TIMING_MIR_T, Reg.CONT_TIMING_OPEN_GAP] s

/-! ## Openings (R152, R156, R160) -/

/-- An immediate opening of the contactors named, at once; each that was commanded closed counts one break, and a
sequence under way ends without completing (R152, R156, R160). -/
def openNow (first second : Bool) (s : State) : State :=
  let a := first && s.sw.k1
  let b := second && s.sw.k2
  if !a && !b then s
  else
    let i := largestI s
    let s := s |> openingBoundary |> clearArm
    let s := if a then s |> countBreak false i |> setCoil false false else s
    let s := if b then s |> countBreak true i |> setCoil true false else s
    s.updSw fun w => { w with
      stage := .feedback, disc := none, discAfter := none, reported := false, bsClosed := w.bsClosed && (w.k1 || w.k2) }

/-- A disconnect starts from the closed pair (R153 steps 1 and 2): a pilot disconnect clears the arm alone and waits for
no current; a controlled disconnect also stops PWM, but for that of violation D_NOVENT (R130). -/
def beginDisc (k : DiscKind) (s : State) : State :=
  let s := s |> openingBoundary |> boundary Reg.CONT_CFG_ARC_LEAD |> clearArm
    |> fun s => s.updSw fun w => { w with reported := false }
  if k = .pilot then s.updSw fun w => { w with stage := .opening, disc := some .pilot, discAfter := none }
  else
    let s := s |> boundaries [Reg.CONT_DISC_DISC_WAIT, Reg.CONT_DISC_DISC_I]
    let s := if k = .controlled then stopPwm s else s
    s.updSw fun w => { w with stage := .currentWait, disc := some k, discAfter := none }

/-- A disconnect is asked for: what comes of it at each point of a sequence (R153, R160). With the pair open, a
controlled disconnect is its first step alone. -/
def startDisc (k : DiscKind) (s : State) : State :=
  match s.sw.stage with
  | .closed | .split => beginDisc k s
  | .closing => openNow true true (if k = .controlled then stopPwm s else s)
  | .closing2 =>
    s.updSw fun w => { w with discAfter := some (if w.discAfter = some .pilot then .pilot else k) }
  | .currentWait => if k = .pilot then s.updSw fun w => { w with stage := .opening } else s
  | .opening | .dutyOff | .feedback => s
  | .opened => if k = .controlled then s |> clearArm |> stopPwm else s

/-! ## The HLC session's end (R144) -/

/-- HLC_STATUS [2:0] moves, and EV_HLC is raised (R444). -/
def hlcMove (st : Nat) (s : State) : State :=
  let s := s.updHlc fun h => { h with status := st }
  raiseFw 0x30 (hlcStatus s) s

/-- The TLS session closes: firmware lets go of its slot (16 R345). -/
def dropTls (s : State) : State :=
  match s.hlc.tlsSlot with
  | some i => firmwareLetsGo i (s.updHlc fun h => { h with tls := false, tlsSlot := none })
  | none => s.updHlc fun h => { h with tls := false }

/-- The HLC session ends with a REASON (R144): EV_HLC_ESTOP when a coil is commanded on and the path is not SessionStop,
and a contactor that is closed starts a controlled disconnect (R152). The TLS connection stays but for the rows of R143 that
close it; a TLS session that has ended, and a vehicle that has left the line, close it too (assumption log 26). -/
def hlcEnd (reason : Nat) (s : State) : State :=
  let was := s.hlc.status
  if was = 0 ∨ was = 5 then s
  else
    let clear (h : Hlc) : Hlc := { h with pend := none, certPend := false }
    let s := (if reason = 3 ∨ reason = 4 then dropTls s else s).updHlc clear |> setF Reg.VI_HLC_REASON reason |> hlcMove 5
    if was = 4 ∧ coilOn s then
      (if reason = 0 then s else raiseFw 0x31 0 s) |> startDisc .controlled
    else s

/-! ## Overcurrent threshold (R183, R184) -/

/-- The threshold that belongs to an allocated current, 0.1 A, rounded down (R183). -/
def thresholdFor (a : Nat) (s : State) : Nat :=
  let a := if !s.pilot.hlcReq && a < 60 then 0 else a
  min 0x3FFF (a * (100 + inForce s Reg.SAFE_OC_CFG_OC_PCT) / 100 + inForce s Reg.SAFE_OC_CFG_OC_ADD)

/-- The threshold in force: during the grace time that of the value before the lowering (R184). -/
def threshold (s : State) : Nat := thresholdFor (if s.sup.graceOn then s.sup.graceA else s.pilot.alloc) s

/-! ## Trips (R186, R192) -/

/-- A supervisor trip, in one step, but for the report of state F: the bits, the arm, PWM, the immediate opening, the
pilot at -12 V for 3 s, EV_TRIP, the doorbell, and the counts and log entries of R192. -/
def tripCore (bit value : Nat) (s : State) : State :=
  let s := s |> setF Reg.SAFE_STATUS_HELD (held s ||| 2 ^ bit)
    |> setF Reg.SAFE_STATUS_SEEN (getF s Reg.SAFE_STATUS_SEEN ||| 2 ^ bit)
    |> setF Reg.SAFE_LAST_CAUSE bit |> clearArm
    |> (fun s => s.updSup fun u => { u with trip3s := true, reclOff := u.reclOff &&& ~~~(BitVec.ofNat 16 (2 ^ bit)) })
    |> supervisorStop |> openNow true true |> driveLine
    |> raiseHw 0x08 bit |> ringOut 2 0 |> logEvent 1 bit value |> incF (Reg.SAFE_TRIPCNT_COUNT bit)
  if bit = 0 ∨ bit = 1 ∨ bit = 5 ∨ bit = 6 then logViolation 1 bit value s else s

/-- The monitor's report moves to `st` (0xA to 0xF): EV_PILOT, and what follows from A, E or F: the arm is cleared (R149)
and an HLC session ends (R144). At A the plug-in is over (R137, R191). -/
def report (st : Nat) (s : State) : State :=
  let s := s |> setF Reg.VI_PILOT_STATE st |> raiseHw 0x00 st
  let s := if st = 0xA ∨ st = 0xE ∨ st = 0xF then s |> clearArm |> hlcEnd 4 else s
  if st = 0xA then (s.updHlc fun h => { h with matched := false }) |> setF Reg.SAFE_RECLOSE_CFG_COUNT 0 else s

/-- The monitor's report moves from `was` to `st` with a contactor commanded closed: from C or D to B a pilot disconnect,
to A, E or F a trip for a pilot fault (R129). A trip already held, or the power fail of R33, has opened the contactors
itself. -/
def reportActs (was st : Nat) (s : State) : State :=
  if coilOn s && (was == 0xC || was == 0xD) then
    if st = 0xB then startDisc .pilot s
    else if st = 0xC ∨ st = 0xD then s
    else if st = 0xF ∧ (held s ≠ 0 ∨ s.sys.pfwConfirmed) then s
    else tripCore 5 st (s.updSup fun u => { u with pilotWhy := 0 })
  else s

/-- The line is driven, and a change to state F is reported in the same cycle (R123). -/
def settleLine (s : State) : State :=
  let s := driveLine s
  let was := getF s Reg.VI_PILOT_STATE
  if s.pilot.line = .minus12 ∧ was ≠ 0xF then s |> report 0xF |> reportActs was 0xF |> driveLine else s

/-- The lasting pilot conditions: D_NOVENT, state D with VENT_OK = 0; C_NO_PWM, C or D with neither PWM nor an HLC
session (R130). -/
def pilotCondition (k : Nat) (s : State) : Bool :=
  let st := getF s Reg.VI_PILOT_STATE
  if k = 8 then st == 0xD && !getB s Reg.VI_CFG_VENT_OK
  else (st == 0xC || st == 0xD) && s.pilot.line != .pwm && s.hlc.status != 4

/-- The anomaly code a trip row holds until its trip clears (R130). -/
def tripAnom (s : State) : Bool := holds 5 s && 1 ≤ getF s Reg.VI_PILOT_ANOM && getF s Reg.VI_PILOT_ANOM ≤ 6

/-- A non-trip anomaly code is shown while no trip row holds one. -/
def showAnom (k : Nat) (s : State) : State := if tripAnom s then s else setF Reg.VI_PILOT_ANOM k s

/-- D_NOVENT or C_NO_PWM begins or ends: counted, logged and announced when it begins, with a controlled disconnect of a
closed pair, in which D_NOVENT keeps PWM (R130, R131). -/
def settleLasting (k : Nat) (s : State) : State :=
  let now := pilotCondition k s
  if now && !s.pilot.lasting.contains k then
    let s := s |> lastingBegins k (getF s Reg.VI_PLATEAU_HIGH) |> showAnom k |> raiseHw 0x01 k
    if coilOn s then startDisc (if k = 8 then .noVent else .controlled) s else s
  else if !now && s.pilot.lasting.contains k then
    let s := lastingEnds k s
    if getF s Reg.VI_PILOT_ANOM = k then setF Reg.VI_PILOT_ANOM (if s.pilot.lasting.contains (17 - k) then 17 - k else 0) s else s
  else s

/-- After anything that bears on the pilot: the line follows, state F is reported, and the lasting conditions begin or
end. -/
def settle (s : State) : State := s |> settleLine |> settleLasting 8 |> settleLasting 9 |> settleLine

/-- A supervisor trip (R186). -/
def trip (bit value : Nat) (s : State) : State := s |> tripCore bit value |> settle

/-- A cause is released: EV_TRIP_CLEAR and the doorbell; the pilot leaves state F or steady +12 V only when none is held
(R187). Releasing closes no contactor and starts no PWM (R190). -/
def release (bit : Nat) (s : State) : State :=
  if !holds bit s then s
  else
    let s := s |> setF Reg.SAFE_STATUS_HELD (held s - 2 ^ bit)
    let s := if bit = 5 then
        (s.updSup fun u => { u with pilotWhy := 0 }) |> (fun s => if getF s Reg.VI_PILOT_ANOM ≤ 6 then setF Reg.VI_PILOT_ANOM 0 s else s)
      else if bit = 7 then
        (s.updSw fun w => { w with weld1 := false, weld2 := false }).updSup fun u => { u with savedWeld := 0 }
      else if bit = 8 then
        (s.updSw fun w => { w with tripWhy := none }).updSup fun u => { u with savedMismatch := false }
      else s
    s |> raiseHw 0x09 bit |> ringOut 2 1 |> settle

/-! ## Judging the feedback (R157 to R159) -/

/-- What a judgement finds (R157). -/
inductive Finding where
  | openConfirmed
  | closedConfirmed
  | supplyAbsent
  /-- Contactors found welded, and whether FB_MISMATCH comes with it. -/
  | weld (first second mismatch : Bool)
  | mismatch
  /-- CLOSE_FAIL during a close, DROPOUT after one. -/
  | notClosed
  /-- The table has no row for the readings. -/
  | noRow
  deriving DecidableEq, Repr

/-- Both commanded open (R157); `o1`, `o2`: the mirrors read open. -/
def judgeOpen (o1 o2 live supply : Bool) : Finding :=
  match o1, o2, live, supply with
  | true, true, false, _ => .openConfirmed
  | true, true, true, _ => .mismatch
  | false, true, false, _ => .weld true false false
  | true, false, false, _ => .weld false true false
  | false, true, true, _ => .weld true false true
  | true, false, true, _ => .weld false true true
  | false, false, true, true => .weld true true false
  | false, false, false, true => .mismatch
  | false, false, false, false => .weld true true false
  | false, false, true, false => .weld true true true

/-- Both commanded closed (R157). -/
def judgeClosed (o1 o2 live supply : Bool) : Finding :=
  match o1, o2, live, supply with
  | false, false, true, true => .closedConfirmed
  | false, false, false, false => .supplyAbsent
  | false, false, false, true => .notClosed
  | false, false, true, false => .noRow
  | _, _, _, _ => .notClosed

/-- One commanded open, whose mirror reads open as `o`, and the other closed, whose mirror reads open as `oc` (R157);
`second` when it is K2 that is commanded open. -/
def judgeSplit (second o oc live supply : Bool) : Finding :=
  match oc, o, live, supply with
  | true, _, _, _ => .notClosed
  | false, true, false, _ => .openConfirmed
  | false, true, true, _ => .mismatch
  | false, false, true, true => .weld (!second) second false
  | false, false, false, true => .mismatch
  | false, false, false, false => .weld (!second) second false
  | false, false, true, false => .noRow

/-- The finding for the present command and readings; none until both mirrors have a reading (R148). -/
def finding (s : State) : Option Finding :=
  match s.sw.mir1, s.sw.mir2 with
  | some o1, some o2 =>
    let live := s.sw.vl != 0
    let sup := s.sw.supply != 0
    some (match s.sw.k1, s.sw.k2 with
      | false, false => judgeOpen o1 o2 live sup
      | true, true => judgeClosed o1 o2 live sup
      | false, true => judgeSplit false o1 o2 live sup
      | true, false => judgeSplit true o2 o1 live sup)
  | _, _ => none

/-- R157 gives open confirmed for the pair now. -/
def openOk (s : State) : Bool := !coilOn s && finding s == some .openConfirmed

/-- CONTACTOR is tripped for `why` (R159); FB_MISMATCH is kept in the configuration partition (R189). -/
def contactorTrip (why : ConTrip) (s : State) : State :=
  let s := s.updSw fun w => { w with tripWhy := some why }
  let s := if why = .mismatch then s.updSup fun u => { u with savedMismatch := true } else s
  s |> openNow true true |> trip 8 (contState s)

/-- FB_MISMATCH (R159); one already held is not set again. -/
def foundMismatch (s : State) : State :=
  let s := setF Reg.CONT_FAULT_FB_MISMATCH 1 s
  if holds 8 s && s.sw.tripWhy == some .mismatch then s else contactorTrip .mismatch s

/-- A weld (R158): the flags, EV_WELD for each contactor newly found welded, K1 first, and the weld trip. -/
def foundWeld (first second : Bool) (s : State) : State :=
  let new1 := first && !s.sw.weld1
  let new2 := second && !s.sw.weld2
  if !new1 && !new2 then s
  else
    let s := s.updSw fun w => { w with weld1 := w.weld1 || first, weld2 := w.weld2 || second }
    let s := s.updSup fun u => { u with savedWeld := BitVec.ofNat 2 (ofBool s.sw.weld1 + 2 * ofBool s.sw.weld2) }
    let s := if new1 then s |> setF Reg.CONT_FAULT_WELD_K1 1 |> raiseHw 0x11 1 else s
    let s := if new2 then s |> setF Reg.CONT_FAULT_WELD_K2 1 |> raiseHw 0x11 2 else s
    trip 7 (contState s) s

/-- DROPOUT (R159): counted as an immediate opening of a contactor still closed; one that has fallen open has its coil
turned off with it, uncounted. -/
def foundDropout (s : State) : State :=
  let s := s |> setF Reg.CONT_FAULT_DROPOUT 1 |> openNow (s.sw.mir1 != some true) (s.sw.mir2 != some true)
  let s := s |> setCoil false false |> setCoil true false |> openingBoundary
  let s := s.updSw fun w => { w with stage := .feedback, disc := none, discAfter := none, bsClosed := false, reported := false }
  contactorTrip .dropout s

/-- The port writes that waited for open confirmed apply, or are discarded (R160). -/
def deferred (apply : Bool) (s : State) : State :=
  let pwm := s.pilot.deferPwm && apply && held s == 0
  let hlc := if apply && held s == 0 then s.pilot.deferHlc.getD s.pilot.hlcReq else s.pilot.hlcReq
  (s.updPilot fun p => { p with pwmReq := p.pwmReq || pwm, hlcReq := hlc, deferPwm := false, deferHlc := none }) |> settle

/-- Open confirmed: reported once through EV_CONT; NEXT_DUTY changes over after a controlled or pilot disconnect (R155);
deferred writes apply (R160); a DROPOUT clears (R186 bit 8). -/
def confirmOpen (s : State) : State :=
  let s := if s.sw.reported then s
    else
      let swap := s.sw.disc.isSome
      let s := s.updSw fun w => { w with reported := true, disc := none, wearDuty := if swap then !w.wearDuty else w.wearDuty }
      s |> (fun s => s.updSw fun w => { w with stage := if w.k1 || w.k2 then .split else .opened })
        |> (fun s => raiseHw 0x10 (contState s) s) |> deferred true
  let s := s.updSw fun w => { w with stage := if w.k1 || w.k2 then .split else .opened }
  if holds 8 s && s.sw.tripWhy == some .dropout && !coilOn s then release 8 s else s

/-- The outcome of a judgement takes effect (R157 to R159). -/
def actOn (f : Finding) (s : State) : State :=
  match f with
  | .openConfirmed => confirmOpen s
  | .closedConfirmed | .supplyAbsent | .noRow => s
  | .mismatch => foundMismatch s
  | .weld a b m => let s := foundWeld a b s; if m then foundMismatch s else s
  | .notClosed => foundDropout s

/-- The judgement MIR_T after the last coil-off (R157): an opening not confirmed ends its disconnect, and the writes that
waited for it are discarded (R160). -/
def judgeOpening (s : State) : State :=
  match finding s with
  | none => s
  | some f =>
    if f = .openConfirmed then actOn f s
    else s |> (fun s => s.updSw fun w => { w with disc := none, stage := if w.k1 || w.k2 then .split else .opened })
      |> deferred false |> actOn f

/-- A close is confirmed: both mirrors read closed and every supply-side live phase is live on the load side
(R151 step 3). -/
def closeHolds (s : State) : Bool :=
  s.sw.mir1 == some false && s.sw.mir2 == some false && (s.sw.supply &&& ~~~s.sw.vl) == 0

/-- Step 3 of a close: EV_CONT, then a disconnect that waited for it (R151, R160). -/
def tryConfirm (s : State) : State :=
  if s.sw.stage = .closing2 ∧ closeHolds s then
    let s := s.updSw fun w => { w with stage := .closed }
    let s := raiseHw 0x10 (contState s) s
    match s.sw.discAfter with
    | some k => beginDisc k s
    | none => s
  else s

/-- Metrology's live supply-side phases (R148). -/
def seeSupply (live : BitVec 3) (s : State) : State := s.updSw fun w => { w with supply := live }

/-- A change of the feedback is judged: continuously while the pair, or one contactor, is commanded open or closed; an
opening under way is confirmed as soon as the readings confirm it (R157, R159); the supervisor needs PD2 (R171). -/
def feedbackChanged (s : State) : State :=
  if !domainOn 2 s then s
  else match s.sw.stage with
  | .closing | .closing2 => tryConfirm s
  | .feedback => (match finding s with
    | some .openConfirmed => confirmOpen s
    | some .notClosed => foundDropout s
    | _ => s)
  | .opened | .closed | .split => (match finding s with | some f => actOn f s | none => s)
  | .currentWait | .opening | .dutyOff => (match finding s with | some .notClosed => foundDropout s | _ => s)

/-! ## The allocated current (R125, R184, R185) -/

/-- The cable rating: PP_CODE, or TETH_A for a tethered cable (R125, R133). -/
def cableRating (s : State) : Nat :=
  if getB s Reg.VI_CFG_TETHERED then getF s Reg.VI_RATING_TETH_A else getF s Reg.VI_PP_CODE

/-- The ceiling of the outlet (R125). -/
def ceiling (s : State) : Nat :=
  if cableRating s = 0 then 0 else min (getF s Reg.VI_RATING_RATED_A) (cableRating s)

/-- ALLOC_CURRENT takes a value: the overcurrent settings reach their boundary, a lowering starts or restarts the grace
time with the threshold of the value before it, and a raise ends it (R184, R185). -/
def allocate (v : Nat) (s : State) : State :=
  let old := s.pilot.alloc
  let s := boundaries [Reg.SAFE_OC_CFG_OC_T, Reg.SAFE_OC_CFG_OC_GRACE, Reg.SAFE_OC_CFG_OC_ADD, Reg.SAFE_OC_CFG_OC_PCT] s
  let s := s.updPilot fun p => { p with alloc := v }
  let s := if v < old then s.updSup fun u => { u with graceOn := true, graceWarned := false, graceA := old }
    else if old < v then s.updSup fun u => { u with graceOn := false } else s
  settle s

/-- The pilot block lowers ALLOC_CURRENT to a ceiling that has fallen below it, a safe-direction operation by the
supervisor (R125). -/
def lowerToCeiling (s : State) : State :=
  if ceiling s < s.pilot.alloc then s |> allocate (ceiling s) |> fence 0x20B none none else s

end Sys2Proof.Machine
end

