-- ==== Sys2Proof/Machine/Calendar.lean ====
section
/-! DEFINITION. The tariff calendar: its image and the check of it, calendar time, and the tariff in force
(11 R224 to R226). -/
namespace Sys2Proof.Machine

/-! ## Dates -/

/-- A date: year, month 1 to 12, day 1 to 31. -/
structure Date where
  year : Nat
  month : Nat
  day : Nat
  deriving DecidableEq, Repr

/-- The Gregorian date of a day counted from 1970-01-01. -/
def dateOfDay (days : Nat) : Date :=
  let z := days + 719468
  let era := z / 146097
  let doe := z % 146097
  let yoe := (doe - doe / 1460 + doe / 36524 - doe / 146096) / 365
  let doy := doe - (365 * yoe + yoe / 4 - yoe / 100)
  let mp := (5 * doy + 2) / 153
  let m := if mp < 10 then mp + 3 else mp - 9
  { year := yoe + era * 400 + (if m ≤ 2 then 1 else 0), month := m, day := doy - (153 * mp + 2) / 5 + 1 }

/-- Monday is 0; 1970-01-01 was a Thursday. -/
def weekdayOf (days : Nat) : Nat := (days + 3) % 7

/-- A month and a day in order of date. -/
def dateKey (m d : Nat) : Nat := m * 32 + d

/-! ## The tariff in force (R224) -/

/-- The UTC offset in force at ledger time `t`, minutes. -/
def Calendar.offsetAt (c : Calendar) (t : Nat) : Int :=
  c.dst.foldl (fun o e => if e.1 ≤ t then e.2 else o) c.offset

/-- Calendar time of `t` with a UTC offset in minutes, in seconds. -/
def offsetTime (t : Nat) (offset : Int) : Nat := ((t : Int) + offset * 60).toNat

/-- Calendar time of ledger time `t`, in seconds. -/
def Calendar.localTime (c : Calendar) (t : Nat) : Nat := offsetTime t (c.offsetAt t)

/-- The calendar's date at `t`. -/
def Calendar.dateAt (c : Calendar) (t : Nat) : Date := dateOfDay (c.localTime t / 86400)

/-- The day profile of a day: a special day, else that of the season's week (R224, steps 1 to 3). -/
def Calendar.profile (c : Calendar) (days : Nat) : Nat :=
  let d := dateOfDay days
  match c.specials.find? fun e =>
      (e.1 == 0xFF || e.1 + 2000 == d.year) && e.2.1 == d.month && e.2.2.1 == d.day with
  | some e => e.2.2.2
  | none =>
    let first := (c.seasons.getLast?.map (·.2.2)).getD 0
    let week := c.seasons.foldl (fun w e => if dateKey e.1 e.2.1 ≤ dateKey d.month d.day then e.2.2 else w) first
    (c.weeks.getD week []).getD (weekdayOf days) 0

/-- The tariff that a calendar gives at calendar time `l` (R224, step 4). -/
def Calendar.tariffFor (c : Calendar) (l : Nat) : Nat :=
  (c.days.getD (c.profile (l / 86400)) []).foldl
    (fun tf p => if p.hour * 3600 + p.minute * 60 ≤ l % 86400 then p.tariff else tf) 1

/-- The tariff at ledger time `t`: 1 while no calendar is active. -/
def tariffAt (c : Option Calendar) (t : Nat) : Nat := (c.map fun c => c.tariffFor (c.localTime t)).getD 1

/-- Import and export price of a tariff; 0 while no calendar is active. -/
def pricesOf (c : Option Calendar) (tariff : Nat) : Nat × Nat :=
  ((c.map fun c => c.prices.getD (tariff - 1) (0, 0))).getD (0, 0)

/-! ## The image (R225, R226) -/

/-- `n` entries of `size` bytes each. -/
def chunksOf (size : Nat) : Nat → List Byte → List (List Byte)
  | 0, _ => []
  | n + 1, bs => bs.take size :: chunksOf size n (bs.drop size)

/-- Byte `i` of an entry. -/
def byteOf (bs : List Byte) (i : Nat) : Nat := (bs.getD i 0).toNat

/-- The little-endian field of `k` bytes at `o`. -/
def fieldOf (bs : List Byte) (o k : Nat) : Nat := leNat ((bs.drop o).take k)

/-- The used switch points of a day profile. -/
def switchPoints (bs : List Byte) : List SwitchPoint :=
  ((chunksOf 4 12 bs).filter fun e => byteOf e 0 != 0xFF).map fun e =>
    { hour := byteOf e 0, minute := byteOf e 1, tariff := byteOf e 2 }

/-- The number of bytes that the counts of an image ask for. -/
def calendarSize (bs : List Byte) : Nat :=
  32 + 4 * byteOf bs 0x10 + 8 * byteOf bs 0x11 + 48 * byteOf bs 0x12 + 4 * fieldOf bs 0x14 2 + 64 + 8 * byteOf bs 0x13

/-- The counts, the offset and BILL_DAY lie in their ranges. -/
def calendarCounts (bs : List Byte) : Bool :=
  let off := signedOf 16 (fieldOf bs 0x16 2)
  decide (1 ≤ byteOf bs 0x10 ∧ byteOf bs 0x10 ≤ 12 ∧ 1 ≤ byteOf bs 0x11 ∧ byteOf bs 0x11 ≤ 16 ∧ 1 ≤ byteOf bs 0x12 ∧
    byteOf bs 0x12 ≤ 32 ∧ byteOf bs 0x13 ≤ 32 ∧ fieldOf bs 0x14 2 ≤ 256 ∧ -720 ≤ off ∧ off ≤ 840 ∧ byteOf bs 0x18 ≤ 28)

/-- The calendar that an image spells. -/
def calendarOf (bs : List Byte) : Calendar :=
  let nS := byteOf bs 0x10
  let nW := byteOf bs 0x11
  let nD := byteOf bs 0x12
  let nX := fieldOf bs 0x14 2
  let bs1 := bs.drop 32
  let bs2 := bs1.drop (4 * nS)
  let bs3 := bs2.drop (8 * nW)
  let bs4 := bs3.drop (48 * nD)
  let bs5 := bs4.drop (4 * nX)
  let bs6 := bs5.drop 64
  { id := fieldOf bs 8 4, activate := fieldOf bs 12 4
    seasons := (chunksOf 4 nS bs1).map fun e => (byteOf e 0, byteOf e 1, byteOf e 2)
    weeks := (chunksOf 8 nW bs2).map fun e => (e.take 7).map (·.toNat)
    days := (chunksOf 48 nD bs3).map switchPoints
    specials := (chunksOf 4 nX bs4).map fun e => (byteOf e 0, byteOf e 1, byteOf e 2, byteOf e 3)
    prices := (chunksOf 8 8 bs5).map fun e => (fieldOf e 0 4, fieldOf e 4 4)
    dst := (chunksOf 8 (byteOf bs 0x13) bs6).map fun e => (fieldOf e 0 4, signedOf 16 (fieldOf e 4 2))
    offset := signedOf 16 (fieldOf bs 0x16 2), billDay := byteOf bs 0x18 }

/-- A list of numbers rises strictly. -/
def rising : List Nat → Bool
  | a :: b :: rest => decide (a < b) && rising (b :: rest)
  | _ => true

/-- Every index names a table entry, and every tariff index is 1 to 8. -/
def Calendar.indexesOk (c : Calendar) : Bool :=
  c.seasons.all (fun e => e.2.2 < c.weeks.length) && c.weeks.all (fun w => w.all (· < c.days.length)) &&
  c.specials.all (fun e => e.2.2.2 < c.days.length) &&
  c.days.all fun d => d.all fun p => 1 ≤ p.tariff && p.tariff ≤ 8

/-- Every table is in order, and every day profile starts at 00:00. -/
def Calendar.ordersOk (c : Calendar) : Bool :=
  rising (c.seasons.map fun e => dateKey e.1 e.2.1) && rising (c.dst.map (·.1)) &&
  c.days.all fun d =>
    rising (d.map fun p => p.hour * 60 + p.minute) && d.all (fun p => p.hour ≤ 23 && p.minute ≤ 59) &&
    (d.head?.map fun p => p.hour == 0 && p.minute == 0).getD false

/-- The check of an image of `len` bytes: RESULT (R226). -/
def calendarResult (len : Nat) (bs : List Byte) : Nat :=
  let crc := crc32 (bs.take 0x1C ++ [0, 0, 0, 0] ++ bs.drop 0x20)
  if bs.take 4 ≠ [0x54, 0x43, 0x41, 0x4C] ∨ fieldOf bs 4 2 ≠ 1 ∨ fieldOf bs 6 2 ≠ len ∨ len < 32 ∨
      (calendarCounts bs ∧ calendarSize bs ≠ len) then 2
  else if crc.toNat ≠ fieldOf bs 0x1C 4 then 3
  else if !calendarCounts bs then 4
  else if !(calendarOf bs).indexesOk then 5
  else if !(calendarOf bs).ordersOk then 6
  else 1

end Sys2Proof.Machine
end

