-- ==== Sys2Proof/Machine/LedgerRec.lean ====
section
/-! DEFINITION. The ledger's records: their layouts, the hash chain, the ring, the seal (11 R239 to R244). -/
namespace Sys2Proof.Machine

/-- The module's own channel: 0 in STANDALONE and HUB (R238). -/
def ownChannel (s : State) : Nat :=
  match s.sys.role with
  | .standalone | .hub => 0
  | .head | .repeater => s.link.chan

/-- The registers of the ledger. -/
def led (s : State) : LedRegs := s.led.cur

/-- Changes the registers of the ledger. -/
def updCur (f : LedRegs → LedRegs) (s : State) : State := s.updLed fun l => { l with cur := f l.cur }

/-- The wall clock as it reads: 0 while it is not valid (R219). -/
def wallClock (s : State) : Nat := if s.led.rtcValid then s.led.w else 0

/-! ## The ring (R244) -/

/-- Ring blocks of 64 KiB, the partition offset of the first, and the blocks kept of them: two are always erased. -/
def ringBlocks : Nat := 248
def ringBase : Nat := 0x80000
def ringKept : Nat := 246

/-- The partition byte offset of a position (LED_RING_TAIL, LED_RING_HEAD, LED_EXP_ACK). -/
def ringOffset (pos : Nat) : Nat := ringBase + pos % (ringBlocks * 0x10000)

/-- Bytes written and not yet exported. -/
def unexported (s : State) : Nat := s.led.head - s.led.ack

/-- More than 80 % of the ring is unexported (R244). -/
def exportLag (s : State) : Bool := ringBlocks * 0x10000 * 8 < unexported s * 10

/-- Where a record of `n` bytes goes: records do not straddle ring blocks, and each block starts with a BLOCK record. -/
def placeOf (head n : Nat) : Nat × Bool :=
  let used := head % 0x10000
  if used = 0 then (head, true)
  else if used + n ≤ 0x10000 then (head, false)
  else (head - used + 0x10000, true)

/-- The BLOCK record of the ring block at `pos` (R240). -/
def blockRecord (pos channel seq : Nat) : List Byte :=
  leBytes 0x70 1 ++ leBytes 1 1 ++ leBytes channel 1 ++ leBytes 0 1 ++ leBytes seq 4 ++ leBytes (pos / 0x10000) 4 ++
  leBytes seq 4 ++ List.replicate 16 0

/-- Puts the bytes of a record into the ring: a new block overwrites the oldest, and the second
block ahead of it is erased (R244). Answers the bytes overwritten
unexported. -/
def ringPut (bytes : List Byte) (s : State) : Nat × State :=
  let p := placeOf s.led.head bytes.length
  let pos := if p.2 then p.1 + 32 else p.1
  let first := (p.1 / 0x10000 + 1 - ringKept) * 0x10000
  let lost := if p.2 then first - s.led.ack else 0
  let put (l : Led) : Led :=
    let recs := if p.2 then ⟨p.1, blockRecord p.1 (ownChannel s) l.seq⟩ :: l.records.filter (first ≤ ·.pos) else l.records
    { l with records := ⟨pos, bytes⟩ :: recs, head := pos + bytes.length, tail := max l.tail first, ack := max l.ack first }
  let ahead := p.1 / 0x10000 + 2
  let s := if p.2 && decide (ringBlocks ≤ ahead) then copyOnWrite noTag [0x2AC + ahead % ringBlocks] s else s
  (lost, s.updLed put)

/-! ## Writing a record (R239, R242) -/

/-- The header and body of a record (R239). -/
def RecDraft.bytes (seq : Nat) (d : RecDraft) : List Byte :=
  leBytes d.type 1 ++ leBytes ((8 + d.body.length) / 32) 1 ++ leBytes d.channel 1 ++ leBytes d.flags 1 ++ leBytes seq 4 ++
  d.body

/-- A chained record is in the ring: the chain takes it, and SEQ rises (R242). -/
def chainTakes (isSeal : Bool) (bytes : List Byte) (l : Led) : Led :=
  { l with
    seq := l.seq + 1
    prevChain := l.chain
    chain := Config.sha256 (beBytes l.chain.toNat 32 ++ bytes)
    unsealed := if isSeal then 0 else l.unsealed + 1
    sealFirst := if isSeal then l.seq + 1 else l.sealFirst }

/-- Writes a record with the next SEQ; answers the bytes overwritten unexported. -/
def putRecord (d : RecDraft) (s : State) : Nat × State :=
  let bytes := d.bytes s.led.seq
  let r := ringPut bytes s
  (r.1, r.2.updLed (chainTakes (d.type == 0x0F) bytes))

/-- The body of an EVENT record (R240, R241). -/
def eventBody (code arg a b c : Nat) (s : State) : List Byte :=
  leBytes s.sys.ltime 4 ++ leBytes (wallClock s) 4 ++ leBytes code 2 ++ leBytes (min arg 0xFFFF) 2 ++ leBytes a 4 ++
  leBytes b 4 ++ leBytes c 4

/-- Unexported bytes were overwritten: RECORDS_LOST, and its event record (R244). -/
def recordsLost (lost : Nat) (s : State) : State :=
  if lost = 0 then s
  else
    let s := setF Reg.LED_STATUS_RECORDS_LOST 1 s
    (putRecord { type := 0x07, channel := ownChannel s, flags := 0, body := eventBody 0x0E 0 lost 0 0 s } s).2

/-- Writes one record now. -/
def writeNow (d : RecDraft) (s : State) : State := let r := putRecord d s; recordsLost r.1 r.2

/-! ## The seal (R242) -/

/-- The slot of the ledger signing key: under knot 1, in ECC1, held by firmware. -/
def sealKey (s : State) : Option WorkKey × State :=
  match firmwareDerives 1 [0x53, 0x45, 0x41, 0x4C] engEcc1 false s with
  | (_, some i, s) => ((slotAt s i).work, s)
  | (_, none, s) => (none, s)

/-- Bytes 0x00 to 0x5F of a SEAL. -/
def sealBody (s : State) : List Byte :=
  let epoch := ((knotAt 1 s).map (·.epoch)).getD 0
  leBytes s.sys.ltime 4 ++ leBytes s.led.sealFirst 4 ++ beBytes s.led.prevChain.toNat 32 ++ beBytes s.led.chain.toNat 32 ++
  leBytes epoch 4 ++ List.replicate 12 0

/-- Records wait: no block is free, a service pause runs (R227), or earlier ones wait. -/
def recordsWait (s : State) : Bool := storeWorn s || s.sys.pause || !s.led.backlog.isEmpty

/-- Writes a SEAL; without its key, or while records wait, SEAL_PENDING is set and it is retried (R242). -/
def writeSeal (s : State) : State :=
  if recordsWait s then setF Reg.LED_STATUS_SEAL_PENDING 1 s
  else match sealKey s with
  | (none, s) => setF Reg.LED_STATUS_SEAL_PENDING 1 s
  | (some k, s) =>
    let draft : RecDraft := { type := 0x0F, channel := ownChannel s, flags := 0, body := sealBody s }
    let head := leBytes 0x0F 1 ++ leBytes 5 1 ++ (draft.bytes s.led.seq).drop 2
    let sign := (Config.ecdsaSign k.key (head.take 0x60) s.sys.freeCtr ++ List.replicate 64 0).take 64
    let s := s.updSys fun y => { y with freeCtr := y.freeCtr + 1 }
    let s := writeNow { draft with body := sealBody s ++ sign } s
    s |> (fun s => s.updLed fun l => { l with sealTime := s.sys.ltime }) |> setF Reg.LED_STATUS_SEAL_PENDING 0

/-- Writes a record of the own ledger, and a SEAL after 256 chained without one (R242). A record that finds no free block
waits, and is retried every second (19 R422); one that comes due in a service pause is written after it (R227). -/
def writeDraft (d : RecDraft) (s : State) : State :=
  if recordsWait s then s.updLed fun l => { l with backlog := l.backlog ++ [d] }
  else
    let s := writeNow d s
    if 256 ≤ s.led.unsealed then writeSeal s else s

/-- The records that waited are written, in order. -/
def writeBacklog (s : State) : State :=
  if storeWorn s || s.sys.pause then s
  else s.led.backlog.foldl (fun s d => writeDraft d s) (s.updLed fun l => { l with backlog := [] })

/-- Writes a record of type `type`. -/
def writeRec (type flags : Nat) (body : List Byte) (s : State) : State :=
  writeDraft { type := type, channel := ownChannel s, flags := flags, body := body } s

/-- Writes an EVENT record (R241). -/
def writeEvent (code arg a b c : Nat) (s : State) : State := writeRec 0x07 0 (eventBody code arg a b c s) s

/-- A signed quantity saturated to 32 bits, as its record field holds it. -/
def signed32 (v : Int) : Nat := signedField 32 (satSigned 32 v)

/-! ## Layouts (R240) -/

/-- The SESSION_OPEN record. -/
def sessionOpenBody (x : Session) : List Byte :=
  leBytes x.number 4 ++ leBytes x.start 4 ++ leBytes x.entry 4 ++ leBytes x.contract 4 ++ leBytes x.impOpen 8

/-- Available credit A of an account (R234). -/
def Account.credit (a : Account) : Int := a.b + a.e

/-- An account. -/
def accountAt (k : Nat) (s : State) : Account := mapGet {} (led s).accounts k

/-- Changes an account. -/
def modAccount (k : Nat) (f : Account → Account) (s : State) : State :=
  updCur (fun r => { r with accounts := mapSet {} r.accounts k (f (mapGet {} r.accounts k)) }) s

/-- The SESSION record. -/
def sessionBody (x : Session) (reason endTime impClose : Nat) (s : State) : List Byte :=
  let a := accountAt x.account s
  leBytes x.number 4 ++ leBytes x.start 4 ++ leBytes endTime 4 ++ leBytes x.entry 4 ++ leBytes x.contract 4 ++
  leBytes reason 1 ++ leBytes x.tariffs.toNat 1 ++ leBytes 0 2 ++ leBytes x.impOpen 8 ++ leBytes impClose 8 ++
  leBytes x.exp 4 ++ leBytes (signed32 (x.cost / 10000000)) 4 ++ leBytes (signed32 a.credit) 4 ++ leBytes a.e 4

/-- Demand of an energy over a length, in W (R222). -/
def demandOf (imp secs : Nat) : Nat := if secs = 0 then 0 else imp * 36 / (10 * secs)

/-- The INTERVAL record. -/
def intervalBody (x : Interval) (endTime : Nat) : List Byte :=
  leBytes endTime 4 ++ leBytes (min x.secs 0xFFFF) 2 ++ leBytes x.tariff 1 ++ leBytes x.nominal 1 ++ leBytes x.imp 4 ++
  leBytes x.exp 4 ++ leBytes x.rea 4 ++ leBytes (demandOf x.imp x.secs) 4

/-- The registers as they stand. -/
def regsNow (s : State) : BillRegs := { totals := (led s).totals, imp := (led s).imp, exp := (led s).exp }

/-- The BOUNDARY record. -/
def boundaryBody (b : Boundary) (s : State) : List Byte :=
  let g := b.regs.getD (regsNow s)
  leBytes b.time 4 ++ leBytes b.kinds.toNat 1 ++ leBytes b.oldTariff 1 ++ leBytes b.newTariff 1 ++ leBytes 0 1 ++
  leBytes (g.totals.get 0) 8 ++ leBytes (g.totals.get 1) 8

/-- The BILLING record. -/
def billingBody (time : Nat) (g : BillRegs) (s : State) : List Byte :=
  let r := led s
  leBytes time 4 ++ leBytes r.period 4 ++ g.imp.toList.flatMap (leBytes · 8) ++ g.exp.toList.flatMap (leBytes · 8) ++
  leBytes (g.totals.get 2) 8 ++ r.maxDem.toList.flatMap (fun m => leBytes m.1 4 ++ leBytes m.2 4) ++ List.replicate 8 0

/-- The TOPUP record. -/
def topupBody (amount ref : Nat) (a : Account) (s : State) : List Byte :=
  leBytes s.sys.ltime 4 ++ leBytes amount 4 ++ leBytes ref 4 ++ leBytes (signed32 a.b) 4 ++ leBytes a.e 4 ++ leBytes 0 4

end Sys2Proof.Machine
end

