-- ==== Sys2Proof/Machine/Ledger.lean ====
section
/-! DEFINITION. The ledger's registers: ledger time, boundaries, the energy of a block, clock changes, power failure and
restart (11 R217 to R234). -/
namespace Sys2Proof.Machine

/-! ## Lengths and indices -/

/-- DEMAND_LEN in seconds (R222). -/
def demandSecs (code : Nat) : Nat :=
  60 * (match code with | 0 => 5 | 1 => 10 | 3 => 30 | 4 => 60 | _ => 15)

/-- The demand length in force, and the one last written. -/
def demLen (s : State) : Nat := demandSecs (inForce s Reg.LED_CFG_DEMAND_LEN)
def demLenNew (s : State) : Nat := demandSecs (getF s Reg.LED_CFG_DEMAND_LEN)

/-- While W < L, ledger time is held (R217). -/
def ledHeld (s : State) : Bool := s.led.rtcValid && s.led.w < s.sys.ltime

/-- The time that the tariff in force follows: W, or L while the wall clock is not valid (R224). -/
def tariffTime (s : State) : Nat := if s.led.rtcValid then s.led.w else s.sys.ltime

/-- The tariff in force now: that of W plus the offset in force for ledger time (R224). -/
def tariffNow (s : State) : Nat :=
  (s.led.calAct.map fun c => c.tariffFor (offsetTime (tariffTime s) (c.offsetAt s.sys.ltime))).getD 1

/-! ## What a second of ledger time meets (R222 to R227) -/

/-- What the search for boundaries carries along: the calendars, the tariff for L, the last automatic close, and the
demand lengths. -/
structure Scan where
  cal : Option Calendar
  pas : Option Calendar
  tariff : Nat
  billMonth : Nat
  len : Nat
  newLen : Nat
  bill : Bool

/-- A boundary found: the kinds of R240 [3:0], the tariffs, the demand length from it on, and the calendar it
activates. -/
structure Hit where
  time : Nat
  kinds : BitVec 8
  oldTariff : Nat
  newTariff : Nat
  len : Nat
  activates : Option (Nat × Nat)

/-- It ends a demand interval. -/
def Hit.demand (h : Hit) : Bool := h.kinds.getLsbD 1

/-- It closes a billing period. -/
def Hit.billing (h : Hit) : Bool := h.kinds.getLsbD 2

/-- An automatic billing close falls between `prev` and `t`: the year and month it closes (R223). -/
def billMonthAt (c : Option Calendar) (last prev t : Nat) : Option Nat :=
  match c with
  | none => none
  | some c =>
    let d := c.dateAt t
    let ym := d.year * 12 + d.month
    if c.billDay ≠ 0 ∧ d.day = c.billDay ∧ c.dateAt prev ≠ d ∧ ym ≠ last then some ym else none

/-- What stands at `t`, when `prev` was the last instant looked at. -/
def boundaryAt (prev t : Nat) (c : Scan) : Option Hit × Scan :=
  let act := c.pas.filter fun p => p.activate ≤ t
  let cal := if act.isSome then act else c.cal
  let new := tariffAt cal t
  let ym := billMonthAt cal c.billMonth prev t
  let demand := t % c.len == 0
  let len := if demand && t % c.newLen == 0 then c.newLen else c.len
  let kinds := BitVec.ofNat 8 (ofBool (new != c.tariff) + 2 * ofBool demand + 4 * ofBool (ym.isSome || c.bill) +
    8 * ofBool act.isSome)
  let hit : Hit := { time := t, kinds := kinds, oldTariff := c.tariff, newTariff := new, len := len
                     activates := act.map fun p => (p.id, p.activate) }
  (if kinds = 0 then none else some hit,
   { c with cal := cal, pas := if act.isSome then none else c.pas, tariff := new, len := len, bill := false
            billMonth := ym.getD c.billMonth })

/-- Where the search stands now. -/
def scanOf (s : State) : Scan :=
  { cal := s.led.calAct, pas := s.led.calPas, tariff := (led s).tariff, billMonth := (led s).billMonth, len := demLen s
    newLen := demLenNew s, bill := s.led.billReq }

/-- The search has reached `c`: calendars, tariff, last close and demand length are taken over. -/
def scanned (c : Scan) (s : State) : State :=
  let s := s.updLed fun l => { l with calAct := c.cal, calPas := c.pas, billReq := c.bill }
  let s := updCur (fun r => { r with tariff := c.tariff, billMonth := c.billMonth }) s
  if c.len = demLenNew s ∧ c.len ≠ demLen s then boundary Reg.LED_CFG_DEMAND_LEN s else s

/-- The interval that starts at a boundary. -/
def Hit.interval (flags : BitVec 8) (h : Hit) : Interval :=
  { start := h.time, tariff := h.newTariff, nominal := h.len / 60, flags := flags }

/-- The boundary of a hit in the ordinary course (R227). -/
def Hit.toBoundary (h : Hit) : Boundary :=
  { time := h.time, kinds := h.kinds, oldTariff := h.oldTariff, newTariff := h.newTariff, activates := h.activates
    ends := if h.demand then some 0 else none, opens := if h.demand then some (h.interval 0) else none }

/-! ## Intervals -/

/-- Changes the interval open to blocks that started after `k` of the pending boundaries. -/
def modIntv (k : Nat) (f : Interval → Interval) (s : State) : State :=
  updCur (fun r =>
    let upto := r.pend.take k
    if upto.any (·.opens.isSome) then
      let rec go : List Boundary → List Boundary
        | [] => []
        | b :: bs => if b.opens.isSome then { b with opens := b.opens.map f } :: bs else b :: go bs
      { r with pend := (go upto.reverse).reverse ++ r.pend.drop k }
    else { r with intv := f r.intv }) s

/-- The interval that is open now. -/
def openIntv (s : State) : Interval :=
  let r := led s
  (r.pend.foldl (fun i b => b.opens.getD i) r.intv)

/-- Closes an interval (R222, R227 step 2): ACC_DIFF event, INTERVAL record, maximum demand, EV_DEMAND. -/
def closeInterval (i : Interval) (endTime : Nat) (flags : BitVec 8) (s : State) : State :=
  let fl := i.flags ||| flags
  let s := if 0 < i.diffs then writeEvent 0x0D 0 i.diffs endTime 0 s else s
  let s := writeRec 0x03 fl.toNat (intervalBody i endTime) s
  let d := demandOf i.imp i.secs
  let k : Fin 8 := Fin.ofNat 8 (i.tariff - 1)
  let s := if fl &&& 0x0F = 0 ∧ ((led s).maxDem.get k).1 < d then
      updCur (fun r => { r with maxDem := r.maxDem.set k.val (d, endTime) k.isLt }) s
    else s
  raiseFw 0x1D (ofBool (fl.getLsbD 0)) s

/-- Closes a billing period at `t` (R223), followed by a seal (R242). -/
def closeBilling (t : Nat) (g : BillRegs) (s : State) : State :=
  s |> writeRec 0x05 0 (billingBody t g s)
    |> updCur (fun r => { r with maxDem := Vector.replicate 8 (0, 0), period := (r.period + 1) % 2 ^ 24, lastClose := t })
    |> writeSeal

/-- Closes one boundary, steps 2 to 5 of R227. -/
def closeBoundary (b : Boundary) (s : State) : State :=
  let s := match b.ends with
    | some fl => closeInterval (led s).intv b.time fl s
    | none => s
  let s := match b.opens with
    | some i => updCur (fun r => { r with intv := i }) s
    | none => s
  let s := if b.kinds.getLsbD 2 then closeBilling b.time (b.regs.getD (regsNow s)) s else s
  let s := match b.activates with
    | some a => s |> writeEvent 0x0B 1 a.1 a.2 0 |> raiseFw 0x35 0
    | none => s
  let s := if b.kinds.getLsbD 0 || b.kinds.getLsbD 3 then
      (if ledHeld s then s else setF Reg.LED_STATUS_TARIFF b.newTariff s) |> raiseFw 0x1C b.newTariff
    else s
  writeRec 0x04 0 (boundaryBody b s) s

/-- Closes the pending boundaries whose first block has ended, oldest first; at most `n` of them. -/
def closeEnded : Nat → State → State
  | 0, s => s
  | n + 1, s =>
    match (led s).pend with
    | [] => s
    | b :: bs =>
      if !b.ended then s
      else
        let s := updCur (fun r => { r with pend := bs }) s
        let s := s.updLed fun l => { l with blkIdx := l.blkIdx - 1, prevIdx := l.prevIdx - 1 }
        closeEnded n (closeBoundary b s)

/-- BOUNDARY_CLOSE: not in a service pause, whose records come after it (R227). -/
def boundaryClose (s : State) : State := if s.sys.pause then s else closeEnded (led s).pend.length s

/-! ## A clock set forward (R229) -/

/-- What a search over a long span has found: the first boundaries, and beyond them the merged ones and the billing
closes. -/
structure Found where
  limit : Nat
  /-- The first boundaries, newest first. -/
  first : List Hit := []
  /-- Boundaries beyond the first with no billing close: how many, their kinds, the tariff before the first of them, the
  last of them, and the last that ends a demand interval. -/
  merged : Nat := 0
  kinds : BitVec 8 := 0
  before : Nat := 0
  last : Option Hit := none
  lastDemand : Option Hit := none
  /-- Those with a billing close, newest first. -/
  bills : List Hit := []
  /-- Demand boundaries in all. -/
  demands : Nat := 0
  /-- A tariff boundary was found; the last tariff boundary or activation in all, and the calendar last activated. -/
  tariffs : Bool := false
  lastTariff : Option Nat := none
  activates : Option (Nat × Nat) := none

/-- Takes a boundary into what is found. -/
def Found.add (h : Hit) (f : Found) : Found :=
  let f := { f with
    demands := f.demands + ofBool h.demand
    tariffs := f.tariffs || h.kinds.getLsbD 0
    lastTariff := if h.kinds.getLsbD 0 || h.kinds.getLsbD 3 then some h.time else f.lastTariff
    activates := if h.activates.isSome then h.activates else f.activates }
  if f.first.length < f.limit then { f with first := h :: f.first }
  else if h.billing then { f with bills := h :: f.bills }
  else { f with
    merged := f.merged + 1
    kinds := f.kinds ||| h.kinds
    before := if f.merged = 0 then h.oldTariff else f.before
    last := some h
    lastDemand := if h.demand then some h else f.lastDemand }

/-- The next instant after `prev` at which a boundary can stand: a whole minute, or one of the given instants. -/
def nextInstant (specials : List Nat) (prev : Nat) : Nat :=
  specials.foldl (fun t x => if prev < x ∧ x < t then x else t) ((prev / 60 + 1) * 60)

/-- With no calendar and no other instant, only demand boundaries stand in a span: those after `prev` up to `t`. -/
def demandsOnly (prev t : Nat) (c : Scan) (f : Found) : Found :=
  let n := t / c.len - prev / c.len
  let hit : Hit := { time := t / c.len * c.len, kinds := 2, oldTariff := c.tariff, newTariff := c.tariff, len := c.len
                     activates := none }
  if n = 0 then f
  else { f with demands := f.demands + n, merged := f.merged + n, kinds := f.kinds ||| 2, last := some hit
                lastDemand := some hit, before := if f.merged = 0 then c.tariff else f.before }

/-- The search from `prev` up to `t`. -/
def search (specials : List Nat) (t : Nat) : Nat → Nat → Scan → Found → Found × Scan
  | 0, _, c, f => (f, c)
  | n + 1, prev, c, f =>
    if f.limit ≤ f.first.length ∧ c.cal.isNone ∧ c.pas.isNone ∧ c.len = c.newLen ∧ !c.bill then (demandsOnly prev t c f, c)
    else
      let x := nextInstant specials prev
      if t < x then (f, c)
      else
        let r := boundaryAt prev x c
        search specials t n x r.2 ((r.1.map fun h => f.add h).getD f)

/-- The boundaries of the span from `l0` to `l1`, the first `limit` of them each. -/
def searchSpan (limit l0 l1 : Nat) (s : State) : Found × Scan :=
  let c := scanOf s
  let of (x : Option Calendar) : List Nat := (x.map fun k => k.activate :: k.dst.map (·.1)).getD []
  let specials := (l0 + 1) :: (of c.cal ++ of c.pas)
  search specials l1 ((l1 - l0) / 60 + specials.length + 1) l0 c { limit := limit }

/-- The boundaries of a jump, in order (R229): the first 96 each, then each billing close, and the rest merged. -/
def Found.boundaries (f : Found) : List Boundary :=
  let mark (b : Boundary) : Boundary := { b with kinds := b.kinds ||| 0x20 }
  let first := f.first.reverse.map fun h => mark h.toBoundary
  let rec flag : Bool → List Boundary → List Boundary
    | _, [] => []
    | seen, b :: bs =>
      if b.ends.isSome then
        { b with ends := some (if seen then 0x08 else 0x04) } :: flag true bs
      else b :: flag seen bs
  let bills := f.bills.reverse.map fun h => { mark h.toBoundary with ends := none }
  let merged : List Boundary := match f.last with
    | none => []
    | some h => [{ time := h.time, kinds := f.kinds ||| 0x20, oldTariff := f.before, newTariff := h.newTariff
                   opens := f.lastDemand.map (·.interval 0), activates := if f.kinds.getLsbD 3 then f.activates else none }]
  let t := (f.last.map (·.time)).getD 0
  let late := bills.filter (·.time < t) ++ merged ++ bills.filter (fun b => !(b.time < t))
  let rec short : List Boundary → List Boundary
    | [] => []
    | b :: bs =>
      if bs.any (·.opens.isSome) then b :: short bs
      else { b with opens := b.opens.map fun i => { i with flags := i.flags ||| 0x04 } } :: short bs
  short (flag false first ++ late)

/-- Ledger time jumps from `l0` to `l1`; the wall clock went from `oldW` to `newW` (R229). -/
def ledgerJump (l0 l1 oldW newW : Nat) (s : State) : State :=
  let r := searchSpan 96 l0 l1 s
  let bs := r.1.boundaries
  let written := (bs.filter (·.ends = some 0x08)).length
  let s := scanned r.2 { s with sys := { s.sys with ltime := l1 } }
  let s := s |> writeEvent 0x04 r.1.merged oldW newW (r.1.demands - 1 - written)
    |> (fun s => s.updMet fun m => { m with cutBlock := true })
  let s := if r.1.demands = 0 then
      modIntv (led s).pend.length (fun i => { i with flags := i.flags ||| 0x04 }) s
    else s
  updCur (fun c => { c with pend := c.pend ++ bs }) s

/-! ## The RTC second (R217 to R219, R228) -/

/-- Ledger time takes the next second. -/
def ledgerTick (s : State) : State :=
  let l0 := s.sys.ltime
  let r := boundaryAt l0 (l0 + 1) (scanOf s)
  let s := scanned r.2 { s with sys := { s.sys with ltime := l0 + 1 } }
  match r.1 with
  | some h => updCur (fun c => { c with pend := c.pend ++ [h.toBoundary] }) s
  | none => s

/-- The wall clock is set back (R228). -/
def ledgerSetBack (oldW newW : Nat) (s : State) : State :=
  s |> writeEvent 0x03 0 oldW newW 0
    |> modIntv (led s).pend.length (fun i => { i with flags := i.flags ||| 0x02 })
    |> updCur fun c => { c with sess := c.sess.map fun x => { x with flags := x.flags ||| 0x08 } }

/-- The ledger's part of an RTC second, after the wall clock: `set` is a set that changed it, from and to. While ledger time
stands, LED_TARIFF follows W (R228). -/
def ledgerSecond (set : Option (Nat × Nat)) (s : State) : State :=
  let s := modIntv (led s).pend.length (fun i => { i with secs := i.secs + 1 }) s
  let s := if set.isSome then updCur (fun c => { c with unsure := false }) s else s
  let s := match set with
    | some (o, n) => if n < o then ledgerSetBack o n s else s
    | none => s
  let l0 := s.sys.ltime
  let l1 := if s.led.rtcValid then max l0 s.led.w else l0 + 1
  let s :=
    if l0 + 1 < l1 then ledgerJump l0 l1 (set.getD (l1, l1)).1 l1 s
    else
      let s := match set with
        | some (o, n) => if o < n then writeEvent 0x04 0 o n 0 s else s
        | none => s
      if l1 = l0 + 1 then ledgerTick s else s
  let s := if l1 = l0 then setF Reg.LED_STATUS_TARIFF (tariffNow s) s else s
  writeBacklog s

/-- The RTC's second rollover (R217, R218): the wall clock, the set that waits, EV_CLOCK. -/
def rtcSecond (s : State) : State :=
  let w1 := (s.led.w + 1) % 2 ^ 32
  let old := if s.led.rtcValid then w1 else 0
  let s := s.updLed fun l => { l with rtcSecs := l.rtcSecs + 1, w := if l.rtcValid then w1 else 0 }
  match s.led.setPend with
  | none => if s.led.on then ledgerSecond none s else s
  | some v =>
    let s := s.updLed fun l => { l with setPend := none }
    if s.led.rtcValid ∧ v = old then (if s.led.on then ledgerSecond none s else s)
    else
      let s := s.updLed fun l => { l with w := v, rtcValid := true }
      let s := raiseHw 0x1E (ofBool (old < v)) s
      if s.led.on then ledgerSecond (some (old, v)) s else s

/-! ## The energy of a block (R220, R221, R234) -/

/-- ACC: an addition to accumulator `idx`, in the latest block that has ended (R220). -/
def ledgerAcc (idx : Nat) (v : BitVec 64) (s : State) : State :=
  if h : idx < 3 then
    s.updLed fun l => { l with accSeen := true, acc := l.acc.set idx ((l.acc.get ⟨idx, h⟩ + v.toNat) % 2 ^ 64) h }
  else s

/-- The comparison of the additions with the energies of the block before: they differ, or none arrived (R220). -/
def reconcile (s : State) : State :=
  let s := match s.led.prevE with
    | none => s
    | some e =>
      if s.led.acc = e ∧ s.led.accSeen then s
      else s |> setF Reg.LED_STATUS_ACC_DIFF 1
        |> modIntv s.led.prevIdx fun i => { i with flags := i.flags ||| 0x40, diffs := i.diffs + 1 }
  s.updLed fun l => { l with acc := #v[0, 0, 0], accSeen := false }

/-- Adds to a 64-bit register. -/
def add64 (a b : Nat) : Nat := (a + b) % 2 ^ 64

/-- Adds to the register of a tariff. -/
def addTariff (v : Vector Nat 8) (tariff e : Nat) : Vector Nat 8 :=
  let k : Fin 8 := Fin.ofNat 8 (tariff - 1)
  v.set k.val (add64 (v.get k) e) k.isLt

/-- The cost of a block, taken from the account of a prepayment session (R234). -/
def costBlock (imp exp : Nat) (est : Bool) (s : State) : State :=
  match (led s).sess with
  | none => s
  | some x =>
    let p := s.led.blkPrices
    let cost := x.cost + ((imp * p.1 : Nat) : Int) - (if inForce s Reg.LED_CFG_EXPORT_CREDIT = 1 then ((exp * p.2 : Nat) : Int) else 0)
    let whole := cost / 10000000
    let due := whole - x.taken
    let x' : Session := { x with
      cost := cost, taken := whole, exp := x.exp + exp
      flags := if est then x.flags ||| 0x04 else x.flags
      tariffs := x.tariffs ||| BitVec.ofNat 8 (2 ^ (s.led.blkTariff - 1)) }
    let s := updCur (fun c => { c with sess := some x' }) s
    if x.prepay ∧ inForce s Reg.LED_CFG_PREPAY_EN = 1 then modAccount x.account (fun a => { a with b := a.b - due }) s else s

/-- A block starts: the tariff in force, its prices, the boundaries behind it with the registers they find, and the RWS fields whose boundary is the
next block. -/
def blockStarts (s : State) : State :=
  let t := tariffNow s
  let g := regsNow s
  s |> updCur (fun r => { r with pend := r.pend.map fun b => { b with regs := some (b.regs.getD g) } })
    |> (fun s => s.updLed fun l => { l with
        blkIdx := l.cur.pend.length, blkTariff := t, blkPrices := pricesOf l.calAct t })
    |> boundaries [Reg.LED_CFG_PREPAY_EN, Reg.LED_CFG_EXPORT_CREDIT]

/-- A block ends with these energies, ESTIMATED or with OVERLOAD: the comparison for the block before, the registers, the
interval, the session (R220 to R222, R234). -/
def ledgerBlock (imp exp rea : Nat) (est excess : Bool) (s : State) : State :=
  if !s.led.on then s
  else
    let s := reconcile s
    let mark : BitVec 8 := BitVec.ofNat 8 (16 * ofBool est + 32 * ofBool excess)
    let s := updCur (fun r => { r with
      totals := #v[add64 (r.totals.get 0) imp, add64 (r.totals.get 1) exp, add64 (r.totals.get 2) rea]
      imp := addTariff r.imp s.led.blkTariff imp, exp := addTariff r.exp s.led.blkTariff exp }) s
    let s := modIntv s.led.blkIdx (fun i => { i with
      imp := i.imp + imp, exp := i.exp + exp, rea := i.rea + rea, flags := i.flags ||| mark }) s
    let s := costBlock imp exp est s
    let k := s.led.blkIdx
    let s := updCur (fun r => { r with pend := (r.pend.take k).map (fun b => { b with ended := true }) ++ r.pend.drop k }) s
    s |> (fun s => s.updLed fun l => { l with prevE := some #v[imp, exp, rea], prevIdx := k }) |> blockStarts

/-! ## The AO tamper log (R247, R248) -/

/-- The AO log entries are copied into TAMPER event records, with the count of those dropped, and freed (R248). -/
def tamperCopy (s : State) : State :=
  let s' := s.led.tmpLog.foldl (fun s e =>
    writeEvent 0x06 (e.input + 256 * ofBool e.opened) e.time e.flags 0 s) s
  let dropped := getF s' Reg.AO_TMP_LOG_STAT_DROPPED
  let s' := if dropped = 0 then s' else writeEvent 0x07 0 dropped 0 0 s'
  (setF Reg.AO_TMP_LOG_STAT_DROPPED 0 s').updLed fun l => { l with tmpLog := [] }

/-! ## Sessions (R238) -/

/-- Writes the SESSION record of the open session, after the records that waited, followed by a seal; answers the record's
SEQ (R238). -/
def endSession (reason : Nat) (flags : BitVec 8) (s : State) : Nat × State :=
  match (led s).sess with
  | none => (0, s)
  | some x =>
    let s := writeBacklog s
    let seq := s.led.seq + s.led.backlog.length
    let fl := x.flags ||| flags ||| BitVec.ofNat 8 (ofBool x.prepay)
    let s := writeRec 0x02 fl.toNat (sessionBody x reason s.sys.ltime ((led s).totals.get 0) s) s
    let s := writeSeal s
    let s := s.updLed fun l => { l with opened := none }
    (seq, s |> updCur (fun r => { r with sess := none }) |> setF Reg.LED_SESSION_NUMBER 0)

/-! ## Power failure and restart (R230 to R233) -/

/-- The registers as a snapshot or an image holds them. -/
def ledgerCopy (s : State) : LedRegs :=
  { led s with ltime := s.sys.ltime, wall := wallClock s, rtcSecs := s.led.rtcSecs }

/-- Ledger time at a restart from a copy (R217, R219). -/
def restartTime (r : LedRegs) (s : State) : Nat :=
  if s.led.rtcValid then max r.ltime s.led.w
  else if s.led.aoLost then r.ltime
  else r.ltime + (s.led.rtcSecs - r.rtcSecs)

/-- The interval in which power returns: aligned, flagged INTERRUPTED, with the tariff of the calendar in force at its start
(R231). -/
def restartInterval (l : Nat) (s : State) : Interval :=
  let start := l / demLen s * demLen s
  let cal := match s.led.calPas with
    | some c => if c.activate ≤ start then some c else s.led.calAct
    | none => s.led.calAct
  { start := start, tariff := tariffAt cal start, nominal := demLen s / 60, secs := l - start, flags := 0x01 }

/-- Steps 2 to 4 of R231: the interval open at the freeze, the billing closes and the tariff boundaries of the outage
from `l0` to `l1`. -/
def restartOutage (l0 l1 : Nat) (s : State) : State :=
  let i := (led s).intv
  let stop := (i.start / (i.nominal * 60) + 1) * (i.nominal * 60)
  let s :=
    if stop ≤ l1 then
      s |> closeInterval { i with secs := i.secs + (stop - l0) } stop 0x01
        |> updCur fun r => { r with intv := restartInterval l1 s }
    else updCur (fun r => { r with intv := { i with secs := i.secs + (l1 - l0), flags := i.flags ||| 0x01 } }) s
  let old := (led s).tariff
  let r := searchSpan 0 l0 l1 s
  let s := scanned r.2 s
  let s := r.1.bills.reverse.foldl (fun s h => closeBilling h.time (regsNow s) s) s
  match r.1.lastTariff with
  | none => s
  | some t =>
    let b : Boundary := {
      time := t, kinds := BitVec.ofNat 8 (0x40 + ofBool r.1.tariffs + 8 * ofBool r.1.activates.isSome), oldTariff := old
      newTariff := (led s).tariff, activates := r.1.activates }
    let s := match b.activates with
      | some a => s |> writeEvent 0x0B 1 a.1 a.2 0 |> raiseFw 0x35 0
      | none => s
    writeRec 0x04 0 (boundaryBody b s) s

/-- The session that was open is closed with reason 4, flagged interrupted (R231 step 6). -/
def restartSession (r : LedRegs) (s : State) : State :=
  match s.led.opened with
  | none => updCur (fun c => { c with sess := none }) s
  | some o =>
    let x := match r.sess with
      | some y => if y.number = o.number then y else o
      | none => o
    (endSession 4 0x02 (updCur (fun c => { c with sess := some x }) s)).2

/-- PD0 was lost: ledger time is unsure from here on (R219). -/
def unsureAfter (lost : Bool) (s : State) : State :=
  if lost then s |> updCur (fun c => { c with unsure := true }) |> writeEvent 0x05 0 s.sys.ltime 0 0 else s

/-- The restart from a copy: `gap` when it is the register image (R231, R233). -/
def restartFrom (r : LedRegs) (gap : Bool) (s : State) : State :=
  let l1 := restartTime r s
  let lost := s.led.aoLost
  let s := (updCur (fun _ => { r with pend := [] }) s).updSys fun y => { y with ltime := l1 }
  let s := r.pend.foldl (fun s b => closeBoundary { b with kinds := b.kinds ||| 0x10 } s) s
  let s := restartOutage r.ltime l1 s
  let s := if gap then writeEvent 0x02 0 r.ltime l1 0 s else writeEvent 0x01 0 r.ltime l1 0 s
  s |> restartSession r |> unsureAfter lost |> writeSeal

/-- With 12 slots used, the last-gasp area is exchanged for a pre-erased block (R230). DESIGN CHOICE: after the newest
snapshot has been consumed at boot (assumption log 62). -/
def renewGasp (s : State) : State :=
  if s.store.gaspUsed < 12 ∨ storeWorn s then s
  else (exchangeGasp s).updStore fun t => { t with gaspUsed := 0 }

/-- The ledger has never run: it has written no record and no image, and no session is open. -/
def neverRan (s : State) : Bool := s.led.seq == 1 && s.led.opened.isNone

/-- Boot step 6: the ledger restores its state from the newest unconsumed snapshot, else from the last register image. With
neither, a ledger that has run restarts from registers of 0 at ledger time 0, as manufacture left them, and one that never
ran starts there without a gap (R231, R233; DESIGN CHOICE, assumption log 32). The AO tamper log is copied (R248). -/
def ledgerRestore (s : State) : State :=
  let s := s.updLed fun l => { l with
    acc := #v[0, 0, 0], accSeen := false, prevE := none, prevIdx := 0, blkIdx := 0, billReq := false }
  let s := match s.led.snapshot, s.led.image with
    | some r, _ => restartFrom r false s
    | none, some r => restartFrom r true s
    | none, none =>
      if !neverRan s then restartFrom {} true s
      else
        let l1 := if s.led.rtcValid then max s.sys.ltime s.led.w else s.sys.ltime
        let s := s.updSys fun y => { y with ltime := l1 }
        updCur (fun r => { r with intv := restartInterval l1 s, tariff := tariffAt s.led.calAct l1 }) s |> unsureAfter s.led.aoLost
  s |> (fun s => s.updLed fun l => { l with snapshot := none, aoLost := false, on := true }) |> renewGasp
    |> setF Reg.LED_STATUS_TARIFF (tariffNow s) |> tamperCopy |> blockStarts

/-- The freeze: the snapshot, in the next slot of the last-gasp area; with no slot erased, none is taken (R230). -/
def ledgerFreeze (s : State) : State :=
  if !s.led.on then s
  else
    let s := s.updLed fun l => { l with snapshot := if s.store.gaspUsed < 16 then some (ledgerCopy s) else none, on := false }
    s.updStore fun t => { t with gaspUsed := min 16 (t.gaspUsed + 1) }

end Sys2Proof.Machine
end

