-- ==== Sys2Proof/Machine/Samples.lean ====
section
/-! DEFINITION. The sample path of Metrology: the four corrections of a sample, rms values, powers and energies over a run
of samples (10 R196 to R201). A corrected sample is counted in 10 fV at the pad, a scaled one in 10 fV × 2^-16 of its
quantity, so that no correction rounds (assumption log 60). -/
namespace Sys2Proof.Machine

/-- The phases in use: VA alone in single-phase wiring (MET_CFG.WIRING in force). -/
def phasesInUse (s : State) : Nat := if inForce s Reg.MET_CFG_WIRING = 0 then 1 else 3

/-- An item that holds a value: items 4i + 3 are reserved. -/
def calItem (i : Nat) : Bool := i ≤ 68 && (i == 68 || i % 4 != 3)

/-- The value in force of an item. -/
def calValue (i : Nat) (s : State) : Word := mapGet 0 s.met.cal i

/-- A signed calibration value. -/
def calSigned (i : Nat) (s : State) : Int := (calValue i s).toInt

/-! ## The four corrections (R196, R198) -/

/-- The chain that serves input `k` for the sample at `m`: across a move within the block, first the one before it. -/
def servingAt (d : BlockData) (k : Nat) (m : Int) (s : State) : Nat :=
  (if m < d.moved.toNat then s.met.blkMap else s.met.map).toList.getD k 0

/-- The linear range of input `k`, 0.1 µV peak (R195): ±600 mV for a voltage, ±250 mV for a current. -/
def linearRange (k : Nat) : Int := if k < 4 then 6000000 else 2500000

/-- What the serving chain gives for input `k` at sample `m`, 0.1 µV; beyond the samples given, the nearest. -/
def rawAt (d : BlockData) (k : Nat) (s : State) (m : Int) : Int :=
  match d.frames[min m.toNat (d.frames.length - 1)]? with
  | none => 0
  | some f => ((f.chain.toList.getD (servingAt d k m s) 0).toInt)

/-- A sample beyond the linear range (R210). -/
def clips (d : BlockData) (k : Nat) (s : State) (m : Int) : Bool := linearRange k < (rawAt d k s m).natAbs

/-- A sample limited to the linear range (R210). -/
def clipped (d : BlockData) (k : Nat) (s : State) (m : Int) : Int :=
  max (-linearRange k) (min (linearRange k) (rawAt d k s m))

/-- GAIN and OFFSET trims of chain `c` on a reading of 0.1 µV, to 10 fV (R198, first correction). -/
def chainTrim (c : Nat) (x : Int) (s : State) : Int :=
  x * (10000000 + calSigned (32 + 4 * c) s) - calSigned (33 + 4 * c) s * 10000000

/-- A signal delayed by `ns`, interpolated between the samples of 125 µs on either side (R198). -/
def delayed (x : Int → Int) (ns m : Int) : Int :=
  let t := m * 125000 - ns
  x (t / 125000) + (x (t / 125000 + 1) - x (t / 125000)) * (t % 125000) / 125000

/-- After the chain's trims and its DELAY: input `k` at its pad, 10 fV (R198, second correction). -/
def padAt (d : BlockData) (k : Nat) (s : State) (m : Int) : Int :=
  delayed (fun j => chainTrim (servingAt d k j s) (clipped d k s j) s) (calSigned (34 + 4 * servingAt d k m s) s) m

/-- After the input's OFFSET and DELAY items (R198, third correction). -/
def itemAt (d : BlockData) (k : Nat) (s : State) (m : Int) : Int :=
  delayed (fun j => padAt d k s j - calSigned (4 * k + 1) s * 10000000) (calSigned (4 * k + 2) s) m

/-- After the input's SCALE (R198, fourth correction); a lost input gives nothing (R209). -/
def scaledAt (d : BlockData) (k : Nat) (s : State) (m : Int) : Int :=
  if s.met.lost.getLsbD k then 0 else itemAt d k s m * (calValue (4 * k) s).toNat

/-- A phase voltage reads 0 while its input, or VN, is lost (R209). -/
def voltageLost (ph : Nat) (s : State) : Bool := s.met.lost.getLsbD ph || s.met.lost.getLsbD 3

/-- Phase voltage: the phase's input against VN, sample by sample (R198). -/
def voltAt (d : BlockData) (ph : Nat) (s : State) (m : Int) : Int :=
  if voltageLost ph s then 0 else scaledAt d ph s m - scaledAt d 3 s m

/-! ## Rms values, powers and energies over a run of samples (R199, R201) -/

/-- The sum of `x` over the `n` samples from `a` on. -/
def sumOver (x : Int → Int) (a : Int) (n : Nat) : Int := (List.range n).foldl (fun t (j : Nat) => t + x (a + j)) 0

/-- The integer square root, from its bit `k - 1` down. -/
def rootBits (x : Nat) : Nat → Nat → Nat
  | 0, r => r
  | k + 1, r => rootBits x k (if (r + 2 ^ k) * (r + 2 ^ k) ≤ x then r + 2 ^ k else r)

/-- The rms of `x` over the `n` samples from `a` on, in units of `unit`. -/
def rmsOver (x : Int → Int) (unit : Nat) (a : Int) (n : Nat) : Nat :=
  rootBits ((sumOver (fun m => x m * x m) a n).toNat / n) 96 0 / unit

/-- 10 mV, 1 mA and 1 W in the units of scaled samples. -/
def unit10mV : Nat := 65536 * 10 ^ 12
def unitMa : Nat := 65536 * 10 ^ 11
def unitW : Nat := 2 ^ 32 * 10 ^ 28

/-- One mWh, 3.6 W·s, as a sum over samples of 125 µs. -/
def unitMwh : Nat := 28800 * unitW

/-- Vrms of phase `ph`, 10 mV. -/
def voltsOver (d : BlockData) (ph : Nat) (s : State) (a : Int) (n : Nat) : Nat := rmsOver (voltAt d ph s) unit10mV a n

/-- Irms of IA, IB, IC, IN (`k` from 0 to 3), mA. IN reads 0 while IN_EN is 0. -/
def ampsOver (d : BlockData) (k : Nat) (s : State) (a : Int) (n : Nat) : Nat :=
  if k = 3 ∧ inForce s Reg.MET_CFG_IN_EN = 0 then 0 else rmsOver (scaledAt d (4 + k) s) unitMa a n

/-- Active power of a phase, summed over samples: voltage times current at the same instant (R198). -/
def activeSum (d : BlockData) (ph : Nat) (s : State) (a : Int) (n : Nat) : Int :=
  sumOver (fun m => voltAt d ph s m * scaledAt d (4 + ph) s m) a n

/-- A quarter of the measured mains period in ns; with none measured, of the window W (R198, R202). -/
def quarterNs (s : State) : Int :=
  let f := getF s Reg.MET_FREQ_W_FREQ
  if f = 0 then 25000 * s.sup.window else 250000000000 / f

/-- Reactive power of a phase, summed over samples: with the voltage delayed by a quarter of the period (R198). -/
def reactiveSum (d : BlockData) (ph : Nat) (s : State) (a : Int) (n : Nat) : Int :=
  sumOver (fun m => delayed (voltAt d ph s) (quarterNs s) m * scaledAt d (4 + ph) s m) a n

/-- The sum over the phases in use. -/
def overPhases (x : Nat → Int) (s : State) : Int := if phasesInUse s = 1 then x 0 else x 0 + x 1 + x 2

/-- The block's samples start at `d.first`. -/
def netActive (d : BlockData) (s : State) : Int :=
  overPhases (fun ph => activeSum d ph s d.first.toNat d.samples.toNat) s

/-- Net reactive energy of the block across the phases in use. -/
def netReactive (d : BlockData) (s : State) : Int :=
  overPhases (fun ph => reactiveSum d ph s d.first.toNat d.samples.toNat) s

/-- The mean power of an energy over `samples` lies below CREEP, in 0.1 W (R201). -/
def belowCreep (e : Int) (samples : Nat) (s : State) : Bool :=
  10 * e.natAbs < inForce s Reg.MET_CREEP_CREEP * samples * unitW

/-- Whole mWh and remainder of an energy, with the remainder carried (R201). -/
def withRemainder (rem x : Nat) : Nat × Nat := ((rem + x) / unitMwh, (rem + x) % unitMwh)

/-- The energies of a block: import, export, reactive, with their remainders carried (R201). -/
def blockEnergies (d : BlockData) (s : State) : Vector Nat 3 × Vector Nat 3 :=
  let e := netActive d s
  let q := netReactive d s
  let n := d.samples.toNat
  let imp := if belowCreep e n s ∨ e < 0 then 0 else e.natAbs
  let exp := if belowCreep e n s ∨ 0 ≤ e then 0 else e.natAbs
  let rea := if belowCreep q n s then 0 else q.natAbs
  let i := withRemainder (s.met.rem.get 0) imp
  let x := withRemainder (s.met.rem.get 1) exp
  let r := withRemainder (s.met.rem.get 2) rea
  (#v[i.1, x.1, r.1], #v[i.2, x.2, r.2])

/-- Mean power of a sum over the block, in whole W or var towards 0 (DESIGN CHOICE). -/
def meanPower (sum : Int) (d : BlockData) : Int := Int.tdiv sum (d.samples.toNat * unitW)

/-- Rms at the pad of input `k` over the block, 0.1 µV, after the chain trims and before the input's items (MET_CAL_MEAS). -/
def padRmsOf (d : BlockData) (k : Nat) (s : State) : Nat := rmsOver (padAt d k s) 10000000 d.first.toNat d.samples.toNat

/-- The inputs with a sample of the block beyond the linear range. -/
def clippedInputs (d : BlockData) (s : State) : List Nat :=
  (List.range 8).filter fun k => (List.range d.samples.toNat).any fun j => clips d k s ((d.first.toNat + j : Nat) : Int)

end Sys2Proof.Machine
end

