-- ==== Sys2Proof/Machine/Metrology.lean ====
section
/-! DEFINITION. Metrology: blocks and their energies, frequency, the rotation of the spare chain, hard failures,
calibration (10 R194 to R216). -/
namespace Sys2Proof.Machine

/-- Metering runs: PD3 is on and no power fail has frozen it (10 R215). -/
def metering (s : State) : Bool := domainOn 3 s && s.sys.booted && !s.met.frozen

/-! ## Values of a block (R199) -/

/-- The MET_VALk registers. -/
def blockValues (d : BlockData) (s : State) : State :=
  let a : Int := d.first.toNat
  let n := d.samples.toNat
  let put (k : Nat) (x : Int) (t : State) : State := setI (Reg.MET_VAL_VALUE k) x t
  let act (ph : Nat) := activeSum d ph s a n
  let rea (ph : Nat) := reactiveSum d ph s a n
  let t := (List.range 3).foldl (fun t ph => put ph (voltsOver d ph s a n) t) s
  let t := (List.range 4).foldl (fun t k => put (3 + k) (ampsOver d k s a n) t) t
  let t := (List.range 3).foldl (fun t ph => put (7 + ph) (meanPower (act ph) d) t) t
  let t := (List.range 3).foldl (fun t ph => put (11 + ph) (meanPower (rea ph) d) t) t
  t |> put 10 (meanPower (overPhases act s) d) |> put 14 (meanPower (overPhases rea s) d)

/-! ## Frequency, window and band (R202, R203) -/

/-- The frequency is measured: 40 Hz to 70 Hz (R202). -/
def freqValid (freq : Nat) : Bool := 40000 ≤ freq && freq ≤ 70000

/-- The window W in 100 µs: the measured period rounded, within 14.2 ms to 21.1 ms, else the nominal one (R202). -/
def windowOf (freq : Nat) (valid nom60 : Bool) : Nat :=
  if valid then clamp 142 211 ((20000000 / freq + 1) / 2) else if nom60 then 167 else 200

/-- MET_FREQ, FREQ_VALID and the window, for a frequency in mHz; 0 with no phase live (R202). -/
def showFreq (freq : Nat) (s : State) : State :=
  let ok := freqValid freq
  let w := windowOf freq ok (inForce s Reg.MET_CFG_NOM == 1)
  s |> setB Reg.MET_STATUS_FREQ_VALID ok |> setF Reg.MET_FREQ_W_FREQ (if ok then freq else 0)
    |> setF Reg.MET_FREQ_W_W (w * 100) |> fun s => s.updSup fun u => { u with window := w }

/-- The frequency has come back 50 mHz inside the band (R203). -/
def backInBand (freq : Nat) (s : State) : Bool :=
  getF s Reg.MET_FBAND_LO * 10 + 50 ≤ freq && freq + 50 ≤ getF s Reg.MET_FBAND_HI * 10

/-- The frequency lies outside the band (R203). -/
def outOfBand (freq : Nat) (s : State) : Bool :=
  freq < getF s Reg.MET_FBAND_LO * 10 || getF s Reg.MET_FBAND_HI * 10 < freq

/-- A frequency is measured, in mHz: it is shown, and EV_FREQ is raised when it leaves the band, again only after it has
come back 50 mHz inside (R202, R203). -/
def measureFreq (freq : Nat) (s : State) : State :=
  let s := showFreq freq s
  if outOfBand freq s && !s.met.freqOut then
    (s.updMet fun m => { m with freqOut := true }) |> raiseHw 0x1A (getF s Reg.MET_FREQ_W_FREQ / 10)
  else if backInBand freq s then s.updMet fun m => { m with freqOut := false }
  else s

/-- The first live phase in the order A, B, C (R202). -/
def refPhase (s : State) : Option Nat := (List.range 3).find? fun k => s.sw.supply.getLsbD k

/-- Metrology follows another reference phase: its crossings are counted anew; with no phase live there is no frequency
(R202). -/
def followRef (s : State) : State :=
  if refPhase s = s.met.refPhase then s
  else
    let s := s.updMet fun m => { m with refPhase := refPhase s, refCross := [] }
    if s.met.refPhase.isNone then showFreq 0 s else s

/-- A rising crossing of the reference phase: the frequency is the mean period of the last 10 periods (R202). -/
def refCrossing (t : Nat) (s : State) : State :=
  let ts := (t :: s.met.refCross).take 11
  let s := s.updMet fun m => { m with refCross := ts }
  let span := (t + 2 ^ 32 - ts.getD 10 t) % 2 ^ 32
  if span = 0 then s else measureFreq (10000000000 / span) s

/-! ## The fast values (R199, R209) -/

/-- The fast values of the update at sample `e`, over the window W that ends there: the live phases, above 48 V, and the
phase currents in 0.1 A. A lost current input gives no fresh current (R209). -/
def fastUpdate (d : BlockData) (s : State) (e : Nat) : State :=
  let n := s.sup.window * 4 / 5
  let a : Int := (e : Int) - n
  let live (k : Nat) : Nat := if 4800 < voltsOver d k s a n then 2 ^ k else 0
  let amp (k : Fin 3) : Nat := if s.met.lost.getLsbD (4 + k.val) then s.sw.phaseI.get k else ampsOver d k.val s a n / 100
  s |> seeSupply (BitVec.ofNat 3 (live 0 + live 1 + live 2))
    |> (fun s => s.updSw fun x => { x with phaseI := Vector.ofFn amp }) |> followRef |> feedbackChanged

/-- The updates that fall into a block, one every 10 ms of 80 samples, the last at its end. -/
def fastUpdates (d : BlockData) (s : State) : State :=
  let n := d.samples.toNat
  ((List.range (max 1 ((n + 40) / 80))).reverse.map fun j => d.first.toNat + n - 80 * j).foldl (fastUpdate d) s

/-! ## Stamps and angles (R204, R205) -/

/-- The stamps of one signal are kept: a voltage while its phase is live, a current while its pad carries 0.35 mV. -/
def keepsStamp (d : BlockData) (k : Nat) (s : State) : Bool :=
  if k < 3 then s.sw.supply.getLsbD k else 3500 ≤ padRmsOf d (k + 1) s

/-- The latest crossing of each signal; a true stamp of 0 is reported as 1 (R204). -/
def blockStamps (d : BlockData) (s : State) : State :=
  (List.finRange 6).foldl (fun t k =>
    match (d.crossings.get k).getLast? with
    | some x => setF (Reg.MET_ZC_STAMP k.val) (if keepsStamp d k.val s then max 1 x.toNat else 0) t
    | none => t) s

/-- A stamp older than 100 ms reads 0 (R204). -/
def stampNow (n : Nat) (s : State) : Nat :=
  let t := getF s (Reg.MET_ZC_STAMP n)
  if t ≠ 0 ∧ (s.sys.usec + 2 ^ 32 - t) % 2 ^ 32 ≤ 100000 then t else 0

/-- The angle in 0.01° by which phase `ph` lags VA, from their stamps and the period (R205). -/
def lagOfPhase (ph : Nat) (s : State) : Option Nat :=
  let (ta, t) := (stampNow 0 s, stampNow ph s)
  let f := getF s Reg.MET_FREQ_W_FREQ
  if ta = 0 ∨ t = 0 ∨ f = 0 then none else some ((t + 2 ^ 32 - ta) % 2 ^ 32 * 36000 * f / 1000000000 % 36000)

/-- A lag is `x` ± 30° (R205). -/
def lagNear (x lag : Nat) : Bool := x - 3000 ≤ lag && lag ≤ x + 3000

/-- MET_PHASE and ROT_REV: an angle that is not measured shows 0xFFFF, and the rotation then keeps its last value (R205). -/
def blockPhase (s : State) : State :=
  let lag (ph : Nat) : Option Nat := if phasesInUse s = 1 then none else lagOfPhase ph s
  let t := s |> setF Reg.MET_PHASE_VB ((lag 1).getD 0xFFFF) |> setF Reg.MET_PHASE_VC ((lag 2).getD 0xFFFF)
  match lag 1, lag 2 with
  | some b, some c =>
    if lagNear 12000 b && lagNear 24000 c then setF Reg.MET_STATUS_ROT_REV 0 t
    else if lagNear 24000 b && lagNear 12000 c then setF Reg.MET_STATUS_ROT_REV 1 t
    else t
  | _, _ => t

/-- What the crossings of the block bring: the frequency of the reference phase, the stamps, the angles. -/
def blockCrossings (d : BlockData) (s : State) : State :=
  let ref := match refPhase s with
    | some k => d.crossings.toList.getD k []
    | none => []
  ref.foldl (fun s t => refCrossing t.toNat s) s |> blockStamps d |> blockPhase

/-! ## Calibration (R213, R214) -/

/-- A read of MET_CAL_VAL: the staged value, else the value in force (R214). -/
def calRead (i : Nat) (s : State) : Word := (mapGet? s.met.staged i).getD (calValue i s)

/-- A commit that waits applies at the block boundary, but not in a service pause, a takeover or a migration: the set is stored, one
CALIBRATION record is written per item, COUNT rises, and DB1 of mailbox 3 rings (R214, R215, R400, 19 R419). -/
def calApply (s : State) : State :=
  if !getB s Reg.MET_CAL_CMD_COMMIT || s.sys.pause || s.sys.takeover || migrating s then s
  else
    let items := s.met.staged
    let trims := items.any fun e => 32 ≤ e.1 && e.1 < 68
    let s := items.foldl (fun s e => writeEvent 0x08 e.1 (calValue e.1 s).toNat e.2.toNat 0 s) s
    let set (m : Met) : Met := { m with
      cal := items.foldl (fun c e => mapSet 0 c e.1 e.2) m.cal
      staged := [], calCount := min 0xFFFF (m.calCount + 1)
      rot := if trims then (match m.rot with | .overlap f k => .overlap f k | _ => .idle) else m.rot }
    let s := (s.updMet set) |> setF Reg.MET_CAL_CMD_COMMIT 0 |> ringOut 3 1
    if trims then s |> setF Reg.MET_STATUS_RECHECK 0 |> setF Reg.MET_STATUS_CHECKING 0xF else s

/-- Why a write of MET_CAL_VAL for an item is turned away (R213, R214). -/
def calRefused (i : Nat) (s : State) : Option Nat :=
  if 68 < i then some errAddr
  else if 32 ≤ i ∧ s.sys.mode ≠ .factory then some errMode
  else if !metrologist s then some errPresence
  else none

/-- Stages a value for the item in MET_CAL_IDX (R214). -/
def calStage (v : Word) (s : State) : Nat × State :=
  let i := getF s Reg.MET_CAL_IDX_IDX
  match calRefused i s with
  | some c => (c, s)
  | none => (statusOk, if calItem i then s.updMet fun m => { m with staged := mapPut m.staged i v } else s)

def execMetCalStage (value : BitVec 32) (s : State) : Out :=
  .next (hostTo Reg.MET_CAL_VAL_VALUE.addr (calStage value) s)

/-- COMMIT: with nothing staged it has no effect (R214). -/
def calCommit (s : State) : Nat × State :=
  if !metrologist s then (errPresence, s)
  else (statusOk, if s.met.staged = [] then s else setF Reg.MET_CAL_CMD_COMMIT 1 s)

def execMetCalCommit (s : State) : Out := .next (hostTo Reg.MET_CAL_CMD_COMMIT.addr calCommit s)

/-- Every staged value is dropped (R214). -/
def calDrop (s : State) : State := (s.updMet fun m => { m with staged := [] }) |> setF Reg.MET_CAL_CMD_COMMIT 0

def calDiscard (s : State) : Nat × State := if !metrologist s then (errPresence, s) else (statusOk, calDrop s)

def execMetCalDiscard (s : State) : Out := .next (hostTo Reg.MET_CAL_CMD_DISCARD.addr calDiscard s)

/-! ## The end of a block (R200, R201, R209, R210) -/

/-- A block ends: its values and energies, what its samples brought before, EV_METRO_BLOCK, then the ledger's part. -/
def blockEnd (d : BlockData) (early : Bool) (s : State) : State :=
  let index := s.met.blocks % 16384
  let est := s.met.estAlways || s.met.estBlock
  let clip := clippedInputs d s
  let excess := !clip.isEmpty
  let s := s |> fastUpdates d |> blockCrossings d
  let e := blockEnergies d s
  let pads := Vector.ofFn fun k : Fin 8 => padRmsOf d k.val s
  let s := s |> blockValues d
    |> setF Reg.MET_BLOCK_SAMPLES d.samples.toNat |> setF Reg.MET_BLOCK_INDEX index
    |> setB Reg.MET_BLOCK_PARTIAL (early || s.met.cutBlock) |> setB Reg.MET_BLOCK_ESTIMATED est
    |> setB Reg.MET_BLOCK_OVERLOAD excess
  let s := if est then setF Reg.MET_STATUS_ESTIMATED 1 s else s
  let s := if excess then setF Reg.MET_STATUS_OVERLOAD 1 s else s
  let s := if s.met.estBlock then writeEvent 0x09 1 index 0 0 s else s
  let s := if excess && sessionActive s && !s.met.overLogged then
      (s.updMet fun m => { m with overLogged := true }) |> logEvent 5 0 (clip.headD 0)
    else s
  let s := s.updMet fun m => { m with
    blockE := e.1, rem := e.2, blocks := m.blocks + 1, estBlock := false, cutBlock := false, blkMap := m.map
    tot := #v[add64 (m.tot.get 0) (e.1.get 0), add64 (m.tot.get 1) (e.1.get 1), add64 (m.tot.get 2) (e.1.get 2)]
    padRms := pads, padAng := d.padAng.map (·.toInt) }
  s |> raiseHw 0x18 index |> ledgerBlock (e.1.get 0) (e.1.get 1) (e.1.get 2) est excess

/-- What applies at a block boundary: a commit that waits, and the fields whose boundary is the next block. The freeze of a
power fail ends a block at no boundary: a commit that waits is dropped with the power (R214, R215). -/
def blockBoundary (s : State) : State :=
  s |> calApply |> boundaries [Reg.MET_CFG_IN_EN, Reg.MET_CFG_NOM, Reg.MET_CFG_WIRING, Reg.MET_CREEP_CREEP]

/-- METRO_BLOCK_END: a 100 ms block ends, or one ends early (R200). -/
def execMetroBlockEnd (data : BlockData) (partial_ : Bool) (s : State) : Out :=
  .next (if metering s then blockBoundary (blockEnd data partial_ s) else s)

/-- FREQ_BAND_EXIT: the measured frequency, with a reference phase (R202, R203). -/
def execFreqBandExit (freq : BitVec 17) (s : State) : Out :=
  .next (if metering s && s.sw.supply != 0 then measureFreq freq.toNat s else s)

/-! ## The rotation (R206 to R208) -/

/-- The chain that serves input `k`. -/
def chainOf (k : Nat) (s : State) : Nat := s.met.map.toList.getD k 0

/-- A step or a check may start: a chain is free, rotation has not stopped, nothing runs. -/
def rotationIdle (s : State) : Bool := metering s && s.met.free < 9 && s.met.rot == .idle

/-- ROTATION_STEP: the free chain starts converting the next input (R206 step 1). -/
def rotationStep (s : State) : State :=
  if rotationIdle s then
    s |> boundary Reg.MET_ROT_ROT_PERIOD |> fun s => s.updMet fun m => { m with rot := .overlap m.free m.nextInput }
  else s

def execRotationStep (s : State) : Out := .next (rotationStep s)

/-- Chain `c` is checked from its zero on (R206 step 4). -/
def checkChain (c : Nat) (s : State) : State :=
  (s.updMet fun m => { m with rot := .zero c }) |> setF Reg.MET_STATUS_CHECKING c

/-- ROTATION_HANDOVER: the free chain takes the input and the chain it relieves is checked; beyond twice the gain budget
the handover is abandoned and the free chain itself is rechecked (R206 step 3, R208). -/
def rotationHandover (ratio : Int) (s : State) : State :=
  match s.met.rot with
  | .overlap f k =>
    let s := s.updMet fun m => { m with nextInput := (k + 1) % 8 }
    if 2000 * inForce s Reg.MET_BUDGET_GAIN < ratio.natAbs then
      s |> checkChain f |> setF Reg.MET_STATUS_RECHECK 1
    else
      let x := chainOf k s
      let s := s.updMet fun m => { m with map := m.map.setIfInBounds k f, free := x }
      checkChain x s
  | _ => s

def execRotationHandover (ratio : BitVec 32) (s : State) : Out :=
  .next (if metering s then rotationHandover ratio.toInt s else s)

/-- CHAIN_REFERENCE_SWITCH (R206 step 6). -/
def referenceSwitch (zero : Int) (s : State) : State :=
  match s.met.rot with
  | .zero c => s.updMet fun m => { m with rot := .reference c (chainTrim c zero s) }
  | _ => s

def execChainReferenceSwitch (zero : BitVec 32) (s : State) : Out :=
  .next (if metering s then referenceSwitch zero.toInt s else s)

/-- A chain is retired (R207): its bit, EV_CHAIN, DB0 of mailbox 3, the metrology event record, METRO_NO_SPARE. Rotation
and checking stop. -/
def retireChain (c : Nat) (s : State) : State :=
  (s.updMet fun m => { m with retired := m.retired ||| BitVec.ofNat 9 (2 ^ c), rot := .idle, free := 15 })
    |> setF Reg.MET_STATUS_RECHECK 0 |> setF Reg.MET_STATUS_CHECKING 0xF
    |> raiseHw 0x19 c |> ringOut 3 0 |> writeEvent 0x09 0 c 0 0 |> setHealth 1

/-- The gain part of a reference reading of `x` × 10 fV, in 10^-13: the reading over item 68, minus 1 (R207); with item 68
at 0 the manual gives none, and it is a free value. -/
def gainPart (x : Int) (s : State) : Int × State :=
  let r : Int := (calValue 68 s).toNat
  if r = 0 then let v := freeBelow (2 ^ 14) s; (signedOf 14 v.1 * 10000000, v.2)
  else (Int.tdiv ((x - r * 10000000) * 1000000) r, s)

/-- CHAIN_JUDGEMENT: within budget, a recheck, or retired (R207). MET_CHECK shows whole ppm and 0.1 µV, towards 0. -/
def judgeChain (reading : Nat) (s : State) : State :=
  match s.met.rot with
  | .reference c zero =>
    let s := boundaries [Reg.MET_BUDGET_GAIN, Reg.MET_BUDGET_OFFSET] s
    let g := gainPart (chainTrim c reading s) s
    let s := g.2
    let gain := clamp 50 1000 (inForce s Reg.MET_BUDGET_GAIN)
    let off := clamp 20 1000 (inForce s Reg.MET_BUDGET_OFFSET)
    let within := decide (g.1.natAbs ≤ gain * 10000000 ∧ zero.natAbs ≤ off * 10000000)
    let again := getB s Reg.MET_STATUS_RECHECK
    let s := s |> setF Reg.MET_CHECK_CHAIN c |> setI Reg.MET_CHECK_GAIN (satSigned 14 (Int.tdiv g.1 10000000))
      |> setI Reg.MET_CHECK_OFFSET (satSigned 12 (Int.tdiv zero 10000000))
      |> setF Reg.MET_CHECK_RESULT (if within then 1 else if again then 3 else 2)
    if within then
      (s.updMet fun m => { m with rot := .idle }) |> setF Reg.MET_STATUS_RECHECK 0 |> setF Reg.MET_STATUS_CHECKING 0xF
    else if again then retireChain c s
    else s |> checkChain c |> setF Reg.MET_STATUS_RECHECK 1
  | _ => s

def execChainJudgement (reading : BitVec 32) (s : State) : Out :=
  .next (if metering s then judgeChain reading.toNat s else s)

/-! ## Hard failures (R209) -/

/-- CHAIN_HARD_FAIL: the free chain takes the input; with none free the input is lost. -/
def hardFail (c : Nat) (s : State) : State :=
  if s.met.retired.getLsbD c then s
  else match (List.range 8).find? fun k => chainOf k s == c with
  | none => retireChain c s
  | some k =>
    let f := s.met.free
    let s := s.updMet fun m => { m with estBlock := true }
    if f < 9 then
      let s := s.updMet fun m => { m with map := m.map.setIfInBounds k f }
      retireChain c s
    else
      let lose (m : Met) : Met := { m with lost := m.lost ||| BitVec.ofNat 8 (2 ^ k), estAlways := true }
      (s.updMet lose) |> retireChain c |> writeEvent 0x09 2 k 0 0

def execChainHardFail (chain : Fin 9) (s : State) : Out := .next (if metering s then hardFail chain.val s else s)

/-! ## Ports (06, block 0x5) -/

/-- MET_CHAIN. -/
def metChain (s : State) : Nat := (if s.met.free < 9 then s.met.free else 15) + 16 * s.met.retired.toNat

/-- MET_BLOCK_E: import, export, reactive. -/
def metBlockE (arg : Nat) (s : State) : Nat := s.met.blockE.toList.getD arg 0

end Sys2Proof.Machine
end

