-- ==== Sys2Proof/Machine/Supervisor.lean ====
section
/-! DEFINITION. The safety supervisor: residual current, self-test, protective earth, temperatures, supply, overcurrent,
the release and reclose of trips, the limit port (09 R171 to R193). -/
namespace Sys2Proof.Machine

/-! ## The self-test (R176 to R178) -/

/-- A self-test has started and has not ended (R177). -/
def testRuns (s : State) : Bool := (s.sup.tests.head?.map fun t => t.step != 0).getD false

/-- A test that only came due joins one that has not started and is no repeat. -/
def joinTest (plugIn : Bool) : List SelfTest → Option (List SelfTest)
  | [] => none
  | t :: ts => if t.step = 0 ∧ !t.again then some ({ t with plugIn := t.plugIn || plugIn } :: ts) else (joinTest plugIn ts).map (t :: ·)

/-- A test that waits for the pair to be confirmed open shows as RESULT 7 (R176). -/
def showWaiting (s : State) : State :=
  if !s.sup.tests.isEmpty && !testRuns s && !openOk s then setF Reg.SAFE_RCM_TEST_RESULT 7 s else s

/-- A self-test is asked for. A request that a release waits for gets a test of its own (R190), and so does the repeat of a
failed test (R178); any other comes due, or joins one that is due. -/
def askTest (plugIn again : Bool) (ask : Option TestAsk) (s : State) : State :=
  let own := s.sup.tests ++ [({ again := again, plugIn := plugIn, asks := ask.toList } : SelfTest)]
  let ts := if again || ask.isSome then own else (joinTest plugIn s.sup.tests).getD own
  (s.updSup fun u => { u with tests := ts, repeatDue := if again then none else u.repeatDue }) |> showWaiting

/-- A self-test holds up a close: one that runs, or that is due with the pair open confirmed; one due at a plug-in, or its
repeat, also while it waits (R176). -/
def testBlocksClose (s : State) : Bool :=
  s.sup.tests.any (fun t => t.step != 0 || t.plugIn || openOk s) || s.sup.repeatDue == some true

/-- The current of FG_TST in its 10 µA steps: 1.2 × DC_TH / N_T from step 2 of R177, 10 × DC_TH / N_T from step 3; only
while the pair is confirmed open (R176). PRESUMED: rounded down to a step. -/
def fgTst (s : State) : Nat :=
  let th := getF s Reg.SAFE_RCM_CFG_DC_TH
  match s.sup.tests.head?.map (·.step) with
  | some 2 => if openOk s then 12 * th / getF s Reg.SAFE_RCM_TEST_N_T else 0
  | some 3 => if openOk s then 100 * th / getF s Reg.SAFE_RCM_TEST_N_T else 0
  | _ => 0

/-- The residual of RCM_DC or RCM_AC lies below half its level; a tier that is off has none (R190, R191). -/
def residualLow (ac : Bool) (s : State) : Bool :=
  if ac then getF s Reg.SAFE_RCM_AC_AC_TH == 0 || 2 * getF s Reg.SAFE_RCM_MEAS_AC < 10 * getF s Reg.SAFE_RCM_AC_AC_TH
  else 2 * getF s Reg.SAFE_RCM_MEAS_DC < getF s Reg.SAFE_RCM_CFG_DC_TH

/-- A requester that waited for a self-test is decided by that test: a host's request by the residual of its own cause
(R190), the reclose policy by both residuals; a reclose that fails gets no further automatic attempt (R191). -/
def decideAsk (pass : Bool) (a : TestAsk) (s : State) : State :=
  if a.reclose then
    if !holds a.bit s then s
    else if pass && residualLow false s && residualLow true s && getF s Reg.SAFE_RECLOSE_CFG_COUNT < getF s Reg.SAFE_RECLOSE_CFG_N then s |> release a.bit |> incF Reg.SAFE_RECLOSE_CFG_COUNT
    else s.updSup fun u => { u with reclOff := u.reclOff ||| BitVec.ofNat 16 (2 ^ a.bit) }
  else if pass && residualLow (a.bit == 1) s then release a.bit s else s

/-- The self-test ends with a RESULT: a pass clears RCM_TEST, and RCM_CHAIN once the chain has been healthy for 10 s; a
failed test is repeated once, and a failed repeat trips RCM_TEST (R178). The next test that is due waits or starts. -/
def endTest (code : Nat) (s : State) : State :=
  match s.sup.tests with
  | [] => s
  | t :: rest =>
    let s := (s.updSup fun u => { u with tests := rest, cntDc1 := none, cntDc2 := none, cntAc := none })
      |> setF Reg.SAFE_RCM_TEST_RESULT code
    let s := if code = 1 then s |> release 2 |> (fun s => if s.sup.chainOk then release 3 s else s)
      else if t.again then (if holds 2 s then s else trip 2 code s)
      else s.updSup fun u => { u with repeatDue := some (t.plugIn || u.repeatDue == some true) }
    showWaiting (t.asks.foldl (fun s a => decideAsk (code == 1) a s) s)

/-- The first test of the list becomes `f` of it, and its tiers count anew. -/
def modTest (f : SelfTest → SelfTest) (s : State) : State :=
  s.updSup fun u => { u with
    tests := match u.tests with
      | [] => []
      | t :: ts => f t :: ts
    cntDc1 := none, cntDc2 := none, cntAc := none }

/-- The next step of the test of R177 at its moment, with the residuals of that moment in 0.1 mA. DESIGN CHOICE: a test
whose pair is no longer confirmed open goes back to waiting. -/
def testStep (dc : Int) (ac : Nat) (symmetric healthy : Bool) (t : SelfTest) (s : State) : State :=
  let th := getF s Reg.SAFE_RCM_CFG_DC_TH
  let next := modTest (fun t => { t with step := t.step + 1, tier := false }) s
  if !openOk s then (if t.step = 0 then s else showWaiting (modTest (fun t => { t with step := 0 }) s))
  else if !healthy then endTest 6 s
  else match t.step with
    | 1 => if 10 < dc.natAbs || 20 < ac || !symmetric then endTest 2 s else next
    | 2 => if 100 * dc < 108 * th || 132 * th < 100 * dc then endTest 3 s else next
    | 3 => if !t.tier then endTest 4 s else next
    | 4 => s
    | _ => next

/-- RCM_SELFTEST: one step of the self-test that is due, from its start to FG_TST off (R177 steps 1 to 4): the residuals
measured at that moment in 0.1 mA, the symmetry of the excitation peaks, and whether the chain is healthy: no saturation
peak missing, and FG_SNS within the range of the drive (R178). -/
def execRcmSelftest (dc : BitVec 15) (backward : Bool) (ac : BitVec 16) (symmetric peaks inRange : Bool) (s : State) : Out :=
  supervised (fun s => match s.sup.tests with
    | [] => s
    | t :: _ => testStep (if backward then -(dc.toNat : Int) else dc.toNat) ac.toNat symmetric (peaks && inRange) t s) s

/-- RCM_SELFTEST_RESULT: the return check ends the test (R177 step 5). -/
def execRcmSelftestResult (returnDc : BitVec 16) (healthy : Bool) (s : State) : Out :=
  supervised (fun s => match s.sup.tests with
    | t :: _ => if t.step = 4 then endTest (if !healthy then 6 else if 10 < returnDc.toNat then 5 else 1) s else s
    | [] => s) s

/-- RCM_SELFTEST_REPEAT: the repeat of a failed test comes due (R178). -/
def execRcmSelftestRepeat (s : State) : Out :=
  supervised (fun s => match s.sup.repeatDue with
    | some p => askTest p true none s
    | none => s) s

/-- RCM_SELFTEST_DAILY: with the pair open a self-test comes due (R176). -/
def execRcmSelftestDaily (s : State) : Out := supervised (fun s => if coilOn s then s else askTest false false none s) s

/-- SAFE_CTRL.SELFTEST (R176). -/
def execSafeCtrlSelftest (s : State) : Out :=
  .next (hostTo Reg.SAFE_CTRL_SELFTEST.addr (fun s => (statusOk, askTest false false none s)) s)

/-- RCM_CHAIN_UNHEALTHY: trips RCM_CHAIN at once (R178); a test that runs ends with result 6. -/
def execRcmChainUnhealthy (s : State) : Out :=
  supervised (fun s =>
    let s := s.updSup fun u => { u with chainOk := false }
    let s := if testRuns s then endTest 6 s else s
    if holds 3 s then s else trip 3 0 s) s

/-- RCM_CHAIN_HEALTHY: a passing test may now clear RCM_CHAIN (R178). -/
def execRcmChainHealthy (s : State) : Out := supervised (fun s => s.updSup fun u => { u with chainOk := true }) s

/-! ## Residual current (R173, R174) -/

/-- The time in ms since the first of the consecutive updates at or above a level. -/
def tierCount (above : Bool) (c : Option Nat) : Option Nat :=
  if above then some (match c with | some k => k + 1 | none => 0) else none

/-- A tier is met: its updates have lasted `t` ms less the window W (R174). -/
def tierMet (t : Nat) (c : Option Nat) (s : State) : Bool :=
  match c with
  | some k => 10 * t ≤ 10 * k + s.sup.window
  | none => false

/-- RCM_UPDATE: the 1 ms update of both residuals, in 0.1 mA; it counts the tiers and trips when one is met (R173, R174).
While a self-test runs the injected current raises neither cause (R176); the updates then show whether tier DC 2 is met
(R177 step 4). -/
def execRcmUpdate (dc : BitVec 15) (backward : Bool) (ac : BitVec 16) (s : State) : Out :=
  supervised (fun s =>
    let s := s |> setF Reg.SAFE_RCM_MEAS_DC dc.toNat |> setB Reg.SAFE_RCM_MEAS_SIGN backward
      |> setF Reg.SAFE_RCM_MEAS_AC ac.toNat |> boundary Reg.SAFE_RCM_CFG_WARN_PCT
    let testing := testRuns s
    let th := getF s Reg.SAFE_RCM_CFG_DC_TH
    let acTh := getF s Reg.SAFE_RCM_AC_AC_TH
    let onDc := testing || !holds 0 s
    let onAc := !testing && !holds 1 s && acTh != 0
    let below := dc.toNat * 100 < inForce s Reg.SAFE_RCM_CFG_WARN_PCT * th
    let s := s.updSup fun u => { u with
      cntDc1 := tierCount (onDc && th ≤ dc.toNat) u.cntDc1
      cntDc2 := tierCount (onDc && 10 * th ≤ dc.toNat) u.cntDc2
      cntAc := tierCount (onAc && 10 * acTh ≤ ac.toNat) u.cntAc
      warned := u.warned && !below }
    let dcMet := tierMet (getF s Reg.SAFE_RCM_TIME_T1) s.sup.cntDc1 s || tierMet (getF s Reg.SAFE_RCM_TIME_T2) s.sup.cntDc2 s
    let acMet := tierMet (getF s Reg.SAFE_RCM_AC_T_AC) s.sup.cntAc s
    let tier2 := tierMet (getF s Reg.SAFE_RCM_TIME_T2) s.sup.cntDc2 s
    if testing then (if tier2 then s.updSup fun u => { u with tests := u.tests.modifyHead fun t => { t with tier := true } } else s)
    else
      let s := if dcMet then trip 0 dc.toNat (s.updSup fun u => { u with cntDc1 := none, cntDc2 := none }) else s
      if acMet then trip 1 ac.toNat (s.updSup fun u => { u with cntAc := none }) else s) s

/-- RCM_WARN: a DC residual of at least WARN_PCT of DC_TH has been held for 1 s; announced once per rising crossing
(R174). -/
def execRcmWarn (s : State) : Out :=
  supervised (fun s =>
    let dc := getF s Reg.SAFE_RCM_MEAS_DC
    if s.sup.warned || dc * 100 < inForce s Reg.SAFE_RCM_CFG_WARN_PCT * getF s Reg.SAFE_RCM_CFG_DC_TH then s
    else raiseHw 0x0A dc (s.updSup fun u => { u with warned := true })) s

/-! ## Protective earth, temperatures, supply, measurement (R179 to R182) -/

/-- PEN_TRIP: a PE-to-N voltage, in 0.1 V, has been above PEN_TH for PEN_T (R179). -/
def execPenTrip (volts : BitVec 16) (s : State) : Out :=
  supervised (fun s =>
    let s := setF Reg.SAFE_PEN_MEAS_VOLTS volts.toNat s
    if getB s Reg.SAFE_PEN_EN && 10 * getF s Reg.SAFE_PEN_PEN_TH < volts.toNat && !holds 4 s then trip 4 volts.toNat s else s) s

/-- PEN_CLEAR: the voltage has stayed below 0.8 × PEN_TH for 30 s (R179). -/
def execPenClear (volts : BitVec 16) (s : State) : Out :=
  supervised (fun s =>
    let s := setF Reg.SAFE_PEN_MEAS_VOLTS volts.toNat s
    if volts.toNat < 8 * getF s Reg.SAFE_PEN_PEN_TH then release 4 s else s) s

/-- The trip level of TEMP1 or TEMP2, °C. -/
def tempTrip (i : Fin 2) (s : State) : Nat := if i = 0 then getF s Reg.SAFE_TEMP_LIM_TRIP1 else getF s Reg.SAFE_TEMP_LIM_TRIP2

/-- The warning level: a setting at or above TRIP is taken as TRIP - 1 °C (R180). -/
def tempWarn (i : Fin 2) (s : State) : Nat :=
  min (if i = 0 then getF s Reg.SAFE_TEMP_LIM_WARN1 else getF s Reg.SAFE_TEMP_LIM_WARN2) (tempTrip i s - 1)

/-- A temperature reading, 0.1 °C, outside -45 °C to +160 °C: an open or shorted sensor (R180). -/
def sensorBad (t : Int) : Bool := t < -450 || 1600 < t

/-- A reading of TEMP1 or TEMP2: below WARN - HYST the warning may be raised again (R180). -/
def readTemp (i : Fin 2) (t : Int) (s : State) : State :=
  let back : Bool := !sensorBad t && t < 10 * ((tempWarn i s : Int) - getF s Reg.SAFE_TEMP_CTRL_HYST)
  (boundary Reg.SAFE_TEMP_CTRL_TEMP_FILT s).updSup fun u => { u with
    temps := u.temps.set i.val t i.isLt
    tempWarned := u.tempWarned.set i.val (u.tempWarned.get i && !back) i.isLt }

/-- TEMP_WARN: a reading at or above WARN for TEMP_FILT samples; one outside the sensor's range counts as above TRIP
(R180). -/
def execTempWarn (i : Fin 2) (t : BitVec 16) (s : State) : Out :=
  supervised (fun s =>
    let s := readTemp i t.toInt s
    if (10 * (tempWarn i s : Int) ≤ t.toInt || sensorBad t.toInt) && !(s.sup.tempWarned.get i) then
      raiseHw 0x0B i.val (s.updSup fun u => { u with tempWarned := u.tempWarned.set i.val true i.isLt })
    else s) s

/-- TEMP_TRIP: a reading at or above TRIP, or outside the sensor's range, for TEMP_FILT samples (R180). -/
def execTempTrip (i : Fin 2) (t : BitVec 16) (s : State) : Out :=
  supervised (fun s =>
    let s := readTemp i t.toInt s
    if (10 * (tempTrip i s : Int) ≤ t.toInt || sensorBad t.toInt) && !holds (9 + i.val) s then trip (9 + i.val) t.toNat s
    else s) s

/-- TEMP_CLEAR: TEMP_FILT samples below TRIP - HYST, with the sensor in range (R180). -/
def execTempClear (i : Fin 2) (t : BitVec 16) (s : State) : Out :=
  supervised (fun s =>
    let s := readTemp i t.toInt s
    if t.toInt < 10 * ((tempTrip i s : Int) - getF s Reg.SAFE_TEMP_CTRL_HYST) && !sensorBad t.toInt then release (9 + i.val) s
    else s) s

/-- A phase voltage reads live: above 48 V (R148, R181); in 0.1 V. -/
def phaseLive (v : Nat) : Bool := 480 < v

/-- The live phases of three voltages. -/
def liveMask (va vb vc : Nat) : BitVec 3 :=
  BitVec.ofNat 3 (ofBool (phaseLive va) + 2 * ofBool (phaseLive vb) + 4 * ofBool (phaseLive vc))

/-- The phase voltage that meets SUPPLY_V's condition: a phase above OV, one between 48 V and UV, or one below 48 V with
another above; with all below 48 V the supply is absent and there is no cause (R181); the phases in use, VA alone in
single-phase wiring (R201). Voltages in 0.1 V. -/
def supplyVMet (va vb vc : Nat) (s : State) : Option Nat :=
  let vs := if inForce s Reg.MET_CFG_WIRING = 0 then [va] else [va, vb, vc]
  (vs.find? (getF s Reg.SAFE_SUPPLY_OV < ·)).or
    ((vs.find? fun v => 480 ≤ v && v < getF s Reg.SAFE_SUPPLY_UV).or
      (if vs.any (480 < ·) then vs.find? (· < 480) else none))

/-- SUPPLY_F's condition: with EN = 1 a frequency outside LO to HI, with the supply present (R181). In 0.01 Hz. -/
def supplyFBad (va vb vc f : Nat) (s : State) : Bool :=
  getB s Reg.SAFE_FREQ_EN && [va, vb, vc].any phaseLive && (f < getF s Reg.SAFE_FREQ_LO || getF s Reg.SAFE_FREQ_HI < f)

/-- SUPPLY_TRIP: phase voltages in 0.1 V and the frequency in 0.01 Hz that have held a condition of R181 for its time. -/
def execSupplyTrip (va vb vc freq : BitVec 16) (s : State) : Out :=
  supervised (fun s =>
    let s := s |> seeSupply (liveMask va.toNat vb.toNat vc.toNat) |> feedbackChanged
    let f := supplyFBad va.toNat vb.toNat vc.toNat freq.toNat s && !holds 12 s
    let s := match supplyVMet va.toNat vb.toNat vc.toNat s with
      | some v => if holds 11 s then s else trip 11 v s
      | none => s
    if f then trip 12 freq.toNat s else s) s

/-- SUPPLY_CLEAR: 10 s back within the limits, with the supply present (R181). -/
def execSupplyClear (va vb vc freq : BitVec 16) (s : State) : Out :=
  supervised (fun s =>
    let s := s |> seeSupply (liveMask va.toNat vb.toNat vc.toNat) |> feedbackChanged
    let s := if (supplyVMet va.toNat vb.toNat vc.toNat s).isSome || s.sw.supply == 0 then s else release 11 s
    if s.sw.supply == 0 || supplyFBad va.toNat vb.toNat vc.toNat freq.toNat s then s else release 12 s) s

/-- MEAS_LOST: no fresh currents for 100 ms while a coil output is on (R182). -/
def execMeasLost (s : State) : Out := supervised (fun s => if coilOn s && !holds 13 s then trip 13 0 s else s) s

/-- MEAS_RESTORED: 1 s of fresh data (R182); a lost current input gives none (R209). -/
def execMeasRestored (s : State) : Out :=
  supervised (fun s => if (List.range 3).any fun k => s.met.lost.getLsbD (4 + k) then s else release 13 s) s

/-! ## Overcurrent (R183 to R185) -/

/-- Fresh phase currents, 0.1 A. -/
def readCurrents (ia ib ic : BitVec 16) (s : State) : State :=
  s.updSw fun w => { w with phaseI := #v[ia.toNat, ib.toNat, ic.toNat] }

/-- OC_GRACE_MIDPOINT: the first phase above NEXT_TH is announced, once per grace time (R184). -/
def execOcGraceMidpoint (ia ib ic : BitVec 16) (s : State) : Out :=
  supervised (fun s =>
    let s := readCurrents ia ib ic s
    let next := thresholdFor s.pilot.alloc s
    if s.sup.graceOn && !s.sup.graceWarned then
      match [ia, ib, ic].findIdx? fun i => next < i.toNat with
      | some p => raiseHw 0x0C p (s.updSup fun u => { u with graceWarned := true })
      | none => s
    else s) s

/-- OC_GRACE_END: the threshold of the current allocation applies (R184). -/
def execOcGraceEnd (s : State) : Out := supervised (fun s => s.updSup fun u => { u with graceOn := false }) s

/-- OVERCURRENT_TRIP: a phase has been above 1.5 × the threshold for 200 ms, or above it for OC_T outside a grace time
(R185). -/
def execOvercurrentTrip (ia ib ic : BitVec 16) (s : State) : Out :=
  supervised (fun s =>
    let s := readCurrents ia ib ic s
    let th := threshold s
    let fast := 3 * th < 2 * largestI s
    let slow := th < largestI s && !s.sup.graceOn
    if (fast || slow) && !holds 6 s then trip 6 (largestI s) s else s) s

/-! ## Pilot release after a trip (R130, R186) -/

/-- TRIP_PILOT_RELEASE: 3 s after a trip the line goes to steady +12 V, unless the cause keeps state F (R186). -/
def execTripPilotRelease (s : State) : Out := supervised (fun s => settle (s.updSup fun u => { u with trip3s := false })) s

/-- PILOT_TRIP_HOLD_END: as TRIP_PILOT_RELEASE, for a trip for a pilot fault that is held (R130). -/
def execPilotTripHoldEnd (s : State) : Out :=
  supervised (fun s => if holds 5 s then settle (s.updSup fun u => { u with trip3s := false }) else s) s

/-! ## Release (R190, R191) -/

/-- The condition of OVERCURRENT is still met: a phase is above the threshold in force (R190). -/
def overcurrentStands (s : State) : Bool := threshold s < largestI s

/-- The host's request for one cause: RCM causes run a self-test first; OVERCURRENT, CLOSE_FAIL, FORME and HOST under the
tests of R190; every other cause is not the host's to clear. -/
def clearCause (bit : Nat) (s : State) : State :=
  if !holds bit s then s
  else match bit with
  | 0 | 1 => askTest false false (some ⟨bit, false⟩) s
  | 6 => if overcurrentStands s then s else release 6 s
  | 8 => if s.sw.tripWhy == some .closeFail && openOk s then release 8 s else s
  | 14 | 15 => release bit s
  | _ => s

/-- The local host is the host of the matrix; in HEAD and REPEATER that is the hub (R186). DEDUCED: in FACTORY and
COMMISSION, where no hub serves the module, its own host stands in, as R62 has it for the strand table. -/
def hostClears (s : State) : Bool :=
  !(s.sys.role == .head || s.sys.role == .repeater) || s.sys.mode == .factory || s.sys.mode == .commission

/-- SAFE_CLEAR: a 1 in bit n asks to release cause n (R190). -/
def safeClear (mask : BitVec 16) (s : State) : State :=
  if hostClears s then (List.range 16).foldl (fun s b => if mask.getLsbD b then clearCause b s else s) s else s

def execSafeClear (mask : BitVec 16) (s : State) : Out :=
  .next (hostTo Reg.SAFE_CLEAR_CLEAR.addr (fun s => (statusOk, safeClear mask s)) s)

/-- SAFE_RECLOSE releases OVERCURRENT, CLOSE_FAIL and FORME (R190). -/
def reclose (s : State) : State :=
  s |> (fun s => if overcurrentStands s then s else release 6 s)
    |> (fun s => if s.sw.tripWhy == some .closeFail && openOk s then release 8 s else s) |> release 14

/-- SAFE_CLEAR_P.WELD under installer presence, once open is confirmed (R186, R190). -/
def clearWeld (s : State) : State := if openOk s then release 7 s else s

/-- SAFE_CLEAR_P.CONTACTOR releases a CONTACTOR trip held for FB_MISMATCH (R186). -/
def clearMismatch (s : State) : State := if openOk s && s.sw.tripWhy == some .mismatch then release 8 s else s

/-- RECLOSE_TIMER: RECLOSE_T after a trip of RCM_DC, RCM_AC or OVERCURRENT the reclose policy acts, with fewer than N
automatic releases in this plug-in (R191). -/
def execRecloseTimer (bit : Fin 16) (s : State) : Out :=
  supervised (fun s =>
    if holds bit.val s && getF s Reg.SAFE_RECLOSE_CFG_COUNT < getF s Reg.SAFE_RECLOSE_CFG_N && !s.sup.reclOff.getLsbD bit.val then
      if bit = 0 ∨ bit = 1 then askTest false false (some ⟨bit.val, true⟩) s
      else if bit = 6 then s |> release 6 |> incF Reg.SAFE_RECLOSE_CFG_COUNT
      else s
    else s) s

/-- HOST_TRIP (R186 bit 15). -/
def execHostTrip (s : State) : Out := .next (hostTo Reg.SAFE_CTRL_HOST_TRIP.addr (fun s => (statusOk, trip 15 0 s)) s)

/-- SAFE_TRIP: a forme trip; its value is logged and kept in SAFE_LAST (R111, R192). -/
def formeTrip (v : Nat) (s : State) : State := s |> setF Reg.SAFE_LAST_FORME_VAL v |> trip 14 (v % 256)

/-! ## The limit port (R193) -/

/-- The field of a limit, and its range. -/
def limitOf (arg : Nat) : Option (Field × Nat × Nat) :=
  match arg with
  | 0 => some (Reg.SAFE_RCM_CFG_DC_TH, 30, 100)
  | 1 => some (Reg.SAFE_RCM_AC_AC_TH, 10, 300)
  | 2 => some (Reg.SAFE_TEMP_LIM_TRIP1, 40, 120)
  | 3 => some (Reg.SAFE_TEMP_LIM_TRIP2, 40, 120)
  | 4 => some (Reg.SAFE_OC_CFG_OC_PCT, 0, 50)
  | 5 => some (Reg.SAFE_OC_CFG_OC_ADD, 0, 50)
  | 6 => some (Reg.SAFE_SUPPLY_OV, 2300, 2760)
  | _ => none

/-- The limit in force; the AC tier switched off shows as 0xFFFF (R193). -/
def limitGet (arg : Nat) (s : State) : Nat :=
  match limitOf arg with
  | none => 0
  | some (f, _, _) =>
    let v := if arg = 4 ∨ arg = 5 then inForce s f else getF s f
    if arg = 1 ∧ v = 0 then 0xFFFF else v

/-- A written value limited to the range of its limit (R108, R193). -/
def limitRange (arg v : Nat) : Nat :=
  match limitOf arg with
  | none => v
  | some (_, lo, hi) => if arg = 1 ∧ v = 0xFFFF then v else clamp lo hi v

/-- A write of a limit: a lowering at once, a raise only while the supervisor is not running (R193). -/
def limitPut (arg v : Nat) (s : State) : State :=
  match limitOf arg with
  | none => s
  | some (f, _, _) =>
    let v := limitRange arg v
    if limitGet arg s < v && coilOn s then s
    else
      let s := setF f (if arg = 1 ∧ v = 0xFFFF then 0 else v) s
      if arg = 4 ∨ arg = 5 then boundary f s else s

end Sys2Proof.Machine
end

