-- ==== Sys2Proof/Machine/Site.lean ====
section
/-! DEFINITION. The site as the ports see it: grants in force, the node's link state, the link table, frame times
(12 R252 to R266, 13 R297 to R299). -/
namespace Sys2Proof.Machine

/-! ## Nodes and channels -/

/-- What the hub keeps of channel `c`. -/
def nodeAt (c : Nat) (s : State) : Node := if h : c < 256 then s.link.nodes.get ⟨c, h⟩ else {}

/-- Changes node `c`. -/
def modNode (c : Nat) (f : Node → Node) (s : State) : State :=
  if h : c < 256 then s.updLink fun l => { l with nodes := l.nodes.set c (f (l.nodes.get ⟨c, h⟩)) h } else s

/-- The allocation state of channel `c`. -/
def chanAt (c : Nat) (s : State) : Chan := if h : c < 256 then s.alloc.ch.get ⟨c, h⟩ else {}

/-- Changes the allocation state of channel `c`. -/
def modChan (c : Nat) (f : Chan → Chan) (s : State) : State :=
  if h : c < 256 then s.updAlloc fun a => { a with ch := a.ch.set c (f (a.ch.get ⟨c, h⟩)) h } else s

/-- Registered channels, ascending. -/
def registered (s : State) : List Nat := (List.range 256).filter fun c => (nodeAt c s).reg

/-- Channel 0 is the hub's own outlet (LNK_CFG.OUTLET_0). -/
def hubOutlet (s : State) : Bool := getB s Reg.LNK_CFG_OUTLET_0

/-- Channels with an outlet that the run covers (R284). -/
def outletChannels (s : State) : List Nat :=
  (if hubOutlet s then [0] else []) ++
  (registered s).filter fun c => !(nodeAt c s).repeater && !(c == 0 && hubOutlet s)

/-- The module is a node of a site: HEAD or REPEATER, paired. -/
def isNode (s : State) : Bool := (s.sys.role == .head || s.sys.role == .repeater) && s.sys.paired

/-! ## Grants in force (R297 to R300) -/

/-- The import and export grants in force. -/
def grants (s : State) : Nat × Nat :=
  match s.sys.role with
  | .repeater => (0, 0)
  | .head =>
    if !s.sys.paired ∨ s.link.relWait then (0, 0)
    else if s.link.inFallback then (s.link.fallbackA, 0)
    else (s.link.gImp, s.link.gExp)
  | .hub => if hubOutlet s then ((chanAt 0 s).imp.grant, (chanAt 0 s).exp.grant) else (0, 0)
  | .standalone =>
    if s.alloc.released then (0, 0)
    else if getB s Reg.ALLOC_SA_WRITTEN then (getF s Reg.ALLOC_SA_IMPORT, getF s Reg.ALLOC_SA_EXPORT)
    else (getF s Reg.ALLOC_SA_DEF_DEFAULT, 0)

/-- ALLOC_OWN.SOURCE: 0 poll, 1 fallback, 2 host, 3 hub run. -/
def grantSource (s : State) : Nat :=
  match s.sys.role with
  | .head => if s.link.inFallback then 1 else 0
  | .repeater => 0 | .hub => 3 | .standalone => 2

/-- When the larger grant in force falls below ALLOC_CURRENT, the module lowers ALLOC_CURRENT to it at once, a
safe-direction operation by the supervisor (R297). -/
def lowerToGrant (s : State) : State :=
  let g := max (grants s).1 (grants s).2
  if g < s.pilot.alloc then s |> allocate g |> fence 0x20B none none else s

/-! ## Polls as a node counts them (R264) -/

/-- T_p in µs: the mean interval of the last four polls, those it has, or 20 s; never below 1 s. -/
def pollPeriod (s : State) : Nat :=
  match s.link.pollTimes with
  | t :: u :: rest => max 1000000 ((t - (u :: rest).getLastD u) / (rest.length + 1))
  | _ => 20000000

/-- Rounds since the last poll (SITE_STATUS [5:2]). -/
def roundsSince (s : State) : Nat :=
  match s.link.lastPoll with
  | some t => min 15 (4 * (s.sys.usec - t) / (5 * pollPeriod s))
  | none => 0

/-- SITE_STATUS [1:0] and LNK_STATUS.STATE: 0 unpaired, 1 joined, 2 fallback. -/
def siteState (s : State) : Nat := if !isNode s then 0 else if s.link.inFallback then 2 else 1

/-- The port SITE_STATUS. -/
def siteStatus (s : State) : Nat :=
  siteState s + 4 * (if isNode s then roundsSince s else 0) + 256 * getF s Reg.LNK_STATUS_HOPS + 4096 * ownChannel s

/-- The module meters three phases (MET_CFG.WIRING). -/
def threePhase (s : State) : Bool := phasesInUse s == 3

/-- Degrees × 10 between two lags, the short way round. -/
def lagApart (a b : Nat) : Nat := let d := (a + 3600 - b) % 3600; min d (3600 - d)

/-- The phase code of the lags held, newest first (R269): unknown with fewer than four, or spread over more than 20°; the
mean is taken around the newest. -/
def lagMean (lags : List Nat) : Nat :=
  match lags with
  | [] => 0
  | a :: _ =>
    let offs := lags.map fun x => (((x + 5400 - a) % 3600 : Nat) : Int) - 1800
    let sum := offs.foldl (· + ·) 0
    (((a : Int) + sum / lags.length) % 3600).toNat

def phaseCode (lags : List Nat) : Nat :=
  let m := lagMean lags
  let spread := lags.any fun a => lags.any fun b => decide (200 < lagApart a b)
  if lags.length < 4 ∨ spread then 3
  else if lagApart m 0 ≤ 300 then 0 else if lagApart m 1200 ≤ 300 then 1 else if lagApart m 2400 ≤ 300 then 2 else 3

/-- The phase code: that of the lags held, or while a session runs the one from before it (R269). -/
def siteCode (s : State) : Nat := if sessionActive s then s.link.phase else phaseCode s.link.lags

/-- The port SITE_PHASE (R269): the rotation only from a three-phase head. -/
def sitePhase (s : State) : Nat :=
  siteCode s + 4 * ofBool (threePhase s) + 8 * ofBool (threePhase s && getB s Reg.MET_STATUS_ROT_REV)

/-- SITE_FALLBACK_A: the value stored at a node, and that of the latest run at the hub (R298). -/
def siteFallback (s : State) : Nat :=
  if s.sys.role = .hub then getF s Reg.ALLOC_SAFE_FALLBACK else s.link.fallbackA

/-! ## Frame times (R252 to R255) -/

/-- A band plan (R252): carriers, samples in a symbol, SYNC symbols, samples in T_g, and the fewest usable carriers. -/
structure Plan where
  carriers : Nat
  symbol : Nat
  sync : Nat
  gap : Nat
  fewest : Nat

def planA : Plan := { carriers := 35, symbol := 456, sync := 1, gap := 900, fewest := 12 }
def planF : Plan := { carriers := 70, symbol := 380, sync := 8, gap := 2250, fewest := 24 }

/-- The plan in use (LNK_CFG.PLAN). -/
def planOf (s : State) : Plan := if getB s Reg.LNK_CFG_PLAN then planF else planA

/-- C: the coded bits of a message of `m` bytes (R253). -/
def codedBits (m : Nat) : Nat :=
  let k := (m + 238) / 239
  let piece := (m + k - 1) / k
  2 * (8 * (k * (piece + 16)) + 6)

/-- S_p: the payload symbols (R255); modulation 0 HAWSER, 1 DBPSK, 2 DQPSK, 3 D8PSK. -/
def payloadSymbols (m modulation usable : Nat) : Nat :=
  let r := if modulation = 0 then 4 else 1
  let b := max 1 modulation
  (r * codedBits m + b * usable - 1) / (b * usable)

/-- The samples of a frame; a HAWSER frame uses every carrier of the plan (R254). -/
def frameSamples (p : Plan) (m modulation usable : Nat) : Nat :=
  (p.sync + payloadSymbols m modulation (if modulation = 0 then p.carriers else usable)) * p.symbol

def pollBytes : Nat := 31
def answerBytes : Nat := 97
def chunkBytes : Nat := 1056

/-- The samples one hop takes of an exchange: T_q + T_a + 2 T_g (R262). -/
def hopSamples (p : Plan) (modulation usable : Nat) : Nat :=
  frameSamples p pollBytes modulation usable + frameSamples p answerBytes modulation usable + 2 * p.gap

/-! ## The link table and leads (R266 to R268) -/

/-- The hub, as an end of a hop. -/
def hubEnd : Nat := 256

/-- Carriers set in a map. -/
def carriersOf (p : Plan) (t : BitVec 70) : Nat := ((List.range p.carriers).filter fun i => t.getLsbD i).length

/-- The best modulation a hop allows: by its SNR, with at least the fewest usable carriers; HAWSER otherwise (R252,
R266). -/
def Hop.modulation (p : Plan) (h : Hop) : Nat :=
  match h.tones with
  | none => 0
  | some t => if carriersOf p t < p.fewest then 0 else if 68 ≤ h.snr then 3 else if 44 ≤ h.snr then 2 else if 28 ≤ h.snr then 1 else 0

/-- Its usable carriers. -/
def Hop.usable (p : Plan) (h : Hop) : Nat := match h.tones with | some t => carriersOf p t | none => p.carriers

/-- The entry of the ordered pair. -/
def hopOf (a b : Nat) (s : State) : Option Hop := s.link.table.find? fun h => h.a == a && h.b == b

/-- The hops of a route, from the hub down. -/
def hopsOf : Nat → List Nat → List (Nat × Nat)
  | _, [] => []
  | a, b :: rest => (a, b) :: hopsOf b rest

/-- A lead found: its time in samples, its route. -/
structure Path where
  time : Nat
  route : List Nat
  deriving DecidableEq, Repr

/-- The lower of two routes of one length, relay by relay. -/
def routeLt : List Nat → List Nat → Bool
  | a :: as, b :: bs => decide (a < b) || (a == b && routeLt as bs)
  | _, _ => false

/-- A path is better: less time, then fewer hops, then lower relay channels in order (R267). -/
def Path.better (x y : Path) : Bool :=
  if x.time ≠ y.time then x.time < y.time
  else if x.route.length ≠ y.route.length then x.route.length < y.route.length
  else routeLt x.route y.route

/-- The better of two paths to one node. -/
def offer (c : Nat) (x : Path) (m : NMap Path) : NMap Path :=
  match mapGet? m c with
  | some y => if x.better y then mapPut m c x else m
  | none => mapPut m c x

/-- One more hop from every node reached, but from those that may not relay. -/
def extend (cost : Hop → Nat) (relay : Nat → Bool) (hops : List Hop) (m : NMap Path) : NMap Path :=
  hops.foldl (fun acc h =>
    let from_ : Option Path := if h.a = hubEnd then some ⟨0, []⟩ else if relay h.a then mapGet? m h.a else none
    match from_ with
    | some x => if x.route.contains h.b ∨ h.b = hubEnd then acc else offer h.b ⟨x.time + cost h, x.route ++ [h.b]⟩ acc
    | none => acc) m

/-- The best paths at a modulation, of at most 7 hops. -/
def pathsAt (p : Plan) (modulation : Nat) (relay : Nat → Bool) (hops : List Hop) : NMap Path :=
  let ok := hops.filter fun h => decide (modulation ≤ h.modulation p)
  (List.range 7).foldl (fun m _ => extend (fun h => hopSamples p modulation (h.usable p)) relay ok m) []

/-- The best lead to `c`: its modulation and path (R267). -/
def bestLead (p : Plan) (relay : Nat → Bool) (hops : List Hop) (c : Nat) : Option (Nat × Path) :=
  [3, 2, 1, 0].foldl (fun best m =>
    match mapGet? (pathsAt p m relay hops) c, best with
    | some x, some (_, y) => if x.better y then some (m, x) else best
    | some x, none => some (m, x)
    | none, _ => best) none

/-- May relay: registered, not INERT, not dormant, not marked missed in this round (R267). -/
def mayRelay (s : State) (c : Nat) : Bool :=
  let n := nodeAt c s
  n.reg && !n.inert && !n.dormant && (!n.missed || s.link.todo.contains c)

/-- The time of the lead a node holds, or none when it holds a hop that is not in the table or suspect. -/
def leadTime (p : Plan) (c : Nat) (s : State) : Option Nat :=
  let n := nodeAt c s
  let hs := hopsOf hubEnd n.lead
  if n.lead = [] ∨ hs.any (fun h => s.link.suspect.contains h) then none
  else hs.foldl (fun acc h => match acc, hopOf h.1 h.2 s with
    | some t, some e => if n.modulation ≤ e.modulation p then some (t + hopSamples p n.modulation (e.usable p)) else none
    | _, _ => none) (some 0)

/-- Chooses the lead of `c` again: a new one replaces the current one at 0.8 of its time or less, or when the current one
holds a hop that is unusable or suspect (R267, R268). -/
def chooseLead (c : Nat) (s : State) : State :=
  let p := planOf s
  let hops := s.link.table.filter fun h => !s.link.suspect.contains (h.a, h.b)
  match bestLead p (mayRelay s) hops c with
  | none => s
  | some (m, x) =>
    let take : Bool := match leadTime p c s with
      | some t => decide (10 * x.time ≤ 8 * t)
      | none => true
    if take then modNode c (fun n => { n with lead := x.route, modulation := m }) s else s

/-- A measurement of a hop goes into the table; a NEIGH report gives a pair without a map, and replaces no map (R266). -/
def learnHop (h : Hop) (s : State) : State :=
  s.updLink fun l =>
    match l.table.find? fun x => x.a == h.a && x.b == h.b with
    | some x =>
      if x.tones.isSome ∧ h.tones.isNone then l
      else { l with table := l.table.map fun x => if x.a = h.a ∧ x.b = h.b then h else x }
    | none => { l with table := l.table ++ [h] }

/-- LNK_NODEn.CARRIERS: the fewest usable carriers over the hops of the lead. -/
def leadCarriers (c : Nat) (s : State) : Nat :=
  let p := planOf s
  match (hopsOf hubEnd (nodeAt c s).lead).map fun h => ((hopOf h.1 h.2 s).map (·.usable p)).getD p.carriers with
  | [] => 0
  | a :: as => as.foldl min a

/-! ## Publishing (R273) -/

/-- The hub takes up an object for delivery to these members: behind the others, or ahead of all but the running one's
current chunk (R272, R273). -/
def publish (kind : Nat) (bytes : List Byte) (members : List Nat) (front : Bool) (s : State) : State :=
  if members = [] then s
  else s.updLink fun l =>
    let p : Pub := { id := l.nextId, kind := kind, bytes := bytes, members := members }
    { l with pubs := if front then p :: l.pubs else l.pubs ++ [p], nextId := l.nextId % 0xFFFF + 1 }

end Sys2Proof.Machine
end

