-- ==== Sys2Proof/Machine/Frames.lean ====
section
/-! DEFINITION. The frames of the site link: Reed-Solomon and convolutional coding, the mapping to symbols and phases, the
messages of polls, answers and chunks with their protection, impulse blanking (12 R253 to R260, R273). -/
namespace Sys2Proof.Machine

/-! ## Reed-Solomon over GF(256) (R253 step 1) -/

/-- Times α, modulo x⁸ + x⁴ + x³ + x² + 1. -/
def gfDouble (a : Nat) : Nat := if a < 128 then 2 * a else (2 * a) ^^^ 0x11D

/-- Product in GF(256): Horner's scheme from bit 7 of `b` down. -/
def gfMul (a b : Nat) : Nat :=
  (List.range 8).foldr (fun i acc => gfDouble acc ^^^ (if b.testBit i then a else 0)) 0

/-- A polynomial, highest power first, times x + r. -/
def gfTimesRoot (g : List Nat) (r : Nat) : List Nat := List.zipWith (· ^^^ ·) (g ++ [0]) (0 :: g.map (gfMul r))

/-- αⁱ. -/
def gfPower : Nat → Nat
  | 0 => 1
  | i + 1 => gfDouble (gfPower i)

/-- The generator ∏ (x − αⁱ) for i = 0 to 15. -/
def rsGenerator : List Nat := (List.range 16).foldl (fun g i => gfTimesRoot g (gfPower i)) [1]

/-- One message byte enters the remainder, highest power first. -/
def rsStep (g rem : List Nat) (m : Nat) : List Nat :=
  List.zipWith (· ^^^ ·) (rem.drop 1 ++ [0]) (g.map (gfMul (m ^^^ rem.headD 0)))

/-- The codeword of a piece: its bytes, then 16 of parity. -/
def rsEncode (piece : List Byte) : List Byte :=
  let g := rsGenerator.drop 1
  piece ++ (piece.foldl (fun rem b => rsStep g rem b.toNat) (List.replicate 16 0)).map (BitVec.ofNat 8 ·)

/-- A message as its pieces of equal length, the last one padded with zero bytes. -/
def piecesOf (msg : List Byte) : List (List Byte) :=
  let k := (msg.length + 238) / 239
  let n := (msg.length + k - 1) / k
  (List.range k).map fun i => ((msg ++ List.replicate n 0).drop (i * n)).take n

/-! ## Convolutional code and repetition (R253 steps 2 and 3) -/

/-- The bits of bytes, each least significant bit first. -/
def bitsOf (bs : List Byte) : List Bool := bs.flatMap fun b => (List.range 8).map fun i => b.getLsbD i

/-- The parity of the bits of a 7-bit window that a generator taps. -/
def tapped (g w : Nat) : Bool := ((List.range 7).filter fun i => g.testBit i && w.testBit i).length % 2 == 1

/-- The encoder of constraint length 7 from the six bits before, the newest highest: the output of 171 octal first, then
that of 133. PRESUMED: the most significant tap of a generator takes the newest bit. -/
def convolve : Nat → List Bool → List Bool
  | _, [] => []
  | before, b :: rest =>
    let w := before + (if b then 64 else 0)
    tapped 0o171 w :: tapped 0o133 w :: convolve (w / 2) rest

/-- The coded bits of a message, with the six tail bits. -/
def codedOf (msg : List Byte) : List Bool :=
  convolve 0 (bitsOf ((piecesOf msg).flatMap rsEncode) ++ List.replicate 6 false)

/-- The stream: four copies in HAWSER. -/
def streamOf (modulation : Nat) (msg : List Byte) : List Bool :=
  let c := codedOf msg
  if modulation = 0 then c ++ c ++ c ++ c else c

/-! ## Symbols and phases (R253 steps 4 and 5, R254) -/

/-- The carriers a frame uses, ascending: those usable on its hop; in HAWSER every carrier of the plan. -/
def usedCarriers (p : Plan) (f : TxFrame) : List Nat :=
  (List.range p.carriers).filter fun i => f.modulation == 0 || f.tones.getLsbD i

/-- The bits of payload symbol `t` of `n`, by position: stream bit j stands in symbol j mod n at position ⌊j / n⌋. -/
def symbolBit (stream : List Bool) (n t pos : Nat) : Bool := stream.getD (pos * n + t) false

/-- The step of a Gray label in π/4, its first bit the most significant. -/
def grayStep (modulation : Nat) (label : List Bool) : Nat :=
  let v := label.foldl (fun v b => 2 * v + ofBool b) 0
  if modulation ≤ 1 then 4 * v
  else if modulation = 2 then [0, 2, 6, 4].getD v 0
  else [0, 1, 3, 2, 7, 6, 4, 5].getD v 0

/-- The steps of the carriers of payload symbol `t`, in π/4; a masked carrier takes 0. -/
def symbolSteps (p : Plan) (f : TxFrame) (stream : List Bool) (n t : Nat) : List Nat :=
  let used := usedCarriers p f
  let b := max 1 f.modulation
  (List.range p.carriers).map fun i => match used.findIdx? (· == i) with
    | some u => grayStep f.modulation ((List.range b).map fun j => symbolBit stream n t (b * u + j))
    | none => 0

/-- The phases of a SYNC symbol of pattern `pat`, in units of π / 4N. -/
def syncPhases (p : Plan) (pat : Nat) : List Nat :=
  (List.range p.carriers).map fun i => 4 * ((i * i + 2 * pat * i) % (2 * p.carriers))

/-- The phases that follow from the symbol before by the steps of each symbol, in units of π / 4N. -/
def advance (p : Plan) : List Nat → List (List Nat) → List (List Nat)
  | _, [] => []
  | before, s :: rest =>
    let now := List.zipWith (fun a k => (a + k * p.carriers) % (8 * p.carriers)) before s
    now :: advance p now rest

/-- The symbols of a frame as the phases of the plan's carriers: the SYNC symbols, the last of which names kind and
modulation and is the reference of the first payload symbol, then the payload (R254). -/
def framePhases (p : Plan) (f : TxFrame) : List (List Nat) :=
  let stream := streamOf f.modulation f.message
  let n := payloadSymbols f.message.length f.modulation (usedCarriers p f).length
  let last := syncPhases p (4 * f.kind + f.modulation)
  List.replicate (p.sync - 1) (syncPhases p 0) ++ last :: advance p last ((List.range n).map (symbolSteps p f stream n))

/-- The frame last sent, as it stands on LT_P and LT_N. -/
def lineSymbols (s : State) : List (List Nat) := (s.link.tx.map (framePhases (planOf s))).getD []

/-- A frame goes out: the output step that was written comes into force (R250). -/
def transmit (f : TxFrame) (s : State) : State := (boundary Reg.LNK_TX_ATT s).updLink fun l => { l with tx := some f }

/-- Every carrier of the plan. -/
def allCarriers : BitVec 70 := BitVec.allOnes 70

/-! ## Link keys (R257, 16 R353) -/

/-- The node secret of a channel (16 R353 step 5). -/
def nodeSecret (c : Nat) (ident : BitVec 64) (s : State) : List Byte :=
  let epoch := ((knotAt 3 s).map (·.epoch)).getD 0
  kdf (knotSecret 3 s) ([0x4E, 0x4F, 0x44, 0x45] ++ leBytes c 1 ++ leBytes ident.toNat 8) (beBytes epoch 4 ++ [0xFF]) 256

/-- The link key of channel `c`, derived anew at the hub (16 R353 step 6). -/
def hubLinkKey (c : Nat) (s : State) : List Byte :=
  kdf (nodeSecret c (nodeAt c s).ident s) [0x4C, 0x49, 0x4E, 0x4B] (beBytes 0 4 ++ [BitVec.ofNat 8 engAes1]) 128

/-- A node's own link key; none where its slot in AES1 holds none. -/
def ownLinkKey (s : State) : Option (List Byte) :=
  (s.link.linkSlot.bind fun i => (slotAt s i).work).map fun w => beBytes w.key 16

/-! ## Messages (R257 to R259) -/

/-- The nonce of a poll or an answer. -/
def linkNonce (round c : Nat) (answer retry : Bool) : List Byte :=
  leBytes round 4 ++ leBytes c 1 ++ leBytes (ofBool answer + 2 * ofBool retry + 4 * ofBool answer) 1 ++ List.replicate 6 0

/-- CTRL. -/
def ctrlByte (hop hops : Nat) : List Byte := leBytes (hop + 8 * (hops - 1)) 1

/-- ROUTE: seven entries, later ones 0. -/
def routeField (route : List Byte) : List Byte := (route ++ List.replicate 7 0).take 7

/-- The addressed node: ROUTE[HOPS − 1]. -/
def addressed (route : List Byte) (hops : Nat) : Nat := (route.getD (hops - 1) 0).toNat

/-- ROUND of a poll. -/
def pollRoundField (f : PollFrame) : List Byte := leBytes (f.round.toNat % 16384 + 16384 * ofBool f.joinOpen) 2

/-- The part of a poll that is encrypted: 0x0C to 0x1A. -/
def pollBody (f : PollFrame) : List Byte :=
  leBytes f.clock16.toNat 2 ++ leBytes (f.grantImp.toNat + f.grantExp.toNat * 2 ^ 14 + f.ack.toNat * 2 ^ 28) 4 ++
  leBytes f.fallback.toNat 2 ++ leBytes f.var.toNat 4 ++ leBytes (f.replyKind.toNat + 4 * f.replyValue.toNat) 2 ++
  leBytes (f.duty.toNat + 4 * ofBool f.coSend) 1

/-- Ciphertext and tag of a poll under a key. -/
def pollSealed (key : List Byte) (f : PollFrame) : List Byte :=
  Config.gcm key (linkNonce f.round.toNat (addressed f.route f.hops.toNat) false f.retry)
    (routeField f.route ++ pollRoundField f) (pollBody f)

/-- The 4-byte tag of a message whose sealed part is `sealed` over `n` bytes. -/
def tagOf (sealed : List Byte) (n : Nat) : BitVec 32 := BitVec.ofNat 32 (leNat ((sealed.drop n).take 4))

/-- The tag that a poll bears under a key. -/
def pollTagUnder (key : List Byte) (f : PollFrame) : BitVec 32 := tagOf (pollSealed key f) 15

/-- ZC of a poll, with its valid bit. -/
def zcField (zc : Option Nat) : List Byte := leBytes ((zc.map (· + 32768)).getD 0) 2

/-- The poll message as it leaves the hub. -/
def pollMessage (key : List Byte) (f : PollFrame) : List Byte :=
  ctrlByte 0 f.hops.toNat ++ routeField f.route ++ pollRoundField f ++ zcField (f.zc.map (·.toNat)) ++ (pollSealed key f).take 15 ++
  leBytes f.tag.toNat 4

/-- LQ, TONES and NEIGH of an answer. -/
def answerMeasured (a : AnswerFrame) : List Byte :=
  leBytes a.lqSnr.toNat 1 ++ leBytes a.lqUsable.toNat 1 ++ leBytes a.lqBlanked.toNat 1 ++ leBytes a.tones.toNat 9 ++
  ((a.neigh.flatMap fun (x : BitVec 8 × BitVec 8) => leBytes (x.1 : BitVec 8).toNat 1 ++ leBytes (x.2 : BitVec 8).toNat 1) ++ List.replicate 4 0).take 4

/-- IRMS of one phase. -/
def irmsField (a : AnswerFrame) (p : Fin 3) : List Byte := leBytes ((a.amps.get p).toNat + 32768 * ofBool (a.exporting.getLsbD p.val)) 2

/-- The part of an answer that is encrypted: 0x1A to 0x5C. -/
def answerBody (a : AnswerFrame) : List Byte :=
  leBytes a.state.toNat 1 ++ (irmsField a 0 ++ irmsField a 1 ++ irmsField a 2) ++ leBytes a.evReq.toNat 2 ++
  leBytes a.phase.toNat 2 ++ (a.req ++ List.replicate 14 0).take 14 ++ leBytes a.cost.toNat 4 ++
  leBytes (a.delivNext.toNat + 65536 * a.delivId.toNat) 4 ++ leBytes a.slotCtrl.toNat 2 ++ (a.slot ++ List.replicate 32 0).take 32

/-- Ciphertext and tag of an answer to the poll of round `round` under a key. -/
def answerSealed (key : List Byte) (round : Nat) (retry : Bool) (a : AnswerFrame) : List Byte :=
  Config.gcm key (linkNonce round (addressed a.route a.hops.toNat) true retry)
    (routeField a.route ++ leBytes a.round.toNat 2 ++ answerMeasured a) (answerBody a)

/-- The tag that an answer bears under a key. -/
def answerTagUnder (key : List Byte) (round : Nat) (retry : Bool) (a : AnswerFrame) : BitVec 32 :=
  tagOf (answerSealed key round retry a) 67

/-- The answer message as it leaves the addressed node. -/
def answerMessage (key : List Byte) (round : Nat) (retry : Bool) (a : AnswerFrame) : List Byte :=
  ctrlByte (a.hops.toNat - 1) a.hops.toNat ++ routeField a.route ++ leBytes a.round.toNat 2 ++ answerMeasured a ++
  (answerSealed key round retry a).take 67 ++ leBytes a.tag.toNat 4

/-! ## Chunks (R273) -/

/-- The data bytes of a chunk: 1,024 of them. -/
def chunkData (bs : List Byte) : List Byte := (bs ++ List.replicate 1024 0).take 1024

/-- A chunk message. -/
def chunkMessage (kind sender delivery chunk chunks : Nat) (data : List Byte) : List Byte :=
  leBytes kind 1 ++ leBytes sender 1 ++ leBytes delivery 2 ++ leBytes chunk 2 ++ leBytes chunks 2 ++
  leBytes (crc32 (chunkData data)).toNat 4 ++ List.replicate 20 0 ++ chunkData data

/-! ## Impulse blanking (R260) -/

/-- One sample: what the last 2 ms hold (squares, none for a blanked sample, newest first), and whether the sample is set
to zero: its magnitude exceeds 4 × their rms. With no sample left in the window it is kept. -/
def blankStep (window : Nat) (past : List (Option Nat)) (x : Int) : List (Option Nat) × Bool :=
  let kept := (past.take window).filterMap id
  let out : Bool := kept != [] && decide (16 * kept.foldl (· + ·) 0 < x.natAbs * x.natAbs * kept.length)
  ((if out then none else some (x.natAbs * x.natAbs)) :: past.take window, out)

/-- Which samples are set to zero. -/
def blankedSamples (window : Nat) : List (Option Nat) → List Int → List Bool
  | _, [] => []
  | past, x :: xs => let r := blankStep window past x; r.2 :: blankedSamples window r.1 xs

/-- The symbols of `size` samples with one set to zero. -/
def blankedSymbols (size : Nat) : Nat → List Bool → Nat
  | 0, _ => 0
  | n + 1, bs => if bs = [] then 0 else ofBool ((bs.take size).any id) + blankedSymbols size n (bs.drop size)

/-- The samples in 2 ms. -/
def blankWindow (p : Plan) : Nat := if p.carriers = 35 then 1200 else 3000

/-- The blanked symbols of a frame: `input` holds the 2 ms before it and then the frame. -/
def blankedIn (input : List (BitVec 16)) (s : State) : Nat :=
  let p := planOf s
  let w := blankWindow p
  let zeroed := (blankedSamples w [] (input.map (·.toInt))).drop w
  blankedSymbols p.symbol (zeroed.length / p.symbol + 1) zeroed

/-- A frame is received: its blanked symbols are counted in LNK_IMPULSE (R260). -/
def receive (input : List (BitVec 16)) (s : State) : State :=
  setF Reg.LNK_IMPULSE_SYMBOLS (min 0xFFFFFFFF (getF s Reg.LNK_IMPULSE_SYMBOLS + blankedIn input s)) s

/-- LQ [23:16]: the symbols blanked, saturating at 255. -/
def blankedLq (input : List (BitVec 16)) (s : State) : BitVec 8 := BitVec.ofNat 8 (min 255 (blankedIn input s))

end Sys2Proof.Machine
end

