-- ==== Sys2Proof/Machine/Operands.lean ====
section
/-! DEFINITION. The operand forms of the Capstan: registers, pairs, predicates and the case-memory window
(04 R70, R71, 05 R93). -/
namespace Sys2Proof.Machine

/-- Register `i`: w0 reads as 0 (R70). -/
def getW (t : Strand) (i : Fin 16) : Word := if i = 0 then 0 else t.w.get i

/-- Writes register `i`: a write to w0 is discarded (R70). -/
def setW (i : Fin 16) (v : Word) (t : Strand) : Strand :=
  if i = 0 then t else { t with w := t.w.set i.val v i.isLt }

/-- Pair `i`: w(i+1) × 2^32 + wi (R70). -/
def getX (t : Strand) (i : Fin 16) : BitVec 64 := (getW t (i + 1)) ++ (getW t i)

/-- Writes pair `i` (R70). -/
def setX (i : Fin 16) (v : BitVec 64) (t : Strand) : Strand :=
  setW (i + 1) (BitVec.ofNat 32 (v.toNat / 2 ^ 32)) (setW i (v.truncate 32) t)

/-- Predicate `i`: p0 is always true (R67, R70). -/
def getP (t : Strand) (i : Fin 4) : Bool := i = 0 || t.p.getLsbD i.val

/-- Writes predicate `i`: a write to p0 is discarded (R70). -/
def setP (i : Fin 4) (b : Bool) (t : Strand) : Strand :=
  if i = 0 then t
  else { t with p := (t.p &&& ~~~(BitVec.ofNat 4 (2 ^ i.val))) ||| (if b then BitVec.ofNat 4 (2 ^ i.val) else 0) }

/-- Strand `n` is speculative: its galley is open and not resolved (R91). -/
def speculative (s : State) (n : Fin 320) : Bool :=
  match (getS s n).galley with
  | some g => g.resolved.isNone
  | none => false

/-- The byte offset of an access of `size` bytes: RA + sext(IMM), its low log2(size) bits ignored (R71). -/
def accessOffset (t : Strand) (ra : Fin 16) (imm : Word) (size : Nat) : Nat :=
  let o := (getW t ra + imm).toNat
  o - o % size

/-- The bytes of a strand's window: base plus size beyond 4,096 units is limited to 4,096 (ST_WIN). -/
def windowBytes (t : Strand) : Nat := min t.winSize (4096 - t.winBase) * 64

/-- The case address of the window's first byte. -/
def windowStart (t : Strand) : Nat := t.winBase * 64

/-- An access of `size` bytes at offset `o` falls outside the window (R38, R71). -/
def outsideWindow (t : Strand) (o size : Nat) : Bool := windowBytes t < o + size

/-- The bytes a galley holds for unit `k` (R93). -/
def heldUnit (k : Nat) : List Held → Option (NMap Byte)
  | [] => none
  | h :: hs => match h.kind with
    | .unit k' m => if k' = k then some m else heldUnit k hs
    | _ => heldUnit k hs

/-- One byte of the window as the strand reads it: its own held bytes first, then case memory (R87, R93). -/
def windowByte (s : State) (t : Strand) (o : Nat) : Byte :=
  let arch := byteAt 0 s.cap.caseMem (windowStart t + o)
  match t.galley with
  | none => arch
  | some g => match heldUnit (o / 64) g.held with
    | some m => mapGet arch m (o % 64)
    | none => arch

/-- `size` bytes of the window from offset `o` up, as the strand reads them. -/
def windowRead (s : State) (t : Strand) (o : Nat) : Nat → List Byte
  | 0 => []
  | n + 1 => windowByte s t o :: windowRead s t (o + 1) n

/-- Writes bytes into a unit's held bytes. -/
def putUnit (m : NMap Byte) (o : Nat) : List Byte → NMap Byte
  | [] => m
  | b :: bs => putUnit (mapPut m o b) (o + 1) bs

/-- Writes bytes into the held entry of unit `k`. -/
def updateUnit (k o : Nat) (bs : List Byte) : List Held → List Held
  | [] => []
  | h :: hs => match h.kind with
    | .unit k' m => if k' = k then { h with kind := .unit k (putUnit m o bs) } :: hs else h :: updateUnit k o bs hs
    | _ => h :: updateUnit k o bs hs

end Sys2Proof.Machine
end

