-- ==== Sys2Proof/Machine/Flags.lean ====
section
/-! DEFINITION. The Capstan has no condition flags (04 R70): what instructions compute beside their results are
predicates, by the conditions of R73 and the truth tables of PLOG. -/
namespace Sys2Proof.Machine

/-- The condition coded `cc` on two values (R73); codes 0xC to 0xF are undefined and fault before this is read. -/
def condHolds {w : Nat} (cc : Nat) (a b : BitVec w) : Bool :=
  match cc with
  | 0x0 => a == b
  | 0x1 => a != b
  | 0x2 => a.slt b
  | 0x3 => !a.slt b
  | 0x4 => a.ult b
  | 0x5 => !a.ult b
  | 0x6 => a.sle b
  | 0x7 => !a.sle b
  | 0x8 => a.ule b
  | 0x9 => !a.ule b
  | 0xA => (a &&& b) != 0
  | 0xB => (a &&& b) == 0
  | _ => false

/-- A condition code that R73 does not define. -/
def illCond (cc : Nat) : Bool := 0xC ≤ cc

/-- PLOG: tt[2 × pa + pb] (R75). -/
def plogBit (tt : Nat) (pa pb : Bool) : Bool := bit tt (2 * ofBool pa + ofBool pb)

end Sys2Proof.Machine
end

