-- ==== Sys2Proof/Machine/Store.lean ====
section
/-! DEFINITION. The store: what its window shows, firmware slots and their checks, formes (19 R402 to R416). -/
namespace Sys2Proof.Machine

def imageRejected : Nat := 0x60
def updBusy : Nat := 0x52
def updFailed : Nat := 0x53
def updNoRoom : Nat := 0x54
def updFormat : Nat := 0x55
def updLegal : Nat := 0x56
def rcStoreRange : Nat := 0x51

/-! ## Partitions (R402) -/

/-- The partitions, by their bases in the store window. -/
inductive Part where
  | slot (k : Nat) | legal | forme (k : Nat) | directory | stash | ledger | assets | certs | knots | config | settings
  | logs | lastGasp | tables | formeData | staging | reserved
  deriving DecidableEq, Repr

/-- The partition of a window offset, and its base. -/
def partOf (a : Nat) : Option (Part × Nat) :=
  if a < 0x400000 then some (.slot 0, 0) else if a < 0x800000 then some (.slot 1, 0x400000)
  else if a < 0x900000 then some (.legal, 0x800000)
  else if a < 0x980000 then some (.forme 0, 0x900000) else if a < 0xA00000 then some (.forme 1, 0x980000)
  else if a < 0x2A00000 then some (.directory, 0xA00000) else if a < 0x2A40000 then some (.stash, 0x2A00000)
  else if a < 0x3A40000 then some (.ledger, 0x2A40000) else if a < 0x3D40000 then some (.assets, 0x3A40000)
  else if a < 0x3DC0000 then some (.certs, 0x3D40000) else if a < 0x3DE0000 then some (.knots, 0x3DC0000)
  else if a < 0x3E00000 then some (.config, 0x3DE0000) else if a < 0x3E20000 then some (.settings, 0x3E00000)
  else if a < 0x3EE0000 then some (.logs, 0x3E20000) else if a < 0x3EF0000 then some (.lastGasp, 0x3EE0000)
  else if a < 0x3F30000 then some (.tables, 0x3EF0000) else if a < 0x3F70000 then some (.formeData, 0x3F30000)
  else if a < 0x3FF0000 then some (.staging, 0x3F70000) else if a < 0x4000000 then some (.reserved, 0x3FF0000)
  else none

/-- It is held as ciphertext. -/
def Part.encrypted : Part → Bool
  | .directory | .stash => true
  | _ => false

/-! ## What a byte of the window shows -/

/-- Byte `i` of a list, erased beyond its end. -/
def byteOr (d : Byte) (bs : List Byte) (i : Nat) : Byte := bs.getD i d

/-- The ledger ring: the record that covers an offset, else erased (11 R244). -/
def ringByte (o : Nat) (s : State) : Byte :=
  let n := ringBlocks * 0x10000
  match s.led.records.find? fun r => (o + n - ringOffset r.pos) % n < r.bytes.length with
  | some r => byteOr 0xFF r.bytes ((o + n - ringOffset r.pos) % n)
  | none => 0xFF

/-- The 16 bytes of a log entry (R410). -/
def LogEntry.bytes (e : LogEntry) : List Byte :=
  leBytes e.time 4 ++ leBytes e.source 1 ++ leBytes e.code 1 ++ leBytes e.session 2 ++ leBytes e.value 8

/-- A byte of a log ring of `n` entries, whose next write is at `next`; entries newest first. -/
def logByte (log : List LogEntry) (n next o : Nat) : Byte :=
  match log[(next + n - 1 - o / 16) % n]? with
  | some e => byteOr 0xFF e.bytes (o % 16)
  | none => 0xFF

/-- The bytes of items, each value padded with zeros to a multiple of 4 (R411). -/
def itemBytes (xs : List SettingItem) : List Byte :=
  xs.flatMap fun x => leBytes x.item 2 ++ leBytes x.value.length 2 ++ x.value ++ List.replicate (3 - (x.value.length + 3) % 4) 0

/-- The settings partition (R411). -/
def settingsBytes (s : State) : List Byte :=
  let xs := s.sys.settings.filter fun x => x.item < 0x100
  let body := itemBytes xs
  let head := [0x53, 0x45, 0x54, 0x47] ++ leBytes (s.store.formats.getD 5 1) 2 ++ leBytes xs.length 2 ++ leBytes body.length 4
  head ++ leBytes (crc32 (head ++ [0, 0, 0, 0] ++ body)).toNat 4 ++ body

/-- Entry `k` of the knot table (16 R340); a free entry reads as zeros. -/
def knotBytes (k : Nat) (s : State) : List Byte :=
  let e : Option Knot := if k = 0 then some rootKnot else mapGet? s.key.knots k
  match e with
  | none => List.replicate 32 0
  | some e =>
    let b := leBytes (if k = 0 then 0xFFFF else e.parent) 2 ++ leBytes e.depth 1 ++ leBytes e.state.code 1 ++
      leBytes e.mask.toNat 1 ++ leBytes e.cutClass 1 ++ leBytes e.label.length 1 ++ [0] ++ leBytes e.epoch 4 ++
      (e.label ++ List.replicate 16 0).take 16
    b ++ leBytes (crc32 b).toNat 4

/-- A byte of the store window. The layouts of the ledger's register area, of the configuration partition and of the
last-gasp slots are not given: their bytes are free values. -/
def storeByte (a : Nat) (s : State) : Byte :=
  match partOf a with
  | none => 0xFF
  | some (p, base) =>
    let o := a - base
    match p with
    | .ledger => if o < ringBase then Config.storeByte a s.sys.freeCtr else ringByte o s
    | .knots => byteOr 0xFF (knotBytes (o / 32) s) (o % 32)
    | .config => Config.storeByte a s.sys.freeCtr
    | .lastGasp => if o < 4096 * s.store.gaspUsed then Config.storeByte a s.sys.freeCtr else 0xFF
    | .settings => byteOr 0xFF (settingsBytes s) o
    | .logs => if o < 0x80000 then logByte s.sys.eventLog 32768 s.store.logEv o
               else logByte s.sys.violLog 16384 s.store.logVi (o - 0x80000)
    | .directory | .stash => 0
    | .reserved => 0xFF
    | _ => byteAt 0xFF s.store.cells a

/-- A word of the store window. -/
def storeWord (a : Nat) (s : State) : Word :=
  BitVec.ofNat 32 (leNat ((List.range 4).map fun i => storeByte (a + i) s))

/-- The port STORE_READ: the ledger, settings, display-asset, configuration and calibration, site-table and log partitions;
any other address, or one not 4-aligned, reads as all ones (06 R110). -/
def storeReadWord (a : Word) (s : State) : Word :=
  let allowed : Bool := match partOf a.toNat with
    | some (.ledger, _) | some (.settings, _) | some (.assets, _) | some (.config, _) | some (.tables, _)
    | some (.formeData, _) | some (.logs, _) => true
    | _ => false
  if a.toNat % 4 = 0 ∧ allowed then storeWord a.toNat s else 0xFFFFFFFF

/-- Programs erased bytes of the store that are held as they are. -/
def storePut (a : Nat) (bs : List Byte) (s : State) : State :=
  s.updStore fun t => { t with cells := putBytes 0xFF t.cells a bs }

/-- Erases the blocks of `n` bytes from `a` on: erased blocks of the pool take their place, and they return to it (R415). -/
def storeErase (a n : Nat) (s : State) : State :=
  copyOnWrite noTag (blocksOf a n) s |> fun s =>
    s.updStore fun t => { t with cells := t.cells.filter fun e => e.1 < a || a + n ≤ e.1 }

/-- Bytes of the store that are held as they are. -/
def nvBytes (a n : Nat) (s : State) : List Byte := bytesAt 0xFF s.store.cells a n

/-- A write of `n` bytes at `a` needs a free block: a byte it targets is not erased (R405). -/
def needsBlock (a n : Nat) (s : State) : Bool := (nvBytes a n s).any (· != 0xFF)

/-- Writes bytes that are held as they are: in place where they are erased, else by copy on write of their blocks (R405). -/
def storeOver (a : Nat) (bs : List Byte) (s : State) : State :=
  (if needsBlock a bs.length s then copyOnWrite noTag (blocksOf a bs.length) s else s) |> storePut a bs

/-! ## Firmware slots (R412, R415) -/

/-- Slot `k`: 0 A, 1 B. -/
def fwSlot (k : Nat) (s : State) : FwSlot := s.store.slots.get (Fin.ofNat 2 k)

/-- Changes slot `k`. -/
def modFw (k : Nat) (f : FwSlot → FwSlot) (s : State) : State :=
  s.updStore fun t =>
    let i : Fin 2 := Fin.ofNat 2 k
    { t with slots := t.slots.set i.val (f (t.slots.get i)) i.isLt }

/-- The inactive slot: the one the active core does not run. -/
def inactiveSlot (s : State) : Nat := 1 - s.store.runs

/-- The base of a slot. -/
def slotBase (k : Nat) : Nat := k * 0x400000

/-- The six 16-bit versions at an offset. -/
def versionsAt (bs : List Byte) (o : Nat) : List Nat := (List.range 6).map fun i => fieldOf bs (o + 2 * i) 2

/-- What the header and the image in slot `k` say (R412): MAGIC, FORMAT and LENGTH are sound and the signature verifies. -/
def readSlot (k : Nat) (s : State) : FwSlot :=
  let h := nvBytes (slotBase k) 256 s
  let len := fieldOf h 0x0C 4
  let shape : Bool := h.take 4 == [0x53, 0x59, 0x46, 0x57] && fieldOf h 4 2 == 1 && decide (256 ≤ len) && decide (len ≤ 0x400000)
  let body := nvBytes (slotBase k + 0x100) (len - 0x100) s
  let signed := shape && Config.imageSigned (h.take 0xA0 ++ body) (h.drop 0xA0)
  let legal : Option Nat :=
    if (fieldOf h 6 2).testBit 0 then
      some (Config.legalVersion (nvBytes (slotBase k + fieldOf h 0x14 4) (fieldOf h 0x18 4) s))
    else none
  { fwSlot k s with sound := signed, version := fieldOf h 8 4, legalMin := fieldOf h 0x10 4, legal := legal
                    fmts := versionsAt h 0x24, oldest := versionsAt h 0x30 }

/-- The format versions of the stored items lie in the image's range, or the item is settings (R412). -/
def formatsOk (x : FwSlot) (s : State) : Bool :=
  (List.range 5).all fun i =>
    let v := s.store.formats.getD i 1
    decide (x.oldest.getD i 0 ≤ v) && decide (v ≤ x.fmts.getD i 0)

/-- LEGAL_MIN is not met by the installed legal section. -/
def needsLegal (x : FwSlot) (s : State) : Bool := s.store.legalVer < x.legalMin

/-- The boot check of a slot (R412). -/
def bootCheck (k : Nat) (s : State) : Bool :=
  let x := fwSlot k s
  x.sound && formatsOk x s && (!needsLegal x s || (match x.legal with | some v => decide (x.legalMin ≤ v) | none => false))

/-- An item is migrated by the image: its stored format differs, settings apart (R415, R418). -/
def migrates (x : FwSlot) (s : State) : Bool :=
  (List.range 5).any fun i => x.fmts.getD i 1 != s.store.formats.getD i 1

/-- The logical blocks of an item that migrates: the ledger's register area, the directory with its stash, the knot table,
configuration and calibration, the site tables. Records need no migration (R402, R419). -/
def itemBlocks : Nat → List Nat
  | 0 => (List.range 8).map (0x2A4 + ·)
  | 1 => (List.range 516).map (0xA0 + ·)
  | 2 => [0x3DC, 0x3DD]
  | 3 => [0x3DE, 0x3DF]
  | _ => (List.range 8).map (0x3EF + ·)

/-- The logical blocks that the image migrates: those of the items that differ, settings apart. -/
def toMigrate (x : FwSlot) (s : State) : List Nat :=
  ((List.range 5).filter fun i => x.fmts.getD i 1 != s.store.formats.getD i 1).flatMap itemBlocks

/-- Blocks to be migrated (R418), both copies of a mirrored one. -/
def migrationBlocks (x : FwSlot) (s : State) : Nat :=
  ([16, 516, 4, 4, 8].zipIdx.filter fun b => x.fmts.getD b.2 1 != s.store.formats.getD b.2 1).foldl (fun n b => n + b.1) 0

/-- The blocks `ls` have their shadows in free blocks of the dies they stand on; none of them, and none is left (R418). -/
def setShadows (ls : List Nat) (s : State) : State :=
  [0, 1].foldl (fun s d =>
    updDie d (fun x => { x with shadow := (ls.filter fun l => (x.place d l).isSome).length }) s) s

/-- A slot may be opened for receiving (R415). -/
def openable (x : FwSlot) : Bool :=
  x.state == .empty || x.state == .previous || x.state == .failed || x.state == .rejected

/-- OPEN, or the descriptor of a kind-1 delivery: the inactive slot goes to RECEIVING, its blocks erased (R415). -/
def openSlot (s : State) : State :=
  let k := inactiveSlot s
  if openable (fwSlot k s) then s |> storeErase (slotBase k) 0x400000 |> modFw k (fun _ => { state := .receiving }) else s

/-- VERIFY, or a verified delivery: STAGED, or REJECTED with IMAGE_REJECTED (R415). -/
def verifySlot (s : State) : State :=
  let k := inactiveSlot s
  if (fwSlot k s).state ≠ .receiving then s
  else
    let x := readSlot k s
    modFw k (fun _ => if x.sound then { x with state := .staged, result := 0 }
      else { x with state := .rejected, result := imageRejected, version := x.version }) s

/-! ## Formes (R413) -/

/-- The base of a forme copy. -/
def formeBase (k : Nat) : Nat := 0x900000 + k * 0x80000

/-- The inactive forme copy. -/
def inactiveForme (s : State) : Nat := 1 - s.store.formeAct

/-- A forme as its copy holds it: version, program, strand-table entries. -/
structure Forme where
  version : Nat
  words : Nat
  entries : List (List Byte)
  program : List Byte

/-- The forme in copy `k` (R413); none where its shape is unsound. -/
def readForme (k : Nat) (s : State) : Option Forme :=
  let h := nvBytes (formeBase k) 64 s
  let words := fieldOf h 10 4
  let n := fieldOf h 14 2
  if h.take 4 ≠ [0x53, 0x59, 0x46, 0x4D] ∨ fieldOf h 4 2 ≠ 1 ∨ 131072 < words ∨ 320 < n then none
  else some {
    version := fieldOf h 6 4, words := words
    entries := chunksOf 32 n (nvBytes (formeBase k + 64) (32 * n) s)
    program := nvBytes (formeBase k + 64 + 32 * n) (4 * words) s }

/-- ST_CFG.CLASS of an entry. -/
def entryClass (e : List Byte) : Nat := bits (fieldOf e 0 4) 28 2

/-- A forme may be loaded: its shape is sound, its signature verifies, and it gives at most eight strands class 0 (R413,
03 R49). -/
def formeSound (k : Nat) (s : State) : Option Forme :=
  match readForme k s with
  | none => none
  | some f =>
    let n := 64 + 32 * f.entries.length + 4 * f.words
    let ok := Config.formeSigned (nvBytes (formeBase k) n s) (nvBytes (formeBase k + n) 64 s) (nvBytes 0x3D40000 0x80000 s)
    if ok ∧ (f.entries.filter fun e => entryClass e == 0).length ≤ 8 then some f else none

/-- The inactive copy holds a forme to be loaded, or not. -/
def noteForme (pending new : Bool) (s : State) : State :=
  (s.updCap fun c => { c with formePending := pending }).updStore fun t => { t with formeNew := new }

/-- A forme waits: verified at its delivery, or written by the host and not looked at yet. -/
def formeWaits (s : State) : Bool := s.cap.formePending || s.store.formeNew

/-- The inactive copy is checked: it waits to be loaded, or RESULT holds IMAGE_REJECTED (R413). -/
def checkForme (s : State) : State :=
  if (formeSound (inactiveForme s) s).isSome then s |> noteForme true true |> setF Reg.FORME_STATE_RESULT 0
  else s |> noteForme false false |> setF Reg.FORME_STATE_RESULT imageRejected

end Sys2Proof.Machine
end

