-- ==== Sys2Proof/Machine/Platen.lean ====
section
/-! DEFINITION. Platen: regions, composition, waveforms, updates, the proof layer, the journal and the display faults
(17 R359 to R382). -/
namespace Sys2Proof.Machine

def dispCrack : Nat := 0x90
def dispReadback : Nat := 0x91
def dispPower : Nat := 0x92
def dispAsset : Nat := 0x93
def dispWaveform : Nat := 0x94

/-- Platen is powered (R381). -/
def platenOn (s : State) : Bool := domainOn 7 s && s.sys.booted && s.sys.mode != .inert

/-! ## Regions (R362, R370) -/

/-- A rectangle of pixels. -/
structure Rect where
  x : Nat
  y : Nat
  w : Nat
  h : Nat

/-- Region `k`. -/
def regionRect (k : Nat) (s : State) : Rect :=
  { x := getF s (Reg.PL_REGION_POS_X k), y := getF s (Reg.PL_REGION_POS_Y k)
    w := getF s (Reg.PL_REGION_SIZE_WIDTH k), h := getF s (Reg.PL_REGION_SIZE_HEIGHT k) }

/-- The key of the pixel at column `x` of row `y`. -/
def pixelKey (x y : Nat) : Nat := y * 1280 + x

/-- The pixels of a rectangle: their place in it, and their keys. -/
def Rect.pixels (r : Rect) : List (Nat × Nat × Nat) :=
  (List.range r.h).flatMap fun j => (List.range r.w).map fun i => (i, j, pixelKey (r.x + i) (r.y + j))

/-- The keys of the pixels of region `k`. -/
def regionKeys (k : Nat) (s : State) : List Nat := (regionRect k s).pixels.map fun p => p.2.2

/-- Two rectangles share a pixel. -/
def Rect.overlaps (a b : Rect) : Bool :=
  decide (a.x < b.x + b.w) && decide (b.x < a.x + a.w) && decide (a.y < b.y + b.h) && decide (b.y < a.y + a.h)

/-- The grey of a pixel. -/
def greyAt (k : Nat) (s : State) : BitVec 4 := mapGet 0 s.plt.cur k

/-- Pixels the proof save area holds (R362). -/
def saveRoom (s : State) : Nat := (25165824 - 18 * getF s Reg.PL_PANEL_H * getF s Reg.PL_PANEL_V) / 4

/-! ## Lines and frames (R359 to R361) -/

/-- The 16 bits on EP_D in clock `i` of line `y`: pixel 8 i + k in bits 2k + 1 and 2k (R359). -/
def lineWord (y i : Nat) (s : State) : BitVec 16 :=
  BitVec.ofNat 16 ((List.range 8).foldl (fun w k => w + (mapGet 0 s.plt.codes (pixelKey (8 * i + k) y)).toNat * 4 ^ k) 0)

/-- Clocks of 75 ns that a line lasts (R360). -/
def lineClocks (s : State) : Nat := getF s Reg.PL_PANEL_H / 8 + 24

/-- VB: the least number of blank lines, at least 4, at which the frame rate does not exceed PL_TIMING.FRAME_HZ (R361). -/
def blankLines (s : State) : Nat :=
  let perLine := 3 * lineClocks s * min 85 (clamp 20 85 (getF s Reg.PL_TIMING_FRAME_HZ))
  max 4 ((40000000 + perLine - 1) / perLine - getF s Reg.PL_PANEL_V)

/-- Clocks that a frame lasts: the active lines and the blank ones (R360, R361). -/
def frameClocks (s : State) : Nat := lineClocks s * (getF s Reg.PL_PANEL_V + blankLines s)

/-! ## Composition (R366, R369, R370, R372, R373) -/

/-- The display-asset partition. -/
def assetCells (s : State) : List (Nat × Byte) := s.store.cells.filter fun e => 0x3A40000 ≤ e.1 && e.1 < 0x3D40000

/-- An image can be composed. -/
def Image.sound (i : Image) (s : State) : Bool := i.white || i.legal || Config.assetSound (assetCells s) i.asset

/-- The grey an image gives the pixel at (x, y) of its region. -/
def Image.grey (i : Image) (r : Rect) (x y : Nat) (s : State) : BitVec 4 :=
  if i.legal then Config.legalGrey i.serial x y
  else if i.white then 0
  else Config.assetGrey (assetCells s) i.asset i.params r.w r.h x y

/-- The target of a mode: FAST 0 or 15, LIVE the nearest of 0, 5, 10, 15 (R369). -/
def modeGrey (mode : Nat) (g : BitVec 4) : BitVec 4 :=
  if mode = 2 then (if g.toNat < 8 then 0 else 15)
  else if mode = 3 then BitVec.ofNat 4 ((g.toNat + 2) / 5 * 5)
  else g

/-- The proof marker's grey `t` pixels along a side: 4 black and 4 white in turn (R373). -/
def markerAlong (side : Fin 4) (t : Nat) : BitVec 4 := if (t + Config.markerStart side) % 8 < 4 then 15 else 0

/-- The proof marker's grey at (x, y), on the 2-pixel border inside the edge (R373). -/
def markerGrey (r : Rect) (x y : Nat) : Option (BitVec 4) :=
  if y < 2 then some (markerAlong 0 x)
  else if r.h ≤ y + 2 then some (markerAlong 1 x)
  else if x < 2 then some (markerAlong 2 y)
  else if r.w ≤ x + 2 then some (markerAlong 3 y)
  else none

/-- The targets of an update: each pixel of its region, with the grey it is to show. -/
def Upd.targets (u : Upd) (s : State) : List (Nat × BitVec 4) :=
  let r := regionRect u.region s
  r.pixels.map fun (x, y, k) =>
    match u.kind with
    | .redraw => (k, greyAt k s)
    | .removal _ => (k, mapGet (greyAt k s) s.plt.saved k)
    | .proof => (k, (markerGrey r x y).getD (modeGrey 3 (u.image.grey r x y s)))
    | _ => (k, modeGrey u.mode (u.image.grey r x y s))

/-! ## Waveforms (R363 to R366) -/

/-- The phases of a sequence: drive code and frames. -/
abbrev Seq := List (Nat × Nat)

/-- The sequence of a transition in the native file; none when the block is absent (R363). -/
def nativeSeq (file : List Byte) (mode band tr : Nat) : Option Seq :=
  let off := fieldOf file (32 + 4 * (mode * 16 + band)) 4
  if off = 0 then none
  else
    let at_ := off + fieldOf file (off + 2 * tr) 2
    let n := min 16 (byteOf file at_)
    some ((List.range n).map fun i => let b := byteOf file (at_ + 1 + i); (b / 64, b % 64))

/-- FRAMES[b] of the compatible file (R365). -/
def compatFrames (file : List Byte) (band : Nat) : Nat := let n := byteOf file (10 + band); if n = 0 then 256 else n

/-- An entry of a compatible table (R365). -/
def compatCode (file : List Byte) (table band prev next frame : Nat) : Nat :=
  let i := (prev * 16 + next) * 256 + frame
  byteOf file (64 + (table * 16 + band) * 16384 + i / 4) / 4 ^ (i % 4) % 4

/-- A drive code as it is sent: 0b11 never is (R359). -/
def sentCode (c : Nat) : BitVec 2 := if c = 3 then 0 else BitVec.ofNat 2 c

/-- PLATEN_WFMT selects the compatible format. -/
def compatFmt (s : State) : Bool := getB s Reg.PL_CFG_WFMT

/-- The waveform file in use. -/
def waveOf (s : State) : List Byte := Config.waveFile (assetCells s) (compatFmt s)

/-- A waveform file stands its check (R363, R365, R366): MAGIC, FORMAT, and the CRC-32 of the file with its CRC field as 0,
which ends the 32 bytes of the native header and follows FORMAT in the compatible one. -/
def waveSound (compat : Bool) (file : List Byte) : Bool :=
  let at_ := if compat then 6 else 28
  file.take 6 == [0x50, 0x57, 0x46, if compat then 0x43 else 0x4E, 1, 0] &&
  (crc32 (file.take at_ ++ [0, 0, 0, 0] ++ file.drop (at_ + 4))).toNat == fieldOf file at_ 4

/-- The mode and band have a waveform, in a file whose CRC holds (R366). -/
def waveOk (mode band : Nat) (s : State) : Bool :=
  waveSound (compatFmt s) (waveOf s) &&
  (compatFmt s || ((nativeSeq (waveOf s) mode band 0).isSome && (mode != 4 || (nativeSeq (waveOf s) 0 band 0).isSome)))

/-- Frames before the final drive phase. -/
def Seq.lead (q : Seq) : Nat := (q.dropLast.map (·.2)).foldl (· + ·) 0

/-- The code in frame `i` before the final phase. -/
def Seq.codeAt : Seq → Nat → Nat
  | [], _ => 0
  | (c, n) :: q, i => if i < n then c else Seq.codeAt q (i - n)

/-- TRIM_STEP; 0 is treated as 1. -/
def trimStep (s : State) : Nat := max 1 (getF s Reg.PL_CFG_TRIM_STEP)

/-- The trim of the pixel with key `k`, from the map of the panel's H columns (R364). -/
def trimAt (k : Nat) (s : State) : BitVec 4 :=
  let b := byteOf s.plt.trims ((k / 1280 * getF s Reg.PL_PANEL_H + k % 1280) / 2)
  BitVec.ofNat 4 (if k % 2 = 0 then b else b / 16)

/-- What a pixel does in a frame: the code it sends, its phase counter after the frame, and whether it has finished. -/
structure PixelStep where
  code : BitVec 2
  phase : BitVec 6
  done : Bool

/-- A frame of a pixel in native format (R364). -/
def nativeStep (q : Seq) (frame : Nat) (trim : BitVec 4) (phase : BitVec 6) (step : Nat) : PixelStep :=
  let lead := q.lead
  if frame < lead then ⟨sentCode (q.codeAt frame), phase, false⟩
  else
    let final := q.getLastD (0, 0)
    let load := (max 0 (min 63 ((final.2 : Int) + trim.toInt * step))).toNat
    let cnt := if q = [] then 0 else if frame = lead then load else phase.toNat
    ⟨if 0 < cnt then sentCode final.1 else 0, BitVec.ofNat 6 (cnt - 1), decide (cnt ≤ 1)⟩

/-- A frame of a pixel in compatible format (R365). -/
def compatStep (file : List Byte) (table band prev next frame frames : Nat) : PixelStep :=
  ⟨sentCode (compatCode file table band prev next (frame % compatFrames file band)), 0, decide (frames ≤ frame + 1)⟩

/-- The waveform mode an update runs now: RECOVER clearing first, then FULL. -/
def Upd.waveMode (u : Upd) : Nat := if u.clearing then 4 else if u.mode = 4 then 0 else u.mode

/-- A frame of pixel `k` in update `u`. -/
def pixelStep (u : Upd) (k : Nat) (s : State) : PixelStep :=
  let file := waveOf s
  let prev := (greyAt k s).toNat
  let next := (mapGet 0 s.plt.target k).toNat
  if compatFmt s then
    if u.clearing then compatStep file 0 u.band 15 0 u.frame (2 * compatFrames file u.band)
    else compatStep file (min 2 u.waveMode) u.band prev next u.frame (compatFrames file u.band)
  else
    let q := (nativeSeq file u.waveMode u.band (prev * 16 + next)).getD []
    nativeStep q u.frame (trimAt k s) (mapGet 0 s.plt.phase k) (trimStep s)

/-! ## Requests (R371, R372) -/

/-- Changes Platen. -/
def updPl (f : Plt → Plt) (s : State) : State := s.updPlt f

/-- It is a RECOVER. -/
def Upd.isRecover (u : Upd) : Bool := match u.kind with | .recover => true | _ => false

/-- It is a proof draw. -/
def Upd.isProof (u : Upd) : Bool := match u.kind with | .proof => true | _ => false

/-- It is a removal. -/
def Upd.isRemoval (u : Upd) : Bool := match u.kind with | .removal _ => true | _ => false

/-- A request waits: a later one of its region replaces it, but never a RECOVER. -/
def plRequest (u : Upd) (s : State) : State :=
  let keep (v : Upd) : Bool := v.region != u.region || (v.isRecover && !u.isRecover)
  updPl (fun p => { p with waiting := p.waiting.filter keep ++ [u] }) s

/-- A request named region 0 or no region (R370). -/
def legalRefused (s : State) : State := setF Reg.PL_STATUS_LEGAL_REFUSED 1 s

/-- The region, and the image, of a write to a port of block 0xB: [15:0] asset, [23:16] region, [24] parameters from the
strand's own view of its window at offset `arg`; outside the window they are left open (R372, 05 R93). -/
def portImage (n : Fin 320) (arg : Word) (v : Nat) (s : State) : Image × State :=
  let asset := v % 0x10000
  if !v.testBit 24 then ({ asset := asset, white := false, params := List.replicate 32 0 }, s)
  else
    let t := getS s n
    let o := arg.toNat / 4 * 4
    if outsideWindow t o 32 then
      let f := freeWide s
      ({ asset := asset, white := false, params := leBytes f.1.toNat 32 }, f.2)
    else ({ asset := asset, white := false, params := windowRead s t o 32 }, s)

/-- A request of a strand for a region: refused for region 0 and beyond 31. -/
def portRequest (region : Nat) (f : State → State) (s : State) : State :=
  if !platenOn s then s else if region = 0 ∨ 31 < region then legalRefused s else f s

/-- PLATEN_PROOF: drawn in LIVE, tagged while the strand is speculative (R373). -/
def proofDraw (n : Fin 320) (arg : Word) (v : Nat) (s : State) : State :=
  portRequest (bits v 16 8) (fun s =>
    let (i, s) := portImage n arg v s
    let tag := if speculative s n then some n else none
    plRequest { region := bits v 16 8, kind := .proof, mode := 3, image := i, tag := tag } s) s

/-- PLATEN_COMMIT: drawn in GRAY (R372). -/
def platenCommit (n : Fin 320) (arg : Word) (v : Nat) (s : State) : State :=
  portRequest (bits v 16 8) (fun s =>
    let (i, s) := portImage n arg v s
    plRequest { region := bits v 16 8, kind := .commit, mode := 1, image := i } s) s

/-- PLATEN_CLEAR: the region white, in GRAY (R372). -/
def platenClear (v : Nat) (s : State) : State :=
  portRequest v (fun s => plRequest { region := v, kind := .commit, mode := 1 } s) s

/-- PL_CMD (R372). -/
def plCmd (mode region asset : Nat) (s : State) : Nat × State :=
  if s.sys.role = .head ∨ s.sys.role = .repeater then (errMode, s)
  else if 3 < mode then (statusOk, s)
  else if region = 0 then (statusOk, legalRefused s)
  else
    let params := if getB s Reg.PL_CMD_SRC_USE then bytesAt 0 s.cap.shared (getF s Reg.PL_CMD_SRC_OFFSET / 4 * 4) 32
      else List.replicate 32 0
    let i : Image := { asset := asset, params := params, white := false }
    (statusOk, plRequest { region := region, kind := .commit, mode := mode, image := i } s)

def execPlCmd (mode : BitVec 3) (region : BitVec 5) (asset : BitVec 16) (s : State) : Out :=
  .next (hostTo Reg.PL_CMD_MODE.addr (plCmd mode.toNat region.toNat asset.toNat) s)

/-! ## The proof layer (R373, R374) -/

/-- The committed image of a region. -/
def lastImage (k : Nat) (s : State) : LastImage := mapGet {} s.plt.images k

/-- Changes the last-image entry of a region. -/
def modImage (k : Nat) (f : LastImage → LastImage) (s : State) : State :=
  updPl (fun p => { p with images := mapPut p.images k (f (mapGet {} p.images k)) }) s

/-- The region's proof content is gone: its saved greys are free. -/
def proofGone (k : Nat) (s : State) : State :=
  let keys := regionKeys k s
  let s := updPl (fun p => { p with proof := p.proof.filter (· ≠ k), tags := mapErase p.tags k
                                    saved := p.saved.filter fun e => !keys.contains e.1 }) s
  modImage k (fun x => { x with proofShown := false }) s

/-- The removal of a region's proof content: saved greys in GRAY. -/
def removalOf (k : Nat) (clear : List Nat) (s : State) : Upd :=
  { region := k, kind := .removal clear, mode := 1, image := (lastImage k s).image }

/-- The galley of strand `n` is pied: Platen starts to remove what it drew; a draw still running stops at its frame's end
(R105, R374). -/
def proofPie (n : Fin 320) (s : State) : State :=
  let regions := (s.plt.tags.filter fun e => e.2 = n).map (·.1)
  let mine (u : Upd) : Bool := u.isProof && u.tag == some n
  let s := updPl (fun p => { p with
    waiting := p.waiting.filter (fun u => !mine u), upds := p.upds.map (fun u => if mine u then { u with stop := true } else u)
    tags := p.tags.filter fun e => e.2 ≠ n }) s
  regions.foldl (fun s k =>
    if s.plt.upds.any fun u => u.region == k && u.stop then s else plRequest (removalOf k [] s) s) s

/-- The galley of strand `n` locked up: the tag is removed, the content stays (R105). -/
def proofLock (n : Fin 320) (s : State) : State :=
  let untag (u : Upd) : Upd := if u.tag = some n then { u with tag := none } else u
  updPl (fun p => { p with tags := p.tags.filter (fun e => e.2 ≠ n), waiting := p.waiting.map untag, upds := p.upds.map untag }) s

/-! ## Faults (R366, R376 to R380) -/

/-- PL_FAULT.CODE records a fault. -/
def plFault (code : Nat) (s : State) : State := setF Reg.PL_FAULT_CODE code s

/-- Every running update stops: its region is unknown, its journal entry stays (R376). -/
def stopAll (s : State) : State :=
  let rs := s.plt.upds.map (·.region)
  updPl (fun p => { p with upds := [], unknown := p.unknown ++ rs.filter fun k => !p.unknown.contains k }) s

/-- Panel power goes off. -/
def panelOff (s : State) : State := updPl (fun p => { p with panelOn := false, vcom := 0 }) s

/-- A crack test fails (R377). -/
def crackFail (s : State) : State :=
  let s := s |> stopAll |> panelOff |> (fun s => updPl (fun p => { p with crackOk := 0, codes := [] }) s)
  if getB s Reg.PL_FAULT_CRACK then s
  else s |> setF Reg.PL_FAULT_CRACK 1 |> plFault dispCrack |> raiseHw 0x29 1

def execCrackFail (s : State) : Out := .next (if platenOn s then crackFail s else s)

/-- Panel power is not reached, or falls: POWER is set, the regions concerned are unknown and retried (R379). -/
def powerFail (regions : List Nat) (s : State) : State :=
  let s := s |> stopAll |> panelOff |> setF Reg.PL_FAULT_POWER 1 |> plFault dispPower
  updPl (fun p => { p with
    unknown := p.unknown ++ regions.filter (fun k => !p.unknown.contains k)
    pwrDue := p.pwrDue ++ regions.filter fun k => !p.pwrDue.contains k }) s

/-- PANEL_POWER_FAIL: EP_PWR_GOOD falls; without a running update nothing is concerned. -/
def execPanelPowerFail (s : State) : Out :=
  .next (if platenOn s ∧ s.plt.panelOn ∧ s.plt.upds ≠ [] then powerFail (s.plt.upds.map (·.region)) s else s)

/-- The RECOVER of a region: to the image that its journal entry names, else to its committed image (R376). -/
def recoverOf (k : Nat) (s : State) : Upd :=
  let i := match s.plt.journal.find? fun j => j.region == k with
    | some j => j.new
    | none => (lastImage k s).image
  { region := k, kind := .recover, mode := 4, image := i }

/-- Queues the RECOVER of regions. -/
def recoverAll (ks : List Nat) (s : State) : State := ks.foldl (fun s k => plRequest (recoverOf k s) s) s

/-- CRACK_TEST_IDLE: two passing tests in a row clear CRACK, and what it stopped is recovered (R376, R377). -/
def crackTestIdle (passes : Bool) (s : State) : State :=
  if !platenOn s || s.plt.upds != [] then s
  else if !passes then crackFail s
  else if !getB s Reg.PL_FAULT_CRACK then s
  else if s.plt.crackOk + 1 < 2 then updPl (fun p => { p with crackOk := p.crackOk + 1 }) s
  else
    let s := s |> setF Reg.PL_FAULT_CRACK 0 |> (fun s => updPl (fun p => { p with crackOk := 0 }) s)
    recoverAll (s.plt.unknown.filter fun k => !s.plt.rbDue.contains k && !s.plt.pwrDue.contains k) s

def execCrackTestIdle (passes : Bool) (s : State) : Out := .next (crackTestIdle passes s)

/-- RECOVER_RETRY: 10 s after a read-back failure, and every 60 s (R378). -/
def execRecoverRetry (s : State) : Out :=
  .next (if platenOn s ∧ getB s Reg.PL_FAULT_READBACK then recoverAll s.plt.rbDue s else s)

/-- PANEL_POWER_RETRY: 10 s after a panel power failure (R379). -/
def execPanelPowerRetry (s : State) : Out :=
  .next (if platenOn s then (recoverAll s.plt.pwrDue s |> fun s => updPl (fun p => { p with pwrDue := [] }) s) else s)

/-- PANEL_POWER_OFF: PWR_HOLD after the last update; outside STANDBY not while proof content is shown (R381). -/
def execPanelPowerOff (s : State) : Out :=
  .next (if s.plt.upds = [] ∧ (s.plt.proof = [] ∨ s.sys.mode = .standby) then panelOff s else s)

/-! ## Temperature (R367, R368) -/

/-- The band of a temperature, 0.1 °C. -/
def bandOf (t : Int) : Nat := (max 0 (min 15 ((t + 200) / 50))).toNat

/-- A reading of EP_TS. -/
def takeTemp (t : BitVec 16) (s : State) : State :=
  let v := t.toInt
  s |> setF Reg.PL_TEMP_TEMP t.toNat |> setF Reg.PL_STATUS_BAND (bandOf v)
    |> setB Reg.PL_STATUS_TEMP_LIMIT (decide (v < -200) || decide (600 < v))

/-- PANEL_TEMP_READ: the reading every 1 s while idle. -/
def execPanelTempRead (t : BitVec 16) (s : State) : Out := .next (if platenOn s ∧ s.plt.upds = [] then takeTemp t s else s)

/-- A reading more than two bands from that of a running update sets TEMP_DRIFT (R368). -/
def driftCheck (s : State) : State :=
  let b := getF s Reg.PL_STATUS_BAND
  let far (u : Upd) : Bool := decide (u.band + 2 < b) || decide (b + 2 < u.band)
  let s := if s.plt.upds.any far then setF Reg.PL_STATUS_TEMP_DRIFT 1 s else s
  updPl (fun p => { p with upds := p.upds.map fun u => if far u then { u with drift := true } else u }) s

/-! ## The start of an update (R366, R371, R373, R375, R381) -/

/-- The region is tagged by a strand other than the one that asks. -/
def tagBlocks (u : Upd) (s : State) : Bool :=
  match mapGet? s.plt.tags u.region with
  | some m => !u.isRemoval && !(u.isProof && u.tag == some m)
  | none => false

/-- A waiting update may start now. -/
def canStart (s : State) (u : Upd) : Bool :=
  let spaced : Bool := match s.sys.mode, s.plt.lastStart with
    | .standby, some t => decide (t + 1000000 ≤ s.sys.usec)
    | _, _ => true
  !getB s Reg.PL_FAULT_CRACK && decide (s.plt.upds.length < 8) &&
  decide ((s.plt.journal.filter fun j => j.region ≠ u.region).length < 8) && spaced && !tagBlocks u s &&
  (u.isRemoval || !s.sys.pause) && s.plt.upds.all fun v => !(regionRect v.region s).overlaps (regionRect u.region s)

/-- The update that starts next: a RECOVER first, else the oldest that may. -/
def nextUpd (s : State) : Option Upd :=
  match s.plt.waiting.find? fun u => u.isRecover && canStart s u with
  | some u => some u
  | none => s.plt.waiting.find? fun u => !u.isRecover && canStart s u

/-- An update leaves the queue. -/
def dropWaiting (u : Upd) (s : State) : State := updPl (fun p => { p with waiting := p.waiting.erase u }) s

/-- The pixels that an update drives: every one in FULL and RECOVER, else those that change (R369). -/
def drivenKeys (u : Upd) (ts : List (Nat × BitVec 4)) (s : State) : List Nat :=
  if u.mode = 0 ∨ u.mode = 4 then ts.map (·.1) else (ts.filter fun e => e.2 ≠ greyAt e.1 s).map (·.1)

/-- The greys that a proof draw saves: of the pixels it changes, those not saved already. -/
def proofSaves (ts : List (Nat × BitVec 4)) (s : State) : List (Nat × BitVec 4) :=
  (ts.filter fun e => e.2 ≠ greyAt e.1 s && (mapGet? s.plt.saved e.1).isNone).map fun e => (e.1, greyAt e.1 s)

/-- Gives pixels their targets. -/
def setTargets (ts : List (Nat × BitVec 4)) (s : State) : State :=
  updPl (fun p => { p with target := ts.foldl (fun m e => mapSet 0 m e.1 e.2) p.target }) s

/-- The update is under way: targets, journal entry, latched band. -/
def beginUpd (u : Upd) (s : State) : State :=
  let ts := u.targets s
  let band := getF s Reg.PL_STATUS_BAND
  let clear : List Nat := match u.kind with | .removal ks => ks | .recover => ts.map (·.1) | _ => []
  let serial := (s.plt.serial + 1) % 0x10000
  let i := { u.image with serial := serial }
  let u := { u with band := band, frame := 0, image := i, clearing := !clear.isEmpty
                    keys := if clear.isEmpty then drivenKeys u ts s else clear }
  let j : Journal := { region := u.region, mode := u.mode, band := band, old := (lastImage u.region s).image, new := i }
  let s := setTargets ts s
  s |> (fun s => updPl (fun p => { p with
      upds := p.upds ++ [u], serial := serial, lastStart := some s.sys.usec
      journal := p.journal.filter (fun x => x.region ≠ u.region) ++ [j] }) s)
    |> setF Reg.PL_TEMP_LATCHED band

/-- Saves the greys a proof draw changes, and shows the region as proof content. -/
def proofBegins (u : Upd) (s : State) : State :=
  let saves := proofSaves (u.targets s) s
  let s := updPl (fun p => { p with
    saved := saves.foldl (fun m e => mapPut m e.1 e.2) p.saved
    proof := if p.proof.contains u.region then p.proof else p.proof ++ [u.region]
    tags := match u.tag with | some n => mapPut p.tags u.region n | none => p.tags }) s
  modImage u.region (fun x => { x with proofShown := true }) s

/-- Starts an update that has passed its checks. -/
def startUpd (u : Upd) (s : State) : State :=
  match u.kind with
  | .proof =>
    if saveRoom s < s.plt.saved.length + (proofSaves (u.targets s) s).length then setF Reg.PL_STATUS_PROOF_FULL 1 s
    else s |> proofBegins u |> beginUpd u
  | .commit | .recover => s |> proofGone u.region |> beginUpd u
  | _ => beginUpd u s

/-- UPDATE_START: the crack test passes or not, and EP_PWR_GOOD comes or not. -/
def updateStart (crackOk powerGood : Bool) (s : State) : State :=
  if !platenOn s then s
  else match nextUpd s with
  | none => s
  | some u =>
    if !crackOk then crackFail s
    else if !u.image.sound s then
      s |> dropWaiting u |> plFault dispAsset |> setF Reg.PL_STATUS_ASSET_ERR 1
    else if !waveOk u.mode (getF s Reg.PL_STATUS_BAND) s then s |> dropWaiting u |> plFault dispWaveform
    else if !s.plt.panelOn && !powerGood then s |> dropWaiting u |> powerFail [u.region]
    else
      let s := if s.plt.panelOn then s
        else
          let s := boundary Reg.PL_VCOM_VCOM s
          updPl (fun p => { p with
            panelOn := true, vcom := inForce s Reg.PL_VCOM_VCOM, pmic := (Config.pmicScript (assetCells s)).take 16 }) s
      s |> dropWaiting u |> startUpd u

def execUpdateStart (crackOk powerGood : Bool) (s : State) : Out := .next (updateStart crackOk powerGood s)

/-! ## Frames (R360, R364, R368, R375, R377, R378) -/

/-- An update has ended as it should. -/
def endUpd (u : Upd) (s : State) : State :=
  let gone (p : Plt) : Plt := { p with
    upds := p.upds.filter (fun v => v.region ≠ u.region)
    cur := u.keys.foldl (fun m k => mapSet 0 m k (mapGet 0 p.target k)) p.cur
    journal := p.journal.filter fun j => j.region ≠ u.region }
  let s := updPl gone s
  let s := match u.kind with
    | .commit => modImage u.region (fun _ => { valid := true, image := u.image }) s
    | .recover =>
      let s := modImage u.region (fun _ => { valid := true, image := u.image }) s
      let s := if s.plt.rbDue.contains u.region then setF Reg.PL_FAULT_READBACK 0 s else s
      updPl (fun p => { p with unknown := p.unknown.filter (· ≠ u.region), rbDue := p.rbDue.filter (· ≠ u.region) }) s
    | .removal _ => proofGone u.region s
    | _ => s
  let s := if u.drift then plRequest { region := u.region, kind := .redraw, mode := 1, image := u.image } s else s
  let s := if s.sys.mode = .standby then panelOff s else s
  raiseHw 0x28 u.region s

/-- The clearing waveform of an update has ended: its pixels are white, and the image follows. -/
def afterClearing (u : Upd) (s : State) : State :=
  let s := updPl (fun p => { p with cur := u.keys.foldl (fun m k => mapSet 0 m k 0) p.cur }) s
  let ts := (regionKeys u.region s).map fun k => (k, mapGet 0 s.plt.target k)
  let u' := { u with clearing := false, frame := 0, keys := drivenKeys u ts s }
  updPl (fun p => { p with upds := p.upds.map fun v => if v.region = u.region then u' else v }) s

/-- A draw that a pie stopped: what it was driving is cleared, then the saved greys come back (R374). -/
def afterStop (u : Upd) (s : State) : State :=
  let s := updPl (fun p => { p with upds := p.upds.filter fun v => v.region ≠ u.region }) s
  plRequest (removalOf u.region u.keys s) s

/-- One frame of an update: codes, counters, the journal's frame index; then its end, if this was its last. -/
def frameOf (u : Upd) (s : State) : State :=
  let steps := u.keys.map fun k => (k, pixelStep u k s)
  let u' := { u with frame := u.frame + 1 }
  let run (p : Plt) : Plt := { p with
    codes := steps.foldl (fun m e => mapSet 0 m e.1 e.2.code) p.codes
    phase := steps.foldl (fun m e => mapSet 0 m e.1 e.2.phase) p.phase
    upds := p.upds.map (fun v => if v.region = u.region then u' else v)
    journal := p.journal.map fun j => if j.region = u.region then { j with frame := u'.frame } else j }
  let s := updPl run s
  if u.stop then afterStop u' s
  else if steps.all fun e => e.2.done then (if u.clearing then afterClearing u' s else endUpd u' s)
  else s

/-- A mismatching frame, or a matching one: three in a row stop the updates (R378). -/
def frameChecks (mismatch : Bool) (s : State) : State :=
  let s := if mismatch then incF Reg.PL_FAULT_RB_ERR s else s
  let s := updPl (fun p => { p with upds := p.upds.map fun u => { u with mismatches := if mismatch then u.mismatches + 1 else 0 } }) s
  if s.plt.upds.any fun u => decide (3 ≤ u.mismatches) then
    let rs := s.plt.upds.map (·.region)
    s |> stopAll |> (fun s => updPl (fun p => { p with rbDue := p.rbDue ++ rs.filter fun k => !p.rbDue.contains k }) s)
      |> setF Reg.PL_FAULT_READBACK 1 |> plFault dispReadback |> raiseHw 0x29 2
  else s

/-- PANEL_FRAME: every running update drives a frame; in its blank lines come the crack test, the comparison of the sampled
lines and the temperature. -/
def panelFrame (crackOk mismatch : Bool) (t : BitVec 16) (s : State) : State :=
  if !platenOn s || s.plt.upds == [] then s
  else
    let s := s |> boundary Reg.PL_CFG_LINE_SAMPLE |> (fun s => updPl (fun p => { p with codes := [] }) s)
    let us := s.plt.upds
    let s := s |> takeTemp t |> driftCheck
    if !crackOk then crackFail s
    else
      let s := frameChecks mismatch s
      if s.plt.upds = [] then s
      else us.foldl (fun s u => match s.plt.upds.find? fun v => v.region == u.region with
        | some v => frameOf v s
        | none => s) s

def execPanelFrame (crackOk mismatch : Bool) (t : BitVec 16) (s : State) : Out := .next (panelFrame crackOk mismatch t s)

/-! ## Power and start (R364, R370, R376) -/

/-- The trim map is loaded. -/
def loadTrims (s : State) : State := updPl (fun p => { p with trims := Config.trimMap (assetCells s) }) s

/-- A region's current greys are rebuilt from its committed image. -/
def rebuildRegion (k : Nat) (s : State) : State :=
  let r := regionRect k s
  let i := (lastImage k s).image
  updPl (fun p => { p with cur := r.pixels.foldl (fun m e => mapSet 0 m e.2.2 (i.grey r e.1 e.2.1 s)) p.cur }) s

/-- The first start that reaches a role mode (R376). -/
def platenStart (s : State) : State :=
  let js := s.plt.journal.map (·.region)
  let used := (List.range 32).filter fun k => getF s (Reg.PL_REGION_SIZE_HEIGHT k) ≠ 0
  let bad := used.filter fun k => !js.contains k && (!(lastImage k s).valid || (lastImage k s).proofShown)
  let good := used.filter fun k => !js.contains k && !bad.contains k
  let s := updPl (fun p => { p with unknown := js ++ bad }) s
  s |> recoverAll (js ++ bad) |> (fun s => good.foldl (fun s k => rebuildRegion k s) s)

/-- The legal section draws region 0 in GRAY when the registers or ledger time change (R370). -/
def legalDraw (s : State) : State :=
  if platenOn s ∧ getF s (Reg.PL_REGION_SIZE_HEIGHT 0) ≠ 0 ∧ s.sys.mode ≠ .factory then
    plRequest { region := 0, kind := .commit, mode := 1, image := { white := false, legal := true, serial := s.plt.serial } } s
  else s

/-- PLATEN_STATUS (06, port 0xB03): [0] busy, [4:1] band, [5] display fault, [6] TEMP_DRIFT. -/
def platenStatus (s : State) : Nat :=
  ofBool (s.plt.upds != [] || s.plt.waiting != []) + 2 * getF s Reg.PL_STATUS_BAND +
  32 * ofBool (getB s Reg.PL_FAULT_CRACK || getB s Reg.PL_FAULT_READBACK) + 64 * getF s Reg.PL_STATUS_TEMP_DRIFT

end Sys2Proof.Machine
end

