-- ==== Sys2Proof/Machine/PortMap.lean ====
section
/-! DEFINITION. The port table and the service table (06 R107 to R114): directions, galley classes, PUTS rules, widths,
ranges; and the accumulators of ACC. -/
namespace Sys2Proof.Machine

/-- The direction of a port (R79). -/
inductive PortDir where
  | in_ | out | both
  deriving DecidableEq, Repr

/-- The galley class of a port (R79, R108). -/
inductive PortClass where
  | inward | outward | safe | byRule
  deriving DecidableEq, Repr

/-- The PUTS rule of a port (R79). -/
inductive PutsRule where
  | none | lower | direct
  deriving DecidableEq, Repr

/-- What the port table says of a port (R108, R109). -/
structure PortInfo where
  dir : PortDir
  cls : PortClass
  puts : PutsRule
  width : Nat
  /-- The port names its argument (R109). -/
  hasArg : Bool := false
  /-- The largest value of the range stated for the port, where one is stated (R108). -/
  max : Option Nat := Option.none
  deriving DecidableEq, Repr

/-- Block 0x0 to 0x3 of the port table. -/
def portTable0 : List (Nat × PortInfo) := [
  (0x000, ⟨.both, .inward, .none, 32, false, none⟩), (0x001, ⟨.in_, .inward, .none, 17, false, none⟩),
  (0x002, ⟨.out, .outward, .none, 11, false, none⟩), (0x003, ⟨.in_, .inward, .none, 10, false, none⟩),
  (0x004, ⟨.in_, .inward, .none, 32, false, none⟩),
  (0x100, ⟨.in_, .inward, .none, 16, false, none⟩), (0x101, ⟨.out, .safe, .direct, 8, false, none⟩),
  (0x102, ⟨.out, .outward, .none, 1, false, none⟩), (0x103, ⟨.both, .byRule, .lower, 16, true, none⟩),
  (0x104, ⟨.in_, .inward, .none, 32, false, none⟩), (0x105, ⟨.in_, .inward, .none, 16, true, none⟩),
  (0x106, ⟨.out, .outward, .none, 1, false, none⟩), (0x107, ⟨.in_, .inward, .none, 14, false, none⟩),
  (0x200, ⟨.in_, .inward, .none, 8, false, none⟩), (0x201, ⟨.both, .byRule, .lower, 1, false, none⟩),
  (0x202, ⟨.out, .safe, .direct, 1, false, none⟩), (0x203, ⟨.out, .safe, .direct, 1, false, none⟩),
  (0x204, ⟨.out, .outward, .none, 1, false, none⟩), (0x205, ⟨.both, .outward, .none, 1, false, none⟩),
  (0x206, ⟨.in_, .inward, .none, 32, false, none⟩), (0x207, ⟨.in_, .inward, .none, 2, false, none⟩),
  (0x208, ⟨.in_, .inward, .none, 14, false, none⟩), (0x209, ⟨.out, .outward, .none, 2, false, none⟩),
  (0x20A, ⟨.in_, .inward, .none, 2, false, none⟩), (0x20B, ⟨.both, .byRule, .lower, 14, false, some 800⟩),
  (0x300, ⟨.in_, .inward, .none, 8, false, none⟩), (0x301, ⟨.in_, .inward, .none, 32, false, none⟩),
  (0x302, ⟨.both, .outward, .none, 3, false, none⟩)]

/-- Block 0x4 to 0x9 of the port table. -/
def portTable4 : List (Nat × PortInfo) := [
  (0x400, ⟨.in_, .inward, .none, 10, false, none⟩), (0x401, ⟨.both, .byRule, .lower, 1, false, none⟩),
  (0x402, ⟨.out, .safe, .direct, 1, false, none⟩), (0x403, ⟨.out, .outward, .none, 12, false, none⟩),
  (0x404, ⟨.out, .safe, .direct, 12, false, none⟩), (0x405, ⟨.in_, .inward, .none, 24, false, none⟩),
  (0x406, ⟨.in_, .inward, .none, 16, true, none⟩), (0x407, ⟨.in_, .inward, .none, 32, true, none⟩),
  (0x500, ⟨.in_, .inward, .none, 32, true, none⟩), (0x501, ⟨.in_, .inward, .none, 32, true, none⟩),
  (0x502, ⟨.in_, .inward, .none, 32, true, none⟩), (0x503, ⟨.in_, .inward, .none, 32, true, none⟩),
  (0x504, ⟨.in_, .inward, .none, 32, true, none⟩), (0x505, ⟨.in_, .inward, .none, 32, false, none⟩),
  (0x506, ⟨.in_, .inward, .none, 32, true, none⟩), (0x507, ⟨.in_, .inward, .none, 13, false, none⟩),
  (0x600, ⟨.in_, .inward, .none, 32, false, none⟩), (0x601, ⟨.in_, .inward, .none, 4, false, none⟩),
  (0x602, ⟨.in_, .inward, .none, 32, true, none⟩), (0x603, ⟨.in_, .inward, .none, 32, false, none⟩),
  (0x604, ⟨.in_, .inward, .none, 32, false, none⟩),
  (0x700, ⟨.in_, .inward, .none, 14, true, none⟩), (0x701, ⟨.in_, .inward, .none, 20, false, none⟩),
  (0x702, ⟨.in_, .inward, .none, 14, false, none⟩), (0x703, ⟨.in_, .inward, .none, 4, false, none⟩),
  (0x704, ⟨.both, .byRule, .lower, 14, true, none⟩), (0x705, ⟨.out, .safe, .direct, 1, true, none⟩),
  (0x800, ⟨.in_, .inward, .none, 6, false, none⟩), (0x801, ⟨.in_, .inward, .none, 32, true, none⟩),
  (0x802, ⟨.in_, .inward, .none, 28, true, none⟩), (0x803, ⟨.both, .outward, .none, 1, false, none⟩),
  (0x900, ⟨.in_, .inward, .none, 4, false, none⟩)]

/-- Blocks 0xA to 0xE of the port table, but for the queue ports and levels. -/
def portTableA : List (Nat × PortInfo) := [
  (0xA00, ⟨.in_, .inward, .none, 12, true, none⟩),
  (0xB00, ⟨.out, .inward, .none, 25, true, none⟩), (0xB01, ⟨.out, .outward, .none, 25, true, none⟩),
  (0xB02, ⟨.out, .safe, .direct, 8, false, none⟩), (0xB03, ⟨.in_, .inward, .none, 7, false, none⟩),
  (0xD00, ⟨.in_, .inward, .none, 32, true, none⟩), (0xD01, ⟨.in_, .inward, .none, 16, false, none⟩),
  (0xE00, ⟨.in_, .inward, .none, 32, false, none⟩), (0xE01, ⟨.in_, .inward, .none, 16, false, none⟩),
  (0xE02, ⟨.in_, .inward, .none, 2, false, none⟩)]

/-- What the port table says of a port, but for the queue ports 0xC00 to 0xC3F; a number it does not list is undefined
(R107). -/
def portInfo (p : Nat) : Option PortInfo :=
  if 0xC40 ≤ p ∧ p < 0xC80 then some ⟨.in_, .inward, .none, 17, false, none⟩
  else (portTable0 ++ portTable4 ++ portTableA).lookup p

/-- The queue that a port names, for ENQ, ENQW, DEQ and DEQW alone (R110). -/
def queuePort (p : Nat) : Option (Fin 64) :=
  if h : 0xC00 ≤ p ∧ p < 0xC40 then some ⟨p - 0xC00, by omega⟩ else none

/-- The ports that exist with an effect in HUB alone (R107). -/
def hubPort (p : Nat) : Bool := p == 0x704 || p == 0x705

/-- The Safe ports: the only ones ST_FBK accepts (R58, R111). -/
def isSafePort (p : Nat) : Bool := (portInfo p).any fun i => i.cls == .safe

/-- GET faults on an undefined port, on a queue port, and on one whose direction is out only (R80, R110). -/
def getFaults (p : Nat) : Bool := (portInfo p).all fun i => i.dir == .out

/-- PUT and PUTS fault on an undefined port, on a queue port, and on one whose direction is in only (R80, R110). -/
def putFaults (p : Nat) : Bool := (portInfo p).all fun i => i.dir == .in_

/-- A written value as the block uses it: its width, then its range (R108). -/
def portValue (p : Nat) (v : Word) : Nat :=
  match portInfo p with
  | some i => min (v.toNat % 2 ^ i.width) (i.max.getD (2 ^ i.width))
  | none => 0

/-- The argument that decides whether two operations are on the same port and argument (R82, R95, R109). -/
def portArg (p : Nat) (a : Word) : Option Word :=
  if (portInfo p).any (·.hasArg) then some a else none

/-- The galley class of a service (R114); a number not listed is undefined. -/
def serviceClass (num : Nat) : Option PortClass :=
  [(0x001, PortClass.inward), (0x002, .outward), (0x300, .outward), (0x301, .outward), (0x302, .outward),
   (0x303, .outward), (0x304, .outward), (0x305, .inward), (0x600, .outward), (0x601, .outward), (0x602, .outward),
   (0x603, .inward), (0x700, .outward), (0x701, .outward), (0x702, .safe), (0x703, .outward), (0x800, .inward),
   (0x801, .outward), (0x802, .outward), (0x900, .outward), (0xA00, .outward), (0xA01, .safe), (0xA02, .inward),
   (0xD00, .outward)].lookup num

end Sys2Proof.Machine
end

