-- ==== Sys2Proof/Machine/QueueOps.lean ====
section
/-! DEFINITION. The hardware queues: enqueue, dequeue, flush and the three notices (18 R393 to R397). -/
namespace Sys2Proof.Machine

/-- Queue `q`. -/
def getQ (s : State) (q : Fin 64) : Queue := s.hp.queues.get q

/-- Changes queue `q`. -/
def modQ (q : Fin 64) (f : Queue → Queue) (s : State) : State :=
  s.updHp fun h => { h with queues := h.queues.set q.val (f (h.queues.get q)) q.isLt }

/-- Items held in queue `q` (Q_LEVEL_q). -/
def qLevel (s : State) (q : Fin 64) : Nat := (getQ s q).items.length

/-- Items queue `q` can hold (R393). -/
def qCapacity (s : State) (q : Fin 64) : Nat := getF s (Reg.Q_ALLOC_SIZE q.val) * 64

/-- Room for items; a disabled queue refuses enqueues as if it were full (Q_CTRL.EN). -/
def qRoom (s : State) (q : Fin 64) : Nat :=
  if getB s (Reg.Q_CTRL_EN q.val) then qCapacity s q - qLevel s q else 0

/-- The type of an item, [31:28]. -/
def itemType (w : Word) : Nat := bits w.toNat 28 4

/-- The item that an empty queue returns. -/
def idleItem : Word := 0xF0000000#32

/-- A notice of queue `q` goes to the targets that Q_CTRL enables (R397). -/
def qNotice (q : Fin 64) (s : State) : State :=
  let s := if getB s (Reg.Q_CTRL_TO_STRANDS q.val) then raiseHw (0x40 + q.val) (qLevel s q) s else s
  if getB s (Reg.Q_CTRL_TO_HOST q.val) then
    let f := if q.val < 32 then Reg.HOST_QNOTICE0_Q else Reg.HOST_QNOTICE1_Q
    s |> setF f (getF s f ||| 2 ^ (q.val % 32)) |> ringOut 7 0
  else s

/-- A hit bit is set when its condition occurs; its enable bit gates the delivery of the notice (R396). -/
def qHit (hit enable : Nat → Field) (q : Fin 64) (s : State) : State :=
  let s := setF (hit q.val) 1 s
  if getB s (enable q.val) then qNotice q s else s

/-- LEVEL has gone from `old` to its present value: the watermark (R396). -/
def qLevelMoved (old : Nat) (q : Fin 64) (s : State) : State :=
  let wm := inForce s (Reg.Q_WM_WM q.val)
  let new := qLevel s q
  if old < wm ∧ wm ≤ new ∧ !getB s (Reg.Q_STATUS_WM_HIT q.val) then qHit Reg.Q_STATUS_WM_HIT Reg.Q_CTRL_WM_EN q s
  else if wm ≤ old ∧ new < wm ∧ getB s (Reg.Q_CTRL_WM_AUTO q.val) then setF (Reg.Q_STATUS_WM_HIT q.val) 0 s
  else s

/-- The stale notice of queue `q` is armed (R396). -/
def qArmStale (q : Fin 64) (s : State) : State :=
  s |> boundary (Reg.Q_STALE_STALE q.val) |> modQ q fun x => { x with staleArmed := true }

/-- Appends one item to a queue that has room: watermark, packet notice, stale arming (R396). -/
def qAppend (q : Fin 64) (item : Word) (s : State) : State :=
  let old := qLevel s q
  let s := s |> boundary (Reg.Q_WM_WM q.val) |> modQ q fun x => { x with items := x.items ++ [item] }
  let s := if old = 0 then qArmStale q s else s
  let s := qLevelMoved old q s
  if itemType item = 3 ∨ itemType item = 4 then qHit Reg.Q_STATUS_PKT_HIT Reg.Q_CTRL_PKT_EN q s else s

/-- Takes the first `k` items out of a queue (R394, R396). -/
def qRemove (q : Fin 64) (k : Nat) (s : State) : State :=
  let old := qLevel s q
  let s := s |> boundary (Reg.Q_WM_WM q.val) |> modQ q fun x => { x with items := x.items.drop k, staleArmed := false }
  let s := if qLevel s q = 0 then s else qArmStale q s
  qLevelMoved old q s

/-- An enqueue refused for lack of room is counted (Q_STATS.REFUSED). -/
def qRefuse (q : Fin 64) (s : State) : State := incF (Reg.Q_STATS_REFUSED q.val) s

/-- Enqueues one item if there is room: whether it was taken (R83). An item of type 0xF appends nothing and succeeds. -/
def qEnqueue (q : Fin 64) (item : Word) (s : State) : Bool × State :=
  if itemType item = 0xF then (true, s)
  else if 0 < qRoom s q then (true, qAppend q item s)
  else (false, qRefuse q s)

/-- A held take of queue `q` becomes void (R94). -/
def voidTake (q : Fin 64) (x : Held) : Held :=
  match x.kind with
  | .take q' k _ => if q' = q then { x with kind := .take q' k true } else x
  | _ => x

/-- Q_FLUSH empties the queue at once; a take held on it becomes void (R94, R395). DESIGN CHOICE: with the take void, other
consumers see items that arrive after the flush before the galley resolves (assumption log 57). -/
def qFlush (q : Fin 64) (s : State) : State :=
  let old := qLevel s q
  let s := s |> boundary (Reg.Q_WM_WM q.val)
    |> modQ q (fun x => { x with items := [], taker := none, taken := 0, staleArmed := false })
    |> mapHeldOfOthers none (voidTake q) |> incF (Reg.Q_STATS_FLUSHES q.val)
  qLevelMoved old q s

/-- The items that consumer `n` finds in queue `q`: none while another galley holds a take, and those behind its own
takes (R94). -/
def qVisible (s : State) (q : Fin 64) (n : Fin 320) : List Word :=
  let x := getQ s q
  match x.taker with
  | none => x.items
  | some m => if m = n then x.items.drop x.taken else []

end Sys2Proof.Machine
end

