-- ==== Sys2Proof/Machine/Pilot.lean ====
section
/-! DEFINITION. The pilot monitor, the diode check, the proximity decoder, the socket lock, and the pilot's ports
(07 R121 to R135). -/
namespace Sys2Proof.Machine

/-! ## The monitor (R121 to R124, R128 to R131) -/

/-- The lower edge of a band of the high plateau, mV; none under the lowest (R122). -/
def Band.low : Band → Option Int
  | .over => some 13500 | .a => some 10500 | .b => some 7500 | .c => some 4500 | .d => some 1500 | .e => some (-1500)
  | .under => none

/-- The upper edge of a band; none over the highest. -/
def Band.high : Band → Option Int
  | .over => none | .a => some 13500 | .b => some 10500 | .c => some 7500 | .d => some 4500 | .e => some 1500
  | .under => some (-1500)

/-- A voltage lies in the band, or beyond an edge of it by no more than `slack`. -/
def Band.holds (b : Band) (slack v : Int) : Bool :=
  (match b.low with | some l => decide (l - slack ≤ v) | none => true) &&
  (match b.high with | some h => decide (v ≤ h + slack) | none => true)

/-- The band of a sample: that of the sample before it until it lies more than 0.2 V beyond an edge, else the band it falls into;
a voltage on the edge of two bands is in the one nearer to A (R122; assumption log 58). -/
def plateauBand (was : Option Band) (v : Int) : Band :=
  match was with
  | some b => if b.holds 200 v then b else fall v
  | none => fall v
where
  fall (v : Int) : Band := ([.a, .b, .c, .d, .e, .over].find? fun b => b.holds 0 v).getD .under

/-- The class of a low-plateau sample (R122). -/
def lowOf (v : Int) : LowClass :=
  if v < -13500 then .over else if v ≤ -10500 then .good else if v ≤ -1500 then .suspect else .absent

/-- The state code of a band of the high plateau; none where the band is an anomaly (R122). -/
def bandCode : Band → Option Nat
  | .a => some 0xA | .b => some 0xB | .c => some 0xC | .d => some 0xD | .e => some 0xE | .over | .under => none

/-- The monitor classifies the line: it does not while the module drives -12 V or nothing (R123). -/
def monitorOn (s : State) : Bool := s.pilot.line == .plus12 || s.pilot.line == .pwm

/-- The causes that an unplugged vehicle clears: RCM_DC, RCM_AC, PILOT and OVERCURRENT (R186). -/
def unplugged (s : State) : State := s |> release 0 |> release 1 |> release 5 |> release 6

/-- The driver puts out a diode test pulse: the monitor has entered B, C or D from A or E on a steady line (R128), or comes
back to it after the 3 s at F of a DIODE trip (R130). -/
def pulseDue (was st : Nat) (s : State) : Bool :=
  s.pilot.line == .plus12 && 0xB ≤ st && st ≤ 0xD &&
  (was == 0xA || was == 0xE || (was == 0xF && holds 5 s && s.sup.pilotWhy == 3))

/-- An anomaly of a trip row: its code is held (DIODE is a failed check of the diode, R128), it is counted, logged and announced, and the supervisor trips for a pilot
fault; NO_NEG and DUTY hold the outlet until the next reset (R26, R130, R131). -/
def tripAnomaly (k value : Nat) (s : State) : State :=
  let s := if k = 3 then setF Reg.VI_DIODE_RESULT 2 s else s
  let s := s |> setF Reg.VI_PILOT_ANOM k |> violation k value |> raiseHw 0x01 k
    |> (fun s => s.updSup fun u => { u with pilotWhy := k })
    |> (fun s => s.updPilot fun p => { p with diodeDue := false })
  let s := if k = 4 ∨ k = 6 then s.updSys fun y => { y with anomHeld := true } else s
  trip 5 value s

/-- CHATTER: a controlled disconnect and PWM stopped (R130). -/
def chatter (value : Nat) (s : State) : State :=
  let s := s |> violation 7 value |> showAnom 7 |> raiseHw 0x01 7
  let s := if coilOn s then startDisc .controlled s else s
  s |> stopPwm |> settle

/-- A change among B, C and D: more than 10 within 1 s are CHATTER (R130). -/
def countMove (was st value : Nat) (s : State) : State :=
  if 0xB ≤ was ∧ was ≤ 0xD ∧ 0xB ≤ st ∧ st ≤ 0xD then
    let moves := (s.pilot.mon.moves.filter fun t => decide (s.sys.usec < t + 1000000)) ++ [s.sys.usec]
    let s := s.updPilot fun p => { p with mon := { p.mon with moves := if 10 < moves.length then [] else moves } }
    if 10 < moves.length then chatter value s else s
  else s

/-- The monitor's new state `st` (R123): what follows from it, a test pulse where one is due, and CHATTER. -/
def newState (st value : Nat) (s : State) : State :=
  let was := getF s Reg.VI_PILOT_STATE
  let s := s |> (fun s => if getF s Reg.VI_PILOT_ANOM = 7 then setF Reg.VI_PILOT_ANOM 0 s else s)
    |> report st |> reportActs was st
  let s := if was = 0xA then standbyExit s else s
  let s := if st = 0xA then unplugged s else s
  let s := if was = 0xA ∧ st = 0xB then askTest true false none s else s
  let s := if pulseDue was st s then s.updPilot fun p => { p with diodeDue := true } else s
  s |> settle |> countMove was st value

/-- CP_FILT in force; 0 is treated as 1 (VI_CFG). -/
def filt (s : State) : Nat := max 1 (inForce s Reg.VI_CFG_CP_FILT)

/-- What the driver does at a sample: a sample on the falling edge, or within 6 µs after it, is settling; the rising edge lies
10 µs before the first (R121). Duty steps are half a microsecond. -/
inductive Level where
  | high | low | settling
  deriving DecidableEq, Repr

def levelAt (k : Fin 50) (s : State) : Level :=
  if s.pilot.line ≠ .pwm then .high
  else
    let t := 20 + 40 * k.val
    let fall := getF s Reg.VI_PILOT_DUTY
    if t < fall then .high else if t ≤ fall + 12 then .settling else .low

/-- A sample and the latest sample of the other plateau meet the condition of anomaly `k`, 1 to 5 (R123, R130). -/
def meets (k : Nat) (low : Bool) (m : Monitor) : Bool :=
  let h := m.band
  match k with
  | 1 => if low then m.low == some .over else h == some .over
  | 2 => h == some .e && m.low == some .absent
  | 3 => (h == some .b || h == some .c || h == some .d) && m.low == some .suspect
  | 4 => (h == some .a || h == some .b || h == some .c || h == some .d) && m.low == some .absent
  | 5 => !low && h == some .under
  | _ => false

/-- A sample that is not settling counts for each anomaly whose condition it meets, and breaks the count of the others. -/
def Monitor.judge (low : Bool) (m : Monitor) : Monitor :=
  { m with viol := Vector.ofFn fun i => if meets (i.val + 1) low m then m.viol.get i + 1 else 0 }

/-- The first anomaly that has CP_FILT samples without a break, but one whose trip is held already (R123, R130). -/
def recognised (s : State) : Option Nat :=
  ((List.finRange 5).find? fun i =>
    decide (filt s ≤ s.pilot.mon.viol.get i) && !(holds 5 s && getF s Reg.VI_PILOT_ANOM == i.val + 1)).map (·.val + 1)

/-- An anomaly that the sample completes is answered; else a band with CP_FILT counted samples is the new state. -/
def concludeSample (value : Nat) (s : State) : State :=
  match recognised s with
  | some k => tripAnomaly k value s
  | none =>
    match s.pilot.mon.band.bind bandCode with
    | some st => if filt s ≤ s.pilot.mon.run ∧ st ≠ getF s Reg.VI_PILOT_STATE then newState st value s else s
    | none => s

/-- A high-plateau sample (R122, R123). -/
def highSample (mv : BitVec 16) (s : State) : State :=
  let count (m : Monitor) : Monitor :=
    let b := plateauBand m.band mv.toInt
    ({ m with band := some b, run := if m.band = some b then m.run + 1 else 1 }).judge false
  (s.updPilot fun p => { p with mon := count p.mon }) |> setF Reg.VI_PLATEAU_HIGH mv.toNat |> concludeSample mv.toNat

/-- A low-plateau sample, which checks the diode (R122, R123, R128). -/
def lowSample (mv : BitVec 16) (s : State) : State :=
  let c := lowOf mv.toInt
  (s.updPilot fun p => { p with mon := ({ p.mon with low := some c }).judge true }) |> setF Reg.VI_PLATEAU_LOW mv.toNat
    |> setF Reg.VI_DIODE_RESULT (if c = .good then 1 else 2) |> concludeSample mv.toNat

/-- One sample of CP_SNS: nothing is classified while the module drives -12 V or nothing, nor while the driver settles (R121,
R123). -/
def pilotSample (s : State) (x : PilotSample) : State :=
  if !monitorOn s then s
  else match levelAt x.k s with
  | .settling => s
  | .high => highSample x.mv s
  | .low => lowSample x.mv s

/-- The duty of one period: more than 0.5 % from the duty generated, for 3 periods, is the anomaly DUTY (R130). -/
def periodDuty (s : State) (duty : BitVec 11) : State :=
  if s.pilot.line ≠ .pwm then s
  else
    let want := getF s Reg.VI_PILOT_DUTY
    let off : Bool := decide (want + 10 < duty.toNat) || decide (duty.toNat + 10 < want)
    let s := s.updPilot fun p => { p with mon := { p.mon with dutyRun := if off then p.mon.dutyRun + 1 else 0 } }
    if 3 ≤ s.pilot.mon.dutyRun then tripAnomaly 6 duty.toNat s else s

/-- PILOT_STATE_CHANGE: samples, of which CP_FILT counted ones in a new band change the reported state (R123). -/
def execPilotStateChange (first : PilotSample) (samples : List PilotSample) (s : State) : Out :=
  supervised (fun s => (first :: samples).foldl pilotSample s) s

/-- PILOT_ANOMALY: samples and measured duties, of which the violating ones bring an anomaly (R123, R130); D_NOVENT and C_NO_PWM
are conditions of the reported state (`settle`). -/
def execPilotAnomaly (samples : List PilotSample) (duties : List (BitVec 11)) (s : State) : Out :=
  supervised (fun s => settle (duties.foldl periodDuty (samples.foldl pilotSample s))) s

/-- The evaluation of a test pulse whose low plateau is `low` mV (R122, R128): good from -13.5 V to -10.5 V; a passing
pulse clears a DIODE trip, and a diode-suspect one is the anomaly DIODE. -/
def diodePulse (low : BitVec 16) (s : State) : State :=
  if !s.pilot.diodeDue then s
  else
    let v := low.toInt
    let pass := lowOf v == .good
    let s := (s.updPilot fun p => { p with diodeDue := false }) |> setF Reg.VI_PLATEAU_LOW low.toNat
      |> setF Reg.VI_DIODE_RESULT (if pass then 1 else 2) |> raiseHw 0x04 (if pass then 1 else 2)
    if pass then (if s.sup.pilotWhy = 3 then release 5 s else s)
    else if lowOf v == .suspect && vehicleThere s && !holds 5 s then tripAnomaly 3 low.toNat s
    else s

/-- DIODE_TEST_PULSE (R128). -/
def execDiodeTestPulse (low : BitVec 16) (s : State) : Out := supervised (fun s => diodePulse low s) s

/-- PILOT_SHORT_CLEAR: 1 s after the high plateau left band E the trip held for SHORT is released (R130). -/
def execPilotShortClear (s : State) : Out :=
  supervised (fun s => if s.sup.pilotWhy = 2 && getF s Reg.VI_PILOT_STATE ≤ 0xD then release 5 s else s) s

/-! ## Proximity (R132, R133) -/

/-- The band of a cable resistance in Ω, in the order of the table. -/
def ppBandOf (ohms : Nat) : Nat :=
  if ohms < 50 then 0 else if ohms < 160 then 1 else if ohms < 460 then 2 else if ohms < 1100 then 3
  else if ohms < 2700 then 4 else if ohms ≤ 10000 then 5 else 6

/-- PP_CODE of a band. -/
def ppCodeOf (band : Nat) : Nat :=
  match band with | 1 => 630 | 2 => 320 | 3 => 200 | 4 => 130 | _ => 0

/-- Three readings in a new band (R132): PP_CODE follows, with EV_PP when it changes; PP_LOST when a contactor is closed,
PP_INVALID while the band is invalid (R130); and the ceiling applies (R125). -/
def newBand (band ohms : Nat) (s : State) : State :=
  let old := s.pilot.ppBand
  let s := s.updPilot fun p => { p with ppBand := some band }
  let code := ppCodeOf band
  let moved := code != getF s Reg.VI_PP_CODE
  let s := if moved then s |> setF Reg.VI_PP_CODE code |> raiseHw 0x02 code else s
  let s := if band = 0 ∨ band = 5 then lastingBegins 10 (min 0xFFFF ohms) s else lastingEnds 10 s
  let s := if old.isSome && coilOn s then
      s |> violation 11 (min 0xFFFF ohms) |> (fun s => s.updSup fun u => { u with pilotWhy := 11 }) |> trip 5 (min 0xFFFF ohms)
    else s
  s |> lowerToCeiling |> settle

/-- One reading of the cable resistance (R132); a tethered cable is not measured (R133). -/
def ppReading (s : State) (ohms : Nat) : State :=
  if getB s Reg.VI_CFG_TETHERED then s
  else
    let band := ppBandOf ohms
    let s := (s.updPilot fun p => { p with
      ppSeen := some band, ppRun := if p.ppSeen = some band then p.ppRun + 1 else 1 }) |> setF Reg.VI_PP_OHMS (min 0xFFFF ohms)
    if 3 ≤ s.pilot.ppRun ∧ s.pilot.ppBand ≠ some band then newBand band ohms s else s

/-- PP_CHANGE: readings, of which three without a break in a new band change PP_CODE (R132). -/
def execPpChange (readings : List (BitVec 32)) (s : State) : Out :=
  supervised (fun s => readings.foldl (fun s r => ppReading s r.toNat) s) s

/-! ## The socket lock (R134, R135) -/

/-- Both mirrors read open and no load-side phase has voltage (R135). -/
def outletDead (s : State) : Bool := s.sw.mir1 == some true && s.sw.mir2 == some true && s.sw.vl == 0

/-- The outputs of the pair that VI_LOCK.PAIR selects (R134). -/
def lockPair (s : State) : Fin 12 × Fin 12 := if getB s Reg.VI_LOCK_PAIR then (10, 11) else (8, 9)

/-- The pulse ends: both outputs of the pair are off. -/
def lockPulseEnd (s : State) : State :=
  let p := lockPair s
  (s |> outOff p.1 |> outOff p.2).updPilot fun p => { p with lockPulse := none }

/-- The pair is driven for PULSE_MS in the direction commanded (R134). DESIGN CHOICE: the lower output of the pair locks and the
upper one unlocks (assumption log 27). Without VSYS no output turns on (R164). -/
def lockPulseStart (lock : Bool) (s : State) : State :=
  let p := lockPair s
  let s := lockPulseEnd s
  let s := if s.sys.vsysLow then s else outOn (if lock then p.1 else p.2) s
  s.updPilot fun p => { p with lockPulse := some (s.sys.usec + 1000 * getF s Reg.VI_LOCK_PULSE_MS) }

/-- A lock command starts its pulse: LOCK_STATE reads 2, and a LOCK_FAIL of the command before it has ended (R131, R134). -/
def lockStart (lock : Bool) (s : State) : State :=
  (s.updPilot fun p => { p with lockDir := some lock, lockRetry := false }) |> setF Reg.VI_LOCK_STATE 2 |> lastingEnds 12
    |> lockPulseStart lock

/-- LOCK_CMD: 1 lock, 2 unlock; an unlock is discarded unless the outlet is dead (R135), and while a weld is held (08 R158).
With EN = 0 there is no lock. -/
def lockCommand (v : Nat) (s : State) : State :=
  if !getB s Reg.VI_LOCK_EN then s
  else if v = 1 then lockStart true s
  else if v = 2 ∧ outletDead s ∧ !holds 7 s then lockStart false s
  else s

/-- The feedback input's level says locked (VI_LOCK.FB_POL). -/
def readsLocked (level : Bool) (s : State) : Bool := level == getB s Reg.VI_LOCK_FB_POL

/-- The movement has ended as commanded: LOCK_STATE and EV_LOCK (R134); LOCK_FAIL no longer lasts. -/
def lockMoved (lock : Bool) (s : State) : State :=
  (s.updPilot fun p => { p with lockDir := none, lockRetry := false }) |> setF Reg.VI_LOCK_STATE (ofBool lock)
    |> lastingEnds 12 |> raiseHw 0x03 (ofBool lock)

/-- The feedback switch is read. -/
def seeBolt (level : Bool) (s : State) : State := s.updPilot fun p => { p with bolt := readsLocked level s }

/-- LOCK_FEEDBACK_CHECK: the level of the feedback input 50 ms after the first pulse; a mismatch makes the second pulse due
(R134), but for the single unlock pulse of INERT (02 R35). -/
def execLockFeedbackCheck (level : Bool) (s : State) : Out :=
  supervised (fun s => match s.pilot.lockDir with
    | none => s
    | some lock =>
      if s.pilot.lockRetry then s
      else
        let s := s |> lockPulseEnd |> seeBolt level
        if readsLocked level s == lock then lockMoved lock s
        else if s.sys.mode = .inert then s
        else s.updPilot fun p => { p with lockRetry := true }) s

/-- LOCK_RETRY: the second pulse, 500 ms later, and the feedback 50 ms after it; a second failure is LOCK_FAIL, with
LOCK_STATE 3 (R130, R134). -/
def execLockRetry (level : Bool) (s : State) : Out :=
  supervised (fun s => match s.pilot.lockDir with
    | none => s
    | some lock =>
      if !s.pilot.lockRetry then s
      else
        let s := s |> lockPulseStart lock |> lockPulseEnd |> seeBolt level
        if readsLocked level s == lock then lockMoved lock s
        else (s.updPilot fun p => { p with lockDir := none, lockRetry := false }) |> setF Reg.VI_LOCK_STATE 3
        |> lastingBegins 12 (ofBool level) |> raiseHw 0x03 3) s

/-! ## What happens at a moment of its own -/

/-- The start of a PWM period, or of the next 1 ms while PWM is stopped: CP_FILT and the duty come into force (R127, VI_CFG). -/
def pwmPeriod (s : State) : State := s |> boundary Reg.VI_CFG_CP_FILT |> risingEdge |> settle

/-- STR_USEC moves on by 1 µs: the lock's pulse ends when it is due, and each 1,000 µs a PWM period starts (assumption log 1). -/
def microsecond (s : State) : State :=
  let s := s.updSys fun y => { y with usec := y.usec + 1 }
  let s := match s.pilot.lockPulse with
    | some t => if t ≤ s.sys.usec then lockPulseEnd s else s
    | none => s
  if s.sys.usec % 1000 = 0 then pwmPeriod s else s

/-! ## The pilot's ports (06, 07 R126, R127, R129, R160) -/

/-- PILOT_PWM: 0 stops PWM at once; 1 has no effect while a trip is held (R10), and waits for open confirmed during a
disconnect (R160). -/
def putPwm (v : Nat) (s : State) : State :=
  if v = 0 then s |> stopPwm |> settle
  else if held s ≠ 0 then s
  else if s.sw.disc.isSome then s.updPilot fun p => { p with deferPwm := true }
  else settle (s.updPilot fun p => { p with pwmReq := true })

/-- PILOT_HLC: no effect while a pilot trip is held (R129); waits for open confirmed during a disconnect (R160). -/
def putHlc (v : Nat) (s : State) : State :=
  if holds 5 s then s
  else if s.sw.disc.isSome then s.updPilot fun p => { p with deferHlc := some (v != 0) }
  else settle (s.updPilot fun p => { p with hlcReq := v != 0 })

/-- PILOT_STOP: stops PWM and holds the line steady at +12 V (R111). -/
def pilotStop (s : State) : State := s |> stopPwm |> settle

/-- PILOT_F: drives the line to state F (R111). -/
def pilotF (s : State) : State := settle (s.updPilot fun p => { p with formeF := true })

/-- PILOT_RELEASE: leaves state F for steady +12 V; no effect while a pilot trip is held (R129). -/
def pilotRelease (s : State) : State :=
  if holds 5 s then s else settle (s.updPilot fun p => { p with formeF := false })

/-- HLC_OFFER (R137). -/
def putOffer (v : Nat) (s : State) : State := s.updHlc fun h => { h with offer := BitVec.ofNat 3 v }

end Sys2Proof.Machine
end

