-- ==== Sys2Proof/Machine/Switch.lean ====
section
/-! DEFINITION. The contactor pair's sequences and the twelve protected outputs (08 R147 to R170). -/
namespace Sys2Proof.Machine

/-! ## Arming and closing (R149 to R151) -/

/-- The pre-close check fails: a mirror reads closed or a load-side phase is live. With a mirror unread it is not met, and
does not fail (R148, R149). -/
def preCloseFails (s : State) : Bool :=
  s.sw.mir1.isSome && s.sw.mir2.isSome && (s.sw.mir1 == some false || s.sw.mir2 == some false || s.sw.vl != 0)

/-- The pre-close check is met: both mirrors read open and every load-side phase is dead (R149). -/
def preCloseMet (s : State) : Bool := outletDead s

/-- Why an arm is refused, in the order of R150; a disconnect under way counts with the weld (R160). -/
def refusal (s : State) : Option Nat :=
  if !contEn s then some 1
  else if holds 7 s || s.sw.disc.isSome then some 2
  else if held s ≠ 0 then some 3
  else if preCloseFails s then some 4
  else none

/-- A close is armed, or refused with its cause, CONT_STATE [9] and EV_CONT (R149, R150). -/
def armClose (s : State) : State :=
  match refusal s with
  | some c =>
    let s := (s.updSw fun w => { w with refused := true }) |> setF Reg.CONT_FAULT_REFUSE c
    let s := if c = 4 then setF Reg.CONT_FAULT_PRECHECK 1 s else s
    raiseHw 0x10 (contState s) s
  | none => (s.updSw fun w => { w with refused := false }) |> setF Reg.CONT_STATUS_ARMED 1

/-- CONT_CLOSE_REQ: 1 arms, 0 withdraws the arm (R149). -/
def putCloseReq (v : Nat) (s : State) : State := if v = 0 then setF Reg.CONT_STATUS_ARMED 0 s else armClose s

/-- The pilot conditions of a close (R129). -/
def pilotAllowsClose (s : State) : Bool :=
  let st := getF s Reg.VI_PILOT_STATE
  (st == 0xC || (st == 0xD && getB s Reg.VI_CFG_VENT_OK)) && getF s Reg.VI_PILOT_ANOM == 0 &&
  s.pilot.line == .pwm && (!getB s Reg.VI_PILOT_HLC || s.hlc.status == 4)

/-- Every condition of R149: a close starts. An opening whose feedback is still to be judged does not hold it up. -/
def closeReady (s : State) : Bool :=
  getB s Reg.CONT_STATUS_ARMED && (s.sw.stage == .opened || s.sw.stage == .feedback) && !coilOn s && pilotAllowsClose s &&
  (!getB s Reg.VI_LOCK_EN || getF s Reg.VI_LOCK_STATE == 1) && held s == 0 && !testBlocksClose s &&
  contEn s && preCloseMet s

/-- CLOSE_START (R151 step 1): the arm is used up, and the coil of the contactor that is not the duty contactor turns
on. -/
def closeStart (s : State) : State :=
  if !closeReady s then s
  else
    let d := nextDuty2 s
    s |> setF Reg.CONT_STATUS_ARMED 0
      |> boundaries [Reg.CONT_TIMING_MIR_DEB, Reg.CONT_TIMING_MIR_T, Reg.CONT_TIMING_CLOSE_GAP]
      |> (fun s => s.updSw fun w => { w with stage := .closing, duty2 := d, discAfter := none, reported := false })
      |> setCoil (!d) true

def execCloseStart (s : State) : Out := .next (closeStart s)

/-- DUTY_COIL_ON (R151 step 2). -/
def dutyCoilOn (s : State) : State :=
  if s.sw.stage = .closing then
    (s.updSw fun w => { w with stage := .closing2 }) |> setCoil s.sw.duty2 true |> tryConfirm
  else s

def execDutyCoilOn (s : State) : Out := .next (dutyCoilOn s)

/-- CLOSE_TIMEOUT (R151 step 4): a close that is not confirmed fails for the contactor whose mirror still reads open, or
for both; both coils turn off and the contactor trip follows (R159). -/
def closeTimeout (live : BitVec 3) (s : State) : State :=
  let s := seeSupply live s
  if s.sw.stage ≠ .closing2 then s
  else if closeHolds s then tryConfirm s
  else
    let o1 := s.sw.mir1 != some false
    let o2 := s.sw.mir2 != some false
    let both := !o1 && !o2
    s |> (fun s => if o1 || both then setF Reg.CONT_FAULT_CLOSE_FAIL_K1 1 s else s)
      |> (fun s => if o2 || both then setF Reg.CONT_FAULT_CLOSE_FAIL_K2 1 s else s)
      |> contactorTrip .closeFail

def execCloseTimeout (live : BitVec 3) (s : State) : Out := .next (closeTimeout live s)

/-- A mirror reading changes after MIR_DEB, and the feedback is judged (R148, R157). -/
def mirrorChange (second reads : Bool) (live : BitVec 3) (s : State) : State :=
  (seeSupply live s).updSw (fun w => if second then { w with mir2 := some reads } else { w with mir1 := some reads })
    |> feedbackChanged

/-- A load-side phase goes live or dead, and the feedback is judged (R148, R157). -/
def loadSideChange (phase : Fin 3) (on : Bool) (live : BitVec 3) (s : State) : State :=
  let bit := BitVec.ofNat 3 (2 ^ phase.val)
  (seeSupply live s).updSw (fun w => { w with vl := if on then w.vl ||| bit else w.vl &&& ~~~bit }) |> feedbackChanged

/-! ## Opening (R152 to R156) -/

/-- CONT_OPEN: 1 opens both contactors at once, 0 starts a controlled disconnect (R152). -/
def putContOpen (v : Nat) (s : State) : State :=
  if v = 0 then s |> startDisc .controlled |> settle else s |> openNow true true |> clearArm

/-- The duty coil turns off: its break is counted with the breaking current, 0.1 A (R153 step 4, R156). -/
def breakDuty (i : Nat) (s : State) : State :=
  let d := s.sw.duty2
  let isOn := if d then s.sw.k2 else s.sw.k1
  let s := if isOn then s |> countBreak d i |> setCoil d false else s
  s.updSw fun w => { w with stage := .dutyOff }

/-- DISC_CURRENT_WAIT_END: the phase currents are at or below DISC_I, or DISC_WAIT has passed and the break is under load;
below 0.2 A there is no reliable zero and the duty coil turns off at once (R153). -/
def currentWaitEnd (ia ib ic : BitVec 16) (s : State) : State :=
  if s.sw.stage ≠ .currentWait then s
  else
    let s := readCurrents ia ib ic s
    let s := if inForce s Reg.CONT_DISC_DISC_I < largestI s then setF Reg.CONT_FAULT_UNDER_LOAD 1 s else s
    if largestI s < 2 then breakDuty (largestI s) s else s.updSw fun w => { w with stage := .opening }

def execDiscCurrentWaitEnd (ia ib ic : BitVec 16) (s : State) : Out := .next (currentWaitEnd ia ib ic s)

/-- DUTY_COIL_OFF at the target zero less OPEN_DLY and ARC_LEAD, with the current of the largest phase, 0.1 A (R153). -/
def execDutyCoilOff (amps : BitVec 16) (s : State) : Out :=
  .next (if s.sw.stage = .opening then breakDuty amps.toNat s else s)

/-- OTHER_COIL_OFF: OPEN_GAP after the target zero (R153 step 6). -/
def otherCoilOff (s : State) : State :=
  if s.sw.stage = .dutyOff then
    (setCoil (!s.sw.duty2) false s).updSw fun w => { w with stage := .feedback, bsClosed := false }
  else s

def execOtherCoilOff (s : State) : Out := .next (otherCoilOff s)

/-- DISCONNECT_FEEDBACK: MIR_T after the last coil-off (R157, R159). -/
def disconnectFeedback (live : BitVec 3) (s : State) : State :=
  let s := seeSupply live s
  if s.sw.stage = .feedback then judgeOpening s else s

/-- OPEN_DELAY_LEARN: a delay in 0.1 ms measured after a duty break of at least 1.0 A joins the last eight; outside 2 ms to
30 ms it is discarded and counted (R154). -/
def openDelayLearn (second : Bool) (delay : BitVec 16) (s : State) : State :=
  let d := delay.toNat
  let brk := getF s (if second then Reg.CONT_LASTBRK_K2 else Reg.CONT_LASTBRK_K1)
  if brk < 10 then s
  else if d < 20 ∨ 300 < d then incF Reg.CONT_FAULT_DLY_REJECT s
  else s.updSw fun w =>
    if second then { w with dly2 := (d :: w.dly2).take 8 } else { w with dly1 := (d :: w.dly1).take 8 }

def execOpenDelayLearn (second : Bool) (delay : BitVec 16) (s : State) : Out := .next (openDelayLearn second delay s)

/-- OPEN_DLY, 0.1 ms: the mean of the last eight delays; 6.0 ms while none is measured (R154). -/
def openDelay (l : List Nat) : Nat := if l.isEmpty then 60 else l.foldl (· + ·) 0 / l.length

/-- WEAR_MIRROR: every 100 ms while the pair is closed its state, current and NEXT_DUTY go to backup SRAM (R156). -/
def execWearMirror (ia ib ic : BitVec 16) (s : State) : Out :=
  .next (
    let s := readCurrents ia ib ic s
    if s.sw.k1 && s.sw.k2 then
      s.updSw fun w => { w with bsClosed := true, bsCurrent := largestI s, bsDuty := nextDuty2 s }
    else s)

/-- A reset or power-fail opening is counted at the next start: a pair recorded closed without a recorded opening counts
one break for each contactor with the recorded current (R156). -/
def countLostBreak (s : State) : State :=
  if s.sw.bsClosed then
    s |> countBreak false s.sw.bsCurrent |> countBreak true s.sw.bsCurrent |> fun s => s.updSw fun w => { w with bsClosed := false }
  else s

/-! ## Outputs (R162 to R170) -/

/-- The outputs are the forme's to switch: the mode puts them in service, and no undervoltage holds them off (R21, R30,
R162, R164). -/
def outputsServed (s : State) : Bool := inService s.sys.mode && s.sys.booted && !s.sys.vsysLow

/-- The outputs reserved for the socket lock (R134). -/
def lockMask (s : State) : Nat :=
  if getB s Reg.VI_LOCK_EN then (if getB s Reg.VI_LOCK_PAIR then 0xC00 else 0x300) else 0

/-- Output `n` of a mask is named. -/
def named (mask : Nat) (n : Fin 12) : Bool := mask.testBit n.val

/-- The cause of output `n` (OUT_DIAGn.CAUSE). -/
def outCause (n : Fin 12) (s : State) : Nat := getF s (Reg.OUT_DIAG_CAUSE n.val)

/-- Sets the cause of output `n`. -/
def setCause (n : Fin 12) (c : Nat) (s : State) : State := setF (Reg.OUT_DIAG_CAUSE n.val) c s

/-- OUT_ON clears every cause but the open-load ones (OUT_DIAGn). -/
def clearCauseOn (n : Fin 12) (s : State) : State :=
  if outCause n s = 1 ∨ outCause n s = 2 then s else setCause n 0 s

/-- OUT_ON: coil bits and bits of the lock's pair are ignored (R147, R134). -/
def putOutOn (mask : Nat) (s : State) : State :=
  if !outputsServed s then s
  else
    let barred := coilMask s ||| lockMask s
    (List.finRange 12).foldl (fun s n => if named mask n && !named barred n then s |> clearCauseOn n |> outOn n else s) s

/-- OUT_OFF: a coil bit opens that contactor alone, at once (R147, R162); bits of the lock's pair are ignored (R134). -/
def putOutOff (mask : Nat) (s : State) : State :=
  let c := coilMask s
  let k1 := (mask &&& c).testBit (coilOut false s)
  let k2 := (mask &&& c).testBit (coilOut true s)
  let s := if k1 || k2 then openNow k1 k2 s else s
  (List.finRange 12).foldl (fun s n => if named mask n && !named (c ||| lockMask s) n then outOff n s else s) s

/-- Outputs on, and outputs with a fault cause in force (OUT_STATE). -/
def outState (s : State) : Nat :=
  (List.finRange 12).foldl (fun k n =>
    k + (if (outCh n s).on then 2 ^ n.val else 0) + (if outCause n s = 0 then 0 else 2 ^ (n.val + 12))) 0

/-- What the ISENSE pad sources (R166): nothing for SEL 12 to 15, 1/1500 of the load current of the output selected, or the fault
level of 8 mA to 11 mA. -/
inductive Isense where
  | nothing
  | load (n : Fin 12)
  | fault
  deriving DecidableEq, Repr

/-- The ISENSE pad: the fault level while the selected output, or with ANYFAULT any output, is in fault (R166). -/
def isense (s : State) : Isense :=
  let any : Bool := getB s Reg.OUT_SENSE_SEL_ANYFAULT && (List.finRange 12).any fun n => outCause n s != 0
  let sel := getF s Reg.OUT_SENSE_SEL_SEL
  if any then .fault
  else if h : sel < 12 then (if outCause ⟨sel, h⟩ s = 0 then .load ⟨sel, h⟩ else .fault)
  else .nothing

/-- An output turns off by itself with a latched cause; its bit of every held OUT_ON write is fenced (R95, R170). -/
def latchOff (n : Fin 12) (cause : Nat) (s : State) : State :=
  s |> outOff n |> setCause n cause |> fenceOutputs (BitVec.ofNat 12 (2 ^ n.val)) none

/-- INRUSH_END (R162). -/
def execInrushEnd (n : Fin 12) (s : State) : Out := .next (modOut n (fun o => { o with inrush := false }) s)

/-- OUTPUT_OVERLOAD (R162). -/
def execOutputOverload (n : Fin 12) (s : State) : Out :=
  supervised (fun s => if (outCh n s).on then s |> latchOff n 3 |> raiseHw 0x12 (2 ^ n.val) else s) s

/-- Thermal restarts of an output in the last 10 s (OUT_DIAGn.RETRIES). -/
def recentRestarts (n : Fin 12) (s : State) : List Nat :=
  (outCh n s).restarts.filter fun t => s.sys.usec < t + 10000000

/-- THERMAL_SHUTDOWN: the cell shuts off, a turn-off into its clamp (R167), and latches its output off after the last permitted restart (R163). -/
def execThermalShutdown (n : Fin 12) (s : State) : Out :=
  .next (
    if !(outCh n s).on || (outCh n s).hot then s
    else
      let s := boundary Reg.OUT_TIMING_THERM_RETRY s
      let s := if inForce s Reg.OUT_TIMING_THERM_RETRY ≤ (recentRestarts n s).length then latchOff n 4 s
        else s |> clampEnergy n |> switchOut n (fun o => { o with hot := true }) |> setCause n 7
      raiseHw 0x12 (2 ^ n.val) s)

/-- THERMAL_RESTART: no inrush window opens (R163). -/
def execThermalRestart (n : Fin 12) (s : State) : Out :=
  .next (
    if (outCh n s).on && (outCh n s).hot then
      let times := s.sys.usec :: recentRestarts n s
      let s := switchOut n (fun o => { o with hot := false, restarts := times }) s
      if outCause n s = 7 then setCause n 0 s else s
    else s)

/-- VSYS_UNDERVOLT: every output turns off with cause UNDERVOLT, the contactors as an immediate opening; PWM stops and the
pilot stays at F until PILOT_RELEASE (R164, R442). -/
def undervolt (s : State) : State :=
  let was := s.sw.outs
  let s := (s.updSys fun y => { y with vsysLow := true }) |> setF Reg.PWR_STATUS_VSYS_LOW 1 |> openNow true true
  let s := (List.finRange 12).foldl (fun s n => if (was.get n).on then latchOff n 5 s else s) s
  s |> supervisorStop |> (fun s => s.updPilot fun p => { p with formeF := true }) |> settle

/-- VSYS_RECOVERED (R164, R442). -/
def vsysRecovered (s : State) : State :=
  (s.updSys fun y => { y with vsysLow := false }) |> setF Reg.PWR_STATUS_VSYS_LOW 0 |> settle

def execVsysUndervolt (s : State) : Out := supervised (fun s => undervolt s) s
def execVsysRecovered (s : State) : Out := supervised (fun s => vsysRecovered s) s

/-- The open-load threshold in force, 0.1 mA; 0 disables it (R165). -/
def openLoadLevel (n : Fin 12) (s : State) : Nat :=
  let t := inForce s (Reg.OUT_CFG_OL_TH n.val)
  if t = 0 then 0
  else if inForce s (Reg.OUT_CFG_RANGE n.val) = 0 then 10 * clamp 20 200 t else clamp 5 160 t

/-- OPEN_LOAD: the reading of an output that has been on for 50 ms, in 0.1 mA, or of one off for 10 ms, its pad in mV; a
reading on the good side clears the report (R165). -/
def openLoad (n : Fin 12) (reading : BitVec 16) (s : State) : State :=
  let isOn := (outCh n s).on
  let cause := if isOn then 1 else 2
  let found := if isOn then reading.toNat < openLoadLevel n s
    else getB s (Reg.OUT_CFG_OFF_DIAG n.val) && 2000 < reading.toNat
  if found && (outCause n s == 0 || outCause n s == 3 - cause) then s |> setCause n cause |> raiseHw 0x12 (2 ^ n.val)
  else if !found && (outCause n s == 1 || outCause n s == 2) then setCause n 0 s
  else s

def execOpenLoad (n : Fin 12) (reading : BitVec 16) (s : State) : Out := supervised (fun s => openLoad n reading s) s

/-- The governor may turn output `n` off: it is on, its priority is not 0, it drives no coil, and it is in no bridge pair
whose lock command runs (R170). -/
def governable (s : State) (n : Fin 12) : Bool :=
  (outCh n s).on && getF s (Reg.OUT_CFG_PRIO n.val) != 0 && !named (coilMask s) n &&
  !(s.pilot.lockDir.isSome && named (lockMask s) n)

/-- The output the governor turns off: the highest priority, ties to the higher number (R170). -/
def governed (s : State) : Option (Fin 12) :=
  ((List.finRange 12).filter (governable s)).foldl (fun best n =>
    match best with
    | none => some n
    | some b => if getF s (Reg.OUT_CFG_PRIO b.val) ≤ getF s (Reg.OUT_CFG_PRIO n.val) then some n else some b) none

/-- GOVERNOR_ACT (R170). -/
def governorAct (s : State) : State :=
  match governed s with
  | none => s
  | some n => s |> latchOff n 6 |> incF Reg.OUT_GOV_COUNT |> setF Reg.OUT_GOV_LAST (2 ^ n.val) |> raiseHw 0x13 (2 ^ n.val)

def execGovernorAct (s : State) : Out := .next (governorAct s)

end Sys2Proof.Machine
end

