-- ==== Sys2Proof/Machine/Ports.lean ====
section
/-! DEFINITION. What the ports of the strands read and what a write to one does, block by block (06 R107 to R110). A read
answers nothing where the value is not the module's to state: an argument beyond those its row names, and the load current
of an output (OUT_SENSE), which is measured at the read. -/
namespace Sys2Proof.Machine

/-! ## Ledger, tamper and presence -/

/-- LED_BALANCE: A of the account of channel `arg` in HUB, else of the own channel's (R234). -/
def ledBalance (arg : Nat) (s : State) : Option Nat :=
  if s.sys.role = .hub then (if arg < 256 then some (signed32 (accountAt arg s).credit) else none)
  else some (signed32 (accountAt (ownChannel s) s).credit)

/-- LED_DEMAND: the open interval's demand so far. -/
def ledDemand (s : State) : Nat := demandOf (openIntv s).imp (openIntv s).secs

/-- The boundaries up to the next end of a demand interval, oldest first, and that end. -/
def nextBoundaries (s : State) : List Hit × Nat :=
  let l := s.sys.ltime
  let d := (l / demLen s + 1) * demLen s
  ((searchSpan 64 l d s).1.first.reverse, d)

/-- LED_NEXT: the next tariff or demand boundary. -/
def ledNext (s : State) : Nat :=
  let r := nextBoundaries s
  ((r.1.find? fun h => h.demand || h.kinds.getLsbD 0).map (·.time)).getD r.2

/-- AO_TAMPER: [0] cover, [1] terminal cover. -/
def aoTamper (s : State) : Nat :=
  getF s Reg.AO_TMP_STATE_COVER_OPEN + 2 * getF s Reg.AO_TMP_STATE_TERM_OPEN

/-- AO_PRES: the windows that are open, and the seconds left. -/
def aoPres (s : State) : Nat :=
  getF s Reg.AO_PRES_STAT_INSTALLER + 2 * getF s Reg.AO_PRES_STAT_METRO + 64 * getF s Reg.AO_PRES_STAT_LEFT

/-- PRES_LED: dark, lit while only the installer window is open, or flashing while the metrology window is (16 R354); it
is off without VAUX (20). -/
inductive Lamp where
  | dark | lit | flashing
  deriving DecidableEq, Repr

def presLed (s : State) : Lamp :=
  if !s.sys.mainGood ∨ getF s Reg.AO_PRES_STAT_INSTALLER = 0 then .dark
  else if getF s Reg.AO_PRES_STAT_METRO = 0 then .lit else .flashing

/-! ## Reader, tag and keys -/

/-- The tag is muted for the own reader: until 1 ms after the field went off (14 R305). -/
def muted (s : State) : Bool := s.rd.offAt.any fun t => decide (s.sys.usec < t + 1000)

/-- RD_STATUS: cards found, collision, the tag muted; an inventory or exchange is over before the next command, so that the
field is off. -/
def rdStatus (s : State) : Nat := 2 * min 7 s.rd.cards.length + 16 * ofBool s.rd.tooMany + 32 * ofBool (muted s)

/-- TAG_STATUS: field present, field transaction, quiet hold, muted for the own reader. -/
def tagStatus (s : State) : Nat :=
  ofBool (s.sys.rfField || s.tag.inTx) + 2 * ofBool s.tag.inTx + 4 * ofBool s.tag.quiet + 8 * ofBool (muted s)

/-- KEY_STATUS: usable slots, and the slots in use in engine `arg`. -/
def keyStatus (arg : Nat) (s : State) : Option Nat :=
  if arg < 8 then some (usableSlots s + 256 * engineUse arg s) else none

/-! ## Reads -/

/-- Blocks 0x0 and 0x1: the strand's own timer, self and last resolution; the supervisor. -/
def portRead0 (n : Fin 320) (port arg : Nat) (s : State) : Option Nat :=
  let t := getS s n
  match port with
  | 0x000 => some ((t.timerEnd.map fun e => e - s.sys.usec).getD 0)
  | 0x001 => some (n.val + 4096 * t.cls.val + 65536 * ofBool (speculative s n))
  | 0x003 => some t.lastGal.toNat
  | 0x004 => some s.sys.usec
  | 0x100 => some (held s)
  | 0x103 => (limitOf arg).map fun _ => limitGet arg s
  | 0x104 => some (getF s Reg.SAFE_RCM_MEAS_DC + 65536 * getF s Reg.SAFE_RCM_MEAS_AC)
  | 0x105 => if h : arg < 2 then some (signedField 16 (s.sup.temps.get ⟨arg, h⟩)) else none
  | 0x107 => some (threshold s)
  | _ => none

/-- Blocks 0x2 and 0x3: pilot, proximity, lock and communication. -/
def portRead2 (port : Nat) (s : State) : Option Nat :=
  match port with
  | 0x200 => some (getF s Reg.VI_PILOT_STATE + 16 * getF s Reg.VI_PILOT_ANOM)
  | 0x201 => some (ofBool s.pilot.pwmReq)
  | 0x205 => some (ofBool s.pilot.hlcReq)
  | 0x206 => some (getF s Reg.VI_PLATEAU_HIGH + 65536 * getF s Reg.VI_PLATEAU_LOW)
  | 0x207 => some (getF s Reg.VI_DIODE_RESULT)
  | 0x208 => some (cableRating s)
  | 0x20A => some (getF s Reg.VI_LOCK_STATE)
  | 0x20B => some s.pilot.alloc
  | 0x300 => some (hlcStatus s)
  | 0x301 => some ((s.hlc.pend.map fun r => r.timeout - s.sys.usec).getD 0)
  | 0x302 => some s.hlc.offer.toNat
  | _ => none

/-- Blocks 0x4 and 0x5: contactors, outputs and metrology. -/
def portRead4 (port arg : Nat) (s : State) : Option Nat :=
  match port with
  | 0x400 => some (contState s)
  | 0x401 => some (getF s Reg.CONT_STATUS_ARMED)
  | 0x405 => some (outState s)
  | 0x407 => if arg = 0 then some s.sw.wear1 else if arg = 1 then some s.sw.wear2 else none
  | 0x500 => if arg < 4 then some (getF s (Reg.MET_VAL_VALUE (3 + arg))) else none
  | 0x501 => if arg < 3 then some (getF s (Reg.MET_VAL_VALUE arg)) else none
  | 0x502 => if arg < 4 then some (getF s (Reg.MET_VAL_VALUE (7 + arg))) else none
  | 0x503 => if arg < 4 then some (getF s (Reg.MET_VAL_VALUE (11 + arg))) else none
  | 0x504 => if arg < 3 then some (metBlockE arg s) else none
  | 0x505 => some (getF s Reg.MET_FREQ_W_FREQ)
  | 0x506 => if arg < 3 then some (stampNow arg s) else none
  | 0x507 => some (metChain s)
  | _ => none

/-- Blocks 0x6 to 0x9: ledger, site, reader and tag. -/
def portRead6 (port arg : Nat) (s : State) : Option Nat :=
  match port with
  | 0x600 => some s.sys.ltime
  | 0x601 => some (getF s Reg.LED_STATUS_TARIFF)
  | 0x602 => ledBalance arg s
  | 0x603 => some (ledDemand s)
  | 0x604 => some (ledNext s)
  | 0x700 =>
    if s.sys.role = .hub then (if arg < 256 then some (chanAt arg s).imp.grant else none) else some (grants s).1
  | 0x701 => some (siteStatus s)
  | 0x702 => some (siteFallback s)
  | 0x703 => some (sitePhase s)
  | 0x704 => if arg < 256 then some (getF s (Reg.ALLOC_CH_CFG_CEIL arg)) else none
  | 0x800 => some (rdStatus s)
  | 0x801 => if arg < 2 then some (getF s (Reg.RD_UID_LO_UID arg)) else none
  | 0x802 => if arg < 2 then some (getF s (Reg.RD_UID_HI_UID arg) + 0x1000000 * getF s (Reg.RD_UID_HI_LEN arg)) else none
  | 0x803 => some (ofBool s.rd.poll)
  | 0x900 => some (tagStatus s)
  | _ => none

/-- Blocks 0xA to 0xE: keys, display, queue levels, store, clock, presence and tamper. -/
def portReadA (port arg : Nat) (s : State) : Option Nat :=
  match port with
  | 0xA00 => keyStatus arg s
  | 0xB03 => some (platenStatus s)
  | 0xD01 => some (storeFree s + 32768 * ofBool (decide (storeFree s < 75)))
  | 0xE00 => some (wallClock s)
  | 0xE01 => some (aoPres s)
  | 0xE02 => some (aoTamper s)
  | p => if h : 0xC40 ≤ p ∧ p < 0xC80 then some (qLevel s ⟨p - 0xC40, by omega⟩) else none

/-- What a GET of a port returns, within its width; none where the manual states no value (R107 to R109). Outside HUB a
Hub port reads 0 (R107). -/
def portGet (n : Fin 320) (port : Nat) (arg : Word) (s : State) : Option Nat :=
  if hubPort port && s.sys.role != .hub then some 0
  else
    let a := arg.toNat
    let v := if port < 0x200 then portRead0 n port a s else if port < 0x400 then portRead2 port s
      else if port < 0x600 then portRead4 port a s else if port < 0xA00 then portRead6 port a s else portReadA port a s
    v.map (· % 2 ^ ((portInfo port).map (·.width)).getD 32)

/-- The value that the LOWER rule compares with. -/
def portRead (n : Fin 320) (port : Nat) (arg : Word) (s : State) : Nat := (portGet n port arg s).getD 0

/-! ## Writes -/

/-- A written value as the rule, the class test and the block take it: within the port's width and range; the range of
SAFE_LIMIT is that of its argument (R193), and that of ALLOC_CURRENT ends at the ceiling (R125). -/
def portLimit (port : Nat) (arg v : Word) (s : State) : Nat :=
  let x := portValue port v
  if port = 0x103 then limitRange arg.toNat x else if port = 0x20B then min (ceiling s) x else x

/-- STR_TIMER: the time left in µs; 0 stops it. -/
def putTimer (n : Fin 320) (v : Nat) (s : State) : State :=
  let e : Option Nat := if v = 0 then none else some (s.sys.usec + v)
  modS n (fun t => { t with timerEnd := e, timerFired := false }) s

/-- Blocks 0x0 to 0x3. -/
def portWrite0 (n : Fin 320) (port arg v : Nat) (s : State) : State :=
  match port with
  | 0x000 => putTimer n v s
  | 0x101 => formeTrip v s
  | 0x102 => if v = 1 then reclose s else s
  | 0x103 => limitPut arg v s
  | 0x106 => if v = 1 then askTest false false none s else s
  | 0x201 => putPwm v s
  | 0x202 => pilotStop s
  | 0x203 => pilotF s
  | 0x204 => pilotRelease s
  | 0x205 => putHlc v s
  | 0x209 => lockCommand v s
  | 0x20B => allocate (min (ceiling s) v) s
  | 0x302 => putOffer v s
  | _ => s

/-- Blocks 0x4 to 0xB. -/
def portWrite4 (n : Fin 320) (port : Nat) (arg : Word) (v : Nat) (s : State) : State :=
  match port with
  | 0x401 => putCloseReq v s
  | 0x402 => putContOpen v s
  | 0x403 => putOutOn v s
  | 0x404 => putOutOff v s
  | 0x704 => if arg.toNat < 256 then setF (Reg.ALLOC_CH_CFG_CEIL arg.toNat) v s else s
  | 0x705 => modChan arg.toNat (fun x => { x with pause := true }) s
  | 0x803 => s.updRd fun r => { r with poll := v != 0 }
  | 0xB00 => proofDraw n arg v s
  | 0xB01 => platenCommit n arg v s
  | 0xB02 => platenClear v s
  | _ => s

/-- What a write to a port does. STR_CTRL is `putStrCtrl`. -/
def portWrite (n : Fin 320) (port : Nat) (arg : Word) (v : Nat) (s : State) : State :=
  if port < 0x400 then portWrite0 n port arg.toNat v s else portWrite4 n port arg v s

end Sys2Proof.Machine
end

