-- ==== Sys2Proof/Machine/Capstan.lean ====
section
/-! DEFINITION. The Capstan's shared operations: the scheduler, the path every instruction takes, strand faults, service
calls, galley entries, lock-up and pie (03 R42 to R61, 04 R80 to R89, 05 R91 to R104). -/
namespace Sys2Proof.Machine

/-! ## The scheduler (R42, R45 to R48) -/

/-- f_CAP by mode: 0 stopped, 1 75 MHz, 2 300 MHz (R21, R54). The model runs the whole of BOOT in one step, so that no
command meets BOOT from step 10 on. -/
def fCap (s : State) : Nat :=
  match s.sys.mode with
  | .standby => 1
  | .factory | .commission | .standalone | .hub | .head | .repeater | .handover => 2
  | .noPower | .backup | .tagOnly | .boot | .inert => 0

/-- TURN_LEN as it applies to the next turn: 4 to 64 (CAP_CTRL). -/
def turnLen (s : State) : Nat := clamp 4 64 (getF s Reg.CAP_CTRL_TURN_LEN)

/-- The class weights as they apply from the next scheduler cycle: 0 is treated as 1 (CAP_CTRL). -/
def weightsNow (s : State) : Vector Nat 3 :=
  #v[max 1 (getF s Reg.CAP_CTRL_CL1_W), max 1 (getF s Reg.CAP_CTRL_CL2_W), max 1 (getF s Reg.CAP_CTRL_CL3_W)]

/-- The queue of class 1, 2 or 3. -/
def Cap.classQueue (c : Cap) : List (Fin 320) :=
  if c.cycClass = 1 then c.q1 else if c.cycClass = 2 then c.q2 else c.q3

/-- Takes the head of the queue of the class being served. -/
def Cap.dropHead (c : Cap) : Cap :=
  if c.cycClass = 1 then { c with q1 := c.q1.tail }
  else if c.cycClass = 2 then { c with q2 := c.q2.tail } else { c with q3 := c.q3.tail }

/-- The class passes its turns on; after class 3 a new scheduler cycle starts under the weights `ws` (R46). -/
def Cap.nextClass (ws : Vector Nat 3) (c : Cap) : Cap :=
  if c.cycClass = 1 then { c with cycClass := 2, cycLeft := c.cycW[1] }
  else if c.cycClass = 2 then { c with cycClass := 3, cycLeft := c.cycW[2] }
  else { c with cycClass := 1, cycW := ws, cycLeft := ws[0] }

/-- The strand of classes 1 to 3 whose turn it is, within `k` changes of class (R46). -/
def Cap.pickClass (ws : Vector Nat 3) : Nat → Cap → Cap × Option (Fin 320)
  | 0, c => (c, none)
  | k + 1, c =>
    match c.cycLeft, c.classQueue with
    | left + 1, n :: _ => ({ c.dropHead with cycLeft := left }, some n)
    | _, _ => (c.nextClass ws).pickClass ws k

/-- A strand that a WAIT stopped, and that now issues again, finds its slot in w1 (R44). A strand with a lock-up or pie
pending performs that first. DESIGN CHOICE: the slot is chosen, and its bit cleared, when the strand gets the engine, so that an
event that comes between its wake and that moment counts (assumption log 57). -/
def Strand.takeWake (t : Strand) : Strand :=
  if (t.galley.bind (·.resolved)).isSome then t
  else match t.waitMask with
  | none => t
  | some m =>
    let t := { t with waitMask := none }
    match lowestSelected m t.pending t.timerFired with
    | none => t
    | some i =>
      let t := setW 1 (BitVec.ofNat 32 i) t
      if i = 8 then { t with timerFired := false }
      else { t with pending := t.pending &&& ~~~(BitVec.ofNat 8 (2 ^ i)) }

/-- Strand `n` receives the engine: READY to RUNNING, with a new turn in classes 1 to 3 (R42). -/
def Cap.start (turn : Nat) (n : Fin 320) (c : Cap) : Cap :=
  { c with running := some n }.modStrand n fun t => { t.takeWake with st := .running, turnLeft := turn }

/-- A strand of classes 1 to 3 that has issued its turn rejoins the tail of its class queue (R42, R46). -/
def Cap.endTurn (n : Fin 320) (c : Cap) : Cap :=
  ((c.leave n).modStrand n fun t => { t with st := .ready }).join n

/-- The running strand's turn ends when it is due (R46). -/
def Cap.dueTurnEnd (c : Cap) : Cap :=
  match c.running with
  | some r => if (c.strand r).cls ≠ 0 ∧ (c.strand r).turnLeft = 0 then c.endTurn r else c
  | none => c

/-- The engine goes to the strand that the rules name: class 0 in the order woken, cutting in on classes 1 to 3 (R47,
R48); else the interrupted strand, with its unused turn (R47); else the scheduler cycle (R46). -/
def Cap.schedule (turn : Nat) (ws : Vector Nat 3) (c : Cap) : Cap :=
  let c := c.dueTurnEnd
  let busy : Bool := match c.running with | some r => (c.strand r).cls == 0 || c.q0.isEmpty | none => false
  if busy then c
  else match c.q0 with
  | n :: rest =>
    { c with q0 := rest, interrupted := if c.running.isSome then c.running else c.interrupted }.start turn n
  | [] => match c.interrupted with
    | some r => { c with running := some r, interrupted := none }
    | none => match c.pickClass ws 5 with
      | (c, some n) => c.start turn n
      | (c, none) => c

/-- The state in which strand `n` has the engine, when the scheduler gives it to strand `n` (R42 to R48). -/
def grant (n : Fin 320) (s : State) : Option State :=
  if fCap s = 0 then none
  else
    let s := s.updCap (Cap.schedule (turnLen s) (weightsNow s))
    if s.cap.running = some n then some s else none

/-- Issue cycles are charged: to a class-0 strand's activation, or as one instruction of the turn (R46, R50). -/
def Strand.charge (cycles : Nat) (t : Strand) : Strand :=
  if t.cls = 0 then { t with used := t.used + cycles, hwm := max t.hwm (min 511 (t.used + cycles)) }
  else { t with turnLeft := t.turnLeft - 1 }

/-- An instruction that does not branch has issued: its cycles, and the program counter past its words (R66). DEDUCED: behind
a forme that fills the program store the counter of 17 bits goes on at word 0 (assumption log 57). An entry kept for the
strand is taken by this instruction, or no longer needed (R96). -/
def Strand.advance (words cycles : Nat) (t : Strand) : Strand :=
  { t.charge cycles with pc := t.pc + BitVec.ofNat 17 words, bpPass := false, reserved := false }

/-- Strand `n` leaves the engine in state `st`. -/
def Cap.stopIn (st : StrandState) (n : Fin 320) (c : Cap) : Cap :=
  (c.leave n).modStrand n fun t => { t with st := st }

/-- Strand `n` is BLOCKED for the reason `b`; the turn ends (R42). -/
def blockOn (b : Block) (n : Fin 320) (s : State) : State :=
  s.updCap fun c => (c.stopIn .blocked n).modStrand n fun t => { t with block := some b }

/-- What a BLOCKED strand waited for is done: it becomes READY, in the same class-0 activation (R42, R48, R50). A strand
that is READY with a resolution pending, or HALTED, goes on from there. -/
def unblock (n : Fin 320) (s : State) : State :=
  s.updCap fun c =>
    let t := c.strand n
    let c := c.modStrand n fun t => { t with block := none }
    match t.st with
    | .blocked => c.makeReady t.hmax false n
    | .halted => c.modStrand n fun t => if t.prev = .blocked then { t with prev := .ready } else t
    | _ => c

/-! ## Galley entries (R87, R94, R96) -/

/-- A galley releases its queue takes: the items stay at the head (R94). -/
def releaseTakes (n : Fin 320) (s : State) : State :=
  let free : Queue → Queue := fun x => if x.taker = some n then { x with taker := none, taken := 0 } else x
  s.updHp fun h => { h with queues := h.queues.map free }

/-- A strand may add entries to its galley: it is open, and below its own limit (R96). -/
def Strand.belowLimit (t : Strand) : Bool :=
  match t.galley with
  | some g => g.resolved.isNone && decide (g.held.length < g.limit)
  | none => false

/-- Strand `t` draws on the share of class 0, or on that of the others, and may add to its galley (R96). -/
def Strand.inShare (cls0 : Bool) (t : Strand) : Bool := (t.cls == 0) == cls0 && t.belowLimit

/-- The entries of a share that go to other strands before strand `n`: those kept for strands that stalled, and one for each
strand that stalled before it (R96). -/
def Cap.claimed (cls0 : Bool) (n : Fin 320) (c : Cap) : Nat :=
  ((c.stalled.takeWhile (· != n)).filter fun m => (c.strand m).inShare cls0).length +
  (allStrands.filter fun m => m != n && (c.strand m).reserved && (c.strand m).inShare cls0).length

/-- Strand `n` may add an entry to its galley: below its own limit, and its share of the pool not empty once the strands that
stalled before it have theirs (R96). -/
def entryFree (n : Fin 320) (s : State) : Bool :=
  let t := getS s n
  t.belowLimit && decide (s.cap.claimed (t.cls == 0) n < s.cap.poolFree (t.cls == 0))

/-- Strand `n` leaves the engine and the queues in state `st`, with its place among the stalled strands (R96). -/
def Cap.stopKeeping (st : StrandState) (n : Fin 320) (c : Cap) : Cap := { c.stopIn st n with stalled := c.stalled }

/-- Strand `n` is STALLED for want of an entry, behind those that stalled before it (R42, R96). -/
def stall (n : Fin 320) (s : State) : State :=
  let s := if (getS s n).belowLimit then setF Reg.GAL_STALL_POOL_EMPTY 1 s else s
  s.updCap fun c =>
    let c := c.stopKeeping .stalled n
    { c with stalled := if c.stalled.contains n then c.stalled else c.stalled ++ [n] }

/-- Appends an entry to the galley of strand `n`. -/
def addHeld (n : Fin 320) (k : HeldKind) (s : State) : State :=
  modS n (fun t => { t with
    reserved := false, galley := t.galley.map fun g => { g with held := g.held ++ [{ kind := k }] } }) s

/-- Changes the entries of the galley of strand `n`. -/
def modHeld (n : Fin 320) (f : List Held → List Held) (s : State) : State :=
  modS n (fun t => { t with galley := t.galley.map fun g => { g with held := f g.held } }) s

/-- The galley of strand `n` is pied and none of its held operations runs; its registers stay as they are (R57, R104). -/
def discardGalley (n : Fin 320) (s : State) : State :=
  if (getS s n).galley.isNone then s
  else s |> releaseTakes n |> modS n (fun t => { t with galley := none, lastGal := 0 }) |> proofPie n

/-- The calls of strand `n` are abandoned (R85): one whose service has run leaves nothing behind, and completions kept for a
GSET go with them. -/
def abandonCalls (n : Fin 320) (s : State) : State :=
  let mark : Call → Call := fun k => if k.strand = n then { k with abandoned := true } else k
  let gone : Call → Bool := fun k => k.strand == n && (k.delivered || k.done.isSome)
  s.updCap fun c => { c with calls := (c.calls.filter fun k => !gone k).map mark }

/-! ## Strand commands (R42, R49, R58, R63) -/

/-- The registers, predicates, program counter, pending bits and timer of a strand that starts at its entry address. -/
def Strand.fresh (t : Strand) : Strand :=
  { t with w := Vector.replicate 16 0, p := 1, pc := t.entry, timerEnd := none, timerFired := false, pending := 0,
           waitMask := none, block := none, used := 0, bpPass := false, reserved := false }

/-- ENABLE and RESTART (R42): a class-0 strand whose FB_EN is 0 is refused (R58). -/
def enableStrand (n : Fin 320) (s : State) : Nat × State :=
  let t := getS s n
  if t.st ≠ .disabled ∧ t.st ≠ .faulted then (statusOk, s)
  else if t.cls = 0 ∧ !t.fbEn then (errLocked, setF Reg.CAP_STATUS_FBK_REFUSED 1 s)
  else (statusOk, s |> abandonCalls n |> keysLetGo n
    |> modS n (fun t => { t.fresh with fault := 0, hwm := 0, armed := t.fbEn })
    |> fun s => s.updCap (Cap.makeReady (hmaxNow s) true n))

/-- DISABLE (R42): refused for class 0 while a session is active (R63). -/
def disableStrand (n : Fin 320) (s : State) : Nat × State :=
  let t := getS s n
  if t.cls = 0 ∧ sessionActive s then (errLocked, s)
  else if t.st = .disabled then (statusOk, s)
  else (statusOk, s |> discardGalley n |> abandonCalls n |> keysLetGo n
    |> (fun s => s.updCap (Cap.stopIn .disabled n))
    |> modS n fun t => { t with pending := 0, waitMask := none, block := none, armed := false, fault := 0 })

/-- A strand command: 1 ENABLE, 2 DISABLE, 3 RESTART; other values have no effect, and a strand above 319 answers
ERR_ADDR (R63). -/
def strandCommand (cmd n : Nat) (s : State) : Nat × State :=
  if h : n < 320 then
    if cmd = 2 then disableStrand ⟨n, h⟩ s
    else if cmd = 1 ∨ cmd = 3 then enableStrand ⟨n, h⟩ s
    else (statusOk, s)
  else (errAddr, s)

/-! ## Port writes (R80 to R82, R95) -/

/-- The value PUTS would apply to a port (R79). -/
def putsValue (n : Fin 320) (port : Nat) (arg : Word) (v : Nat) (s : State) : Nat :=
  match portInfo port with
  | some i => match i.puts with
    | .lower => min (portRead n port arg s) v
    | _ => v
  | none => v

/-- A PUT of `v` is safe-direction: the port is Safe, or it is by rule and PUTS would apply the same value (R79). -/
def putIsSafe (n : Fin 320) (port : Nat) (arg : Word) (v : Nat) (s : State) : Bool :=
  match portInfo port with
  | some i => match i.cls with
    | .safe => true
    | .byRule => v == putsValue n port arg v s
    | _ => false
  | none => false

/-- What a safe-direction operation of strand `n` does to held writes: it removes its own earlier ones (R82) and fences
those of every other galley (R95). A turn-off of outputs acts on OUT_ON bit by bit (R95). -/
def safeEffects (n : Fin 320) (port : Nat) (arg : Word) (v : Nat) (s : State) : State :=
  let mask : BitVec 12 := if port = 0x404 then BitVec.ofNat 12 v else 0
  let keep : Held → Bool := fun h =>
    !(heldOn port (portArg port arg) h) &&
    (match h.kind with
     | .port p _ w => !(port == 0x404 && p == 0x403 && (w.truncate 12 &&& ~~~h.cut) == 0)
     | _ => true)
  let cutOwn : Held → Held := fun h => match h.kind with
    | .port p a w => if p = 0x403 then { h with kind := .port p a (w &&& ~~~(mask.setWidth 32)) } else h
    | _ => h
  let s := if speculative s n then modHeld n (fun hs => (hs.map cutOwn).filter keep) s else s
  s |> fence port (portArg port arg) (some n) |> fenceOutputs mask (some n)

/-- A restart of faulted strand `m` by the forme is kept with its time (R60). -/
def noteRestart (m : Nat) (was s : State) : State :=
  if h : m < 320 then
    if (getS was ⟨m, h⟩).st = .faulted ∧ (getS s ⟨m, h⟩).st = .ready then
      modS ⟨m, h⟩ (fun t => { t with restarts := t.restarts ++ [s.sys.usec] }) s
    else s
  else s

/-- STR_CTRL: a strand command, which acts only when a class-3 strand issues it (06, port 0x002). -/
def putStrCtrl (n : Fin 320) (v : Nat) (s : State) : State :=
  if (getS s n).cls = 3 then noteRestart (bits v 0 9) s (strandCommand (bits v 9 2) (bits v 0 9) s).2 else s

/-- A port write takes effect: a Hub port outside HUB has no effect (R107). -/
def applyPort (n : Fin 320) (port : Nat) (arg : Word) (v : Nat) (s : State) : State :=
  if hubPort port && s.sys.role != .hub then s
  else if port = 0x002 then putStrCtrl n v s
  else portWrite n port arg v s

/-- A PUT executes at once (R81). -/
def putNow (n : Fin 320) (port : Nat) (arg : Word) (v : Nat) (s : State) : State :=
  let s := if putIsSafe n port arg v s then safeEffects n port arg v s else s
  applyPort n port arg v s

/-- PUTS: the value the port's PUTS rule gives, safe-direction on every port; no effect on a port with no rule
(R80, R81). -/
def putsNow (n : Fin 320) (port : Nat) (arg : Word) (v : Nat) (s : State) : State :=
  let rule : PutsRule := match portInfo port with | some i => i.puts | none => .none
  if rule = .none then s
  else
    let v' := putsValue n port arg v s
    applyPort n port arg v' (safeEffects n port arg v' s)

/-- A PUT must be held: the strand is speculative and the write is outward (R81, R87). -/
def putHeld (n : Fin 320) (port : Nat) (arg : Word) (v : Nat) (s : State) : Bool :=
  let cls : PortClass := match portInfo port with | some i => i.cls | none => .inward
  speculative s n && (cls == .outward || (cls == .byRule && !putIsSafe n port arg v s))

/-! ## Faults (R56 to R61) -/

/-- Step 1 and 2 of a strand fault: FAULTED at the faulting instruction, the galley pied with no held operation run
(R57). -/
def faultStop (n : Fin 320) (code : Nat) (s : State) : State :=
  s |> discardGalley n |> keysLetGo n
    |> (fun s => s.updCap (Cap.stopIn .faulted n))
    |> modS n fun t => { t with fault := code, waitMask := none, block := none }

/-- Step 3: the FALLBACK_PUT, when FB_EN is 1 (R57, R58). -/
def fallbackPut (n : Fin 320) (s : State) : State :=
  let t := getS s n
  if t.fbEn then putNow n t.fbPort 0 (portLimit t.fbPort 0 (BitVec.ofNat 32 t.fbValue) s) s else s

/-- Step 4: ST_INFO.FAULT, CAP_FAULT and the strand-fault event (R57). -/
def faultReport (n : Fin 320) (code : Nat) (s : State) : State :=
  s |> incF Reg.CAP_FAULT_COUNT |> setF Reg.CAP_FAULT_LAST_STRAND n.val |> setF Reg.CAP_FAULT_LAST_CODE code
    |> (fun s => if code = 0xA0 then setF Reg.CAP_STATUS_HMAX_FAULT 1 s else s)
    |> raiseHw 0x2D (n.val * 256 + code) |> ringOut 7 1

/-- The forme has restarted the strand three times within the hour: it leaves it FAULTED, and OUTLET_HELD stands until the next
reset (R60; DEDUCED, assumption log 57). -/
def spendRestarts (n : Fin 320) (s : State) : State :=
  let recent := (getS s n).restarts.filter fun u => decide (s.sys.usec < u + 3600000000)
  let s := modS n (fun t => { t with restarts := recent }) s
  if 3 ≤ recent.length then s.updSys fun y => { y with strandHeld := true } else s

/-- A strand fault (R57); a DISABLED or FAULTED strand takes none (R42). -/
def capFault (n : Fin 320) (code : Nat) (s : State) : State :=
  if (getS s n).st = .disabled ∨ (getS s n).st = .faulted then s
  else s |> faultStop n code |> fallbackPut n |> faultReport n code |> spendRestarts n

/-! ## The path of an instruction (R66, R67, R89) -/

/-- An enabled breakpoint stands at the strand's program counter and RESUME has not let it pass; outside FACTORY none stops
class 0 (R65). -/
def atBreakpoint (n : Fin 320) (s : State) : Bool :=
  !(getS s n).bpPass && ((getS s n).cls != 0 || s.sys.mode == .factory) && (List.range 4).any fun k =>
    getB s (Reg.CAP_BP_CTL_EN k) && getF s (Reg.CAP_BP_CTL_STRAND k) == n.val &&
    getF s (Reg.CAP_BP_PC k) == (getS s n).pc.toNat

/-- What an instruction brings to its issue: its words and cycles, its guard, the fault that its encoding meets
(faults 2 to 5 of R89), the fault it meets when its guard is true (6 to 8), and its effect. -/
structure Issue where
  words : Nat := 1
  cycles : Nat := 1
  guard : Fin 4
  early : Option Nat := none
  late : State → Option Nat := fun _ => none
  effect : State → State

/-- Strand `n`, which has the engine, issues an instruction: the faults in the order of R89, a false guard that only takes
its cycles (R67), or the effect. DESIGN CHOICE: CAP_HMAX, to which R89 gives no place in its order, comes before the others
(assumption log 57). -/
def Issue.core (n : Fin 320) (i : Issue) (s : State) : State :=
  let t := getS s n
  if t.cls = 0 ∧ t.hmax < t.used + i.cycles then capFault n 0xA0 s
  else if s.cap.formeWords < t.pc.toNat + i.words then capFault n 0xA5 s
  else match i.early with
  | some code => capFault n code s
  | none =>
    if !getP t i.guard then modS n (Strand.advance i.words i.cycles) s
    else match i.late s with
    | some code => capFault n code s
    | none => i.effect s

/-- The engine issues an instruction from strand `n`, when the scheduler gives strand `n` the engine, no lock-up or pie
of it is pending, and no breakpoint stops it; otherwise the command has no effect (assumption log 1). -/
def Issue.run (n : Fin 320) (i : Issue) (s : State) : State :=
  match grant n s with
  | none => s
  | some s' =>
    if ((getS s' n).galley.bind (·.resolved)).isSome || atBreakpoint n s' then s
    else i.core n s'

/-- An instruction whose effect is on the strand's own registers and predicates alone. -/
def regOnly (n : Fin 320) (f : Strand → Strand) (words : Nat := 1) : State → State :=
  modS n fun t => f (t.advance words 1)

/-! ## Service calls (R84, R85, R88) -/

/-- w2 to w6. -/
def callArgs (t : Strand) : List Word := [getW t 2, getW t 3, getW t 4, getW t 5, getW t 6]

/-- A call is issued to firmware. -/
def issueCall (n : Fin 320) (num : Nat) (args : List Word) (async : Option (BitVec 8 × Nat)) (s : State) : State :=
  let call : Call := { id := s.cap.nextCall, strand := n, num := num, args := args, pres := s.rd.pres, async := async }
  s.updCap fun c => { c with calls := c.calls ++ [call], nextCall := c.nextCall + 1 }

/-- SVCA calls of strand `n` that are outstanding (R85). -/
def outstanding (n : Fin 320) (s : State) : Nat :=
  (s.cap.calls.filter fun k => k.strand == n && k.async.isSome && !k.delivered && !k.abandoned).length

/-- The oldest call of service `num` that firmware has not run yet. -/
def pendingCall (num : Nat) (s : State) : Option Call :=
  s.cap.calls.find? fun k => k.num == num && k.done.isNone

/-- The service has run for call `id`: its result word and the values it returns. An abandoned call leaves nothing
(R85). -/
def finishCall (id : Nat) (word : Word) (rets : List Word) (s : State) : State :=
  let mark : Call → Call := fun k => if k.id = id then { k with done := some (word, rets) } else k
  s.updCap fun c => { c with calls := (c.calls.filter fun k => !(k.id == id && k.abandoned)).map mark }

/-- As `finishCall`, for a service whose result word is a code in [7:0] (R116). -/
def finishCode (id : Nat) (code : Nat) (rets : List Word) (s : State) : State :=
  finishCall id (BitVec.ofNat 32 (code % 256)) rets s

/-- Returned values go to w2 and on (R84). -/
def putRets : List Word → Nat → Strand → Strand
  | [], _, t => t
  | v :: vs, i, t => putRets vs (i + 1) (setW (Fin.ofNat 16 i) v t)

/-! ## Lock-up and pie (R99 to R103) -/

/-- The commit of one held entry: unit bytes, accumulations and queue takes become architectural (R99 step 3). -/
def commitHeld (n : Fin 320) (h : Held) (s : State) : State :=
  match h.kind with
  | .unit k m =>
    let base := windowStart (getS s n) + 64 * k
    s.updCap fun c => { c with caseMem := m.foldl (fun mem e => mapSet 0 mem (base + e.1) e.2) c.caseMem }
  | .acc i v => ledgerAcc i v s
  | .take q k void => if void then s else qRemove q k s
  | _ => s

/-- A held entry that the commit cycle makes architectural; the others are held operations. -/
def Held.atCommit (h : Held) : Bool :=
  match h.kind with
  | .unit _ _ | .acc _ _ | .take _ _ _ => true
  | _ => false

/-- The commit cycle: every held byte, accumulation and take at once, their entries released (R99 step 3). -/
def commitGalley (n : Fin 320) (g : Galley) (s : State) : State :=
  let s := (g.held.filter Held.atCommit).foldl (fun s h => commitHeld n h s) s
  s |> releaseTakes n
    |> modS n fun t => { t.charge 1 with
         galley := some { g with committed := true, held := g.held.filter fun h => !h.atCommit } }

/-- What a held operation is worth at lock-up: fenced whole, or a held OUT_ON write left with no bit, it is dropped
(R95). -/
def Held.dropped (h : Held) : Bool :=
  h.fenced || (match h.kind with | .port p _ v => p == 0x403 && h.cut != 0 && (v.truncate 12 &&& ~~~h.cut) == 0
                                 | _ => false)

/-- A held operation executes as if issued now (R99 step 4, R101); none when it cannot complete yet. -/
def heldOp (n : Fin 320) (h : Held) (s : State) : Option State :=
  match h.kind with
  | .port p a v =>
    let v' := if p = 0x403 then v.toNat - (v.truncate 12 &&& h.cut).toNat else v.toNat
    some (putNow n p a v' s)
  | .enq q item => if 0 < qRoom s q then some (qAppend q item s) else none
  | .svc num args => some (s |> modS n (fun t => { t with block := some (.svc s.cap.nextCall) }) |> issueCall n num args none)
  | .svca num args ev blk _ => if outstanding n s < 4 then some (issueCall n num args (some (ev, blk)) s) else none
  | .sig ev word => some (raiseHw ev.toNat word.toNat s)
  | _ => some s

/-- Issue cycles of a held operation (R72, R99). -/
def Held.cycles (h : Held) : Nat := match h.kind with | .port _ _ _ => 2 | _ => 1

/-- Step 5: the checkpoint goes, PD = 1 and SPEC = 0, and the strand returns to the state it held at resolution, where a
WAIT on the event wakes it at once (R88, R99). -/
def lockDone (n : Fin 320) (g : Galley) (s : State) : State :=
  let s := s |> modS n (fun t => setP (Fin.ofNat 4 g.pd) true
        { t with galley := none, lastGal := BitVec.ofNat 10 (0x100 + min 255 g.fenced) })
    |> incF Reg.GAL_STATS_LOCKUPS
    |> (fun s => setF Reg.GAL_STATS_FENCED (satAdd 255 (getF s Reg.GAL_STATS_FENCED) g.fenced) s)
    |> proofLock n
  match g.back with
  | .waiting => s.updCap fun c => (c.stopIn .waiting n).tryWake (hmaxNow s) n
  | .blocked => if (getS s n).block.isSome then s.updCap (Cap.stopIn .blocked n) else s
  | _ => modS n Strand.takeWake s

/-- The held operations run in program order, until one cannot complete (the strand is BLOCKED inside the lock-up), or, but
for a `whole` lock-up, the turn is used up or class 0 cuts in; a later LOCK_UP goes on from there (R99 to R101, R104). -/
def lockOps (whole : Bool) : Nat → Fin 320 → State → State
  | 0, _, s => s
  | k + 1, n, s =>
    let t := getS s n
    match t.galley with
    | none => s
    | some g =>
      match g.held with
      | [] => lockDone n g s
      | h :: rest =>
        if !whole ∧ t.cls ≠ 0 ∧ (t.turnLeft = 0 ∨ s.cap.q0 ≠ []) then s
        else if h.dropped then
          lockOps whole k n (modS n (fun t => { t with galley := some { g with held := rest, fenced := g.fenced + 1 } }) s)
        else
          let g' := { g with held := rest, fenced := g.fenced + (if h.cut = 0 then 0 else 1) }
          match heldOp n h s with
          | none => blockOn .lockUp n s
          | some s' => lockOps whole k n (modS n (fun t => { t.charge h.cycles with galley := some g' }) s')

/-- Strand `n` performs its lock-up (R99), or with `whole` all of it as one step (R104). -/
def lockUp (whole : Bool) (n : Fin 320) (s : State) : State :=
  match (getS s n).galley with
  | none => s
  | some g =>
    let s := modS n (fun t => if t.block = some .lockUp then { t with block := none } else t) s
    lockOps whole (g.held.length + 2) n (if g.committed then s else commitGalley n g s)

/-- The pie: every held effect discarded, the checkpoint restored, PD = 0, w1 and the program counter set (R102, R103). -/
def pieNow (n : Fin 320) (w1 : Word) (timeout : Bool) (s : State) : State :=
  match (getS s n).galley with
  | none => s
  | some g =>
    s |> releaseTakes n
      |> modS n (fun t => setW 1 w1 (setP (Fin.ofNat 4 g.pd) false
           { t.charge 1 with w := g.ckW, p := g.ckP, pc := g.alt, galley := none, waitMask := none, block := none,
                             lastGal := if timeout then 0x200 else 0 }))
      |> incF (if timeout then Reg.GAL_STATS_TIMEOUTS else Reg.GAL_STATS_PIES)
      |> proofPie n

/-- Strand `n` performs the lock-up or the pie that is pending. -/
def performResolution (whole : Bool) (n : Fin 320) (s : State) : State :=
  match (getS s n).galley.bind (·.resolved) with
  | some .lockUp => lockUp whole n s
  | some (.pie word) => pieNow n word false s
  | some .timeout => pieNow n 0xFFFFFFFF true s
  | none => s

end Sys2Proof.Machine
end

