-- ==== Sys2Proof/Machine/CapstanAlu.lean ====
section
/-! DEFINITION. Register and predicate instructions, 64-bit arithmetic, ledger accumulation and branches
(04 R74, R75, R77, R78). -/
namespace Sys2Proof.Machine

/-- A format A instruction on three registers: wd = f wa wb (R74). -/
def alu3 (n : Fin 320) (b : BitVec 26) (f : Word → Word → Word) : Issue where
  guard := fieldG b
  early := firstFault [(illA b, 0xA2)]
  effect := regOnly n fun t => setW (fieldRD b) (f (getW t (fieldRA b)) (getW t (fieldRB b))) t

/-- A format I instruction on one register and the immediate, with the encoding fault `ill`: wd = f wa (R74). -/
def aluI (n : Fin 320) (b : BitVec 26) (ill : Bool) (f : Word → Word) : Issue where
  guard := fieldG b
  early := firstFault [(ill, 0xA2)]
  effect := regOnly n fun t => setW (fieldRD b) (f (getW t (fieldRA b))) t

/-- NOP (R86), opcode 0x01: [23:0] is 0. A word with a reserved opcode faults as an undefined one (R68, R72). -/
def opNop (n : Fin 320) (op : Nat) (b : BitVec 26) : Issue where
  guard := fieldG b
  early := firstFault [(op != 0x01 || bits b.toNat 0 24 != 0, 0xA2)]
  effect := regOnly n id

def opAdd (n : Fin 320) (b : BitVec 26) : Issue := alu3 n b (· + ·)
def opSub (n : Fin 320) (b : BitVec 26) : Issue := alu3 n b (· - ·)
def opAnd (n : Fin 320) (b : BitVec 26) : Issue := alu3 n b (· &&& ·)
def opOr (n : Fin 320) (b : BitVec 26) : Issue := alu3 n b (· ||| ·)
def opXor (n : Fin 320) (b : BitVec 26) : Issue := alu3 n b (· ^^^ ·)
/-- SHL, SHR, SAR shift by wb[4:0] (R74). -/
def opShl (n : Fin 320) (b : BitVec 26) : Issue := alu3 n b fun x y => x <<< (y.toNat % 32)
def opShr (n : Fin 320) (b : BitVec 26) : Issue := alu3 n b fun x y => x >>> (y.toNat % 32)
def opSar (n : Fin 320) (b : BitVec 26) : Issue := alu3 n b fun x y => x.sshiftRight (y.toNat % 32)
def opMul (n : Fin 320) (b : BitVec 26) : Issue := alu3 n b (· * ·)
def opMinu (n : Fin 320) (b : BitVec 26) : Issue := alu3 n b fun x y => if x.ult y then x else y
def opMaxu (n : Fin 320) (b : BitVec 26) : Issue := alu3 n b fun x y => if x.ult y then y else x

/-- MULU64: the unsigned 64-bit product into a pair (R74). -/
def opMulu64 (n : Fin 320) (b : BitVec 26) : Issue where
  guard := fieldG b
  early := firstFault [(illA b, 0xA2), (oddPair (fieldRD b), 0xA6)]
  effect := regOnly n fun t =>
    setX (fieldRD b) ((getW t (fieldRA b)).setWidth 64 * (getW t (fieldRB b)).setWidth 64) t

/-- CMP: PD in [21:20], [23:22] is 0, the condition in F (R69, R75). -/
def opCmp (n : Fin 320) (b : BitVec 26) : Issue where
  guard := fieldG b
  early := firstFault [(fieldLow8 b != 0 || bits b.toNat 22 2 != 0 || illCond (fieldF b), 0xA2)]
  effect := regOnly n fun t => setP (fieldPDa b) (condHolds (fieldF b) (getW t (fieldRA b)) (getW t (fieldRB b))) t

/-- PLOG: a truth table over two predicates (R69, R75). -/
def opPlog (n : Fin 320) (b : BitVec 26) : Issue where
  guard := fieldG b
  early := firstFault [(fieldLow8 b != 0 || bits b.toNat 22 2 != 0 || bits b.toNat 18 2 != 0 ||
    bits b.toNat 14 2 != 0, 0xA2)]
  effect := regOnly n fun t => setP (fieldPDa b) (plogBit (fieldF b) (getP t (fieldPA b)) (getP t (fieldPB b))) t

def opAddi (n : Fin 320) (b : BitVec 26) : Issue := aluI n b (illI b) fun x => x + fieldSimm b
def opAndi (n : Fin 320) (b : BitVec 26) : Issue := aluI n b (illI b) fun x => x &&& BitVec.ofNat 32 (fieldImm b)
def opOri (n : Fin 320) (b : BitVec 26) : Issue := aluI n b (illI b) fun x => x ||| BitVec.ofNat 32 (fieldImm b)
def opXori (n : Fin 320) (b : BitVec 26) : Issue := aluI n b (illI b) fun x => x ^^^ BitVec.ofNat 32 (fieldImm b)
def opShli (n : Fin 320) (b : BitVec 26) : Issue := aluI n b (illShift b) fun x => x <<< (fieldImm b % 32)
def opShri (n : Fin 320) (b : BitVec 26) : Issue := aluI n b (illShift b) fun x => x >>> (fieldImm b % 32)
def opSari (n : Fin 320) (b : BitVec 26) : Issue := aluI n b (illShift b) fun x => x.sshiftRight (fieldImm b % 32)

/-- CMPI: the condition in the RD position, PD in M, against sext(imm) (R69, R75). -/
def opCmpi (n : Fin 320) (b : BitVec 26) : Issue where
  guard := fieldG b
  early := firstFault [(illCond (fieldRD b).val, 0xA2)]
  effect := regOnly n fun t =>
    setP (Fin.ofNat 4 (fieldM b)) (condHolds (fieldRD b).val (getW t (fieldRA b)) (fieldSimm b)) t

/-- pos and len of EXT and INS (R74). -/
def fieldPos (b : BitVec 26) : Nat := bits b.toNat 5 5
def fieldLen (b : BitVec 26) : Nat := bits b.toNat 0 5 + 1

/-- The bit field of `len` bits of `x` from `pos`; bits above bit 31 read as 0 (R74). -/
def extractU (x : Word) (pos len : Nat) : Word := BitVec.ofNat 32 ((x.toNat / 2 ^ pos) % 2 ^ len)

/-- The same field, sign-extended from its bit len − 1. -/
def extractS (x : Word) (pos len : Nat) : Word :=
  (extractU x pos len <<< (32 - len)).sshiftRight (32 - len)

/-- EXT: M = 0 extu, M = 1 exts (R74). -/
def opExt (n : Fin 320) (b : BitVec 26) : Issue :=
  aluI n b (decide (1 < fieldM b) || bits b.toNat 10 4 != 0) fun x =>
    if fieldM b = 0 then extractU x (fieldPos b) (fieldLen b) else extractS x (fieldPos b) (fieldLen b)

/-- The low `len` bits of `x` put into `d` at `pos`; bits that would land above bit 31 are dropped (R74). -/
def insertField (d x : Word) (pos len : Nat) : Word :=
  let mask : Word := BitVec.ofNat 32 ((2 ^ len - 1) * 2 ^ pos)
  (d &&& ~~~mask) ||| ((x <<< pos) &&& mask)

/-- INS (R74). -/
def opIns (n : Fin 320) (b : BitVec 26) : Issue where
  guard := fieldG b
  early := firstFault [(illI b || bits b.toNat 10 4 != 0, 0xA2)]
  effect := regOnly n fun t =>
    setW (fieldRD b) (insertField (getW t (fieldRD b)) (getW t (fieldRA b)) (fieldPos b) (fieldLen b)) t

/-- LDI: wd = the second word; RA, M and IMM of word 0 are 0 (R74). -/
def opLdi (n : Fin 320) (b : BitVec 26) (w1 : Word) : Issue where
  words := 2
  guard := fieldG b
  early := firstFault [(bits b.toNat 0 20 != 0, 0xA2)]
  effect := regOnly n (setW (fieldRD b) w1) 2

/-- ADD64 and SUB64: RD, RA and RB are all pairs (R77). -/
def pair3 (n : Fin 320) (b : BitVec 26) (f : BitVec 64 → BitVec 64 → BitVec 64) : Issue where
  guard := fieldG b
  early := firstFault [(illA b, 0xA2), (oddPair (fieldRD b) || oddPair (fieldRA b) || oddPair (fieldRB b), 0xA6)]
  effect := regOnly n fun t => setX (fieldRD b) (f (getX t (fieldRA b)) (getX t (fieldRB b))) t

def opAdd64 (n : Fin 320) (b : BitVec 26) : Issue := pair3 n b (· + ·)
def opSub64 (n : Fin 320) (b : BitVec 26) : Issue := pair3 n b (· - ·)

/-- CMP64 (R75). -/
def opCmp64 (n : Fin 320) (b : BitVec 26) : Issue where
  guard := fieldG b
  early := firstFault [(fieldLow8 b != 0 || bits b.toNat 22 2 != 0 || illCond (fieldF b), 0xA2),
    (oddPair (fieldRA b) || oddPair (fieldRB b), 0xA6)]
  effect := regOnly n fun t => setP (fieldPDa b) (condHolds (fieldF b) (getX t (fieldRA b)) (getX t (fieldRB b))) t

/-- SHR64I: IMM[13:6] is 0 (R77). -/
def opShr64i (n : Fin 320) (b : BitVec 26) : Issue where
  guard := fieldG b
  early := firstFault [(illI b || decide (64 ≤ fieldImm b), 0xA2), (oddPair (fieldRD b) || oddPair (fieldRA b), 0xA6)]
  effect := regOnly n fun t => setX (fieldRD b) (getX t (fieldRA b) >>> (fieldImm b)) t

/-- The held sum of accumulator `i` grows (R87). -/
def addHeldAcc (i : Nat) (v : BitVec 64) : List Held → List Held
  | [] => []
  | h :: hs => match h.kind with
    | .acc j w => if j = i then { h with kind := .acc i (w + v) } :: hs else h :: addHeldAcc i v hs
    | _ => h :: addHeldAcc i v hs

/-- An accumulator already has its entry in a galley. -/
def hasAcc (i : Nat) (hs : List Held) : Bool :=
  hs.any fun h => match h.kind with | .acc j _ => j == i | _ => false

/-- What the galley of strand `n` holds. -/
def heldOf (s : State) (n : Fin 320) : List Held := ((getS s n).galley.map (·.held)).getD []

/-- ACC: adds xa to accumulator idx, or to the galley's held sum (R77, R87); an idx above 2 is not defined (R220). -/
def opAcc (n : Fin 320) (b : BitVec 26) : Issue where
  guard := fieldG b
  early := firstFault [(illI b || fieldRD b != 0 || decide (2 < fieldImm b), 0xA2), (oddPair (fieldRA b), 0xA6)]
  effect := fun s =>
    let v := getX (getS s n) (fieldRA b)
    let i := fieldImm b
    if !speculative s n then s |> modS n (Strand.advance 1 1) |> ledgerAcc i v
    else if hasAcc i (heldOf s n) then s |> modS n (Strand.advance 1 1) |> modHeld n (addHeldAcc i v)
    else if entryFree n s then s |> modS n (Strand.advance 1 1) |> addHeld n (.acc i v)
    else stall n s

/-- A branch target outside the loaded forme faults at the branch (R78). -/
def badTarget (target : BitVec 17) (s : State) : Option Nat :=
  if s.cap.formeWords ≤ target.toNat then some 0xA5 else none

/-- The link goes to wl and the program counter to the target (R78). -/
def branchTo (n : Fin 320) (rl : Fin 16) (target : BitVec 17) : State → State :=
  modS n fun t =>
    { (setW rl (BitVec.ofNat 32 (t.pc + 1).toNat) (t.charge 1)) with pc := target, bpPass := false }

/-- BR (R78): [19:17] is 0. -/
def opBr (n : Fin 320) (b : BitVec 26) : Issue where
  guard := fieldG b
  early := firstFault [(bits b.toNat 17 3 != 0, 0xA2)]
  late := fun s => badTarget ((getS s n).pc + fieldDisp b) s
  effect := fun s => branchTo n (fieldRD b) ((getS s n).pc + fieldDisp b) s

/-- JR: t = wa[16:0] before the link is written; RB and F are 0; the link register is RD (R78). -/
def opJr (n : Fin 320) (b : BitVec 26) : Issue where
  guard := fieldG b
  early := firstFault [(bits b.toNat 0 16 != 0, 0xA2)]
  late := fun s => badTarget ((getW (getS s n) (fieldRA b)).truncate 17) s
  effect := fun s => branchTo n (fieldRD b) ((getW (getS s n) (fieldRA b)).truncate 17) s

/-! ## The commands -/

/-- NOP: No effect (R86). -/
def execNop (n : Fin 320) (word : BitVec 32) (s : State) : Out :=
  .next ((opNop n (opcodeOf word) (word.truncate 26)).run n s)
/-- ADD: as the table of R74 gives. -/
def execAdd (n : Fin 320) (body : BitVec 26) (s : State) : Out := .next ((opAdd n body).run n s)
/-- SUB: as the table of R74 gives. -/
def execSub (n : Fin 320) (body : BitVec 26) (s : State) : Out := .next ((opSub n body).run n s)
/-- AND: as the table of R74 gives. -/
def execAnd (n : Fin 320) (body : BitVec 26) (s : State) : Out := .next ((opAnd n body).run n s)
/-- OR: as the table of R74 gives. -/
def execOr (n : Fin 320) (body : BitVec 26) (s : State) : Out := .next ((opOr n body).run n s)
/-- XOR: as the table of R74 gives. -/
def execXor (n : Fin 320) (body : BitVec 26) (s : State) : Out := .next ((opXor n body).run n s)
/-- SHL: as the table of R74 gives. -/
def execShl (n : Fin 320) (body : BitVec 26) (s : State) : Out := .next ((opShl n body).run n s)
/-- SHR: as the table of R74 gives. -/
def execShr (n : Fin 320) (body : BitVec 26) (s : State) : Out := .next ((opShr n body).run n s)
/-- SAR: as the table of R74 gives. -/
def execSar (n : Fin 320) (body : BitVec 26) (s : State) : Out := .next ((opSar n body).run n s)
/-- MUL: as the table of R74 gives. -/
def execMul (n : Fin 320) (body : BitVec 26) (s : State) : Out := .next ((opMul n body).run n s)
/-- MULU64: The unsigned 64-bit product into a pair (R74). -/
def execMulu64 (n : Fin 320) (body : BitVec 26) (s : State) : Out := .next ((opMulu64 n body).run n s)
/-- MINU: as the table of R74 gives. -/
def execMinu (n : Fin 320) (body : BitVec 26) (s : State) : Out := .next ((opMinu n body).run n s)
/-- MAXU: as the table of R74 gives. -/
def execMaxu (n : Fin 320) (body : BitVec 26) (s : State) : Out := .next ((opMaxu n body).run n s)
/-- CMP: A predicate from a condition on two registers (R75). -/
def execCmp (n : Fin 320) (body : BitVec 26) (s : State) : Out := .next ((opCmp n body).run n s)
/-- PLOG: A predicate from a truth table over two (R75). -/
def execPlog (n : Fin 320) (body : BitVec 26) (s : State) : Out := .next ((opPlog n body).run n s)
/-- ADDI: as the table of R74 gives. -/
def execAddi (n : Fin 320) (body : BitVec 26) (s : State) : Out := .next ((opAddi n body).run n s)
/-- ANDI: as the table of R74 gives. -/
def execAndi (n : Fin 320) (body : BitVec 26) (s : State) : Out := .next ((opAndi n body).run n s)
/-- ORI: as the table of R74 gives. -/
def execOri (n : Fin 320) (body : BitVec 26) (s : State) : Out := .next ((opOri n body).run n s)
/-- XORI: as the table of R74 gives. -/
def execXori (n : Fin 320) (body : BitVec 26) (s : State) : Out := .next ((opXori n body).run n s)
/-- SHLI: as the table of R74 gives. -/
def execShli (n : Fin 320) (body : BitVec 26) (s : State) : Out := .next ((opShli n body).run n s)
/-- SHRI: as the table of R74 gives. -/
def execShri (n : Fin 320) (body : BitVec 26) (s : State) : Out := .next ((opShri n body).run n s)
/-- SARI: as the table of R74 gives. -/
def execSari (n : Fin 320) (body : BitVec 26) (s : State) : Out := .next ((opSari n body).run n s)
/-- CMPI: A predicate from a condition against an immediate (R75). -/
def execCmpi (n : Fin 320) (body : BitVec 26) (s : State) : Out := .next ((opCmpi n body).run n s)
/-- EXT: A bit field, zero- or sign-extended (R74). -/
def execExt (n : Fin 320) (body : BitVec 26) (s : State) : Out := .next ((opExt n body).run n s)
/-- INS: A bit field inserted (R74). -/
def execIns (n : Fin 320) (body : BitVec 26) (s : State) : Out := .next ((opIns n body).run n s)
/-- ADD64: 64-bit addition (R77). -/
def execAdd64 (n : Fin 320) (body : BitVec 26) (s : State) : Out := .next ((opAdd64 n body).run n s)
/-- SUB64: 64-bit subtraction (R77). -/
def execSub64 (n : Fin 320) (body : BitVec 26) (s : State) : Out := .next ((opSub64 n body).run n s)
/-- CMP64: A 64-bit compare (R75). -/
def execCmp64 (n : Fin 320) (body : BitVec 26) (s : State) : Out := .next ((opCmp64 n body).run n s)
/-- SHR64I: 64-bit logical shift right (R77). -/
def execShr64i (n : Fin 320) (body : BitVec 26) (s : State) : Out := .next ((opShr64i n body).run n s)
/-- ACC: Adds a pair to a ledger accumulator (R77). -/
def execAcc (n : Fin 320) (body : BitVec 26) (s : State) : Out := .next ((opAcc n body).run n s)
/-- BR: A relative branch with an optional link (R78). -/
def execBr (n : Fin 320) (body : BitVec 26) (s : State) : Out := .next ((opBr n body).run n s)
/-- JR: A jump to a register address with a link (R78). -/
def execJr (n : Fin 320) (body : BitVec 26) (s : State) : Out := .next ((opJr n body).run n s)
/-- LDI: the 32-bit value of the second word (R74). -/
def execLdi (n : Fin 320) (body : BitVec 26) (w1 : BitVec 32) (s : State) : Out :=
  .next ((opLdi n body w1).run n s)

end Sys2Proof.Machine
end

