-- ==== Sys2Proof/Machine/CapstanMem.lean ====
section
/-! DEFINITION. Loads and stores of the case-memory window, architectural or into the galley (04 R71, R76, R87,
05 R93). -/
namespace Sys2Proof.Machine

/-- The offset a load or store addresses (R71). -/
def memOffset (s : State) (n : Fin 320) (b : BitVec 26) (size : Nat) : Nat :=
  accessOffset (getS s n) (fieldRA b) (fieldSimm b) size

/-- The access falls outside the window (R71, R89 fault 7). -/
def memFault (n : Fin 320) (b : BitVec 26) (size : Nat) (s : State) : Option Nat :=
  if outsideWindow (getS s n) (memOffset s n b size) size then some 0xA4 else none

/-- The value a load finds: the strand's own held bytes first, then case memory, zero-extended (R76, R87). -/
def memLoad (s : State) (n : Fin 320) (b : BitVec 26) (size : Nat) : Nat :=
  leNat (windowRead s (getS s n) (memOffset s n b size) size)

/-- A load of `size` bytes into a register (R76). -/
def opLoad (size : Nat) (n : Fin 320) (b : BitVec 26) : Issue where
  guard := fieldG b
  early := firstFault [(illI b, 0xA2)]
  late := memFault n b size
  effect := fun s =>
    modS n (fun t => setW (fieldRD b) (BitVec.ofNat 32 (memLoad s n b size)) (t.advance 1 1)) s

/-- LD64 (R76). -/
def opLd64 (n : Fin 320) (b : BitVec 26) : Issue where
  guard := fieldG b
  early := firstFault [(illI b, 0xA2), (oddPair (fieldRD b), 0xA6)]
  late := memFault n b 8
  effect := fun s => modS n (fun t => setX (fieldRD b) (BitVec.ofNat 64 (memLoad s n b 8)) (t.advance 1 1)) s

/-- The case address of the byte at window offset `o` of strand `n`. -/
def caseAddr (s : State) (n : Fin 320) (o : Nat) : Nat := windowStart (getS s n) + o

/-- Bytes go to the window at offset `o`: into case memory, or while speculative into the entry of their 64-byte unit; an
entry that is needed and not free stalls the strand (R87, R93, R96). -/
def storeBytes (n : Fin 320) (o : Nat) (bs : List Byte) (s : State) : State :=
  if !speculative s n then
    let a := caseAddr s n o
    s |> modS n (Strand.advance 1 1) |> fun s => s.updCap fun c => { c with caseMem := putBytes 0 c.caseMem a bs }
  else if (heldUnit (o / 64) (heldOf s n)).isSome then
    s |> modS n (Strand.advance 1 1) |> modHeld n (updateUnit (o / 64) (o % 64) bs)
  else if entryFree n s then
    s |> modS n (Strand.advance 1 1) |> addHeld n (.unit (o / 64) (putUnit [] (o % 64) bs))
  else stall n s

/-- A store of the low `size` bytes of a register (R76). -/
def opStore (size : Nat) (n : Fin 320) (b : BitVec 26) : Issue where
  guard := fieldG b
  early := firstFault [(illI b, 0xA2)]
  late := memFault n b size
  effect := fun s => storeBytes n (memOffset s n b size) (leBytes (getW (getS s n) (fieldRD b)).toNat size) s

/-- ST64 (R76). -/
def opSt64 (n : Fin 320) (b : BitVec 26) : Issue where
  guard := fieldG b
  early := firstFault [(illI b, 0xA2), (oddPair (fieldRD b), 0xA6)]
  late := memFault n b 8
  effect := fun s => storeBytes n (memOffset s n b 8) (leBytes (getX (getS s n) (fieldRD b)).toNat 8) s

/-! ## The commands -/

/-- LD: a word of the window (R76). -/
def execLd (n : Fin 320) (body : BitVec 26) (s : State) : Out := .next ((opLoad 4 n body).run n s)
/-- LDH: a halfword of the window (R76). -/
def execLdh (n : Fin 320) (body : BitVec 26) (s : State) : Out := .next ((opLoad 2 n body).run n s)
/-- LDB: a byte of the window (R76). -/
def execLdb (n : Fin 320) (body : BitVec 26) (s : State) : Out := .next ((opLoad 1 n body).run n s)
/-- ST: stores a word (R76). -/
def execSt (n : Fin 320) (body : BitVec 26) (s : State) : Out := .next ((opStore 4 n body).run n s)
/-- STH: stores a halfword (R76). -/
def execSth (n : Fin 320) (body : BitVec 26) (s : State) : Out := .next ((opStore 2 n body).run n s)
/-- STB: stores a byte (R76). -/
def execStb (n : Fin 320) (body : BitVec 26) (s : State) : Out := .next ((opStore 1 n body).run n s)
/-- LD64: 8 bytes into a pair (R76). -/
def execLd64 (n : Fin 320) (body : BitVec 26) (s : State) : Out := .next ((opLd64 n body).run n s)
/-- ST64: stores a pair (R76). -/
def execSt64 (n : Fin 320) (body : BitVec 26) (s : State) : Out := .next ((opSt64 n body).run n s)

end Sys2Proof.Machine
end

