-- ==== Sys2Proof/Machine/CapstanPorts.lean ====
section
/-! DEFINITION. Ports and queues as instructions reach them: GET, PUT, PUTS, ENQ, ENQW, DEQ and DEQW
(04 R80 to R83, R87, 05 R94). -/
namespace Sys2Proof.Machine

/-- GET: the port's current value; a GET of STORE_READ leaves the strand BLOCKED (R80, R110). -/
def opGet (n : Fin 320) (b : BitVec 26) : Issue where
  guard := fieldG b
  early := firstFault [(fieldMp b != 0 || fieldPDp b != 0, 0xA2), (getFaults (fieldPort b), 0xA3)]
  effect := fun s =>
    let arg := getW (getS s n) (fieldRA b)
    if fieldPort b = 0xD00 then
      s |> modS n (Strand.advance 1 1) |> blockOn (.storeRead (fieldRD b).val arg) n
    else
      let r : Nat × State := match portGet n (fieldPort b) arg s with
        | some v => (v, s)
        | none => freeBelow (2 ^ ((portInfo (fieldPort b)).map (·.width)).getD 32) s
      modS n (fun t => setW (fieldRD b) (BitVec.ofNat 32 r.1) (t.advance 1 1)) r.2

/-- The value and the argument of PUT and PUTS: ws and wx, or the 8-bit value and 0 (R80). -/
def putOperands (t : Strand) (b : BitVec 26) : Word × Word :=
  if fieldMp b = 1 then (BitVec.ofNat 32 (fieldImm8 b), 0) else (getW t (fieldRD b), getW t (fieldRA b))

/-- The encoding faults of PUT and PUTS (R80). -/
def putEarly (b : BitVec 26) : Option Nat :=
  firstFault [(decide (1 < fieldMp b) || fieldPDp b != 0, 0xA2), (putFaults (fieldPort b), 0xA3)]

/-- PUT: at once, or held in the galley when it is outward and the strand is speculative (R80, R81, R87). -/
def opPut (n : Fin 320) (b : BitVec 26) : Issue where
  cycles := 2
  guard := fieldG b
  early := putEarly b
  effect := fun s =>
    let p := fieldPort b
    let (v, arg) := putOperands (getS s n) b
    let v := portLimit p arg v s
    if putHeld n p arg v s then
      if entryFree n s then s |> modS n (Strand.advance 1 2) |> addHeld n (.port p arg (BitVec.ofNat 32 v))
      else stall n s
    else s |> modS n (Strand.advance 1 2) |> putNow n p arg v

/-- PUTS: the value the port's rule gives, at once (R80, R81). -/
def opPuts (n : Fin 320) (b : BitVec 26) : Issue where
  cycles := 2
  guard := fieldG b
  early := putEarly b
  effect := fun s =>
    let p := fieldPort b
    let (v, arg) := putOperands (getS s n) b
    s |> modS n (Strand.advance 1 2) |> putsNow n p arg (portLimit p arg v s)

/-- The encoding faults of the queue instructions: RX and M are 0, and PORT names a queue (R83). -/
def queueEarly (b : BitVec 26) : Option Nat :=
  firstFault [(fieldMp b != 0 || fieldRA b != 0, 0xA2), ((queuePort (fieldPort b)).isNone, 0xA3)]

/-- The queue that the instruction names; its fault check has passed. -/
def fieldQueue (b : BitVec 26) : Fin 64 := (queuePort (fieldPort b)).getD 0

/-- An instruction of one cycle that writes predicate `pd`, and a register. -/
def finishQueue (n : Fin 320) (pd : Fin 4) (ok : Bool) (w : Option (Fin 16 × Word)) : State → State :=
  modS n fun t =>
    let t := setP pd ok (t.advance 1 1)
    match w with
    | some (r, v) => setW r v t
    | none => t

/-- ENQ and ENQW while speculative: held, pd = 1; an item of type 0xF takes no entry (R87). -/
def enqHeld (n : Fin 320) (b : BitVec 26) (s : State) : State :=
  let item := getW (getS s n) (fieldRD b)
  if itemType item = 0xF then finishQueue n (fieldPDp b) true none s
  else if entryFree n s then s |> finishQueue n (fieldPDp b) true none |> addHeld n (.enq (fieldQueue b) item)
  else stall n s

/-- ENQ (R83). -/
def opEnq (n : Fin 320) (b : BitVec 26) : Issue where
  guard := fieldG b
  early := queueEarly b
  effect := fun s =>
    if speculative s n then enqHeld n b s
    else
      let (ok, s) := qEnqueue (fieldQueue b) (getW (getS s n) (fieldRD b)) s
      finishQueue n (fieldPDp b) ok none s

/-- ENQW: BLOCKED until the queue has room (R83). -/
def opEnqw (n : Fin 320) (b : BitVec 26) : Issue where
  guard := fieldG b
  early := queueEarly b
  effect := fun s =>
    let item := getW (getS s n) (fieldRD b)
    if speculative s n then enqHeld n b s
    else if itemType item = 0xF then finishQueue n (fieldPDp b) true none s
    else if 0 < qRoom s (fieldQueue b) then s |> qAppend (fieldQueue b) item |> finishQueue n (fieldPDp b) true none
    else s |> modS n (Strand.advance 1 1) |> blockOn (.enqw (fieldQueue b) item (fieldPDp b).val) n

/-- The galley of a strand has an entry for takes from queue `q`. -/
def hasTake (q : Fin 64) (hs : List Held) : Bool :=
  hs.any fun h => match h.kind with | .take q' _ _ => q' == q | _ => false

/-- One more item under the entry of queue `q`; after a flush the count starts again (R94). -/
def countTake (q : Fin 64) : List Held → List Held
  | [] => []
  | h :: hs => match h.kind with
    | .take q' k void =>
      if q' = q then { h with kind := .take q (if void then 1 else k + 1) false } :: hs else h :: countTake q hs
    | _ => h :: countTake q hs

/-- Strand `n` takes the head item it finds in queue `q`; while speculative the item stays at the head under its take
entry (R87, R94). -/
def takeItem (n : Fin 320) (q : Fin 64) (s : State) : State :=
  if speculative s n then
    let s := if hasTake q (heldOf s n) then modHeld n (countTake q) s else addHeld n (.take q 1 false) s
    modQ q (fun x => { x with taker := some n, taken := x.taken + 1 }) s
  else qRemove q 1 s

/-- A take needs a galley entry and none is free (R87, R96). -/
def takeStalls (n : Fin 320) (q : Fin 64) (s : State) : Bool :=
  speculative s n && !hasTake q (heldOf s n) && !entryFree n s

/-- DEQ (R83). -/
def opDeq (n : Fin 320) (b : BitVec 26) : Issue where
  guard := fieldG b
  early := queueEarly b
  effect := fun s =>
    let q := fieldQueue b
    match qVisible s q n with
    | [] => finishQueue n (fieldPDp b) false (some (fieldRD b, idleItem)) s
    | item :: _ =>
      if takeStalls n q s then stall n s
      else s |> takeItem n q |> finishQueue n (fieldPDp b) true (some (fieldRD b, item))

/-- DEQW: BLOCKED until an item arrives (R83). DESIGN CHOICE: the item is looked for before the galley entry, so that an empty
queue blocks the strand and never stalls it; BLOCKED, it waits until there are both an item and an entry (assumption log
57). -/
def opDeqw (n : Fin 320) (b : BitVec 26) : Issue where
  guard := fieldG b
  early := queueEarly b
  effect := fun s =>
    let q := fieldQueue b
    match qVisible s q n with
    | [] => s |> modS n (Strand.advance 1 1) |> blockOn (.deqw q (fieldRD b).val (fieldPDp b).val) n
    | item :: _ =>
      if takeStalls n q s then stall n s
      else s |> takeItem n q |> finishQueue n (fieldPDp b) true (some (fieldRD b, item))

/-! ## The commands -/

/-- GET (R80). -/
def execGet (n : Fin 320) (body : BitVec 26) (s : State) : Out := .next ((opGet n body).run n s)
/-- PUT (R80, R81, R87). -/
def execPut (n : Fin 320) (body : BitVec 26) (s : State) : Out := .next ((opPut n body).run n s)
/-- PUTS (R80, R81, R82). -/
def execPuts (n : Fin 320) (body : BitVec 26) (s : State) : Out := .next ((opPuts n body).run n s)
/-- ENQ (R83). -/
def execEnq (n : Fin 320) (body : BitVec 26) (s : State) : Out := .next ((opEnq n body).run n s)
/-- ENQW (R83). -/
def execEnqw (n : Fin 320) (body : BitVec 26) (s : State) : Out := .next ((opEnqw n body).run n s)
/-- DEQ (R83). -/
def execDeq (n : Fin 320) (body : BitVec 26) (s : State) : Out := .next ((opDeq n body).run n s)
/-- DEQW (R83). -/
def execDeqw (n : Fin 320) (body : BitVec 26) (s : State) : Out := .next ((opDeqw n body).run n s)

/-- QUEUE_WAIT_COMPLETE: a strand blocked in ENQW gets room, or in DEQW an item, and becomes READY; a lock-up blocked at
a held enqueue goes on (R42, R83, R101). A resolution that is pending abandons the DEQW (R103). -/
def queueWaitComplete (n : Fin 320) (s : State) : State :=
  match (getS s n).block with
  | some (.enqw q item pd) =>
    if 0 < qRoom s q then s |> qAppend q item |> modS n (setP (Fin.ofNat 4 pd) true) |> unblock n else s
  | some (.deqw q rd pd) =>
    match qVisible s q n with
    | [] => s
    | item :: _ =>
      if takeStalls n q s || ((getS s n).galley.bind (·.resolved)).isSome then s
      else s |> takeItem n q |> modS n (fun t => setW (Fin.ofNat 16 rd) item (setP (Fin.ofNat 4 pd) true t))
        |> unblock n
  | some .lockUp =>
    match heldOf s n with
    | h :: _ => match h.kind with
      | .enq q _ => if 0 < qRoom s q then unblock n s else s
      | _ => s
    | [] => s
  | _ => s

def execQueueWaitComplete (n : Fin 320) (s : State) : Out := .next (queueWaitComplete n s)

/-- STORE_READ_COMPLETE: the value goes to its register and the strand becomes READY (R80, R110). -/
def storeReadComplete (n : Fin 320) (s : State) : State :=
  match (getS s n).block with
  | some (.storeRead rd addr) => s |> modS n (setW (Fin.ofNat 16 rd) (storeReadWord addr s)) |> unblock n
  | _ => s

def execStoreReadComplete (n : Fin 320) (s : State) : Out := .next (storeReadComplete n s)

end Sys2Proof.Machine
end

