-- ==== Sys2Proof/Machine/CapstanCtl.lean ====
section
/-! DEFINITION. Services, waiting, signalling, GSET and the resolution of a galley; strand faults, commands and debug
(03 R42 to R65, 04 R84 to R88, 05 R96 to R104). -/
namespace Sys2Proof.Machine

/-! ## Service instructions (R84, R85, R87) -/

/-- The service number that the instruction names is undefined (R84, R114). -/
def badService (b : BitVec 26) : Bool := (serviceClass (fieldImm b)).isNone

/-- The service is outward and the strand speculative: the call is held (R87). -/
def callHeld (n : Fin 320) (b : BitVec 26) (s : State) : Bool :=
  speculative s n && serviceClass (fieldImm b) == some .outward

/-- SVC (R84). -/
def opSvc (n : Fin 320) (b : BitVec 26) : Issue where
  guard := fieldG b
  early := firstFault [(bits b.toNat 14 10 != 0, 0xA2), (badService b, 0xA7)]
  effect := fun s =>
    let args := callArgs (getS s n)
    if callHeld n b s then
      if entryFree n s then
        s |> modS n (Strand.advance 1 1) |> addHeld n (.svc (fieldImm b) args) |> blockOn .svcHeld n
      else stall n s
    else
      let id := s.cap.nextCall
      s |> modS n (Strand.advance 1 1) |> issueCall n (fieldImm b) args none |> blockOn (.svc id) n

/-- The window offset of the result block: w7, its low four bits ignored (R84). -/
def resultOffset (t : Strand) : Nat := (getW t 7).toNat - (getW t 7).toNat % 16

/-- SVCA (R84, R85). -/
def opSvca (n : Fin 320) (b : BitVec 26) : Issue where
  guard := fieldG b
  early := firstFault [(illI b || decide (fieldEvSvca b < 0x80) || decide (0xBF < fieldEvSvca b), 0xA2),
    (badService b, 0xA7)]
  late := fun s => if outsideWindow (getS s n) (resultOffset (getS s n)) 16 then some 0xA4 else none
  effect := fun s =>
    let t := getS s n
    let args := callArgs t
    let blk := caseAddr s n (resultOffset t)
    if callHeld n b s then
      if entryFree n s then
        s |> modS n (Strand.advance 1 1)
          |> addHeld n (.svca (fieldImm b) args (fieldEvSvca b) blk (resultOffset t))
      else stall n s
    else if outstanding n s < 4 then
      s |> modS n (Strand.advance 1 1) |> issueCall n (fieldImm b) args (some (fieldEvSvca b, blk))
    else blockOn .svca n s

/-- SVC_COMPLETE: a blocking service completes; w1 holds the result word, w2 to w5 the values returned, and the strand
becomes READY (R84). A call issued before or in a service pause completes after it (R19, R85). -/
def svcComplete (n : Fin 320) (s : State) : State :=
  if s.sys.pause then s
  else match (getS s n).block with
  | some (.svc id) =>
    match s.cap.calls.find? (·.id == id) with
    | some call => match call.done with
      | some (word, rets) =>
        s |> modS n (fun t => putRets rets 2 (setW 1 word t)) |> unblock n
          |> fun s => s.updCap fun c => { c with calls := c.calls.filter (·.id != id) }
      | none => s
    | none => s
  | _ => s

def execSvcComplete (n : Fin 320) (s : State) : Out := .next (svcComplete n s)

/-- The words of a result block: the result word, then up to three returned values (R84). -/
def resultBlock (word : Word) (rets : List Word) : List Word := word :: rets.take 3

/-- Words written to case memory from address `a` up, as an architectural write. -/
def putCaseWords (a : Nat) : List Word → State → State
  | [], s => s
  | w :: ws, s => putCaseWords (a + 4) ws (s.updCap fun c => { c with caseMem := putWord 0 c.caseMem a w })

/-- An SVCA's completion is kept for a later GSET when none has used it; completions of calls on the same event that were issued
before it, which it uses up, go (R88). -/
def deliverCall (call : Call) (ev : BitVec 8) (used : Bool) (cs : List Call) : List Call :=
  let cs := cs.filter fun k =>
    !(k.strand == call.strand && k.delivered && decide (k.id < call.id) && (k.async.map (·.1)) == some ev)
  if used then cs.filter (·.id != call.id)
  else cs.map fun k => if k.id = call.id then { k with delivered := true } else k

/-- The completion of `call` on `ev` resolves the galley of its own strand, and is used with that (R88). -/
def resolvesOwn (call : Call) (ev : BitVec 8) (s : State) : Bool :=
  match (getS s call.strand).galley with
  | some g => g.resolved.isNone && g.ev == ev && (g.call.isNone || g.call == some call.id) && !call.spent
  | none => false

/-- A strand that waited for one of its SVCA calls to complete goes on (R85, R101). -/
def unblockSvca (n : Fin 320) (s : State) : State :=
  match (getS s n).block with
  | some .svca => unblock n s
  | some .lockUp => match heldOf s n with
    | h :: _ => match h.kind with
      | .svca _ _ _ _ _ => unblock n s
      | _ => s
    | [] => s
  | _ => s

/-- SVCA_COMPLETE: the oldest completed asynchronous call of strand `n` writes its result block and raises its event with
the result word as outcome (R84, R88). -/
def svcaComplete (n : Fin 320) (s : State) : State :=
  if s.sys.pause then s
  else match s.cap.calls.find? fun k => k.strand == n && k.async.isSome && k.done.isSome && !k.delivered with
  | none => s
  | some call => match call.async, call.done with
    | some (ev, blk), some (word, rets) =>
      s |> putCaseWords blk (resultBlock word rets)
        |> (fun s => s.updCap fun c => { c with calls := deliverCall call ev (call.used || resolvesOwn call ev s) c.calls })
        |> (fun s => s.updCap (Cap.raise (hmaxNow s) ev word (some call.id) call.spent))
        |> unblockSvca n
    | _, _ => s

def execSvcaComplete (n : Fin 320) (s : State) : Out := .next (svcaComplete n s)

/-! ## WAIT, YIELD, SIG (R42, R44, R86) -/

/-- ST_EVSUB and ST_EVEN apply from the strand's WAIT (03, Registers). -/
def Strand.waitBoundary (t : Strand) : Strand := { t with subOn := t.sub, enOn := t.en }

/-- WAIT: a selected slot that is pending clears and its number goes to w1; otherwise the strand stops (R42, R44). -/
def waitEffect (n : Fin 320) (mask : BitVec 9) (s : State) : State :=
  let s := modS n (fun t => (t.advance 1 1).waitBoundary) s
  let t := getS s n
  match lowestSelected mask t.pending t.timerFired with
  | some _ =>
    let s := modS n (fun t => { t with waitMask := some mask }.takeWake) s
    if t.cls = 0 then s.updCap (Cap.makeReady (hmaxNow s) true n) else s
  | none => s.updCap fun c => (c.stopIn .waiting n).modStrand n fun t => { t with waitMask := some mask }

/-- WAIT (R86): [23:9] is 0 and MASK is not. -/
def opWait (n : Fin 320) (b : BitVec 26) : Issue where
  guard := fieldG b
  early := firstFault [(bits b.toNat 9 15 != 0 || fieldMask b == 0, 0xA2)]
  effect := waitEffect n (fieldMask b)

/-- YIELD: ends the turn in classes 1 to 3, nothing in class 0 (R86). -/
def opYield (n : Fin 320) (b : BitVec 26) : Issue where
  guard := fieldG b
  early := firstFault [(bits b.toNat 0 24 != 0, 0xA2)]
  effect := fun s =>
    let s := modS n (Strand.advance 1 1) s
    if (getS s n).cls = 0 then s else s.updCap (Cap.endTurn n)

/-- SIG: ev in IMM[7:0] from 0xC0, the outcome word in ws (R86); held while speculative (R87). -/
def opSig (n : Fin 320) (b : BitVec 26) : Issue where
  guard := fieldG b
  early := firstFault [(illI b || fieldRA b != 0 || bits b.toNat 8 6 != 0 || decide (bits b.toNat 0 8 < 0xC0), 0xA2)]
  effect := fun s =>
    let ev := bits b.toNat 0 8
    let word := getW (getS s n) (fieldRD b)
    if speculative s n then
      if entryFree n s then s |> modS n (Strand.advance 1 1) |> addHeld n (.sig (BitVec.ofNat 8 ev) word)
      else stall n s
    else s |> modS n (Strand.advance 1 1) |> raiseHw ev word.toNat

/-! ## GSET (R87, R88, R97) -/

/-- The SVCA calls of strand `n` naming `ev`, outstanding or completed, that no GSET has used (R88). -/
def unusedCalls (n : Fin 320) (ev : BitVec 8) (s : State) : List Call :=
  s.cap.calls.filter fun k => k.strand == n && (k.async.map (·.1)) == some ev && !k.used && !k.abandoned

/-- The latest of those calls resolves the galley; the earlier ones are used up with it (R88). -/
def useCalls (n : Fin 320) (ev : BitVec 8) (latest : Nat) (s : State) : State :=
  let ids := (unusedCalls n ev s).map (·.id)
  let mark : Call → Call := fun k =>
    if ids.contains k.id then { k with used := true, spent := k.id != latest } else k
  s.updCap fun c => { c with calls := (c.calls.map mark).filter fun k => !(k.delivered && k.used) }

/-- The most entries a galley may hold (R97). -/
def galleyLimit (t : Strand) : Nat := if t.cls = 0 then min 16 ((t.hmax - 1) / 2) else 16

/-- GSET opens a galley: the checkpoint, the timeout, SPEC = 1; a call already completed resolves it at once
(R87, R88). -/
def gsetEffect (n : Fin 320) (b : BitVec 26) (w1 : Word) (s : State) : State :=
  let s := modS n (Strand.advance 2 1) s
  let t := getS s n
  let ev := fieldEvGset b
  let calls := if 0x80 ≤ ev.toNat ∧ ev.toNat ≤ 0xBF then unusedCalls n ev s else []
  let g : Galley := { ev := ev, exp := fieldExp b, pd := (fieldPDg b).val, alt := fieldAlt w1,
                      tmoEnd := s.sys.usec + 1000 * fieldTmo w1, ckW := t.w, ckP := t.p, limit := galleyLimit t,
                      call := (calls.getLast?).map (·.id) }
  let s := modS n (fun t => { t with galley := some g }) s
  match calls.getLast? with
  | none => s
  | some call =>
    let s := useCalls n ev call.id s
    match call.delivered, call.done with
    | true, some (word, _) => s.updCap (Cap.resolve (hmaxNow s) (outcomeOf g.exp word) n)
    | _, _ => s

/-- GSET (R87): a TMO of 0 is undefined; CAP_NEST while speculative. -/
def opGset (n : Fin 320) (b : BitVec 26) (w1 : Word) : Issue where
  words := 2
  guard := fieldG b
  early := firstFault [(fieldTmo w1 == 0, 0xA2)]
  late := fun s => if (getS s n).galley.isSome then some 0xA1 else none
  effect := gsetEffect n b w1

/-! ## The commands -/

/-- SVC (R84). -/
def execSvc (n : Fin 320) (body : BitVec 26) (s : State) : Out := .next ((opSvc n body).run n s)
/-- SVCA (R84, R85). -/
def execSvca (n : Fin 320) (body : BitVec 26) (s : State) : Out := .next ((opSvca n body).run n s)
/-- WAIT (R42, R44, R86). -/
def execWait (n : Fin 320) (body : BitVec 26) (s : State) : Out := .next ((opWait n body).run n s)
/-- YIELD (R86). -/
def execYield (n : Fin 320) (body : BitVec 26) (s : State) : Out := .next ((opYield n body).run n s)
/-- SIG (R86). -/
def execSig (n : Fin 320) (body : BitVec 26) (s : State) : Out := .next ((opSig n body).run n s)
/-- GSET (R87). -/
def execGset (n : Fin 320) (body : BitVec 26) (w1 : BitVec 32) (s : State) : Out :=
  .next ((opGset n body w1).run n s)

/-- The word of the program store at the program counter of strand `n`, and the word after it. -/
def fetchWord (n : Fin 320) (s : State) : Word × Word :=
  let pc := (getS s n).pc.toNat
  (mapGet 0 s.cap.prog pc, mapGet 0 s.cap.prog (pc + 1))

/-- CAP_HMAX_EXCEEDED: the strand that has the engine is of class 0 and its next instruction would pass CAP_HMAX0: it
faults with CAP_HMAX, and that instruction takes no effect (R50, R57, R89). -/
def capHmaxExceeded (n : Fin 320) (s : State) : State :=
  match grant n s with
  | none => s
  | some s' =>
    let t := getS s' n
    if t.cls = 0 ∧ t.hmax < t.used + cyclesOf (opcodeOf (fetchWord n s').1) then capFault n 0xA0 s' else s

/-- A strand, in whatever state, meets an uncorrectable error of its own register or predicate storage, and faults with CAP_CTX
(R56, assumption log 57). -/
def contextFault (n : Fin 320) (s : State) : State := if domainOn 7 s then capFault n 0xA8 s else s

def execCapHmaxExceeded (e : StrandError) (s : State) : Out :=
  .next (match e with
    | .hmax n => capHmaxExceeded n s
    | .context n => contextFault n s)

/-- TURN_END: the running strand of classes 1 to 3 has issued its turn and rejoins the tail of its queue (R42, R46). -/
def turnEnd (n : Fin 320) (s : State) : State :=
  if s.cap.running = some n then s.updCap Cap.dueTurnEnd else s

def execTurnEnd (n : Fin 320) (s : State) : Out := .next (turnEnd n s)

/-- STRAND_TIMER_EXPIRY: a running timer reaches 0, fires and stops; a strand whose WAIT selects it wakes (R44). -/
def strandTimerExpiry (n : Fin 320) (s : State) : State :=
  if (getS s n).timerEnd.isSome then
    s |> modS n (fun t => { t with timerEnd := none, timerFired := true })
      |> fun s => s.updCap (Cap.tryWake (hmaxNow s) n)
  else s

def execStrandTimerExpiry (n : Fin 320) (s : State) : Out := .next (strandTimerExpiry n s)

/-- Strand `n` has an entry kept for it and no longer waits for one; a HALTED strand goes on from READY at its RESUME. -/
def Cap.giveEntry (n : Fin 320) (c : Cap) : Cap :=
  let c := { c with stalled := c.stalled.filter (· ≠ n) }.modStrand n fun t => { t with reserved := true }
  let t := c.strand n
  if t.st = .halted then c.modStrand n fun t => { t with prev := .ready } else c.makeReady t.hmax false n

/-- GALLEY_ENTRY_FREED: the entry goes to the strand that stalled first among those that can now have one, which resumes with
the instruction that needed it (R42, R96). -/
def galleyEntryFreed (s : State) : State :=
  match s.cap.stalled.find? fun n => entryFree n s with
  | some n => s.updCap (Cap.giveEntry n)
  | none => s

def execGalleyEntryFreed (s : State) : Out := .next (galleyEntryFreed s)

/-- The events that firmware raises (R112). -/
def firmwareEvent (ev : Nat) : Bool :=
  [0x1C, 0x1D, 0x24, 0x25, 0x26, 0x27, 0x2C].contains ev || (decide (0x30 ≤ ev) && decide (ev ≤ 0x37))

/-- The events that R112 lists for the blocks and the queues; those from 0x80 up come from SVCA completions and SIG alone. -/
def listedEvent (ev : Nat) : Bool :=
  [0x00, 0x01, 0x02, 0x03, 0x04, 0x08, 0x09, 0x0A, 0x0B, 0x0C, 0x10, 0x11, 0x12, 0x13, 0x14, 0x18, 0x19, 0x1A, 0x1E,
   0x20, 0x21, 0x22, 0x28, 0x29, 0x2D, 0x2E, 0x2F].contains ev ||
  firmwareEvent ev || (decide (0x40 ≤ ev) && decide (ev < 0x80))

/-- GALLEY_RESOLVE: the event arrives; every galley it resolves compares the outcome word with EXP (R88, R98). A number that
R112 does not list is never raised, and one that firmware raises waits for the end of a service pause. -/
def galleyResolve (ev word : Nat) (s : State) : State :=
  if !listedEvent ev then s else if firmwareEvent ev then raiseFw ev word s else raiseHw ev word s

def execGalleyResolve (ev : BitVec 8) (word : BitVec 32) (s : State) : Out := .next (galleyResolve ev.toNat word.toNat s)

/-- GALLEY_TIMEOUT: the timeout of an unresolved galley expires and a pie with w1 = 0xFFFF_FFFF is pending; a HALTED strand is
pied at its RESUME, and goes on at the alternative address (R65, R88, R98, R104). -/
def galleyTimeout (n : Fin 320) (s : State) : State :=
  if speculative s n then s.updCap (Cap.resolve (hmaxNow s) .timeout n) else s

def execGalleyTimeout (n : Fin 320) (s : State) : Out := .next (galleyTimeout n s)

/-- What is pending for strand `n` is performed when the strand gets the engine. -/
def performWhen (p : Resolution → Bool) (n : Fin 320) (s : State) : State :=
  match grant n s with
  | none => s
  | some s' => match (getS s' n).galley.bind (·.resolved) with
    | some r => if p r then performResolution false n s' else s
    | none => s

/-- LOCK_UP: the commit cycle, then the held operations in program order (R99 to R101). -/
def execLockUp (n : Fin 320) (s : State) : Out := .next (performWhen (· == .lockUp) n s)

/-- PIE: held effects discarded, checkpoint restored, PC at ALT (R102, R103). -/
def execPie (n : Fin 320) (s : State) : Out := .next (performWhen (· != .lockUp) n s)

/-! ## Strand commands of the host (R63) -/

/-- A host write to CAP_STRAND_CMD: in HEAD and REPEATER the strands are the hub's, but for FACTORY and COMMISSION
(R62). -/
def hostStrand (cmd n : Nat) (s : State) : Nat × State :=
  if (s.sys.role = .head ∨ s.sys.role = .repeater) ∧ s.sys.mode ≠ .factory ∧ s.sys.mode ≠ .commission then (errMode, s)
  else strandCommand cmd n s

/-- ENABLE (R42). -/
def execEnable (n : BitVec 9) (s : State) : Out := .next (hostTo Reg.CAP_STRAND_CMD_CMD.addr (hostStrand 1 n.toNat) s)
/-- DISABLE (R42). -/
def execDisable (n : BitVec 9) (s : State) : Out := .next (hostTo Reg.CAP_STRAND_CMD_CMD.addr (hostStrand 2 n.toNat) s)
/-- RESTART (R42). -/
def execRestart (n : BitVec 9) (s : State) : Out := .next (hostTo Reg.CAP_STRAND_CMD_CMD.addr (hostStrand 3 n.toNat) s)

/-! ## Debug (R65) -/

/-- A debug command is refused: no installer presence, a strand above 319, or for HALT and STEP a class-0 strand outside
FACTORY (R63, R65). -/
def debugRefused (cls0 : Bool) (n : Nat) (s : State) : Option Nat :=
  if !installer s then some errPresence
  else if h : n < 320 then
    if cls0 && (getS s ⟨n, h⟩).cls == 0 && s.sys.mode != .factory then some errLocked else none
  else some errAddr

/-- HALT (R42): the previous state is kept for RESUME. -/
def haltStrand (n : Fin 320) (s : State) : State :=
  let t := getS s n
  match t.st with
  | .disabled | .faulted | .halted => s
  | st => s.updCap fun c => (c.stopKeeping .halted n).modStrand n fun t => { t with prev := st }

/-- A strand that was RUNNING has the engine again, with what is left of its turn: at once where the engine is free or class 0
may cut in, else as the strand that class 0 interrupted; where neither can be, it is READY (R42, R47). -/
def Cap.reenter (n : Fin 320) (c : Cap) : Cap :=
  let t := c.strand n
  let back := (c.leave n).modStrand n fun t => { t with st := .running }
  match c.running, c.interrupted with
  | none, _ => { back with running := some n }
  | some r, none =>
    if t.cls ≠ 0 then { back with interrupted := some n }
    else if (c.strand r).cls ≠ 0 then { back with running := some n, interrupted := some r }
    else c.makeReady t.hmax false n
  | some _, some _ => c.makeReady t.hmax false n

/-- The state that a resolution finds is the one kept for RESUME, where the galley resolved while the strand was HALTED. -/
def Strand.backFrom (t : Strand) : Strand :=
  { t with galley := t.galley.map fun g => if g.back = .halted then { g with back := t.prev } else g }

/-- A resolution that came while the strand was HALTED starts the activation that `Cap.resolve` would have started. -/
def Strand.freshAtResume (t : Strand) : Bool :=
  match t.galley with
  | some g => g.back == .halted && (g.resolved == some .lockUp || t.prev == .waiting)
  | none => false

/-- RESUME (R42): the previous state, or READY if a selected event arrived; one with a resolution pending performs it next
(R104), but for a lock-up that is blocked at one of its operations. -/
def resumeStrand (n : Fin 320) (s : State) : State :=
  let t := getS s n
  if t.st ≠ .halted then s
  else
    let s := modS n (fun t => { t.backFrom with bpPass := true }) s
    if (t.galley.bind (·.resolved)).isSome && !(t.prev == .blocked && t.block == some .lockUp) then
      s.updCap (Cap.makeReady (if t.freshAtResume then hmaxNow s else t.hmax) t.freshAtResume n)
    else match t.prev with
    | .waiting => s.updCap fun c => (c.stopIn .waiting n).tryWake (hmaxNow s) n
    | .blocked => s.updCap (Cap.stopIn .blocked n)
    | .stalled => s.updCap (Cap.stopKeeping .stalled n)
    | .running => s.updCap (Cap.reenter n)
    | _ => s.updCap (Cap.makeReady t.hmax false n)

/-- The instruction that a word of the program store spells; none for a reserved opcode (R72). -/
def issueOf (n : Fin 320) (w w1 : Word) : Option Issue :=
  let b := bodyOf w
  match opcodeOf w with
  | 0x01 => some (opNop n 1 b) | 0x02 => some (opAdd n b) | 0x03 => some (opSub n b) | 0x04 => some (opAnd n b)
  | 0x05 => some (opOr n b) | 0x06 => some (opXor n b) | 0x07 => some (opShl n b) | 0x08 => some (opShr n b)
  | 0x09 => some (opSar n b) | 0x0A => some (opMul n b) | 0x0B => some (opMulu64 n b) | 0x0C => some (opMinu n b)
  | 0x0D => some (opMaxu n b) | 0x0E => some (opCmp n b) | 0x0F => some (opPlog n b) | 0x10 => some (opAddi n b)
  | 0x11 => some (opAndi n b) | 0x12 => some (opOri n b) | 0x13 => some (opXori n b) | 0x14 => some (opShli n b)
  | 0x15 => some (opShri n b) | 0x16 => some (opSari n b) | 0x17 => some (opCmpi n b) | 0x18 => some (opExt n b)
  | 0x19 => some (opIns n b) | 0x1A => some (opLdi n b w1) | 0x1B => some (opLoad 4 n b) | 0x1C => some (opLoad 2 n b)
  | 0x1D => some (opLoad 1 n b) | 0x1E => some (opStore 4 n b) | 0x1F => some (opStore 2 n b)
  | 0x20 => some (opStore 1 n b) | 0x21 => some (opLd64 n b) | 0x22 => some (opSt64 n b) | 0x23 => some (opAdd64 n b)
  | 0x24 => some (opSub64 n b) | 0x25 => some (opCmp64 n b) | 0x26 => some (opShr64i n b) | 0x27 => some (opAcc n b)
  | 0x28 => some (opBr n b) | 0x29 => some (opJr n b) | 0x2A => some (opGet n b) | 0x2B => some (opPut n b)
  | 0x2C => some (opPuts n b) | 0x2D => some (opEnq n b) | 0x2E => some (opEnqw n b) | 0x2F => some (opDeq n b)
  | 0x30 => some (opDeqw n b) | 0x31 => some (opSvc n b) | 0x32 => some (opSvca n b) | 0x33 => some (opWait n b)
  | 0x34 => some (opYield n b) | 0x35 => some (opSig n b) | 0x36 => some (opGset n b w1)
  | _ => none

/-- The instruction at the program counter of strand `n` issues; a word with a reserved opcode is illegal (R68). -/
def issueFetched (n : Fin 320) (s : State) : State :=
  let (w, w1) := fetchWord n s
  let reserved : Issue := { guard := 0, early := some 0xA2, effect := id }
  ((issueOf n w w1).getD reserved).core n s

/-- The strand goes back to HALTED after a STEP, keeping the state the step left it in; one that was RUNNING still has its turn. -/
def backToHalted (n : Fin 320) (was : StrandState) (s : State) : State :=
  match (getS s n).st with
  | .faulted | .disabled => s
  | st =>
    let keep : StrandState := if st = .running then (if was = .running then .running else .ready) else st
    s.updCap fun c =>
      (if st = .stalled then c.stopKeeping .halted n else c.stopIn .halted n).modStrand n fun t => { t with prev := keep }

/-- The strand issues past what it is stopped at: it finds its slot in w1 where a WAIT selects one that is pending, and leaves
the WAIT where none is; what it was BLOCKED for is abandoned, as at a pie (assumption log 57). -/
def Strand.stepOut (t : Strand) : Strand := { t.takeWake with waitMask := none, block := none }

/-- STEP (R42, R104): one instruction of a halted strand, or the whole lock-up or pie that is pending. -/
def stepStrand (n : Fin 320) (s : State) : State :=
  let t := getS s n
  if t.st ≠ .halted then s
  else if (t.galley.bind (·.resolved)).isSome then
    s |> modS n (fun t => { t.backFrom.activation (hmaxNow s) t.freshAtResume with st := .running })
      |> performResolution true n |> backToHalted n t.prev
  else s |> modS n (fun t => { t.stepOut with st := .running }) |> issueFetched n |> backToHalted n t.prev

/-- CAP_DBG_CMD takes an accepted word, and reads as it was written (00 R6). -/
def keepDebug (cmd n : Nat) (s : State) : State := s |> setF Reg.CAP_DBG_CMD_STRAND n |> setF Reg.CAP_DBG_CMD_CMD cmd

/-- The debug command `cmd` on strand `n`, refused as `debugRefused` gives. -/
def debugCommand (cmd : Nat) (cls0 : Bool) (n : Nat) (f : Fin 320 → State → State) (s : State) : Nat × State :=
  match debugRefused cls0 n s with
  | some code => (code, s)
  | none => if h : n < 320 then (statusOk, f ⟨n, h⟩ (keepDebug cmd n s)) else (errAddr, s)

/-- HALT (R65). -/
def execHalt (n : BitVec 9) (s : State) : Out := .next (hostTo Reg.CAP_DBG_CMD_CMD.addr (debugCommand 1 true n.toNat haltStrand) s)
/-- STEP (R65). -/
def execStep (n : BitVec 9) (s : State) : Out := .next (hostTo Reg.CAP_DBG_CMD_CMD.addr (debugCommand 2 true n.toNat stepStrand) s)
/-- RESUME (R65). -/
def execResume (n : BitVec 9) (s : State) : Out := .next (hostTo Reg.CAP_DBG_CMD_CMD.addr (debugCommand 3 false n.toNat resumeStrand) s)

/-- BREAKPOINT_HIT: the strand that has the engine stands at an enabled breakpoint and stops HALTED before it issues; a
class-0 strand stops in FACTORY alone (R65). -/
def breakpointHit (n : Fin 320) (s : State) : State :=
  match grant n s with
  | none => s
  | some s' =>
    if atBreakpoint n s' then haltStrand n s' else s

def execBreakpointHit (n : Fin 320) (s : State) : Out := .next (breakpointHit n s)

end Sys2Proof.Machine
end

