-- ==== Sys2Proof/Machine/Hlc.lean ====
section
/-! DEFINITION. The pilot-line modem's SLAC and the ISO 15118 sessions that firmware carries, and their services
(07 R136 to R145, R444, 06 R114). -/
namespace Sys2Proof.Machine

/-! ## Services (R84, R114) -/

/-- Firmware performs the oldest call of service `num` that it has not run; during a service pause, and while no core is
active, none runs (R19, R34). -/
def serve (num : Nat) (f : Call → State → State) (s : State) : State :=
  if s.sys.pause || s.sys.takeover then s
  else match pendingCall num s with
  | some c => f c s
  | none => s

/-- Argument w2 + `i` of a call. -/
def Call.arg (c : Call) (i : Nat) : Nat := (c.args.getD i 0).toNat

/-! ## Records (R139) -/

/-- Case-memory address of a record offset (R139). -/
def recordAddr (s : State) (offset : Nat) : Nat := getF s Reg.VI_REC_BASE * 64 + offset

/-- Word `i` of the record at `offset`. -/
def recordWord (s : State) (offset i : Nat) : Nat := (wordAt 0 s.cap.caseMem (recordAddr s offset + 4 * i)).toNat

/-- The message IDs of R138. -/
def msgAuth : Nat := 0x7
def msgCpd : Nat := 0x8
def msgLoop : Nat := 0xB
def msgReceipt : Nat := 0xC
def msgStop : Nat := 0xD
def msgCert : Nat := 0xE

/-- Records in the ring, 2 to 16 (VI_REC.NUM). -/
def ringSize (s : State) : Nat := clamp 2 16 (getF s Reg.VI_REC_NUM)

/-- Writes the record of a request into the ring and enqueues its SINGLE item on Q_HLC_IN (R139). `timeout` is the vehicle's
timeout in µs from now; DEADLINE lies 250 ms before it (R141). Answers the record's offset. -/
def writeRecord (msg : Nat) (body : List Byte) (answered : Bool) (timeout : Nat) (s : State) : Nat × State :=
  let offset := getF s Reg.VI_REC_OFF * 256 + s.hlc.ring * 256
  let seq := s.hlc.seq + 1
  let deadline := s.sys.usec + timeout - 250000
  let body := body.take 240
  let head := leBytes (msg + 0x10000 * s.hlc.proto + 0x40000 * ofBool answered) 4 ++ leBytes seq 4 ++ leBytes deadline 4 ++
    leBytes body.length 4
  let bytes := head ++ body ++ List.replicate (240 - body.length) 0
  let at_ := recordAddr s offset
  let s := s.updCap fun c => { c with caseMem := putBytes 0 c.caseMem at_ bytes }
  let ring := (s.hlc.ring + 1) % ringSize s
  let s := s.updHlc fun h => { h with seq := seq, ring := ring, late := h.late.filter (· ≠ offset) }
  (offset, (qEnqueue 0 (BitVec.ofNat 32 (0x40000000 + offset % 0x10000)) s).2)

/-! ## SLAC (R137) -/

/-- HLC_START: the offer in force, and SLAC; with SLAC, a link or a session from a match already there it has no effect
(R137). Not in REPEATER. -/
def hlcStart (c : Call) (s : State) : State :=
  if s.sys.role = .repeater then finishCode c.id 0x09 [] s
  else if 1 ≤ s.hlc.status ∧ s.hlc.status ≤ 4 then finishCode c.id 0 [] s
  else
    let mask := BitVec.ofNat 3 (c.arg 0)
    let s := boundaries [Reg.VI_GP_TXATT, Reg.VI_GP_ATTEN_OFS] s
    let s := (dropTls s).updHlc fun h => { h with
      offerInForce := if c.arg 0 = 0 then h.offer else mask, slac := false, proto := 0, atten := [] }
    s |> hlcMove 1 |> finishCode c.id 0 []

def execHlcStart (s : State) : Out := .next (serve 0x300 hlcStart s)

/-- Firmware listens for SLAC: the monitor reports B, C or D and PWM runs at 5 % (R137). -/
def slacListens (s : State) : Bool :=
  s.hlc.status == 1 && !s.hlc.matched && vehicleThere s && s.pilot.line == .pwm && getB s Reg.VI_PILOT_HLC

/-- SLAC_PARM_REQ: the exchange runs (R137). -/
def execSlacParmReq (s : State) : Out :=
  .next (if slacListens s then s.updHlc fun h => { h with slac := true } else s)

/-- The attenuations that firmware reports: ATTEN_OFS is subtracted from each one measured, down to 0 (R137). How many there are
and what is measured the manual leaves open (assumption log 26). -/
def reportedAtten (s : State) : List Nat × State :=
  let c := s.sys.freeCtr
  ((List.range (Config.freeNat c)).map fun i => Config.freeNat (c + 1 + i) - inForce s Reg.VI_GP_ATTEN_OFS,
    s.updSys fun y => { y with freeCtr := c + 1 + Config.freeNat c })

/-- SLAC_MATCH: the attenuations reported, and one match per plug-in, with a fresh network membership key (R137); HLC_STATUS goes
to 2 (R444). -/
def slacMatch (s : State) : State :=
  if slacListens s && s.hlc.slac then
    let (atten, s) := reportedAtten s
    let (key, s) := freeWide s
    (s.updHlc fun h => { h with
      matched := true, slac := false, nmk := key.truncate 128, atten := atten }) |> hlcMove 2
  else s

def execSlacMatch (s : State) : Out := .next (slacMatch s)

/-- SLAC_TIMEOUT: no CM_SLAC_PARM.REQ within 40 s, or a match sequence that broke off (R137): SLAC_FAIL and reason 1. -/
def slacTimeout (s : State) : State :=
  if s.hlc.status = 1 then
    (s.updHlc fun h => { h with slac := false }) |> violation 13 (ofBool s.hlc.slac) |> hlcEnd 1
  else s

def execSlacTimeout (s : State) : Out := .next (slacTimeout s)

/-! ## TLS and supportedAppProtocol (R138, R143, R348, R444) -/

/-- The cipher suites the module offers, in order (R348). -/
def tlsSuites (tls13 : Bool) : List Nat := if tls13 then [0x1302, 0x1301] else [0xC02B, 0xC02C]

/-- The traffic keys of a TLS session go to an AES0 slot, with the vehicle knot as their lineage (16 R347); none when no
slot is free. -/
def tlsKeys (suite : Nat) (s : State) : Option Nat × State :=
  let k := freeWide s
  let wide := suite == 0x1302 || suite == 0xC02C
  let w : WorkKey := { parent := 2, epoch := ((knotAt 2 s).map (·.epoch)).getD 0, lineage := [2, 0], label := []
                       engine := engAes0, wide := wide, key := k.1.toNat % 2 ^ keyBits engAes0 wide }
  match place w k.2 with
  | (some i, s) => (some i, modSlot i (fun x => { x with firmware := true }) s)
  | (none, s) => (none, s)

/-- TLS_HANDSHAKE: the suites the vehicle offers, and whether the rest of the handshake succeeds. HLC_STATUS reads 3 while
it runs, and until supportedAppProtocol is answered; a failure records TLS_FAIL and keeps the link (R143, R444). -/
def tlsHandshake (tls13 : Bool) (suites : List (BitVec 16)) (rest : Bool) (s : State) : State :=
  if s.hlc.status ≠ 2 then s
  else
    let s := hlcMove 3 s
    let fail (s : State) : State := s |> violation 14 suites.length |> hlcMove 2
    match (tlsSuites tls13).find? fun x => suites.any fun y => y.toNat == x, rest with
    | some x, true => match tlsKeys x s with
      | (some i, s) => s.updHlc fun h => { h with tls := true, suite := x, tls13 := tls13, tlsSlot := some i }
      | (none, s) => fail s
    | _, _ => fail s

def execTlsHandshake (tls13 : Bool) (suites : List (BitVec 16)) (rest : Bool) (s : State) : Out :=
  .next (tlsHandshake tls13 suites rest s)

/-- The last response sent to the vehicle. -/
def say (msg : Nat) (code : HlcCode) (fields : List Nat) (s : State) : State :=
  s.updHlc fun h => { h with lastReply := some ⟨msg, code, fields⟩ }

/-- Message-level misbehaviour: firmware answers it, records HLC_PROTOCOL, and the session ends (R143). -/
def misbehaved (msg : Nat) (code : HlcCode) (s : State) : State := s |> say msg code [] |> violation 15 msg |> hlcEnd 5

/-- The rows of R143 that close TLS too: no protocol of the offer, and EXI that does not decode. -/
def misbehavedTls (msg : Nat) (code : HlcCode) (s : State) : State := dropTls (misbehaved msg code s)

/-- The offer that counts on this connection: bit 2 only with BPT_EN (R145); ISO 15118-20 over TLS 1.3 and ISO 15118-2 over TLS
1.2 (R118), or with TLS_EIM = 0 without TLS (VI_CFG). -/
def offerCounts (s : State) : BitVec 3 :=
  let o := s.hlc.offerInForce
  let o := if getB s Reg.VI_CFG_BPT_EN then o else o &&& 3
  if s.hlc.tls then (if s.hlc.tls13 then o &&& 6 else o &&& 1) else if getB s Reg.VI_CFG_TLS_EIM then 0 else o &&& 1

/-- SUPPORTED_APP_PROTOCOL: the protocols the vehicle names, coded as HLC_OFFER, and whether it ranks ISO 15118-20 first;
HLC_STATUS goes to 4, or the session ends with Failed_NoNegotiation (R138, R143, R444). Within a session the request is
out of sequence. -/
def supportedApp (names : BitVec 3) (first20 : Bool) (s : State) : State :=
  if s.hlc.status = 4 then misbehaved 0 .sequenceError s
  else if s.hlc.status ≠ 2 ∧ s.hlc.status ≠ 3 then s
  else
    let both := names &&& offerCounts s
    let has2 := both.getLsbD 0
    let has20 := both.getLsbD 1 || both.getLsbD 2
    if !has2 && !has20 then misbehavedTls 0 .noNegotiation s
    else
      let proto := if has20 && (first20 || !has2) then 2 else 1
      let (id, s) := freeBelow (2 ^ 64) s
      (s.updHlc fun h => { h with proto := proto, seq := 0, late := [], pend := none, session := id }) |> say 0 .ok [] |> hlcMove 4

def execSupportedAppProtocol (names : BitVec 3) (first20 : Bool) (s : State) : Out := .next (supportedApp names first20 s)

/-- The slot of the TLS session was scrubbed: firmware ends the session, resets the connection and records TLS_FAIL (16
R350). -/
def tlsScrubbed (s : State) : State :=
  match s.hlc.tlsSlot with
  | some i => if (slotAt s i).work.isSome then s
    else s |> (fun s => s.updHlc fun h => { h with tlsSlot := none }) |> violation 14 0 |> hlcEnd 3
  | none => s

/-- TLS_CLOSED: the vehicle closes the TLS connection, which ends the session with reason 3 (R144). -/
def execTlsClosed (s : State) : Out := .next (if s.hlc.tls then hlcEnd 3 s else s)

/-! ## Requests (R138, R139, R143) -/

/-- The requests that strands answer under a protocol (R138). -/
def strandMsg (proto msg : Nat) : Bool :=
  (1 ≤ msg && msg ≤ 4) || (msg == 5 && proto == 2) || (msg == 6 && proto == 1) || msg == 7 || msg == 8 ||
  (msg == 9 && proto == 2) || msg == 0xA || msg == 0xB || msg == 0xD

/-- ChargeParameterDiscovery asks for AC_BPT (mode 2) in a session that does not offer it (R145): with BPT_EN = 0, or outside the
offer in ISO 15118-20, FAILED_ServiceSelectionInvalid; in ISO 15118-2 an energy mode that is not supported (R143). -/
def bptRefused (msg : Nat) (body : List Byte) (s : State) : Option HlcCode :=
  if msg ≠ msgCpd ∨ leNat (body.take 4) ≠ 2 then none
  else if !getB s Reg.VI_CFG_BPT_EN then some .serviceSelectionInvalid
  else if s.hlc.proto ≠ 2 then some .wrongEnergyTransferMode
  else if !s.hlc.offerInForce.getLsbD 2 then some .serviceSelectionInvalid
  else none

/-- A request that exists only in the other protocol does not decode against the schema of the one in use (R143). -/
def onlyOther (proto msg : Nat) : Bool := if proto = 2 then msg == 6 else msg == 5 || msg == 9

/-- The answer that a misbehaviour of R143 gets. -/
def badCode : HlcBad → HlcCode
  | .sequence => .sequenceError
  | .session => .unknownSession
  | .energyMode => .wrongEnergyTransferMode
  | .service => .serviceSelectionInvalid
  | .undecodable | .unlisted => .failed

/-- A decoded request (R139): with no session it is answered FAILED_SequenceError and recorded (R444); misbehaviour is
answered by firmware (R143); otherwise its record is written and it waits for a strand. The vehicle sends none while one is
unanswered. -/
def hlcRequest (msg : Nat) (body : List Byte) (bad : Option HlcBad) (processing : Bool) (timeout : Nat) (s : State) : State :=
  if s.hlc.status < 2 then s
  else if s.hlc.status ≠ 4 then misbehaved msg .sequenceError s
  else if s.hlc.pend.isSome || s.hlc.certPend then s
  else match bad with
  | some .undecodable => misbehavedTls msg .failed s
  | some b => misbehaved msg (badCode b) s
  | none =>
    if onlyOther s.hlc.proto msg then misbehavedTls msg .failed s
    else if !strandMsg s.hlc.proto msg then misbehaved msg .failed s
    else match bptRefused msg body s with
    | some code => misbehaved msg code s
    | none =>
      let (offset, s) := writeRecord msg body false timeout s
      let ev := if msg = msgCpd then leNat ((body.drop 4).take 4) else s.hlc.evMax
      let req : HlcReq := ⟨offset, msg, processing, s.sys.usec + timeout⟩
      s.updHlc fun h => { h with pend := some req, evMax := ev }

def execHlcRequest (msg : BitVec 16) (body : List (BitVec 8)) (bad : Option HlcBad) (processing : Bool) (timeout : BitVec 32)
    (s : State) : Out := .next (hlcRequest msg.toNat body bad processing timeout.toNat s)

/-- METERING_RECEIPT: firmware answers it, and its record is flagged answered (R138, R139). -/
def meteringReceipt (body : List Byte) (timeout : Nat) (s : State) : State :=
  if s.hlc.status < 2 then s
  else if s.hlc.status ≠ 4 then misbehaved msgReceipt .sequenceError s
  else if s.hlc.pend.isSome || s.hlc.certPend then s
  else (writeRecord msgReceipt body true timeout s).2 |> say msgReceipt .ok []

def execMeteringReceipt (body : List (BitVec 8)) (timeout : BitVec 32) (s : State) : Out :=
  .next (meteringReceipt body timeout.toNat s)

/-! ## Certificates (R142) -/

/-- The words of a packet: 3 bytes in each item, first byte in [7:0]; the last item is TAIL, the others BODY. -/
def packetItems : List Byte → List Word
  | [] => []
  | [a] => [BitVec.ofNat 32 (0x30000000 + leNat [a])]
  | [a, b] => [BitVec.ofNat 32 (0x30000000 + leNat [a, b])]
  | [a, b, c] => [BitVec.ofNat 32 (0x30000000 + leNat [a, b, c])]
  | a :: b :: c :: rest => BitVec.ofNat 32 (0x20000000 + leNat [a, b, c]) :: packetItems rest

/-- The bytes that the BODY and TAIL items of a packet carry. -/
def packetBytes (ws : List Word) : List Byte := ws.flatMap fun w => leBytes w.toNat 3

/-- CERTIFICATE_INSTALLATION: the record of the request and its item on Q_HLC_IN (R139), flagged answered where the module answers
at once; HUB and STANDALONE pass the request's EXI to the host on Q4; HEAD answers FAILED_NoCertificateAvailable (R142).
CertificateUpdate exists only in ISO 15118-2 (R138, R143). -/
def certRequest (update : Bool) (exi : List Byte) (timeout : Nat) (s : State) : State :=
  if s.hlc.status < 2 then s
  else if s.hlc.status ≠ 4 then misbehaved msgCert .sequenceError s
  else if s.hlc.pend.isSome || s.hlc.certPend then s
  else if update && s.hlc.proto == 2 then misbehavedTls msgCert .failed s
  else if s.sys.role = .hub ∨ s.sys.role = .standalone then
    let s := (writeRecord msgCert [] false timeout s).2
    let items := BitVec.ofNat 32 (0x10000000 + exi.length % 0x10000) :: packetItems exi
    (items.foldl (fun s w => (qEnqueue 4 w s).2) s).updHlc fun h => { h with certPend := true }
  else (writeRecord msgCert [] true timeout s).2 |> say msgCert .noCertificateAvailable []

def execCertificateInstallation (request : CertRequest) (exi : List (BitVec 8)) (s : State) : Out :=
  .next (certRequest request.update exi request.timeout.toNat s)

/-- A whole packet at the head of a queue: its items, from HEAD to TAIL. -/
def wholePacket (items : List Word) : Option (List Word) :=
  match items.findIdx? fun w => itemType w == 3 with
  | some i => some (items.take (i + 1))
  | none => none

/-- CERT_ANSWER: the host's answer packet on Q5 is sent to the vehicle (R142). -/
def certAnswer (s : State) : State :=
  if !s.hlc.certPend then s
  else match wholePacket (getQ s 5).items with
  | none => s
  | some p =>
    let len := (p.headD 0).toNat % 0x10000
    let bytes := (packetBytes (p.drop 1)).take len
    (qRemove 5 p.length s).updHlc (fun h => { h with certPend := false }) |> say msgCert .ok (bytes.map (·.toNat))

def execCertAnswer (s : State) : Out := .next (certAnswer s)

/-- CERT_ANSWER_TIMEOUT: no answer within 4 s (R142). -/
def execCertAnswerTimeout (s : State) : Out :=
  .next (if s.hlc.certPend then (s.updHlc fun h => { h with certPend := false }) |> say msgCert .noCertificateAvailable []
    else s)

/-! ## Replies (R140, R141, R145) -/

/-- The code with which a reply is turned away: no session, answered by firmware at DEADLINE, or not the oldest unanswered
request or not its service (R141). -/
def replyRefused (offset : Nat) (serves : Nat → Bool) (s : State) : Option Nat :=
  if s.hlc.status ≠ 4 then some 0x61
  else if s.hlc.late.contains offset then some 0x62
  else match s.hlc.pend with
  | some r => if r.offset = offset ∧ serves r.msg then none else some 0x63
  | none => some 0x63

/-- What firmware fills into a response (R140): the services are AC and, where the offer and BPT_EN allow it, AC_BPT (R118,
R145); the schedule limit of ChargeParameterDiscovery in ISO 15118-2 is EVSEMaxCurrent × nominal voltage × phases. -/
def hlcFill (msg : Nat) (fields : List Nat) (signature : List Byte) (s : State) : HlcFill where
  session := s.hlc.session
  evseid := ((s.sys.settings.find? fun i => i.item == 0x100).map (·.value)).getD []
  services := [1] ++ if getB s Reg.VI_CFG_BPT_EN && s.hlc.offerInForce.getLsbD 2 && s.hlc.proto == 2 then [5] else []
  limit := if msg = msgCpd ∧ s.hlc.proto = 1 then some (fields.getD 0 0 * fields.getD 1 0 * phasesInUse s) else none
  schedule := if msg = msgCpd ∧ s.hlc.proto = 1 then some 86400 else none
  meter := (led s).totals.get 0
  signature := signature
  time := s.sys.ltime

/-- The signature of the meter reading, by the ledger's signing key over the register and ledger time (R140; DEDUCED, assumption
log 26); none while the key cannot be derived. -/
def signReading (s : State) : List Byte × State :=
  match sealKey s with
  | (none, s) => ([], s)
  | (some k, s) =>
    (Config.ecdsaSign k.key (leBytes ((led s).totals.get 0) 8 ++ leBytes s.sys.ltime 4) s.sys.freeCtr,
     s.updSys fun y => { y with freeCtr := y.freeCtr + 1 })

/-- A reply goes to the vehicle; the response to SessionStop ends the session (R144). -/
def replyWith (c : Call) (code : HlcCode) (fields : List Nat) (s : State) : State :=
  let msg := (s.hlc.pend.map (·.msg)).getD 0
  let (sign, s) := signReading s
  let s := (s.updHlc fun h => { h with pend := none, lastFill := some (hlcFill msg fields sign s) }) |> say msg code fields
    |> finishCode c.id 0 []
  if msg = msgStop then hlcEnd 0 s else s

/-- A reply service: refused with its code, or sent. -/
def replyService (serves : Nat → Bool) (send : Call → State → State) (c : Call) (s : State) : State :=
  match replyRefused (c.arg 0) serves s with
  | some code => finishCode c.id code [] s
  | none => send c s

/-- HLC_REPLY_AUTH: w3 0 Ongoing, 1 Finished. -/
def execHlcReplyAuth (s : State) : Out :=
  .next (serve 0x301 (replyService (· == msgAuth) fun c s =>
    replyWith c (if c.arg 1 = 0 then .ongoing else .ok) [] s) s)

/-- HLC_REPLY_CPD: EVSEMaxCurrent and EVSEMaxDischargeCurrent are limited to ALLOC_CURRENT (R140, R145). -/
def execHlcReplyCpd (s : State) : Out :=
  .next (serve 0x302 (replyService (· == msgCpd) fun c s =>
    let w := recordWord s (c.arg 1)
    replyWith c (if w 2 = 0 then .ok else .ongoing) [min (w 0) s.pilot.alloc, w 1, w 2, min (w 3) s.pilot.alloc] s) s)

/-- HLC_REPLY, for every other message a strand answers: the response record, with the target current of ChargingStatus
and AC_ChargeLoop limited to ALLOC_CURRENT (R140). -/
def execHlcReply (s : State) : Out :=
  .next (serve 0x303 (replyService (fun m => m != msgAuth && m != msgCpd) fun c s =>
    let w := recordWord s (c.arg 1)
    let loop := (s.hlc.pend.map (·.msg)) == some msgLoop
    replyWith c (.chosen (w 0)) ([w 1, w 2] ++ if loop then [min (w 3) s.pilot.alloc] else []) s) s)

/-- HLC_FAILED: a failing ResponseCode value (R114). -/
def execHlcFailed (s : State) : Out :=
  .next (serve 0x304 (replyService (fun _ => true) fun c s => replyWith c (.chosen (c.arg 1)) [] s) s)

/-- HLC_CONTRACT_CHECK: what the check of the contract chain in the record finds (R114). -/
def execHlcContractCheck (verdict : ContractVerdict) (s : State) : Out :=
  .next (serve 0x305 (fun c s => match verdict with
    | .valid ref expiry => finishCode c.id 0 [ref, expiry] s
    | .invalid => finishCode c.id 0x64 [] s
    | .revoked => finishCode c.id 0x23 [] s) s)

/-- HLC_DEADLINE: firmware answers by itself, Ongoing where the message has that field, else FAILED (R141); after its response to
SessionStop the session has ended (R144). -/
def hlcDeadline (s : State) : State :=
  match s.hlc.pend with
  | none => s
  | some r =>
    let s := (s.updHlc fun h => { h with pend := none, late := r.offset :: h.late })
      |> say r.msg (if r.processing then .ongoing else .failed) [] |> raiseFw 0x32 r.msg |> violation 16 r.msg
    if r.msg = msgStop then hlcEnd 0 s else s

def execHlcDeadline (s : State) : Out := .next (hlcDeadline s)

/-- HLC_IDLE_TIMEOUT: 60 s after the last response without a new request (R144). -/
def execHlcIdleTimeout (s : State) : Out :=
  .next (if s.hlc.status = 4 ∧ s.hlc.pend = none then s |> raiseFw 0x32 0 |> violation 16 0 |> hlcEnd 2 else s)

end Sys2Proof.Machine
end

