-- ==== Sys2Proof/Machine/LedgerRows.lean ====
section
/-! DEFINITION. The commands of the ledger: services, host writes, seals, tamper (11 R217 to R249, 06 R114). -/
namespace Sys2Proof.Machine

def rcStoreWorn : Nat := 0x50
def rcNoSession : Nat := 0x70
def rcChannelBusy : Nat := 0x71
def rcNoEmergency : Nat := 0x72

/-! ## Boundaries and the image -/

/-- BOUNDARY_CLOSE (R227). -/
def execBoundaryClose (s : State) : Out := .next (if s.led.on then boundaryClose s else s)

/-- REGISTER_IMAGE: every 5 minutes (R233). -/
def execRegisterImage (s : State) : Out :=
  .next (if s.led.on ∧ !storeWorn s then s.updLed fun l => { l with image := some (ledgerCopy s) } else s)

/-- AO_RTC_SET: refused in HEAD and REPEATER, whose clock the hub sets; a later write replaces an earlier one (R218). -/
def rtcSet (w : Word) (s : State) : Nat × State :=
  if s.sys.role = .head ∨ s.sys.role = .repeater then (errMode, s)
  else (statusOk, (setF Reg.AO_RTC_SET_W w.toNat s).updLed fun l => { l with setPend := some w.toNat })

def execAoRtcSet (w : BitVec 32) (s : State) : Out := .next (hostTo Reg.AO_RTC_SET_W.addr (rtcSet w) s)

/-! ## Billing and calendars -/

/-- LED_BILL.CLOSE (R223). -/
def execLedBillClose (s : State) : Out :=
  .next (hostTo Reg.LED_BILL_CLOSE.addr (fun s => (statusOk, s.updLed fun l => { l with billReq := true })) s)

/-- The check and the acceptance of a calendar image (R226): a rejected one leaves both calendars and writes its event. -/
def loadCalendar (len : Nat) (image : List Byte) (s : State) : State :=
  let r := calendarResult len image
  let s := setF Reg.LED_CAL_STAT_RESULT r s
  if r = 1 then
    let c := calendarOf image
    s |> (fun s => s.updLed fun l => { l with calPas := some c }) |> writeEvent 0x0B 0 c.id c.activate 0
  else s |> writeEvent 0x0B 2 (fieldOf image 8 4) r 0 |> logViolation 6 1 r

/-- LED_CAL_CTRL.LOAD: discarded in HEAD (R226); it waits while an item is migrated (19 R419); the hub delivers an accepted
calendar to its nodes (12 R273). -/
def calLoad (s : State) : Nat × State :=
  if s.sys.role = .head then (errMode, s)
  else if migrating s then (statusOk, setF Reg.LED_CAL_STAT_BUSY 1 s)
  else
    let len := getF s Reg.LED_CAL_SRC_LEN
    let image := bytesAt 0 s.cap.shared (getF s Reg.LED_CAL_SRC_OFFSET / 4 * 4) len
    let s := loadCalendar len image s
    (statusOk, if s.sys.role = .hub ∧ getF s Reg.LED_CAL_STAT_RESULT = 1 then publish 3 image (registered s) false s else s)

def execLedCalLoad (s : State) : Out := .next (hostTo Reg.LED_CAL_CTRL_LOAD.addr calLoad s)

/-- LED_CAL_CTRL.DROP_PASSIVE (R226). -/
def execLedCalDropPassive (s : State) : Out :=
  .next (hostTo Reg.LED_CAL_CTRL_DROP_PASSIVE.addr (fun s => (statusOk, s.updLed fun l => { l with calPas := none })) s)

/-! ## Prepayment (R236) -/

/-- LED_TOPUP_CMD.GO: STANDALONE and HUB only (R236, R249). -/
def topup (s : State) : Nat × State :=
  if s.sys.role = .head ∨ s.sys.role = .repeater then (errMode, s)
  else
    let amt := getF s Reg.LED_TOPUP_AMT_VALUE
    if inForce s Reg.LED_CFG_PREPAY_EN = 0 then (statusOk, s |> setF Reg.LED_TOPUP_CMD_RESULT 4 |> logViolation 6 2 amt)
    else if amt = 0 ∨ 10000000 < amt then (statusOk, s |> setF Reg.LED_TOPUP_CMD_RESULT 3 |> logViolation 6 2 amt)
    else
      let k := getF s Reg.LED_TOPUP_ACCT_ACCOUNT
      let a := accountAt k s
      let b := a.b + amt
      let a' : Account := { b := b, e := if 0 ≤ b then 0 else a.e }
      let draft : RecDraft := { type := 0x06, channel := k, flags := 0
                                body := topupBody amt (getF s Reg.LED_TOPUP_REF_VALUE) a' s }
      (statusOk, s |> modAccount k (fun _ => a') |> writeDraft draft |> setF Reg.LED_TOPUP_CMD_RESULT 1)

def execLedTopup (s : State) : Out := .next (hostTo Reg.LED_TOPUP_CMD_GO.addr topup s)

/-- The conditions of an emergency grant (R235). -/
def emergencyOk (k : Nat) (s : State) : Bool :=
  getF s Reg.LED_EMERG_AMT_VALUE ≠ 0 && (accountAt k s).e == 0 &&
  decide ((accountAt k s).credit < signedOf 32 (getF s Reg.LED_EMERG_LEVEL_VALUE))

/-- Grants emergency credit to account `k` (R235): the code, and the amount. -/
def grantEmergency (k : Nat) (s : State) : Nat × Nat × State :=
  if emergencyOk k s then
    let amt := getF s Reg.LED_EMERG_AMT_VALUE
    (rcOk, amt, s |> modAccount k (fun a => { a with e := amt }) |> writeEvent 0x0C k amt 0 0)
  else (rcNoEmergency, 0, s)

/-! ## Sessions (R238) -/

/-- The directory entry that w3 of LEDGER_OPEN names: slot plus one, or 0 for none. -/
def entryNamed (w3 : Nat) (s : State) : Option DirEntry :=
  if w3 = 0 then none else (dirAt (w3 - 1) s).filter (·.valid)

/-- The account that a session debits: the entry's, and at a head its own channel's working copy (R234, R237). -/
def payingAccount (e : Option DirEntry) (s : State) : Nat :=
  if s.sys.role = .head then ownChannel s else (e.map (·.account)).getD (ownChannel s)

/-- A new session may start: in the role mode, with no cause of R26 holding the outlet (02 R26, R29). -/
def maySession (s : State) : Bool := s.sys.mode == roleMode s.sys.role && !outletHeld s

/-- LEDGER_OPEN (R238); a session that may not start finds its channel busy (DEDUCED, assumption log 56). -/
def ledgerOpen (c : Call) (s : State) : State :=
  if s.led.opened.isSome ∨ c.arg 0 ≠ ownChannel s ∨ !maySession s then finishCode c.id rcChannelBusy [] s
  else if storeWorn s then finishCode c.id rcStoreWorn [] s
  else
    let e := entryNamed (c.arg 1) s
    let x : Session := {
      number := s.led.nextSess, start := s.sys.ltime, entry := c.arg 1, contract := c.arg 2
      impOpen := (led s).totals.get 0, prepay := (e.map (·.prepay)).getD false, account := payingAccount e s }
    let flags := ofBool x.prepay + 2 * ofBool (c.arg 2 != 0) + 4 * ofBool (c.arg 1 != 0)
    let s := (s.updLed fun l => { l with opened := some x, nextSess := l.nextSess + 1 })
      |> updCur (fun r => { r with sess := some x }) |> setF Reg.LED_SESSION_NUMBER x.number
      |> (fun s => s.updMet fun m => { m with overLogged := false })
    s |> writeRec 0x01 flags (sessionOpenBody x) |> writeSeal |> finishCode c.id rcOk [BitVec.ofNat 32 x.number]

def execLedgerOpen (s : State) : Out := .next (serve 0x600 ledgerOpen s)

/-- LEDGER_CLOSE: any other reason is recorded as 6 (R238). -/
def ledgerClose (c : Call) (s : State) : State :=
  match (led s).sess with
  | none => finishCode c.id rcNoSession [] s
  | some x =>
    if x.number ≠ c.arg 0 then finishCode c.id rcNoSession [] s
    else if storeWorn s then finishCode c.id rcStoreWorn [] s
    else
      let r := endSession (min 6 (c.arg 1)) 0 s
      finishCode c.id rcOk [BitVec.ofNat 32 r.1] r.2

def execLedgerClose (s : State) : Out := .next (serve 0x601 ledgerClose s)

/-- The two words of a 64-bit register. -/
def words64 (v : Nat) : List Word := [BitVec.ofNat 32 v, BitVec.ofNat 32 (v / 2 ^ 32)]

/-- A ledger register by its index (R221). -/
def ledgerRegister (i : Nat) (s : State) : Option (List Word) :=
  let r := led s
  if i ≤ 2 then some (words64 (r.totals.toList.getD i 0))
  else if 4 ≤ i ∧ i ≤ 11 then some (words64 (r.imp.toList.getD (i - 4) 0))
  else if 12 ≤ i ∧ i ≤ 19 then some (words64 (r.exp.toList.getD (i - 12) 0))
  else if 20 ≤ i ∧ i ≤ 27 then
    let m := r.maxDem.toList.getD (i - 20) (0, 0)
    some [BitVec.ofNat 32 m.1, BitVec.ofNat 32 m.2]
  else if i = 28 then some [BitVec.ofNat 32 (openIntv s).imp, BitVec.ofNat 32 (openIntv s).start]
  else if i = 29 then some [BitVec.ofNat 32 r.period, BitVec.ofNat 32 r.lastClose]
  else if i = 30 then
    let a := accountAt (ownChannel s) s
    some [BitVec.ofNat 32 (signed32 a.credit), BitVec.ofNat 32 a.e]
  else none

/-- LEDGER_READ (R221). -/
def ledgerRead (c : Call) (s : State) : State :=
  match ledgerRegister (c.arg 0) s with
  | some ws => finishCode c.id rcOk ws s
  | none => finishCode c.id rcArg [] s

def execLedgerRead (s : State) : Out := .next (serve 0x603 ledgerRead s)

/-- SVC_TIME (06 R114): ledger time, the wall clock, STR_USEC. -/
def execSvcTime (s : State) : Out :=
  .next (serve 0x001 (fun c s =>
    finishCode c.id rcOk [BitVec.ofNat 32 s.sys.ltime, BitVec.ofNat 32 (wallClock s), BitVec.ofNat 32 s.sys.usec] s) s)

/-- LOG_EVENT (06 R114): an entry of the event log. -/
def execLogEvent (s : State) : Out :=
  .next (serve 0x002 (fun c s =>
    if storeWorn s then finishCode c.id rcStoreWorn [] s
    else s |> logEvent 0 (c.arg 0 % 256) (c.arg 1) |> finishCode c.id rcOk []) s)

/-! ## Export and clearing (R244, R246) -/

/-- LED_EXP_ACK: a value outside the span from tail to head is ignored (R244, R249). -/
def expAck (offset : Nat) (s : State) : Nat × State :=
  let n := ringBlocks * 0x10000
  let back := (ringOffset s.led.head + n - offset) % n
  let pos := s.led.head - back
  if ringBase ≤ offset ∧ offset < ringBase + n ∧ back ≤ s.led.head ∧ s.led.tail ≤ pos then
    (statusOk, s.updLed fun l => { l with ack := pos })
  else (statusOk, logViolation 6 5 offset s)

def execLedExpAck (offset : BitVec 32) (s : State) : Out :=
  .next (hostTo Reg.LED_EXP_ACK_OFFSET.addr (expAck offset.toNat) s)

/-- LED_CLEAR (R246). -/
def ledClear (key : Nat) (s : State) : Nat × State :=
  if !metrologist s then (errPresence, s)
  else if key ≠ 0xC1EA then (statusOk, s)
  else if sessionActive s then (errLocked, s)
  else
    let s := updCur (fun r => { r with
      totals := #v[0, 0, 0], imp := Vector.replicate 8 0, exp := Vector.replicate 8 0
      maxDem := Vector.replicate 8 (0, 0), period := 0 }) s
    let s := s.updLed fun l => { l with clears := l.clears + 1 }
    (statusOk, writeEvent 0x0A 0 s.led.clears 0 0 s)

def execLedClear (key : BitVec 16) (s : State) : Out := .next (hostTo Reg.LED_CLEAR_CLEAR.addr (ledClear key.toNat) s)

/-! ## Seals (R242) -/

/-- SEAL_TIMER: 24 h after the last seal, if a record has been chained since. -/
def execSealTimer (s : State) : Out := .next (if s.led.on ∧ 0 < s.led.unsealed then writeSeal s else s)

/-- SEAL_RETRY: a seal that waits for its key is tried again. -/
def execSealRetry (s : State) : Out := .next (if s.led.on ∧ getB s Reg.LED_STATUS_SEAL_PENDING then writeSeal s else s)

/-! ## Tamper (R247, R248) -/

/-- TAMPER_CHANGE: an accepted change writes an entry of the AO log; with 63 waiting it is counted as dropped (R247). -/
def tamperChange (terminal opened : Bool) (s : State) : State :=
  let f := if terminal then Reg.AO_TMP_STATE_TERM_OPEN else Reg.AO_TMP_STATE_COVER_OPEN
  if !domainOn 0 s || getB s f == opened then s
  else
    let e : TamperEntry := { time := wallClock s, input := ofBool terminal, opened := opened
                             flags := ofBool s.sys.mainGood + 2 * ofBool (!s.led.rtcValid) }
    let s := setB f opened s
    let s := if s.led.tmpLog.length < 63 then s.updLed fun l => { l with tmpLog := l.tmpLog ++ [e] }
      else incF Reg.AO_TMP_LOG_STAT_DROPPED s
    let s := ringOut 0 3 s
    if domainOn 7 s then raiseHw 0x2F (aoTamper s) s else s

def execTamperChange (terminal opened : Bool) (s : State) : Out := .next (tamperChange terminal opened s)

/-- TAMPER_COPY (R248). -/
def execTamperCopy (s : State) : Out :=
  .next (if s.led.on ∧ (s.led.tmpLog ≠ [] ∨ getF s Reg.AO_TMP_LOG_STAT_DROPPED ≠ 0) then tamperCopy s else s)

end Sys2Proof.Machine
end

