-- ==== Sys2Proof/Machine/SiteNode.lean ====
section
/-! DEFINITION. The site link at a node: site services, polls and answers, the upward stream, deliveries (12 R256 to R277,
13 R296 to R300, 06 R114 to R116). -/
namespace Sys2Proof.Machine

def rcRevoked : Nat := 0x23
def rcBalance : Nat := 0x24
def rcLinkLost : Nat := 0x31

/-- The site-link violation `k` of the channel `c` (R283). -/
def linkViolation (k c value : Nat) (s : State) : State :=
  s |> incF (Reg.LNK_VIOL_COUNT k) |> logViolationAs 7 k c value

/-- The head serves no site request: it is not paired, or in fallback (R264). -/
def linkLost (s : State) : Bool := !s.sys.paired || s.link.inFallback

/-! ## Calls that wait for the hub (R270, R271) -/

/-- Calls that firmware has taken and that wait. -/
def heldCalls (s : State) : List Nat :=
  s.link.reqs.filterMap (·.call) ++ s.link.up.filterMap (·.call) ++ s.alloc.ownReq.toList

/-- As `serve`, for a service whose calls may wait: the oldest call that firmware has not taken. -/
def serveFree (num : Nat) (f : Call → State → State) (s : State) : State :=
  if s.sys.pause || s.sys.takeover then s
  else match s.cap.calls.find? fun k => k.num == num && k.done.isNone && !(heldCalls s).contains k.id with
  | some c => f c s
  | none => s

/-- A request of this kind is outstanding. -/
def reqOut (kind : Nat) (s : State) : Bool := s.link.reqs.any fun r => r.body.kind == kind

/-- Holds a request for the hub; a later call of its kind waits for the first to complete (R270). -/
def holdReq (r : SiteReq) (s : State) : State :=
  if reqOut r.body.kind s then s else s.updLink fun l => { l with reqs := l.reqs ++ [r] }

/-- Takes the request of a kind out: it has its reply. -/
def dropReq (kind : Nat) (s : State) : State :=
  s.updLink fun l => { l with reqs := l.reqs.filter fun r => r.body.kind != kind }

/-- Completes the call of a request, if it has one. -/
def finishReq (r : SiteReq) (code : Nat) (rets : List Word) (s : State) : State :=
  match r.call with | some id => finishCode id code rets s | none => s

/-- The failure word of ALLOC_REQUEST (R116). -/
def allocFailWord (code : Nat) : Word := BitVec.ofNat 32 (0x3FFF + code * 0x10000)

/-- Completes an ALLOC_REQUEST: with a grant, or with a code (R116). -/
def finishAlloc (call : Option Nat) (word : Word) (s : State) : State :=
  match call with | some id => finishCall id word [] s | none => s

/-! ## HUB_CONFIRM (R115, R270) -/

/-- What the hub, or a STANDALONE module, answers for a UID that its directory holds in entry `e`. -/
def confirmCode (balance revocation : Bool) (e : DirEntry) (s : State) : Nat :=
  if revocation && e.blocked then rcRevoked
  else if balance && e.prepay && decide ((accountAt e.account s).credit ≤ 0) then rcBalance
  else rcOk

/-- HUB_CONFIRM. -/
def hubConfirm (c : Call) (s : State) : State :=
  if s.sys.role = .repeater then finishCode c.id rcMode [] s
  else if s.sys.role = .head ∧ linkLost s then finishCode c.id rcLinkLost [] s
  else match (dirAt (c.arg 0) s).filter (·.valid) with
  | none => finishCode c.id rcMiss [] s
  | some e =>
    let balance := (c.arg 1).testBit 0
    let revocation := (c.arg 1).testBit 1
    if s.sys.role = .head then holdReq ⟨.confirm balance revocation e.uidBytes, some c.id⟩ s
    else finishCode c.id (confirmCode balance revocation e s) [] s

def execHubConfirm (s : State) : Out := .next (serveFree 0x700 hubConfirm s)

/-! ## ALLOC_REQUEST and ALLOC_RELEASE (13 R296 to R300) -/

/-- A new standing request of channel `c`: it ends a pause, and an import request clears the learned ceiling (13 R288,
R293). -/
def newRequest (current mask dir c : Nat) (s : State) : State :=
  modChan c (fun x =>
    if dir = 0 then { x with mask := mask, imp := { x.imp with req := some current }, pause := false, learned := 0
                             watch := {}, probe := none }
    else { x with mask := mask, exp := { x.exp with req := some current }, pause := false }) s

/-- A request is in range (R296). -/
def requestOk (current mask dir : Nat) : Bool :=
  decide (60 ≤ current) && decide (current ≤ 800) && mask != 0 && decide (mask ≤ 7) && decide (dir ≤ 1)

/-- ALLOC_REQUEST. -/
def allocRequest (c : Call) (s : State) : State :=
  let (cur, mask, dir) := (c.arg 0, c.arg 1, c.arg 2)
  if s.sys.role = .repeater ∨ (s.sys.role = .hub ∧ hubOutlet s = false) then finishAlloc (some c.id) (allocFailWord rcMode) s
  else if !requestOk cur mask dir then finishAlloc (some c.id) (allocFailWord rcArg) s
  else match s.sys.role with
  | .head =>
    if linkLost s then finishAlloc (some c.id) (allocFailWord rcLinkLost) s
    else holdReq ⟨.alloc cur mask dir, some c.id⟩ s
  | .hub =>
    if s.alloc.ownReq.isSome then s
    else (newRequest cur mask dir 0 s).updAlloc fun a => { a with ownReq := some c.id, ownDir := dir }
  | _ =>
    let s := s.updAlloc fun a => { a with released := false }
    let g := if dir = 0 then (grants s).1 else (grants s).2
    finishAlloc (some c.id) (BitVec.ofNat 32 (min cur g)) s

def execAllocRequest (s : State) : Out := .next (serveFree 0x701 allocRequest s)

/-- A channel's release: grants in force 0, standing requests ended (R300). -/
def releaseChannel (c : Nat) (now : Nat) (s : State) : State :=
  let drop (x : Flow) : Flow :=
    { x with req := none, grant := 0, held := max x.held x.grant, zeroAt := if x.grant = 0 then x.zeroAt else now }
  modChan c (fun x => { x with imp := drop x.imp, exp := drop x.exp }) s

/-- ALLOC_RELEASE (R300). -/
def allocRelease (c : Call) (s : State) : State :=
  if s.sys.role = .repeater then finishCode c.id rcMode [] s
  else
    let s := match s.sys.role with
      | .head =>
        let old := s.link.reqs.filter fun r => r.body.kind == 2
        let s := old.foldl (fun s r => finishAlloc r.call 0 s) s
        let rel : SiteReq := ⟨.alloc 0 0 0, none⟩
        let keep := s.link.reqs.filter fun r => r.body.kind != 2
        s.updLink fun l => { l with relWait := s.sys.paired, reqs := if s.sys.paired then keep ++ [rel] else keep }
      | .hub =>
        let own := s.alloc.ownReq
        let s := (releaseChannel 0 s.sys.usec s).updAlloc fun a => { a with ownReq := none }
        finishAlloc own 0 s
      | _ => s.updAlloc fun a => { a with released := true }
    s |> lowerToGrant |> finishCode c.id rcOk []

def execAllocRelease (s : State) : Out := .next (serveFree 0x702 allocRelease s)

/-! ## LEDGER_EMERGENCY (11 R235) -/

/-- The account of a channel: at the hub, that of another channel's session. -/
def emergencyAccount (ch : Nat) (s : State) : Option Nat :=
  if ch = ownChannel s then some ((led s).sess.map (·.account) |>.getD (ownChannel s))
  else if s.sys.role = .hub then (if ch < 256 then (nodeAt ch s).account else none)
  else none

/-- LEDGER_EMERGENCY: in HEAD the hub makes the grant. -/
def ledgerEmergency (c : Call) (s : State) : State :=
  if s.sys.role = .head then
    if linkLost s ∨ c.arg 0 ≠ ownChannel s then finishCode c.id rcNoEmergency [] s
    else holdReq ⟨.emergency, some c.id⟩ s
  else if s.sys.role = .repeater then finishCode c.id rcNoEmergency [] s
  else match emergencyAccount (c.arg 0) s with
  | none => finishCode c.id rcNoEmergency [] s
  | some k =>
    let (code, amt, s) := grantEmergency k s
    finishCode c.id code (if code = rcOk then [BitVec.ofNat 32 amt] else []) s

def execLedgerEmergency (s : State) : Out := .next (serveFree 0x602 ledgerEmergency s)

/-! ## SITE_SEND (R271, R272) -/

/-- SITE_SEND: the record leaves in the upward stream, or at the hub in the next notice object, which holds 14. -/
def siteSend (c : Call) (s : State) : State :=
  let (o, len) := (c.arg 0, c.arg 1)
  if s.sys.role = .standalone then finishCode c.id rcMode [] s
  else if len = 0 ∨ 64 < len ∨ outsideWindow (getS s c.strand) o len then finishCode c.id rcArg [] s
  else
    let bytes := bytesAt 0 s.cap.caseMem (caseAddr s c.strand o) len
    if s.sys.role = .hub then
      if s.link.notices.length < 14 then
        (s.updLink fun l => { l with notices := l.notices ++ [bytes] }) |> finishCode c.id rcOk []
      else s
    else if linkLost s then finishCode c.id rcLinkLost [] s
    else s.updLink fun l => { l with up := l.up ++ [⟨2, bytes, some c.id⟩] }

def execSiteSend (s : State) : Out := .next (serveFree 0x703 siteSend s)

/-! ## The upward stream (R271, 11 R243) -/

/-- The record types a head sends to its hub. -/
def upRecord (r : Record) : Bool :=
  let t := (r.bytes.headD 0).toNat
  t == 1 || t == 2 || t == 3 || t == 0xF

/-- The ledger record that the stream takes next: the oldest not wholly acknowledged. -/
def upLedger (s : State) : Option Record :=
  s.led.records.reverse.find? fun r => upRecord r && decide (s.link.upPos < r.pos + r.bytes.length)

/-- Its bytes that are still to be acknowledged. -/
def upRest (r : Record) (s : State) : List Byte := r.bytes.drop (s.link.upPos - r.pos)

/-- The kinds that have something to send: 1 ledger, 2 SITE_SEND, 3 join request. -/
def upReady (k : Nat) (s : State) : Option (List Byte) :=
  if k = 1 then (if s.sys.role = .head then (upLedger s).map (upRest · s) else none)
  else (s.link.up.find? fun i => i.kind == k).map (·.bytes)

/-- The next fragment: the kinds take turns, after the kind last sent. -/
def nextFrag (seq : Nat) (s : State) : Option UpFrag :=
  let k := s.link.upKind
  let order := [k % 3 + 1, (k + 1) % 3 + 1, (k + 2) % 3 + 1]
  order.findSome? fun k => (upReady k s).map fun bs => ⟨seq, k, decide (bs.length ≤ 32), bs.take 32⟩

/-- A fragment is acknowledged: what it carried leaves the stream; the last of a SITE_SEND completes it, the last of a
ledger record counts it as exported. -/
def fragDone (f : UpFrag) (s : State) : State :=
  let s := s.updLink fun l => { l with upFrag := none, upKind := f.kind }
  if f.kind = 1 then
    match upLedger s with
    | none => s
    | some r =>
      let dest := if f.last then r.pos + r.bytes.length else max s.link.upPos r.pos + f.bytes.length
      let s := s.updLink fun l => { l with upPos := dest }
      if f.last then s.updLed fun l => { l with ack := max l.ack dest } else s
  else
    match s.link.up.find? fun i => i.kind == f.kind with
    | none => s
    | some i =>
      if f.last then
        let s := s.updLink fun l => { l with up := l.up.erase i }
        match i.call with | some id => finishCode id rcOk [] s | none => s
      else s.updLink fun l => { l with up := l.up.map fun j => if j = i then { i with bytes := i.bytes.drop 32 } else j }

/-- GRANT.ACK of a poll: an equal sequence acknowledges the fragment in SLOT. -/
def ackFrag (ack : Nat) (s : State) : State :=
  match s.link.upFrag with
  | some f => if f.seq = ack then fragDone f s else s
  | none => s

/-- The answer carries a fragment: the one not acknowledged again, or the next, whose sequence follows ACK. -/
def fillSlot (ack : Nat) (s : State) : State :=
  match s.link.upFrag with
  | some _ => s
  | none => s.updLink fun l => { l with upFrag := nextFrag ((ack + 1) % 16) s }

/-! ## The answer (R259, R269, R270) -/

/-- One place of REQ, or the whole of it. -/
def ReqBody.bytes : ReqBody → List Byte
  | .confirm balance revocation uid =>
    leBytes (1 + 16 * ofBool balance + 32 * ofBool revocation) 1 ++ leBytes uid.length 1 ++
    (uid ++ List.replicate 7 0).take 7 ++ List.replicate 5 0
  | .alloc cur mask dir => leBytes 2 1 ++ leBytes cur 2 ++ leBytes mask 1 ++ leBytes dir 1 ++ [0, 0]
  | .emergency => leBytes 3 1 ++ List.replicate 6 0

/-- The requests that the next answer carries: a CONFIRM alone, in turn with the others, the older first. -/
def reqsNow (s : State) : List SiteReq :=
  let c := s.link.reqs.filter fun r => r.body.kind == 1
  let o := s.link.reqs.filter fun r => r.body.kind != 1
  if c = [] then o
  else if o = [] then c
  else if s.link.reqTurn = 1 then o
  else if s.link.reqTurn = 2 then c
  else if (s.link.reqs.headD ⟨.emergency, none⟩).body.kind = 1 then c else o

/-- The 14 bytes of REQ. -/
def reqBytes (rs : List SiteReq) : List Byte := (rs.flatMap (fun (r : SiteReq) => r.body.bytes) ++ List.replicate 14 0).take 14

/-- EVREQ: EVMaxCurrent in an ISO 15118 session, else VI_CEIL while a vehicle is connected. -/
def evRequest (s : State) : Nat :=
  if s.sys.role = .repeater then 0
  else if s.hlc.status = 4 then s.hlc.evMax else if vehicleThere s then ceiling s else 0

/-- A prepayment session is open. -/
def prepaySession (s : State) : Bool := ((led s).sess.map (·.prepay)).getD false

/-- The contactors are closed: both are commanded closed. -/
def bothClosed (s : State) : Bool := s.sw.k1 && s.sw.k2

/-- STATE of the answer. -/
def answerState (s : State) : Nat :=
  if s.sys.mode = .inert then 16
  else siteState s + 4 * ofBool (sessionActive s) + 8 * ofBool (bothClosed s) +
    32 * ofBool (s.sys.role == .repeater) + 64 * ofBool (prepaySession s)

/-- Phase `p` exports: its active power is negative. -/
def phaseExports (p : Nat) (s : State) : Bool := getI s (Reg.MET_VAL_VALUE (7 + p)) < 0

/-- Measured current per phase, 0.01 A, and the phases that export: those of the latest block. -/
def answerAmps (s : State) : Vector (BitVec 15) 3 × BitVec 3 :=
  if s.sys.role = .repeater then (#v[0, 0, 0], 0)
  else
    (Vector.ofFn fun p : Fin 3 => BitVec.ofNat 15 (min 32767 (getF s (Reg.MET_VAL_VALUE (3 + p.val)) / 10)),
     BitVec.ofNat 3 (ofBool (phaseExports 0 s) + 2 * ofBool (phaseExports 1 s) + 4 * ofBool (phaseExports 2 s)))

/-- DELIV: next needed, and the identifier. -/
def answerDeliv (s : State) : Nat × Nat :=
  if s.link.noticeNow then (1, s.link.noticeId)
  else match s.link.deliv with | some d => (d.next, d.id) | none => (0, 0)

/-- The cost of the prepayment session (11 R237). -/
def answerCost (s : State) : Int :=
  match (led s).sess with | some x => if x.prepay then satSigned 32 x.taken else 0 | none => 0

/-- PHASE of the answer. -/
def answerPhase (s : State) : BitVec 16 := BitVec.ofNat 16 (sitePhase s + 16 * lagMean s.link.lags)

/-- An answer gets its header from the poll it answers, and its tag under the own link key (R257, R259). -/
def addressAnswer (f : PollFrame) (s : State) (a : AnswerFrame) : AnswerFrame :=
  let a := { a with hops := f.hops, route := f.route, round := BitVec.ofNat 14 f.round.toNat }
  { a with tag := answerTagUnder ((ownLinkKey s).getD []) f.round.toNat f.retry a }

/-- Builds the answer to a poll received as `r` (R259): in INERT only STATE and DELIV. -/
def buildAnswer (f : PollFrame) (r : Reception) (s : State) : AnswerFrame × List SiteReq :=
  let live := s.sys.mode != .inert
  let rs := if live && s.sys.role == .head then reqsNow s else []
  let amps := answerAmps s
  let none3 : Vector (BitVec 15) 3 := #v[0, 0, 0]
  let slot : Nat × List Byte := match s.link.upFrag with
    | some f => (f.seq + 16 * f.kind + 256 * ofBool f.last, f.bytes)
    | none => (0, [])
  (addressAnswer f s {
     hops := 0, route := [], round := 0, tag := 0
     lqSnr := r.snr, lqUsable := BitVec.ofNat 8 (carriersOf (planOf s) r.tones), lqBlanked := blankedLq r.input s
     tones := r.tones, neigh := r.heard.take 2
     state := BitVec.ofNat 8 (answerState s)
     amps := if live then amps.1 else none3
     exporting := if live then amps.2 else 0
     evReq := if live then BitVec.ofNat 16 (evRequest s) else 0
     phase := if live then answerPhase s else 0
     req := reqBytes rs
     cost := if live then BitVec.ofInt 32 (answerCost s) else 0
     delivNext := BitVec.ofNat 16 (answerDeliv s).1
     delivId := BitVec.ofNat 16 (answerDeliv s).2
     slotCtrl := if live then BitVec.ofNat 16 slot.1 else 0
     slot := if live then slot.2 else [] }, rs)

/-- The frame of an answer: on the hop that delivered the poll, with the map just reported (R256, R261). -/
def answerTx (f : PollFrame) (a : AnswerFrame) (s : State) : TxFrame :=
  { kind := 1, modulation := f.modulation.toNat, tones := a.tones
    message := answerMessage ((ownLinkKey s).getD []) f.round.toNat f.retry a }

/-- The answer goes out. During a service pause the PHY sends the one prepared, its currents and phase refreshed
(R282). -/
def sendAnswer (f : PollFrame) (r : Reception) (s : State) : State :=
  if s.sys.pause then
    match s.link.answer with
    | none => s
    | some x =>
      let m := answerAmps s
      let a := addressAnswer f s { x with amps := m.1, exporting := m.2, phase := answerPhase s }
      (s.updLink fun l => { l with answer := some a }) |> transmit (answerTx f a s)
  else
    let s := if s.sys.mode = .inert then s else fillSlot f.ack.toNat s
    let (a, rs) := buildAnswer f r s
    let turn := match rs with | [] => 0 | x :: _ => if x.body.kind = 1 then 1 else 2
    (s.updLink fun l => { l with answer := some a, reqTurn := turn, costSent := a.cost.toInt }) |> transmit (answerTx f a s)

/-! ## The poll (R257, R258, R263, R264, R269) -/

/-- The round counter as the node rebuilds it: the smallest above the last accepted whose low 14 bits are those sent. -/
def rebuiltRound (last low : Nat) : Nat := last + 1 + (low + 16384 * (last / 16384 + 1) - (last + 1)) % 16384

/-- The poll is a retry in the round last accepted. -/
def sameRound (f : PollFrame) (s : State) : Bool := f.retry && f.round.toNat == s.link.roundCtr

/-- The lag behind the hub, 0.1°, that a poll with a valid ZC gives (R269); none without a valid frequency. -/
def lagOf (zc sinceZc : Nat) (s : State) : Option Nat :=
  let f := getF s Reg.MET_FREQ_W_FREQ
  if f = 0 then none
  else
    let t := 1000000000 / f
    let lag := (((zc : Int) - sinceZc) % (t : Int)).toNat
    some ((lag * 3600 + t / 2) / t % 3600)

/-- The poll's stamp joins the last eight lags; a session keeps the phase code it began with (R269, `siteCode`). -/
def takeLag (zc : Option (BitVec 15)) (sinceZc : Nat) (s : State) : State :=
  match zc.bind fun z => lagOf z.toNat sinceZc s with
  | none => s
  | some a =>
    let lags := (a :: s.link.lags).take 8
    let code := if sessionActive s then s.link.phase else phaseCode lags
    s.updLink fun l => { l with lags := lags, phase := code }

/-- The head's clock follows the hub's: VAR, or with a prepayment session the value nearest its own that CLOCK16 gives,
used only while its own clock is valid (R258, 11 R218). -/
def hubClock (f : PollFrame) (credit : Bool) (s : State) : Option Nat :=
  if !credit then (if f.var = 0 then none else some f.var.toNat)
  else if f.clock16 = 0 ∨ !s.led.rtcValid then none
  else
    let w := wallClock s
    let up := (f.clock16.toNat + 65536 - w % 65536) % 65536
    some (if up < 32768 then w + up else w + up - 65536)

/-- The wall clock is set from the hub's when they differ by 2 s or more (11 R218). -/
def adoptClock (f : PollFrame) (credit : Bool) (s : State) : State :=
  match hubClock f credit s with
  | none => s
  | some w =>
    let own := wallClock s
    if s.led.rtcValid ∧ own < w + 2 ∧ w < own + 2 then s else s.updLed fun l => { l with setPend := some w }

/-- The head adopts the hub's credit, less the cost not yet reported (11 R237). -/
def adoptCredit (var : Nat) (s : State) : State :=
  let unreported : Int := answerCost s - s.link.costSent
  let a : Int := signedOf 32 var - unreported
  modAccount (ownChannel s) (fun _ => { b := a }) s

/-- VAR of this poll carries an account: a prepayment session runs, or the poll confirms an entry of one. -/
def varIsCredit (f : PollFrame) (s : State) : Bool :=
  prepaySession s ||
  (f.replyKind == 1 && f.replyValue.toNat % 256 == rcOk &&
    s.link.reqs.any fun r => match r.body with
      | .confirm _ _ uid => (((findUid uid s).bind (dirAt · s)).map (·.prepay)).getD false
      | _ => false)

/-- REPLY completes the request of its kind (R270); a release is answered by grant 0 alone (13 R300). -/
def takeReply (f : PollFrame) (creditBefore : Int) (s : State) : State :=
  let v := f.replyValue.toNat
  match s.link.reqs.find? fun r => r.body.kind == f.replyKind.toNat with
  | none => s
  | some r => match r.body with
    | .confirm _ _ _ => s |> dropReq 1 |> finishReq r (v % 256) []
    | .alloc cur _ _ =>
      if cur = 0 then
        if v = 0 then (dropReq 2 s).updLink fun l => { l with relWait := false } else s
      else if 0x3F00 ≤ v then s |> dropReq 2 |> finishAlloc r.call (allocFailWord (v % 256))
      else s |> dropReq 2 |> finishAlloc r.call (BitVec.ofNat 32 v)
    | .emergency =>
      let rise := (accountAt (ownChannel s) s).credit - creditBefore
      s |> dropReq 3 |> finishReq r (v % 256) (if v % 256 = rcOk then [BitVec.ofInt 32 rise] else [])

/-- The head leaves fallback at the first poll that passes its check (R264). -/
def leaveFallback (s : State) : State :=
  if s.link.inFallback then
    (s.updLink fun l => { l with inFallback := false }) |> raiseFw 0x26 0 |> ringOut 4 2
  else s

/-- What firmware takes from a poll that passed its check. -/
def pollContent (f : PollFrame) (s : State) : State :=
  let before := (accountAt (ownChannel s) s).credit
  let credit := varIsCredit f s
  let s := s.updLink fun l => { l with gImp := f.grantImp.toNat, gExp := f.grantExp.toNat, fallbackA := f.fallback.toNat }
  let s := leaveFallback s
  let s := adoptClock f credit s
  let s := if credit then adoptCredit f.var.toNat s else s
  s |> ackFrag f.ack.toNat |> takeReply f before |> lowerToGrant

/-- A poll is addressed to this node, and its tag verifies under the own link key (R257). -/
def pollVerifies (f : PollFrame) (s : State) : Bool :=
  match ownLinkKey s with
  | some k => f.tag == pollTagUnder k f
  | none => false

/-- A poll that passes its check (R258, R264); `fresh`: it is no retry in the round last accepted. -/
def pollPassed (fresh : Bool) (f : PollFrame) (r : Reception) (s : State) : State :=
  let low := f.round.toNat % 16384
  let inert := s.sys.mode == .inert
  let wakes := f.duty != 0 || (f.grantImp.toNat, f.grantExp.toNat) != (s.link.gImp, s.link.gExp)
  let s := if wakes then standbyExit s else s
  let gone := if fresh && s.link.lastPoll.isSome then f.round.toNat - s.link.roundCtr - 1 else 0
  let s := setF Reg.LNK_COUNT_MISSES (satAdd 0xFFFF (getF s Reg.LNK_COUNT_MISSES) gone) s
  let s := s |> setF Reg.LNK_STATUS_HOPS f.hops.toNat |> setF Reg.LNK_STATUS_MOD f.modulation.toNat
  let times := if s.link.inFallback then [s.sys.usec] else (s.sys.usec :: s.link.pollTimes).take 4
  let first := s.link.lastPollRound != some f.round.toNat
  let s := s.updLink fun l => { l with
    roundCtr := f.round.toNat, lastPoll := some s.sys.usec, pollTimes := times, lastPollRound := some f.round.toNat
    duty := f.duty.toNat, coSend := f.coSend && f.duty != 0, tones := (r.tones :: l.tones).take 2 }
  let s := if inert then s else takeLag f.zc r.sinceZc.toNat s
  let s := if s.sys.role = .head && !inert then pollContent f s
    else if inert then s else s |> adoptClock f false |> ackFrag f.ack.toNat
  let s := if first && s.sys.role == .head && !inert then raiseFw 0x24 low s else s
  sendAnswer f r s

/-- A poll that this node receives whole: one for another node is not taken; violations 2 and 1 discard it (R257, R283). -/
def poll (f : PollFrame) (r : Reception) (s : State) : State :=
  if !isNode s || !domainOn 4 s then s
  else
    let s := receive r.input s
    let low := f.round.toNat % 16384
    let fresh := !sameRound f s
    if addressed f.route f.hops.toNat ≠ ownChannel s then s
    else if fresh && decide (f.round.toNat ≤ s.link.roundCtr) then linkViolation 2 (ownChannel s) low s
    else if !pollVerifies f s || (fresh && rebuiltRound s.link.roundCtr low != f.round.toNat) then linkViolation 1 (ownChannel s) low s
    else pollPassed fresh f r s

def execPoll (f : PollFrame) (r : Reception) (s : State) : Out := .next (poll f r s)

/-! ## Fallback (R264, R282) -/

/-- Pending requests and SITE_SENDs complete with LINK_LOST; a release stays (R264, R282). -/
def loseRequests (s : State) : State :=
  let (rels, reqs) := s.link.reqs.partition fun r => match r.body with | .alloc 0 _ _ => true | _ => false
  let sends := s.link.up.filter fun i => i.kind == 2
  let frag := s.link.upFrag.filter fun f => f.kind != 2
  let s := s.updLink fun l => { l with reqs := rels, up := l.up.filter (fun i => i.kind != 2), upFrag := frag }
  let s := reqs.foldl (fun s r => match r.body with
    | .alloc _ _ _ => finishAlloc r.call (allocFailWord rcLinkLost) s
    | .emergency => finishReq r rcNoEmergency [] s
    | .confirm _ _ _ => finishReq r rcLinkLost [] s) s
  sends.foldl (fun s i => match i.call with | some id => finishCode id rcLinkLost [] s | none => s) s

/-- The head enters fallback (R264). -/
def enterFallback (s : State) : State :=
  (s.updLink fun l => { l with inFallback := true, pollTimes := [] })
    |> loseRequests |> raiseFw 0x26 1 |> ringOut 4 2 |> lowerToGrant

/-- FALLBACK_ENTRY: the count of rounds without a poll reaches 3. -/
def execFallbackEntry (s : State) : Out :=
  .next (if s.sys.role = .head ∧ s.sys.paired ∧ !s.link.inFallback ∧ domainOn 4 s ∧ s.sys.mode ≠ .inert then enterFallback s else s)

/-! ## Relays (R256, R261) -/

/-- ZC carried forward by the delay modulo the mains period; without a valid frequency it is invalid (R261). -/
def carryZc (delay zc : Nat) (s : State) : Option Nat :=
  let f := getF s Reg.MET_FREQ_W_FREQ
  if f = 0 ∨ zc < 32768 then none else some ((zc - 32768 + delay) % (1000000000 / f))

/-- A poll goes one hop further: HOP counts up, ZC is carried forward, on the next hop's map and the lead's modulation. -/
def relayPoll (msg : List Byte) (modulation delay : Nat) (s : State) : State :=
  let (hop, hops) := (fieldOf msg 0 1 % 8, fieldOf msg 0 1 / 8 % 8 + 1)
  if hops ≤ hop + 1 ∨ fieldOf msg (1 + hop) 1 ≠ s.link.chan then s
  else
    let zc := carryZc delay (fieldOf msg 10 2) s
    let f : TxFrame := {
      kind := 0, modulation := modulation, tones := mapGet allCarriers s.link.maps (fieldOf msg (2 + hop) 1)
      message := ctrlByte (hop + 1) hops ++ (msg.drop 1).take 9 ++ zcField zc ++ msg.drop 12 }
    (s.updLink fun l => { l with relayed := some ⟨false, hop + 1, zc⟩ }) |> transmit f

/-- An answer goes one hop up; the relay next to the node that answers learns its map (R256, R261). -/
def relayAnswer (msg : List Byte) (modulation : Nat) (s : State) : State :=
  let (hop, hops) := (fieldOf msg 0 1 % 8, fieldOf msg 0 1 / 8 % 8 + 1)
  if hop = 0 ∨ hops ≤ hop ∨ fieldOf msg hop 1 ≠ s.link.chan then s
  else
    let maps := if hop + 1 = hops then mapPut s.link.maps (fieldOf msg hops 1) (BitVec.ofNat 70 (fieldOf msg 13 9)) else s.link.maps
    let f : TxFrame := {
      kind := 1, modulation := modulation, tones := s.link.tones.headD allCarriers
      message := ctrlByte (hop - 1) hops ++ msg.drop 1 }
    (s.updLink fun l => { l with relayed := some ⟨true, hop - 1, none⟩, maps := maps }) |> transmit f

/-- RELAY_FORWARD: a frame that this node is to pass on (R261). -/
def relayForward (isAnswer : Bool) (msg : List Byte) (modulation delay : Nat) (input : List (BitVec 16)) (s : State) : State :=
  if !isNode s || !domainOn 4 s then s
  else
    let s := receive input s
    if isAnswer then relayAnswer msg modulation s else relayPoll msg modulation delay s

def execRelayForward (answer : Bool) (message : List (BitVec 8)) (modulation : BitVec 2) (delay : BitVec 16)
    (input : List (BitVec 16)) (s : State) : Out :=
  .next (relayForward answer message modulation.toNat delay.toNat input s)

/-! ## Chunks (R272 to R277) -/

/-- A record reaches Q_SITE_IN as a packet: [23:16] channel, [15:8] 0 for a head's record and 1 for a notice's,
[7:0] length (R271, R272). -/
def siteRecord (c kind : Nat) (bs : List Byte) (s : State) : State :=
  let head := BitVec.ofNat 32 (0x10000000 + c * 0x10000 + kind * 0x100 + bs.length)
  (head :: packetItems bs).foldl (fun s w => (qEnqueue 3 w s).2) s

/-- The partition that keeps the chunks of a kind, where it is not the delivery itself. -/
def chunkBase (kind : Nat) (s : State) : Option Nat :=
  if kind = 1 then some (slotBase (inactiveSlot s))
  else if kind = 2 then some 0x3F70000
  else if kind = 5 then some (formeBase (inactiveForme s))
  else none

/-- The delta of this descriptor does not fit the node's directory: a full series is wanted instead (14 R323). -/
def wantsSeries (owner : List Byte) (s : State) : Bool :=
  let series := (fieldOf owner 12 2).testBit 0
  !series && (fieldOf owner 0 4 != s.rd.seq || getF s Reg.DIR_DELTA_STAT_SKIPPED != 0 || getF s Reg.DIR_STATUS_BAD != 0)

/-- The inactive slot can take a kind-1 delivery (19 R415, R416). -/
def slotTakes (s : State) : Bool := openable (fwSlot (inactiveSlot s) s) || (fwSlot (inactiveSlot s) s).state == .receiving

/-- The data bytes of a chunk frame: a descriptor holds kind, length, SHA-256, parent table, owner bytes and signature, a
notice its records with their lengths and then its signature (R272, R273; DESIGN CHOICE: in that order, without gaps). -/
def frameData (f : ChunkFrame) : List Byte :=
  match f.body with
  | .descriptor length sha table owner signature _ =>
    leBytes f.kind.toNat 1 ++ leBytes length.toNat 4 ++ beBytes sha.toNat 32 ++ table.flatMap (fun e => leBytes e.toNat 2) ++
    owner ++ signature
  | .notice records signature _ => records.flatMap (fun r => leBytes r.length 1 ++ r) ++ signature
  | .data bytes => bytes

/-- A descriptor that verifies starts the delivery at this node. -/
def startDelivery (f : ChunkFrame) (length : Nat) (sha : BitVec 256) (parent : Nat) (parentHub member : Bool)
    (owner : List Byte) (s : State) : State :=
  let k := f.kind.toNat
  if k = 1 ∧ !slotTakes s then s
  else
    let next := if k = 2 ∧ member ∧ wantsSeries owner s then 0xFFFF else 1
    let d : Delivery := {
      id := f.delivery.toNat, kind := k, chunks := f.chunks.toNat, next := next, length := length, sha := sha, parent := parent
      parentHub := parentHub, member := member, owner := owner, desc := frameData f, whole := decide (f.chunks.toNat ≤ 1) && next == 1 }
    let s := s.updLink fun l => { l with deliv := some d, noticeNow := false, ptr := -1 }
    if k = 1 then
      s |> openSlot |> modFw (inactiveSlot s) fun x =>
        { x with auto := (fieldOf owner 8 4).testBit 0, actTime := fieldOf owner 12 4 }
    else s

/-- The sender of a frame is this parent. -/
def fromParent (f : ChunkFrame) (parent : Nat) (parentHub : Bool) : Bool :=
  if parentHub then f.fromHub else !f.fromHub && f.sender.toNat == parent

/-- A data chunk that is the next one needed, from the parent, is kept. -/
def takeData (f : ChunkFrame) (bytes : List Byte) (d : Delivery) (s : State) : State :=
  if f.chunk.toNat ≠ d.next ∨ d.whole ∨ !fromParent f d.parent d.parentHub then s
  else
    let at_ := (d.next - 1) * 1024
    let bs := bytes.take (min 1024 (d.length - at_))
    let last := decide (d.chunks ≤ d.next + 1)
    let d' := { d with next := if last then d.next else d.next + 1, whole := last
                       data := if d.kind = 3 then d.data ++ bs else d.data }
    let s := s.updLink fun l => { l with deliv := some d', noticeNow := false }
    match chunkBase d.kind s with | some b => storeOver (b + at_) bs s | none => s

/-- A chunk whose CRC holds; in INERT only those of kind 1 are taken (02 R35, R277). -/
def chunkPassed (f : ChunkFrame) (s : State) : State :=
  if s.sys.mode == .inert && f.kind != 1 then s
  else match f.body with
  | .notice records _ signed =>
    if f.kind ≠ 4 ∨ s.link.noticeId = f.delivery.toNat then s
    else if !signed then linkViolation 5 (ownChannel s) f.delivery.toNat s
    else
      let s := s.updLink fun l => { l with noticeId := f.delivery.toNat, noticeNow := true, noticeData := frameData f }
      records.foldl (fun s r => siteRecord (ownChannel s) 1 r s) s
  | .descriptor length sha table owner _ signed =>
    if f.chunk ≠ 0 ∨ f.kind = 4 ∨ (s.link.deliv.map (·.id)) = some f.delivery.toNat then s
    else if !signed then (linkViolation 5 (ownChannel s) f.delivery.toNat s).updLink fun l => { l with deliv := none }
    else
      let e := table.getD s.link.chan 0
      let (parent, hub) := (e.toNat % 256, e.getLsbD 8)
      if !fromParent f parent hub then s else startDelivery f length.toNat sha parent hub (e.getLsbD 9) owner s
  | .data bytes =>
    match s.link.deliv with
    | some d => if d.id = f.delivery.toNat then takeData f bytes d s else s
    | none => s

/-- A chunk frame heard by a node: one whose CRC-32 fails is not taken (R273). -/
def hearChunk (f : ChunkFrame) (s : State) : State :=
  let s := receive f.input s
  if f.crc = crc32 (chunkData (frameData f)) then chunkPassed f s else s

/-- The data of chunk `k` of a delivery that this node passes on. -/
def heldChunk (d : Delivery) (k : Nat) (s : State) : List Byte :=
  if k = 0 then d.desc
  else match chunkBase d.kind s with
  | some b => nvBytes (b + (k - 1) * 1024) (min 1024 (d.length - (k - 1) * 1024)) s
  | none => (d.data.drop ((k - 1) * 1024)).take 1024

/-- The chunk frame of a sender: on every carrier, at the modulation of the last poll (DESIGN CHOICE: the manual names no
map for a frame that several nodes hear). -/
def chunkTx (message : List Byte) (modulation : Nat) : TxFrame :=
  { kind := 2, modulation := modulation, tones := allCarriers, message := message }

/-- The own pass window: the sender sends the chunk its duty names (R274). -/
def ownWindow (s : State) : State :=
  if s.sys.pause || s.sys.mode == .inert || s.link.duty = 0 then s
  else
    let ptr := if s.link.duty = 1 then s.link.ptr + 1 else if s.link.duty = 3 then 0 else s.link.ptr
    let s := s.updLink fun l => { l with ptr := ptr, duty := 0, coSend := false }
    let mod := getF s Reg.LNK_STATUS_MOD
    if s.link.noticeNow then transmit (chunkTx (chunkMessage 4 s.link.chan s.link.noticeId 0 1 s.link.noticeData) mod) s
    else match s.link.deliv with
    | some d => transmit (chunkTx (chunkMessage d.kind s.link.chan d.id ptr.toNat d.chunks (heldChunk d ptr.toNat s)) mod) s
    | none => s

/-- The object that a node holds. -/
def heldObject (d : Delivery) (s : State) : List Byte :=
  match chunkBase d.kind s with | some b => nvBytes b d.length s | none => d.data

/-- A member installs what it holds, as the owning chapter says. -/
def install (d : Delivery) (s : State) : State :=
  if d.kind = 1 then verifySlot s
  else if d.kind = 2 then applyDelta (heldObject d s) s
  else if d.kind = 3 then loadCalendar d.length d.data s
  else if d.kind = 5 then checkForme s
  else s

/-- OBJECT_VERIFY (R277): a mismatch discards chunks 1 onwards. Deltas and calendars wait while an item is migrated
(19 R419). -/
def objectVerify (s : State) : State :=
  match s.link.deliv with
  | none => s
  | some d =>
    if !d.whole || ((d.kind = 2 || d.kind = 3) && migrating s) then s
    else if Config.sha256 (heldObject d s) = d.sha then
      let s := s.updLink fun l => { l with deliv := some { d with next := d.chunks, whole := false } }
      if d.member then install d s else s
    else
      let d' := { d with next := 1, whole := decide (d.chunks ≤ 1), data := [] }
      (s.updLink fun l => { l with deliv := some d' }) |> linkViolation 6 (ownChannel s) d.id

def execObjectVerify (s : State) : Out := .next (if isNode s then objectVerify s else s)

end Sys2Proof.Machine
end

