-- ==== Sys2Proof/Machine/AllocRun.lean ====
section
/-! DEFINITION. Site power allocation: what an answer tells of a channel, the run (reservations, admission, fill, commit),
learned ceilings and probes, the inputs of the host (13 R284 to R302). Currents are in 0.1 A. -/
namespace Sys2Proof.Machine

/-! ## A channel as the run sees it (R287) -/

/-- Local phases of a mask. -/
def maskPhases (mask : Nat) : List Nat := (List.range 3).filter fun j => mask.testBit j

/-- The site phase of local phase `j` (R287). -/
def sitePhaseOf (code : Nat) (rev : Bool) (j : Nat) : Nat := if rev then (code + 3 - j) % 3 else (code + j) % 3

/-- Phase code and rotation of a channel: the hub's outlet is its own reference. -/
def chanPhase (c : Nat) (s : State) : Nat × Bool :=
  if c = 0 ∧ hubOutlet s then (0, threePhase s && getB s Reg.MET_STATUS_ROT_REV)
  else ((nodeAt c s).phase, (nodeAt c s).rotRev)

/-- The site phases on which a channel's current is counted, and its k (R287). -/
def chanPhases (c : Nat) (s : State) : List Nat × Nat :=
  let js := maskPhases (chanAt c s).mask
  let (code, rev) := chanPhase c s
  (if code = 3 then [0, 1, 2] else js.map (sitePhaseOf code rev), js.length)

/-- The highest phase that an answer reports in a direction, rounded up to 0.1 A. -/
def measured (export_ : Bool) (x : Chan) : Nat :=
  (List.finRange 3).foldl (fun m p => if x.exporting.getLsbD p.val = export_ then max m ((x.amps.get p + 9) / 10) else m) 0

/-! ## What an answer tells (R289, R293, R294, R302) -/

/-- Every phase of a direction is at or below `g`. -/
def allBelow (export_ : Bool) (g : Nat) (x : Chan) : Bool :=
  (List.finRange 3).all fun p => x.exporting.getLsbD p.val != export_ || decide (x.amps.get p ≤ 10 * g)

/-- A held amount ends with an answer that reports every phase at or below the new grant (R289, 01 R12). -/
def heldClears (x : Chan) : Chan :=
  { x with imp := { x.imp with held := if allBelow false x.imp.grant x then 0 else x.imp.held }
           exp := { x.exp with held := if allBelow true x.exp.grant x then 0 else x.exp.held } }

/-- The learned ceiling and what led to it are forgotten (R293). -/
def Chan.unlearn (x : Chan) : Chan := { x with learned := 0, watch := {}, probe := none }

/-- One answer more of the watch (R293). -/
def watchStep (gap n now : Nat) (x : Chan) : Chan :=
  let m := measured false x
  if x.learned ≠ 0 ∨ !x.closed ∨ x.imp.grant < 60 then { x with watch := {} }
  else if x.imp.grant < m + gap then { x with watch := {} }
  else
    let w : Watch := { count := x.watch.count + 1, high := max x.watch.high m }
    if n ≤ w.count then { x with learned := max 60 (w.high + gap), learnedAt := now, watch := {} } else { x with watch := w }

/-- One answer more of a probe (R294). -/
def probeStep (x : Chan) : Chan :=
  match x.probe with
  | none => x
  | some k =>
    if x.learned + 5 < measured false x then x.unlearn
    else if k ≤ 1 then { x with probe := none } else { x with probe := some (k - 1) }

/-- Violation `k` of the allocation by channel `c` (R302). -/
def allocViolation (k c value : Nat) (s : State) : State :=
  s |> incF (Reg.ALLOC_VIOL_COUNT k) |> logViolationAs 7 k c value

/-- What an answer of channel `c` reports: currents, EVREQ and the contactors. -/
def chanAnswer (c : Nat) (amps : Vector Nat 3) (exporting : BitVec 3) (evReq : Nat) (closed : Bool) (s : State) : State :=
  let old := chanAt c s
  let now := s.sys.usec
  let learnN := clamp 2 32 (getF s Reg.ALLOC_LEARN_LEARN_N)
  let gap := clamp 5 50 (getF s Reg.ALLOC_LEARN_LEARN_GAP)
  let drawing := closed && amps.toList.any (0 < ·)
  let x := { old with
    answered := true, amps := amps, exporting := exporting, evReq := evReq, closed := closed
    runAt := if drawing then some (old.runAt.getD now) else none }
  let x := if old.evReq ≠ evReq ∨ (old.closed ∧ !closed) then x.unlearn else x
  let x := probeStep (heldClears x)
  let x := if getB s Reg.ALLOC_LEARN_LEARN_EN then watchStep gap learnN now x else x
  let over1 := if x.imp.grant + 10 < measured false x then min 4 (old.over1 + 1) else 0
  let over2 := if exporting ≠ 0 ∧ x.exp.grant = 0 then min 4 (old.over2 + 1) else 0
  let s := modChan c (fun _ => { x with over1 := over1, over2 := over2 }) s
  let s := if over1 = 3 then allocViolation 1 c (measured false x) s else s
  if over2 = 3 then allocViolation 2 c (measured true x) s else s

/-! ## Inputs (R285, R286, R298) -/

/-- N of R298. -/
def outletCount (s : State) : Nat := (outletChannels s).length

/-- SITE_FALLBACK_A as a run computes it (R298). -/
def fallbackNow (s : State) : Nat :=
  let a := getF s Reg.ALLOC_SAFE_SAFE_A
  min 800 (if outletCount s = 0 then a else a / outletCount s)

/-- The dynamic inputs are stale (R285). -/
def stale (s : State) : Bool := getB s Reg.ALLOC_STATUS_STALE

/-- H of phase `p` (R286). -/
def headroom (s : State) (p : Nat) : Nat :=
  let free := getF s Reg.ALLOC_GRID_GRID_LIMIT - getF s Reg.ALLOC_GRID_MARGIN
  if stale s then min (getF s Reg.ALLOC_SAFE_SAFE_A) free
  else ((getF s Reg.ALLOC_GRID_GRID_LIMIT : Int) - getF s Reg.ALLOC_GRID_MARGIN - getI s (Reg.ALLOC_OTHER_OTHER p)).toNat

/-- Power as phase-amperes in 0.1 A, rounded down (R286). -/
def phaseAmps (watts : Nat) (s : State) : Nat := watts * 100 / clamp 2000 2600 (getF s Reg.ALLOC_VNOM_VNOM)

/-- B of import (R286). -/
def importBudget (s : State) : Nat :=
  let extra : Int := if stale s then 0 else (getF s Reg.ALLOC_SURPLUS_W_WATTS : Int) + getI s Reg.ALLOC_BATT_W_WATTS
  phaseAmps ((getF s Reg.ALLOC_IMPORT_W_WATTS : Int) + extra).toNat s

/-- B of export (R295). -/
def exportBudget (s : State) : Nat := if stale s then 0 else phaseAmps (getF s Reg.ALLOC_EXPORT_W_WATTS) s

/-! ## Room -/

/-- What is left on each site phase, and of B. -/
structure Pool where
  room : List Nat
  budget : Nat

/-- `x` on each of these phases, and k × `x` of B, still fit. -/
def Pool.fits (phases : List Nat) (k x : Nat) (p : Pool) : Bool :=
  phases.all (fun q => decide (x ≤ p.room.getD q 0)) && decide (k * x ≤ p.budget)

/-- Takes `x` on each of these phases, and k × `x` of B. -/
def Pool.take (phases : List Nat) (k x : Nat) (p : Pool) : Pool :=
  { room := p.room.mapIdx fun q r => if phases.contains q then r - x else r, budget := p.budget - k * x }

/-- The largest amount that still fits. -/
def Pool.left (phases : List Nat) (k : Nat) (p : Pool) : Nat :=
  let r := phases.foldl (fun m q => min m (p.room.getD q 0)) 0x4000
  if k = 0 then r else min r (p.budget / k)

/-! ## The run (R288 to R292, R295) -/

/-- A channel in one direction of a run: what it wants and what is reserved for it. -/
structure Ask where
  c : Nat
  phases : List Nat
  k : Nat
  flow : Flow
  answered : Bool
  want : Nat
  /-- The want of a probe that applies. -/
  probe : Option Nat
  /-- Reserved on its phases and in B (R289); max(grant, held, measured) of the commit (R292). -/
  reserved : Nat
  committed : Nat
  recent : Bool
  prio : Nat
  waited : Nat
  barred : Bool
  admitted : Bool := false
  level : Nat := 0
  frozen : Bool := true

/-- The limits of R288 but for the learned ceiling. -/
def wantCap (f : Flow) (x : Chan) (ceil : Nat) : Nat := min (f.req.getD 0) (min x.evReq ceil)

/-- A probe of a channel applies in this run: one under way, or one that starts (R294, R301). -/
def probeApplies (x : Chan) (s : State) : Bool :=
  x.learned != 0 && (x.probe.isSome ||
    (decide (clamp 6 255 (getF s Reg.ALLOC_TIMING_PROBE_T) * 10000000 ≤ s.sys.usec - x.learnedAt) &&
      decide (x.learned ≤ measured false x + 5) && x.imp.held == 0))

/-- Channel `c` in a direction. -/
def askOf (export_ : Bool) (c : Nat) (s : State) : Ask :=
  let x := chanAt c s
  let f := if export_ then x.exp else x.imp
  let now := s.sys.usec
  let (phases, k) := chanPhases c s
  let cap := if x.pause then 0 else wantCap f x (min 800 (getF s (Reg.ALLOC_CH_CFG_CEIL c)))
  let want := if x.learned ≠ 0 then min cap x.learned else cap
  let step := clamp 5 100 (getF s Reg.ALLOC_LEARN_PROBE_STEP)
  let m := measured export_ x
  let excess := if f.grant < m then m else 0
  let silent := max (max f.grant f.held) (fallbackNow s)
  { c := c, phases := phases, k := k, flow := f, answered := x.answered, want := want
    probe := if !export_ && probeApplies x s then some (min cap (x.learned + step)) else none
    reserved := if x.answered then max f.held excess else if export_ then 0 else silent
    committed := if x.answered then max (max f.grant f.held) m else if export_ then 0 else silent
    recent := (x.runAt.map fun t => decide (now - t < clamp 1 120 (getF s Reg.ALLOC_TIMING_MIN_RUN) * 60000000)).getD false
    prio := getF s (Reg.ALLOC_CH_CFG_PRIO c)
    waited := if f.grant = 0 then now - f.zeroAt else 0
    barred := (f.pausedAt.map fun t => decide (now - t < clamp 1 60 (getF s Reg.ALLOC_TIMING_MIN_PAUSE) * 60000000)).getD false }

/-- The admission order (R290). -/
def Ask.before (a b : Ask) : Bool :=
  if a.recent ≠ b.recent then a.recent
  else if a.prio ≠ b.prio then b.prio < a.prio
  else if a.waited ≠ b.waited then b.waited < a.waited
  else a.c < b.c

/-- Puts a channel into its place of the admission order. -/
def insertAsk (a : Ask) : List Ask → List Ask
  | [] => [a]
  | b :: bs => if a.before b then a :: b :: bs else b :: insertAsk a bs

/-- Admission at 6.0 A: a channel's own reservation counts for it (R289, R290). -/
def admission : List Ask → Pool → List Ask × Pool
  | [], p => ([], p)
  | a :: as, p =>
    if !a.answered ∨ a.want < 60 then let r := admission as p; (a :: r.1, r.2)
    else
      let need := 60 - min 60 a.reserved
      if !a.barred ∧ p.fits a.phases a.k need then
        let r := admission as (p.take a.phases a.k need)
        ({ a with admitted := true, level := 60, frozen := decide (a.want ≤ 60) } :: r.1, r.2)
      else let r := admission as p; (a :: r.1, r.2)

/-- The next 0.1 A of a channel needs room: its own reservation is used up. -/
def Ask.draws (a : Ask) : Bool := !a.frozen && decide (a.reserved ≤ a.level)

/-- Freezes the channels that would draw on phase `q`, when they do not all fit (R291). -/
def freezePhase (p : Pool) (as : List Ask) (q : Nat) : List Ask :=
  let on (a : Ask) : Bool := a.draws && a.phases.contains q
  if p.room.getD q 0 < (as.filter on).length then as.map fun a => if on a then { a with frozen := true } else a else as

/-- One round of the fill: none when every channel is frozen (R291). -/
def fillStep (as : List Ask) (p : Pool) : Option (List Ask × Pool) :=
  let as := [0, 1, 2].foldl (freezePhase p) as
  let cost := (as.filter Ask.draws).foldl (fun n a => n + a.k) 0
  let as := if p.budget < cost then as.map fun a => { a with frozen := true } else as
  if as.all (·.frozen) then none
  else
    let p := (as.filter Ask.draws).foldl (fun p a => p.take a.phases a.k 1) p
    let raise (a : Ask) : Ask :=
      if a.frozen then a else { a with level := a.level + 1, frozen := decide (a.want ≤ a.level + 1) }
    some (as.map raise, p)

/-- The fill (R291): a channel rises at most from 6.0 A to 80.0 A. -/
def fill : Nat → List Ask → Pool → List Ask
  | 0, as, _ => as
  | n + 1, as, p => match fillStep as p with | some (as', p') => fill n as' p' | none => as

/-- The target of a channel: what the fill gave, raised where a probe applies (R291, R294). -/
def Ask.target (a : Ask) : Nat :=
  if !a.admitted then 0
  else match a.probe with | some w => if a.want ≤ a.level then max a.level w else a.level | none => a.level

/-- The grant published for a channel, and the room after it (R292). -/
def grantOf (deficit : Bool) (a : Ask) (p : Pool) : Nat × Pool :=
  let g := a.flow.grant
  if !a.answered then (g, p)
  else if a.target ≤ g then (a.target, p)
  else if deficit then (g, p)
  else
    let x := min (a.target - g) (p.left a.phases a.k)
    if g = 0 ∧ x < 60 then (0, p) else (g + x, p.take a.phases a.k x)

/-- The grants of the channels, in admission order. -/
def publishAll (deficit : Bool) : List Ask → Pool → List (Ask × Nat)
  | [], _ => []
  | a :: as, p => let r := grantOf deficit a p; (a, r.1) :: publishAll deficit as r.2

/-- Reservations exceed a phase or B. -/
def exceeds (p : Pool) (rs : List (List Nat × Nat × Nat)) : Bool :=
  ([0, 1, 2].any fun q => decide (p.room.getD q 0 < (rs.filter fun r => r.1.contains q).foldl (fun n r => n + r.2.2) 0)) ||
  decide (p.budget < rs.foldl (fun n r => n + r.2.1 * r.2.2) 0)

/-- Takes reservations from a pool. -/
def reserve (rs : List (List Nat × Nat × Nat)) (p : Pool) : Pool := rs.foldl (fun p r => p.take r.1 r.2.1 r.2.2) p

/-- A flow after the run: a lowered grant is held, a new pause and a new 0 are timed (R290, R292). -/
def Flow.after (a : Ask) (g now : Nat) : Flow :=
  let f := a.flow
  if !a.answered then { f with want := a.want }
  else
    let paused := decide (60 ≤ a.want) && a.target == 0
    { f with
      grant := g, want := a.want, held := if g < f.grant then max f.held f.grant else f.held, paused := paused
      pausedAt := if paused ∧ !f.paused then some now else f.pausedAt
      zeroAt := if g = 0 ∧ f.grant ≠ 0 then now else f.zeroAt }

/-- What a direction of a run comes to. -/
structure RunResult where
  grants : List (Ask × Nat)
  deficit : Bool
  /-- Phases, k and amount of every committed use. -/
  used : List (List Nat × Nat × Nat)

/-- One direction of a run over the pool and the reservations `extra` of channels that leave (R289 to R292). -/
def runFlow (asks : List Ask) (extra : List (List Nat × Nat × Nat)) (p : Pool) : RunResult :=
  let asks := asks.foldl (fun as a => insertAsk a as) []
  let rs := asks.map (fun a => (a.phases, a.k, a.reserved)) ++ extra
  let deficit := exceeds p rs
  let (as, left) := admission asks (reserve rs p)
  let as := fill 741 as left
  let cs := as.map (fun a => (a.phases, a.k, a.committed)) ++ extra
  let grants := publishAll deficit as (reserve cs p)
  { grants := grants, deficit := deficit
    used := grants.map (fun g => (g.1.phases, g.1.k, max g.2 g.1.committed)) ++ extra }

/-- The committed use kept of channels that have left (R301). -/
def leavingUse (s : State) : List (List Nat × Nat × Nat) :=
  (List.range 256).filterMap fun c =>
    let x := chanAt c s
    if x.leaving = 0 then none else some (maskPhases x.phases.toNat, (maskPhases x.phases.toNat).length, x.leaving)

/-- The bits of a list of phases. -/
def phaseBits (ps : List Nat) : BitVec 3 := BitVec.ofNat 3 (ps.foldl (fun n q => n ||| 2 ^ q) 0)

/-- Writes the import results back, channel by channel; a probe that raised the grant starts (R294). -/
def putImport (r : Ask × Nat) (s : State) : State :=
  let (a, g) := r
  let n := clamp 2 32 (getF s Reg.ALLOC_LEARN_LEARN_N)
  modChan a.c (fun x =>
    let starts := a.probe.isSome && x.probe.isNone && a.answered && decide (x.learned < g)
    { x with imp := Flow.after a g s.sys.usec, reserved := !a.answered, phases := phaseBits a.phases
             probe := if starts then some n else x.probe, learnedAt := if starts then s.sys.usec else x.learnedAt }) s

/-- Writes the export results back. -/
def putExport (r : Ask × Nat) (s : State) : State :=
  modChan r.1.c (fun x => { x with exp := Flow.after r.1 r.2 s.sys.usec }) s

/-- Channel 0 is read locally (R284). -/
def readOwn (s : State) : State :=
  if hubOutlet s then
    let a := answerAmps s
    chanAnswer 0 (a.1.map (·.toNat)) a.2 (evRequest s) (bothClosed s) s
  else s

/-- ALLOC requests that waited for the run are answered: a head's in REPLY of its poll, channel 0's at once (R296). -/
def answerRequests (s : State) : State :=
  let s := (registered s).foldl (fun s c =>
    match (nodeAt c s).allocWait with
    | none => s
    | some dir =>
      let g := if dir = 0 then (chanAt c s).imp.grant else (chanAt c s).exp.grant
      modNode c (fun n => { n with allocWait := none, replies := n.replies ++ [(2, g)] }) s) s
  match s.alloc.ownReq with
  | none => s
  | some id =>
    let g := if s.alloc.ownDir = 0 then (chanAt 0 s).imp.grant else (chanAt 0 s).exp.grant
    (finishCall id (BitVec.ofNat 32 g) [] s).updAlloc fun a => { a with ownReq := none }

/-- What the run shows in its registers. -/
def showRun (imp : RunResult) (heads : List Nat) (budget : Nat) (s : State) : State :=
  let used (q : Nat) : Nat := (imp.used.filter fun r => r.1.contains q).foldl (fun n r => n + r.2.2) 0
  let total := imp.used.foldl (fun n r => n + r.2.1 * r.2.2) 0
  let paused := (imp.grants.filter fun g => g.1.answered && decide (60 ≤ g.1.want) && g.1.target == 0).length
  let s := [0, 1, 2].foldl (fun s q =>
    s |> setF (Reg.ALLOC_PHASE_HEADROOM q) (heads.getD q 0) |> setF (Reg.ALLOC_PHASE_USED q) (min 0xFFFF (used q))) s
  s |> setF Reg.ALLOC_BUDGET_VALUE budget |> setF Reg.ALLOC_BUDGET_USED_VALUE total
    |> setB Reg.ALLOC_STATUS_DEFICIT imp.deficit |> setF Reg.ALLOC_STATUS_PAUSED paused
    |> setF Reg.ALLOC_STATUS_ROUND s.link.roundCtr

/-- The allocation run (R284 to R298). -/
def allocRun (s : State) : State :=
  let s := s |> readOwn |> (fun s => setF Reg.ALLOC_SAFE_FALLBACK (fallbackNow s) s)
  let cs := outletChannels s
  let heads := [headroom s 0, headroom s 1, headroom s 2]
  let b := importBudget s
  let imp := runFlow (cs.map fun c => askOf false c s) (leavingUse s) ⟨heads, b⟩
  let lim := getF s Reg.ALLOC_EXPORT_LIM_LIMIT
  let exp := runFlow (cs.map fun c => askOf true c s) [] ⟨[lim, lim, lim], exportBudget s⟩
  let s := imp.grants.foldl (fun s r => putImport r s) s
  let s := exp.grants.foldl (fun s r => putExport r s) s
  s |> showRun imp heads b |> answerRequests
    |> (fun s => s.updLink fun l => { l with ran := true })
    |> raiseFw 0x25 (s.link.roundCtr % 16384) |> ringOut 4 0 |> lowerToGrant

/-- The hub's firmware runs its site: HUB in service, no service pause. -/
def hubRuns (s : State) : Bool :=
  s.sys.role == .hub && inService s.sys.mode && s.sys.booted && !s.sys.pause && !s.sys.takeover && domainOn 4 s

/-- ALLOCATION_RUN: due after the last poll of a round (01 R14). -/
def execAllocationRun (s : State) : Out :=
  .next (if hubRuns s ∧ s.link.todo = [] ∧ !s.link.ran then allocRun s else s)

/-! ## The host's limit and the inputs' age (R285, R299, R301) -/

/-- INPUT_STALE: no dynamic input for INPUT_TMO seconds (R285). -/
def execInputStale (s : State) : Out := .next (if domainOn 4 s then setF Reg.ALLOC_STATUS_STALE 1 s else s)

/-- SA_TIMEOUT: SA_TMO, not 0, has passed without a write of ALLOC_SA (R299). -/
def execSaTimeout (s : State) : Out :=
  .next (if domainOn 4 s ∧ getF s Reg.ALLOC_SA_DEF_SA_TMO ≠ 0 then s |> setF Reg.ALLOC_SA_WRITTEN 0 |> lowerToGrant else s)

/-- A write of ALLOC_SA: the limits, WRITTEN, and the release it ends (R299). -/
def writeSa (imp exp : Nat) (s : State) : State :=
  (s |> setF Reg.ALLOC_SA_IMPORT (min 800 imp) |> setF Reg.ALLOC_SA_EXPORT (min 800 exp) |> setF Reg.ALLOC_SA_WRITTEN 1).updAlloc
    (fun a => { a with released := false }) |> lowerToGrant |> noteSetting Reg.ALLOC_SA_IMPORT.addr s

/-- ALLOC_SA: the host writes the limit (R299). -/
def execAllocSa (imp exp : BitVec 14) (s : State) : Out :=
  .next (hostTo Reg.ALLOC_SA_IMPORT.addr (fun s => (statusOk, writeSa imp.toNat exp.toNat s)) s)

/-- REMOVE_RESERVE_END: 10 s after a removal the committed use is freed (R301). -/
def execRemoveReserveEnd (channel : BitVec 8) (s : State) : Out :=
  .next (if s.sys.role = .hub ∧ domainOn 4 s then modChan channel.toNat (fun x => { x with leaving := 0 }) s else s)

end Sys2Proof.Machine
end

