-- ==== Sys2Proof/Machine/SiteHub.lean ====
section
/-! DEFINITION. The site link at the hub: the round, polls and answers, the retry, deliveries, foreign records, requests of
the nodes, join requests (12 R261 to R283, 11 R237, R243, 13 R296 to R302). -/
namespace Sys2Proof.Machine

/-! ## Deliveries (R273 to R277) -/

/-- CHUNKS of an object: the descriptor and its data, or the notice itself. -/
def Pub.chunks (p : Pub) : Nat := if p.kind = 4 then 1 else 1 + (p.bytes.length + 1023) / 1024

/-- The parent of a node: the end before it on its lead, none for the hub. -/
def parentOf (c : Nat) (s : State) : Option Nat := (nodeAt c s).lead.dropLast.getLast?

/-- What a node needs next of an object, or none when it needs nothing more. -/
def needOf (p : Pub) (c : Nat) (s : State) : Option Nat :=
  let n := nodeAt c s
  let k := if n.delivId = p.id then n.delivNext else 0
  if p.done.contains c ∨ p.chunks ≤ k then none else some k

/-- The children of a sender that lead to a member not yet complete, and what they need. -/
def childNeeds (p : Pub) (sender : Option Nat) (s : State) : List Nat :=
  let wanting := p.members.filter fun m => !p.done.contains m
  (registered s).filterMap fun c =>
    if parentOf c s = sender ∧ (nodeAt c s).lead ≠ [] ∧ wanting.any (fun m => (nodeAt m s).lead.contains c) then needOf p c s
    else none

/-- The duty of a sender whose pointer is `ptr` and that holds `held` chunks: again while a child needs the chunk at the
pointer, from the start when one needs an earlier chunk, else the next (R274). -/
def dutyOf (ptr : Int) (held : Nat) (needs : List Nat) : Nat :=
  if needs = [] ∨ held = 0 then 0
  else if needs.any (fun n => (n : Int) = ptr) then 2
  else if needs.any (fun n => (n : Int) < ptr) then 3
  else if ptr + 1 < (held : Int) then 1 else 0

/-- The pointer after a duty (R274). -/
def movePtr (duty : Nat) (ptr : Int) : Int := if duty = 1 then ptr + 1 else if duty = 3 then 0 else ptr

/-- The duty that the next poll to `c` carries: none in the last window's absence, and none for an INERT node (R275,
R277). -/
def pollDuty (c : Nat) (s : State) : Nat :=
  match s.link.pubs with
  | [] => 0
  | p :: _ =>
    let n := nodeAt c s
    if s.link.passLeft = 0 ∨ n.inert ∨ n.delivId ≠ p.id then 0
    else dutyOf n.ptr (if p.done.contains c then p.chunks else min n.delivNext p.chunks) (childNeeds p (some c) s)

/-- The hub's signature with its site key, which ECC0 derives under knot 3 (R273, 16 R347; DESIGN CHOICE: label "SITE"). -/
def hubSigns (msg : List Byte) (s : State) : List Byte × State :=
  let key := (workingKey 3 [0x53, 0x49, 0x54, 0x45] engEcc0 false s).key
  ((Config.ecdsaSign key msg s.sys.freeCtr ++ List.replicate 64 0).take 64, s.updSys fun y => { y with freeCtr := y.freeCtr + 1 })

/-- The parent table of an object: parent, whether it is the hub, member (R273). -/
def parentTable (p : Pub) (s : State) : List Byte :=
  (List.range 256).flatMap fun c =>
    let e := match parentOf c s with
      | some q => q
      | none => 256 * ofBool (nodeAt c s).reg
    leBytes (e + 512 * ofBool (p.members.contains c)) 2

/-- The 16 bytes of the owning chapter: of a delta BASE_SEQ, NEW_SEQ, PART, PARTS and FLAGS (14 R320); a calendar has none. -/
def ownerBytes (p : Pub) : List Byte :=
  if p.kind = 2 then (p.bytes.drop 12).take 12 ++ (p.bytes.drop 6).take 2 ++ [0, 0] else List.replicate 16 0

/-- The data of chunk `k` that the hub sends of an object (R272, R273). -/
def pubChunk (p : Pub) (k : Nat) (s : State) : List Byte × State :=
  if p.kind = 4 then
    let (sig, s) := hubSigns p.bytes s
    (p.bytes ++ sig, s)
  else if k = 0 then
    let body := leBytes p.kind 1 ++ leBytes p.bytes.length 4 ++ beBytes (Config.sha256 p.bytes).toNat 32 ++ parentTable p s ++
      ownerBytes p
    let (sig, s) := hubSigns body s
    (body ++ sig, s)
  else ((p.bytes.drop ((k - 1) * 1024)).take 1024, s)

/-- The hub opens a window of its own: what it sends of the first delivery (R274, R275), at DBPSK (DESIGN CHOICE: the manual
names no modulation for a frame that several nodes hear). -/
def hubWindow (s : State) : State :=
  match s.link.pubs with
  | [] => s
  | p :: ps =>
    let d := dutyOf p.ptr p.chunks (childNeeds p none s)
    if s.link.passLeft = 0 ∨ d = 0 then s
    else
      let k := movePtr d p.ptr
      let s := s.updLink fun l => { l with pubs := { p with ptr := k } :: ps, passLeft := l.passLeft - 1 }
      let (data, s) := pubChunk p k.toNat s
      transmit (chunkTx (chunkMessage p.kind 0 p.id k.toNat p.chunks data) 1) s

/-- CHUNK: heard by a node; or the own window of a node or of the hub. -/
def execChunk (heard : Option ChunkFrame) (s : State) : Out :=
  .next (
    if !domainOn 4 s then s
    else match heard with
    | some f => if isNode s then hearChunk f s else s
    | none => if isNode s then ownWindow s else if hubRuns s then hubWindow s else s)

/-- The parts of a full series of the hub's own directory (14 R322, R323). -/
def seriesParts (s : State) : List (List Byte) :=
  let es := s.rd.dir.map (·.2)
  let n := (es.length + 14561) / 14562
  (List.range n).map fun i =>
    let ops := ((es.drop (14562 * i)).take 14562).map fun e => ({ delete := false, entry := e } : DirOp)
    deltaBytes true (decide (i + 1 = n)) (i + 1) n (s.rd.seq - 1) s.rd.seq ops

/-- DIR_RESYNC marks a channel, or is cleared for it. -/
def markResync (c : Nat) (on : Bool) (s : State) : State :=
  let f := Reg.DIR_RESYNC_CHANNELS (c / 32)
  let v := getF s f
  setF f (if on then v ||| 2 ^ (c % 32) else if v.testBit (c % 32) then v - 2 ^ (c % 32) else v) s

/-- A channel is marked: its full series is on its way. -/
def resyncs (c : Nat) (s : State) : Bool := (getF s (Reg.DIR_RESYNC_CHANNELS (c / 32))).testBit (c % 32)

/-- A full series for one head; with nothing in the directory there is none to send. -/
def publishSeries (c : Nat) (s : State) : State :=
  (seriesParts s).foldl (fun s b => publish 2 b [c] false s) (if s.rd.dir = [] then s else markResync c true s)

/-- The first delivery ends when every member is complete (R277); the last part of a series clears DIR_RESYNC. -/
def endDelivery (s : State) : State :=
  match s.link.pubs with
  | [] => s
  | p :: ps =>
    if p.members.all (p.done.contains ·) then
      let s := s.updLink fun l => { l with pubs := ps, nodes := l.nodes.map fun n => { n with ptr := -1 } }
      match p.members with
      | [c] => if p.kind = 2 ∧ (fieldOf p.bytes 6 2).testBit 1 then markResync c false s else s
      | _ => s
    else s

/-- DELIV of an answer (R277, 14 R323). -/
def takeDeliv (c id next : Nat) (s : State) : State :=
  let s := modNode c (fun n => { n with delivId := id, delivNext := next }) s
  match s.link.pubs with
  | [] => s
  | p :: ps =>
    if p.id ≠ id then s
    else
      let series := p.kind = 2 ∧ next = 0xFFFF
      if (series ∨ next = p.chunks) ∧ p.members.contains c ∧ !p.done.contains c then
        let s := s.updLink fun l => { l with pubs := { p with done := c :: p.done } :: ps }
        endDelivery (if series ∧ !resyncs c s then publishSeries c s else s)
      else s

/-- The records waiting become the next notice object, ahead of other objects (R272). -/
def publishNotice (s : State) : State :=
  if s.link.notices = [] then s
  else
    let bytes := s.link.notices.flatMap fun r => leBytes r.length 1 ++ r
    (publish 4 bytes (registered s) true s).updLink fun l => { l with notices := [] }

/-! ## The poll that the hub sends (R258, R263, R296) -/

/-- VAR: the credit of the account for a prepayment session, and with a CONFIRM that opens one; else the wall clock. -/
def varFor (c : Nat) (s : State) : Nat :=
  let n := nodeAt c s
  let confirms := (n.replies.head?.map fun r => r.1 == 1 && r.2 == rcOk).getD false
  match n.account with
  | some k => if n.prepay || confirms then signed32 (accountAt k s).credit else wallClock s
  | none => wallClock s

/-- ZC: the time since the last VA rising zero crossing, with a valid frequency and a stamp that is not stale (R258). -/
def pollZc (s : State) : Option (BitVec 15) :=
  let z := (s.sys.usec + 2 ^ 32 - stampNow 0 s) % 2 ^ 32
  if getF s Reg.MET_FREQ_W_FREQ = 0 ∨ stampNow 0 s = 0 ∨ 32768 ≤ z then none else some (BitVec.ofNat 15 z)

/-- The poll to node `c`: a retry one modulation step more robust, without a duty (R258, R263, R275). -/
def pollFor (c : Nat) (retry : Bool) (duty : Nat) (s : State) : PollFrame :=
  let n := nodeAt c s
  let m := if s.link.hawser.contains c then 0 else n.modulation
  let reply := n.replies.headD (0, 0)
  let x := chanAt c s
  let f : PollFrame := {
    round := BitVec.ofNat 32 s.link.roundCtr, retry := retry, hops := BitVec.ofNat 4 n.lead.length
    route := n.lead.map (BitVec.ofNat 8 ·), modulation := BitVec.ofNat 2 (if retry then m - 1 else m), zc := pollZc s
    clock16 := BitVec.ofNat 16 (wallClock s), grantImp := BitVec.ofNat 14 x.imp.grant, grantExp := BitVec.ofNat 14 x.exp.grant
    ack := BitVec.ofNat 4 n.ack, fallback := BitVec.ofNat 14 (siteFallback s), var := BitVec.ofNat 32 (varFor c s)
    replyKind := BitVec.ofNat 2 reply.1, replyValue := BitVec.ofNat 14 reply.2, duty := BitVec.ofNat 2 duty, coSend := false
    joinOpen := getB s Reg.LNK_JOIN_OPEN, tag := 0 }
  { f with tag := pollTagUnder (hubLinkKey c s) f }

/-- The frame of a poll: on the first hop of the lead, with that hop's map. -/
def pollTx (c : Nat) (f : PollFrame) (s : State) : TxFrame :=
  let first := (nodeAt c s).lead.headD c
  { kind := 0, modulation := f.modulation.toNat, tones := ((hopOf hubEnd first s).bind (·.tones)).getD allCarriers
    message := pollMessage (hubLinkKey c s) f }

/-- The lead of every node that holds a suspect hop is chosen again; that of a node already polled counts in the next round
(R268, R282). -/
def mendLeads (s : State) : State :=
  (registered s).foldl (fun s c =>
    if (hopsOf hubEnd (nodeAt c s).lead).any (s.link.suspect.contains ·) then chooseLead c s else s) s

/-- The link key of channel `c` as a working key in AES1 (16 R345, R353). -/
def linkWork (c : Nat) (s : State) : WorkKey :=
  { parent := 3, epoch := ((knotAt 3 s).map (·.epoch)).getD 0, lineage := [3, 0], label := [0x4C, 0x49, 0x4E, 0x4B]
    engine := engAes1, wide := false, key := beNat (hubLinkKey c s) }

/-- The hub's slot of an exchange is let go of (16 R345). -/
def dropLinkSlot (s : State) : State :=
  match s.link.linkSlot with
  | some i => firmwareLetsGo i (s.updLink fun l => { l with linkSlot := none })
  | none => s

/-- The hub derives the link key of an exchange into a slot. -/
def takeLinkSlot (c : Nat) (s : State) : State :=
  match place (linkWork c s) (dropLinkSlot s) with
  | (some i, s) => (modSlot i (fun x => { x with firmware := true }) s).updLink fun l => { l with linkSlot := some i }
  | (none, s) => s

/-- The hub sends the poll of an exchange with the first node still to poll (R261, R268). -/
def sendPoll (retry : Bool) (s : State) : State :=
  match s.link.todo with
  | [] => (dropLinkSlot s).updLink fun l => { l with poll := none, ran := false }
  | c :: _ =>
    let s := if retry then s else s |> mendLeads |> takeLinkSlot c
    let duty := if retry then 0 else pollDuty c s
    let f := pollFor c retry duty s
    (s.updLink fun l => { l with
      poll := some f, retrying := retry, passDuty := duty, passLeft := if duty = 0 then l.passLeft else l.passLeft - 1 })
      |> transmit (pollTx c f s)

/-! ## The start of a round (R13, R265 to R267) -/

/-- The nodes of a round in their order: those missed in the last one first; dormant ones only every 16th (01 R13, R265).
The mark of a round goes with it: a node that this round does not poll loses it. -/
def roundOrder (ctr : Nat) (s : State) : List Nat :=
  let cs := (registered s).filter fun c => !(nodeAt c s).dormant || ctr % 16 == 0
  cs.filter (fun c => (nodeAt c s).missed) ++ cs.filter fun c => !(nodeAt c s).missed

/-- A registered head that has answered has no lead whose hops all keep the carrier minimum (01 R15). -/
def carrierLow (s : State) : Bool :=
  let p := planOf s
  let ok := s.link.table.filter fun h => h.tones.any fun t => decide (p.fewest ≤ carriersOf p t)
  let paths := pathsAt p 0 (mayRelay s) ok
  (registered s).any fun c => !(nodeAt c s).repeater && (nodeAt c s).seen != 0 && (mapGet? paths c).isNone

/-- ROUND_START: the next round. -/
def roundStart (s : State) : State :=
  let ctr := (s.link.roundCtr + 1) % 2 ^ 32
  let now := s.sys.usec
  let ms := (s.link.roundAt.map fun t => min 0xFFFF ((now - t) / 1000)).getD 0
  let s := boundary Reg.LNK_PASS_N_PASS s
  let order := roundOrder ctr s
  let hawser := order.filter fun c => (nodeAt c s).missed
  let s := s.updLink fun l => { l with
    roundCtr := ctr, roundAt := some now, passLeft := inForce s Reg.LNK_PASS_N_PASS, suspect := [], todo := order
    hawser := hawser, nodes := l.nodes.mapIdx fun c n => { n with missed := n.missed && order.contains c }
    table := l.table.filter fun h => ctr ≤ h.round + 64 }
  let s := setF Reg.LNK_RTIME_MS ms s
  let s := s.updAlloc fun a => { a with ch := a.ch.map fun x => { x with answered := false } }
  let s := (registered s).foldl (fun s c => chooseLead c s) s
  let s := if carrierLow s then setHealth 5 s else s
  s |> publishNotice |> sendPoll false

/-- ROUND_START: no round is under way and its allocation has run. -/
def execRoundStart (s : State) : Out :=
  .next (if hubRuns s ∧ s.link.todo = [] ∧ s.link.ran then roundStart s else s)

/-! ## A failed exchange (R13, R263, R265, R268) -/

/-- The next exchange of the round, or its allocation run. -/
def nextExchange (s : State) : State :=
  sendPoll false (s.updLink fun l => { l with todo := l.todo.tail, retrying := false })

/-- A node is marked missed: its hops become suspect, and every hop that touches a relay (R268). -/
def markMissed (c : Nat) (s : State) : State :=
  let n := nodeAt c s
  let run := satInc 255 n.missRun
  let relay := (registered s).any fun d => (nodeAt d s).lead.dropLast.contains c
  let touch := s.link.table.filterMap fun h => if h.a = c ∨ h.b = c then some (h.a, h.b) else none
  let s := modNode c (fun n => { n with missed := true, missRun := run, dormant := n.dormant || decide (16 ≤ run) }) s
  let s := incF Reg.LNK_COUNT_MISSES s
  s.updLink fun l => { l with suspect := l.suspect ++ hopsOf hubEnd n.lead ++ if relay then touch else [] }

/-- EXCHANGE_FAIL: retried once at once, or missed (R13). -/
def exchangeFail (why : FailCause) (s : State) : State :=
  match s.link.todo with
  | [] => s
  | c :: _ =>
    let s := match why with
      | .tag => linkViolation 1 c (s.link.roundCtr % 16384) s
      | .header => linkViolation 3 c (s.link.roundCtr % 16384) s
      | _ => s
    if s.link.retrying then s |> markMissed c |> nextExchange
    else s |> incF Reg.LNK_COUNT_RETRIES |> sendPoll true

def execExchangeFail (why : FailCause) (s : State) : Out := .next (if hubRuns s then exchangeFail why s else s)

/-! ## Join requests (R279, R280) -/

/-- The channel of a registered identifier. -/
def channelOf (ident : BitVec 64) (s : State) : Option Nat := (registered s).find? fun c => (nodeAt c s).ident == ident

/-- The lowest free channel; channel 0 is never given while it is the hub's outlet. -/
def freeChannel (s : State) : Option Nat :=
  (List.range 256).find? fun c => !(nodeAt c s).reg && !(c == 0 && hubOutlet s)

/-- The hub sends join frames to one module, along its sponsor's lead and one hop (R280). -/
def sendJoin (ident : BitVec 64) (fs : List JoinFrame) (s : State) : State :=
  s.updLink fun l => { l with joinSent := (fs.map fun f => (ident, f)).reverse ++ l.joinSent.filter fun x => x.1 == ident }

/-- The hub's site public key (16 R353). -/
def sitePublic (s : State) : List Byte :=
  Config.publicKey false (workingKey 3 [0x53, 0x49, 0x54, 0x45] engEcc0 false s).key

/-- A join request reaches the hub (R279, R280): the result with the channel offered goes out, and pairing begins with the
hub's ephemeral key. While another pairing runs it is not taken up. -/
def joinHeard (ident : BitVec 64) (repeater : Bool) (snr sponsor : Nat) (s : State) : State :=
  if s.link.pairing.isSome then s
  else
    let again := channelOf ident s
    let s := match again with | some c => linkViolation 8 c c s | none => s
    let ch := again.or (freeChannel s)
    let s := s |> raiseFw 0x27 (ch.getD 0x3FFF) |> ringOut 4 1
    let req : JoinReq := { ident := ident, repeater := repeater, snr := snr, sponsor := sponsor, channel := ch, again := again.isSome }
    match ch with
    | none => (s.updLink fun l => { l with joinReq := some req }) |> sendJoin ident [.full (BitVec.ofNat 14 (siteFallback s))]
    | some c =>
      let (e, s) := freeWide s
      let eph := e.toNat % (orderP256 - 1) + 1
      let p : Pairing := { channel := c, ident := ident, repeater := repeater, eph := eph, sponsor := sponsor, snr := snr }
      (s.updLink fun l => { l with joinReq := some req, pairing := some p }) |> sendJoin ident
        [.joined (BitVec.ofNat 8 c) (BitVec.ofNat 14 (siteFallback s)), .hubKey (Config.publicKey false eph) (sitePublic s) true]

/-! ## What a node sends up (R271, 11 R243) -/

/-- A foreign record enters the ring: verbatim with TYPE bit 7 set, in the hub's own chain, without taking a SEQ. -/
def foreignRecord (bs : List Byte) (s : State) : State :=
  let bytes := match bs with | t :: rest => (t ||| 0x80) :: rest | [] => []
  let r := ringPut bytes s
  let s := r.2.updLed fun l => { l with
    prevChain := l.chain, chain := Config.sha256 (beBytes l.chain.toNat 32 ++ bytes), unsealed := l.unsealed + 1 }
  let s := recordsLost r.1 s
  if 256 ≤ s.led.unsealed then writeSeal s else s

/-- A SEAL of channel `c` arrives: the records it covers are stored; a signature that fails is noted (R243). -/
def foreignSeal (c : Nat) (bs : List Byte) (s : State) : State :=
  let n := nodeAt c s
  let ok := Config.ecdsaVerify n.ledgerKey (bs.take 0x60) ((bs.drop 0x60).take 64)
  let s := n.recs.foldl (fun s r => foreignRecord r s) (modNode c (fun n => { n with recs := [] }) s)
  if ok then s
  else
    let seqs := n.recs.map fun r => fieldOf r 4 4
    s |> setF Reg.LED_STATUS_UNVERIFIED 1 |> writeEvent 0x0F c (seqs.headD 0) (seqs.getLastD 0) 0
      |> logViolationAs 6 4 c (seqs.headD 0)

/-- What has been reassembled of a kind from channel `c` is complete. -/
def upComplete (c kind : Nat) (bs : List Byte) (s : State) : State :=
  if kind = 1 then
    if (bs.headD 0) = 0x0F then foreignSeal c bs s else modNode c (fun n => { n with recs := n.recs ++ [bs] }) s
  else if kind = 2 then siteRecord c 0 bs s
  else joinHeard (BitVec.ofNat 64 (fieldOf bs 0 8)) (fieldOf bs 8 1 == 1) (fieldOf bs 9 1) c s

/-- The slot of an answer: taken in order, acknowledged in the next poll; a ledger record waits for room in the store. -/
def takeSlot (c ctrl : Nat) (bs : List Byte) (s : State) : State :=
  let (seq, kind, last) := (bits ctrl 0 4, bits ctrl 4 4, ctrl.testBit 8)
  let n := nodeAt c s
  if kind = 0 ∨ 3 < kind ∨ seq ≠ (n.ack + 1) % 16 ∨ (kind = 1 ∧ last ∧ (storeWorn s ∨ s.led.backlog ≠ [])) then s
  else
    let k : Fin 3 := Fin.ofNat 3 (kind - 1)
    let whole := n.asm.get k ++ bs
    let s := modNode c (fun n => { n with ack := seq, asm := n.asm.set k.val (if last then [] else whole) k.isLt }) s
    if last then upComplete c kind whole s else s

/-- COST: the account is debited by the increase; a lower value is a violation and debits nothing (11 R237, R249). -/
def takeCost (c : Nat) (prepay : Bool) (cost : Int) (s : State) : State :=
  let n := nodeAt c s
  let s := modNode c (fun n => { n with prepay := prepay, cost := if prepay then cost else 0 }) s
  if !prepay then s
  else if cost < n.cost then (linkViolation 7 c (signed32 cost) s) |> modNode c fun m => { m with cost := n.cost }
  else match n.account with
  | some k => modAccount k (fun a => { a with b := a.b - (cost - n.cost) }) s
  | none => s

/-! ## Requests (R270, 13 R296, R300, R302) -/

/-- Adds a reply for the next polls of `c`. -/
def addReply (kind value c : Nat) (s : State) : State := modNode c (fun n => { n with replies := n.replies ++ [(kind, value)] }) s

/-- A reply of a kind waits. -/
def replyWaits (kind c : Nat) (s : State) : Bool := (nodeAt c s).replies.any fun r => r.1 == kind

/-- A REQ of an undefined kind, or out of range: answered with SVC_ARG (R270, violation 4). -/
def badRequest (kind c : Nat) (s : State) : State :=
  s |> linkViolation 4 c kind |> addReply (kind % 4) (if kind % 4 = 2 then 0x3F00 + rcArg else rcArg) c

/-- CONFIRM: the hub looks the UID up in its own directory. -/
def takeConfirm (req : List Byte) (c : Nat) (s : State) : State :=
  let (flags, len) := (fieldOf req 0 1, fieldOf req 1 1)
  if replyWaits 1 c s then s
  else if 0x40 ≤ flags ∨ (len ≠ 4 ∧ len ≠ 7) then badRequest 1 c s
  else match lookup ((req.drop 2).take len) s with
  | (none, s) => addReply 1 rcMiss c s
  | (some k, s) => match dirAt k s with
    | none => addReply 1 rcMiss c s
    | some e =>
      let code := confirmCode (flags.testBit 4) (flags.testBit 5) e s
      let s := addReply 1 code c s
      if code = rcOk then modNode c (fun n => { n with account := if e.prepay then some e.account else none }) s else s

/-- ALLOC: a release, or a standing request that waits for the run; a mask that names phases a single-phase head lacks is
reduced to its phase 0 (13 R302). -/
def takeAlloc (req : List Byte) (c : Nat) (s : State) : State :=
  let (cur, mask, dir) := (fieldOf req 1 2, fieldOf req 3 1, fieldOf req 4 1)
  let n := nodeAt c s
  if cur = 0 then
    if n.replies.contains (2, 0) then s
    else (releaseChannel c s.sys.usec s) |> modNode c fun n =>
      { n with allocWait := none, replies := (n.replies.filter fun r => r.1 != 2) ++ [(2, 0)] }
  else if n.allocWait.isSome ∨ replyWaits 2 c s then s
  else if !requestOk cur mask dir then badRequest 2 c s
  else
    let lacks := !n.three && mask != 1
    let s := if lacks then allocViolation 3 c mask s else s
    s |> newRequest cur (if lacks then 1 else mask) dir c |> modNode c fun n => { n with allocWait := some dir }

/-- EMERGENCY: on the account that the session debits (11 R235). -/
def takeEmergency (c : Nat) (s : State) : State :=
  if replyWaits 3 c s then s
  else match (nodeAt c s).account with
  | none => addReply 3 rcNoEmergency c s
  | some k => let (code, _, s) := grantEmergency k s; addReply 3 code c s

/-- One place of REQ. -/
def takePlace (req : List Byte) (c : Nat) (s : State) : State :=
  match fieldOf req 0 1 with
  | 0 => s
  | 2 => takeAlloc req c s
  | 3 => takeEmergency c s
  | k => badRequest k c s

/-- REQ of an answer. -/
def takeRequests (req : List Byte) (c : Nat) (s : State) : State :=
  if fieldOf req 0 1 % 16 = 1 then takeConfirm req c s else s |> takePlace (req.take 7) c |> takePlace (req.drop 7) c

/-! ## The answer (R259, R266) -/

/-- What the hops measured tell the link table; a hop rebuilt on HAWSER is no longer suspect (R266, R267). -/
def learnAnswer (c : Nat) (a : AnswerFrame) (r : Reception) (s : State) : State :=
  let lead := (nodeAt c s).lead
  let round := s.link.roundCtr
  let prev := lead.dropLast.getLastD hubEnd
  let s := learnHop ⟨prev, c, some a.tones, a.lqSnr.toNat, round⟩ s
  let s := learnHop ⟨lead.headD c, hubEnd, some r.tones, r.snr.toNat, round⟩ s
  let s := if s.link.hawser.contains c then
      s.updLink fun l => { l with suspect := l.suspect.filter fun h => !(hopsOf hubEnd lead).contains h }
    else s
  a.neigh.foldl (fun s x => learnHop ⟨x.1.toNat, c, none, x.2.toNat, round⟩ s) s

/-- The state a node reports. -/
def learnState (c : Nat) (a : AnswerFrame) (s : State) : State :=
  let st := a.state.toNat
  let ph := a.phase.toNat
  let s := modNode c (fun n => { n with
    missed := false, dormant := false, missRun := 0, seen := s.link.roundCtr, inert := st.testBit 4
    ptr := movePtr s.link.passDuty n.ptr, replies := n.replies.tail }) s
  if st.testBit 4 then s
  else modNode c (fun n => { n with
    repeater := st.testBit 5, phase := ph % 4, three := ph.testBit 2, rotRev := ph.testBit 3 }) s

/-- An answer that passes its check (R259). -/
def answerHeard (a : AnswerFrame) (r : Reception) (s : State) : State :=
  match s.link.todo with
  | [] => s
  | c :: _ =>
    let s := s |> learnAnswer c a r |> learnState c a
    let inert := a.state.getLsbD 4
    let s := chanAnswer c (a.amps.map (·.toNat)) a.exporting a.evReq.toNat (a.state.getLsbD 3) s
    let s := if inert then s
      else s |> takeCost c (a.state.getLsbD 6) a.cost.toInt |> takeSlot c a.slotCtrl.toNat (a.slot.take 32)
        |> takeRequests a.req c
    s |> takeDeliv c a.delivId.toNat a.delivNext.toNat |> nextExchange

/-- Why an answer whose codewords decode fails its check against the poll: its tag, or ROUTE and ROUND (R257). -/
def answerFails (f : PollFrame) (a : AnswerFrame) (s : State) : Option FailCause :=
  let c := addressed f.route f.hops.toNat
  if a.tag ≠ answerTagUnder (hubLinkKey c s) f.round.toNat f.retry a then some .tag
  else if routeField a.route ≠ routeField f.route ∨ a.round.toNat ≠ f.round.toNat % 16384 then some .header
  else none

/-- ANSWER: what reaches the hub in the exchange under way (R257). -/
def answerTaken (a : AnswerFrame) (r : Reception) (s : State) : State :=
  match s.link.poll with
  | none => s
  | some f =>
    let s := receive r.input s
    match answerFails f a s with
    | some why => exchangeFail why s
    | none => answerHeard a r s

def execAnswer (a : AnswerFrame) (r : Reception) (s : State) : Out := .next (if hubRuns s then answerTaken a r s else s)

end Sys2Proof.Machine
end

