-- ==== Sys2Proof/Machine/Join.lean ====
section
/-! DEFINITION. Joining, pairing and leaving a site (12 R279 to R281, 16 R353), and what follows a cut (16 R350). -/
namespace Sys2Proof.Machine

/-! ## The pairing under way -/

/-- The lineage and label of a pairing key in AES1, held by firmware until the pairing ends (R353). -/
def pairWork (key : BitVec 128) : WorkKey :=
  { parent := 3, epoch := 0, lineage := [3, 0], label := [0x50, 0x41, 0x49, 0x52], engine := engAes1, wide := false
    key := key.toNat }

/-- A pairing ends, completed or abandoned: its key is scrubbed. -/
def endPairing (s : State) : State :=
  let slot := s.link.pairing.bind (·.slot)
  let s := s.updLink fun l => { l with pairing := none, joinReq := none, pairSlot := none }
  let s := setF Reg.KEY_PAIR_PENDING 0 s
  match slot with | some i => firmwareLetsGo i s | none => s

/-- The ECDH secret and the pairing key: in a slot of AES1, with the check code in KEY_PAIR (R353). -/
def pairKeyed (hubEph headEph : List Byte) (own : Nat) (peer : List Byte) (p : Pairing) (s : State) : State :=
  let key := Config.pairKey (Config.ecdh own peer)
  match place (pairWork key) s with
  | (none, s) => endPairing s
  | (some i, s) =>
    let s := modSlot i (fun x => { x with firmware := true }) s
    let code := (Config.sha256 (hubEph ++ headEph)).toNat / 2 ^ 236 % 1000000
    let p := { p with peer := peer, slot := some i, key := beBytes key.toNat 16 }
    (s.updLink fun l => { l with pairing := some p, pairSlot := some i }) |> setF Reg.KEY_PAIR_CODE code |> setF Reg.KEY_PAIR_PENDING 1

/-- The pairing key as a number. -/
def Pairing.pairKey (p : Pairing) : BitVec 128 := BitVec.ofNat 128 (beNat p.key)

/-! ## The hub's side (R279, R280, R353) -/

/-- JOIN_REQUEST: heard by the hub; relayed up by the sponsor; or sent by the module itself, whose installer window is
open and which has not been refused in it. -/
def joinRequest (ident : BitVec 64) (repeater : Bool) (snr sponsor : Nat) (input : List (BitVec 16)) (s : State) : State :=
  if !domainOn 4 s then s
  else if s.sys.role = .hub then (if hubRuns s then joinHeard ident repeater snr sponsor (receive input s) else s)
  else if isNode s then
    let s := receive input s
    if sponsor = s.link.chan ∧ s.sys.mode ≠ .inert then
      let item : UpItem := { kind := 3, bytes := leBytes ident.toNat 8 ++ leBytes (ofBool repeater) 1 ++ leBytes snr 1 }
      s.updLink fun l => { l with up := l.up ++ [item] }
    else s
  else if (s.sys.role = .head ∨ s.sys.role = .repeater) ∧ installer s ∧ !s.link.joinBarred then
    s.updLink fun l => { l with joinTried := true }
  else s

def execJoinRequest (ident : BitVec 64) (repeater : Bool) (snr : BitVec 8) (sponsor : Received (BitVec 8)) (s : State) : Out :=
  .next (joinRequest ident repeater snr.toNat sponsor.frame.toNat sponsor.input s)

/-- PAIRING_REPLY: the requester's ephemeral key, its ledger key and identifier reach the hub. -/
def pairingReply (eph ledgerKey : List Byte) (ident : BitVec 64) (s : State) : State :=
  match s.link.pairing with
  | some p =>
    if p.ident = ident ∧ p.slot = none then
      pairKeyed (Config.publicKey false p.eph) eph p.eph eph { p with ledgerKey := ledgerKey } s
    else s
  | none => s

def execPairingReply (eph ledgerKey : List (BitVec 8)) (ident : Received (BitVec 64)) (s : State) : Out :=
  .next (if hubRuns s then pairingReply eph ledgerKey ident.frame (receive ident.input s) else s)

/-- The node secret goes out, wrapped under the pairing key (R353 step 5). -/
def sendSecret (p : Pairing) (s : State) : State :=
  let secret := BitVec.ofNat 256 (beNat (nodeSecret p.channel p.ident s))
  sendJoin p.ident [.nodeSecret (Config.wrap p.pairKey secret)] s

/-- A node is registered: polled from the next round along its sponsor's lead and one hop; a newly paired head gets a full
series (R280, 14 R323). DESIGN CHOICE: a channel paired anew starts without a grant and without a held current (assumption
log 61). -/
def register (p : Pairing) (s : State) : State :=
  let lead := if p.sponsor = p.channel then [p.channel] else (nodeAt p.sponsor s).lead ++ [p.channel]
  let n : Node := { reg := true, repeater := p.repeater, ident := p.ident, ledgerKey := p.ledgerKey, lead := lead }
  let s := s |> modNode p.channel (fun _ => n) |> modChan p.channel fun x => { leaving := x.leaving, phases := x.phases }
  let s := learnHop ⟨lead.dropLast.getLastD hubEnd, p.channel, none, p.snr, s.link.roundCtr⟩ s
  let s := setF Reg.LNK_JOIN_STAT_JOINS (satInc 255 (getF s Reg.LNK_JOIN_STAT_JOINS)) s
  if p.repeater then s else publishSeries p.channel s

/-- KEY_PAIR_OK: the host confirms the codes; the node secret goes out wrapped, and the node is registered (R353). -/
def keyPairOk (s : State) : State :=
  match s.link.pairing with
  | some p => if p.slot.isSome ∧ s.sys.role = .hub then s |> sendSecret p |> register p |> endPairing else s
  | none => s

def execKeyPairOk (s : State) : Out := .next (hostTo Reg.KEY_PAIR_OK.addr (fun s => (statusOk, keyPairOk s)) s)

/-- PAIRING_TIMEOUT: 60 s without the host's confirmation (R353). -/
def execPairingTimeout (s : State) : Out :=
  .next (if s.link.pairing.isSome ∧ getB s Reg.KEY_PAIR_PENDING ∧ s.sys.role = .hub then endPairing s else s)

/-- LNK_JOIN_OPEN: the host opens the join window (R279). -/
def execLnkJoinOpen (win : BitVec 16) (s : State) : Out :=
  .next (hostTo Reg.LNK_JOIN_OPEN.addr (fun s =>
    (statusOk, s |> setF Reg.LNK_JOIN_OPEN 1 |> setF Reg.LNK_JOIN_WIN (clamp 10 65535 win.toNat))) s)

/-- JOIN_WINDOW_CLOSE: WIN seconds have passed (R279). -/
def execJoinWindowClose (s : State) : Out := .next (if domainOn 4 s then setF Reg.LNK_JOIN_OPEN 0 s else s)

/-! ## Leaving (R281, 13 R301) -/

/-- The hub frees a channel: its committed use stays reserved for 10 s. -/
def removeNode (c : Nat) (s : State) : State :=
  let a := askOf false c s
  let polling := s.link.todo.head? == some c
  let s := s |> modNode c (fun _ => {}) |> modChan c fun _ => { leaving := a.committed, phases := phaseBits a.phases }
  let s := s.updLink fun l => { l with
    todo := l.todo.filter (· != c), table := l.table.filter fun h => h.a != c && h.b != c
    pubs := l.pubs.map fun p => { p with members := p.members.filter (· != c) } }
  let s := markResync c false s
  let s := if (s.link.pairing.map (·.channel)) = some c then endPairing s else s
  endDelivery (if polling then sendPoll false s else s)

/-- LNK_REMOVE.GO: a join frame with LEAVE goes out, and the channel is free at once; ERR_MODE outside HUB (R281). -/
def lnkRemove (c : Nat) (s : State) : Nat × State :=
  if s.sys.role ≠ .hub then (errMode, s)
  else (statusOk, if (nodeAt c s).reg then removeNode c (sendJoin (nodeAt c s).ident [.leave] s) else s)

def execLnkRemove (channel : BitVec 8) (s : State) : Out :=
  .next (hostTo Reg.LNK_REMOVE_GO.addr (lnkRemove channel.toNat) s)

/-- A node is no longer paired (02 R26): its requests complete as at an unpaired head, its grants are 0, its delivery and
link key are gone. -/
def unpair (s : State) : State :=
  let s := loseRequests (s.updSys fun y => { y with paired := false })
  let s := match s.link.linkSlot with | some i => firmwareLetsGo i s | none => s
  (s.updLink fun l => { l with
    chan := 0, inFallback := false, gImp := 0, gExp := 0, relWait := false, reqs := [], up := [], upFrag := none
    lastPoll := none, pollTimes := [], deliv := none, nodeKnot := none, linkSlot := none, duty := 0 })
    |> endPairing |> lowerToGrant

/-- The round under way ends: no node is left to poll. -/
def endRound (s : State) : State :=
  if s.link.todo = [] then s else sendPoll false (s.updLink fun l => { l with todo := [] })

/-- A cut of knot 3 ends every pairing the module holds (16 R350), and at the hub the round with them. -/
def siteCut (s : State) : State :=
  if s.sys.role = .hub then (registered s).foldl (fun s c => removeNode c s) (endRound (endPairing s))
  else if s.sys.paired then unpair s else endPairing s

/-- What follows a cut of knot `k` elsewhere (16 R350): a TLS session whose slot is scrubbed ends, and the pairings end
with knot 3. -/
def afterCut (k : Nat) (s : State) : State := if k = 3 then s |> tlsScrubbed |> siteCut else tlsScrubbed s

/-- A cut that has been accepted. -/
def performCut (k : Nat) (s : State) : State := s |> cutKnot k |> afterCut k

/-- LNK_UNPAIR: a node leaves under installer presence: it cuts its site subtree (R281). -/
def lnkUnpair (s : State) : Nat × State :=
  if s.sys.role ≠ .head ∧ s.sys.role ≠ .repeater then (errMode, s)
  else if !installer s then (errPresence, s)
  else (statusOk, performCut 3 s)

def execLnkUnpair (s : State) : Out := .next (hostTo Reg.LNK_UNPAIR_LEAVE.addr lnkUnpair s)

/-! ## The join frame at a node (R280, R281, R353) -/

/-- A result for the requester: a channel, or JOIN_FULL. -/
def joinResult (channel : Option Nat) (fallback : Nat) (s : State) : State :=
  if !s.link.joinTried ∨ s.sys.paired then s
  else match channel with
  | some c =>
    let p : Pairing := { channel := c, ident := 0, repeater := s.sys.role == .repeater, eph := 0, sponsor := c, snr := 0 }
    s.updLink fun l => { l with pairing := some p, joinTried := false, fallbackA := fallback }
  | none =>
    (s.updLink fun l => { l with joinTried := false, joinBarred := true })
      |> setF Reg.LNK_JOIN_STAT_RESULT 0x30 |> setF Reg.LNK_JOIN_STAT_FALLBACK fallback

/-- The hub's keys: a signature that verifies, and the head's own ephemeral key. -/
def hubKeyHeard (eph : List Byte) (signed : Bool) (s : State) : State :=
  match s.link.pairing with
  | some p =>
    if !signed ∨ !installer s ∨ p.slot.isSome ∨ s.sys.paired then s
    else
      let (e, s) := freeWide s
      let own := e.toNat % (orderP256 - 1) + 1
      pairKeyed eph (Config.publicKey false own) own eph { p with eph := own } s
  | none => s

/-- The node secret: imported under knot 3 with the label NODE; the link key is derived from it, and the node is paired. -/
def nodeSecretHeard (wrapped : List Byte) (s : State) : State :=
  match s.link.pairing with
  | none => s
  | some p =>
    if p.slot = none ∨ !installer s then s
    else match Config.unwrap p.pairKey wrapped with
    | none => s
    | some v =>
      match createKnot 3 [0x4E, 0x4F, 0x44, 0x45] 0x06 1 (some v) s with
      | (0, k, s) =>
        let (_, slot, s) := firmwareDerives k [0x4C, 0x49, 0x4E, 0x4B] engAes1 false s
        (endPairing (s.updSys fun y => { y with paired := true })).updLink (fun l => { l with
          chan := p.channel, nodeKnot := some k, linkSlot := slot, lastPoll := some s.sys.usec, pollTimes := [], roundCtr := 0
          lastPollRound := none, inFallback := false, ptr := -1 })
          |> setF Reg.LNK_JOIN_STAT_RESULT 0
      | (_, _, s) => endPairing s

/-- JOIN_FRAME, as a node receives it (R280, R281, R353). -/
def joinFrame (f : Received JoinFrame) (s : State) : State :=
  if (s.sys.role ≠ .head ∧ s.sys.role ≠ .repeater) ∨ !domainOn 4 s ∨ s.sys.mode = .inert then s
  else
  let s := receive f.input s
  match f.frame with
  | .joined channel fallback => joinResult (some channel.toNat) fallback.toNat s
  | .full fallback => joinResult none fallback.toNat s
  | .leave => if s.sys.paired then performCut 3 s else s
  | .hubKey eph _ signed => hubKeyHeard eph signed s
  | .nodeSecret wrapped => nodeSecretHeard wrapped s

def execJoinFrame (f : Received JoinFrame) (s : State) : Out := .next (joinFrame f s)

end Sys2Proof.Machine
end

