-- ==== Sys2Proof/Machine/KeyRows.lean ====
section
/-! DEFINITION. Key commands of the host, key services of the strands, and the presence windows (16 R343 to R355). -/
namespace Sys2Proof.Machine

/-! ## Host commands (KEY_CMD) -/

/-- The label at KEY_SRC in the shared window. -/
def keyLabel (len : Nat) (s : State) : List Byte := bytesAt 0 s.cap.shared (getF s Reg.KEY_SRC_OFFSET / 4 * 4) len

/-- The end of a key command: KEY_RESULT. -/
def keyResult (code value : Nat) (s : State) : State := s |> setF Reg.KEY_RESULT_CODE code |> setF Reg.KEY_RESULT_VALUE value

/-- CREATE, IMPORT and CUT are discarded in HEAD and REPEATER. -/
def keysOfMaster (s : State) : Bool := s.sys.role == .head || s.sys.role == .repeater

/-- A key command of the host: one at a time. -/
def keyCommand (f : State → Nat × State) (s : State) : State :=
  hostTo Reg.KEY_CMD_OP.addr (fun s => if getB s Reg.KEY_RESULT_BUSY then (errBusy, s) else f s) s

/-- CREATE (R343). -/
def keyCreate (parent : Nat) (mask : BitVec 8) (len : Nat) (s : State) : Nat × State :=
  if keysOfMaster s then (errMode, s)
  else
    let r := createKnot parent (keyLabel (bits len 0 5) s) mask (bits len 6 2) none s
    (statusOk, keyResult r.1 r.2.1 r.2.2)

def execCreate (parent : BitVec 12) (mask len : BitVec 8) (s : State) : Out :=
  .next (keyCommand (keyCreate parent.toNat mask len.toNat) s)

/-- The subtree knot above a knot, or the knot itself; none for the root. -/
def subtreeOf (k : Nat) (s : State) : Option Nat := (lineage k s).find? fun j => 1 ≤ j && j ≤ 6

/-- DERIVE: the host may name every subtree but the legal one (R344). -/
def keyDerive (parent opt len : Nat) (s : State) : Nat × State :=
  let label := keyLabel len s
  let engine := bits opt 0 3
  let refused : Option Nat :=
    match subtreeOf parent s with
    | some k => if k = 1 then some rcArg else deriveRefused parent label engine s
    | none => some rcArg
  match refused with
  | some c => (statusOk, keyResult c 0 s)
  | none => match place (workingKey parent label engine (opt.testBit 3) s) s with
    | (some i, s) => (statusOk, s |> modSlot i (fun x => { x with host := true }) |> keyResult rcOk i)
    | (none, s) => (statusOk, keyResult rcKeyBusy 0 s)

def execDerive (parent : BitVec 12) (opt len : BitVec 8) (s : State) : Out :=
  .next (keyCommand (keyDerive parent.toNat opt.toNat len.toNat) s)

/-- RELEASE: the host lets go of a slot, which is scrubbed when it was the last holder (R345). -/
def keyRelease (i : Nat) (fails : Bool) (s : State) : Nat × State :=
  if (slotAt s i).host then
    (statusOk, s |> modSlot i (fun x => { x with host := false }) |> settleSlot (some fails) i |> keyResult rcOk 0)
  else (statusOk, keyResult rcArg 0 s)

def execRelease (slot : BitVec 12) (fails : Bool) (s : State) : Out := .next (keyCommand (keyRelease slot.toNat fails) s)

/-- CUT by the host (R350, R351): during a service pause it is performed when the pause ends. -/
def keyCut (k : Nat) (s : State) : Nat × State :=
  if keysOfMaster s then (errMode, s)
  else match cutRefused k s with
  | some c => (if c = rcPresence then errPresence else statusOk, keyResult c 0 s)
  | none =>
    if s.sys.pause then (statusOk, (s.updKey fun u => { u with cutLater := some k }) |> setF Reg.KEY_RESULT_BUSY 1)
    else (statusOk, s |> performCut k |> keyResult rcOk 0)

def execCut (knot : BitVec 12) (s : State) : Out := .next (keyCommand (keyCut knot.toNat) s)

/-- The cut that waited for the end of a service pause. -/
def cutAfterPause (s : State) : State :=
  match s.key.cutLater with
  | none => s
  | some k =>
    let s := (s.updKey fun u => { u with cutLater := none }) |> setF Reg.KEY_RESULT_BUSY 0
    match cutRefused k s with
    | some c => keyResult c 0 s
    | none => s |> performCut k |> keyResult rcOk 0

/-- IMPORT: a secret under knot 4 or 6, taken from the shared window behind its label and overwritten there with 0
(R352). -/
def keyImport (parent : Nat) (mask : BitVec 8) (len : Nat) (s : State) : Nat × State :=
  if keysOfMaster s then (errMode, s)
  else if !installer s then (errPresence, s)
  else if parent ≠ 4 ∧ parent ≠ 6 then (statusOk, keyResult rcArg 0 s)
  else
    let n := bits len 0 5
    let at_ := getF s Reg.KEY_SRC_OFFSET / 4 * 4 + n
    let secret := BitVec.ofNat 256 (beNat (bytesAt 0 s.cap.shared at_ 32))
    let s := s.updCap fun c => { c with shared := putBytes 0 c.shared at_ (List.replicate 32 0) }
    let r := createKnot parent (keyLabel n s) mask (bits len 6 2) (some secret) s
    (statusOk, keyResult r.1 r.2.1 r.2.2)

def execImportKnot (parent : BitVec 12) (mask len : BitVec 8) (s : State) : Out :=
  .next (keyCommand (keyImport parent.toNat mask len.toNat) s)

/-- READ_PUBLIC: the public key of a slot that holds an ECC private key, in the KEY_PUB window (R346). -/
def readPublic (i : Nat) (s : State) : Nat × State :=
  match (slotAt s i).work with
  | some w =>
    if isEcc w.engine then
      let bs := Config.publicKey w.wide w.key
      let s := (List.range 24).foldl (fun s k => setF (Reg.KEY_PUB_BYTES k) (fieldOf bs (4 * k) 4) s) s
      (statusOk, s |> setF Reg.KEY_PUB_LEN_BYTES (if w.wide then 96 else 64) |> keyResult rcOk 0)
    else (statusOk, keyResult rcArg 0 s)
  | none => (statusOk, keyResult rcArg 0 s)

def execReadPublic (slot : BitVec 12) (s : State) : Out := .next (keyCommand (readPublic slot.toNat) s)

/-! ## Services of the strands (R344, R345) -/

/-- The slots that a strand holds, oldest first. -/
def heldSlots (n : Fin 320) (s : State) : List KeyHold := s.key.holds.filter (·.strand = n)

/-- A third slot releases the older of two; a slot that a cut scrubbed is no longer held. -/
def releaseOlder (n : Fin 320) (s : State) : State :=
  match (heldSlots n s).filter (!·.cut) with
  | h :: _ :: _ => (s.updKey fun u => { u with holds := u.holds.erase h }) |> settleSlot none h.slot
  | _ => s

/-- A strand's working key: a slot it holds already, or a further one (R345). -/
def strandDerives (n : Fin 320) (w : WorkKey) (s : State) : Nat × Nat × State :=
  let mine := (heldSlots n s).find? fun h => !h.cut && (slotAt s h.slot).work == some w
  match mine with
  | some h => (rcOk, h.slot, s)
  | none =>
    match place w (releaseOlder n s) with
    | (some i, s) => (rcOk, i, s.updKey fun u => { u with holds := (u.holds.filter fun h => h.strand != n || h.slot != i) ++ [⟨n, i, false⟩] })
    | (none, s) => (rcKeyBusy, 0, s)

/-- KEY_DERIVE: a strand names knots of the vehicle, tag and user subtrees; [8] of w5 makes a child knot (R344). -/
def svcDerive (c : Call) (s : State) : State :=
  let (k, o, len, w5) := (c.arg 0, c.arg 1, c.arg 2, c.arg 3)
  let sub := subtreeOf k s
  if sub ≠ some 2 ∧ sub ≠ some 4 ∧ sub ≠ some 6 then finishCode c.id rcArg [] s
  else if len = 0 ∨ 64 < len ∨ outsideWindow (getS s c.strand) o len then finishCode c.id rcArg [] s
  else
    let label := bytesAt 0 s.cap.caseMem (caseAddr s c.strand o) len
    let done (r : Nat × Nat × State) : State :=
      finishCode c.id r.1 (if r.1 = rcOk then [BitVec.ofNat 32 r.2.1] else []) r.2.2
    if w5.testBit 8 then
      match knotAt k s with
      | some e => done (createKnot k label e.mask e.cutClass none s)
      | none => finishCode c.id rcArg [] s
    else match deriveRefused k label (bits w5 0 3) s with
      | some code => finishCode c.id code [] s
      | none => done (strandDerives c.strand (workingKey k label (bits w5 0 3) (w5.testBit 3) s) s)

def execKeyDerive (s : State) : Out := .next (serve 0xA00 svcDerive s)

/-- KEY_CUT (R349 to R351). -/
def svcCut (c : Call) (s : State) : State :=
  match cutRefused (c.arg 0) s with
  | some code => finishCode c.id code [] s
  | none => s |> performCut (c.arg 0) |> finishCode c.id rcOk []

def execKeyCut (s : State) : Out := .next (serve 0xA01 svcCut s)

/-- What a MAC whose key has been cut returns: zeros (16, the worked case of the cut). -/
def noMac : List Word := List.replicate 4 0

/-- CRYPTO_MAC: the first 16 bytes of HMAC-SHA-256 under a slot that the strand holds in the HMAC engine (R347, R350). -/
def svcMac (c : Call) (s : State) : State :=
  let (i, o, len) := (c.arg 0, c.arg 1, c.arg 2)
  match (heldSlots c.strand s).find? (·.slot = i) with
  | none => finishCode c.id rcArg [] s
  | some h =>
    if h.cut then finishCode c.id rcKeyCut noMac s
    else match (slotAt s i).work with
    | some w =>
      if w.engine ≠ engHmac ∨ outsideWindow (getS s c.strand) o len then finishCode c.id rcArg [] s
      else
        let key := beBytes w.key (if w.wide then 32 else 16)
        let mac := hmacBytes key (bytesAt 0 s.cap.caseMem (caseAddr s c.strand o) len)
        finishCode c.id rcOk ((List.range 4).map fun k => BitVec.ofNat 32 (fieldOf mac (4 * k) 4)) s
    | none => finishCode c.id rcKeyCut noMac s

def execCryptoMac (s : State) : Out := .next (serve 0xA02 svcMac s)

/-! ## Presence (R354, R355) -/

/-- The open windows, as AO_PRES [1:0]. -/
def presBits (s : State) : Nat := getF s Reg.AO_PRES_STAT_INSTALLER + 2 * getF s Reg.AO_PRES_STAT_METRO

/-- A window has opened or closed: EV_PRESENCE, and outbound DB2 of mailbox 0 (R354). -/
def presChanged (before : Nat) (s : State) : State :=
  if presBits s = before then s
  else
    let s := ringOut 0 2 s
    if domainOn 7 s then raiseHw 0x2E (presBits s) s else s

/-- SEAL_BTN_PRESS: an accepted press (R354); a new window lets a refused node ask again (12 R280). -/
def sealPress (jumper : Bool) (s : State) : State :=
  if !domainOn 0 s then s
  else
    let before := presBits s
    let s := boundary Reg.AO_PRES_CFG_PRES_WIN s
    let s := s |> setB Reg.AO_PRES_STAT_JMP jumper |> setF Reg.AO_PRES_STAT_INSTALLER 1
      |> setF Reg.AO_PRES_STAT_LEFT (clamp 30 900 (getF s Reg.AO_PRES_CFG_PRES_WIN))
    let s := if jumper then setF Reg.AO_PRES_STAT_METRO 1 s else s
    (s.updKey fun u => { u with jumper := jumper }).updLink (fun l => { l with joinBarred := false }) |> presChanged before

def execSealBtnPress (jumper : Bool) (s : State) : Out := .next (sealPress jumper s)

/-- An uncommitted commissioning session is discarded (02 R28). -/
def discardCommission (s : State) : State :=
  let s := s.updTag fun t => { t with commPend := false }
  if s.sys.mode = .commission then
    settle (enterMode (roleMode s.sys.role) (s.updSys fun y => { y with staged := [] }))
  else s

/-- Every HALTED strand resumes and every breakpoint is disabled. -/
def endDebug (s : State) : State :=
  let s := (List.range 4).foldl (fun s k => setF (Reg.CAP_BP_CTL_EN k) 0 s) s
  allStrands.foldl (fun s n => resumeStrand n s) s

/-- What the module does when the metrology window closes: staged calibration is dropped, but a commit that waits for its
block boundary stands. -/
def metroClosed (s : State) : State := if getB s Reg.MET_CAL_CMD_COMMIT then s else calDrop s

/-- What it does when the installer window closes (R355); a join request without an answer is recorded (12 R280). -/
def installerClosed (s : State) : State :=
  let s := s |> discardCommission |> endPairing |> endDebug
  if s.link.joinTried then
    (s.updLink fun l => { l with joinTried := false }) |> setF Reg.LNK_JOIN_STAT_RESULT 0x32
  else s

/-- Closes the windows: the metrology window alone, or both (R355). -/
def closePresence (metroOnly : Bool) (s : State) : State :=
  let before := presBits s
  let s := setF Reg.AO_PRES_STAT_METRO 0 s
  let s := if metroOnly then setF Reg.AO_PRES_STAT_JMP 0 (s.updKey fun u => { u with jumper := false })
    else s |> setF Reg.AO_PRES_STAT_INSTALLER 0 |> setF Reg.AO_PRES_STAT_LEFT 0
  let s := presChanged before s
  if before = 0 ∨ !domainOn 7 s then s
  else
    let s := if 2 ≤ before then metroClosed s else s
    if metroOnly then s else installerClosed s

/-- PRESENCE_WINDOW_CLOSE. -/
def execPresenceWindowClose (metroOnly : Bool) (s : State) : Out :=
  .next (if domainOn 0 s then closePresence metroOnly s else s)

/-- AO_PRES_CLOSE: the host closes both windows. -/
def execAoPresClose (s : State) : Out :=
  .next (hostTo Reg.AO_PRES_CTRL_CLOSE.addr (fun s => (statusOk, closePresence false s)) s)

end Sys2Proof.Machine
end

