-- ==== Sys2Proof/Machine/Reader.lean ====
section
/-! DEFINITION. The card reader and the commands of the credential directory (14 R305 to R324). -/
namespace Sys2Proof.Machine

def rcCardGone : Nat := 0x25
def rcNotGenuine : Nat := 0x26
def rcAuthFail : Nat := 0x2A

/-! ## Inventories (R305 to R308) -/

/-- The bytes of a UID, in the order the card sends them. -/
def uidOf : Uid → List Byte
  | .four v => leBytes v.toNat 4
  | .seven v => leBytes v.toNat 7
  | .ten v => leBytes v.toNat 10

/-- The check byte of four bytes of a cascade level (ISO/IEC 14443-3). -/
def bcc (bs : List Byte) : Byte := bs.foldl (· ^^^ ·) 0

/-- The bytes that a Type A card sends in anticollision, level after level. -/
def sentBytes : Uid → List Byte
  | .four v => let u := leBytes v.toNat 4; u ++ [bcc u]
  | .seven v =>
    let u := leBytes v.toNat 7
    let l1 := (0x88 : Byte) :: u.take 3
    l1 ++ [bcc l1] ++ u.drop 3 ++ [bcc (u.drop 3)]
  | .ten v =>
    let u := leBytes v.toNat 10
    let l1 := (0x88 : Byte) :: u.take 3
    let l2 := (0x88 : Byte) :: (u.drop 3).take 3
    l1 ++ [bcc l1] ++ l2 ++ [bcc l2] ++ u.drop 6 ++ [bcc (u.drop 6)]

/-- Bit order on the air: the lowest bit of each byte first. -/
def airBits (bs : List Byte) : List Bool := bs.flatMap fun b => (List.range 8).map b.getLsbD

/-- The first of two Type A cards that anticollision finds: it has a 1 where their bits first differ (R307). -/
def foundFirst : List Bool → List Bool → Bool
  | x :: xs, y :: ys => if x = y then foundFirst xs ys else x
  | _, _ => false

/-- Puts a card into the order of anticollision. -/
def insertCard (c : Uid) : List Uid → List Uid
  | [] => [c]
  | d :: ds =>
    if c = d then d :: ds
    else if foundFirst (airBits (sentBytes c)) (airBits (sentBytes d)) then c :: d :: ds
    else d :: insertCard c ds

/-- The cards that an inventory finds, in order: Type A, then Type B, of the types enabled (R305, R307). -/
def foundCards (types : Nat) (cards : List FieldCard) : List Card :=
  let a := if types.testBit 0 then ((cards.filter (!·.typeB)).map (·.uid)).foldl (fun l c => insertCard c l) [] else []
  let b := if types.testBit 1 then (cards.filter (·.typeB)).map (·.uid) else []
  a.map (fun u => ⟨uidOf u, false⟩) ++ b.map (fun u => ⟨uidOf u, true⟩)

/-- Counts card violation `k` and logs it with the UID bytes known (R313). -/
def cardViolation (k : Nat) (uid : List Byte) (s : State) : State :=
  s |> incF (Reg.RD_VIOL_COUNT k) |> logViolation 8 k (leNat uid)

/-- Violation k of a card that is left out of an inventory. -/
def faultK : CardFault → Nat
  | .malformed => 1 | .badCheck => 2 | .badCascade => 6

/-- RD_UIDn shows card `i` of the presentation (R306). -/
def showCard (cards : List Card) (i : Nat) (s : State) : State :=
  match cards[i]? with
  | some c =>
    s |> setF (Reg.RD_UID_LO_UID i) (leNat (c.uid.take 4)) |> setF (Reg.RD_UID_HI_UID i) (leNat ((c.uid.drop 4).take 3))
      |> setF (Reg.RD_UID_HI_LEN i) c.uid.length |> setF (Reg.RD_UID_HI_TYPE i) (if c.typeB then 2 else 1)
  | none =>
    s |> setF (Reg.RD_UID_LO_UID i) 0 |> setF (Reg.RD_UID_HI_UID i) 0 |> setF (Reg.RD_UID_HI_LEN i) 0
      |> setF (Reg.RD_UID_HI_TYPE i) 0

/-- The reader may run an inventory: PD7 on, not in STANDBY, no field transaction at the tag (R305, R312). -/
def readerFree (s : State) : Bool := domainOn 7 s && s.rd.poll && !s.tag.inTx

/-- Two presentations hold the same UIDs. -/
def sameUids (a b : List Card) : Bool :=
  a.all (fun c => b.any (·.uid == c.uid)) && b.all fun c => a.any (·.uid == c.uid)

/-- The reader's field goes off at the end of an inventory, a pulse or an exchange: the tag stays muted for 1 ms more
(R305). -/
def fieldOff (s : State) : State := s.updRd fun r => { r with offAt := some s.sys.usec }

/-- An inventory ends (R306, R308). -/
def inventory (cards : List FieldCard) (faults : List (CardFault × Uid)) (s : State) : State :=
  let s := fieldOff s |> boundary Reg.RD_CFG_TYPES |> boundary Reg.RD_CFG_POLL_MS
    |> setF Reg.RD_STATE_INVENTORIES (getF s Reg.RD_STATE_INVENTORIES + 1)
  let s := faults.foldl (fun s f => cardViolation (faultK f.1) (uidOf f.2) s) s
  let all := foundCards (inForce s Reg.RD_CFG_TYPES) cards
  let excess : Bool := 7 < all.length
  let s := if excess then cardViolation 5 [] s else s
  let found := all.take 7
  let same := sameUids found s.rd.cards
  let s := s.updRd fun r => { r with tooMany := excess }
  if same then s
  else
    let s := (s.updRd fun r => { r with cards := found, pres := r.pres + 1 }) |> showCard found 0 |> showCard found 1
    if found.isEmpty then raiseHw 0x21 0 s else raiseHw 0x20 found.length s

/-- INVENTORY. -/
def execInventory (cards : List FieldCard) (faults : List (CardFault × Uid)) (s : State) : Out :=
  .next (if readerFree s && s.sys.mode != .standby then inventory cards faults s else s)

/-- DETECTION_PULSE: a change of the antenna loading beyond DET_TH percent ends STANDBY (R312). -/
def detectionPulse (change : Nat) (s : State) : State :=
  if readerFree s && s.sys.mode == .standby then
    let s := fieldOff s
    if clamp 1 50 (getF s Reg.RD_CFG_DET_TH) < change then standbyExit s else s
  else s

def execDetectionPulse (change : BitVec 8) (s : State) : Out := .next (detectionPulse change.toNat s)

/-! ## DIR_LOOKUP (R317) -/

/-- How many UIDs of a list have entries. -/
def enrolled : List (List Byte) → State → Nat × State
  | [], s => (0, s)
  | u :: us, s =>
    let r := if u.length = 4 ∨ u.length = 7 then lookup u s else (none, s)
    let q := enrolled us r.2
    (q.1 + ofBool r.1.isSome, q.2)

/-- DIR_LOOKUP: a 10-byte UID, of which the call names 7 bytes, matches no entry (R307). -/
def dirLookup (c : Call) (s : State) : State :=
  let len := bits (c.arg 1) 24 4
  let uid := (leBytes (c.arg 0) 4 ++ leBytes (c.arg 1) 3).take len
  let present := s.rd.cards.any fun x => x.uid.length == len && x.uid.take 7 == uid
  let (n, s) := if present then enrolled (s.rd.cards.map (·.uid)) s else (0, s)
  if present && (s.rd.tooMany || decide (2 ≤ n)) then finishCode c.id rcMulti [] s
  else
    let r := if len = 4 ∨ len = 7 then lookup uid s else (none, s)
    match r.1 with
    | none => finishCode c.id rcMiss [] r.2
    | some k => match dirAt k r.2 with
      | none => finishCode c.id rcMiss [] r.2
      | some e =>
        let w3 := e.flags % 0x10000 + 0x10000 * (e.gen % 256) + 0x1000000 * ofBool (e.expired s.sys.ltime)
        finishCode c.id rcOk [BitVec.ofNat 32 k, BitVec.ofNat 32 w3, BitVec.ofNat 32 e.account] r.2

def execDirLookup (s : State) : Out := .next (serve 0x800 dirLookup s)

/-! ## Exchanges with a card (R309 to R311) -/

/-- The card that a call names: none where its index lies beyond the presentation, or the presentation has changed since
the call was issued (R309). -/
def cardOf (c : Call) (s : State) : Option Card := if c.pres = s.rd.pres then s.rd.cards[c.arg 0]? else none

/-- A card exchange: the boundaries of its settings, and the field off again at its end. -/
def exchangeBoundary (s : State) : State := s |> boundary Reg.RD_CFG_FWT_MAX |> boundary Reg.RD_CFG_RATE |> fieldOff

/-- The card profile table: 16 entries of 96 bytes (R310). -/
def profiles (s : State) : List (List Byte) :=
  (List.range 16).map fun i => nvBytes (0x3D40000 + Config.profileTable + 96 * i) 96 s

/-- The entry that a card matches by the bits of its mask: value and mask stand first (R310). -/
def profileOf (identity : BitVec 64) (s : State) : Option (List Byte) :=
  (profiles s).find? fun e =>
    let mask := (e.drop 8).take 8
    List.zipWith (· &&& ·) (leBytes identity.toNat 8) mask == List.zipWith (· &&& ·) e mask

/-- A card's signature verifies under the key of its profile, which stands before the 4 bytes of flags; what is hashed is its
UID padded with zeros to 32 bytes (R310). -/
def genuine (profile uid signature : List Byte) : Bool :=
  Config.ecdsaVerify ((profile.drop 28).take 64) ((uid ++ List.replicate 32 0).take 32) signature

/-- READER_CHECK (R310). -/
def readerCheck (answer : SignatureAnswer) (c : Call) (s : State) : State :=
  let s := exchangeBoundary s
  match cardOf c s with
  | none => finishCode c.id rcCardGone [] s
  | some card => match answer with
    | .gone => finishCode c.id rcCardGone [] s
    | .late => s |> cardViolation 3 card.uid |> finishCode c.id rcCardGone []
    | .card identity signature => match profileOf identity s with
      | none => finishCode c.id rcOk [0] s
      | some e =>
        if genuine e card.uid signature then finishCode c.id rcOk [1] s
        else s |> cardViolation 4 card.uid |> finishCode c.id rcNotGenuine []

def execReaderCheck (answer : SignatureAnswer) (s : State) : Out := .next (serve 0x801 (readerCheck answer) s)

/-- Why CARD_AUTH does not reach the card: its slot or its key number (R311). -/
def authRefused (c : Call) (s : State) : Option Nat :=
  if 15 < c.arg 2 then some rcArg
  else match (heldSlots c.strand s).find? (·.slot = c.arg 1) with
  | none => some rcKeyDest
  | some h =>
    if h.cut then some rcKeyCut
    else match (slotAt s h.slot).work with
    | none => some rcKeyCut
    | some w => if w.engine = engReader then none else some rcKeyDest

/-- The key of a slot, as the READER engine uses it. -/
def slotKey (i : Nat) (s : State) : BitVec 128 :=
  match (slotAt s i).work with
  | some w => BitVec.ofNat 128 w.key
  | none => 0

/-- CARD_AUTH (R311): the challenge is drawn from the random source, a free value. -/
def cardAuth (answer : AuthAnswer) (c : Call) (s : State) : State :=
  match authRefused c s with
  | some code => finishCode c.id code [] s
  | none =>
    let s := exchangeBoundary s
    match cardOf c s with
    | none => finishCode c.id rcCardGone [] s
    | some card =>
      let failed (s : State) : State := s |> cardViolation 7 card.uid |> finishCode c.id rcAuthFail []
      match answer with
      | .gone => finishCode c.id rcCardGone [] s
      | .late => s |> cardViolation 3 card.uid |> finishCode c.id rcCardGone []
      | .refused => failed (freeWide s).2
      | .block r =>
        let ch := freeWide s
        if Config.aes128 (slotKey (c.arg 1) ch.2) (ch.1.setWidth 128) = r then finishCode c.id rcOk [1] ch.2 else failed ch.2

def execCardAuth (answer : AuthAnswer) (s : State) : Out := .next (serve 0x802 (cardAuth answer) s)

/-! ## Host commands of the directory (R319 to R323) -/

/-- Puts, deletes and deltas of the host are taken in STANDALONE and HUB only. -/
def dirOpen (s : State) : Bool := inService s.sys.mode && (s.sys.role == .standalone || s.sys.role == .hub)

/-- Firmware holds changes to the directory back: a migration, a service pause, or no active core (19 R419, R19). -/
def dirWaits (s : State) : Bool := migrating s || s.sys.pause || s.sys.takeover

/-- The heads that the hub keeps in step. -/
def dirHeads (s : State) : List Nat := (registered s).filter fun c => !(nodeAt c s).repeater

/-- DIR_PUBLISH: the gathered operations become one delta, and DIR_SEQ moves on (R323). -/
def dirPublish (s : State) : State :=
  if s.sys.role ≠ .hub ∨ s.rd.ops = [] ∨ dirWaits s then s
  else
    let base := s.rd.seq
    let bytes := deltaBytes false false 1 1 base (base + 1) s.rd.ops
    (s.updRd fun r => { r with ops := [] }) |> publish 2 bytes (dirHeads s) false |> dirSeqTo ((base + 1) % 2 ^ 32)

def execDirPublish (s : State) : Out := .next (if inService s.sys.mode then dirPublish s else s)

/-- A put or delete at the hub counts as an operation of its next delta; 14,562 of them are published at once. -/
def gather (o : DirOp) (s : State) : State :=
  if s.sys.role ≠ .hub then s
  else
    let s := s.updRd fun r => { r with ops := r.ops ++ [o], opsSince := if r.ops = [] then s.sys.usec else r.opsSince }
    if 14562 ≤ s.rd.ops.length then dirPublish s else s

/-- DIR_RESULT of an operation. -/
def dirResult (code slot : Nat) (s : State) : State :=
  s |> setF Reg.DIR_RESULT_BUSY 0 |> setF Reg.DIR_RESULT_CODE code |> setF Reg.DIR_RESULT_SLOT slot

/-- Performs a DIR_CMD operation: 1 put, 2 delete, 3 lookup, whose found entry goes back to the same offset. -/
def runDirCommand (k : DirCommand) (s : State) : State :=
  let e := DirEntry.ofBytes k.bytes
  match k.op with
  | 1 =>
    let r := dirPut e s
    let s := if r.1 = rcOk then gather ⟨false, e⟩ r.2.2 else r.2.2
    dirResult r.1 r.2.1 s
  | 2 =>
    let r := dirDelete e.uidBytes s
    let s := if r.1 = rcOk then gather ⟨true, e⟩ r.2.2 else r.2.2
    dirResult r.1 r.2.1 s
  | _ =>
    let r := if e.len = 4 ∨ e.len = 7 then lookup e.uidBytes s else (none, s)
    match r.1 with
    | some j =>
      let bs := match dirAt j r.2 with | some x => x.bytes | none => k.bytes
      (r.2.updCap fun c => { c with shared := putBytes 0 c.shared k.offset bs }) |> dirResult rcOk j
    | none => dirResult rcMiss 0 r.2

/-- DIR_CMD: one operation at a time; a put or delete waits while firmware holds changes back. -/
def dirCommand (op offset : Nat) (s : State) : Nat × State :=
  let o := offset / 4 * 4
  let k : DirCommand := ⟨op, o, bytesAt 0 s.cap.shared o 32⟩
  if op ≠ 3 ∧ !dirOpen s then (errMode, s)
  else if s.rd.cmdLater.isSome then (errBusy, s)
  else if (op ≠ 3 ∧ dirWaits s) ∨ s.sys.pause ∨ s.sys.takeover then
    (statusOk, (s.updRd fun r => { r with cmdLater := some k }) |> setF Reg.DIR_RESULT_BUSY 1)
  else (statusOk, runDirCommand k s)

def execDirCmdPut (offset : BitVec 18) (s : State) : Out :=
  .next (hostTo Reg.DIR_CMD_OP.addr (dirCommand 1 offset.toNat) s)

def execDirCmdDelete (offset : BitVec 18) (s : State) : Out :=
  .next (hostTo Reg.DIR_CMD_OP.addr (dirCommand 2 offset.toNat) s)

def execDirCmdLookup (offset : BitVec 18) (s : State) : Out :=
  .next (hostTo Reg.DIR_CMD_OP.addr (dirCommand 3 offset.toNat) s)

/-- The delta in staging is applied; the hub delivers an applied one unchanged to its heads (R321, R323). -/
def applyStaged (s : State) : State :=
  let head := nvBytes 0x3F70000 32 s
  let image := nvBytes 0x3F70000 (32 + 36 * min 14562 (fieldOf head 8 4)) s
  let s := applyDelta image (setF Reg.DIR_DELTA_STAT_BUSY 0 s)
  let r := getF s Reg.DIR_DELTA_STAT_RESULT
  if s.sys.role = .hub ∧ (r = rcOk ∨ r = rcDirFull ∨ r = rcDirStash) then publish 2 image (dirHeads s) false s else s

/-- DIR_DELTA_CTRL.APPLY. -/
def deltaApply (s : State) : Nat × State :=
  if !dirOpen s then (errMode, s)
  else if s.rd.deltaLater then (errBusy, s)
  else if dirWaits s then (statusOk, (s.updRd fun r => { r with deltaLater := true }) |> setF Reg.DIR_DELTA_STAT_BUSY 1)
  else (statusOk, applyStaged s)

def execDirDeltaApply (s : State) : Out := .next (hostTo Reg.DIR_DELTA_CTRL_APPLY.addr deltaApply s)

/-- What waited for firmware is done, the delta first (R324). -/
def dirResume (s : State) : State :=
  if dirWaits s then s
  else
    let s := if s.rd.deltaLater then applyStaged (s.updRd fun r => { r with deltaLater := false }) else s
    match s.rd.cmdLater with
    | some k => runDirCommand k (s.updRd fun r => { r with cmdLater := none })
    | none => s

end Sys2Proof.Machine
end

