-- ==== Sys2Proof/Machine/StoreRows.lean ====
section
/-! DEFINITION. Firmware slots in action, handover between the cores, forme loading, store upkeep, and the inbound
doorbells of the host (19 R407 to R422, 18 R398 to R400). -/
namespace Sys2Proof.Machine

/-! ## Host commands on the inactive slot (R415) -/

def execUpdOpen (s : State) : Out := .next (hostTo Reg.UPD_CMD_OP.addr (fun s => (statusOk, openSlot s)) s)

def execUpdVerify (s : State) : Out := .next (hostTo Reg.UPD_CMD_OP.addr (fun s => (statusOk, verifySlot s)) s)

/-- DISCARD: a slot in STAGED or PREVIOUS is emptied; an activation that waits for it goes with it. -/
def discardSlot (s : State) : State :=
  let k := inactiveSlot s
  if (fwSlot k s).state = .staged ∨ (fwSlot k s).state = .previous then
    (s |> storeErase (slotBase k) 0x400000 |> modFw k (fun _ => {})).updStore fun t =>
      { t with wait := t.wait.filter (·.same) }
  else s

def execUpdDiscard (s : State) : Out := .next (hostTo Reg.UPD_CMD_OP.addr (fun s => (statusOk, discardSlot s)) s)

/-! ## Activation (R415 to R421) -/

/-- The mailbox of a core, and that of the active core (18 R398). -/
def coreMailbox (coreB : Bool) : Nat := 5 + ofBool coreB

/-- A result of an activation, shown in UPD_STATUS and at its slot. -/
def actResult (a : Activation) (code : Nat) (s : State) : State :=
  let s := setF Reg.UPD_STATUS_RESULT code s
  if a.same then s else modFw a.slot (fun x => { x with result := code }) s

/-- What waited for the end of an activation is done (R419). -/
def afterActivation (s : State) : State :=
  let s := s |> setF Reg.UPD_STATUS_PHASE 0 |> setF Reg.UPD_STATUS_MIG_PCT 0 |> dirResume
  if getB s Reg.LED_CAL_STAT_BUSY && !migrating s then (calLoad (setF Reg.LED_CAL_STAT_BUSY 0 s)).2 else s

/-- The activation under way ends in failure: the slot goes to `st`, and the standby core reboots the active image. -/
def failAct (st : FwState) (code : Nat) (s : State) : State :=
  match s.store.act with
  | none => s
  | some a =>
    let s := setShadows [] (actResult a code (if a.same then s else modFw a.slot (fun x => { x with state := st }) s))
    ((s.updStore fun t => { t with act := none }).updSys fun y => { y with standbyReady := false }) |> afterActivation

/-- The items that an activation migrates take the image's formats, and each die's map switches to their shadows in one log
entry (R420); settings of another version are reset (R418). -/
def takeFormats (x : FwSlot) (s : State) : State :=
  let s := if x.fmts.getD 5 1 = s.store.formats.getD 5 1 then s
    else (s.updSys fun y => { y with settings := y.settings.filter fun i => 0x100 ≤ i.item }) |> copyOnWrite noTag [0x3E0]
  (s |> setShadows [] |> copyOnWrite (storeTag s) (toMigrate x s)).updStore fun t => { t with formats := x.fmts }

/-- The installed legal section becomes active, with its event record (R414). -/
def takeLegal (v : Option Nat) (s : State) : State :=
  match v with
  | none => s
  | some n => s |> writeEvent 0x10 0 s.store.legalVer n 0 |> fun s => s.updStore fun t => { t with legalVer := n }

/-- The slot of an activation becomes ACTIVE and the other PREVIOUS (R415). -/
def makeActive (a : Activation) (s : State) : State :=
  let x := fwSlot a.slot s
  let s := if a.same then s
    else (s |> modFw (1 - a.slot) (fun o => if o.state = .active then { o with state := .previous, fmtOld := a.migrated } else o)
      |> modFw a.slot (fun o => { o with state := .active, fmtOld := false })).updStore fun t => { t with runs := a.slot }
  s |> takeFormats x |> takeLegal a.legal |> actResult a 0

/-- Only one core is usable, and no standby core is ready (01 R15). -/
def singleCore (s : State) : Bool := s.sys.coreRetired || (getB s Reg.SYS_HEALTH_CORE_NO_SPARE && !s.sys.standbyReady)

/-- The legal section that the image carries can be installed now (R414). -/
def installable (x : FwSlot) (s : State) : Option Nat := if metrologist s then x.legal else none

/-- It is needed, it would do, and no metrology window is open. -/
def legalWaits (x : FwSlot) (s : State) : Bool :=
  needsLegal x s && !metrologist s && (match x.legal with | some v => decide (x.legalMin ≤ v) | none => false)

/-- An activation that cannot proceed waits. -/
def waitAct (a : Activation) (code : Nat) (s : State) : State :=
  (actResult a code s).updStore fun t => { t with wait := some a }

/-- An activation is tried: it waits, is rejected, fails, is applied by a restart of the single core, or begins
(R414, R415, R418, R420). One that comes due in STANDBY first returns the module to the role mode (02 R29). -/
def tryActivate (a : Activation) (s : State) : State :=
  let s := standbyExit s
  let x := fwSlot a.slot s
  let role : Bool := s.sys.mode == roleMode s.sys.role
  let a := { a with migrated := migrates x s, legal := if a.same then none else installable x s }
  if s.store.act.isSome then s
  else if !a.same && legalWaits x s then waitAct a updLegal s
  else if singleCore s then
    if a.same then s.updStore fun t => { t with wait := none }
    else if sessionActive s || !role || s.sys.takeover then waitAct a updBusy s
    else
      let s := s.updStore fun t => { t with wait := none }
      if bootCheck a.slot s then makeActive a s
      else modFw a.slot (fun o => { o with state := .rejected, result := imageRejected }) s
  else if !role || !s.sys.standbyReady then waitAct a updBusy s
  else
    let s := s.updStore fun t => { t with wait := none }
    if a.migrated && decide (storeFree s < migrationBlocks x s + 75) then
      actResult a updNoRoom (if a.same then s else modFw a.slot (fun o => { o with state := .failed }) s)
    else
      let s := s.updSys fun y => { y with standbyReady := false }
      if !a.same && !bootCheck a.slot s then
        actResult a imageRejected (modFw a.slot (fun o => { o with state := .rejected }) s)
      else
        (s |> (fun s => if a.same then s else modFw a.slot (fun o => { o with state := .trying }) s) |> actResult a 0
          |> boundary Reg.UPD_CFG_HANDOVER_T |> setF Reg.UPD_STATUS_PHASE 1 |> setShadows (toMigrate x s)).updStore fun t => { t with act := some a }

/-- UPD_ACT: activation of the inactive slot under installer presence; a PREVIOUS slot whose formats have changed is refused
with UPD_FORMAT. -/
def updAct (s : State) : Nat × State :=
  if !installer s then (errPresence, s)
  else
    let k := inactiveSlot s
    let x := fwSlot k s
    let a : Activation := { slot := k }
    (statusOk,
      if x.state = .staged then tryActivate a s
      else if x.state = .previous then (if x.fmtOld then actResult a updFormat s else tryActivate a s)
      else s)

def execUpdAct (s : State) : Out := .next (hostTo Reg.UPD_ACT_GO.addr updAct s)

/-- The inactive slot may activate by itself (R415, R416). -/
def autoDue (s : State) : Bool :=
  let x := fwSlot (inactiveSlot s) s
  x.state == .staged && getB s Reg.UPD_CFG_AUTO && x.auto && decide (x.actTime ≤ s.sys.ltime)

/-- AUTO_ACTIVATION: an activation that waits is tried again, or a staged slot's time has come. -/
def autoActivation (s : State) : State :=
  match s.store.wait with
  | some a => tryActivate a s
  | none => if autoDue s then tryActivate { slot := inactiveSlot s } s else s

def execAutoActivation (s : State) : Out := .next (if inService s.sys.mode then autoActivation s else s)

/-! ## The handover (R420) -/

/-- A round of the hub is under way (12 R282). -/
def midRound (s : State) : Bool := s.sys.role == .hub && (s.link.poll.isSome || s.link.todo != [])

/-- The service pause begins. -/
def beginPause (s : State) : State :=
  let s := s |> setF Reg.UPD_STATUS_PHASE 5 |> enterMode .handover |> raiseFw 0x33 0 |> ringOut (coreMailbox s.store.coreB) 0
  (s.updSys fun y => { y with pause := true }).updStore fun t => { t with pauseAt := s.sys.usec }

/-- HANDOVER_READY: a hub waits for the end of its round. -/
def handoverReady (s : State) : State :=
  if s.store.act.isNone || s.sys.takeover || s.sys.mode != roleMode s.sys.role then s
  else if midRound s then setF Reg.UPD_STATUS_PHASE 4 s
  else beginPause s

def execHandoverReady (s : State) : Out := .next (handoverReady s)

/-- The service pause ends: the events that waited are raised, then EV_HANDOVER, and the inbound doorbells of mailbox 7 that
waited clear (06 R112, 18 R400, R401). -/
def endPause (s : State) : State :=
  let s := s.updSys fun y => { y with pause := false }
  let us := s.sys.usec - s.store.pauseAt
  s |> setF Reg.UPD_HANDOVER_PAUSE_US (min 0xFFFF us) |> enterMode (roleMode s.sys.role) |> raisePaused |> raiseFw 0x33 1 |> writeBacklog
    |> setF (Reg.MB_IN_PEND_PEND 7) 0

/-- HANDOVER_T_EXPIRY: the activation fails, unless its service pause has begun. -/
def execHandoverTExpiry (s : State) : Out := .next (if s.sys.pause then s else failAct .failed updFailed s)

/-- A core is retired, for good (R421). -/
def retireCore (s : State) : State :=
  (s.updSys fun y => { y with coreRetired := true, standbyReady := false }) |> setHealth 0

/-- TAKEOVER_COMPLETE: the new core is active. -/
def takeoverComplete (s : State) : State :=
  match s.store.act with
  | none => s
  | some a =>
    if !s.sys.pause then s
    else
      let s := s.updStore fun t => { t with act := none, coreB := !t.coreB, handovers := satInc 0xFFFF t.handovers }
      let s := s |> makeActive a |> endPause |> ringOut (coreMailbox s.store.coreB) 1
      let s := if s.store.retireAfter then retireCore (s.updStore fun t => { t with retireAfter := false }) else s
      s |> cutAfterPause |> afterActivation

def execTakeoverComplete (s : State) : Out := .next (takeoverComplete s)

/-- HANDOVER_ABORT: the old core resumes, and the slot fails. -/
def handoverAbort (s : State) : State :=
  if s.sys.pause then s |> endPause |> cutAfterPause |> failAct .failed updFailed else s

def execHandoverAbort (s : State) : Out := .next (handoverAbort s)

/-! ## Cores (R421) -/

/-- The standby core's SRAM, or the active core's, is over its limit. -/
def coreRetire (coreB : Bool) (corrected : Nat) (uncorrectable : Bool) (s : State) : State :=
  let s := setF (if coreB then Reg.CORE_HEALTH_CE_B else Reg.CORE_HEALTH_CE_A) corrected s
  if (corrected ≤ clamp 10 255 (getF s Reg.UPD_CFG_CE_LIM) ∧ !uncorrectable) ∨ s.sys.coreRetired then s
  else if coreB = s.store.coreB then
    tryActivate { slot := s.store.runs, same := true } (s.updStore fun t => { t with retireAfter := true })
  else s |> failAct .failed updFailed |> retireCore

def execCoreRetire (coreB : Bool) (corrected : BitVec 16) (uncorrectable : Bool) (s : State) : Out :=
  .next (if domainOn 2 s then coreRetire coreB corrected.toNat uncorrectable s else s)

/-! ## Formes (R413) -/

/-- The strand that an entry of the strand table gives. A FALLBACK_PUT to a port that is not safe-direction registers
nothing (03 R58). DEDUCED: its subscriptions are in force from the load, since no host write waits for the strand's next WAIT
(assumption log 57). -/
def Strand.ofEntry (e : List Byte) : Strand :=
  let f (o lo n : Nat) : Nat := bits (fieldOf e o 4) lo n
  { cls := Fin.ofNat 4 (f 0 28 2), entry := BitVec.ofNat 17 (f 0 0 17), pc := BitVec.ofNat 17 (f 0 0 17)
    winBase := f 4 16 12, winSize := f 4 0 12
    sub := Vector.ofFn fun i => BitVec.ofNat 8 (fieldOf e (8 + i.val) 1)
    subOn := Vector.ofFn fun i => BitVec.ofNat 8 (fieldOf e (8 + i.val) 1)
    en := BitVec.ofNat 8 (f 16 0 8), enOn := BitVec.ofNat 8 (f 16 0 8)
    fbEn := f 20 31 1 == 1 && isSafePort (f 20 16 12), fbPort := f 20 16 12, fbValue := f 20 0 16 }

/-- The words of a program, from address `a`; a word 0 is not listed. -/
def programWords : Nat → List Byte → Nat → NMap Word
  | 0, _, _ => []
  | n + 1, bs, a =>
    let w := BitVec.ofNat 32 (fieldOf bs 0 4)
    if w = 0 then programWords n (bs.drop 4) (a + 1) else (a, w) :: programWords n (bs.drop 4) (a + 1)

/-- Every strand stops, whatever its class. -/
def stopStrands (s : State) : State := allStrands.foldl (fun s n => s |> discardGalley n |> abandonCalls n |> keysLetGo n) s

/-- The loader: every strand is disabled, the program store and the strand table are written, and the strands of the forme
are enabled. -/
def loadForme (k : Nat) (f : Forme) (s : State) : State :=
  let s := stopStrands s
  let strands : Vector Strand 320 := Vector.ofFn fun n => match f.entries[n.val]? with
    | some e => Strand.ofEntry e
    | none => Strand.reset
  let s := s.updCap fun c => { c with
    strands := strands, running := none, interrupted := none, q0 := [], q1 := [], q2 := [], q3 := [], stalled := []
    prog := programWords f.words f.program 0, formeWords := f.words, formePending := false }
  let s := s.updStore fun t => { t with formeAct := k, formeVer := f.version, formeNew := t.formeNew && k == t.formeAct }
  (allStrands.filter fun n => decide (n.val < f.entries.length)).foldl (fun s n => (enableStrand n s).2) s

/-- An idle moment: no session, no galley open, and an outlet's pilot in state A. -/
def idleForForme (s : State) : Bool :=
  let outlet : Bool := s.sys.role != .repeater && (s.sys.role != .hub || hubOutlet s)
  !sessionActive s && allStrands.all (fun n => (getS s n).galley.isNone) && (!outlet || getF s Reg.VI_PILOT_STATE == 0xA)

/-- FORME_LOAD: the forme that waits is loaded, or found unsound. -/
def formeLoad (s : State) : State :=
  if !formeWaits s || !idleForForme s || s.sys.pause || s.sys.takeover || !domainOn 7 s || s.sys.mode == .inert ||
      s.sys.mode == .boot then s
  else
    let k := inactiveForme s
    match formeSound k s with
    | some f => loadForme k f s
    | none => s |> noteForme false false |> setF Reg.FORME_STATE_RESULT imageRejected

def execFormeLoad (s : State) : Out := .next (formeLoad s)

/-! ## Upkeep and the forme data area (R407 to R409) -/

/-- STORE_SPARE_LOW is set when FREE falls below 75 (R408). -/
def noteSpare (s : State) : State := if storeFree s < 75 then setHealth 3 s else s

/-- What a damaged block of `l` has lost: entries of the directory fail their CHECK; contents held as they are come back as
free values; a mirrored block has its other copy (R405, R406). DESIGN CHOICE: a CHECK that fails is a number above 32 bits;
logs and settings come back whole (assumption log 62). -/
def loseBlock (l : Nat) (s : State) : State :=
  if mirroredBlock l then s
  else if encryptedBlock l then
    s.updRd fun r => { r with dir := r.dir.map fun e => if dirBlock e.1 = l then (e.1, { e.2 with check := 2 ^ 32 }) else e }
  else if 0x3E0 ≤ l ∧ l < 0x3EF then s
  else
    let c := s.sys.freeCtr
    let bytes := (List.range 0x10000).map fun i => Config.storeByte (0x10000 * l + i) c
    (s.updSys fun y => { y with freeCtr := c + 1 }) |> storePut (0x10000 * l) bytes

/-- What the read of an in-use block found in a scrub pass (R406, R407): units of 16 bytes that needed correction, of 4,096; an
uncorrectable error; a tag that fails; nothing has written it for 5 years. -/
structure BlockRead where
  at_ : DieBlock
  units : Nat := 0
  uncorrectable : Bool := false
  tagFails : Bool := false
  old : Bool := false
  deriving DecidableEq, Repr

/-- The reads of a scrub pass that found something. -/
def scrubReads (corrected : List (DieBlock × BitVec 4)) (worn : List (DieBlock × BitVec 13))
    (uncorrectable tagFails old : List DieBlock) : List BlockRead :=
  (corrected.map fun x => { at_ := x.1, units := min 8 x.2.toNat }) ++ (worn.map fun x => { at_ := x.1, units := max 9 x.2.toNat }) ++
    (uncorrectable.map fun x => { at_ := x, uncorrectable := true }) ++ (tagFails.map fun x => { at_ := x, tagFails := true }) ++
    old.map fun x => { at_ := x, old := true }

/-- One read of a scrub pass: a block that needed corrections, or that nothing has written for 5 years, is rewritten by copy
on write; more than 8 corrected units, or an uncorrectable error, condemn the block that was read (R407). A block whose tag
fails is treated as damaged (R406). -/
def scrubRead (s : State) (r : BlockRead) : State :=
  let d := ofBool r.at_.die1
  let p := r.at_.block.toNat
  let e := (dieOf d s).entry d p
  if !e.inUse then s
  else
    let damaged := r.uncorrectable || r.tagFails && encryptedBlock e.logical
    let s := if damaged then loseBlock e.logical s else s
    let s := if 8 < r.units ∨ damaged then updDie d (fun x => { x with condemned := p :: x.condemned }) s else s
    if 0 < r.units ∨ damaged ∨ r.old then updDie d (fun x => x.renewAll d (storeTag s) fun _ => [some p]) s else s

/-- SCRUB: every in-use block is read; those that no read names gave no error. The dies are then balanced and leveled (R404,
R407). -/
def scrub (reads : List BlockRead) (s : State) : State :=
  let s := reads.foldl scrubRead s |> balance 64
  let s := level (storeTag s) s
  s |> setF Reg.STORE_ECC_CORR (min 0xFFFF (reads.foldl (fun n r => n + r.units) 0))
    |> setF Reg.STORE_ECC_UNCORR (min 0xFFFF (getF s Reg.STORE_ECC_UNCORR + (reads.filter (·.uncorrectable)).length))
    |> noteSpare

def execScrub (corrected : List (DieBlock × BitVec 4)) (worn : List (DieBlock × BitVec 13))
    (uncorrectable tagFails old : List DieBlock) (s : State) : Out :=
  .next (if domainOn 2 s && domainOn 7 s then scrub (scrubReads corrected worn uncorrectable tagFails old) s else s)

/-- STORE_WRITE: into the forme data area only. DESIGN CHOICE: a source that reaches outside the caller's window answers
STORE_RANGE, the one code that its row of R114 has for a range (assumption log 57). -/
def storeWrite (c : Call) (s : State) : State :=
  let (a, o, len) := (c.arg 0, c.arg 1, c.arg 2)
  if len = 0 ∨ 4096 < len ∨ a < 0x3F30000 ∨ 0x3F70000 < a + len then finishCode c.id rcStoreRange [] s
  else if outsideWindow (getS s c.strand) o len then finishCode c.id rcStoreRange [] s
  else if needsBlock a len s && (blocksOf a len).any fun l => blockWorn l s then finishCode c.id rcStoreWorn [] s
  else s |> storeOver a (bytesAt 0 s.cap.caseMem (caseAddr s c.strand o) len) |> noteSpare |> finishCode c.id rcOk []

def execStoreWrite (s : State) : Out := .next (if migrating s then s else serve 0xD00 storeWrite s)

/-! ## Inbound doorbells (18 R398, R400, 19 R421) -/

/-- Rings that mean something at mailboxes 5 and 6: at the standby core's, DB0 asks for a handover to the same image and
DB1 restarts that core. -/
def coreBells (mailbox bells : Nat) (s : State) : State :=
  if mailbox = coreMailbox s.store.coreB then s
  else
    let s := if bells.testBit 0 then tryActivate { slot := s.store.runs, same := true } s else s
    if bells.testBit 1 then (failAct .failed updFailed s).updSys fun y => { y with standbyReady := false } else s

/-- The doorbells of mailbox 7 that were not pending raise EV_HOST_DB; during a service pause they stay pending. -/
def hostBells (bells : Nat) (s : State) : State :=
  let f := Reg.MB_IN_PEND_PEND 7
  let new := (List.range 32).filter fun d => bells.testBit d && !(getF s f).testBit d
  let s := new.foldl (fun s d => raiseFw 0x36 d s) s
  if s.sys.pause then setF f (getF s f ||| bells) s else s

/-- MB_IN_RING: every other inbound doorbell has no meaning and clears at once. -/
def mbRing (mailbox bells : Nat) (s : State) : Nat × State :=
  (statusOk, if mailbox = 7 then hostBells bells s else if 5 ≤ mailbox then coreBells mailbox bells s else s)

def execMbInRing (mailbox : Fin 8) (bells : BitVec 32) (s : State) : Out :=
  .next (hostTo (Reg.MB_IN_RING_RING mailbox.val).addr (mbRing mailbox.val bells.toNat) s)

end Sys2Proof.Machine
end

