-- ==== Sys2Proof/Machine/Tag.lean ====
section
/-! DEFINITION. The field tag: its memory, the commands a field sends, receipts, quiet hold, and the commissioning record
that it takes to COMMISSION (15 R325 to R339, 02 R28). -/
namespace Sys2Proof.Machine

def rcFieldBusy : Nat := 0x40
def fieldWeak : Nat := 0x41
def rcTagFull : Nat := 0x42

/-! ## Tag memory (R327, R328) -/

/-- The CC file. -/
def ccFile : List Byte :=
  [0x00, 0x0F, 0x20, 0x00, 0xF6, 0x00, 0xF6, 0x04, 0x06, 0xE1, 0x04, 0x10, 0x00, 0x00, 0xFF]

/-- A byte of the tag memory: the CC file, the control block and the signature are not held byte by byte. -/
def tagByte (a : Nat) (s : State) : Byte :=
  if a < 0x10 then ccFile.getD a 0
  else if a < 0x40 then Config.tagControl a s.sys.freeCtr
  else if a < 0x80 then Config.tagOrigin.getD (a - 0x40) 0
  else byteAt 0 s.tag.mem a

/-- `n` bytes of the tag memory. -/
def tagBytes (a n : Nat) (s : State) : List Byte := (List.range n).map fun i => tagByte (a + i) s

/-- Writes bytes of the tag memory. -/
def tagPut (a : Nat) (bs : List Byte) (s : State) : State := s.updTag fun t => { t with mem := putBytes 0 t.mem a bs }

/-- Where an NDEF copy and a commissioning copy start. -/
def ndefBase (k : Nat) : Nat := 0x100 + 0x1000 * k
def commBase (k : Nat) : Nat := 0x2100 + 0x400 * k

/-- Where a file starts, and its length: fields see the active copies. -/
def fileAt (f : TagFile) (s : State) : Nat × Nat :=
  match f with
  | .cc => (0, 15)
  | .ndef => (ndefBase s.tag.active, 0x1000)
  | .host => (0x2900, 0x1000)
  | .comm => (commBase s.tag.commAct, 0x400)

/-- The number that bytes spell, most significant byte first: NLEN, and identifiers. -/
def beField (a : Nat) (s : State) : Nat := beNat (tagBytes a 2 s)

/-- The bytes of the active NDEF file in use: NLEN and the message. -/
def ndefUsed (s : State) : Nat := 2 + beField (ndefBase s.tag.active) s

/-! ## Rights and settings -/

/-- Main power is present, so that the registers hold what the control block copies. -/
def tagPowered (s : State) : Bool := domainOn 7 s

/-- The tag answers a field. -/
def tagEnabled (s : State) : Bool := if tagPowered s then getB s Reg.TAG_CFG_EN else s.tag.cbEn

/-- QUIET_T, WRMODE and VMIN as the tag uses them. -/
def tagQuietT (s : State) : Nat := clamp 1 30 (if tagPowered s then getF s Reg.TAG_CFG_QUIET_T else s.tag.cbQuiet)
def tagWrMode (s : State) : Nat := min 2 (if tagPowered s then getF s Reg.TAG_CFG_WRMODE else s.tag.cbMode)
def tagVmin (s : State) : Nat := clamp 18 33 (if tagPowered s then getF s Reg.TAG_WRCHK_VMIN else s.tag.cbVmin)

/-- Counts violation `k` (1 to 4), logged with PD7 powered (R339). -/
def tagViolation (k : Nat) (s : State) : State :=
  let i : Fin 4 := Fin.ofNat 4 (k - 1)
  let s := s.updTag fun t => { t with viol := t.viol.set i.val (satInc 0xFFFF (t.viol.get i)) i.isLt }
  if tagPowered s then logViolation 9 k 0 s else s

/-- The tag answers a command with data and a status word; the transaction does not end with a COMMIT so far. -/
def respond (bs : List Byte) (sw : Nat) (s : State) : State :=
  s.updTag fun t => { t with resp := bs ++ beBytes sw 2, committed := false }

/-- A command of a field reaches the tag only in a field transaction, and a muted tag answers nothing (R335). -/
def tagCommand (f : State → State) (s : State) : State := if s.tag.inTx && !muted s then f s else s

/-! ## Field transactions (R329, R334, R338) -/

/-- TAG_TRANSACTION_START: the tag's first answer to REQA or WUPA. -/
def txStart (s : State) : State :=
  if !domainOn 1 s || !tagEnabled s || s.tag.quiet || muted s || s.tag.inTx then s
  else
    let m := tagWrMode s
    let s := (s |> boundary Reg.TAG_CFG_WRMODE |> setF Reg.TAG_LAST_CODE 0).updSys fun y => { y with rfField := true }
    s.updTag fun t => { t with inTx := true, appSel := false, file := none, knock := none, auth := false, wrote := false
                               readTo := 0, committed := false, wrMode := m }

def execTagTransactionStart (s : State) : Out := .next (txStart s)

/-- The transaction was completed (R329). -/
def completed (s : State) : Bool := s.tag.committed || decide (ndefUsed s ≤ s.tag.readTo)

/-- A field transaction ends: quiet hold after a completed one, EV_TAG_DONE and the doorbell with PD7 powered. -/
def txEnd (s : State) : State :=
  if !s.tag.inTx then s
  else
    let done := completed s
    let read : Bool := ndefUsed s ≤ s.tag.readTo
    let wrote := s.tag.wrote
    let s := s |> setB Reg.TAG_LAST_AUTH s.tag.auth |> setB Reg.TAG_LAST_COMPLETED done |> setB Reg.TAG_LAST_WRITTEN wrote
    let s := s.updTag fun t => { t with
      inTx := false, appSel := false, file := none, knock := none, auth := false, count := (t.count + 1) % 0x10000
      receipts := if read then t.receipts.map (fun r => (r.1, true)) else t.receipts }
    let s := if done then (boundary Reg.TAG_CFG_QUIET_T s).updTag fun t => { t with quiet := true, quietLeft := tagQuietT s } else s
    if tagPowered s then s |> raiseHw 0x22 (ofBool wrote) |> ringOut 1 0 else s

def execDeselect (s : State) : Out := .next (txEnd s)
def execHlta (s : State) : Out := .next (txEnd s)
def execTagIdleTimeout (s : State) : Out := .next (txEnd s)

/-- QUIET_HOLD_END. -/
def execQuietHoldEnd (s : State) : Out := .next (s.updTag fun t => { t with quiet := false, quietLeft := 0 })

/-! ## Commands (R329) -/

/-- The C-APDU that selects the NDEF application. -/
def selectNdef : List Byte := [0x00, 0xA4, 0x04, 0x00, 0x07, 0xD2, 0x76, 0x00, 0x00, 0x85, 0x01, 0x01, 0x00]

/-- The CLA and INS pairs of R329. -/
def knownPair (bs : List Byte) : Bool :=
  match bs with
  | cla :: ins :: _ =>
    (cla == 0x00 && (ins == 0xA4 || ins == 0xB0 || ins == 0xD6)) ||
    (cla == 0x80 && (ins == 0xE2 || ins == 0xE4 || ins == 0xE6 || ins == 0xE8))
  | _ => false

/-- SELECT_APPLICATION: any other APDU that comes this way is a malformed one, or one that the tag does not know. -/
def selectApp (apdu : List Byte) (s : State) : State :=
  if apdu = selectNdef then (respond [] 0x9000 s).updTag fun t => { t with appSel := true, file := none }
  else s |> tagViolation 1 |> respond [] (if knownPair apdu then 0x6700 else 0x6D00)

def execSelectApplication (apdu : List (BitVec 8)) (s : State) : Out := .next (tagCommand (selectApp apdu) s)

/-- The file of an identifier. -/
def fileOfId (id : Nat) : Option TagFile :=
  match id with
  | 0xE103 => some .cc
  | 0xE104 => some .ndef
  | 0xE105 => some .host
  | 0xE106 => some .comm
  | _ => none

/-- SELECT_FILE: the application must be selected before. -/
def selectFile (id : Nat) (s : State) : State :=
  match fileOfId id with
  | some f => if s.tag.appSel then (respond [] 0x9000 s).updTag fun t => { t with file := some f } else respond [] 0x6A82 s
  | none => respond [] 0x6A82 s

def execSelectFile (file : BitVec 16) (s : State) : Out := .next (tagCommand (selectFile file.toNat) s)

/-- Bytes read of the active NDEF copy, from 0 on without a gap. -/
def noteRead (f : TagFile) (off len : Nat) (s : State) : State :=
  if f = .ndef ∧ off ≤ s.tag.readTo then s.updTag fun t => { t with readTo := max t.readTo (off + len) } else s

/-- READ_BINARY: with no file selected the status word is not given, and is a free value. -/
def readBinary (off le : Nat) (s : State) : State :=
  let n := if le = 0 then 256 else le
  if 246 < n then s |> tagViolation 1 |> respond [] 0x6700
  else match s.tag.file with
  | none => let r := freeBelow 0x10000 s; respond [] r.1 r.2
  | some f =>
    if f = .comm ∧ !s.tag.auth then respond [] 0x6982 s
    else
      let (base, size) := fileAt f s
      if size < off + n then respond [] 0x6B00 s
      else s |> noteRead f off n |> respond (tagBytes (base + off) n s) 0x9000

def execReadBinary (off : BitVec 16) (le : BitVec 8) (s : State) : Out :=
  .next (tagCommand (readBinary off.toNat le.toNat) s)

/-- The rights of R332: authenticated, PD0 powered with an installer window open, and not INERT. -/
def writeRights (s : State) : Bool := s.tag.auth && domainOn 0 s && installer s && s.sys.mode != .inert

/-- A write refused for a weak field (R333). -/
def weakField (s : State) : State := s |> setF Reg.TAG_LAST_CODE fieldWeak |> tagViolation 4 |> respond [] 0x6581

/-- The commissioning copy that writes land in: the active one in mode 1 (R333). -/
def writeCopy (s : State) : Nat := if s.tag.wrMode = 1 then s.tag.commAct else 1 - s.tag.commAct

/-- UPDATE_BINARY. -/
def updateBinary (off : Nat) (data : List Byte) (vr : Nat) (s : State) : State :=
  if 246 < data.length then s |> tagViolation 1 |> respond [] 0x6700
  else if !writeRights s then s |> tagViolation 3 |> respond [] 0x6982
  else if s.tag.file ≠ some .comm then respond [] 0x6982 s
  else if 0x400 < off + data.length then respond [] 0x6B00 s
  else if s.tag.wrMode ≠ 0 ∧ vr < tagVmin s then weakField s
  else (s |> tagPut (commBase (writeCopy s) + off) data |> respond [] 0x9000).updTag fun t => { t with wrote := true }

def execUpdateBinary (off : BitVec 16) (data : List (BitVec 8)) (vr : BitVec 8) (s : State) : Out :=
  .next (tagCommand (updateBinary off.toNat data vr.toNat) s)

/-- GET_ORIGIN (R336). -/
def execGetOrigin (s : State) : Out := .next (tagCommand (respond (tagBytes 0x40 64 s) 0x9000) s)

/-- The commissioning key in engine TAG, derived under the knot imported with the label "CMSN" below knot 4; none where no
such knot is live (16 R352). -/
def tagKey (s : State) : Option (BitVec 128) :=
  match knotNamed 4 [0x43, 0x4D, 0x53, 0x4E] s with
  | some (k, e) => if e.state = .cut then none else some (BitVec.ofNat 128 (workingKey k Config.tagKeyLabel engTag false s).key)
  | none => none

/-- The first 8 bytes of AES-CMAC over a tag byte and two challenges. -/
def knockMac (key : BitVec 128) (b : Byte) (x y : BitVec 128) : List Byte :=
  (beBytes (Config.cmac key (b :: beBytes x.toNat 16 ++ beBytes y.toNat 16)).toNat 16).take 8

/-- KNOCK: the tag's challenge comes from its random source, a free value; so does its answer when the key is cut. -/
def knock (ch : BitVec 128) (s : State) : State :=
  let r := freeWide s
  let ct := r.1.setWidth 128
  let s := r.2
  let (mac, s) := match tagKey s with
    | some k => (knockMac k 0x4B ch ct, s)
    | none => let q := freeBelow (2 ^ 64) s; (beBytes q.1 8, q.2)
  (respond (beBytes ct.toNat 16 ++ mac) 0x9000 s).updTag fun t => { t with knock := some (ch, ct), auth := false }

def execKnock (ch : BitVec 128) (s : State) : Out := .next (tagCommand (knock ch) s)

/-- KNOCK_PROOF. -/
def knockProof (proof : BitVec 64) (s : State) : State :=
  let good : Bool := match s.tag.knock, tagKey s with
    | some (ch, ct), some k => knockMac k 0x50 ct ch == beBytes proof.toNat 8
    | _, _ => false
  if good then (respond [] 0x9000 s).updTag fun t => { t with auth := true }
  else s |> tagViolation 2 |> respond [] 0x6300

def execKnockProof (proof : BitVec 64) (s : State) : Out := .next (tagCommand (knockProof proof) s)

/-! ## The commissioning record (R332, R333, 02 R28) -/

/-- A commissioning record stands the check of COMMIT. -/
def recordOk (bs : List Byte) : Bool :=
  let len := fieldOf bs 6 2
  bs.take 4 == [0x43, 0x4D, 0x53, 0x4E] && decide (12 ≤ len) && decide (len ≤ 1024) &&
  (crc32 (bs.take 8 ++ [0, 0, 0, 0] ++ (bs.take len).drop 12)).toNat == fieldOf bs 8 4

/-- The items of a record: ID, LEN, and the value padded to a multiple of 4 bytes (19 R411). -/
def itemsOf : Nat → List Byte → List SettingItem
  | 0, _ => []
  | n + 1, bs =>
    if bs.length < 4 then []
    else
      let len := fieldOf bs 2 2
      ⟨fieldOf bs 0 2, (bs.drop 4).take len⟩ :: itemsOf n (bs.drop (4 + (len + 3) / 4 * 4))

/-- The settings items of the active commissioning copy. -/
def recordItems (s : State) : List SettingItem :=
  let bs := tagBytes (commBase s.tag.commAct) 0x400 s
  itemsOf 256 ((bs.take (fieldOf bs 6 2)).drop 12)

/-- The module enters COMMISSION with these uncommitted settings: the outputs turn off, and the pilot goes to state F. -/
def enterCommission (items : List SettingItem) (s : State) : State :=
  let s := s.updSys fun y => { y with staged := items }
  let s := (List.finRange 12).foldl (fun s n => outOff n s) s
  s |> fenceOutputs 0xFFF none |> enterMode .commission |> settle

/-- A role mode may give way to COMMISSION: an installer window open, and no session. -/
def mayCommission (s : State) : Bool := s.sys.mode == roleMode s.sys.role && installer s && !sessionActive s

/-- A committed record that waits is taken up when the module can enter COMMISSION, or in COMMISSION itself: its settings
become the uncommitted ones (02 R25, R28). -/
def takeRecord (s : State) : State :=
  if s.tag.commPend && s.sys.booted then
    let t := s.updTag fun t => { t with commPend := false }
    if s.sys.mode = .commission then t.updSys fun y => { y with staged := recordItems s }
    else if mayCommission s then enterCommission (recordItems s) t else s
  else s

/-- TAG_COMMIT: in mode 1 the copy written is already the active one (R333). -/
def tagCommit (vr : Nat) (s : State) : State :=
  if !writeRights s then s |> tagViolation 3 |> respond [] 0x6982
  else if s.tag.wrMode = 2 ∧ vr < tagVmin s then weakField s
  else if !recordOk (tagBytes (commBase (writeCopy s)) 0x400 s) then respond [] 0x6982 s
  else
    let k := writeCopy s
    ((respond [] 0x9000 s).updTag fun t => { t with commAct := k, commPend := true, wrote := true, committed := true })
      |> takeRecord

def execTagCommit (vr : BitVec 8) (s : State) : Out := .next (tagCommand (tagCommit vr.toNat) s)

/-! ## Receipts (R330, R331) -/

/-- A short NDEF record: its flags besides SR, its type and its payload. -/
def ndefRecord (tnf : Byte) (type payload : List Byte) : List Byte :=
  [0x10 ||| tnf, BitVec.ofNat 8 type.length, BitVec.ofNat 8 payload.length] ++ type ++ payload

/-- The ASCII bytes of a number, at least `n` digits. -/
def digits (n v : Nat) : List Byte :=
  let ds := (Nat.toDigits 10 v).map fun c => BitVec.ofNat 8 c.toNat
  List.replicate (n - ds.length) 0x30 ++ ds

/-- A number of thousandths, with 3 decimals. -/
def decimals (v : Nat) : List Byte := digits 1 (v / 1000) ++ [0x2E] ++ digits 3 (v % 1000)

/-- Calendar time of a ledger time: UTC without an active calendar (11 R224). -/
def calendarTime (t : Nat) (s : State) : Nat := match s.led.calAct with | some c => c.localTime t | none => t

/-- hh:mm of a calendar time. -/
def clockText (t : Nat) : List Byte := digits 2 (t % 86400 / 3600) ++ [0x3A] ++ digits 2 (t % 3600 / 60)

/-- YYYY-MM-DD of a calendar time. -/
def dateText (t : Nat) : List Byte :=
  let d := dateOfDay (t / 86400)
  digits 4 d.year ++ [0x2D] ++ digits 2 d.month ++ [0x2D] ++ digits 2 d.day

/-- The text of a receipt: the import in kWh and the cost, 3 decimals each. -/
def receiptText (sess : List Byte) (s : State) : List Byte :=
  let t0 := calendarTime (fieldOf sess 0x0C 4) s
  let t1 := calendarTime (fieldOf sess 0x10 4) s
  let e := (fieldOf sess 0x28 8 - fieldOf sess 0x20 8) / 1000
  let c := signedOf 32 (fieldOf sess 0x34 4)
  dateText t0 ++ [0x20] ++ clockText t0 ++ [0x2D] ++ clockText t1 ++ [0x20] ++ decimals e ++
    [0x20, 0x6B, 0x57, 0x68, 0x20] ++ (if c < 0 then [0x2D] else []) ++ decimals c.natAbs

/-- The language code of the settings locale; where no LOCALE is stored it is a free value. -/
def localeCode (s : State) : List Byte × State :=
  match s.sys.settings.find? (·.item = 1) with
  | some i => ((i.value ++ [0, 0]).take 2, s)
  | none => let r := freeBelow 0x10000 s; (beBytes r.1 2, r.2)

/-- "application/vnd.wirdoar.receipt". -/
def receiptType : List Byte := ("application/vnd.wirdoar.receipt".toList).map fun c => BitVec.ofNat 8 c.toNat

/-- A receipt: a Text record and a MIME record (R331). -/
def receiptBytes (lang sess sealRec : List Byte) (s : State) : List Byte :=
  ndefRecord 1 [0x54] ([0x02] ++ lang ++ receiptText sess s) ++
  ndefRecord 2 receiptType ([0x01, 0, 0, 0] ++ sess ++ sealRec)

/-- The length of the receipt at the head of a message: its two short records. -/
def receiptLength (bs : List Byte) : Nat :=
  let n1 := 3 + byteOf bs 1 + byteOf bs 2
  let r := bs.drop n1
  n1 + 3 + byteOf r 1 + byteOf r 2

/-- The first `n` receipts of a message. -/
def firstReceipts : Nat → List Byte → List (List Byte)
  | 0, _ => []
  | n + 1, bs => if bs.length < 6 then [] else bs.take (receiptLength bs) :: firstReceipts n (bs.drop (receiptLength bs))

/-- Sets a flag on the record at offset `o` of a message. -/
def flagAt (o : Nat) (flag : Byte) (bs : List Byte) : List Byte := bs.mapIdx fun i b => if i = o then b ||| flag else b

/-- The receipts without message flags, as one message: MB on the first record, ME on the last (R331). -/
def messageOf (rs : List (List Byte)) : List Byte :=
  let plain := rs.map fun r =>
    let n1 := 3 + byteOf r 1 + byteOf r 2
    r.mapIdx fun i b => if i = 0 ∨ i = n1 then b &&& 0x3F else b
  let bs := plain.flatten
  let last := match plain.getLast? with
    | some r => bs.length - r.length + 3 + byteOf r 1 + byteOf r 2
    | none => 0
  bs |> flagAt 0 0x80 |> flagAt last 0x40

/-- The record of the own ledger with a TYPE and a SEQ. -/
def ownRecord (type seq : Nat) (s : State) : Option (List Byte) :=
  (s.led.records.find? fun r =>
    byteOf r.bytes 0 == type && byteOf r.bytes 2 == ownChannel s && fieldOf r.bytes 4 4 == seq).map (·.bytes)

/-- The first SEAL after a SEQ (R242). -/
def sealAfter (seq : Nat) (s : State) : Option (List Byte) :=
  (s.led.records.reverse.find? fun r =>
    byteOf r.bytes 0 == 0x0F && byteOf r.bytes 2 == ownChannel s && decide (seq < fieldOf r.bytes 4 4)).map (·.bytes)

/-- RCPT_N receipts are held that no completed transaction has read, and KEEP is set. -/
def receiptsFull (n : Nat) (s : State) : Bool :=
  getB s Reg.TAG_CFG_KEEP && decide (n ≤ s.tag.receipts.length) && (s.tag.receipts.take n).all fun r => !r.2

/-- The new message goes into the inactive copy, which becomes active in one write. -/
def writeReceipt (seq n : Nat) (sess sealRec : List Byte) (s : State) : State :=
  let (lang, s) := localeCode s
  let old := (tagBytes (ndefBase s.tag.active) (ndefUsed s) s).drop 2
  let msg := messageOf (receiptBytes lang sess sealRec s :: firstReceipts (n - 1) old)
  let k := 1 - s.tag.active
  let s := tagPut (ndefBase k) (beBytes msg.length 2 ++ msg) s
  s.updTag fun t => { t with active := k, rcptSeq := seq, receipts := ((seq, false) :: t.receipts).take n }

/-- TAG_RECEIPT: it waits for the SEAL, and for PFW_N to be high. -/
def tagReceipt (c : Call) (s : State) : State :=
  let s := boundary Reg.TAG_CFG_RCPT_N s
  let n := clamp 1 8 (inForce s Reg.TAG_CFG_RCPT_N)
  if s.tag.inTx then finishCode c.id rcFieldBusy [] s
  else match ownRecord 0x02 (c.arg 0) s with
  | none => s |> setF Reg.TAG_ERR_BADSEQ 1 |> finishCode c.id rcOk []
  | some sess =>
    if receiptsFull n s then finishCode c.id rcTagFull [] s
    else match sealAfter (c.arg 0) s with
    | none => s
    | some sealRec => if s.sys.pfwLow then s else s |> writeReceipt (c.arg 0) n sess sealRec |> finishCode c.id rcOk []

/-- TAG_RECEIPT. -/
def execTagReceipt (s : State) : Out := .next (serve 0x900 tagReceipt s)

/-! ## The field without main power (02 R28) -/

/-- RF_FIELD_APPEAR: without main power the module enters TAG_ONLY. -/
def fieldAppear (s : State) : State :=
  let s := s.updSys fun y => { y with rfField := true }
  if s.sys.mode = .noPower ∨ s.sys.mode = .backup then s.updSys fun y => { y with mode := .tagOnly } else s

def execRfFieldAppear (s : State) : Out := .next (fieldAppear s)

/-- FIELD_LOST: the transaction ends; TAG_ONLY goes back to BACKUP, or to no power. -/
def fieldLost (s : State) : State :=
  let s := (txEnd s).updSys fun y => { y with rfField := false }
  if s.sys.mode = .tagOnly then
    let m := if s.sys.vbackOk then Mode.backup else Mode.noPower
    clearRegs [1] (s.updSys fun y => { y with mode := m })
  else s

def execFieldLost (s : State) : Out := .next (fieldLost s)

end Sys2Proof.Machine
end

