-- ==== Sys2Proof/Machine/Views.lean ====
section
/-! DEFINITION. What the registers show that are views of the machine's other state: the RO fields whose value is not a
stored field, and the fields that the manual keeps elsewhere (the strand table, the calendars, the key tree). -/
namespace Sys2Proof.Machine

/-- A field and the value it shows. -/
abbrev Shown := List (Field × Nat)

/-- What a list shows in field `f`. -/
def pickShown (f : Field) : Shown → Option Nat
  | [] => none
  | (g, v) :: l => if f = g then some v else pickShown f l

/-- MSEL as the straps spell it (R23). -/
def mselCode : Role → Nat
  | .standalone => 0 | .hub => 1 | .head => 2 | .repeater => 3

/-- The domains that are on, bit k for PDk (PWR_DOMAINS). -/
def domainsOn (s : State) : Nat := (List.range 8).foldl (fun v d => v + (if domainOn d s then 2 ^ d else 0)) 0

/-- An outbound doorbell of mailbox `k` is pending and enabled (R399). -/
def mailboxBit (k : Nat) (s : State) : Bool := getF s (Reg.MB_OUT_PEND_PEND k) &&& getF s (Reg.MB_OUT_EN_EN k) ≠ 0

/-- HOST_IRQ: READY in bit 8, mailbox k in bit k (R399). -/
def hostIrq (s : State) : Nat :=
  (List.range 8).foldl (fun v k => v + (if mailboxBit k s then 2 ^ k else 0)) 0 +
  256 * (getF s (Reg.MB_IN_PEND_PEND 0) % 2)

/-- In BOOT the blocks that firmware sets up show their Reset columns (00 R5). -/
def settled (s : State) : Bool := s.sys.mode != .boot

/-- System control and power: pages 0x0. READY is what step 16 of R30 sets, which a boot into FACTORY does not reach. -/
def showSystem (s : State) : Shown := [
  (Reg.SYS_CTRL_REQ_COMMISSION, ofBool (s.sys.mode == .commission)),
  (Reg.SYS_MODE_MODE, s.sys.mode.code),
  (Reg.SYS_ROLE_MSEL, mselCode s.sys.role), (Reg.SYS_ROLE_ROLE, (roleMode s.sys.role).code),
  (Reg.SYS_STATUS_RTC_VALID, ofBool s.led.rtcValid), (Reg.SYS_STATUS_ACTIVE_CORE, ofBool s.store.coreB),
  (Reg.SYS_STATUS_SESSION_ACTIVE, ofBool (sessionActive s)), (Reg.SYS_STATUS_OUTLET_HELD, ofBool (settled s && outletHeld s)),
  (Reg.SYS_STATUS_READY, ofBool (s.sys.booted && s.sys.factoryDone)),
  (Reg.HOST_IRQ_READY, hostIrq s / 256), (Reg.HOST_IRQ_MB, hostIrq s % 256),
  (Reg.PWR_DOMAINS_ON, domainsOn s)]

/-- The number of strands for which `p` holds. -/
def countStrands (p : Strand → Bool) (s : State) : Nat := (s.cap.strands.toList.filter p).length

/-- The strand that GAL_DBG_SEL names, and its galley. -/
def shownStrand (s : State) : Strand := s.cap.strands.toList.getD (getF s Reg.GAL_DBG_SEL_STRAND) Strand.reset

/-- What a galley shows in its header (05, GAL_DBG_HDR). -/
def showGalley (g : Galley) (s : State) : Shown := [
  (Reg.GAL_DBG_HDR_OPEN, 1), (Reg.GAL_DBG_HDR_ENTRIES, g.held.length), (Reg.GAL_DBG_HDR_EV, g.ev.toNat),
  (Reg.GAL_DBG_HDR_PD, g.pd), (Reg.GAL_DBG_HDR_PENDING, ofBool g.resolved.isSome),
  (Reg.GAL_DBG_HDR_MATCH, ofBool (g.resolved == some .lockUp)), (Reg.GAL_DBG_HDR_EXP, g.exp.toNat),
  (Reg.GAL_DBG_ALT_ALT, g.alt.toNat), (Reg.GAL_DBG_TMO_TMO_LEFT, (g.tmoEnd - s.sys.usec) / 1000)]

/-- The Capstan (03) and the galley debug view (05). -/
def showCapstan (s : State) : Shown := [
  (Reg.CAP_STATUS_FCAP, fCap s), (Reg.CAP_STATUS_CL0_COUNT, countStrands (fun t => t.cls == 0) s),
  (Reg.CAP_STATUS_DBG_ACTIVE, ofBool (countStrands (fun t => t.st == .halted) s != 0)),
  (Reg.GAL_POOL_CL0_FREE, s.cap.poolFree true), (Reg.GAL_POOL_FREE, s.cap.poolFree false),
  (Reg.GAL_STALL_STALLED, countStrands (fun t => t.st == .stalled) s)] ++ ((shownStrand s).galley.map fun g => showGalley g s).getD []

/-- The subscription of slot `i` of a strand. -/
def subOf (t : Strand) (i : Nat) : Nat := (t.sub.toList.map (·.toNat)).getD i 0

/-- The entry of strand `k` in the strand table (03). -/
def showStrand (k : Nat) (s : State) : Shown :=
  let t := s.cap.strands.toList.getD k Strand.reset
  [(Reg.ST_CFG_CLASS k, t.cls.val), (Reg.ST_CFG_ENTRY k, t.entry.toNat),
   (Reg.ST_WIN_BASE k, t.winBase), (Reg.ST_WIN_SIZE k, t.winSize),
   (Reg.ST_EVSUB0_SLOT0 k, subOf t 0), (Reg.ST_EVSUB0_SLOT1 k, subOf t 1), (Reg.ST_EVSUB0_SLOT2 k, subOf t 2),
   (Reg.ST_EVSUB0_SLOT3 k, subOf t 3), (Reg.ST_EVSUB1_SLOT4 k, subOf t 4), (Reg.ST_EVSUB1_SLOT5 k, subOf t 5),
   (Reg.ST_EVSUB1_SLOT6 k, subOf t 6), (Reg.ST_EVSUB1_SLOT7 k, subOf t 7),
   (Reg.ST_EVEN_PENDING k, t.pending.toNat), (Reg.ST_EVEN_EN k, t.en.toNat),
   (Reg.ST_FBK_FB_EN k, ofBool t.fbEn), (Reg.ST_FBK_PORT k, t.fbPort), (Reg.ST_FBK_VALUE k, t.fbValue),
   (Reg.ST_STATE_STATE k, t.st.code), (Reg.ST_STATE_SPEC k, ofBool t.galley.isSome),
   (Reg.ST_STATE_PRED k, t.p.toNat / 2), (Reg.ST_STATE_PC k, t.pc.toNat),
   (Reg.ST_INFO_FAULT k, if t.st = .faulted then t.fault else 0), (Reg.ST_INFO_HWM k, t.hwm)]

/-- What limits the ceiling (VI_CEIL.SOURCE, R125). -/
def ceilingSource (s : State) : Nat :=
  if !settled s then 0
  else if cableRating s = 0 then 3
  else if getF s Reg.VI_RATING_RATED_A ≤ cableRating s then 0
  else if getB s Reg.VI_CFG_TETHERED then 2 else 1

/-- The vehicle interface (07). -/
def showVehicle (s : State) : Shown := [
  (Reg.VI_PILOT_TRIP, ofBool (holds 5 s)), (Reg.VI_PP_CODE, cableRating s),
  (Reg.VI_CEIL_SOURCE, ceilingSource s), (Reg.VI_CEIL_CEIL, ceiling s), (Reg.VI_HLC_STATUS, hlcStatus s)]

/-- CONT_STATUS.SEQ (08). -/
def sequence (s : State) : Nat :=
  match s.sw.stage with
  | .opened => if held s &&& 0x1FF = 0 then 0 else 5
  | .closing | .closing2 => 1
  | .closed => 2
  | .currentWait => 3
  | .opening | .dutyOff | .feedback | .split => 4

/-- Bits of the twelve outputs for which `p` holds. -/
def outputBits (p : Fin 12 → Bool) : Nat := (List.finRange 12).foldl (fun v n => v + (if p n then 2 ^ n.val else 0)) 0

/-- Contactors and outputs; `k` numbers the register (08). -/
def showSwitch (k : Nat) (s : State) : Shown := [
  (Reg.CONT_CFG_EN, ofBool (contEn s)),
  (Reg.CONT_STATUS_SEQ, sequence s), (Reg.CONT_STATUS_NEXT_DUTY, ofBool (nextDuty2 s)),
  (Reg.CONT_STATUS_STATE, contState s),
  (Reg.CONT_DELAY_K1, openDelay s.sw.dly1), (Reg.CONT_DELAY_K2, openDelay s.sw.dly2),
  (Reg.CONT_WEAR_COUNT k, if k = 0 then s.sw.wear1 else s.sw.wear2),
  (Reg.OUT_STATUS_ON, outState s % 4096), (Reg.OUT_STATUS_FAULT, outState s / 4096),
  (Reg.OUT_CELLS_ON_B, s.sw.onB.toNat), (Reg.OUT_CELLS_B_SPENT, outputBits fun n => decide (40000000 ≤ s.sw.cellB.get n)),
  (Reg.OUT_DIAG_RETRIES k, if h : k < 12 then min 15 (recentRestarts ⟨k, h⟩ s).length else 0),
  (Reg.OUT_ENERGY_CELL_A k, min 65535 (s.sw.cellA.toList.getD k 0 / 1000)),
  (Reg.OUT_ENERGY_CELL_B k, min 65535 (s.sw.cellB.toList.getD k 0 / 1000))]

/-- The safety supervisor (09). -/
def showSafety (s : State) : Shown :=
  if settled s then [
    (Reg.SAFE_OC_STATUS_GRACE, ofBool s.sup.graceOn), (Reg.SAFE_OC_STATUS_NEXT_TH, thresholdFor s.pilot.alloc s),
    (Reg.SAFE_OC_STATUS_TH, threshold s)]
  else []

/-- The chain that serves input `i` (MET_MAP). -/
def mapOf (i : Nat) (s : State) : Nat := s.met.map.toList.getD i 15

/-- Metrology; `k` numbers the register (10). -/
def showMetrology (k : Nat) (s : State) : Shown :=
  let idx := getF s Reg.MET_CAL_IDX_IDX
  [(Reg.MET_STATUS_NO_SPARE, getF s Reg.SYS_HEALTH_METRO_NO_SPARE), (Reg.MET_STATUS_RETIRED, s.met.retired.toNat),
   (Reg.MET_STATUS_FREE, if s.met.free < 9 then s.met.free else 15),
   (Reg.MET_MAP_VA, mapOf 0 s), (Reg.MET_MAP_VB, mapOf 1 s), (Reg.MET_MAP_VC, mapOf 2 s), (Reg.MET_MAP_VN, mapOf 3 s),
   (Reg.MET_MAP_IA, mapOf 4 s), (Reg.MET_MAP_IB, mapOf 5 s), (Reg.MET_MAP_IC, mapOf 6 s), (Reg.MET_MAP_IN, mapOf 7 s),
   (Reg.MET_TOT_LO_LOW k, s.met.tot.toList.getD k 0 % 2 ^ 32), (Reg.MET_TOT_HI_HIGH k, s.met.totLatch.toList.getD k 0),
   (Reg.MET_CAL_VAL_VALUE, (calRead idx s).toNat),
   (Reg.MET_CAL_STAT_STAGED, ofBool !s.met.staged.isEmpty), (Reg.MET_CAL_STAT_COUNT, min 65535 s.met.calCount),
   (Reg.MET_ZC_STAMP k, stampNow k s),
   (Reg.MET_CAL_MEAS_PAD_RMS, s.met.padRms.toList.getD (idx / 4) 0),
   (Reg.MET_CAL_ANG_ANGLE, if idx < 16 then 0 else signed32 (s.met.padAng.toList.getD (idx / 4 - 4) 0))]

/-- The entry `k` of the AO tamper log, oldest first (R247). -/
def tamperAt (k : Nat) (s : State) : TamperEntry := s.led.tmpLog.getD k ⟨0, 0, false, 0⟩

/-- The next boundary of any kind (LED_NEXT). -/
def anyBoundary (s : State) : Nat := ((nextBoundaries s).1.head?.map (·.time)).getD (nextBoundaries s).2

/-- LED_BALk: A of account `k`; outside HUB only the own channel's account reads other than 0. -/
def shownBalance (k : Nat) (s : State) : Nat :=
  if s.sys.role = .hub ∨ k = ownChannel s then signed32 (accountAt k s).credit else 0

/-- The ledger, the clock and the tamper log; `k` numbers the register (11). -/
def showLedger (k : Nat) (s : State) : Shown := [
  (Reg.LED_STATUS_BOUNDARY_PENDING, ofBool !(led s).pend.isEmpty), (Reg.LED_STATUS_EXPORT_LAG, ofBool (exportLag s)),
  (Reg.LED_STATUS_HOLD, ofBool (ledHeld s)), (Reg.LED_STATUS_TIME_UNSURE, ofBool (led s).unsure),
  (Reg.LED_TIME_L, s.sys.ltime), (Reg.LED_HOLD_SECONDS, if ledHeld s then s.sys.ltime - s.led.w else 0),
  (Reg.LED_NEXT_NEXT, anyBoundary s), (Reg.LED_SEQ_SEQ, s.led.seq),
  (Reg.LED_RING_TAIL_OFFSET, ringOffset s.led.tail), (Reg.LED_RING_HEAD_OFFSET, ringOffset s.led.head),
  (Reg.LED_EXP_ACK_OFFSET, ringOffset s.led.ack), (Reg.LED_BILL_PERIOD, (led s).period),
  (Reg.LED_CAL_STAT_PASSIVE, ofBool s.led.calPas.isSome),
  (Reg.LED_CAL_ACTIVE_CAL_ID, (s.led.calAct.map (·.id)).getD 0),
  (Reg.LED_CAL_PASSIVE_CAL_ID, (s.led.calPas.map (·.id)).getD 0),
  (Reg.LED_BAL_A k, shownBalance k s)]

/-- The AO block; `k` numbers the register (11, 16). -/
def showAo (k : Nat) (s : State) : Shown :=
  let e := tamperAt k s
  [(Reg.AO_RTC_NOW_W, wallClock s), (Reg.AO_TMP_LOG_STAT_ENTRIES, s.led.tmpLog.length),
   (Reg.AO_TMP_LOG_TIME k, e.time), (Reg.AO_TMP_INFO_FLAGS k, e.flags), (Reg.AO_TMP_INFO_STATE k, ofBool e.opened),
   (Reg.AO_TMP_INFO_INPUT k, e.input)]

/-- The delivery in progress: its identifier, and the next chunk needed, or at the hub the members complete. -/
def shownDelivery (s : State) : Nat × Nat :=
  if s.sys.role = .hub then
    match s.link.pubs with
    | p :: _ => (p.id, p.done.length)
    | [] => (0, 0)
  else (s.link.deliv.map fun d => (d.id, d.next)).getD (0, 0)

/-- The bytes of a route that a lead register shows: unused entries are 0 (R258). -/
def routeBytes (n : Nat) (route : List Nat) : Nat := (List.range n).foldl (fun v i => v + route.getD i 0 * 256 ^ i) 0

/-- The site link; `k` numbers the register (12). -/
def showLink (k : Nat) (s : State) : Shown :=
  let x := nodeAt k s
  let route := (nodeAt (getF s Reg.LNK_LEAD_SEL_CHANNEL) s).lead
  [(Reg.LNK_STATUS_CHANNEL, if isNode s then s.link.chan else 0),
   (Reg.LNK_STATUS_ROUNDS, if isNode s then roundsSince s else 0),
   (Reg.LNK_STATUS_STATE, siteState s), (Reg.LNK_ROUND_COUNTER, s.link.roundCtr),
   (Reg.LNK_DELIV_ID, (shownDelivery s).1), (Reg.LNK_DELIV_NEXT, (shownDelivery s).2),
   (Reg.LNK_LEAD0_ROUTE, routeBytes 4 route), (Reg.LNK_LEAD1_ROUTE, routeBytes 3 (route.drop 4)),
   (Reg.LNK_RTIME_MS, if isNode s then min 0xFFFF (pollPeriod s / 1000) else getF s Reg.LNK_RTIME_MS),
   (Reg.LNK_NODE_REG k, ofBool x.reg), (Reg.LNK_NODE_MISSED k, ofBool x.missed), (Reg.LNK_NODE_DORMANT k, ofBool x.dormant),
   (Reg.LNK_NODE_INERT k, ofBool x.inert), (Reg.LNK_NODE_REPEATER k, ofBool x.repeater),
   (Reg.LNK_NODE_HOPS k, x.lead.length), (Reg.LNK_NODE_MOD k, x.modulation), (Reg.LNK_NODE_PHASE k, x.phase),
   (Reg.LNK_NODE_THREE k, ofBool x.three), (Reg.LNK_NODE_ROT_REV k, ofBool x.rotRev),
   (Reg.LNK_NODE_CARRIERS k, leadCarriers k s), (Reg.LNK_NODE_MISS_RUN k, min 255 x.missRun),
   (Reg.LNK_NODE_SEEN_ROUND k, x.seen)]

/-- Site allocation; `k` numbers the register (13). -/
def showAlloc (k : Nat) (s : State) : Shown :=
  let x := chanAt k s
  [(Reg.ALLOC_OWN_SOURCE, grantSource s), (Reg.ALLOC_OWN_EXPORT, (grants s).2), (Reg.ALLOC_OWN_IMPORT, (grants s).1),
   (Reg.ALLOC_CH_GRANT_EXPORT k, x.exp.grant), (Reg.ALLOC_CH_GRANT_IMPORT k, x.imp.grant),
   (Reg.ALLOC_CH_WANT_EXPORT k, x.exp.want), (Reg.ALLOC_CH_WANT_IMPORT k, x.imp.want),
   (Reg.ALLOC_CH_STATE_PAUSED k, ofBool (x.imp.paused || x.exp.paused)),
   (Reg.ALLOC_CH_STATE_HELD k, ofBool (x.imp.held != 0 || x.exp.held != 0)),
   (Reg.ALLOC_CH_STATE_RESERVED k, ofBool x.reserved), (Reg.ALLOC_CH_STATE_PROBING k, ofBool x.probe.isSome),
   (Reg.ALLOC_CH_STATE_OVERDRAW k, ofBool (3 ≤ x.over1 || 3 ≤ x.over2)),
   (Reg.ALLOC_CH_STATE_PHASES k, x.phases.toNat), (Reg.ALLOC_CH_STATE_LEARNED k, x.learned)]

/-- The reader, the directory and the tag; `k` numbers the register (14, 15). -/
def showReader (k : Nat) (s : State) : Shown := [
  (Reg.RD_STATE_STATUS, rdStatus s), (Reg.DIR_STATUS_COUNT, s.rd.dir.length),
  (Reg.DIR_STASH_USED_USED, (inStash s).length), (Reg.DIR_SEQ_SEQ, s.rd.seq),
  (Reg.TAG_STATE_TRANSACTIONS, s.tag.count), (Reg.TAG_STATE_COMM_PENDING, ofBool s.tag.commPend),
  (Reg.TAG_STATE_ACTIVE, s.tag.active), (Reg.TAG_STATE_STATUS, tagStatus s),
  (Reg.TAG_UID_LO_UID, Config.tagUid.toNat % 2 ^ 32), (Reg.TAG_UID_HI_UID, Config.tagUid.toNat / 2 ^ 32),
  (Reg.TAG_RCPT_SEQ_SEQ, s.tag.rcptSeq), (Reg.TAG_VIOL_COUNT k, s.tag.viol.toList.getD (k - 1) 0)]

/-- The knot that KEY_KNOT_SEL names: PARENT, DEPTH, STATE, CUTCLASS, MASK and EPOCH; a free knot shows the Reset column
(16). -/
def showKnot (s : State) : Shown :=
  let n := getF s Reg.KEY_KNOT_SEL_KNOT
  match knotAt n s with
  | none => []
  | some k => [
    (Reg.KEY_KNOT_INFO_PARENT, if n = 0 then 0xFFF else k.parent), (Reg.KEY_KNOT_INFO_DEPTH, k.depth),
    (Reg.KEY_KNOT_INFO_STATE, k.state.code), (Reg.KEY_KNOT_INFO_CUTCLASS, k.cutClass),
    (Reg.KEY_KNOT_INFO_MASK, k.mask.toNat), (Reg.KEY_KNOT_EPOCH_EPOCH, k.epoch)]

/-- The key unit (16). -/
def showKeys (s : State) : Shown := [
  (Reg.KEY_SLOTS_FREE, (freeSlots s).length), (Reg.KEY_SLOTS_USABLE, usableSlots s),
  (Reg.KEY_ENGINE_IN_USE, (List.range 8).foldl (fun v e => v + engineUse e s * 16 ^ e) 0)] ++ showKnot s

/-- Platen (17). -/
def showPlaten (s : State) : Shown := [
  (Reg.PL_STATUS_RUNNING, s.plt.upds.length), (Reg.PL_STATUS_JOURNAL, s.plt.journal.length),
  (Reg.PL_STATUS_PROOF_SHOWN, ofBool !s.plt.proof.isEmpty),
  (Reg.PL_STATUS_FAULT, ofBool (getB s Reg.PL_FAULT_CRACK || getB s Reg.PL_FAULT_READBACK)),
  (Reg.PL_STATUS_BUSY, ofBool (s.plt.upds != [] || s.plt.waiting != [])), (Reg.PL_SAVE_USED, s.plt.saved.length)]

/-- Queue `q`: Q0 to Q7 have the fixed ends of 06 R110 (18). -/
def showQueue (q : Nat) (s : State) : Shown :=
  if h : q < 64 then
    let l := qLevel s ⟨q, h⟩
    [(Reg.Q_CTRL_PROD q, if q < 8 then [2, 1, 0, 3, 2, 1, 2, 2].getD q 0 else getF s (Reg.Q_CTRL_PROD q)),
     (Reg.Q_CTRL_CONS q, if q < 8 then [0, 0, 1, 0, 1, 2, 2, 2].getD q 0 else getF s (Reg.Q_CTRL_CONS q)),
     (Reg.Q_STATUS_WM_ABOVE q, ofBool (decide (inForce s (Reg.Q_WM_WM q) ≤ l))),
     (Reg.Q_STATUS_FULL q, ofBool (qRoom s ⟨q, h⟩ == 0)), (Reg.Q_STATUS_HELD q, ofBool (getQ s ⟨q, h⟩).taker.isSome),
     (Reg.Q_STATUS_LEVEL q, l)]
  else []

/-- Store and update; `k` numbers the register (19). -/
def showStore (k : Nat) (s : State) : Shown := [
  (Reg.STORE_STATUS_RETIRED, retiredBlocks s), (Reg.STORE_STATUS_SPARE_LOW, ofBool (decide (storeFree s < 75))),
  (Reg.STORE_STATUS_FREE, storeFree s), (Reg.STORE_ERASE_MAX_COUNT, eraseMax s),
  (Reg.STORE_ERASE_MEAN_COUNT, eraseMean s), (Reg.STORE_LOGS_VIOL, s.store.logVi),
  (Reg.STORE_LOGS_EVENT, s.store.logEv),
  (Reg.UPD_SLOT_STATE k, (fwSlot k s).state.code), (Reg.UPD_SLOT_FMT_OLD k, ofBool (fwSlot k s).fmtOld),
  (Reg.UPD_SLOT_RESULT k, (fwSlot k s).result), (Reg.UPD_SLOT_VER_VERSION k, (fwSlot k s).version),
  (Reg.UPD_HANDOVER_COUNT, s.store.handovers), (Reg.FORME_STATE_PENDING, ofBool s.cap.formePending),
  (Reg.FORME_STATE_ACTIVE, s.store.formeAct), (Reg.FORME_VER_VERSION, s.store.formeVer),
  (Reg.LEGAL_VER_VERSION, s.store.legalVer)]

/-- What the registers at `addr`, with number `k`, show that is not a stored field. -/
def shownAt (addr k : Nat) (s : State) : Shown :=
  let page := addr / 0x10000
  if page = 0 then showSystem s
  else if page = 2 then showQueue k s
  else if page = 3 then (if addr < 0x31000 then showCapstan s else showStrand k s)
  else if page = 4 then showSafety s
  else if page = 5 then showSwitch k s
  else if page = 6 then showMetrology k s
  else if page = 7 then showLedger k s
  else if page = 8 then (if addr < 0x82000 then showLink k s else showAlloc k s)
  else if page = 9 then showVehicle s
  else if page = 10 then showReader k s
  else if page = 11 then showKeys s
  else if page = 12 then showPlaten s
  else if page = 13 then showStore k s
  else showAo k s

/-- The value that field `f` of a register with number `k` shows. -/
def shown (k : Nat) (f : Field) (s : State) : Nat := (pickShown f (shownAt f.addr k s)).getD (getF s f)

/-! ## Values that the surroundings or an activation under way give -/

/-- The bound of a field that shows a value the manual leaves open: a measured supply, a temperature, the level on a pad
that is not driven; while an activation checks, tests and migrates, its phase and its progress (assumption log 2). -/
def openBound (f : Field) (s : State) : Option Nat :=
  let early := getF s Reg.UPD_STATUS_PHASE == 1
  if f = Reg.PWR_MON_VBACK ∨ f = Reg.PWR_MON_VSYS ∨ f = Reg.PWR_TEMP_POWER ∨ f = Reg.PWR_TEMP_CONTROL then
    (if settled s then some (2 ^ f.width) else none)
  else if f = Reg.SYS_GPIO_IN_IN then some 256
  else if f = Reg.PWR_STATUS_CHARGING then (if getB s Reg.AO_VBACK_CFG_CHG && s.sys.mainGood then some 2 else none)
  else if f = Reg.UPD_STATUS_PHASE then (if early then some 3 else none)
  else if f = Reg.UPD_STATUS_MIG_PCT then (if early then some 101 else none)
  else none

/-- A read of a field: what it shows, and for an open value the next free one. The phase of an activation is 1 to 3; a pad
that is driven reads as driven, and the lock feedback input is never driven (SYS_GPIO, R441). -/
def readField (k : Nat) (f : Field) (s : State) : Nat × State :=
  match openBound f s with
  | none => (shown k f s, s)
  | some b =>
    let (v, s') := freeBelow b s
    if f = Reg.UPD_STATUS_PHASE then (v + 1, s')
    else if f = Reg.SYS_GPIO_IN_IN then
      let lock := if getB s Reg.VI_LOCK_EN then 2 ^ getF s Reg.VI_LOCK_FB_GPIO else 0
      let oe := getF s Reg.SYS_GPIO_OE &&& (255 ^^^ lock)
      ((v &&& (255 ^^^ oe)) ||| (getF s Reg.SYS_GPIO_OUT &&& oe), s')
    else (v, s')

end Sys2Proof.Machine
end

