-- ==== Sys2Proof/Machine/RegTable.lean ====
section
/-! DEFINITION. The register map: every register with its address, its fields, their access types and ranges (00 R4 to R6,
and the register tables of the chapters), and a write under the access types. -/
namespace Sys2Proof.Machine

/-- The access types (R6); RWP with the class of the presence window it needs. -/
inductive Access where
  | ro | rw | w1c | wo | rws | rwl | installer | metrology
  deriving DecidableEq, Repr

/-- A field of a register: its place, its access type, and the range that a written value is clamped to. -/
structure RegField where
  field : Field
  access : Access
  low : Nat
  high : Nat
  deriving DecidableEq, Repr

/-- A field whose description gives no range to clamp to. -/
def RegField.of (f : Field) (a : Access) : RegField := ⟨f, a, 0, 2 ^ f.width - 1⟩

/-- A field that is clamped to a range. -/
def RegField.in (f : Field) (a : Access) (low high : Nat) : RegField := ⟨f, a, low, high⟩

/-- A register, or a numbered family of them: address of number 0, stride, first number, count, and the fields. -/
structure RegRow where
  base : Nat
  stride : Nat
  first : Nat
  count : Nat
  fields : Nat → List RegField

/-- System control, host port, power. -/
def regsSys : List RegRow := [
  ⟨0x00004, 4, 0, 1, fun _ => [.of Reg.SYS_MODE_MODE .ro]⟩,
  ⟨0x00008, 4, 0, 1, fun _ => [.of Reg.SYS_ROLE_MSEL .ro, .of Reg.SYS_ROLE_ROLE .ro]⟩,
  ⟨0x0000C, 4, 0, 1, fun _ => [.of Reg.SYS_CTRL_REQ_COMMISSION .installer, .of Reg.SYS_CTRL_STBY_EN .rw]⟩,
  ⟨0x00010, 4, 0, 1, fun _ => [.of Reg.SYS_RESET_KEY .wo, .of Reg.SYS_RESET_CAP .wo, .of Reg.SYS_RESET_SOFT .wo]⟩,
  ⟨0x00014, 4, 0, 1, fun _ => [.of Reg.SYS_RST_CAUSE_AO_LOST .w1c, .of Reg.SYS_RST_CAUSE_CAPSTAN .w1c,
    .of Reg.SYS_RST_CAUSE_CORE_FAIL .w1c, .of Reg.SYS_RST_CAUSE_CTRL_STOP .w1c, .of Reg.SYS_RST_CAUSE_SOFT .w1c,
    .of Reg.SYS_RST_CAUSE_PFAIL .w1c, .of Reg.SYS_RST_CAUSE_VAUX .w1c, .of Reg.SYS_RST_CAUSE_RESET_PAD .w1c]⟩,
  ⟨0x00018, 4, 0, 1, fun _ => [.of Reg.SYS_INERT_REASON_REASON .ro]⟩,
  ⟨0x0001C, 4, 0, 1, fun _ => [.of Reg.SYS_TIMING_HOLD_T .rws, .of Reg.SYS_TIMING_STBY_IDLE .rw]⟩,
  ⟨0x00020, 4, 0, 1, fun _ => [.of Reg.SYS_STATUS_RTC_VALID .ro, .of Reg.SYS_STATUS_ACTIVE_CORE .ro,
    .of Reg.SYS_STATUS_SESSION_ACTIVE .ro, .of Reg.SYS_STATUS_OUTLET_HELD .ro,
    .of Reg.SYS_STATUS_UNCOMMISSIONED .ro, .of Reg.SYS_STATUS_READY .ro]⟩,
  ⟨0x00040, 4, 0, 1, fun _ => [.of Reg.HOST_IRQ_READY .ro, .of Reg.HOST_IRQ_MB .ro]⟩,
  ⟨0x00044, 4, 0, 1, fun _ => [.of Reg.HOST_STAT_LAST .ro, .of Reg.HOST_STAT_CMD .ro, .of Reg.HOST_STAT_ABORT .w1c,
    .of Reg.HOST_STAT_DONE .ro]⟩,
  ⟨0x00048, 4, 1, 4, fun k => [.of (Reg.HOST_VIOL_COUNT k) .ro]⟩,
  ⟨0x00060, 4, 0, 1, fun _ => [.of Reg.HOST_QNOTICE0_Q .w1c]⟩,
  ⟨0x00064, 4, 0, 1, fun _ => [.of Reg.HOST_QNOTICE1_Q .w1c]⟩,
  ⟨0x00080, 4, 0, 1, fun _ => [.of Reg.SYS_HEALTH_VBACK_LOW .ro, .of Reg.SYS_HEALTH_CONTACTOR_WORN .ro,
    .of Reg.SYS_HEALTH_LINK_CARRIER_LOW .ro, .of Reg.SYS_HEALTH_KEY_SLOT_LOW .ro,
    .of Reg.SYS_HEALTH_STORE_SPARE_LOW .ro, .of Reg.SYS_HEALTH_OUT_NO_SPARE .ro,
    .of Reg.SYS_HEALTH_METRO_NO_SPARE .ro, .of Reg.SYS_HEALTH_CORE_NO_SPARE .ro]⟩,
  ⟨0x000A0, 4, 0, 1, fun _ => [.of Reg.PWR_DOMAINS_ON .ro]⟩,
  ⟨0x000A4, 4, 0, 1, fun _ => [.of Reg.PWR_MON_VBACK .ro, .of Reg.PWR_MON_VSYS .ro]⟩,
  ⟨0x000A8, 4, 0, 1, fun _ => [.of Reg.PWR_TEMP_POWER .ro, .of Reg.PWR_TEMP_CONTROL .ro]⟩,
  ⟨0x000AC, 4, 0, 1, fun _ => [.of Reg.PWR_STATUS_HOT_HELD .ro, .of Reg.PWR_STATUS_HOT .w1c,
    .of Reg.PWR_STATUS_VSYS_LOW .ro, .of Reg.PWR_STATUS_CHARGING .ro, .of Reg.PWR_STATUS_X32_FAIL .ro,
    .of Reg.PWR_STATUS_XTAL_FAIL .ro]⟩,
  ⟨0x000B0, 4, 0, 1, fun _ => [.of Reg.SYS_GPIO_OE .rw, .of Reg.SYS_GPIO_OUT .rw]⟩,
  ⟨0x000B4, 4, 0, 1, fun _ => [.of Reg.SYS_GPIO_IN_IN .ro]⟩]

/-- Mailboxes and queues. -/
def regsHp : List RegRow := [
  ⟨0x10000, 256, 0, 8, fun k => [.of (Reg.MB_IN_RING_RING k) .wo]⟩,
  ⟨0x10004, 256, 0, 8, fun k => [.of (Reg.MB_IN_PEND_PEND k) .ro]⟩,
  ⟨0x10008, 256, 0, 8, fun k => [.of (Reg.MB_OUT_PEND_PEND k) .w1c]⟩,
  ⟨0x1000C, 256, 0, 8, fun k => [.of (Reg.MB_OUT_EN_EN k) .rw]⟩,
  ⟨0x10010, 256, 0, 8, fun k => [.of (Reg.MB_PTR_IN_LEN k 0) .rw, .of (Reg.MB_PTR_IN_OFFSET k 0) .rw]⟩,
  ⟨0x10014, 256, 0, 8, fun k => [.of (Reg.MB_PTR_IN_LEN k 1) .rw, .of (Reg.MB_PTR_IN_OFFSET k 1) .rw]⟩,
  ⟨0x10018, 256, 0, 8, fun k => [.of (Reg.MB_PTR_IN_LEN k 2) .rw, .of (Reg.MB_PTR_IN_OFFSET k 2) .rw]⟩,
  ⟨0x1001C, 256, 0, 8, fun k => [.of (Reg.MB_PTR_IN_LEN k 3) .rw, .of (Reg.MB_PTR_IN_OFFSET k 3) .rw]⟩,
  ⟨0x10020, 256, 0, 8, fun k => [.of (Reg.MB_PTR_OUT_LEN k 0) .ro, .of (Reg.MB_PTR_OUT_OFFSET k 0) .ro]⟩,
  ⟨0x10024, 256, 0, 8, fun k => [.of (Reg.MB_PTR_OUT_LEN k 1) .ro, .of (Reg.MB_PTR_OUT_OFFSET k 1) .ro]⟩,
  ⟨0x10028, 256, 0, 8, fun k => [.of (Reg.MB_PTR_OUT_LEN k 2) .ro, .of (Reg.MB_PTR_OUT_OFFSET k 2) .ro]⟩,
  ⟨0x1002C, 256, 0, 8, fun k => [.of (Reg.MB_PTR_OUT_LEN k 3) .ro, .of (Reg.MB_PTR_OUT_OFFSET k 3) .ro]⟩,
  ⟨0x20000, 32, 0, 64, fun k => [.of (Reg.Q_CTRL_EN k) .rw, .of (Reg.Q_CTRL_PROD k) .rwl,
    .of (Reg.Q_CTRL_CONS k) .rwl, .of (Reg.Q_CTRL_WM_AUTO k) .rw, .of (Reg.Q_CTRL_TO_HOST k) .rw,
    .of (Reg.Q_CTRL_TO_STRANDS k) .rw, .of (Reg.Q_CTRL_PKT_EN k) .rw, .of (Reg.Q_CTRL_STALE_EN k) .rw,
    .of (Reg.Q_CTRL_WM_EN k) .rw]⟩,
  ⟨0x20004, 32, 0, 64, fun k => [.of (Reg.Q_ALLOC_BASE k) .rwl, .in (Reg.Q_ALLOC_SIZE k) .rwl 1 1024]⟩,
  ⟨0x20008, 32, 0, 64, fun k => [.in (Reg.Q_WM_WM k) .rws 1 65536]⟩,
  ⟨0x2000C, 32, 0, 64, fun k => [.of (Reg.Q_STALE_STALE k) .rws]⟩,
  ⟨0x20010, 32, 0, 64, fun k => [.of (Reg.Q_STATUS_WM_HIT k) .w1c, .of (Reg.Q_STATUS_WM_ABOVE k) .ro,
    .of (Reg.Q_STATUS_STALE_HIT k) .w1c, .of (Reg.Q_STATUS_PKT_HIT k) .w1c, .of (Reg.Q_STATUS_FULL k) .ro,
    .of (Reg.Q_STATUS_HELD k) .ro, .of (Reg.Q_STATUS_LEVEL k) .ro]⟩,
  ⟨0x20014, 32, 0, 64, fun k => [.of (Reg.Q_FLUSH_FLUSH k) .wo]⟩,
  ⟨0x20018, 32, 0, 64, fun k => [.of (Reg.Q_STATS_REFUSED k) .ro, .of (Reg.Q_STATS_FLUSHES k) .ro]⟩]

/-- The Capstan, its strand table and the galley view. -/
def regsCap : List RegRow := [
  ⟨0x30000, 4, 0, 1, fun _ => [.of Reg.CAP_CTRL_CL3_W .rws, .of Reg.CAP_CTRL_CL2_W .rws,
    .of Reg.CAP_CTRL_CL1_W .rws, .of Reg.CAP_CTRL_TURN_LEN .rws]⟩,
  ⟨0x30004, 4, 0, 1, fun _ => [.of Reg.CAP_LIMIT_CAP_CL0_MAX .ro, .in Reg.CAP_LIMIT_CAP_HMAX0 .rws 16 256]⟩,
  ⟨0x30008, 4, 0, 1, fun _ => [.of Reg.CAP_STATUS_FCAP .ro, .of Reg.CAP_STATUS_CL0_COUNT .ro,
    .of Reg.CAP_STATUS_DBG_ACTIVE .ro, .of Reg.CAP_STATUS_HMAX_FAULT .w1c, .of Reg.CAP_STATUS_FBK_REFUSED .w1c,
    .of Reg.CAP_STATUS_CAP_CL0_REFUSED .w1c]⟩,
  ⟨0x3000C, 4, 0, 1, fun _ => [.of Reg.CAP_FAULT_COUNT .ro, .of Reg.CAP_FAULT_LAST_STRAND .ro,
    .of Reg.CAP_FAULT_LAST_CODE .ro]⟩,
  ⟨0x30010, 4, 0, 1, fun _ => [.of Reg.CAP_STRAND_CMD_STRAND .wo, .of Reg.CAP_STRAND_CMD_CMD .wo]⟩,
  ⟨0x30014, 4, 0, 1, fun _ => [.of Reg.CAP_DBG_CMD_STRAND .installer, .of Reg.CAP_DBG_CMD_CMD .installer]⟩,
  ⟨0x30020, 8, 0, 4, fun k => [.of (Reg.CAP_BP_PC k) .installer]⟩,
  ⟨0x30024, 8, 0, 4, fun k => [.of (Reg.CAP_BP_CTL_EN k) .installer, .of (Reg.CAP_BP_CTL_STRAND k) .installer]⟩,
  ⟨0x30100, 4, 0, 1, fun _ => [.of Reg.GAL_POOL_CL0_FREE .ro, .of Reg.GAL_POOL_FREE .ro]⟩,
  ⟨0x30104, 4, 0, 1, fun _ => [.of Reg.GAL_STATS_FENCED .ro, .of Reg.GAL_STATS_TIMEOUTS .ro,
    .of Reg.GAL_STATS_PIES .ro, .of Reg.GAL_STATS_LOCKUPS .ro]⟩,
  ⟨0x30108, 4, 0, 1, fun _ => [.of Reg.GAL_STALL_POOL_EMPTY .w1c, .of Reg.GAL_STALL_STALLED .ro]⟩,
  ⟨0x30110, 4, 0, 1, fun _ => [.of Reg.GAL_DBG_SEL_STRAND .rw]⟩,
  ⟨0x30114, 4, 0, 1, fun _ => [.of Reg.GAL_DBG_HDR_OPEN .ro, .of Reg.GAL_DBG_HDR_ENTRIES .ro,
    .of Reg.GAL_DBG_HDR_EV .ro, .of Reg.GAL_DBG_HDR_PD .ro, .of Reg.GAL_DBG_HDR_PENDING .ro,
    .of Reg.GAL_DBG_HDR_MATCH .ro, .of Reg.GAL_DBG_HDR_EXP .ro]⟩,
  ⟨0x30118, 4, 0, 1, fun _ => [.of Reg.GAL_DBG_ALT_ALT .ro]⟩,
  ⟨0x3011C, 4, 0, 1, fun _ => [.of Reg.GAL_DBG_TMO_TMO_LEFT .ro]⟩,
  ⟨0x31000, 32, 0, 320, fun k => [.of (Reg.ST_CFG_CLASS k) .rwl, .of (Reg.ST_CFG_ENTRY k) .rwl]⟩,
  ⟨0x31004, 32, 0, 320, fun k => [.of (Reg.ST_WIN_BASE k) .rwl, .of (Reg.ST_WIN_SIZE k) .rwl]⟩,
  ⟨0x31008, 32, 0, 320, fun k => [.of (Reg.ST_EVSUB0_SLOT3 k) .rws, .of (Reg.ST_EVSUB0_SLOT2 k) .rws,
    .of (Reg.ST_EVSUB0_SLOT1 k) .rws, .of (Reg.ST_EVSUB0_SLOT0 k) .rws]⟩,
  ⟨0x3100C, 32, 0, 320, fun k => [.of (Reg.ST_EVSUB1_SLOT7 k) .rws, .of (Reg.ST_EVSUB1_SLOT6 k) .rws,
    .of (Reg.ST_EVSUB1_SLOT5 k) .rws, .of (Reg.ST_EVSUB1_SLOT4 k) .rws]⟩,
  ⟨0x31010, 32, 0, 320, fun k => [.of (Reg.ST_EVEN_PENDING k) .ro, .of (Reg.ST_EVEN_EN k) .rws]⟩,
  ⟨0x31014, 32, 0, 320, fun k => [.of (Reg.ST_FBK_FB_EN k) .rwl, .of (Reg.ST_FBK_PORT k) .rwl,
    .of (Reg.ST_FBK_VALUE k) .rwl]⟩,
  ⟨0x31018, 32, 0, 320, fun k => [.of (Reg.ST_STATE_STATE k) .ro, .of (Reg.ST_STATE_SPEC k) .ro,
    .of (Reg.ST_STATE_PRED k) .ro, .of (Reg.ST_STATE_PC k) .ro]⟩,
  ⟨0x3101C, 32, 0, 320, fun k => [.of (Reg.ST_INFO_FAULT k) .ro, .of (Reg.ST_INFO_HWM k) .ro]⟩]

/-- The safety supervisor. -/
def regsSafe : List RegRow := [
  ⟨0x40000, 4, 0, 1, fun _ => [.of Reg.SAFE_STATUS_SEEN .w1c, .of Reg.SAFE_STATUS_HELD .ro]⟩,
  ⟨0x40004, 4, 0, 1, fun _ => [.of Reg.SAFE_CTRL_SELFTEST .wo, .of Reg.SAFE_CTRL_HOST_TRIP .wo]⟩,
  ⟨0x40008, 4, 0, 1, fun _ => [.of Reg.SAFE_CLEAR_CLEAR .wo]⟩,
  ⟨0x4000C, 4, 0, 1, fun _ => [.of Reg.SAFE_CLEAR_P_CONTACTOR .installer, .of Reg.SAFE_CLEAR_P_WELD .installer]⟩,
  ⟨0x40010, 4, 0, 1, fun _ => [.of Reg.SAFE_LAST_FORME_VAL .ro, .of Reg.SAFE_LAST_CAUSE .ro]⟩,
  ⟨0x40020, 4, 0, 1, fun _ => [.in Reg.SAFE_RCM_CFG_WARN_PCT .rws 20 90, .in Reg.SAFE_RCM_CFG_DC_TH .rwl 30 100]⟩,
  ⟨0x40024, 4, 0, 1, fun _ => [.in Reg.SAFE_RCM_TIME_T2 .rwl 25 100, .in Reg.SAFE_RCM_TIME_T1 .rwl 100 10000]⟩,
  ⟨0x40028, 4, 0, 1, fun _ => [.in Reg.SAFE_RCM_AC_T_AC .rwl 25 300, .of Reg.SAFE_RCM_AC_AC_TH .rwl]⟩,
  ⟨0x4002C, 4, 0, 1, fun _ => [.of Reg.SAFE_RCM_MEAS_AC .ro, .of Reg.SAFE_RCM_MEAS_SIGN .ro,
    .of Reg.SAFE_RCM_MEAS_DC .ro]⟩,
  ⟨0x40030, 4, 0, 1, fun _ => [.of Reg.SAFE_RCM_TEST_RESULT .ro, .in Reg.SAFE_RCM_TEST_N_T .rwl 5 50]⟩,
  ⟨0x40040, 4, 0, 1, fun _ => [.of Reg.SAFE_PEN_EN .rwl, .in Reg.SAFE_PEN_PEN_TH .rwl 10 70,
    .in Reg.SAFE_PEN_PEN_T .rwl 1 50]⟩,
  ⟨0x40044, 4, 0, 1, fun _ => [.of Reg.SAFE_PEN_MEAS_VOLTS .ro]⟩,
  ⟨0x40050, 4, 0, 1, fun _ => [.in Reg.SAFE_OC_CFG_OC_T .rws 10 255, .in Reg.SAFE_OC_CFG_OC_GRACE .rws 50 255,
    .in Reg.SAFE_OC_CFG_OC_ADD .rws 0 50, .in Reg.SAFE_OC_CFG_OC_PCT .rws 0 50]⟩,
  ⟨0x40054, 4, 0, 1, fun _ => [.of Reg.SAFE_OC_STATUS_GRACE .ro, .of Reg.SAFE_OC_STATUS_NEXT_TH .ro,
    .of Reg.SAFE_OC_STATUS_TH .ro]⟩,
  ⟨0x40060, 4, 0, 1, fun _ => [.of Reg.SAFE_TEMP_LIM_TRIP2 .rwl, .of Reg.SAFE_TEMP_LIM_WARN2 .rwl,
    .of Reg.SAFE_TEMP_LIM_TRIP1 .rwl, .of Reg.SAFE_TEMP_LIM_WARN1 .rwl]⟩,
  ⟨0x40064, 4, 0, 1, fun _ => [.of Reg.SAFE_TEMP_CTRL_SENS2 .rwl, .of Reg.SAFE_TEMP_CTRL_SENS1 .rwl,
    .in Reg.SAFE_TEMP_CTRL_HYST .rwl 2 30, .of Reg.SAFE_TEMP_CTRL_TEMP_FILT .rws]⟩,
  ⟨0x40070, 4, 0, 1, fun _ => [.in Reg.SAFE_SUPPLY_UV .rwl 1500 2200, .in Reg.SAFE_SUPPLY_OV .rwl 2300 2760]⟩,
  ⟨0x40074, 4, 0, 1, fun _ => [.of Reg.SAFE_FREQ_EN .rwl, .of Reg.SAFE_FREQ_HI .rwl, .of Reg.SAFE_FREQ_LO .rwl]⟩,
  ⟨0x40080, 4, 0, 1, fun _ => [.of Reg.SAFE_RECLOSE_CFG_COUNT .ro,
    .in Reg.SAFE_RECLOSE_CFG_RECLOSE_T .installer 10 255, .of Reg.SAFE_RECLOSE_CFG_N .installer]⟩,
  ⟨0x400C0, 4, 0, 16, fun k => [.of (Reg.SAFE_TRIPCNT_COUNT k) .ro]⟩]

/-- Contactors and outputs. -/
def regsSw : List RegRow := [
  ⟨0x50000, 4, 0, 1, fun _ => [.of Reg.CONT_CFG_EN .rwl, .of Reg.CONT_CFG_K2_OUT .rwl, .of Reg.CONT_CFG_K1_OUT .rwl,
    .in Reg.CONT_CFG_ARC_LEAD .rws 5 40]⟩,
  ⟨0x50004, 4, 0, 1, fun _ => [.of Reg.CONT_TIMING_MIR_DEB .rws, .of Reg.CONT_TIMING_MIR_T .rws,
    .of Reg.CONT_TIMING_CLOSE_GAP .rws, .of Reg.CONT_TIMING_OPEN_GAP .rws]⟩,
  ⟨0x50008, 4, 0, 1, fun _ => [.of Reg.CONT_DISC_DISC_WAIT .rws, .of Reg.CONT_DISC_DISC_I .rws]⟩,
  ⟨0x5000C, 4, 0, 1, fun _ => [.of Reg.CONT_STATUS_SEQ .ro, .of Reg.CONT_STATUS_ARMED .ro,
    .of Reg.CONT_STATUS_NEXT_DUTY .ro, .of Reg.CONT_STATUS_STATE .ro]⟩,
  ⟨0x50010, 4, 0, 1, fun _ => [.of Reg.CONT_FAULT_DLY_REJECT .ro, .of Reg.CONT_FAULT_REFUSE .ro,
    .of Reg.CONT_FAULT_UNDER_LOAD .w1c, .of Reg.CONT_FAULT_DROPOUT .w1c, .of Reg.CONT_FAULT_PRECHECK .w1c,
    .of Reg.CONT_FAULT_CLOSE_FAIL_K2 .w1c, .of Reg.CONT_FAULT_CLOSE_FAIL_K1 .w1c,
    .of Reg.CONT_FAULT_FB_MISMATCH .w1c, .of Reg.CONT_FAULT_WELD_K2 .w1c, .of Reg.CONT_FAULT_WELD_K1 .w1c]⟩,
  ⟨0x50014, 4, 0, 1, fun _ => [.of Reg.CONT_DELAY_K2 .ro, .of Reg.CONT_DELAY_K1 .ro]⟩,
  ⟨0x50018, 4, 0, 2, fun k => [.of (Reg.CONT_WEAR_COUNT k) .installer]⟩,
  ⟨0x50020, 4, 0, 1, fun _ => [.of Reg.CONT_RATED_RATED .installer]⟩,
  ⟨0x50024, 4, 0, 1, fun _ => [.of Reg.CONT_LASTBRK_K2 .ro, .of Reg.CONT_LASTBRK_K1 .ro]⟩,
  ⟨0x50040, 4, 0, 1, fun _ => [.of Reg.OUT_STATUS_FAULT .ro, .of Reg.OUT_STATUS_ON .ro]⟩,
  ⟨0x50044, 4, 0, 1, fun _ => [.of Reg.OUT_CELLS_B_SPENT .ro, .of Reg.OUT_CELLS_ON_B .ro]⟩,
  ⟨0x50048, 4, 0, 1, fun _ => [.of Reg.OUT_TIMING_THERM_RETRY .rws, .of Reg.OUT_TIMING_INRUSH_T .rws]⟩,
  ⟨0x5004C, 4, 0, 1, fun _ => [.of Reg.OUT_SENSE_SEL_ANYFAULT .rw, .of Reg.OUT_SENSE_SEL_SEL .rw]⟩,
  ⟨0x50050, 4, 0, 1, fun _ => [.of Reg.OUT_GOV_COUNT .ro, .of Reg.OUT_GOV_LAST .ro]⟩,
  ⟨0x50054, 4, 0, 1, fun _ => [.of Reg.OUT_TEST_MASK .installer]⟩,
  ⟨0x50100, 4, 0, 12, fun k => [.of (Reg.OUT_CFG_PRIO k) .rw, .of (Reg.OUT_CFG_SLEW k) .rws,
    .of (Reg.OUT_CFG_BRIDGE k) .rwl, .of (Reg.OUT_CFG_OFF_DIAG k) .rw, .of (Reg.OUT_CFG_RANGE k) .rws,
    .of (Reg.OUT_CFG_OL_TH k) .rws]⟩,
  ⟨0x50140, 4, 0, 12, fun k => [.of (Reg.OUT_DIAG_CAUSE k) .ro, .of (Reg.OUT_DIAG_RETRIES k) .ro]⟩,
  ⟨0x50180, 4, 0, 12, fun k => [.of (Reg.OUT_ENERGY_CELL_B k) .ro, .of (Reg.OUT_ENERGY_CELL_A k) .ro]⟩]

/-- Metrology. -/
def regsMet : List RegRow := [
  ⟨0x60000, 4, 0, 1, fun _ => [.of Reg.MET_CFG_IN_EN .metrology, .of Reg.MET_CFG_NOM .metrology,
    .of Reg.MET_CFG_WIRING .metrology]⟩,
  ⟨0x60004, 4, 0, 1, fun _ => [.in Reg.MET_ROT_ROT_PERIOD .rws 2 3600]⟩,
  ⟨0x60008, 4, 0, 1, fun _ => [.in Reg.MET_BUDGET_OFFSET .metrology 20 1000,
    .in Reg.MET_BUDGET_GAIN .metrology 50 1000]⟩,
  ⟨0x6000C, 4, 0, 1, fun _ => [.of Reg.MET_STATUS_OVERLOAD .w1c, .of Reg.MET_STATUS_ESTIMATED .w1c,
    .of Reg.MET_STATUS_FREQ_VALID .ro, .of Reg.MET_STATUS_ROT_REV .ro, .of Reg.MET_STATUS_RECHECK .ro,
    .of Reg.MET_STATUS_NO_SPARE .ro, .of Reg.MET_STATUS_RETIRED .ro, .of Reg.MET_STATUS_CHECKING .ro,
    .of Reg.MET_STATUS_FREE .ro]⟩,
  ⟨0x60010, 4, 0, 1, fun _ => [.of Reg.MET_MAP_IN .ro, .of Reg.MET_MAP_IC .ro, .of Reg.MET_MAP_IB .ro,
    .of Reg.MET_MAP_IA .ro, .of Reg.MET_MAP_VN .ro, .of Reg.MET_MAP_VC .ro, .of Reg.MET_MAP_VB .ro,
    .of Reg.MET_MAP_VA .ro]⟩,
  ⟨0x60014, 4, 0, 1, fun _ => [.of Reg.MET_CHECK_CHAIN .ro, .of Reg.MET_CHECK_RESULT .ro,
    .of Reg.MET_CHECK_OFFSET .ro, .of Reg.MET_CHECK_GAIN .ro]⟩,
  ⟨0x60020, 4, 0, 1, fun _ => [.of Reg.MET_FREQ_W_W .ro, .of Reg.MET_FREQ_W_FREQ .ro]⟩,
  ⟨0x60024, 4, 0, 1, fun _ => [.of Reg.MET_FBAND_HI .rw, .of Reg.MET_FBAND_LO .rw]⟩,
  ⟨0x60028, 4, 0, 1, fun _ => [.in Reg.MET_CREEP_CREEP .metrology 0 1000]⟩,
  ⟨0x60040, 4, 0, 15, fun k => [.of (Reg.MET_VAL_VALUE k) .ro]⟩,
  ⟨0x60080, 4, 0, 6, fun k => [.of (Reg.MET_ZC_STAMP k) .ro]⟩,
  ⟨0x600A0, 4, 0, 1, fun _ => [.of Reg.MET_PHASE_VC .ro, .of Reg.MET_PHASE_VB .ro]⟩,
  ⟨0x600B0, 4, 0, 1, fun _ => [.of Reg.MET_BLOCK_OVERLOAD .ro, .of Reg.MET_BLOCK_ESTIMATED .ro,
    .of Reg.MET_BLOCK_PARTIAL .ro, .of Reg.MET_BLOCK_SAMPLES .ro, .of Reg.MET_BLOCK_INDEX .ro]⟩,
  ⟨0x600C0, 8, 0, 3, fun k => [.of (Reg.MET_TOT_LO_LOW k) .ro]⟩,
  ⟨0x600C4, 8, 0, 3, fun k => [.of (Reg.MET_TOT_HI_HIGH k) .ro]⟩,
  ⟨0x60100, 4, 0, 1, fun _ => [.of Reg.MET_CAL_IDX_IDX .metrology]⟩,
  ⟨0x60104, 4, 0, 1, fun _ => [.of Reg.MET_CAL_VAL_VALUE .metrology]⟩,
  ⟨0x60108, 4, 0, 1, fun _ => [.of Reg.MET_CAL_CMD_DISCARD .metrology, .of Reg.MET_CAL_CMD_COMMIT .metrology]⟩,
  ⟨0x6010C, 4, 0, 1, fun _ => [.of Reg.MET_CAL_STAT_STAGED .ro, .of Reg.MET_CAL_STAT_COUNT .ro]⟩,
  ⟨0x60110, 4, 0, 1, fun _ => [.of Reg.MET_CAL_MEAS_PAD_RMS .ro]⟩,
  ⟨0x60114, 4, 0, 1, fun _ => [.of Reg.MET_CAL_ANG_ANGLE .ro]⟩]

/-- The ledger. -/
def regsLed : List RegRow := [
  ⟨0x70000, 4, 0, 1, fun _ => [.of Reg.LED_CFG_PREPAY_EN .rws, .of Reg.LED_CFG_EXPORT_CREDIT .rws,
    .of Reg.LED_CFG_DEMAND_LEN .rws]⟩,
  ⟨0x70004, 4, 0, 1, fun _ => [.of Reg.LED_STATUS_BOUNDARY_PENDING .ro, .of Reg.LED_STATUS_UNVERIFIED .w1c,
    .of Reg.LED_STATUS_ACC_DIFF .w1c, .of Reg.LED_STATUS_RECORDS_LOST .w1c, .of Reg.LED_STATUS_EXPORT_LAG .ro,
    .of Reg.LED_STATUS_SEAL_PENDING .ro, .of Reg.LED_STATUS_HOLD .ro, .of Reg.LED_STATUS_TIME_UNSURE .ro,
    .of Reg.LED_STATUS_TARIFF .ro]⟩,
  ⟨0x70008, 4, 0, 1, fun _ => [.of Reg.LED_TIME_L .ro]⟩,
  ⟨0x7000C, 4, 0, 1, fun _ => [.of Reg.LED_HOLD_SECONDS .ro]⟩,
  ⟨0x70010, 4, 0, 1, fun _ => [.of Reg.LED_NEXT_NEXT .ro]⟩,
  ⟨0x70014, 4, 0, 1, fun _ => [.of Reg.LED_SEQ_SEQ .ro]⟩,
  ⟨0x70018, 4, 0, 1, fun _ => [.of Reg.LED_SESSION_NUMBER .ro]⟩,
  ⟨0x70020, 4, 0, 1, fun _ => [.of Reg.LED_RING_TAIL_OFFSET .ro]⟩,
  ⟨0x70024, 4, 0, 1, fun _ => [.of Reg.LED_RING_HEAD_OFFSET .ro]⟩,
  ⟨0x70028, 4, 0, 1, fun _ => [.of Reg.LED_EXP_ACK_OFFSET .rw]⟩,
  ⟨0x70030, 4, 0, 1, fun _ => [.of Reg.LED_BILL_PERIOD .ro, .of Reg.LED_BILL_CLOSE .wo]⟩,
  ⟨0x70034, 4, 0, 1, fun _ => [.of Reg.LED_CLEAR_KEY .metrology, .of Reg.LED_CLEAR_CLEAR .metrology]⟩,
  ⟨0x70040, 4, 0, 1, fun _ => [.of Reg.LED_CAL_SRC_LEN .rw, .of Reg.LED_CAL_SRC_OFFSET .rw]⟩,
  ⟨0x70044, 4, 0, 1, fun _ => [.of Reg.LED_CAL_CTRL_DROP_PASSIVE .wo, .of Reg.LED_CAL_CTRL_LOAD .wo]⟩,
  ⟨0x70048, 4, 0, 1, fun _ => [.of Reg.LED_CAL_STAT_BUSY .ro, .of Reg.LED_CAL_STAT_PASSIVE .ro,
    .of Reg.LED_CAL_STAT_RESULT .ro]⟩,
  ⟨0x7004C, 4, 0, 1, fun _ => [.of Reg.LED_CAL_ACTIVE_CAL_ID .ro]⟩,
  ⟨0x70050, 4, 0, 1, fun _ => [.of Reg.LED_CAL_PASSIVE_CAL_ID .ro]⟩,
  ⟨0x70060, 4, 0, 1, fun _ => [.of Reg.LED_EMERG_AMT_VALUE .rw]⟩,
  ⟨0x70064, 4, 0, 1, fun _ => [.of Reg.LED_EMERG_LEVEL_VALUE .rw]⟩,
  ⟨0x70070, 4, 0, 1, fun _ => [.of Reg.LED_TOPUP_ACCT_ACCOUNT .rw]⟩,
  ⟨0x70074, 4, 0, 1, fun _ => [.of Reg.LED_TOPUP_AMT_VALUE .rw]⟩,
  ⟨0x70078, 4, 0, 1, fun _ => [.of Reg.LED_TOPUP_REF_VALUE .rw]⟩,
  ⟨0x7007C, 4, 0, 1, fun _ => [.of Reg.LED_TOPUP_CMD_RESULT .ro, .of Reg.LED_TOPUP_CMD_GO .wo]⟩,
  ⟨0x70400, 4, 0, 256, fun k => [.of (Reg.LED_BAL_A k) .ro]⟩]

/-- The site link and allocation. -/
def regsLink : List RegRow := [
  ⟨0x80000, 4, 0, 1, fun _ => [.of Reg.LNK_CFG_REUSE .rw, .of Reg.LNK_CFG_OUTLET_0 .rwl, .of Reg.LNK_CFG_PLAN .rwl]⟩,
  ⟨0x80004, 4, 0, 1, fun _ => [.in Reg.LNK_TX_ATT .rws 0 20]⟩,
  ⟨0x80008, 4, 0, 1, fun _ => [.of Reg.LNK_STATUS_CHANNEL .ro, .of Reg.LNK_STATUS_HOPS .ro,
    .of Reg.LNK_STATUS_MOD .ro, .of Reg.LNK_STATUS_ROUNDS .ro, .of Reg.LNK_STATUS_STATE .ro]⟩,
  ⟨0x8000C, 4, 0, 1, fun _ => [.of Reg.LNK_ROUND_COUNTER .ro]⟩,
  ⟨0x80010, 4, 0, 1, fun _ => [.of Reg.LNK_RTIME_MS .ro]⟩,
  ⟨0x80014, 4, 0, 1, fun _ => [.of Reg.LNK_PASS_N_PASS .rws]⟩,
  ⟨0x80018, 4, 0, 1, fun _ => [.of Reg.LNK_JOIN_OPEN .rw, .in Reg.LNK_JOIN_WIN .rw 10 65535]⟩,
  ⟨0x8001C, 4, 0, 1, fun _ => [.of Reg.LNK_JOIN_STAT_FALLBACK .ro, .of Reg.LNK_JOIN_STAT_JOINS .ro,
    .of Reg.LNK_JOIN_STAT_RESULT .ro]⟩,
  ⟨0x80020, 4, 0, 1, fun _ => [.of Reg.LNK_REMOVE_GO .wo, .of Reg.LNK_REMOVE_CHANNEL .wo]⟩,
  ⟨0x80024, 4, 0, 1, fun _ => [.of Reg.LNK_UNPAIR_LEAVE .installer]⟩,
  ⟨0x80028, 4, 0, 1, fun _ => [.of Reg.LNK_DELIV_ID .ro, .of Reg.LNK_DELIV_NEXT .ro]⟩,
  ⟨0x80030, 4, 0, 1, fun _ => [.of Reg.LNK_COUNT_RETRIES .ro, .of Reg.LNK_COUNT_MISSES .ro]⟩,
  ⟨0x80034, 4, 0, 1, fun _ => [.of Reg.LNK_IMPULSE_SYMBOLS .ro]⟩,
  ⟨0x80038, 4, 0, 1, fun _ => [.of Reg.LNK_LEAD_SEL_CHANNEL .rw]⟩,
  ⟨0x8003C, 4, 0, 1, fun _ => [.of Reg.LNK_LEAD0_ROUTE .ro]⟩,
  ⟨0x80040, 4, 0, 1, fun _ => [.of Reg.LNK_LEAD1_ROUTE .ro]⟩,
  ⟨0x80080, 4, 1, 8, fun k => [.of (Reg.LNK_VIOL_COUNT k) .ro]⟩,
  ⟨0x81000, 8, 0, 256, fun k => [.of (Reg.LNK_NODE_REG k) .ro, .of (Reg.LNK_NODE_MISSED k) .ro,
    .of (Reg.LNK_NODE_DORMANT k) .ro, .of (Reg.LNK_NODE_INERT k) .ro, .of (Reg.LNK_NODE_REPEATER k) .ro,
    .of (Reg.LNK_NODE_HOPS k) .ro, .of (Reg.LNK_NODE_MOD k) .ro, .of (Reg.LNK_NODE_PHASE k) .ro,
    .of (Reg.LNK_NODE_THREE k) .ro, .of (Reg.LNK_NODE_ROT_REV k) .ro, .of (Reg.LNK_NODE_CARRIERS k) .ro,
    .of (Reg.LNK_NODE_MISS_RUN k) .ro]⟩,
  ⟨0x81004, 8, 0, 256, fun k => [.of (Reg.LNK_NODE_SEEN_ROUND k) .ro]⟩,
  ⟨0x82000, 4, 0, 1, fun _ => [.in Reg.ALLOC_GRID_MARGIN .installer 0 500,
    .in Reg.ALLOC_GRID_GRID_LIMIT .installer 0 6300]⟩,
  ⟨0x82004, 4, 0, 3, fun k => [.of (Reg.ALLOC_OTHER_OTHER k) .rw]⟩,
  ⟨0x82010, 4, 0, 1, fun _ => [.of Reg.ALLOC_IMPORT_W_WATTS .rw]⟩,
  ⟨0x82014, 4, 0, 1, fun _ => [.of Reg.ALLOC_SURPLUS_W_WATTS .rw]⟩,
  ⟨0x82018, 4, 0, 1, fun _ => [.of Reg.ALLOC_BATT_W_WATTS .rw]⟩,
  ⟨0x8201C, 4, 0, 1, fun _ => [.of Reg.ALLOC_EXPORT_W_WATTS .rw]⟩,
  ⟨0x82020, 4, 0, 1, fun _ => [.in Reg.ALLOC_EXPORT_LIM_LIMIT .installer 0 6300]⟩,
  ⟨0x82024, 4, 0, 1, fun _ => [.of Reg.ALLOC_SAFE_FALLBACK .ro, .in Reg.ALLOC_SAFE_SAFE_A .installer 0 6300]⟩,
  ⟨0x82028, 4, 0, 1, fun _ => [.in Reg.ALLOC_TIMING_INPUT_TMO .rw 10 255, .in Reg.ALLOC_TIMING_MIN_RUN .rw 1 120,
    .in Reg.ALLOC_TIMING_MIN_PAUSE .rw 1 60, .in Reg.ALLOC_TIMING_PROBE_T .rw 6 255]⟩,
  ⟨0x8202C, 4, 0, 1, fun _ => [.of Reg.ALLOC_LEARN_LEARN_EN .rw, .in Reg.ALLOC_LEARN_PROBE_STEP .rw 5 100,
    .in Reg.ALLOC_LEARN_LEARN_GAP .rw 5 50, .in Reg.ALLOC_LEARN_LEARN_N .rw 2 32]⟩,
  ⟨0x82030, 4, 0, 1, fun _ => [.in Reg.ALLOC_VNOM_VNOM .rw 2000 2600]⟩,
  ⟨0x82034, 4, 0, 1, fun _ => [.of Reg.ALLOC_STATUS_STALE .ro, .of Reg.ALLOC_STATUS_DEFICIT .ro,
    .of Reg.ALLOC_STATUS_PAUSED .ro, .of Reg.ALLOC_STATUS_ROUND .ro]⟩,
  ⟨0x82038, 4, 0, 1, fun _ => [.of Reg.ALLOC_BUDGET_VALUE .ro]⟩,
  ⟨0x8203C, 4, 0, 1, fun _ => [.of Reg.ALLOC_BUDGET_USED_VALUE .ro]⟩,
  ⟨0x82040, 4, 0, 3, fun k => [.of (Reg.ALLOC_PHASE_USED k) .ro, .of (Reg.ALLOC_PHASE_HEADROOM k) .ro]⟩,
  ⟨0x82060, 4, 0, 1, fun _ => [.of Reg.ALLOC_SA_WRITTEN .ro, .in Reg.ALLOC_SA_EXPORT .rw 0 800,
    .in Reg.ALLOC_SA_IMPORT .rw 0 800]⟩,
  ⟨0x82064, 4, 0, 1, fun _ => [.of Reg.ALLOC_SA_DEF_SA_TMO .installer, .of Reg.ALLOC_SA_DEF_DEFAULT .installer]⟩,
  ⟨0x82068, 4, 0, 1, fun _ => [.of Reg.ALLOC_OWN_SOURCE .ro, .of Reg.ALLOC_OWN_EXPORT .ro,
    .of Reg.ALLOC_OWN_IMPORT .ro]⟩,
  ⟨0x82070, 4, 1, 3, fun k => [.of (Reg.ALLOC_VIOL_COUNT k) .ro]⟩,
  ⟨0x83000, 16, 0, 256, fun k => [.of (Reg.ALLOC_CH_CFG_PRIO k) .rw, .of (Reg.ALLOC_CH_CFG_CEIL k) .rw]⟩,
  ⟨0x83004, 16, 0, 256, fun k => [.of (Reg.ALLOC_CH_GRANT_EXPORT k) .ro, .of (Reg.ALLOC_CH_GRANT_IMPORT k) .ro]⟩,
  ⟨0x83008, 16, 0, 256, fun k => [.of (Reg.ALLOC_CH_WANT_EXPORT k) .ro, .of (Reg.ALLOC_CH_WANT_IMPORT k) .ro]⟩,
  ⟨0x8300C, 16, 0, 256, fun k => [.of (Reg.ALLOC_CH_STATE_PAUSED k) .ro, .of (Reg.ALLOC_CH_STATE_HELD k) .ro,
    .of (Reg.ALLOC_CH_STATE_RESERVED k) .ro, .of (Reg.ALLOC_CH_STATE_PROBING k) .ro,
    .of (Reg.ALLOC_CH_STATE_OVERDRAW k) .ro, .of (Reg.ALLOC_CH_STATE_PHASES k) .ro,
    .of (Reg.ALLOC_CH_STATE_LEARNED k) .ro]⟩]

/-- The vehicle interface. -/
def regsVi : List RegRow := [
  ⟨0x90000, 4, 0, 1, fun _ => [.of Reg.VI_CFG_CP_FILT .rws, .of Reg.VI_CFG_TLS_EIM .rwl,
    .of Reg.VI_CFG_VENT_OK .rwl, .of Reg.VI_CFG_BPT_EN .rwl, .of Reg.VI_CFG_TETHERED .rwl]⟩,
  ⟨0x90004, 4, 0, 1, fun _ => [.of Reg.VI_RATING_TETH_A .rwl, .in Reg.VI_RATING_RATED_A .rwl 60 800]⟩,
  ⟨0x90008, 4, 0, 1, fun _ => [.of Reg.VI_PILOT_STATE .ro, .of Reg.VI_PILOT_ANOM .ro, .of Reg.VI_PILOT_PWM .ro,
    .of Reg.VI_PILOT_HLC .ro, .of Reg.VI_PILOT_TRIP .ro, .of Reg.VI_PILOT_DUTY .ro]⟩,
  ⟨0x9000C, 4, 0, 1, fun _ => [.of Reg.VI_PLATEAU_LOW .ro, .of Reg.VI_PLATEAU_HIGH .ro]⟩,
  ⟨0x90010, 4, 0, 1, fun _ => [.of Reg.VI_DIODE_RESULT .ro]⟩,
  ⟨0x90014, 4, 0, 1, fun _ => [.of Reg.VI_PP_OHMS .ro, .of Reg.VI_PP_CODE .ro]⟩,
  ⟨0x90018, 4, 0, 1, fun _ => [.of Reg.VI_CEIL_SOURCE .ro, .of Reg.VI_CEIL_CEIL .ro]⟩,
  ⟨0x9001C, 4, 0, 1, fun _ => [.of Reg.VI_LOCK_EN .rwl, .of Reg.VI_LOCK_PAIR .rwl, .of Reg.VI_LOCK_FB_GPIO .rwl,
    .of Reg.VI_LOCK_FB_POL .rwl, .in Reg.VI_LOCK_PULSE_MS .rwl 50 1000, .of Reg.VI_LOCK_STATE .ro]⟩,
  ⟨0x90020, 4, 0, 1, fun _ => [.of Reg.VI_GP_TXATT .rws, .of Reg.VI_GP_ATTEN_OFS .rws]⟩,
  ⟨0x90024, 4, 0, 1, fun _ => [.of Reg.VI_HLC_REASON .ro, .of Reg.VI_HLC_STATUS .ro]⟩,
  ⟨0x90028, 4, 0, 1, fun _ => [.of Reg.VI_REC_BASE .rwl, .of Reg.VI_REC_OFF .rwl, .in Reg.VI_REC_NUM .rwl 2 16]⟩,
  ⟨0x90030, 4, 0, 1, fun _ => [.of Reg.VI_VIOL_CLR_CLR .wo]⟩,
  ⟨0x90040, 4, 1, 16, fun k => [.of (Reg.VI_VIOL_COUNT k) .ro]⟩]

/-- Reader, directory and tag. -/
def regsRd : List RegRow := [
  ⟨0xA0000, 4, 0, 1, fun _ => [.of Reg.RD_CFG_FWT_MAX .rws, .in Reg.RD_CFG_DET_TH .rw 1 50,
    .of Reg.RD_CFG_RATE .rws, .of Reg.RD_CFG_TYPES .rws, .in Reg.RD_CFG_POLL_MS .rws 50 1000]⟩,
  ⟨0xA0004, 4, 0, 1, fun _ => [.in Reg.RD_TX_CFG_MOD_B .rwl 8 14, .of Reg.RD_TX_CFG_LEVEL .rwl]⟩,
  ⟨0xA0008, 4, 0, 1, fun _ => [.of Reg.RD_STATE_INVENTORIES .ro, .of Reg.RD_STATE_STATUS .ro]⟩,
  ⟨0xA0010, 8, 0, 2, fun k => [.of (Reg.RD_UID_LO_UID k) .ro]⟩,
  ⟨0xA0014, 8, 0, 2, fun k => [.of (Reg.RD_UID_HI_TYPE k) .ro, .of (Reg.RD_UID_HI_LEN k) .ro,
    .of (Reg.RD_UID_HI_UID k) .ro]⟩,
  ⟨0xA0040, 4, 1, 7, fun k => [.of (Reg.RD_VIOL_COUNT k) .ro]⟩,
  ⟨0xA0100, 4, 0, 1, fun _ => [.of Reg.DIR_STATUS_REKEY .ro, .of Reg.DIR_STATUS_BAD .ro,
    .of Reg.DIR_STATUS_COUNT .ro]⟩,
  ⟨0xA0104, 4, 0, 1, fun _ => [.of Reg.DIR_STASH_USED_USED .ro]⟩,
  ⟨0xA0108, 4, 0, 1, fun _ => [.of Reg.DIR_SEQ_SEQ .ro]⟩,
  ⟨0xA010C, 4, 0, 1, fun _ => [.of Reg.DIR_CMD_OP .wo, .of Reg.DIR_CMD_OFFSET .wo]⟩,
  ⟨0xA0110, 4, 0, 1, fun _ => [.of Reg.DIR_RESULT_BUSY .ro, .of Reg.DIR_RESULT_SLOT .ro, .of Reg.DIR_RESULT_CODE .ro]⟩,
  ⟨0xA0114, 4, 0, 1, fun _ => [.of Reg.DIR_DELTA_CTRL_APPLY .wo]⟩,
  ⟨0xA0118, 4, 0, 1, fun _ => [.of Reg.DIR_DELTA_STAT_BUSY .ro, .of Reg.DIR_DELTA_STAT_SERIES .ro,
    .of Reg.DIR_DELTA_STAT_SKIPPED .ro, .of Reg.DIR_DELTA_STAT_RESULT .ro]⟩,
  ⟨0xA011C, 4, 0, 1, fun _ => [.of Reg.DIR_PUB_NOW .wo, .in Reg.DIR_PUB_PUB_T .rw 10 65535]⟩,
  ⟨0xA0120, 4, 0, 8, fun k => [.of (Reg.DIR_RESYNC_CHANNELS k) .ro]⟩,
  ⟨0xA0200, 4, 0, 1, fun _ => [.of Reg.TAG_CFG_EN .rw, .in Reg.TAG_CFG_QUIET_T .rws 1 30,
    .of Reg.TAG_CFG_WRMODE .rws, .of Reg.TAG_CFG_KEEP .rw, .in Reg.TAG_CFG_RCPT_N .rws 1 8]⟩,
  ⟨0xA0204, 4, 0, 1, fun _ => [.of Reg.TAG_STATE_TRANSACTIONS .ro, .of Reg.TAG_STATE_COMM_PENDING .ro,
    .of Reg.TAG_STATE_ACTIVE .ro, .of Reg.TAG_STATE_STATUS .ro]⟩,
  ⟨0xA0208, 4, 0, 1, fun _ => [.of Reg.TAG_LAST_AUTH .ro, .of Reg.TAG_LAST_COMPLETED .ro,
    .of Reg.TAG_LAST_WRITTEN .ro, .of Reg.TAG_LAST_CODE .ro]⟩,
  ⟨0xA020C, 4, 0, 1, fun _ => [.in Reg.TAG_WRCHK_VMIN .rwl 18 33]⟩,
  ⟨0xA0210, 4, 0, 1, fun _ => [.of Reg.TAG_UID_LO_UID .ro]⟩,
  ⟨0xA0214, 4, 0, 1, fun _ => [.of Reg.TAG_UID_HI_UID .ro]⟩,
  ⟨0xA0218, 4, 0, 1, fun _ => [.of Reg.TAG_RCPT_SEQ_SEQ .ro]⟩,
  ⟨0xA021C, 4, 0, 1, fun _ => [.of Reg.TAG_ERR_BADSEQ .w1c]⟩,
  ⟨0xA0240, 4, 1, 4, fun k => [.of (Reg.TAG_VIOL_COUNT k) .ro]⟩]

/-- Keys. -/
def regsKey : List RegRow := [
  ⟨0xB0000, 4, 0, 1, fun _ => [.of Reg.KEY_CMD_OP .wo, .of Reg.KEY_CMD_KNOT .wo, .of Reg.KEY_CMD_OPT .wo,
    .of Reg.KEY_CMD_LEN .wo]⟩,
  ⟨0xB0004, 4, 0, 1, fun _ => [.of Reg.KEY_SRC_OFFSET .rw]⟩,
  ⟨0xB0008, 4, 0, 1, fun _ => [.of Reg.KEY_RESULT_BUSY .ro, .of Reg.KEY_RESULT_VALUE .ro,
    .of Reg.KEY_RESULT_CODE .ro]⟩,
  ⟨0xB000C, 4, 0, 1, fun _ => [.of Reg.KEY_SLOTS_FREE .ro, .of Reg.KEY_SLOTS_USABLE .ro]⟩,
  ⟨0xB0010, 4, 0, 1, fun _ => [.of Reg.KEY_ENGINE_IN_USE .ro]⟩,
  ⟨0xB0014, 4, 0, 1, fun _ => [.of Reg.KEY_KNOT_SEL_KNOT .rw]⟩,
  ⟨0xB0018, 4, 0, 1, fun _ => [.of Reg.KEY_KNOT_INFO_PARENT .ro, .of Reg.KEY_KNOT_INFO_DEPTH .ro,
    .of Reg.KEY_KNOT_INFO_STATE .ro, .of Reg.KEY_KNOT_INFO_CUTCLASS .ro, .of Reg.KEY_KNOT_INFO_MASK .ro]⟩,
  ⟨0xB001C, 4, 0, 1, fun _ => [.of Reg.KEY_KNOT_EPOCH_EPOCH .ro]⟩,
  ⟨0xB0020, 4, 0, 1, fun _ => [.of Reg.KEY_PAIR_OK .wo, .of Reg.KEY_PAIR_PENDING .ro, .of Reg.KEY_PAIR_CODE .ro]⟩,
  ⟨0xB00FC, 4, 0, 1, fun _ => [.of Reg.KEY_PUB_LEN_BYTES .ro]⟩,
  ⟨0xB0100, 4, 0, 24, fun k => [.of (Reg.KEY_PUB_BYTES k) .ro]⟩]

/-- Platen. -/
def regsPl : List RegRow := [
  ⟨0xC0000, 4, 0, 1, fun _ => [.of Reg.PL_CFG_LEGAL_DISPLAY_REQ .metrology, .of Reg.PL_CFG_TRIM_STEP .rwl,
    .of Reg.PL_CFG_LINE_SAMPLE .rws, .of Reg.PL_CFG_WFMT .rwl]⟩,
  ⟨0xC0004, 4, 0, 1, fun _ => [.in Reg.PL_PANEL_V .rwl 64 960, .in Reg.PL_PANEL_H .rwl 64 1280]⟩,
  ⟨0xC0008, 4, 0, 1, fun _ => [.of Reg.PL_TIMING_PWR_HOLD .rw, .in Reg.PL_TIMING_FRAME_HZ .rwl 20 85]⟩,
  ⟨0xC000C, 4, 0, 1, fun _ => [.of Reg.PL_VCOM_PMIC_ADDR .rwl, .in Reg.PL_VCOM_VCOM .rws 0 2500]⟩,
  ⟨0xC0010, 4, 0, 1, fun _ => [.of Reg.PL_STATUS_RUNNING .ro, .of Reg.PL_STATUS_JOURNAL .ro,
    .of Reg.PL_STATUS_LEGAL_REFUSED .w1c, .of Reg.PL_STATUS_ASSET_ERR .w1c, .of Reg.PL_STATUS_PROOF_FULL .w1c,
    .of Reg.PL_STATUS_PROOF_SHOWN .ro, .of Reg.PL_STATUS_TEMP_LIMIT .ro, .of Reg.PL_STATUS_TEMP_DRIFT .w1c,
    .of Reg.PL_STATUS_FAULT .ro, .of Reg.PL_STATUS_BAND .ro, .of Reg.PL_STATUS_BUSY .ro]⟩,
  ⟨0xC0014, 4, 0, 1, fun _ => [.of Reg.PL_FAULT_RB_ERR .ro, .of Reg.PL_FAULT_CODE .ro, .of Reg.PL_FAULT_POWER .w1c,
    .of Reg.PL_FAULT_READBACK .ro, .of Reg.PL_FAULT_CRACK .ro]⟩,
  ⟨0xC0018, 4, 0, 1, fun _ => [.of Reg.PL_TEMP_LATCHED .ro, .of Reg.PL_TEMP_TEMP .ro]⟩,
  ⟨0xC0020, 4, 0, 1, fun _ => [.of Reg.PL_CMD_MODE .wo, .of Reg.PL_CMD_REGION .wo, .of Reg.PL_CMD_ASSET .wo]⟩,
  ⟨0xC0024, 4, 0, 1, fun _ => [.of Reg.PL_CMD_SRC_USE .rw, .of Reg.PL_CMD_SRC_OFFSET .rw]⟩,
  ⟨0xC0028, 4, 0, 1, fun _ => [.of Reg.PL_SAVE_USED .ro]⟩,
  ⟨0xC0100, 8, 0, 32, fun k => [.of (Reg.PL_REGION_POS_Y k) .rwl, .of (Reg.PL_REGION_POS_X k) .rwl]⟩,
  ⟨0xC0104, 8, 0, 32, fun k => [.of (Reg.PL_REGION_SIZE_HEIGHT k) .rwl, .of (Reg.PL_REGION_SIZE_WIDTH k) .rwl]⟩]

/-- Store and update. -/
def regsStore : List RegRow := [
  ⟨0xD0000, 4, 0, 1, fun _ => [.of Reg.STORE_STATUS_RETIRED .ro, .of Reg.STORE_STATUS_SPARE_LOW .ro,
    .of Reg.STORE_STATUS_FREE .ro]⟩,
  ⟨0xD0004, 4, 0, 1, fun _ => [.of Reg.STORE_ERASE_MAX_COUNT .ro]⟩,
  ⟨0xD0008, 4, 0, 1, fun _ => [.of Reg.STORE_ERASE_MEAN_COUNT .ro]⟩,
  ⟨0xD000C, 4, 0, 1, fun _ => [.of Reg.STORE_ECC_UNCORR .ro, .of Reg.STORE_ECC_CORR .ro]⟩,
  ⟨0xD0010, 4, 0, 1, fun _ => [.in Reg.STORE_SCRUB_DAYS .rw 1 60]⟩,
  ⟨0xD0014, 4, 0, 1, fun _ => [.of Reg.STORE_LOGS_VIOL .ro, .of Reg.STORE_LOGS_EVENT .ro]⟩,
  ⟨0xD0014, 4, 1, 2, fun k => [.of (Reg.STORE_VIOL_COUNT k) .ro]⟩,
  ⟨0xD0020, 8, 0, 2, fun k => [.of (Reg.UPD_SLOT_STATE k) .ro, .of (Reg.UPD_SLOT_FMT_OLD k) .ro,
    .of (Reg.UPD_SLOT_RESULT k) .ro]⟩,
  ⟨0xD0024, 8, 0, 2, fun k => [.of (Reg.UPD_SLOT_VER_VERSION k) .ro]⟩,
  ⟨0xD0030, 4, 0, 1, fun _ => [.of Reg.UPD_CMD_OP .wo]⟩,
  ⟨0xD0034, 4, 0, 1, fun _ => [.of Reg.UPD_ACT_GO .installer]⟩,
  ⟨0xD0038, 4, 0, 1, fun _ => [.of Reg.UPD_CFG_AUTO .rw, .in Reg.UPD_CFG_CE_LIM .rw 10 255,
    .in Reg.UPD_CFG_HANDOVER_T .rws 30 1800]⟩,
  ⟨0xD003C, 4, 0, 1, fun _ => [.of Reg.UPD_STATUS_PHASE .ro, .of Reg.UPD_STATUS_RESULT .ro,
    .of Reg.UPD_STATUS_MIG_PCT .ro]⟩,
  ⟨0xD0040, 4, 0, 1, fun _ => [.of Reg.UPD_HANDOVER_COUNT .ro, .of Reg.UPD_HANDOVER_PAUSE_US .ro]⟩,
  ⟨0xD0044, 4, 0, 1, fun _ => [.of Reg.CORE_HEALTH_CE_B .ro, .of Reg.CORE_HEALTH_CE_A .ro]⟩,
  ⟨0xD0050, 4, 0, 1, fun _ => [.of Reg.FORME_STATE_RESULT .ro, .of Reg.FORME_STATE_PENDING .ro,
    .of Reg.FORME_STATE_ACTIVE .ro]⟩,
  ⟨0xD0054, 4, 0, 1, fun _ => [.of Reg.FORME_VER_VERSION .ro]⟩,
  ⟨0xD0058, 4, 0, 1, fun _ => [.of Reg.LEGAL_VER_VERSION .ro]⟩]

/-- The AO block. -/
def regsAo : List RegRow := [
  ⟨0xE0000, 4, 0, 1, fun _ => [.of Reg.AO_RTC_NOW_W .ro]⟩,
  ⟨0xE0004, 4, 0, 1, fun _ => [.of Reg.AO_RTC_SET_W .rws]⟩,
  ⟨0xE0010, 4, 0, 1, fun _ => [.of Reg.AO_TMP_STATE_TERM_OPEN .ro, .of Reg.AO_TMP_STATE_COVER_OPEN .ro]⟩,
  ⟨0xE0014, 4, 0, 1, fun _ => [.of Reg.AO_TMP_LOG_STAT_DROPPED .ro, .of Reg.AO_TMP_LOG_STAT_ENTRIES .ro]⟩,
  ⟨0xE0020, 4, 0, 1, fun _ => [.in Reg.AO_PRES_CFG_PRES_WIN .installer 30 900]⟩,
  ⟨0xE0024, 4, 0, 1, fun _ => [.of Reg.AO_PRES_CTRL_CLOSE .wo]⟩,
  ⟨0xE0028, 4, 0, 1, fun _ => [.of Reg.AO_PRES_STAT_LEFT .ro, .of Reg.AO_PRES_STAT_JMP .ro,
    .of Reg.AO_PRES_STAT_METRO .ro, .of Reg.AO_PRES_STAT_INSTALLER .ro]⟩,
  ⟨0xE0030, 4, 0, 1, fun _ => [.of Reg.AO_VBACK_CFG_CHG .installer]⟩,
  ⟨0xE0800, 8, 0, 64, fun k => [.of (Reg.AO_TMP_LOG_TIME k) .ro]⟩,
  ⟨0xE0804, 8, 0, 64, fun k => [.of (Reg.AO_TMP_INFO_FLAGS k) .ro, .of (Reg.AO_TMP_INFO_STATE k) .ro,
    .of (Reg.AO_TMP_INFO_INPUT k) .ro]⟩]

/-- The registers of the region that holds `addr` (18 R383). -/
def regionRegs (addr : Nat) : List RegRow :=
  match addr / 0x10000 with
  | 0 => regsSys | 1 => regsHp | 2 => regsHp | 3 => regsCap | 4 => regsSafe | 5 => regsSw | 6 => regsMet | 7 => regsLed
  | 8 => regsLink | 9 => regsVi | 10 => regsRd | 11 => regsKey | 12 => regsPl | 13 => regsStore | 14 => regsAo
  | _ => []

/-- The number that `addr` has in a row of the table. -/
def RegRow.numberOf (r : RegRow) (addr : Nat) : Option Nat :=
  let k := (addr - r.base) / r.stride
  if r.base ≤ addr ∧ r.first ≤ k ∧ k < r.first + r.count ∧ r.base + k * r.stride = addr then some k else none

/-- The register at an address: its number and its fields; none where no block defines one (R4). -/
def findReg (addr : Nat) : Option (Nat × List RegField) :=
  (regionRegs addr).findSome? fun r => (r.numberOf addr).map fun k => (k, r.fields k)

/-- The fields of a register as they are in this state of affairs: the ends of Q0 to Q7 are fixed, BRIDGE is there for
OUT8 and OUT10 alone, and region 0 needs the metrology class (06 R110, 08 OUT_CFGn, 17 PL_REGIONn). -/
def RegField.actual (k : Nat) (x : RegField) : RegField :=
  if (x.field = Reg.Q_CTRL_PROD k ∨ x.field = Reg.Q_CTRL_CONS k) ∧ k < 8 then { x with access := .ro }
  else if x.field = Reg.OUT_CFG_BRIDGE k ∧ k ≠ 8 ∧ k ≠ 10 then { x with access := .ro }
  else if (x.field.addr = (Reg.PL_REGION_POS_X 0).addr ∨ x.field.addr = (Reg.PL_REGION_SIZE_WIDTH 0).addr) then { x with access := .metrology }
  else x

/-- The fields that a register in the map has at `addr`. -/
def regAt (addr : Nat) : Option (Nat × List RegField) := (findReg addr).map fun r => (r.1, r.2.map (RegField.actual r.1))

/-- The bits of a word that belong to a field. -/
def Field.bits (f : Field) (w : Nat) : Nat := w / 2 ^ f.lo % 2 ^ f.width

/-- The value that a write of `v` gives a field: clamped to the range of its description. AC_TH is 0 or at least 10 mA, H a
multiple of 8, OTHER signed (09, 17, 13). -/
def RegField.clamped (x : RegField) (v : Nat) : Nat :=
  if x.field = Reg.SAFE_RCM_AC_AC_TH then (if v = 0 then 0 else clamp 10 300 v)
  else if x.field = Reg.PL_PANEL_H then clamp x.low x.high v / 8 * 8
  else if x.field.addr / 16 = 0x8200 ∧ 0x82004 ≤ x.field.addr then
    signedField 16 (max (-6300) (min 6300 (signedOf 16 v)))
  else clamp x.low x.high v

/-! ## Refusals (R6, R388) -/

/-- A field that a write can reach. -/
def Access.writable (a : Access) : Bool := a ≠ .ro

/-- Two fields have the same access type: RWP is one type, whatever its class. -/
def Access.same (a b : Access) : Bool :=
  a == b || ((a == .installer || a == .metrology) && (b == .installer || b == .metrology))

/-- The monitor reports B, C, D or E. -/
def monitorRuns (s : State) : Bool :=
  let st := getF s Reg.VI_PILOT_STATE
  0xB ≤ st && st ≤ 0xE

/-- The block that owns the RWL fields of the register at `addr` runs (R6 and the chapters' words for it). -/
def blockRuns (addr k : Nat) (s : State) : Bool :=
  let on (n : Nat) : Bool := (s.sw.outs.toList.map (·.on)).getD n false
  match addr / 0x10000 with
  | 2 => if h : k < 64 then getB s (Reg.Q_CTRL_EN k) && qLevel s ⟨k, h⟩ != 0 else false
  | 3 => match (s.cap.strands.toList.getD k Strand.reset).st with
    | .disabled | .faulted => false
    | _ => true
  | 4 => coilOn s
  | 5 => if addr < 0x50100 then on (coilOut false s) || on (coilOut true s) else on k || on (k + 1)
  | 8 => if s.sys.role = .hub then !(registered s).isEmpty else isNode s
  | 9 => monitorRuns s
  | 10 => addr == Reg.TAG_WRCHK_VMIN.addr && s.tag.inTx
  | 12 => !s.plt.upds.isEmpty
  | _ => false

/-- What one field says to a write of `w` to its register: the code it refuses with, if it does. A field that already holds
the value refuses nothing where the register has fields of other writable types (R388). -/
def RegField.refuses (addr k : Nat) (xs : List RegField) (w : Nat) (s : State) (x : RegField) : Option Nat :=
  let mixed := xs.any fun y => y.access.writable && !y.access.same x.access
  if mixed && x.field.bits w == shown k x.field s then none
  else match x.access with
    | .rwl => if blockRuns addr k s then some errLocked else none
    | .installer => if installer s then none else some errPresence
    | .metrology => if metrologist s then none else some errPresence
    | _ => none

/-- A unit range of queue RAM that another queue has (R393). -/
def overlapsQueue (q base size : Nat) (s : State) : Bool :=
  (List.range 64).any fun j => j != q &&
    (base < getF s (Reg.Q_ALLOC_BASE j) + getF s (Reg.Q_ALLOC_SIZE j)) && (getF s (Reg.Q_ALLOC_BASE j) < base + size)

/-- A region entry reaches beyond the panel, or another region overlaps region 0 (R370). -/
def regionRefused (k x y w h : Nat) (s : State) : Bool :=
  let r : Rect := ⟨x, y, w, h⟩
  let clash := if k = 0 then (List.range 31).any fun j => r.overlaps (regionRect (j + 1) s) else r.overlaps (regionRect 0 s)
  getF s Reg.PL_PANEL_H < x + w || getF s Reg.PL_PANEL_V < y + h || clash

/-- The refusals that a register has of its own, beside those of its fields' access types. -/
def regRefuses (addr k w : Nat) (s : State) : Option Nat :=
  let cut (f : Field) : Nat := f.bits w
  if addr / 0x1000 = 0x31 ∨ addr / 0x1000 = 0x32 ∨ addr / 0x1000 = 0x33 then
    if (s.sys.role = .head ∨ s.sys.role = .repeater) ∧ s.sys.mode ≠ .factory ∧ s.sys.mode ≠ .commission then some errMode
    else if addr = (Reg.ST_CFG_CLASS k).addr ∧ cut (Reg.ST_CFG_CLASS k) = 0 ∧
        8 ≤ countStrands (fun t => t.cls == 0) s - ofBool ((s.cap.strands.toList.getD k Strand.reset).cls == 0) then
      some errLocked
    else if addr = (Reg.ST_FBK_PORT k).addr ∧ cut (Reg.ST_FBK_FB_EN k) = 1 ∧ !isSafePort (cut (Reg.ST_FBK_PORT k)) then
      some errLocked
    else none
  else if addr = (Reg.CAP_BP_CTL_EN k).addr then
    let cls0 := ((s.cap.strands.toList.map (·.cls)).getD (cut (Reg.CAP_BP_CTL_STRAND k)) 3) == 0
    if cls0 && s.sys.mode != .factory then some errLocked else none
  else if addr = Reg.CONT_CFG_EN.addr ∧ cut Reg.CONT_CFG_K1_OUT = cut Reg.CONT_CFG_K2_OUT then some errLocked
  else if addr = Reg.OUT_TEST_MASK.addr ∧ s.sys.mode ≠ .commission then some errMode
  else if addr = (Reg.Q_ALLOC_BASE k).addr then
    let base := cut (Reg.Q_ALLOC_BASE k)
    let size := clamp 1 1024 (cut (Reg.Q_ALLOC_SIZE k))
    if 1024 < base + size ∨ overlapsQueue k base size s then some errLocked else none
  else if addr = (Reg.PL_REGION_POS_X k).addr then
    let r := regionRect k s
    if regionRefused k (cut (Reg.PL_REGION_POS_X k)) (cut (Reg.PL_REGION_POS_Y k)) r.w r.h s then some errLocked else none
  else if addr = (Reg.PL_REGION_SIZE_WIDTH k).addr then
    let r := regionRect k s
    if regionRefused k r.x r.y (cut (Reg.PL_REGION_SIZE_WIDTH k)) (cut (Reg.PL_REGION_SIZE_HEIGHT k)) s then some errLocked
    else none
  else none

/-- The first of the codes that applies, in the order of R388. -/
def firstCode (cs : List Nat) : Option Nat :=
  if cs.contains errMode then some errMode
  else if cs.contains errPresence then some errPresence
  else if cs.contains errLocked then some errLocked
  else none

/-- Why a write of `w` to a register is refused, if it is (R6, R388). -/
def refusalOf (addr k w : Nat) (xs : List RegField) (s : State) : Option Nat :=
  if addr = Reg.GAL_DBG_SEL_STRAND.addr ∧ 319 < w % 512 then some errAddr
  else firstCode (xs.filterMap (RegField.refuses addr k xs w s) ++ (regRefuses addr k w s).toList)

/-- A refused write to the strand table shows in CAP_STATUS: a ninth class-0 strand, or a FALLBACK_PUT to a port that is
not safe-direction (R49, R58). -/
def refusalShown (addr k : Nat) (s : State) : State :=
  let hubs : Bool := (s.sys.role == .head || s.sys.role == .repeater) && s.sys.mode != .factory && s.sys.mode != .commission
  if blockRuns addr k s || hubs then s
  else if addr = (Reg.ST_CFG_CLASS k).addr then setF Reg.CAP_STATUS_CAP_CL0_REFUSED 1 s
  else if addr = (Reg.ST_FBK_PORT k).addr then setF Reg.CAP_STATUS_FBK_REFUSED 1 s
  else s

/-! ## The write -/

/-- Changes strand `k` of the table. -/
def modStrandNo (k : Nat) (f : Strand → Strand) (s : State) : State := if h : k < 320 then modS ⟨k, h⟩ f s else s

/-- A slot of a strand's subscriptions takes an event number. -/
def putSub (k i v : Nat) (s : State) : State :=
  modStrandNo k (fun t => { t with sub := t.sub.setIfInBounds i (BitVec.ofNat 8 v) }) s

/-- A field of the strand table takes a value (03, Registers). -/
def putStrandField (k : Nat) (f : Field) (v : Nat) (s : State) : State :=
  let on (g : Strand → Strand) : State := modStrandNo k g s
  if f = Reg.ST_CFG_CLASS k then on fun t => { t with cls := Fin.ofNat 4 v }
  else if f = Reg.ST_CFG_ENTRY k then on fun t => { t with entry := BitVec.ofNat 17 v }
  else if f = Reg.ST_WIN_BASE k then on fun t => { t with winBase := v }
  else if f = Reg.ST_WIN_SIZE k then on fun t => { t with winSize := v }
  else if f = Reg.ST_EVEN_EN k then on fun t => { t with en := BitVec.ofNat 8 v }
  else if f = Reg.ST_FBK_FB_EN k then on fun t => { t with fbEn := v ≠ 0 }
  else if f = Reg.ST_FBK_PORT k then on fun t => { t with fbPort := v }
  else if f = Reg.ST_FBK_VALUE k then on fun t => { t with fbValue := v }
  else if f.addr = (Reg.ST_EVSUB0_SLOT0 k).addr then putSub k (f.lo / 8) v s
  else if f.addr = (Reg.ST_EVSUB1_SLOT4 k).addr then putSub k (4 + f.lo / 8) v s
  else s

/-- A field takes a value, where the field's value lives. -/
def putField (k : Nat) (f : Field) (v : Nat) (s : State) : State :=
  if f.addr / 0x10000 = 3 ∧ 0x31000 ≤ f.addr then putStrandField k f v s else setF f v s

/-- One field of a written register (R6): RO and WO keep nothing, a 1 clears a W1C bit, the others take the value. -/
def RegField.write (k w : Nat) (s : State) (x : RegField) : State :=
  match x.access with
  | .ro | .wo => s
  | .w1c => setF x.field (getF s x.field &&& (2 ^ x.field.width - 1 ^^^ x.field.bits w)) s
  | _ => putField k x.field (x.clamped (x.field.bits w)) s

/-- A break count is set for a replaced contactor, and its learned delay starts again (08, CONT_WEARk). -/
def putWear (k v : Nat) (s : State) : State :=
  (s.updSw fun x => if k = 0 then { x with wear1 := v, dly1 := [] } else { x with wear2 := v, dly2 := [] })
    |> logEvent 4 k v |> wornCheck

/-- OUT_TEST: the outputs set are on and the others off; coil outputs are left alone while EN = 1 (08, OUT_TEST), and the
outputs reserved for the lock (07 R134). -/
def testOutputs (mask : Nat) (s : State) : State :=
  (List.finRange 12).foldl (fun s n =>
    if named (coilMask s ||| lockMask s) n then s
    else if named mask n && !s.sys.vsysLow then s |> clearCauseOn n |> outOn n
    else if (outCh n s).on then s |> outOff n |> fenceOutputs (BitVec.ofNat 12 (2 ^ n.val)) none else s) s

/-- Every learned ceiling is dropped (13 R293). -/
def unlearnAll (s : State) : State := s.updAlloc fun a => { a with ch := a.ch.map Chan.unlearn }

/-- The control block of the tag takes the settings of TAG_CFG and TAG_WRCHK (15 R327). -/
def copyTagControl (s : State) : State :=
  s.updTag fun t => { t with
    cbEn := getB s Reg.TAG_CFG_EN, cbQuiet := getF s Reg.TAG_CFG_QUIET_T, cbMode := getF s Reg.TAG_CFG_WRMODE,
    cbVmin := getF s Reg.TAG_WRCHK_VMIN }

/-- CONT_CFG names the coil outputs: with EN = 1 an output that is on already commands its contactor closed (08 R147; DEDUCED,
assumption log 59). -/
def nameCoils (s : State) : State :=
  let on (n : Nat) : Bool := contEn s && (s.sw.outs.toList.map (·.on)).getD n false
  let k1 := on (coilOut false s)
  let k2 := on (coilOut true s)
  if k1 || k2 then
    s.updSw fun w => { w with k1 := k1, k2 := k2, reported := false, stage := if k1 && k2 then .closed else .split }
  else s

/-- What a write does beside giving its fields their values. -/
def afterWrite (addr k w : Nat) (s : State) : State :=
  if addr = Reg.VI_CFG_TETHERED.addr ∨ addr = Reg.VI_RATING_RATED_A.addr then lowerToCeiling s
  else if addr = (Reg.CONT_WEAR_COUNT k).addr then putWear k w s
  else if addr = Reg.CONT_RATED_RATED.addr then wornCheck s
  else if addr = Reg.CONT_CFG_EN.addr then nameCoils s
  else if addr = Reg.OUT_TEST_MASK.addr then testOutputs w s
  else if addr = (Reg.ALLOC_OTHER_OTHER k).addr ∨ addr = Reg.ALLOC_SURPLUS_W_WATTS.addr ∨
      addr = Reg.ALLOC_BATT_W_WATTS.addr then setF Reg.ALLOC_STATUS_STALE 0 s
  else if addr = Reg.ALLOC_LEARN_LEARN_EN.addr ∧ !getB s Reg.ALLOC_LEARN_LEARN_EN then unlearnAll s
  else if addr = Reg.ALLOC_SA_DEF_DEFAULT.addr then lowerToGrant s
  else if addr = Reg.PL_CFG_WFMT.addr ∧ !getB s Reg.PL_CFG_WFMT then loadTrims s
  else if addr = Reg.TAG_CFG_EN.addr ∨ addr = Reg.TAG_WRCHK_VMIN.addr then copyTagControl s
  else s

/-- What SAFE_LIMIT `item` last had written to it, with the AC tier switched off as no limit (R193). -/
def limitWritten (item : Nat) (s : State) : Nat :=
  match limitOf item with
  | some (f, _, _) => if item = 1 ∧ getF s f = 0 then 0xFFFF else getF s f
  | none => 0

/-- A host write that lowers a limit, or the ceiling of a channel, between `was` and `s` fences the held writes to its port
(R95). -/
def hostFence (addr k : Nat) (was s : State) : State :=
  if addr = (Reg.ALLOC_CH_CFG_CEIL k).addr then
    if getF s (Reg.ALLOC_CH_CFG_CEIL k) < getF was (Reg.ALLOC_CH_CFG_CEIL k) then
      fence 0x704 (some (BitVec.ofNat 32 k)) none s
    else s
  else if addr / 0x10000 = 4 then
    (List.range 7).foldl (fun s item =>
      if limitWritten item s < limitWritten item was then fence 0x103 (some (BitVec.ofNat 32 item)) none s else s) s
  else s

/-- The fields of a register take what is written, and the block acts on it. -/
def writeFields (addr k w : Nat) (xs : List RegField) (s : State) : State :=
  xs.foldl (RegField.write k w) s |> hostFence addr k s |> afterWrite addr k w |> settle

/-- A host write to a register that has no command of its own (R4, R6, R388). -/
def registerWrite (addr w : Nat) (s : State) : Nat × State :=
  match regAt addr with
  | none => (errAddr, s)
  | some (k, xs) =>
    match refusalOf addr k w xs s with
    | some c => (c, if c = errLocked then refusalShown addr k s else s)
    | none => (statusOk, noteSetting addr s (writeFields addr k w xs s))

/-- A REG item of the configuration is written (19 R411): each RWP field only under the class it names, each RWL field only
while its block does not run. -/
def restoreRegister (addr w : Nat) (s : State) : State :=
  match regAt addr with
  | none => s
  | some (k, xs) =>
    let open_ (x : RegField) : Bool := match x.access with
      | .rw | .rws => true
      | .rwl => !blockRuns addr k s
      | .installer => installer s
      | .metrology => metrologist s
      | .ro | .wo | .w1c => false
    let ys := xs.filter open_
    if ys.isEmpty || (regRefuses addr k w s).isSome then s else writeFields addr k w ys s

end Sys2Proof.Machine
end

