-- ==== Sys2Proof/Machine/Modes.lean ====
section
/-! DEFINITION. Modes, start-up, resets and the failure of a core (02 R21 to R36), the clocks' and the dies' supervision
(20 R432, R437), and the rows whose effect a controlled stop can follow. -/
namespace Sys2Proof.Machine

/-! ## What a reset leaves (R5, R32) -/

/-- What the switching block keeps: the wear record, the backup SRAM, and what the surroundings do. -/
def Sw.afterReset (w : Sw) : Sw := {
  vl := w.vl, supply := w.supply, bsClosed := w.bsClosed, bsCurrent := w.bsCurrent, bsDuty := w.bsDuty,
  wearDuty := w.wearDuty, wear1 := w.wear1, wear2 := w.wear2, dly1 := w.dly1, dly2 := w.dly2, cellA := w.cellA,
  cellB := w.cellB, onB := w.onB, clampCtr := w.clampCtr }

/-- What the supervisor keeps: the causes in the configuration partition, and what it measures. -/
def Sup.afterReset (u : Sup) : Sup := {
  savedWeld := u.savedWeld, savedMismatch := u.savedMismatch, temps := u.temps, chainOk := u.chainOk }

/-- What the key unit keeps: the knot table, the secrets, the retired slots, the jumper. -/
def Key.afterReset (k : Key) : Key := {
  knots := k.knots, secrets := k.secrets, retired := k.retired, jumper := k.jumper }

/-- What the reader and the directory keep. -/
def Rd.afterReset (r : Rd) : Rd := {
  dir := r.dir, seq := r.seq, series := r.series, ops := r.ops, pres := r.pres }

/-- What Metrology keeps: the wear record's chain map, free chain and retired chains (10 R197), and the calibration partition. -/
def Met.afterReset (m : Met) : Met := {
  cal := m.cal, calCount := m.calCount, map := m.map, blkMap := m.map, free := m.free, retired := m.retired, lost := m.lost }

/-- What the ledger and the AO block keep: the store's copies and records, the calendars, the clock and its log. -/
def Led.afterReset (l : Led) : Led := {
  w := l.w, rtcValid := l.rtcValid, rtcSecs := l.rtcSecs, aoLost := l.aoLost, x32Sub := l.x32Sub, setPend := l.setPend, opened := l.opened,
  nextSess := l.nextSess, seq := l.seq, chain := l.chain, prevChain := l.prevChain, unsealed := l.unsealed,
  sealFirst := l.sealFirst, sealTime := l.sealTime, records := l.records, head := l.head, tail := l.tail, ack := l.ack,
  calAct := l.calAct, calPas := l.calPas, clears := l.clears, snapshot := l.snapshot, image := l.image, tmpLog := l.tmpLog }

/-- What the site link keeps: the site tables, the pairing, and a delivery's chunks. -/
def Link.afterReset (l : Link) : Link := {
  chan := l.chan, fallbackA := l.fallbackA, roundCtr := l.roundCtr, upPos := l.upPos, deliv := l.deliv,
  nodeKnot := l.nodeKnot, nextId := l.nextId, table := l.table,
  nodes := l.nodes.map fun x => { x with replies := [], allocWait := none, ptr := -1 } }

/-- What Platen keeps: the last-image table and the journal. -/
def Plt.afterReset (p : Plt) : Plt := { images := p.images, journal := p.journal, serial := p.serial }

/-- What the store keeps, and the mount (R403); an activation under way is gone, and its slot waits to be activated again. The boot ROM runs on
Core A unless that core is retired. -/
def Store.afterReset (retired : Bool) (t : Store) : Store := {
  t with
  act := none, wait := none, retireAfter := false, coreB := retired && t.coreB,
  dies := #v[(t.dies.get 0).mount 0, (t.dies.get 1).mount 1],
  slots := t.slots.map fun x => if x.state = .trying then { x with state := .staged } else x }

/-- What system control keeps. -/
def Sys.afterReset (y : Sys) : Sys := {
  mode := y.mode, role := y.role, mainGood := y.mainGood, vbackOk := y.vbackOk, rfField := y.rfField, refHeld := y.refHeld,
  factoryDone := y.factoryDone, settings := y.settings, paired := y.paired, coreRetired := y.coreRetired,
  resetLow := y.resetLow, violLog := y.violLog, eventLog := y.eventLog, freeCtr := y.freeCtr }

/-- PD2 to PD7 are cleared, and with `powerOn` PD1 as well: registers take their Reset columns and volatile state is lost
(R5, R32). SYS_HEALTH falls at a power-on alone (01 R16). -/
def clearPower (powerOn : Bool) (s : State) : State :=
  let health := (List.range 8).filter fun b => !powerOn && getB s ⟨0x80, b, 1, 0⟩
  let s := clearRegs (if powerOn then [1, 2, 3, 4, 5, 6, 7] else [2, 3, 4, 5, 6, 7]) s
  let s := health.foldl (fun s b => setF ⟨0x80, b, 1, 0⟩ 1 s) s
  let s := s |> setB Reg.PWR_STATUS_XTAL_FAIL s.sys.refHeld |> setB Reg.PWR_STATUS_X32_FAIL s.led.x32Sub
  { s with
    sys := s.sys.afterReset, pilot := { bolt := s.pilot.bolt }, hlc := {}, sw := s.sw.afterReset, sup := s.sup.afterReset,
    cap := { nextCall := s.cap.nextCall }, key := s.key.afterReset, rd := s.rd.afterReset, met := s.met.afterReset,
    led := s.led.afterReset, link := s.link.afterReset, alloc := {}, plt := s.plt.afterReset, hp := {},
    store := s.store.afterReset s.sys.coreRetired }

/-! ## INERT (R35, R36) -/

/-- The REG items of the configuration (19 R411), those at addresses that `p` takes. -/
def restoreItems (p : Nat → Bool) (s : State) : State :=
  (s.sys.settings.filter fun i => i.item == 0x101).foldl (fun s i =>
    let a := fieldOf i.value 0 4
    if p a && 0x40000 ≤ a && a < 0xD0000 && a % 4 == 0 then restoreRegister a (fieldOf i.value 4 4) s else s) s

/-- The lock's pulse of INERT, with the configuration of VI_LOCK: one unlock pulse if the lock reads locked (R35). -/
def inertUnlock (s : State) : State :=
  let s := restoreItems (· == Reg.VI_LOCK_EN.addr) s
  if getB s Reg.VI_LOCK_EN && s.pilot.bolt then lockStart false s else s

/-- The module enters INERT: the contactors open, an unlock pulse if the lock reads locked, the outputs off, the Capstan
stopped, Platen powered down, PD3 off. -/
def enterInert (reason : Nat) (s : State) : State :=
  let s := (List.finRange 12).foldl (fun s n => outOff n s) (openNow true true s) |> inertUnlock
  let s := s |> stopStrands |> stopAll |> panelOff |> clearRegs [3]
  let s := s.updMet fun m => m.afterReset
  s |> setF Reg.SYS_INERT_REASON_REASON reason |> enterMode .inert |> settle

/-- The link key of a paired node is placed in its slot (16 R353). -/
def placeLinkKey (s : State) : State :=
  match s.link.nodeKnot with
  | none => s
  | some k =>
    let (_, slot, s) := firmwareDerives k [0x4C, 0x49, 0x4E, 0x4B] engAes1 false s
    s.updLink fun l => { l with linkSlot := slot }

/-- Boot step 13: the root knot, and firmware's keys in the store subtree. -/
def deriveRoot (s : State) : State :=
  let s := s.updKey fun k => { k with derived := true }
  let s := (firmwareDerives 5 [0x44, 0x49, 0x52, 0x48] engHmac true s).2.2
  (firmwareDerives 5 [0x4E, 0x4F, 0x52] engStore true s).2.2

/-! ## The power-up sequence (R30) -/

/-- The slots that the boot ROM tries, in the order of 19 R417, the first two places only. -/
def bootOrder (s : State) : List Nat :=
  let k := s.store.runs
  let o := fwSlot (1 - k) s
  (if (fwSlot k s).state = .active then [k] else []) ++ (if o.state = .previous ∧ !o.fmtOld then [1 - k] else [])

/-- The first slot of a list that passes its boot check; those that fail become REJECTED. -/
def firstSound : List Nat → State → Option Nat × State
  | [], s => (none, s)
  | k :: ks, s =>
    if bootCheck k s then (some k, s)
    else firstSound ks (modFw k (fun x => { x with state := .rejected, result := imageRejected }) s)

/-- Boot step 4: the slot that boots; a STAGED slot only when no other passes (19 R417). -/
def bootSlot (s : State) : Option Nat × State :=
  match firstSound (bootOrder s) s with
  | (some k, s) => (some k, s)
  | (none, s) => firstSound ((List.range 2).filter fun k => (fwSlot k s).state == .staged) s

/-- The slot that boots is ACTIVE; items of an older format are migrated later, at a handover to the same image (19
R417). -/
def bootImage (k : Nat) (s : State) : State :=
  let x := fwSlot k s
  let s := (modFw k (fun x => { x with state := .active }) s).updStore fun t => { t with runs := k }
  if migrates x s then s.updStore fun t => { t with wait := some { slot := k, same := true, migrated := true } } else s

/-- The module is commissioned while its configuration holds an EVSEID (19 R411). -/
def commissioned (s : State) : Bool := s.sys.settings.any fun i => i.item == 0x100

/-- UNCOMMISSIONED follows the configuration items (19 R411). -/
def noteCommissioned (s : State) : State := setB Reg.SYS_STATUS_UNCOMMISSIONED (!commissioned s) s

/-- WELD, and CONTACTOR held for FB_MISMATCH, are asserted again before the Capstan starts (09 R189). -/
def assertSaved (s : State) : State :=
  let hold (bit : Nat) (s : State) : State :=
    s |> setF Reg.SAFE_STATUS_HELD (held s ||| 2 ^ bit) |> setF Reg.SAFE_STATUS_SEEN (getF s Reg.SAFE_STATUS_SEEN ||| 2 ^ bit)
  let w := s.sup.savedWeld
  let s := if w = 0 then s
    else hold 7 (s.updSw fun x => { x with weld1 := w.getLsbD 0, weld2 := w.getLsbD 1 })
  if s.sup.savedMismatch then hold 8 (s.updSw fun x => { x with tripWhy := some .mismatch }) else s

/-- SYS_HEALTH is evaluated again from the wear records (01 R15, R16). -/
def healthCheck (s : State) : State :=
  let on (c : Bool) (b : Nat) (s : State) : State := if c then setHealth b s else s
  s |> on s.sys.coreRetired 0 |> on (decide (s.met.free = 15)) 1 |> on (decide (s.sw.onB ≠ 0)) 2
    |> on (decide (storeFree s < 75)) 3 |> on (decide (usableSlots s < 56)) 4 |> wornCheck

/-- Boot step 9: the active forme copy is verified and loaded, or RESULT holds IMAGE_REJECTED (19 R413). -/
def bootForme (s : State) : State :=
  match formeSound s.store.formeAct s with
  | some f => loadForme s.store.formeAct f s
  | none => setF Reg.FORME_STATE_RESULT imageRejected s

/-- Boot step 14: the Lanyard PHY is up. A paired head starts in fallback (R27), and a hub starts its first round. -/
def linkStart (s : State) : State :=
  match s.sys.role with
  | .head =>
    if s.sys.paired then (enterFallback s).updLink fun l => { l with lastPoll := some s.sys.usec } else s
  | .repeater => if s.sys.paired then s.updLink fun l => { l with lastPoll := some s.sys.usec } else s
  | .hub => roundStart s
  | .standalone => s

/-- Step 16: ready for plug-in, in the role mode. -/
def ready (s : State) : State :=
  let s := s |> platenStart |> enterMode (roleMode s.sys.role) |> linkStart
    |> setF (Reg.MB_IN_PEND_PEND 0) (getF s (Reg.MB_IN_PEND_PEND 0) ||| 1)
  let s := if installer s then s else s.updTag fun t => { t with commPend := false }
  s |> settle |> takeRecord

/-- Steps 5 to 14 with the firmware of slot `k`, and the mode that the boot ends in (R28, R30). -/
def bootFirmware (k : Nat) (s : State) : State :=
  let s := s |> bootImage k |> countLostBreak |> ledgerRestore |> bootForme |> restoreItems (fun _ => true) |> noteCommissioned |> assertSaved
    |> loadTrims |> askTest false false none |> deriveRoot |> placeLinkKey |> healthCheck
  if s.sys.factoryDone then ready (s.updSys fun y => { y with booted := true })
  else if metrologist s then s |> (fun s => s.updSys fun y => { y with booted := true }) |> enterMode .factory |> linkStart
  else s |> linkStart |> enterInert 2

/-- BOOT from step 1: the pumps come up and the pilot goes to state F, the boot ROM finds a slot, and the module comes up;
with no slot the recovery service of INERT runs (R35). The whole sequence is one step of the model, but for a hold by
RESET_N or by a reference failure. -/
def boot (s : State) : State :=
  let s := enterMode .boot (s.updPilot fun p => { p with pumps := true }) |> settle
  if s.sys.resetLow || s.sys.refHeld || !s.sys.mainGood then s
  else match bootSlot s with
  | (some k, s) => bootFirmware k s
  | (none, s) => s |> deriveRoot |> placeLinkKey |> healthCheck |> enterInert 1

/-- MSEL is sampled (R23). -/
def sampleMsel (r : Role) (s : State) : State := s.updSys fun y => { y with role := r }

/-- Records a cause in SYS_RST_CAUSE. -/
def cause (f : Field) (s : State) : State := setF f 1 s

/-- RESET_N, or a lost reference, has cleared PD2 to PD7 while the charge pumps run: the power die drives −12 V (R32). -/
def defaultF (pumps : Bool) (s : State) : State := settle (s.updPilot fun p => { p with pumps := pumps })

/-- A reset that boots at once: PD2 to PD7 are cleared and the power-up sequence runs. -/
def resetAndBoot (powerOn : Bool) (why : Option Field) (s : State) : State :=
  let s := clearPower powerOn s
  boot (match why with | some f => cause f s | none => s)

/-- Main power is there: PD2 is on, or would be but for a hold in BOOT. -/
def powered (s : State) : Bool := s.sys.mainGood && domainOn 2 s

/-! ## Supplies and resets (R28, R32) -/

/-- VBACK_RISE: from no power the module enters BACKUP; the RTC starts with an invalid clock. -/
def execVbackRise (s : State) : Out :=
  .next (
    let s := s.updSys fun y => { y with vbackOk := true }
    if s.sys.mode = .noPower then enterMode .backup s else s)

/-- The modes without main power (R21). -/
def unpowered (s : State) : Bool :=
  match s.sys.mode with
  | .noPower | .backup | .tagOnly => true
  | _ => false

/-- SUPPLIES_GOOD: a power-on reset and BOOT. With RESET_N low the mode stays, and BOOT waits for RESET_N (R28). -/
def suppliesGood (msel : Role) (s : State) : State :=
  let off : Bool := unpowered s || (s.sys.mode == .boot && !s.sys.booted && !s.sys.refHeld && !s.sys.resetLow)
  if !off then s
  else
    let s := s.updSys fun y => { y with mainGood := true }
    if s.sys.resetLow then s else resetAndBoot true none (sampleMsel msel s)

def execSuppliesGood (msel : Role) (s : State) : Out := .next (suppliesGood msel s)

/-- The PD0 state that is lost with VBACK (R32): the wall clock, the AO log, the presence window. -/
def loseAo (s : State) : State :=
  (clearRegs [0] s).updLed fun l => { l with
    w := 0, rtcValid := false, rtcSecs := 0, setPend := none, tmpLog := [], aoLost := true, x32Sub := false }

/-- The backup SRAM of the switching block is PD0's (08 R156). -/
def loseBackupSram (s : State) : State := s.updSw fun w => { w with bsClosed := false, bsCurrent := 0, bsDuty := false }

/-- PD0 loses its last supply (R28, R32). -/
def aoGone (s : State) : State :=
  let s := s |> loseAo |> loseBackupSram
  if s.sys.mode = .backup then enterMode .noPower s else s

/-- AO_LOSS: VBACK is lost; with main power present nothing else is (20 R442). -/
def execAoLoss (s : State) : Out :=
  .next (
    let s := s.updSys fun y => { y with vbackOk := false }
    if s.sys.mainGood then s else aoGone s)

/-- VAUX_LOSS: the energy path drops and PD2 to PD7 lose power; with no VBACK, PD0 as well. After a confirmed power fail
this is the end of its hold-up, whose cause is noted already (R32, R33). Supplies that never lifted PD2 out of its reset are
gone without a trace. -/
def vauxLoss (s : State) : State :=
  if !s.sys.mainGood then s
  else if !domainOn 2 s then
    let s := s.updSys fun y => { y with mainGood := false }
    if s.sys.vbackOk then s else aoGone s
  else
    let s := if s.sys.pfwConfirmed then s else cause Reg.SYS_RST_CAUSE_VAUX s
    let s := (clearPower false s).updSys fun y => { y with mainGood := false, refHeld := false }
    let s := if s.sys.vbackOk then s else s |> loseAo |> loseBackupSram
    enterMode (if s.sys.rfField then .tagOnly else if s.sys.vbackOk then .backup else .noPower) s

def execVauxLoss (s : State) : Out := .next (vauxLoss s)

/-- RESET_N_ASSERT: the contactors drop, PD2 to PD7 clear and sessions end; BOOT waits for RESET_N. -/
def execResetNAssert (s : State) : Out :=
  .next (
    let on := powered s
    let pumps := s.pilot.pumps
    let s := s.updSys fun y => { y with resetLow := true }
    if on then defaultF pumps (enterMode .boot (cause Reg.SYS_RST_CAUSE_RESET_PAD (clearPower false s))) else s)

/-- RESET_N_RELEASE: MSEL is sampled and BOOT starts. -/
def execResetNRelease (msel : Role) (s : State) : Out :=
  .next (
    if !s.sys.resetLow then s
    else
      let s := (sampleMsel msel s).updSys fun y => { y with resetLow := false }
      if !s.sys.mainGood || s.sys.refHeld then s
      else if unpowered s then resetAndBoot true none s
      else boot s)

/-- A write of SYS_RESET: SOFT, or CAP, with the key (R32). A soft reset leaves no status behind: HOST_STAT is cleared
with PD7. -/
def softReset (s : State) : Nat × State :=
  if sessionActive s then (errLocked, s) else (statusOk, resetAndBoot false (some Reg.SYS_RST_CAUSE_SOFT) s)

/-- SOFT_RESET. -/
def execSoftReset (s : State) : Out :=
  .next (if hostUp s && !sessionActive s && powered s then (softReset s).2 else hostTo Reg.SYS_RESET_SOFT.addr softReset s)

/-! ## Power fail (R33) -/

/-- PFW_N_FALL. -/
def execPfwNFall (s : State) : Out := .next (if powered s then s.updSys fun y => { y with pfwLow := true } else s)

/-- The outputs that do not drive a contactor coil turn off (R32). -/
def loadsOff (s : State) : State :=
  let coils := coilMask s
  (List.finRange 12).foldl (fun s n => if coils.testBit n.val then s else outOff n s) s

/-- PFW_CONFIRM, with PFW_N low for 1 ms: metrology freezes at the end of the block in progress, the ledger takes its snapshot, PWM stops, the pilot
goes to state F, and the outputs turn off but for the coils, which open at their step (DEDUCED, assumption log 56). A
handover is abandoned (R29). -/
def pfwConfirm (d : BlockData) (s : State) : State :=
  if s.sys.pfwConfirmed || !powered s then s
  else
    let s := if metering s then blockEnd d true s else s
    let s := (ledgerFreeze s).updMet fun m => { m with frozen := true, rot := .idle }
    let s := s |> setF Reg.MET_STATUS_RECHECK 0 |> setF Reg.MET_STATUS_CHECKING 0xF
    let s := if s.sys.pause then s |> endPause |> failAct .failed updFailed else s
    (s.updSys fun y => { y with pfwLow := true, pfwConfirmed := true }) |> cause Reg.SYS_RST_CAUSE_PFAIL |> supervisorStop |> loadsOff |> settle

def execPfwConfirm (data : BlockData) (s : State) : Out := .next (pfwConfirm data s)

/-- PFW_CONTACTOR_OPEN: both contactors open, with no wait for a current zero. The opening is counted at the next start (08
R156). -/
def execPfwContactorOpen (s : State) : Out :=
  .next (
    if s.sys.pfwConfirmed && (s.sw.k1 || s.sw.k2) then
      (s |> clearArm |> setCoil false false |> setCoil true false).updSw fun w => { w with
        stage := .feedback, disc := none, discAfter := none }
    else s)

/-- PFW_RETURN_RESET: the supplies stayed good, and the module performs a power-on reset. -/
def execPfwReturnReset (msel : Role) (s : State) : Out :=
  .next (if s.sys.pfwConfirmed && powered s then resetAndBoot true none (sampleMsel msel s) else s)

/-! ## The Capstan reset (R32, 03 R61) -/

/-- One strand at a Capstan reset: a FAULTED one stays FAULTED, a DISABLED one DISABLED, any other restarts. -/
def capstanResetStrand (n : Fin 320) (s : State) : State :=
  let s := s |> discardGalley n |> abandonCalls n
  match (getS s n).st with
  | .disabled | .faulted => modS n (fun t => { t.fresh with p := 1 }) s
  | _ =>
    let s := keysLetGo n s
    (s |> modS n fun t => { t.fresh with hwm := 0, st := .disabled }).updCap (Cap.makeReady (hmaxNow s) true n)

/-- The Capstan reset: strand contexts and galleys are cleared, the strand table, the program store and case memory are
kept, and the strands restart. -/
def capstanReset (s : State) : State :=
  let s := s.updCap fun c => { c with
    running := none, interrupted := none, q0 := [], q1 := [], q2 := [], q3 := [], stalled := []
    cycClass := 1, cycLeft := c.cycW.get 0 }
  allStrands.foldl (fun s n => capstanResetStrand n s) s |> setF Reg.CAP_FAULT_COUNT 0 |> cause Reg.SYS_RST_CAUSE_CAPSTAN

/-- CAPSTAN_RESET: a keyed write of SYS_RESET.CAP. -/
def execCapstanReset (s : State) : Out :=
  .next (hostTo Reg.SYS_RESET_CAP.addr (fun s => (statusOk, capstanReset s)) s)

/-- One of the faults that a double fault takes in: its code is not the manual's to say here, and is free among those of
R56. -/
def faultInOrder (s : State) (n : Fin 320) : State :=
  let (c, s) := freeBelow 9 s
  capFault n (0xA0 + c) s

/-- CAPSTAN_DOUBLE_FAULT: the FALLBACK_PUTs of the strands that faulted run in the order of their faults, then the Capstan
is reset; with no strand named it is an uncorrectable error of the program store (R61). -/
def execCapstanDoubleFault (faulted : List (Fin 320)) (s : State) : Out :=
  .next (if domainOn 7 s ∧ fCap s ≠ 0 then capstanReset (faulted.foldl faultInOrder s) else s)

/-! ## Core failure (R34) -/

/-- CORE_FAILURE: firmware stops, the failed core's domain is cleared (R32), SAFE holds the energy path, and HOLD_T runs; an activation under way fails. -/
def coreFailure (s : State) : State :=
  if !domainOn 2 s || s.sys.mode == .boot || s.sys.takeover then s
  else
    let s := if s.sys.pause then endPause s else s
    let s := s |> failAct .failed updFailed |> clearRegs [activeDomain s] |> cause Reg.SYS_RST_CAUSE_CORE_FAIL
      |> boundary Reg.SYS_TIMING_HOLD_T
    s.updSys fun y => { y with takeover := true }

def execCoreFailure (s : State) : Out := .next (coreFailure s)

/-- CORE_TAKEOVER: the standby core is active; what waited for firmware goes on. -/
def execCoreTakeover (s : State) : Out :=
  .next (
    if s.sys.takeover && s.sys.standbyReady && !s.sys.ctrlStop then
      let s := (s.updSys fun y => { y with takeover := false, standbyReady := false }).updStore fun t => { t with coreB := !t.coreB }
      s |> raisePaused |> dirResume
    else s)

/-- The core that passes its boot check comes up: Core A, on which the boot ROM starts, where it does, else Core B; which one
does after a core failure is open (R34, assumption log 56). A retired core is not tried. -/
def pickCore (s : State) : State :=
  if s.sys.coreRetired then s
  else
    let (v, s) := freeBelow 2 s
    s.updStore fun t => { t with coreB := v == 1 }

/-- The controlled stop is complete once the pair is open: a power-on reset of PD2 to PD7, and whichever core passes its boot
check comes up (R34). -/
def stopDone (s : State) : State :=
  if s.sys.ctrlStop && s.sw.stage == .opened then
    boot (pickCore (cause Reg.SYS_RST_CAUSE_CTRL_STOP (clearPower false s)))
  else s

/-- HOLD_T_EXPIRY: the controlled stop begins. -/
def execHoldTExpiry (s : State) : Out :=
  .next (
    if s.sys.takeover && !s.sys.ctrlStop then
      (s.updSys fun y => { y with ctrlStop := true }) |> supervisorStop |> startDisc .controlled |> settle |> stopDone
    else s)

/-- MIRROR_CHANGE. -/
def execMirrorChange (second reads : Bool) (live : BitVec 3) (s : State) : Out := .next (stopDone (mirrorChange second reads live s))

/-- LOAD_SIDE_CHANGE. -/
def execLoadSideChange (phase : Fin 3) (on : Bool) (live : BitVec 3) (s : State) : Out :=
  .next (stopDone (loadSideChange phase on live s))

/-- DISCONNECT_FEEDBACK. -/
def execDisconnectFeedback (live : BitVec 3) (s : State) : Out := .next (stopDone (disconnectFeedback live s))

/-! ## The standby core (R30, R31) -/

/-- STANDBY_READY: the standby core has booted the image. -/
def execStandbyReady (s : State) : Out :=
  .next (
    if s.sys.booted && !s.sys.coreRetired && s.store.act.isNone && domainOn (standbyDomain s) s && s.sys.mode != .inert then
      s.updSys fun y => { y with standbyReady := true }
    else s)

/-- STANDBY_READY_TIMEOUT: 5 s after step 0 (R31). -/
def execStandbyReadyTimeout (s : State) : Out :=
  .next (if s.sys.booted && domainOn 7 s && !s.sys.standbyReady && s.sys.mode != .inert then setHealth 0 s else s)

/-! ## FACTORY, COMMISSION and STANDBY (R28) -/

/-- FACTORY_DONE_BLOWN: BOOT by internal reset. -/
def execFactoryDoneBlown (s : State) : Out :=
  .next (if s.sys.mode = .factory then resetAndBoot false none (s.updSys fun y => { y with factoryDone := true }) else s)

/-- A write of SYS_CTRL.REQ_COMMISSION with the value `req` (R28): 1 in COMMISSION is what the field holds. -/
def requestCommission (req : Bool) (s : State) : Nat × State :=
  if !req || s.sys.mode == .commission then (statusOk, s)
  else if s.sys.mode ≠ roleMode s.sys.role ∨ sessionActive s then (errMode, s)
  else if !installer s then (errPresence, s)
  else (statusOk, enterCommission [] s)

/-- REQ_COMMISSION. -/
def execReqCommission (s : State) : Out := .next (hostTo Reg.SYS_CTRL_REQ_COMMISSION.addr (requestCommission true) s)

/-- An item takes the place of the one it renews: a REG item that of the same address. -/
def renews (a b : SettingItem) : Bool := a.item == b.item && (a.item != 0x101 || a.value.take 4 == b.value.take 4)

/-- An item with a known ID is stored; an unknown ID is skipped and counted (19 R411). -/
def storeItem (s : State) (i : SettingItem) : State :=
  if [1, 2, 3, 4, 0x100, 0x101, 0x102].contains i.item then
    s.updSys fun y => { y with settings := (y.settings.filter fun j => !renews j i) ++ [i] }
  else s |> incF (Reg.STORE_VIOL_COUNT 1) |> logViolation 13 1 i.item

/-- COMMISSION_COMMIT: settings that pass validation are stored, their REG items written, and the module returns to its
role mode (R28, 19 R411). -/
def commissionCommit (valid : Bool) (s : State) : State :=
  if s.sys.mode ≠ .commission ∨ !valid then s
  else
    let items := s.sys.staged
    let s := (items.foldl storeItem s).updSys fun y => { y with staged := [] }
    let s := copyOnWrite noTag (items.map fun i => if i.item < 0x100 then 0x3E0 else 0x3DE).dedup s
    let s := (items.filter fun i => i.item == 0x101).foldl (fun s i =>
      let a := fieldOf i.value 0 4
      if 0x40000 ≤ a ∧ a < 0xD0000 ∧ a % 4 = 0 then restoreRegister a (fieldOf i.value 4 4) s else s) s
    let s := (List.finRange 12).foldl (fun s n => outOff n s) (setF Reg.OUT_TEST_MASK 0 s)
    s |> noteCommissioned |> enterMode (roleMode s.sys.role) |> settle

def execCommissionCommit (valid : Bool) (s : State) : Out := .next (commissionCommit valid s)

/-- A delivery or a handover is under way or waits. -/
def deliveryPending (s : State) : Bool :=
  s.store.act.isSome || s.store.wait.isSome || (if s.sys.role = .hub then !s.link.pubs.isEmpty else s.link.deliv.any (·.member))

/-- STANDBY_ENTRY: STBY_IDLE of idle has passed. -/
def execStandbyEntry (s : State) : Out :=
  .next (
    if s.sys.mode = roleMode s.sys.role ∧ s.sys.role ≠ .repeater ∧ getB s Reg.SYS_CTRL_STBY_EN ∧
        getF s Reg.VI_PILOT_STATE = 0xA ∧ !sessionActive s ∧ !deliveryPending s then
      s |> clearRegs [standbyDomain s] |> (fun s => s.updSys fun y => { y with standbyReady := false })
        |> enterMode .standby |> settle
    else s)

/-- STANDBY_EXIT. -/
def execStandbyExit (s : State) : Out := .next (if s.sys.mode = .standby then settle (standbyExit s) else s)

/-! ## The references (20 R432) -/

/-- REF_CLOCK_FAIL: the energy path acts as for RESET_N, PD2 to PD7 clear, and BOOT is held. -/
def execRefClockFail (s : State) : Out :=
  .next (
    if powered s && !s.sys.refHeld then
      let pumps := s.pilot.pumps
      ((clearPower false s).updSys fun y => { y with refHeld := true }) |> setF Reg.PWR_STATUS_XTAL_FAIL 1
        |> enterMode .boot |> defaultF pumps
    else s)

/-- REF_CLOCK_RESTORED: power-up resumes at step 1, and the event is logged. -/
def execRefClockRestored (msel : Role) (s : State) : Out :=
  .next (
    if s.sys.refHeld then
      let s := (sampleMsel msel s).updSys fun y => { y with refHeld := false }
      let s := setF Reg.PWR_STATUS_XTAL_FAIL 0 s
      if s.sys.mainGood && !s.sys.resetLow then logEvent 0 1 0 (boot s) else s
    else s)

/-- Ledger time becomes unsure: in the registers, or in the copies a restart takes (11 R219). -/
def timeUnsure (s : State) : State :=
  if s.led.on then
    if (led s).unsure then s else s |> updCur (fun r => { r with unsure := true }) |> writeEvent 0x05 0 s.sys.ltime 0 0
  else
    let mark (r : LedRegs) : LedRegs := { r with unsure := true }
    s.updLed fun l => { l with snapshot := l.snapshot.map mark, image := l.image.map mark }

/-- The RTC's source; PWR_STATUS shows it. -/
def setX32 (sub : Bool) (s : State) : State :=
  let s := s.updLed fun l => { l with x32Sub := sub }
  if domainOn 7 s then setB Reg.PWR_STATUS_X32_FAIL sub s else s

/-- X32_FAIL: the RTC runs from a substitute source, and TIME_UNSURE is set. -/
def execX32Fail (s : State) : Out :=
  .next (if domainOn 0 s then timeUnsure (setX32 true s) else s)

/-- X32_RETRY: the crystal is tried again. -/
def execX32Retry (runs : Bool) (s : State) : Out :=
  .next (if runs && domainOn 0 s then setX32 false s else s)

/-- INERT_IMAGE_RECEIVED: a slot received completely and checked boots; with NOT_CALIBRATED the module stays (R36). -/
def execInertImageReceived (s : State) : Out :=
  .next (
    if s.sys.mode = .inert ∧ getF s Reg.SYS_INERT_REASON_REASON = 1 then
      let s := verifySlot s
      if (List.range 2).any fun k => (fwSlot k s).state == .staged && (fwSlot k s).sound then resetAndBoot false none s else s
    else s)

/-! ## The presence releases of the supervisor (09 R190) -/

/-- A write of SAFE_CLEAR_P needs the installer window. -/
def safeClearP (weld contactor : Bool) (s : State) : Nat × State :=
  if !installer s then (errPresence, s)
  else
    let s := if weld then clearWeld s else s
    (statusOk, if contactor then clearMismatch s else s)

/-- SAFE_CLEAR_P_WELD. -/
def execSafeClearPWeld (s : State) : Out := .next (hostTo Reg.SAFE_CLEAR_P_WELD.addr (safeClearP true false) s)

/-- SAFE_CLEAR_P_CONTACTOR. -/
def execSafeClearPContactor (s : State) : Out := .next (hostTo Reg.SAFE_CLEAR_P_WELD.addr (safeClearP false true) s)

/-! ## The second, and what is tested now and then -/

/-- RTC_SECOND: the clock and the ledger, the seconds left of a presence window and of a quiet hold, what is drawn each second, and a record
that waits. A PFW_N that went high again unconfirmed is forgotten. -/
def rtcRollover (s : State) : State :=
  if !domainOn 0 s then s
  else
    let s := rtcSecond s
    let s := setF Reg.AO_PRES_STAT_LEFT (getF s Reg.AO_PRES_STAT_LEFT - 1) s
    let s := s.updTag fun t => { t with quietLeft := t.quietLeft - 1 }
    let s := if s.sys.pfwConfirmed then s else s.updSys fun y => { y with pfwLow := false }
    s |> legalDraw |> takeRecord

def execRtcSecond (s : State) : Out := .next (rtcRollover s)

/-- VBACK_TEST (01 R15). -/
def execVbackTest (low : Bool) (s : State) : Out := .next (if low && domainOn 7 s then setHealth 7 s else s)

/-- DIE_HOT: 125 °C, or 135 °C (20 R437). -/
def execDieHot (hot135 : Bool) (s : State) : Out :=
  .next (
    if !domainOn 7 s then s
    else
      let s := s |> setF Reg.PWR_STATUS_HOT 1 |> logEvent 0 2 (ofBool hot135)
      if hot135 then s |> setF Reg.PWR_STATUS_HOT_HELD 1 |> settle else s)

/-- DIE_COOL: 60 s below 120 °C. -/
def execDieCool (s : State) : Out :=
  .next (if domainOn 7 s then s |> setF Reg.PWR_STATUS_HOT_HELD 0 |> settle else s)

end Sys2Proof.Machine
end

