-- ==== Sys2Proof/Machine/HostPort.lean ====
section
/-! DEFINITION. The transactions of the host port, the host memory map behind them, and the commands of the queues (18 R383
to R397, 19 R409). -/
namespace Sys2Proof.Machine

/-! ## The host memory map (R383) -/

/-- A region of the host memory map: its first address and its length. -/
def regionOf (a : Nat) : Option (Nat × Nat) :=
  if a < 0x10000 then some (0, 0x10000)
  else if a < 0x20000 then (if a < 0x10800 then some (0x10000, 0x800) else none)
  else if a < 0x30000 then (if a < 0x20800 then some (0x20000, 0x800) else none)
  else if a < 0xF0000 then some (a / 0x10000 * 0x10000, 0x10000)
  else if 0x1000000 ≤ a ∧ a < 0x1080000 then some (0x1000000, 0x80000)
  else if 0x1100000 ≤ a ∧ a < 0x1140000 then some (0x1100000, 0x40000)
  else if 0x1200000 ≤ a ∧ a < 0x1240000 then some (0x1200000, 0x40000)
  else if 0x1300000 ≤ a ∧ a < 0x1340000 then some (0x1300000, 0x40000)
  else if 0x10000000 ≤ a ∧ a < 0x14000000 then some (0x10000000, 0x4000000)
  else none

/-- The store window (R383). -/
def storeWindow : Nat := 0x10000000

/-- A burst of `n` words from `addr` is in order: `addr` is 4-aligned and in a region, the store window or not as the
command wants, and the burst stays inside it (R386, R391). -/
def burstOk (store : Bool) (addr n : Nat) : Bool :=
  match regionOf addr with
  | none => false
  | some (b, len) => addr % 4 == 0 && decide (addr + 4 * n ≤ b + len) && (b == storeWindow) == store

/-! ## Registers whose write is a command -/

/-- KEY_CMD: one command at a time; other values of OP have no effect (16). -/
def keyWord (w : Nat) (s : State) : Nat × State :=
  let op := bits w 28 4
  let knot := bits w 16 12
  let opt := bits w 8 8
  let len := bits w 0 8
  if getB s Reg.KEY_RESULT_BUSY then (errBusy, s)
  else if op = 1 then keyCreate knot (BitVec.ofNat 8 opt) len s
  else if op = 2 then keyDerive knot opt len s
  else if op = 3 then
    let (v, s) := freeBelow 2 s
    keyRelease knot (v == 1) s
  else if op = 4 then keyCut knot s
  else if op = 5 then keyImport knot (BitVec.ofNat 8 opt) len s
  else if op = 6 then readPublic knot s
  else (statusOk, s)

/-- SYS_CTRL: REQ_COMMISSION under installer presence, and STBY_EN, whose 0 ends STANDBY (02). -/
def sysCtrlWord (w : Nat) (s : State) : Nat × State :=
  let req := w.testBit 1
  let r := requestCommission req s
  if !req && s.sys.mode == .commission && !installer s then (errPresence, s)
  else if r.1 ≠ statusOk then (r.1, s)
  else
    let s := setB Reg.SYS_CTRL_STBY_EN (w.testBit 0) s
    let s := if w.testBit 0 then s else settle (standbyExit s)
    requestCommission req s

/-- A write of SYS_RESET that performs a soft reset. -/
def asksSoft (addr w : Nat) : Bool := addr == Reg.SYS_RESET_KEY.addr && bits w 16 16 == 0xA5C3 && w.testBit 0

/-- SYS_RESET: nothing without the key (02 R32). -/
def sysResetWord (w : Nat) (s : State) : Nat × State :=
  if asksSoft Reg.SYS_RESET_KEY.addr w then softReset s
  else if bits w 16 16 = 0xA5C3 ∧ w.testBit 1 then (statusOk, capstanReset s)
  else (statusOk, s)

/-- CAP_DBG_CMD: 1 HALT, 2 STEP, 3 RESUME (03 R65). -/
def debugWord (w : Nat) (s : State) : Nat × State :=
  let n := bits w 16 9
  match bits w 0 2 with
  | 1 => debugCommand 1 true n haltStrand s
  | 2 => debugCommand 2 true n stepStrand s
  | 3 => debugCommand 3 false n resumeStrand s
  | _ => if installer s then (statusOk, keepDebug 0 n s) else (errPresence, s)

/-- DIR_PUB: PUB_T, and NOW, which publishes the waiting operations (14 R323). -/
def dirPubWord (w : Nat) (s : State) : Nat × State :=
  let (c, s) := registerWrite Reg.DIR_PUB_NOW.addr w s
  (c, if w.testBit 31 then dirPublish s else s)

/-- LED_CAL_CTRL: the passive calendar is dropped, then the image loaded (11 R226). -/
def calWord (w : Nat) (s : State) : Nat × State :=
  if w.testBit 0 && s.sys.role == .head then (errMode, s)
  else
    let s := if w.testBit 1 then s.updLed fun l => { l with calPas := none } else s
    if w.testBit 0 then calLoad s else (statusOk, s)

/-- The command that a write of `w` to a register is, where it is one. -/
def commandWord (addr w : Nat) (s : State) : Option (Nat × State) :=
  let go (b : Bool) (f : State → State) : Option (Nat × State) := some (statusOk, if b then f s else s)
  let presence (b ok : Bool) (f : State → Nat × State) : Option (Nat × State) :=
    some (if b then f s else (if ok then statusOk else errPresence, s))
  let when_ (b : Bool) (f : State → Nat × State) : Option (Nat × State) := some (if b then f s else (statusOk, s))
  match addr / 0x10000 with
  | 0 =>
    if addr = Reg.SYS_CTRL_REQ_COMMISSION.addr then some (sysCtrlWord w s)
    else if addr = Reg.SYS_RESET_KEY.addr then some (sysResetWord w s)
    else none
  | 1 =>
    if addr = (Reg.MB_IN_PEND_PEND 0).addr then
      go (w.testBit 0) fun s => setF (Reg.MB_IN_PEND_PEND 0) (getF s (Reg.MB_IN_PEND_PEND 0) / 2 * 2) s
    else if addr % 0x100 = 0 ∧ addr < 0x10800 then some (mbRing (addr / 0x100 % 0x100) w s)
    else none
  | 2 =>
    if addr % 0x20 = 0x14 ∧ addr < 0x20800 then go (w.testBit 0) (qFlush (Fin.ofNat 64 (addr / 0x20)))
    else none
  | 3 =>
    if addr = Reg.CAP_STRAND_CMD_CMD.addr then some (hostStrand (bits w 0 3) (bits w 16 9) s)
    else if addr = Reg.CAP_DBG_CMD_CMD.addr then some (debugWord w s)
    else none
  | 4 =>
    if addr = Reg.SAFE_CTRL_HOST_TRIP.addr then
      go true fun s =>
        let s := if w.testBit 0 then trip 15 0 s else s
        if w.testBit 1 then askTest false false none s else s
    else if addr = Reg.SAFE_CLEAR_CLEAR.addr then go true (safeClear (BitVec.ofNat 16 w))
    else if addr = Reg.SAFE_CLEAR_P_WELD.addr then some (safeClearP (w.testBit 0) (w.testBit 1) s)
    else none
  | 6 =>
    if addr = Reg.MET_CAL_VAL_VALUE.addr then some (calStage (BitVec.ofNat 32 w) s)
    else if addr = Reg.MET_CAL_CMD_COMMIT.addr then
      presence (w.testBit 0 || w.testBit 1) (metrologist s) fun s => if w.testBit 1 then calDiscard s else calCommit s
    else none
  | 7 =>
    if addr = Reg.LED_BILL_CLOSE.addr then go (w.testBit 0) fun s => s.updLed fun l => { l with billReq := true }
    else if addr = Reg.LED_CLEAR_CLEAR.addr then presence (w.testBit 0) (metrologist s) (ledClear (bits w 16 16))
    else if addr = Reg.LED_CAL_CTRL_LOAD.addr then some (calWord w s)
    else if addr = Reg.LED_TOPUP_CMD_GO.addr then when_ (w.testBit 0) topup
    else if addr = Reg.LED_EXP_ACK_OFFSET.addr then some (expAck w s)
    else none
  | 8 =>
    if addr = Reg.LNK_REMOVE_GO.addr then when_ (w.testBit 8) (lnkRemove (bits w 0 8))
    else if addr = Reg.LNK_UNPAIR_LEAVE.addr then presence (w.testBit 0) (installer s) lnkUnpair
    else if addr = Reg.ALLOC_SA_IMPORT.addr then go true (writeSa (bits w 0 14) (bits w 16 14))
    else none
  | 9 =>
    if addr = Reg.VI_VIOL_CLR_CLR.addr then
      go (w.testBit 0) fun s => (List.range 16).foldl (fun s k => setF (Reg.VI_VIOL_COUNT (k + 1)) 0 s) s
    else none
  | 10 =>
    if addr = Reg.DIR_CMD_OP.addr then when_ (bits w 30 2 != 0) (dirCommand (bits w 30 2) (bits w 0 18))
    else if addr = Reg.DIR_DELTA_CTRL_APPLY.addr then when_ (w.testBit 0) deltaApply
    else if addr = Reg.DIR_PUB_NOW.addr then some (dirPubWord w s)
    else none
  | 11 =>
    if addr = Reg.KEY_CMD_OP.addr then some (keyWord w s)
    else if addr = Reg.KEY_PAIR_OK.addr then go (w.testBit 31) keyPairOk
    else none
  | 12 => if addr = Reg.PL_CMD_MODE.addr then some (plCmd (bits w 29 3) (bits w 24 5) (bits w 0 16) s) else none
  | 13 =>
    if addr = Reg.UPD_CMD_OP.addr then
      go true fun s => match bits w 28 4 with
        | 1 => openSlot s
        | 2 => verifySlot s
        | 3 => discardSlot s
        | _ => s
    else if addr = Reg.UPD_ACT_GO.addr then presence (w.testBit 0) (installer s) updAct
    else none
  | 14 =>
    if addr = Reg.AO_RTC_SET_W.addr then some (rtcSet (BitVec.ofNat 32 w) s)
    else if addr = Reg.AO_PRES_CTRL_CLOSE.addr then go (w.testBit 0) (closePresence false)
    else none
  | _ => none

/-! ## One word -/

/-- The windows that only show: strand contexts and galley entries (03 R64, 05 R106). -/
def viewWindow (a : Nat) : Bool := 0x38000 ≤ a && a < 0x3D600

/-- The tag window (15 R327). -/
def tagWindow (a : Nat) : Bool := 0xA4000 ≤ a && a < 0xA8000

/-- A word of the tag window: the host writes the host file alone, and nothing during a field transaction (15 R337). -/
def tagWord (o w : Nat) (s : State) : Nat × State :=
  if s.tag.inTx then (errBusy, s)
  else if o < 0x2900 ∨ 0x3900 ≤ o then (errLocked, s)
  else (statusOk, tagPut o (leBytes w 4) s)

/-- The word `w` at address `a` of the host memory map. -/
def mapWord (a w : Nat) (s : State) : Nat × State :=
  if viewWindow a then (errAddr, s)
  else if tagWindow a then tagWord (a - 0xA4000) w s
  else if a < 0xF0000 then (commandWord a w s).getD (registerWrite a w s)
  else if a < 0x1100000 then
    if s.sys.mode = .factory ∨ s.sys.mode = .commission then
      (statusOk, s.updCap fun c => { c with prog := mapSet 0 c.prog ((a - 0x1000000) / 4) (BitVec.ofNat 32 w) })
    else (errMode, s)
  else if a < 0x1200000 then
    (statusOk, s.updCap fun c => { c with caseMem := putWord 0 c.caseMem (a - 0x1100000) (BitVec.ofNat 32 w) })
  else if a < 0x1300000 then
    (statusOk, s.updCap fun c => { c with shared := putWord 0 c.shared (a - 0x1200000) (BitVec.ofNat 32 w) })
  else (errLocked, s)

/-- No block defines an address of the register regions: an access has no effect (R4). -/
def undefinedAt (a : Nat) : Bool := a < 0xF0000 && !viewWindow a && !tagWindow a && (regAt a).isNone

/-- One word of a WRITE: its status code, and the state after it. -/
def wordWrite (a w : Nat) (s : State) : Nat × State :=
  if undefinedAt a then (errAddr, s) else portWord a (mapWord a w) s

/-- The words are applied in address order until one fails; a soft reset ends the transaction with the port (R388): the
words applied, the code, whether a reset ended it, the state. -/
def applyWords (f : Nat → Nat → State → Nat × State) (a : Nat) : List (BitVec 32) → Nat → State → Nat × Nat × Bool × State
  | [], n, s => (n, statusOk, false, s)
  | w :: ws, n, s =>
    let r := f a w.toNat s
    if r.1 ≠ statusOk then (n, r.1, false, r.2)
    else if asksSoft a w.toNat then (n + 1, statusOk, true, r.2)
    else applyWords f (a + 4) ws (n + 1) r.2

/-- The words before the first that fails, by the state before any is applied. -/
def goodWords (f : Nat → Nat → State → Nat × State) (s : State) (a : Nat) : List (BitVec 32) → List (BitVec 32)
  | [] => []
  | w :: ws => if (f a w.toNat s).1 = statusOk then w :: goodWords f s (a + 4) ws else []

/-- The words of a write: checked in address order, then applied in address order; the first that fails and every later
one are discarded, and the failing word leaves what its refusal leaves (R388). -/
def writeWords (f : Nat → Nat → State → Nat × State) (a : Nat) (ws : List (BitVec 32)) (s : State) : Nat × Nat × Bool × State :=
  let good := goodWords f s a ws
  let r := applyWords f a good 0 s
  if r.2.1 ≠ statusOk ∨ r.2.2.1 then r
  else match ws.drop good.length with
  | [] => r
  | w :: _ =>
    let b := f (a + 4 * good.length) w.toNat s
    let t := f (a + 4 * good.length) w.toNat r.2.2.2
    (r.1, b.1, false, if t.1 = statusOk then r.2.2.2 else t.2)

/-! ## Reading a word -/

/-- The bytes of a word at byte `o` of the 64 bytes of a held unit: a byte that the galley does not hold is open. -/
def unitWord (m : NMap Byte) (o : Nat) (s : State) : Nat × State :=
  let (v, s) := freeBelow (2 ^ 32) s
  let free := leBytes v 4
  (leNat ((List.range 4).map fun i => (mapGet? m (o + i)).getD (free.getD i 0)), s)

/-- The byte mask of a unit, from byte `lo` on. -/
def unitMask (m : NMap Byte) (lo : Nat) : Nat :=
  (List.range 32).foldl (fun v i => if (mapGet? m (lo + i)).isSome then v + 2 ^ i else v) 0

/-- GE_KIND of an entry, by kind (05). -/
def kindCode : HeldKind → Nat
  | .unit _ _ => 1 | .acc _ _ => 2 | .port _ _ _ => 3 | .enq _ _ => 4 | .take _ _ _ => 5 | .svc _ _ => 6
  | .svca _ _ _ _ _ => 7 | .sig _ _ => 8

/-- The words at offsets 0x04, 0x08 and 0x0C of an entry; none where the manual states no value. -/
def entryHead : HeldKind → Nat × Option Nat × Option Nat
  | .unit k m => (64 * k, some (unitMask m 0), some (unitMask m 32))
  | .acc i sum => (i, some (sum.toNat % 2 ^ 32), some (sum.toNat / 2 ^ 32))
  | .port p a v => (p, some a.toNat, some v.toNat)
  | .enq q w => (0xC00 + q.val, some w.toNat, some 0)
  | .take q n _ => (0xC00 + q.val, some n, some 0)
  | .svc n _ => (n, none, none)
  | .svca n _ ev _ off => (n, some ev.toNat, some off)
  | .sig ev w => (ev.toNat, some w.toNat, some 0)

/-- The word at offset `o` of entry `e` of a galley (05, GE_KIND and the table after it). -/
def entryWord (h : Held) (e o : Nat) (s : State) : Nat × State :=
  let free (v : Option Nat) : Nat × State := match v with
    | some v => (v, s)
    | none => freeBelow (2 ^ 32) s
  if o = 0 then (kindCode h.kind * 2 ^ 28 + ofBool h.fenced * 2 ^ 27 + e, s)
  else if o = 4 then ((entryHead h.kind).1, s)
  else if o = 8 then free (entryHead h.kind).2.1
  else if o = 12 then free (entryHead h.kind).2.2
  else if o < 0x20 then (0, s)
  else match h.kind with
  | .unit _ m => unitWord m (o - 0x20) s
  | .svc _ args | .svca _ args _ _ _ => (((args.take 5).map (·.toNat)).getD ((o - 0x20) / 4) 0, s)
  | _ => (0, s)

/-- A word of the context window, or of the galley entry window (03 R64, 05 R106). -/
def viewRead (a : Nat) (s : State) : Nat × State :=
  if a < 0x3D000 then
    let t := s.cap.strands.toList.getD ((a - 0x38000) / 0x40) Strand.reset
    ((getW t (Fin.ofNat 16 ((a - 0x38000) / 4))).toNat, s)
  else
    let e := (a - 0x3D000) / 0x60
    match (((shownStrand s).galley.map (·.held)).getD [])[e]? with
    | some h => entryWord h e ((a - 0x3D000) % 0x60) s
    | none => (0, s)

/-- The word that a register shows; WO fields read as 0 (R6); reading MET_TOTk_LO latches MET_TOTk_HI (10). -/
def readRegister (a : Nat) (s : State) : Nat × Nat × State :=
  match regAt a with
  | none => (errAddr, 0, s)
  | some (k, xs) =>
    let r := xs.foldl (fun (r : Nat × State) x =>
      if x.access = .wo then r
      else
        let (v, s) := readField k x.field r.2
        (r.1 + v % 2 ^ x.field.width * 2 ^ x.field.lo, s)) (0, s)
    let latch (s : State) : State :=
      if a = (Reg.MET_TOT_LO_LOW k).addr then
        s.updMet fun m => { m with totLatch := m.totLatch.setIfInBounds k (m.tot.toList.getD k 0 / 2 ^ 32) }
      else s
    (statusOk, r.1, latch r.2)

/-- The word at address `a` of the host memory map: status, value, state. -/
def mapRead (a : Nat) (s : State) : Nat × Nat × State :=
  let ok (r : Nat × State) : Nat × Nat × State := (statusOk, r.1, r.2)
  if viewWindow a then ok (viewRead a s)
  else if tagWindow a then
    if s.tag.inTx then (errBusy, 0, s)
    else ok (leNat (tagBytes (a - 0xA4000) 4 s), s.updSys fun y => { y with freeCtr := y.freeCtr + 1 })
  else if a < 0xF0000 then readRegister a s
  else if a < 0x1100000 then ok ((mapGet 0 s.cap.prog ((a - 0x1000000) / 4)).toNat, s)
  else if a < 0x1200000 then ok ((wordAt 0 s.cap.caseMem (a - 0x1100000)).toNat, s)
  else if a < 0x1300000 then ok ((wordAt 0 s.cap.shared (a - 0x1200000)).toNat, s)
  else ok (freeBelow (2 ^ 32) s)

/-- One word of a READ; a word that fails reads 0 (R8, R389). -/
def wordRead (a : Nat) (s : State) : Nat × Nat × State :=
  if undefinedAt a then (errAddr, 0, s)
  else match portStop a s with
  | some c => (c, 0, portWake a s)
  | none => mapRead a (portWake a s)

/-- The words of a read of `n` words: the read goes on past a word that fails, and its status is that of the first that
does (R389). -/
def readWords (f : Nat → State → Nat × Nat × State) (a : Nat) : Nat → State → Nat × List (BitVec 32) × State
  | 0, s => (statusOk, [], s)
  | n + 1, s =>
    let r := f a s
    let t := readWords f (a + 4) n r.2.2
    (if r.1 = statusOk then t.1 else r.1, BitVec.ofNat 32 r.2.1 :: t.2.1, t.2.2)

/-! ## The store window (19 R409) -/

/-- The assets of the running updates. -/
def runningAssets (s : State) : List Nat := s.plt.upds.map (·.image.asset)

/-- A byte of the store window that SWRITE may program (R409). -/
def swriteTarget (a : Nat) (s : State) : Bool :=
  let m := s.sys.mode
  let master : Bool := m == .standalone || m == .hub
  let works : Bool := m == .commission || m == .factory
  match ((partOf a).map Prod.fst : Option Part) with
  | some (.slot k) => k == inactiveSlot s && (fwSlot k s).state == .receiving
  | some (.forme k) => m != .inert && k == inactiveForme s && (master || works)
  | some .assets => (master || works) &&
      (s.plt.upds.isEmpty || !Config.assetInUse s.store.cells (runningAssets s) ((a - 0x3A40000) / 0x10000))
  | some .certs => works
  | some .staging => master && !getB s Reg.DIR_DELTA_STAT_BUSY
  | _ => false

/-- One word of an SWRITE: the target allows it and is erased (R405, R409). -/
def storeWriteWord (a w : Nat) (s : State) : Nat × State :=
  let s := portWake a s
  if s.sys.mode = .boot ∨ s.sys.pause then (errBusy, s)
  else
    let o := a - storeWindow
    if swriteTarget o s ∧ !needsBlock o 4 s then
      let s := storePut o (leBytes w 4) s
      (statusOk, s.updStore fun t => { t with formeNew := t.formeNew || (0x900000 ≤ o && o < 0xA00000) })
    else (errLocked, s)

/-- One word of an SREAD: any unencrypted partition (R409). -/
def storeReadHost (a : Nat) (s : State) : Nat × Nat × State :=
  let s := portWake a s
  if s.sys.mode = .boot ∨ s.sys.pause then (errBusy, 0, s)
  else
    let o := a - storeWindow
    if ((partOf o).map (·.1.encrypted)).getD true then (errLocked, 0, s)
    else (statusOk, (storeWord o s).toNat, s.updSys fun y => { y with freeCtr := y.freeCtr + 1 })

/-! ## Transactions (R385 to R392) -/

/-- One bit of CRC-16 with polynomial 0x1021, no reflection (R387). -/
def hostCrcBit (c : Nat) : Nat := if 0x8000 ≤ c then Nat.xor (2 * c % 0x10000) 0x1021 else 2 * c

/-- One byte of the CRC, its most significant bit first. -/
def hostCrcByte (c : Nat) (b : Byte) : Nat := (List.range 8).foldl (fun c _ => hostCrcBit c) (Nat.xor c (256 * b.toNat))

/-- CRC-16 over bytes in wire order: initial value 0xFFFF, no final XOR (R387). -/
def crc16 (bytes : List Byte) : Nat := bytes.foldl hostCrcByte 0xFFFF

/-- The bytes of `v` on the wire, most significant first: ADDR and LEN (R384). -/
def wireBytes (v n : Nat) : List Byte := (leBytes v n).reverse

/-- Data words on the wire: four bytes each, lowest address first (R384). -/
def dataBytes (ws : List (BitVec 32)) : List Byte := ws.flatMap fun w => leBytes w.toNat 4

/-- The CRC that the host sends for a write: over CMD, ADDR, LEN and the data (R387). -/
def hostCrc (cmd : Nat) (addr : BitVec 32) (ws : List (BitVec 32)) : BitVec 16 :=
  BitVec.ofNat 16 (crc16 (BitVec.ofNat 8 cmd :: wireBytes addr.toNat 4 ++ wireBytes ws.length 2 ++ dataBytes ws))

/-- What a transaction returned, and the CRC over it (R387). -/
def returned (ws : List (BitVec 32)) (s : State) : State :=
  s.updHp fun h => { h with
    out := ws, outCrc := if ws.isEmpty then none else some (BitVec.ofNat 16 (crc16 (dataBytes ws))) }

/-- Misbehaviour of the host is counted and logged (R392). -/
def hostViolation (k : Nat) (s : State) : State := s |> incF (Reg.HOST_VIOL_COUNT k) |> logViolation 0 k 0

/-- The violation that a bad LEN is, and the command code (R391, R392). -/
def badLen (cmd len : Nat) : Option (Nat × Nat) := if len = 0 ∨ 256 < len then some (2, cmd) else none

/-- The violation that a malformed write is, and the command code it has (R391, R392). DESIGN CHOICE: of a frame whose CRC
fails and whose LEN is bad, the CRC failure is counted (assumption log 56). -/
def malformed (cmd : Nat) (addr : BitVec 32) (ws : List (BitVec 32)) : Framing → Option (Nat × Nat)
  | .unknown c => some (2, c.toNat)
  | .crc c => if c = hostCrc cmd addr ws then badLen cmd ws.length else some (1, cmd)

/-- A transaction on the port: nothing while it is dead; a malformed frame gets ERR_CRC and does nothing (R391). -/
def transaction (bad : Option (Nat × Nat)) (f : State → State) (s : State) : State :=
  if !hostUp s then s
  else match bad with
  | some (k, c) => answerAs c 0 (errCrc, returned [] (hostViolation k s))
  | none => f (returned [] s)

/-- The end of a write: HOST_STAT, unless a soft reset took the port down. -/
def endWrite (cmd : Nat) (r : Nat × Nat × Bool × State) : State :=
  if r.2.2.1 then r.2.2.2 else answerAs cmd r.1 (r.2.1, r.2.2.2)

/-- The end of a read. -/
def endRead (cmd : Nat) (r : Nat × List (BitVec 32) × State) : State := answerAs cmd 0 (r.1, returned r.2.1 r.2.2)

/-- WRITE (R386, R388). -/
def hostWrite (addr : BitVec 32) (words : List (BitVec 32)) (frame : Framing) (s : State) : State :=
  transaction (malformed 0x02 addr words frame) (fun s =>
    if burstOk false addr.toNat words.length then endWrite 0x02 (writeWords wordWrite addr.toNat words s)
    else answerAs 0x02 0 (errAddr, s)) s

/-- WRITE. -/
def execWrite (addr : BitVec 32) (words : List (BitVec 32)) (frame : Framing) (s : State) : Out :=
  .next (hostWrite addr words frame s)

/-- REGISTER_WRITE: a WRITE of one word to a register, its CRC right (R4, R6, R388). -/
def execRegisterWrite (addr value : BitVec 32) (s : State) : Out :=
  .next (hostWrite addr [value] (.crc (hostCrc 0x02 addr [value])) s)

/-- READ (R386, R389). -/
def execRead (addr : BitVec 32) (len : BitVec 16) (s : State) : Out :=
  .next (transaction (badLen 0x0B len.toNat) (fun s =>
    if burstOk false addr.toNat len.toNat then endRead 0x0B (readWords wordRead addr.toNat len.toNat s)
    else answerAs 0x0B 0 (errAddr, s)) s)

/-- STATUS returns HOST_IRQ (R386). -/
def execStatus (s : State) : Out :=
  .next (if hostUp s then endRead 0x05 (statusOk, [BitVec.ofNat 32 (hostIrq s)], s) else s)

/-- SWRITE: a refused one is counted and logged (19 R409, STORE_VIOLk). -/
def execSwrite (addr : BitVec 32) (words : List (BitVec 32)) (frame : Framing) (s : State) : Out :=
  .next (transaction (malformed 0x42 addr words frame) (fun s =>
    if burstOk true addr.toNat words.length then
      let r := writeWords storeWriteWord addr.toNat words s
      let refused (s : State) : State :=
        if r.2.1 = errLocked then s |> incF (Reg.STORE_VIOL_COUNT 2) |> logViolation 13 2 (addr.toNat - storeWindow) else s
      refused (endWrite 0x42 r)
    else answerAs 0x42 0 (errAddr, s)) s)

/-- SREAD (19 R409). -/
def execSread (addr : BitVec 32) (len : BitVec 16) (s : State) : Out :=
  .next (transaction (badLen 0x4B len.toNat) (fun s =>
    if burstOk true addr.toNat len.toNat then endRead 0x4B (readWords storeReadHost addr.toNat len.toNat s)
    else answerAs 0x4B 0 (errAddr, s)) s)

/-- HOST_ABORT: a pause over 10 ms, or HP_CS_N rising before the status phase: nothing is applied and nothing taken
(R390, R392). -/
def execHostAbort (pause : Bool) (s : State) : Out :=
  .next (if hostUp s then s |> hostViolation (if pause then 4 else 3) |> setF Reg.HOST_STAT_ABORT 1 else s)

/-! ## Queues and the host (R394 to R396) -/

/-- The queue that the ADDR of a QPUSH or QPOP names (R385, R391). -/
def queueNamed (addr : Nat) : Option (Fin 64) := if h : addr < 64 then some ⟨addr, h⟩ else none

/-- A queue operation of the host on a block outside system control. -/
def onQueue (addr : Nat) (f : Fin 64 → State → Nat × Nat × State) (s : State) : Nat × Nat × State :=
  match queueNamed addr with
  | none => (errAddr, 0, s)
  | some q =>
    let s := standbyExit s
    if s.sys.mode = .boot then (errBusy, 0, s) else f q s

/-- QPUSH appends its items, or none; items of type 0xF are skipped (R394). -/
def hostPush (items : List (BitVec 32)) (q : Fin 64) (s : State) : Nat × Nat × State :=
  let xs := items.filter fun w => itemType w != 0xF
  if shown q.val (Reg.Q_CTRL_PROD q.val) s ≠ 1 then (errLocked, 0, s)
  else if qRoom s q < xs.length then (errBusy, 0, qRefuse q s)
  else (statusOk, xs.length, xs.foldl (fun s w => qAppend q w s) s)

/-- QPUSH. -/
def execQpush (addr : BitVec 32) (items : List (BitVec 32)) (frame : Framing) (s : State) : Out :=
  .next (transaction (malformed 0x31 addr items frame) (fun s =>
    let r := onQueue addr.toNat (hostPush items) s
    answerAs 0x31 r.2.1 (r.1, r.2.2)) s)

/-- QPOP takes min(N, LEVEL) items and pads with IDLE; ERR_BUSY, every word IDLE, while a galley holds the take (R394). -/
def hostPop (n : Nat) (q : Fin 64) (s : State) : Nat × Nat × State :=
  if shown q.val (Reg.Q_CTRL_CONS q.val) s ≠ 1 then (errLocked, 0, s)
  else if (getQ s q).taker.isSome then (errBusy, 0, returned (List.replicate n idleItem) s)
  else
    let k := min n (qLevel s q)
    let xs := (getQ s q).items.take k ++ List.replicate (n - k) idleItem
    (statusOk, k, returned xs (if k = 0 then s else qRemove q k s))

/-- QPOP. -/
def execQpop (addr : BitVec 32) (len : BitVec 16) (s : State) : Out :=
  .next (transaction (badLen 0x32 len.toNat) (fun s =>
    let r := onQueue addr.toNat (hostPop len.toNat) s
    answerAs 0x32 r.2.1 (r.1, r.2.2)) s)

/-- Q_FLUSH (R395). -/
def execQFlush (q : Fin 64) (s : State) : Out :=
  .next (hostTo (Reg.Q_FLUSH_FLUSH q.val).addr (fun s => (statusOk, qFlush q s)) s)

/-- QUEUE_STALE: the queue has held items for Q_STALE ms with no dequeue since it was armed (R396). -/
def queueStale (q : Fin 64) (s : State) : State :=
  if (getQ s q).staleArmed && qLevel s q != 0 then
    s |> modQ q (fun x => { x with staleArmed := false }) |> qHit Reg.Q_STATUS_STALE_HIT Reg.Q_CTRL_STALE_EN q
  else s

def execQueueStale (q : Fin 64) (s : State) : Out := .next (queueStale q s)

end Sys2Proof.Machine
end

