-- ==== Sys2Proof/Machine/PortRows.lean ====
section
/-! DEFINITION. The port writes of the command table: a strand's write to one port, as a PUT that executes (06 R107 to R109,
04 R81). -/
namespace Sys2Proof.Machine

/-- Strand `n` writes `value` to a port: nothing while the Capstan is off (R21); else as PUT, at once or held in the galley
(R81, R87, R108). -/
def portRow (n : Fin 320) (port : Nat) (arg value : Word) (s : State) : State :=
  if !domainOn 7 s then s
  else
    let v := portLimit port arg value s
    if putHeld n port arg v s then
      if entryFree n s then addHeld n (.port port arg (BitVec.ofNat 32 v)) s else stall n s
    else putNow n port arg v s

/-- STR_TIMER: the strand's timer. -/
def execStrTimer (n : Fin 320) (value : BitVec 32) (s : State) : Out := .next (portRow n 0x000 0 value s)
/-- STR_CTRL: a strand command by a class-3 strand. -/
def execStrCtrl (n : Fin 320) (value : BitVec 32) (s : State) : Out := .next (portRow n 0x002 0 value s)
/-- SAFE_TRIP: forme trip (R111). -/
def execSafeTrip (n : Fin 320) (value : BitVec 32) (s : State) : Out := .next (portRow n 0x101 0 value s)
/-- SAFE_RECLOSE: asks for the release of held trips (R190). -/
def execSafeReclose (n : Fin 320) (value : BitVec 32) (s : State) : Out := .next (portRow n 0x102 0 value s)
/-- SAFE_LIMIT: a protection limit (R193). -/
def execSafeLimit (n : Fin 320) (arg value : BitVec 32) (s : State) : Out := .next (portRow n 0x103 arg value s)
/-- SAFE_SELFTEST: asks for a residual-current self-test (R176). -/
def execSafeSelftest (n : Fin 320) (value : BitVec 32) (s : State) : Out := .next (portRow n 0x106 0 value s)
/-- PILOT_PWM: starts or stops PWM (R126). -/
def execPilotPwm (n : Fin 320) (value : BitVec 32) (s : State) : Out := .next (portRow n 0x201 0 value s)
/-- PILOT_STOP: steady +12 V. -/
def execPilotStop (n : Fin 320) (value : BitVec 32) (s : State) : Out := .next (portRow n 0x202 0 value s)
/-- PILOT_F: state F. -/
def execPilotF (n : Fin 320) (value : BitVec 32) (s : State) : Out := .next (portRow n 0x203 0 value s)
/-- PILOT_RELEASE: leaves state F. -/
def execPilotRelease (n : Fin 320) (value : BitVec 32) (s : State) : Out := .next (portRow n 0x204 0 value s)
/-- PILOT_HLC: 5 % duty, or the coded duty. -/
def execPilotHlc (n : Fin 320) (value : BitVec 32) (s : State) : Out := .next (portRow n 0x205 0 value s)
/-- LOCK_CMD: locks or unlocks (R134). -/
def execLockCmd (n : Fin 320) (value : BitVec 32) (s : State) : Out := .next (portRow n 0x209 0 value s)
/-- ALLOC_CURRENT: the allocated current (R125). -/
def execAllocCurrent (n : Fin 320) (value : BitVec 32) (s : State) : Out := .next (portRow n 0x20B 0 value s)
/-- HLC_OFFER: the protocols offered (R137). -/
def execHlcOffer (n : Fin 320) (value : BitVec 32) (s : State) : Out := .next (portRow n 0x302 0 value s)
/-- CONT_CLOSE_REQ: arms or withdraws a close (R150). -/
def execContCloseReq (n : Fin 320) (value : BitVec 32) (s : State) : Out := .next (portRow n 0x401 0 value s)
/-- CONT_OPEN: opens at once, or starts a controlled disconnect (R152). -/
def execContOpen (n : Fin 320) (value : BitVec 32) (s : State) : Out := .next (portRow n 0x402 0 value s)
/-- OUT_ON: turns outputs on (R161). -/
def execOutOn (n : Fin 320) (value : BitVec 32) (s : State) : Out := .next (portRow n 0x403 0 value s)
/-- OUT_OFF: turns outputs off (R161). -/
def execOutOff (n : Fin 320) (value : BitVec 32) (s : State) : Out := .next (portRow n 0x404 0 value s)
/-- ALLOC_CEIL: the host ceiling of a channel (R288). -/
def execAllocCeil (n : Fin 320) (arg value : BitVec 32) (s : State) : Out := .next (portRow n 0x704 arg value s)
/-- ALLOC_PAUSE: pauses a channel until its next request (R288). -/
def execAllocPause (n : Fin 320) (arg value : BitVec 32) (s : State) : Out := .next (portRow n 0x705 arg value s)
/-- RD_POLL: starts or stops polling (R305). -/
def execRdPoll (n : Fin 320) (value : BitVec 32) (s : State) : Out := .next (portRow n 0x803 0 value s)
/-- PLATEN_PROOF: draws in the proof layer (R373). -/
def execPlatenProof (n : Fin 320) (arg value : BitVec 32) (s : State) : Out := .next (portRow n 0xB00 arg value s)
/-- PLATEN_COMMIT: makes a region's content final (R374). -/
def execPlatenCommit (n : Fin 320) (arg value : BitVec 32) (s : State) : Out := .next (portRow n 0xB01 arg value s)
/-- PLATEN_CLEAR: clears a region to white (R374). -/
def execPlatenClear (n : Fin 320) (value : BitVec 32) (s : State) : Out := .next (portRow n 0xB02 0 value s)

end Sys2Proof.Machine
end

