-- ==== Sys2Proof/Machine/Dispatch.lean ====
section
/-! DEFINITION. One arm per command: the meaning it calls. -/
namespace Sys2Proof.Machine

open Sys2Proof

/-- The effect of a command on everything but the queue of waiting commands. -/
def exec (i : Instr) (s : State) : Host.Outcome State Fault Refusal :=
  match i with
  | .vbackRise => Sys2Proof.Machine.execVbackRise s
  | .rfFieldAppear => Sys2Proof.Machine.execRfFieldAppear s
  | .fieldLost => Sys2Proof.Machine.execFieldLost s
  | .suppliesGood msel => Sys2Proof.Machine.execSuppliesGood msel s
  | .standbyReady => Sys2Proof.Machine.execStandbyReady s
  | .standbyReadyTimeout => Sys2Proof.Machine.execStandbyReadyTimeout s
  | .factoryDoneBlown => Sys2Proof.Machine.execFactoryDoneBlown s
  | .reqCommission => Sys2Proof.Machine.execReqCommission s
  | .commissionCommit valid => Sys2Proof.Machine.execCommissionCommit valid s
  | .standbyEntry => Sys2Proof.Machine.execStandbyEntry s
  | .standbyExit => Sys2Proof.Machine.execStandbyExit s
  | .pfwNFall => Sys2Proof.Machine.execPfwNFall s
  | .pfwConfirm data => Sys2Proof.Machine.execPfwConfirm data s
  | .pfwContactorOpen => Sys2Proof.Machine.execPfwContactorOpen s
  | .pfwReturnReset msel => Sys2Proof.Machine.execPfwReturnReset msel s
  | .resetNAssert => Sys2Proof.Machine.execResetNAssert s
  | .resetNRelease msel => Sys2Proof.Machine.execResetNRelease msel s
  | .vauxLoss => Sys2Proof.Machine.execVauxLoss s
  | .aoLoss => Sys2Proof.Machine.execAoLoss s
  | .softReset => Sys2Proof.Machine.execSoftReset s
  | .capstanReset => Sys2Proof.Machine.execCapstanReset s
  | .capstanDoubleFault faulted => Sys2Proof.Machine.execCapstanDoubleFault faulted s
  | .coreFailure => Sys2Proof.Machine.execCoreFailure s
  | .coreTakeover => Sys2Proof.Machine.execCoreTakeover s
  | .holdTExpiry => Sys2Proof.Machine.execHoldTExpiry s
  | .refClockFail => Sys2Proof.Machine.execRefClockFail s
  | .refClockRestored msel => Sys2Proof.Machine.execRefClockRestored msel s
  | .x32Fail => Sys2Proof.Machine.execX32Fail s
  | .x32Retry runs => Sys2Proof.Machine.execX32Retry runs s
  | .inertImageReceived => Sys2Proof.Machine.execInertImageReceived s
  | .nop n word => Sys2Proof.Machine.execNop n word s
  | .add n body => Sys2Proof.Machine.execAdd n body s
  | .sub n body => Sys2Proof.Machine.execSub n body s
  | .and n body => Sys2Proof.Machine.execAnd n body s
  | .or n body => Sys2Proof.Machine.execOr n body s
  | .xor n body => Sys2Proof.Machine.execXor n body s
  | .shl n body => Sys2Proof.Machine.execShl n body s
  | .shr n body => Sys2Proof.Machine.execShr n body s
  | .sar n body => Sys2Proof.Machine.execSar n body s
  | .mul n body => Sys2Proof.Machine.execMul n body s
  | .mulu64 n body => Sys2Proof.Machine.execMulu64 n body s
  | .minu n body => Sys2Proof.Machine.execMinu n body s
  | .maxu n body => Sys2Proof.Machine.execMaxu n body s
  | .cmp n body => Sys2Proof.Machine.execCmp n body s
  | .plog n body => Sys2Proof.Machine.execPlog n body s
  | .addi n body => Sys2Proof.Machine.execAddi n body s
  | .andi n body => Sys2Proof.Machine.execAndi n body s
  | .ori n body => Sys2Proof.Machine.execOri n body s
  | .xori n body => Sys2Proof.Machine.execXori n body s
  | .shli n body => Sys2Proof.Machine.execShli n body s
  | .shri n body => Sys2Proof.Machine.execShri n body s
  | .sari n body => Sys2Proof.Machine.execSari n body s
  | .cmpi n body => Sys2Proof.Machine.execCmpi n body s
  | .ext n body => Sys2Proof.Machine.execExt n body s
  | .ins n body => Sys2Proof.Machine.execIns n body s
  | .ldi n body w1 => Sys2Proof.Machine.execLdi n body w1 s
  | .ld n body => Sys2Proof.Machine.execLd n body s
  | .ldh n body => Sys2Proof.Machine.execLdh n body s
  | .ldb n body => Sys2Proof.Machine.execLdb n body s
  | .st n body => Sys2Proof.Machine.execSt n body s
  | .sth n body => Sys2Proof.Machine.execSth n body s
  | .stb n body => Sys2Proof.Machine.execStb n body s
  | .ld64 n body => Sys2Proof.Machine.execLd64 n body s
  | .st64 n body => Sys2Proof.Machine.execSt64 n body s
  | .add64 n body => Sys2Proof.Machine.execAdd64 n body s
  | .sub64 n body => Sys2Proof.Machine.execSub64 n body s
  | .cmp64 n body => Sys2Proof.Machine.execCmp64 n body s
  | .shr64i n body => Sys2Proof.Machine.execShr64i n body s
  | .acc n body => Sys2Proof.Machine.execAcc n body s
  | .br n body => Sys2Proof.Machine.execBr n body s
  | .jr n body => Sys2Proof.Machine.execJr n body s
  | .get n body => Sys2Proof.Machine.execGet n body s
  | .put n body => Sys2Proof.Machine.execPut n body s
  | .puts n body => Sys2Proof.Machine.execPuts n body s
  | .enq n body => Sys2Proof.Machine.execEnq n body s
  | .enqw n body => Sys2Proof.Machine.execEnqw n body s
  | .deq n body => Sys2Proof.Machine.execDeq n body s
  | .deqw n body => Sys2Proof.Machine.execDeqw n body s
  | .svc n body => Sys2Proof.Machine.execSvc n body s
  | .svca n body => Sys2Proof.Machine.execSvca n body s
  | .wait n body => Sys2Proof.Machine.execWait n body s
  | .yield n body => Sys2Proof.Machine.execYield n body s
  | .sig n body => Sys2Proof.Machine.execSig n body s
  | .gset n body w1 => Sys2Proof.Machine.execGset n body w1 s
  | .capHmaxExceeded e => Sys2Proof.Machine.execCapHmaxExceeded e s
  | .turnEnd n => Sys2Proof.Machine.execTurnEnd n s
  | .strandTimerExpiry n => Sys2Proof.Machine.execStrandTimerExpiry n s
  | .svcComplete n => Sys2Proof.Machine.execSvcComplete n s
  | .svcaComplete n => Sys2Proof.Machine.execSvcaComplete n s
  | .queueWaitComplete n => Sys2Proof.Machine.execQueueWaitComplete n s
  | .storeReadComplete n => Sys2Proof.Machine.execStoreReadComplete n s
  | .galleyEntryFreed => Sys2Proof.Machine.execGalleyEntryFreed s
  | .galleyResolve ev word => Sys2Proof.Machine.execGalleyResolve ev word s
  | .galleyTimeout n => Sys2Proof.Machine.execGalleyTimeout n s
  | .lockUp n => Sys2Proof.Machine.execLockUp n s
  | .pie n => Sys2Proof.Machine.execPie n s
  | .enable n => Sys2Proof.Machine.execEnable n s
  | .disable n => Sys2Proof.Machine.execDisable n s
  | .restart n => Sys2Proof.Machine.execRestart n s
  | .halt n => Sys2Proof.Machine.execHalt n s
  | .step n => Sys2Proof.Machine.execStep n s
  | .resume n => Sys2Proof.Machine.execResume n s
  | .breakpointHit n => Sys2Proof.Machine.execBreakpointHit n s
  | .strTimer n value => Sys2Proof.Machine.execStrTimer n value s
  | .strCtrl n value => Sys2Proof.Machine.execStrCtrl n value s
  | .safeTrip n value => Sys2Proof.Machine.execSafeTrip n value s
  | .safeReclose n value => Sys2Proof.Machine.execSafeReclose n value s
  | .safeLimit n arg value => Sys2Proof.Machine.execSafeLimit n arg value s
  | .safeSelftest n value => Sys2Proof.Machine.execSafeSelftest n value s
  | .pilotPwm n value => Sys2Proof.Machine.execPilotPwm n value s
  | .pilotStop n value => Sys2Proof.Machine.execPilotStop n value s
  | .pilotF n value => Sys2Proof.Machine.execPilotF n value s
  | .pilotRelease n value => Sys2Proof.Machine.execPilotRelease n value s
  | .pilotHlc n value => Sys2Proof.Machine.execPilotHlc n value s
  | .lockCmd n value => Sys2Proof.Machine.execLockCmd n value s
  | .allocCurrent n value => Sys2Proof.Machine.execAllocCurrent n value s
  | .hlcOffer n value => Sys2Proof.Machine.execHlcOffer n value s
  | .contCloseReq n value => Sys2Proof.Machine.execContCloseReq n value s
  | .contOpen n value => Sys2Proof.Machine.execContOpen n value s
  | .outOn n value => Sys2Proof.Machine.execOutOn n value s
  | .outOff n value => Sys2Proof.Machine.execOutOff n value s
  | .allocCeil n arg value => Sys2Proof.Machine.execAllocCeil n arg value s
  | .allocPause n arg value => Sys2Proof.Machine.execAllocPause n arg value s
  | .rdPoll n value => Sys2Proof.Machine.execRdPoll n value s
  | .platenProof n arg value => Sys2Proof.Machine.execPlatenProof n arg value s
  | .platenCommit n arg value => Sys2Proof.Machine.execPlatenCommit n arg value s
  | .platenClear n value => Sys2Proof.Machine.execPlatenClear n value s
  | .svcTime => Sys2Proof.Machine.execSvcTime s
  | .logEvent => Sys2Proof.Machine.execLogEvent s
  | .hlcStart => Sys2Proof.Machine.execHlcStart s
  | .hlcReplyAuth => Sys2Proof.Machine.execHlcReplyAuth s
  | .hlcReplyCpd => Sys2Proof.Machine.execHlcReplyCpd s
  | .hlcReply => Sys2Proof.Machine.execHlcReply s
  | .hlcFailed => Sys2Proof.Machine.execHlcFailed s
  | .hlcContractCheck verdict => Sys2Proof.Machine.execHlcContractCheck verdict s
  | .ledgerOpen => Sys2Proof.Machine.execLedgerOpen s
  | .ledgerClose => Sys2Proof.Machine.execLedgerClose s
  | .ledgerEmergency => Sys2Proof.Machine.execLedgerEmergency s
  | .ledgerRead => Sys2Proof.Machine.execLedgerRead s
  | .hubConfirm => Sys2Proof.Machine.execHubConfirm s
  | .allocRequest => Sys2Proof.Machine.execAllocRequest s
  | .allocRelease => Sys2Proof.Machine.execAllocRelease s
  | .siteSend => Sys2Proof.Machine.execSiteSend s
  | .dirLookup => Sys2Proof.Machine.execDirLookup s
  | .readerCheck answer => Sys2Proof.Machine.execReaderCheck answer s
  | .cardAuth answer => Sys2Proof.Machine.execCardAuth answer s
  | .tagReceipt => Sys2Proof.Machine.execTagReceipt s
  | .keyDerive => Sys2Proof.Machine.execKeyDerive s
  | .keyCut => Sys2Proof.Machine.execKeyCut s
  | .cryptoMac => Sys2Proof.Machine.execCryptoMac s
  | .storeWrite => Sys2Proof.Machine.execStoreWrite s
  | .pilotStateChange first samples => Sys2Proof.Machine.execPilotStateChange first samples s
  | .pilotAnomaly samples duties => Sys2Proof.Machine.execPilotAnomaly samples duties s
  | .pilotTripHoldEnd => Sys2Proof.Machine.execPilotTripHoldEnd s
  | .diodeTestPulse low => Sys2Proof.Machine.execDiodeTestPulse low s
  | .ppChange readings => Sys2Proof.Machine.execPpChange readings s
  | .lockFeedbackCheck level => Sys2Proof.Machine.execLockFeedbackCheck level s
  | .lockRetry level => Sys2Proof.Machine.execLockRetry level s
  | .slacParmReq => Sys2Proof.Machine.execSlacParmReq s
  | .slacMatch => Sys2Proof.Machine.execSlacMatch s
  | .slacTimeout => Sys2Proof.Machine.execSlacTimeout s
  | .tlsHandshake tls13 suites rest => Sys2Proof.Machine.execTlsHandshake tls13 suites rest s
  | .supportedAppProtocol names first20 => Sys2Proof.Machine.execSupportedAppProtocol names first20 s
  | .hlcRequest msg body bad processing timeout => Sys2Proof.Machine.execHlcRequest msg body bad processing timeout s
  | .meteringReceipt body timeout => Sys2Proof.Machine.execMeteringReceipt body timeout s
  | .certificateInstallation request exi => Sys2Proof.Machine.execCertificateInstallation request exi s
  | .certAnswer => Sys2Proof.Machine.execCertAnswer s
  | .certAnswerTimeout => Sys2Proof.Machine.execCertAnswerTimeout s
  | .hlcDeadline => Sys2Proof.Machine.execHlcDeadline s
  | .hlcIdleTimeout => Sys2Proof.Machine.execHlcIdleTimeout s
  | .closeStart => Sys2Proof.Machine.execCloseStart s
  | .dutyCoilOn => Sys2Proof.Machine.execDutyCoilOn s
  | .closeTimeout live => Sys2Proof.Machine.execCloseTimeout live s
  | .mirrorChange second reads live => Sys2Proof.Machine.execMirrorChange second reads live s
  | .loadSideChange phase on live => Sys2Proof.Machine.execLoadSideChange phase on live s
  | .discCurrentWaitEnd ia ib ic => Sys2Proof.Machine.execDiscCurrentWaitEnd ia ib ic s
  | .dutyCoilOff amps => Sys2Proof.Machine.execDutyCoilOff amps s
  | .otherCoilOff => Sys2Proof.Machine.execOtherCoilOff s
  | .disconnectFeedback live => Sys2Proof.Machine.execDisconnectFeedback live s
  | .openDelayLearn second delay => Sys2Proof.Machine.execOpenDelayLearn second delay s
  | .wearMirror ia ib ic => Sys2Proof.Machine.execWearMirror ia ib ic s
  | .inrushEnd n => Sys2Proof.Machine.execInrushEnd n s
  | .outputOverload n => Sys2Proof.Machine.execOutputOverload n s
  | .thermalShutdown n => Sys2Proof.Machine.execThermalShutdown n s
  | .thermalRestart n => Sys2Proof.Machine.execThermalRestart n s
  | .vsysUndervolt => Sys2Proof.Machine.execVsysUndervolt s
  | .vsysRecovered => Sys2Proof.Machine.execVsysRecovered s
  | .openLoad n reading => Sys2Proof.Machine.execOpenLoad n reading s
  | .governorAct => Sys2Proof.Machine.execGovernorAct s
  | .rcmUpdate dc backward ac => Sys2Proof.Machine.execRcmUpdate dc backward ac s
  | .rcmWarn => Sys2Proof.Machine.execRcmWarn s
  | .tripPilotRelease => Sys2Proof.Machine.execTripPilotRelease s
  | .rcmSelftest dc backward ac symmetric peaks inRange => Sys2Proof.Machine.execRcmSelftest dc backward ac symmetric peaks inRange s
  | .rcmSelftestResult returnDc healthy => Sys2Proof.Machine.execRcmSelftestResult returnDc healthy s
  | .rcmSelftestRepeat => Sys2Proof.Machine.execRcmSelftestRepeat s
  | .rcmSelftestDaily => Sys2Proof.Machine.execRcmSelftestDaily s
  | .rcmChainUnhealthy => Sys2Proof.Machine.execRcmChainUnhealthy s
  | .rcmChainHealthy => Sys2Proof.Machine.execRcmChainHealthy s
  | .penTrip volts => Sys2Proof.Machine.execPenTrip volts s
  | .penClear volts => Sys2Proof.Machine.execPenClear volts s
  | .tempWarn k t => Sys2Proof.Machine.execTempWarn k t s
  | .tempTrip k t => Sys2Proof.Machine.execTempTrip k t s
  | .tempClear k t => Sys2Proof.Machine.execTempClear k t s
  | .supplyTrip va vb vc freq => Sys2Proof.Machine.execSupplyTrip va vb vc freq s
  | .supplyClear va vb vc freq => Sys2Proof.Machine.execSupplyClear va vb vc freq s
  | .measLost => Sys2Proof.Machine.execMeasLost s
  | .measRestored => Sys2Proof.Machine.execMeasRestored s
  | .ocGraceMidpoint ia ib ic => Sys2Proof.Machine.execOcGraceMidpoint ia ib ic s
  | .ocGraceEnd => Sys2Proof.Machine.execOcGraceEnd s
  | .overcurrentTrip ia ib ic => Sys2Proof.Machine.execOvercurrentTrip ia ib ic s
  | .recloseTimer bit => Sys2Proof.Machine.execRecloseTimer bit s
  | .safeClear mask => Sys2Proof.Machine.execSafeClear mask s
  | .safeClearPWeld => Sys2Proof.Machine.execSafeClearPWeld s
  | .safeClearPContactor => Sys2Proof.Machine.execSafeClearPContactor s
  | .safeCtrlSelftest => Sys2Proof.Machine.execSafeCtrlSelftest s
  | .hostTrip => Sys2Proof.Machine.execHostTrip s
  | .metroBlockEnd data partial_ => Sys2Proof.Machine.execMetroBlockEnd data partial_ s
  | .rotationStep => Sys2Proof.Machine.execRotationStep s
  | .rotationHandover ratio => Sys2Proof.Machine.execRotationHandover ratio s
  | .chainReferenceSwitch zero => Sys2Proof.Machine.execChainReferenceSwitch zero s
  | .chainJudgement reading => Sys2Proof.Machine.execChainJudgement reading s
  | .chainHardFail chain => Sys2Proof.Machine.execChainHardFail chain s
  | .freqBandExit freq => Sys2Proof.Machine.execFreqBandExit freq s
  | .metCalStage value => Sys2Proof.Machine.execMetCalStage value s
  | .metCalCommit => Sys2Proof.Machine.execMetCalCommit s
  | .metCalDiscard => Sys2Proof.Machine.execMetCalDiscard s
  | .rtcSecond => Sys2Proof.Machine.execRtcSecond s
  | .aoRtcSet w => Sys2Proof.Machine.execAoRtcSet w s
  | .boundaryClose => Sys2Proof.Machine.execBoundaryClose s
  | .ledBillClose => Sys2Proof.Machine.execLedBillClose s
  | .ledCalLoad => Sys2Proof.Machine.execLedCalLoad s
  | .ledCalDropPassive => Sys2Proof.Machine.execLedCalDropPassive s
  | .registerImage => Sys2Proof.Machine.execRegisterImage s
  | .ledTopup => Sys2Proof.Machine.execLedTopup s
  | .ledClear key => Sys2Proof.Machine.execLedClear key s
  | .ledExpAck offset => Sys2Proof.Machine.execLedExpAck offset s
  | .sealTimer => Sys2Proof.Machine.execSealTimer s
  | .sealRetry => Sys2Proof.Machine.execSealRetry s
  | .tamperChange terminal opened => Sys2Proof.Machine.execTamperChange terminal opened s
  | .tamperCopy => Sys2Proof.Machine.execTamperCopy s
  | .vbackTest low => Sys2Proof.Machine.execVbackTest low s
  | .roundStart => Sys2Proof.Machine.execRoundStart s
  | .poll f r => Sys2Proof.Machine.execPoll f r s
  | .answer a r => Sys2Proof.Machine.execAnswer a r s
  | .relayForward answer message modulation delay input => Sys2Proof.Machine.execRelayForward answer message modulation delay input s
  | .exchangeFail why => Sys2Proof.Machine.execExchangeFail why s
  | .chunk heard => Sys2Proof.Machine.execChunk heard s
  | .objectVerify => Sys2Proof.Machine.execObjectVerify s
  | .fallbackEntry => Sys2Proof.Machine.execFallbackEntry s
  | .allocationRun => Sys2Proof.Machine.execAllocationRun s
  | .inputStale => Sys2Proof.Machine.execInputStale s
  | .saTimeout => Sys2Proof.Machine.execSaTimeout s
  | .allocSa imp exp => Sys2Proof.Machine.execAllocSa imp exp s
  | .removeReserveEnd channel => Sys2Proof.Machine.execRemoveReserveEnd channel s
  | .lnkJoinOpen win => Sys2Proof.Machine.execLnkJoinOpen win s
  | .joinWindowClose => Sys2Proof.Machine.execJoinWindowClose s
  | .joinRequest ident repeater snr sponsor => Sys2Proof.Machine.execJoinRequest ident repeater snr sponsor s
  | .joinFrame f => Sys2Proof.Machine.execJoinFrame f s
  | .keyPairOk => Sys2Proof.Machine.execKeyPairOk s
  | .pairingTimeout => Sys2Proof.Machine.execPairingTimeout s
  | .lnkRemove channel => Sys2Proof.Machine.execLnkRemove channel s
  | .lnkUnpair => Sys2Proof.Machine.execLnkUnpair s
  | .inventory cards faults => Sys2Proof.Machine.execInventory cards faults s
  | .detectionPulse change => Sys2Proof.Machine.execDetectionPulse change s
  | .dirCmdPut offset => Sys2Proof.Machine.execDirCmdPut offset s
  | .dirCmdDelete offset => Sys2Proof.Machine.execDirCmdDelete offset s
  | .dirCmdLookup offset => Sys2Proof.Machine.execDirCmdLookup offset s
  | .dirDeltaApply => Sys2Proof.Machine.execDirDeltaApply s
  | .dirPublish => Sys2Proof.Machine.execDirPublish s
  | .tagTransactionStart => Sys2Proof.Machine.execTagTransactionStart s
  | .selectApplication apdu => Sys2Proof.Machine.execSelectApplication apdu s
  | .selectFile file => Sys2Proof.Machine.execSelectFile file s
  | .readBinary off le => Sys2Proof.Machine.execReadBinary off le s
  | .updateBinary off data vr => Sys2Proof.Machine.execUpdateBinary off data vr s
  | .getOrigin => Sys2Proof.Machine.execGetOrigin s
  | .knock ch => Sys2Proof.Machine.execKnock ch s
  | .knockProof proof => Sys2Proof.Machine.execKnockProof proof s
  | .tagCommit vr => Sys2Proof.Machine.execTagCommit vr s
  | .deselect => Sys2Proof.Machine.execDeselect s
  | .hlta => Sys2Proof.Machine.execHlta s
  | .tagIdleTimeout => Sys2Proof.Machine.execTagIdleTimeout s
  | .quietHoldEnd => Sys2Proof.Machine.execQuietHoldEnd s
  | .create parent mask len => Sys2Proof.Machine.execCreate parent mask len s
  | .derive parent opt len => Sys2Proof.Machine.execDerive parent opt len s
  | .release slot fails => Sys2Proof.Machine.execRelease slot fails s
  | .cut knot => Sys2Proof.Machine.execCut knot s
  | .importKnot parent mask len => Sys2Proof.Machine.execImportKnot parent mask len s
  | .readPublic slot => Sys2Proof.Machine.execReadPublic slot s
  | .sealBtnPress jumper => Sys2Proof.Machine.execSealBtnPress jumper s
  | .presenceWindowClose metroOnly => Sys2Proof.Machine.execPresenceWindowClose metroOnly s
  | .aoPresClose => Sys2Proof.Machine.execAoPresClose s
  | .plCmd mode region asset => Sys2Proof.Machine.execPlCmd mode region asset s
  | .updateStart crackOk powerGood => Sys2Proof.Machine.execUpdateStart crackOk powerGood s
  | .panelFrame crackOk mismatch t => Sys2Proof.Machine.execPanelFrame crackOk mismatch t s
  | .crackFail => Sys2Proof.Machine.execCrackFail s
  | .crackTestIdle passes => Sys2Proof.Machine.execCrackTestIdle passes s
  | .recoverRetry => Sys2Proof.Machine.execRecoverRetry s
  | .panelPowerFail => Sys2Proof.Machine.execPanelPowerFail s
  | .panelPowerOff => Sys2Proof.Machine.execPanelPowerOff s
  | .panelTempRead t => Sys2Proof.Machine.execPanelTempRead t s
  | .write addr words frame => Sys2Proof.Machine.execWrite addr words frame s
  | .read addr len => Sys2Proof.Machine.execRead addr len s
  | .status => Sys2Proof.Machine.execStatus s
  | .qpush addr items frame => Sys2Proof.Machine.execQpush addr items frame s
  | .qpop addr len => Sys2Proof.Machine.execQpop addr len s
  | .swrite addr words frame => Sys2Proof.Machine.execSwrite addr words frame s
  | .sread addr len => Sys2Proof.Machine.execSread addr len s
  | .hostAbort pause => Sys2Proof.Machine.execHostAbort pause s
  | .registerWrite addr value => Sys2Proof.Machine.execRegisterWrite addr value s
  | .qFlush q => Sys2Proof.Machine.execQFlush q s
  | .queueStale q => Sys2Proof.Machine.execQueueStale q s
  | .mbInRing mailbox bells => Sys2Proof.Machine.execMbInRing mailbox bells s
  | .updOpen => Sys2Proof.Machine.execUpdOpen s
  | .updVerify => Sys2Proof.Machine.execUpdVerify s
  | .updDiscard => Sys2Proof.Machine.execUpdDiscard s
  | .updAct => Sys2Proof.Machine.execUpdAct s
  | .autoActivation => Sys2Proof.Machine.execAutoActivation s
  | .handoverReady => Sys2Proof.Machine.execHandoverReady s
  | .handoverTExpiry => Sys2Proof.Machine.execHandoverTExpiry s
  | .takeoverComplete => Sys2Proof.Machine.execTakeoverComplete s
  | .handoverAbort => Sys2Proof.Machine.execHandoverAbort s
  | .formeLoad => Sys2Proof.Machine.execFormeLoad s
  | .scrub corrected worn uncorrectable tagFails old => Sys2Proof.Machine.execScrub corrected worn uncorrectable tagFails old s
  | .coreRetire coreB corrected uncorrectable => Sys2Proof.Machine.execCoreRetire coreB corrected uncorrectable s
  | .dieHot hot135 => Sys2Proof.Machine.execDieHot hot135 s
  | .dieCool => Sys2Proof.Machine.execDieCool s
  | .tlsClosed => Sys2Proof.Machine.execTlsClosed s
  | .pilotShortClear => Sys2Proof.Machine.execPilotShortClear s
  | .pairingReply ephemeral ledgerKey ident => Sys2Proof.Machine.execPairingReply ephemeral ledgerKey ident s
  | .panelPowerRetry => Sys2Proof.Machine.execPanelPowerRetry s

end Sys2Proof.Machine
end

