-- ==== Sys2Proof/Safety.lean ====
section
/-! DEFINITION. The terms the statements use: what a safe run is, and what every step keeps. -/
namespace Sys2Proof.Machine

/-- A step that stops, with a fault or a refusal. -/
def Stops (s : State) : Prop := ∀ t, step s ≠ .next t

/-- No run from `s` stops within `n` steps. -/
def SafeFor : Nat → State → Prop
  | 0, _ => True
  | n + 1, s => ∃ t, step s = .next t ∧ SafeFor n t

/-- Command `c` completes in state `s`: it answers a next state, of which `P` holds. -/
def Gives (c : Instr) (s : State) (P : State → Prop) : Prop := ∃ t, exec c s = .next t ∧ P t

/-- The three memories of the Capstan are in their canonical form: addresses strictly rising, no entry that equals what an
unlisted address reads as. -/
def Cap.memWf (c : Cap) : Bool := mapWf 0 c.prog && mapWf 0 c.caseMem && mapWf 0 c.shared

/-- Every memory of the module is in its canonical form, and the register fields are listed by rising key. -/
def Memory.wf (s : State) : Bool :=
  s.cap.memWf && mapWf 0xFF s.store.cells && mapWf 0 s.tag.mem && risingFrom 0 s.regs && risingFrom 0 s.shadow

/-- What no command changes for the worse: the queue of waiting commands stays as it is, the memories keep their canonical
form, and a blown FACTORY_DONE fuse stays blown. -/
structure Keeps (a b : State) : Prop where
  pending : b.pending = a.pending
  wf : Memory.wf a = true → Memory.wf b = true
  fuse : a.sys.factoryDone = true → b.sys.factoryDone = true

/-- The same of the Capstan alone. -/
def CapKeeps (a b : Cap) : Prop := a.memWf = true → b.memWf = true

/-! ## Capstan instructions -/

/-- The scheduler gives strand `n` the engine, in state `u`, and its next instruction, of `words` words and `cycles` issue
cycles, issues: nothing resolved is pending, no breakpoint stops it, a class-0 activation has the cycles left, and the
words lie inside the loaded forme. -/
structure Issues (n : Fin 320) (words cycles : Nat) (s u : State) : Prop where
  granted : grant n s = some u
  unresolved : (getS u n).galley.bind (·.resolved) = none
  noBreak : atBreakpoint n u = false
  budget : ¬((getS u n).cls = 0 ∧ (getS u n).hmax < (getS u n).used + cycles)
  inForme : (getS u n).pc.toNat + words ≤ u.cap.formeWords

/-- From `u` to `t` nothing changes but strand `n`. -/
structure OnlyStrand (n : Fin 320) (u t : State) : Prop where
  only : t = u.updCap fun c => { c with strands := t.cap.strands }
  others : ∀ m, m ≠ n → getS t m = getS u m

/-- The strand `b` is the strand `a` after an instruction: its registers read as `w`, its predicates as `p`, its program
counter is `pc`, the issue cycles are charged, and everything else that a strand holds is as it was. -/
structure Issued (cycles : Nat) (a b : Strand) (w : Fin 16 → Word) (p : Fin 4 → Bool) (pc : BitVec 17) : Prop where
  regs : ∀ i, getW b i = w i
  preds : ∀ i, getP b i = p i
  pc : b.pc = pc
  cycles0 : a.cls = 0 → b.used = a.used + cycles ∧ b.turnLeft = a.turnLeft
  turn : a.cls ≠ 0 → b.turnLeft = a.turnLeft - 1 ∧ b.used = a.used
  rest : b = { a with w := b.w, p := b.p, pc := b.pc, used := b.used, hwm := b.hwm, turnLeft := b.turnLeft, bpPass := false
                      reserved := false }

/-- An instruction that acts on strand `n` alone: what it leaves in the strand is as `Issued` says, its program counter past
the instruction's words, and nothing else changes. -/
structure OwnStep (n : Fin 320) (words cycles : Nat) (w : Fin 16 → Word) (p : Fin 4 → Bool) (u t : State) : Prop where
  strand : Issued cycles (getS u n) (getS t n) w p ((getS u n).pc + BitVec.ofNat 17 words)
  frame : OnlyStrand n u t

/-- The registers of strand `t` after register `rd` took `v`: w0 still reads as 0 (04 R70). -/
def regAfter (t : Strand) (rd : Fin 16) (v : Word) (i : Fin 16) : Word := if i = rd ∧ i ≠ 0 then v else getW t i

/-- The registers of strand `t` after the pair at the even register `rd` took `v` (04 R70). -/
def pairAfter (t : Strand) (rd : Fin 16) (v : BitVec 64) (i : Fin 16) : Word :=
  if i = rd ∧ i ≠ 0 then v.truncate 32 else if i = rd + 1 then (v >>> 32).truncate 32 else getW t i

/-- The predicates of strand `t` after predicate `pd` took `b`: p0 stays true (04 R67). -/
def predAfter (t : Strand) (pd : Fin 4) (b : Bool) (i : Fin 4) : Bool := if i = pd ∧ i ≠ 0 then b else getP t i

/-! ## What raising an event may change -/

/-- From strand `a` to `b` only what an event may change differs. -/
structure EventStrand (a b : Strand) : Prop where
  rest : b = { a with st := b.st, pending := b.pending, used := b.used, hmax := b.hmax, galley := b.galley }
  held : b.galley.map (·.held) = a.galley.map (·.held)
  dead : (a.st = .disabled ↔ b.st = .disabled) ∧ (a.st = .faulted ↔ b.st = .faulted) ∧ (a.st = .halted ↔ b.st = .halted)

/-- From Capstan `c` to `d` only what an event may change differs. -/
structure EventCap (c d : Cap) : Prop where
  rest : d = { c with strands := d.strands, running := d.running, interrupted := d.interrupted, q0 := d.q0, q1 := d.q1,
                      q2 := d.q2, q3 := d.q3, stalled := d.stalled }
  strands : ∀ m, EventStrand (c.strand m) (d.strand m)

/-! ## The host port -/

/-- The host port serves a word at `addr` as it stands: the port answers (18 R391), the module is not in STANDBY, which the
access would end, and nothing turns the access away: the register's domain is on (02 R8), and INERT serves it (02 R35). -/
structure HostServes (addr : Nat) (s : State) : Prop where
  up : hostUp s = true
  awake : s.sys.mode ≠ .standby
  open_ : portStop addr s = none

/-- The last transaction ended with status `code` (18 R388, HOST_STAT.LAST). -/
def Answered (code : Nat) (t : State) : Prop := getF t Reg.HOST_STAT_LAST = code

/-! ## Service calls -/

/-- Firmware serves the call `k` of service `num`: it is the oldest that has not run, its caller still wants it, no service
pause runs (01 R19) and a core is active (02 R34). -/
structure ServesCall (num : Nat) (k : Call) (s : State) : Prop where
  noPause : s.sys.pause = false
  core : s.sys.takeover = false
  call : (s.cap.calls.find? fun c => c.num == num && c.done.isNone) = some k
  live : k.abandoned = false

/-- As `ServesCall`, for a service whose calls may wait in firmware: the oldest call that firmware has not taken. -/
structure ServesFree (num : Nat) (k : Call) (s : State) : Prop where
  noPause : s.sys.pause = false
  core : s.sys.takeover = false
  call : (s.cap.calls.find? fun c => c.num == num && c.done.isNone && !(heldCalls s).contains c.id) = some k
  live : k.abandoned = false

/-- The service has run for call `k`, with the code `code` in its result word and these returned values (04 R84, 06 R116). -/
def CallDone (k : Call) (code : Nat) (rets : List Word) (t : State) : Prop :=
  { k with done := some (BitVec.ofNat 32 code, rets) } ∈ t.cap.calls

end Sys2Proof.Machine
end

