-- ==== Sys2Proof/Certificates/Slice0/Obligations.lean ====
section
/-! DEFINITION. The statements for the provers. -/
open Sys2Proof Sys2Proof.Machine

/-- 04 R74: every arithmetic and logic instruction on three registers writes its result to RD (w0 stays 0), takes one issue
cycle, moves the program counter on by one word, and changes nothing else. -/
def Obligations.ThreeRegisterArithmetic : Prop :=
  ∀ (n : Fin 320) (b : BitVec 26) (s u : State), Issues n 1 1 s u → getP (getS u n) (fieldG b) = true → illA b = false →
    let x := getW (getS u n) (fieldRA b)
    let y := getW (getS u n) (fieldRB b)
    let writes (v : Word) : State → Prop := OwnStep n 1 1 (regAfter (getS u n) (fieldRD b) v) (getP (getS u n)) u
    Gives (.add n b) s (writes (x + y)) ∧ Gives (.sub n b) s (writes (x - y)) ∧
    Gives (.and n b) s (writes (x &&& y)) ∧ Gives (.or n b) s (writes (x ||| y)) ∧
    Gives (.xor n b) s (writes (x ^^^ y)) ∧
    Gives (.shl n b) s (writes (x <<< (y.toNat % 32))) ∧ Gives (.shr n b) s (writes (x >>> (y.toNat % 32))) ∧
    Gives (.sar n b) s (writes (x.sshiftRight (y.toNat % 32))) ∧
    Gives (.mul n b) s (writes (x * y)) ∧
    Gives (.minu n b) s (writes (if x.toNat < y.toNat then x else y)) ∧
    Gives (.maxu n b) s (writes (if x.toNat < y.toNat then y else x))

/-- 04 R74: the instructions on one register and an immediate, whose reserved bits are 0; LDI takes two words. -/
def Obligations.ImmediateArithmetic : Prop :=
  ∀ (n : Fin 320) (b : BitVec 26) (s u : State), Issues n 1 1 s u → getP (getS u n) (fieldG b) = true → fieldM b = 0 →
    let x := getW (getS u n) (fieldRA b)
    let writes (v : Word) : State → Prop := OwnStep n 1 1 (regAfter (getS u n) (fieldRD b) v) (getP (getS u n)) u
    Gives (.addi n b) s (writes (x + (b.truncate 14).signExtend 32)) ∧
    Gives (.andi n b) s (writes (x &&& (b.truncate 14).setWidth 32)) ∧
    Gives (.ori n b) s (writes (x ||| (b.truncate 14).setWidth 32)) ∧
    Gives (.xori n b) s (writes (x ^^^ (b.truncate 14).setWidth 32)) ∧
    (fieldImm b < 32 →
      Gives (.shli n b) s (writes (x <<< fieldImm b)) ∧ Gives (.shri n b) s (writes (x >>> fieldImm b)) ∧
      Gives (.sari n b) s (writes (x.sshiftRight (fieldImm b)))) ∧
    ∀ w1 : Word, fieldImm b = 0 → fieldRA b = 0 → (getS u n).pc.toNat + 2 ≤ u.cap.formeWords →
      Gives (.ldi n b w1) s (OwnStep n 2 1 (regAfter (getS u n) (fieldRD b) w1) (getP (getS u n)) u)

/-- 04 R74, R77: bit fields and 64-bit arithmetic. Bit `j` of what EXT leaves is the field's bit, then 0 or the sign; INS
changes the field's bits alone; pairs are named by even registers, and pair 0 keeps w0 at 0. -/
def Obligations.BitFieldsAndPairs : Prop :=
  ∀ (n : Fin 320) (b : BitVec 26) (s u : State), Issues n 1 1 s u → getP (getS u n) (fieldG b) = true →
    let t := getS u n
    let x := getW t (fieldRA b)
    let writes (v : Word) : State → Prop := OwnStep n 1 1 (regAfter t (fieldRD b) v) (getP t) u
    let pair (v : BitVec 64) : State → Prop := OwnStep n 1 1 (pairAfter t (fieldRD b) v) (getP t) u
    (bits b.toNat 10 4 = 0 →
      (fieldM b = 0 → ∃ v : Word, Gives (.ext n b) s (writes v) ∧
        ∀ j, j < 32 → v.getLsbD j = (decide (j < fieldLen b) && x.getLsbD (fieldPos b + j))) ∧
      (fieldM b = 1 → ∃ v : Word, Gives (.ext n b) s (writes v) ∧
        ∀ j, j < 32 → v.getLsbD j = x.getLsbD (fieldPos b + min j (fieldLen b - 1))) ∧
      (fieldM b = 0 → ∃ v : Word, Gives (.ins n b) s (writes v) ∧
        ∀ j, j < 32 → v.getLsbD j = if fieldPos b ≤ j ∧ j < fieldPos b + fieldLen b then x.getLsbD (j - fieldPos b)
          else (getW t (fieldRD b)).getLsbD j)) ∧
    ((fieldRD b).val % 2 = 0 → illA b = false →
      Gives (.mulu64 n b) s (pair (x.setWidth 64 * (getW t (fieldRB b)).setWidth 64)) ∧
      ((fieldRA b).val % 2 = 0 → (fieldRB b).val % 2 = 0 →
        Gives (.add64 n b) s (pair (getX t (fieldRA b) + getX t (fieldRB b))) ∧
        Gives (.sub64 n b) s (pair (getX t (fieldRA b) - getX t (fieldRB b))))) ∧
    ((fieldRD b).val % 2 = 0 → (fieldRA b).val % 2 = 0 → fieldM b = 0 → fieldImm b < 64 →
      Gives (.shr64i n b) s (pair (getX t (fieldRA b) >>> fieldImm b)))

/-- 04 R73, R75: compares write one predicate by the condition's code, PLOG by its truth table; p0 stays true, and no
register changes. -/
def Obligations.ComparesWritePredicates : Prop :=
  ∀ (n : Fin 320) (b : BitVec 26) (s u : State), Issues n 1 1 s u → getP (getS u n) (fieldG b) = true →
    let t := getS u n
    let sets (pd : Fin 4) (v : Bool) : State → Prop := OwnStep n 1 1 (getW t) (predAfter t pd v) u
    (fieldLow8 b = 0 → bits b.toNat 22 2 = 0 → fieldF b < 12 →
      Gives (.cmp n b) s (sets (fieldPDa b) (condHolds (fieldF b) (getW t (fieldRA b)) (getW t (fieldRB b)))) ∧
      ((fieldRA b).val % 2 = 0 → (fieldRB b).val % 2 = 0 →
        Gives (.cmp64 n b) s (sets (fieldPDa b) (condHolds (fieldF b) (getX t (fieldRA b)) (getX t (fieldRB b)))))) ∧
    ((fieldRD b).val < 12 →
      Gives (.cmpi n b) s (sets (Fin.ofNat 4 (fieldM b))
        (condHolds (fieldRD b).val (getW t (fieldRA b)) ((b.truncate 14).signExtend 32)))) ∧
    (fieldLow8 b = 0 → bits b.toNat 22 2 = 0 → bits b.toNat 18 2 = 0 → bits b.toNat 14 2 = 0 →
      Gives (.plog n b) s (sets (fieldPDa b)
        ((fieldF b).testBit (2 * (getP t (fieldPA b)).toNat + (getP t (fieldPB b)).toNat)))) ∧
    (∀ x y : Word, condHolds 0 x y = (x == y) ∧ condHolds 1 x y = (x != y) ∧
      condHolds 2 x y = decide (x.toInt < y.toInt) ∧ condHolds 3 x y = decide (y.toInt ≤ x.toInt) ∧
      condHolds 4 x y = decide (x.toNat < y.toNat) ∧ condHolds 5 x y = decide (y.toNat ≤ x.toNat) ∧
      condHolds 6 x y = decide (x.toInt ≤ y.toInt) ∧ condHolds 7 x y = decide (y.toInt < x.toInt) ∧
      condHolds 8 x y = decide (x.toNat ≤ y.toNat) ∧ condHolds 9 x y = decide (y.toNat < x.toNat) ∧
      condHolds 10 x y = ((x &&& y) != 0) ∧ condHolds 11 x y = ((x &&& y) == 0))

/-- 04 R67: an instruction whose guard is false has no effect at all, but for its issue cycles, which are two for PUT and
PUTS, and the program counter that passes its words; the cycles count against the limit of class 0 as those of one that
executes; p0 is always true. Every instruction is listed with its words, its issue cycles and what its encoding faults with. -/
def Obligations.FalseGuardHasNoEffect : Prop :=
  ∀ (n : Fin 320) (b : BitVec 26) (w1 : Word) (s u : State),
    let forms : List (Instr × Nat × Nat × Option Nat) := [
      (.nop n (1#6 ++ b), 1, 1, (opNop n 0x01 b).early), (.add n b, 1, 1, (opAdd n b).early), (.sub n b, 1, 1, (opSub n b).early),
      (.and n b, 1, 1, (opAnd n b).early), (.or n b, 1, 1, (opOr n b).early), (.xor n b, 1, 1, (opXor n b).early),
      (.shl n b, 1, 1, (opShl n b).early), (.shr n b, 1, 1, (opShr n b).early), (.sar n b, 1, 1, (opSar n b).early),
      (.mul n b, 1, 1, (opMul n b).early), (.mulu64 n b, 1, 1, (opMulu64 n b).early), (.minu n b, 1, 1, (opMinu n b).early),
      (.maxu n b, 1, 1, (opMaxu n b).early), (.cmp n b, 1, 1, (opCmp n b).early), (.plog n b, 1, 1, (opPlog n b).early),
      (.addi n b, 1, 1, (opAddi n b).early), (.andi n b, 1, 1, (opAndi n b).early), (.ori n b, 1, 1, (opOri n b).early),
      (.xori n b, 1, 1, (opXori n b).early), (.shli n b, 1, 1, (opShli n b).early), (.shri n b, 1, 1, (opShri n b).early),
      (.sari n b, 1, 1, (opSari n b).early), (.cmpi n b, 1, 1, (opCmpi n b).early), (.ext n b, 1, 1, (opExt n b).early),
      (.ins n b, 1, 1, (opIns n b).early), (.add64 n b, 1, 1, (opAdd64 n b).early), (.sub64 n b, 1, 1, (opSub64 n b).early),
      (.cmp64 n b, 1, 1, (opCmp64 n b).early), (.shr64i n b, 1, 1, (opShr64i n b).early),
      (.acc n b, 1, 1, (opAcc n b).early), (.br n b, 1, 1, (opBr n b).early), (.jr n b, 1, 1, (opJr n b).early),
      (.ldi n b w1, 2, 1, (opLdi n b w1).early), (.svc n b, 1, 1, (opSvc n b).early), (.svca n b, 1, 1, (opSvca n b).early),
      (.wait n b, 1, 1, (opWait n b).early), (.yield n b, 1, 1, (opYield n b).early), (.sig n b, 1, 1, (opSig n b).early),
      (.gset n b w1, 2, 1, (opGset n b w1).early), (.ld n b, 1, 1, (opLoad 4 n b).early),
      (.ldh n b, 1, 1, (opLoad 2 n b).early), (.ldb n b, 1, 1, (opLoad 1 n b).early), (.st n b, 1, 1, (opStore 4 n b).early),
      (.sth n b, 1, 1, (opStore 2 n b).early), (.stb n b, 1, 1, (opStore 1 n b).early),
      (.ld64 n b, 1, 1, (opLd64 n b).early), (.st64 n b, 1, 1, (opSt64 n b).early), (.get n b, 1, 1, (opGet n b).early),
      (.put n b, 1, 2, (opPut n b).early), (.puts n b, 1, 2, (opPuts n b).early), (.enq n b, 1, 1, (opEnq n b).early),
      (.enqw n b, 1, 1, (opEnqw n b).early), (.deq n b, 1, 1, (opDeq n b).early), (.deqw n b, 1, 1, (opDeqw n b).early)]
    getP (getS u n) 0 = true ∧
    (∀ f ∈ forms, Issues n f.2.1 f.2.2.1 s u → f.2.2.2 = none → getP (getS u n) (fieldG b) = false →
      Gives f.1 s (OwnStep n f.2.1 f.2.2.1 (getW (getS u n)) (getP (getS u n)) u)) ∧
    (∀ f ∈ forms, grant n s = some u → (getS u n).galley = none → atBreakpoint n u = false → (getS u n).cls = 0 →
      (getS u n).st = .running → (getS u n).hmax < (getS u n).used + f.2.2.1 → (getS u n).fbEn = false →
      Gives f.1 s fun t => (getS t n).st = .faulted ∧ (getS t n).fault = 0xA0)

/-- 04 R71, R76: a load reads the window at RA + sext(IMM), its low bits ignored, and zero-extends; the strand's own held bytes
come first, and with no galley open the bytes are those of case memory. -/
def Obligations.LoadsReadTheWindow : Prop :=
  ∀ (n : Fin 320) (b : BitVec 26) (s u : State), Issues n 1 1 s u → getP (getS u n) (fieldG b) = true → fieldM b = 0 →
    let t := getS u n
    let o (size : Nat) : Nat :=
      let a := (getW t (fieldRA b) + (b.truncate 14).signExtend 32).toNat
      a - a % size
    let at_ (i : Nat) : Byte := windowByte u t i
    let writes (v : Word) : State → Prop := OwnStep n 1 1 (regAfter t (fieldRD b) v) (getP t) u
    (o 4 + 4 ≤ windowBytes t →
      Gives (.ld n b) s (writes (at_ (o 4 + 3) ++ at_ (o 4 + 2) ++ at_ (o 4 + 1) ++ at_ (o 4)))) ∧
    (o 2 + 2 ≤ windowBytes t → Gives (.ldh n b) s (writes ((at_ (o 2 + 1) ++ at_ (o 2)).setWidth 32))) ∧
    (o 1 + 1 ≤ windowBytes t → Gives (.ldb n b) s (writes ((at_ (o 1)).setWidth 32))) ∧
    (o 8 + 8 ≤ windowBytes t → (fieldRD b).val % 2 = 0 →
      Gives (.ld64 n b) s (OwnStep n 1 1 (pairAfter t (fieldRD b)
        (at_ (o 8 + 7) ++ at_ (o 8 + 6) ++ at_ (o 8 + 5) ++ at_ (o 8 + 4) ++
          at_ (o 8 + 3) ++ at_ (o 8 + 2) ++ at_ (o 8 + 1) ++ at_ (o 8))) (getP t) u)) ∧
    (t.galley = none → ∀ i, at_ i = byteAt 0 u.cap.caseMem (64 * t.winBase + i))

/-- 04 R76: outside a galley a store writes the low bytes of its register to case memory at once, at the address that RA +
sext(IMM) gives in the window; every other byte of case memory, every register and predicate, and the rest of the state stay
as they are. -/
def Obligations.StoresWriteCaseMemory : Prop :=
  ∀ (n : Fin 320) (b : BitVec 26) (s u : State), Issues n 1 1 s u → getP (getS u n) (fieldG b) = true → fieldM b = 0 →
    Memory.wf u = true → (getS u n).galley = none →
    let t := getS u n
    let o (size : Nat) : Nat :=
      let a := (getW t (fieldRA b) + (b.truncate 14).signExtend 32).toNat
      a - a % size
    let stores (size v : Nat) (r : State) : Prop :=
      (∀ x, byteAt 0 r.cap.caseMem x =
        if 64 * t.winBase + o size ≤ x ∧ x < 64 * t.winBase + o size + size
        then BitVec.ofNat 8 (v / 256 ^ (x - (64 * t.winBase + o size))) else byteAt 0 u.cap.caseMem x) ∧
      Issued 1 t (getS r n) (getW t) (getP t) (t.pc + 1) ∧ (∀ m, m ≠ n → getS r m = getS u m) ∧
      r = u.updCap fun c => { c with strands := r.cap.strands, caseMem := r.cap.caseMem }
    (o 4 + 4 ≤ windowBytes t → Gives (.st n b) s (stores 4 (getW t (fieldRD b)).toNat)) ∧
    (o 2 + 2 ≤ windowBytes t → Gives (.sth n b) s (stores 2 (getW t (fieldRD b)).toNat)) ∧
    (o 1 + 1 ≤ windowBytes t → Gives (.stb n b) s (stores 1 (getW t (fieldRD b)).toNat)) ∧
    (o 8 + 8 ≤ windowBytes t → (fieldRD b).val % 2 = 0 → Gives (.st64 n b) s (stores 8 (getX t (fieldRD b)).toNat))

/-- 04 R87, 05 R91: while the strand is speculative, a store that finds its entry, or a free one, stays in the galley: case
memory and every other strand are as they were, the strand reads its own bytes back, and every other byte of its window
as before. -/
def Obligations.SpeculativeStoresAreHeld : Prop :=
  ∀ (n : Fin 320) (b : BitVec 26) (s u : State), Issues n 1 1 s u → getP (getS u n) (fieldG b) = true → fieldM b = 0 →
    speculative u n = true →
    let t := getS u n
    let o (size : Nat) : Nat :=
      let a := (getW t (fieldRA b) + (b.truncate 14).signExtend 32).toNat
      a - a % size
    let holds (size v : Nat) (r : State) : Prop :=
      OnlyStrand n u r ∧ (∀ i, getW (getS r n) i = getW t i) ∧ (getS r n).pc = t.pc + 1 ∧
      ∀ x, windowByte r (getS r n) x = if o size ≤ x ∧ x < o size + size
        then BitVec.ofNat 8 (v / 256 ^ (x - o size)) else windowByte u t x
    let room (size : Nat) : Prop := (heldUnit (o size / 64) (heldOf u n)).isSome = true ∨ entryFree n u = true
    (o 4 + 4 ≤ windowBytes t → room 4 → Gives (.st n b) s (holds 4 (getW t (fieldRD b)).toNat)) ∧
    (o 2 + 2 ≤ windowBytes t → room 2 → Gives (.sth n b) s (holds 2 (getW t (fieldRD b)).toNat)) ∧
    (o 1 + 1 ≤ windowBytes t → room 1 → Gives (.stb n b) s (holds 1 (getW t (fieldRD b)).toNat)) ∧
    (o 8 + 8 ≤ windowBytes t → room 8 → (fieldRD b).val % 2 = 0 →
      Gives (.st64 n b) s (holds 8 (getX t (fieldRD b)).toNat))

/-- 04 R78, R86: BR and JR write the link and jump inside the loaded forme; NOP has no effect; YIELD has none in class 0, and
in classes 1 to 3 it ends the turn, the strand READY at the tail of its class queue. -/
def Obligations.BranchesAndYield : Prop :=
  ∀ (n : Fin 320) (b : BitVec 26) (s u : State), Issues n 1 1 s u → getP (getS u n) (fieldG b) = true →
    let t := getS u n
    let link (target : BitVec 17) (r : State) : Prop :=
      Issued 1 t (getS r n) (regAfter t (fieldRD b) ((t.pc + 1).setWidth 32)) (getP t) target ∧ OnlyStrand n u r
    (bits b.toNat 17 3 = 0 → (t.pc + b.truncate 17).toNat < u.cap.formeWords → Gives (.br n b) s (link (t.pc + b.truncate 17))) ∧
    (bits b.toNat 0 16 = 0 → ((getW t (fieldRA b)).truncate 17).toNat < u.cap.formeWords →
      Gives (.jr n b) s (link ((getW t (fieldRA b)).truncate 17))) ∧
    (bits b.toNat 0 24 = 0 →
      Gives (.nop n (1#6 ++ b)) s (OwnStep n 1 1 (getW t) (getP t) u) ∧
      (t.cls = 0 → Gives (.yield n b) s (OwnStep n 1 1 (getW t) (getP t) u)) ∧
      (t.cls ≠ 0 → Gives (.yield n b) s fun r =>
        (getS r n).st = .ready ∧ (getS r n).pc = t.pc + 1 ∧ (∀ i, getW (getS r n) i = getW t i) ∧ r.cap.running = none ∧
        (∀ m, m ≠ n → getS r m = getS u m) ∧
        (t.cls = 1 → r.cap.q1 = u.cap.q1.filter (· ≠ n) ++ [n]) ∧ (t.cls = 2 → r.cap.q2 = u.cap.q2.filter (· ≠ n) ++ [n]) ∧
        (t.cls = 3 → r.cap.q3 = u.cap.q3.filter (· ≠ n) ++ [n])))

/-- 03 R44, 04 R86: WAIT takes the lowest selected slot that is pending, the timer last: w1 holds its number and its pending
bit clears. With none pending the strand leaves the engine WAITING. -/
def Obligations.WaitTakesTheLowestSlot : Prop :=
  ∀ (n : Fin 320) (b : BitVec 26) (s u : State), Issues n 1 1 s u → getP (getS u n) (fieldG b) = true →
    bits b.toNat 9 15 = 0 → fieldMask b ≠ 0 →
    let t := getS u n
    let ready (i : Nat) : Bool := (fieldMask b).getLsbD i && (if i = 8 then t.timerFired else t.pending.getLsbD i)
    (∀ i, i ≤ 8 → ready i = true → (∀ j, j < i → ready j = false) →
      Gives (.wait n b) s fun r =>
        getW (getS r n) 1 = BitVec.ofNat 32 i ∧ (∀ j : Fin 16, j ≠ 1 → getW (getS r n) j = getW t j) ∧
        (∀ j, j < 8 → (getS r n).pending.getLsbD j = (t.pending.getLsbD j && decide (j ≠ i))) ∧
        (getS r n).timerFired = (t.timerFired && decide (i ≠ 8)) ∧ (getS r n).pc = t.pc + 1 ∧
        (getS r n).subOn = t.sub ∧ (getS r n).enOn = t.en ∧
        (t.cls = 0 → (getS r n).st = .ready ∧ (getS r n).used = 0)) ∧
    ((∀ i, i ≤ 8 → ready i = false) →
      Gives (.wait n b) s fun r =>
        (getS r n).st = .waiting ∧ (getS r n).waitMask = some (fieldMask b) ∧ (getS r n).pc = t.pc + 1 ∧
        (∀ j, getW (getS r n) j = getW t j) ∧ r.cap.running = none ∧ ∀ m, m ≠ n → getS r m = getS u m)

/-- 03 R43, R44, 04 R88: an event sets the pending bit of every enabled slot that names it, in every strand that is not
DISABLED; a strand whose WAIT selects such a slot becomes READY; an unresolved galley that waits for the event resolves, to
a lock-up when the outcome word's low 14 bits equal EXP and to a pie otherwise; and nothing else changes. A number that 06 R112
does not list is never raised, and an event that firmware raises waits while a service pause runs. -/
def Obligations.EventsReachStrands : Prop :=
  ∀ (ev : BitVec 8) (word : Word) (s : State),
  (listedEvent ev.toNat = false → Gives (.galleyResolve ev word) s (· = s)) ∧
  (firmwareEvent ev.toNat = true → s.sys.pause = true → Gives (.galleyResolve ev word) s
    (· = s.updSys fun y => { y with pausedEvents := y.pausedEvents ++ [(ev, word)] })) ∧
  (listedEvent ev.toNat = true → firmwareEvent ev.toNat = false ∨ s.sys.pause = false →
  Gives (.galleyResolve ev word) s fun t =>
    t = s.updCap (fun _ => t.cap) ∧ EventCap s.cap t.cap ∧
    ∀ m : Fin 320,
      ((getS s m).st ≠ .disabled → ∀ i : Fin 8, (getS t m).pending.getLsbD i =
        ((getS s m).pending.getLsbD i || ((getS s m).enOn.getLsbD i && (getS s m).subOn.get i == ev))) ∧
      ((getS s m).st = .disabled → (getS t m).pending = (getS s m).pending) ∧
      (∀ k : BitVec 9, (getS s m).st = .waiting → (getS s m).waitMask = some k →
        (∃ i : Fin 8, k.getLsbD i = true ∧ (getS s m).enOn.getLsbD i = true ∧ (getS s m).subOn.get i = ev) →
        (getS t m).st = .ready) ∧
      ∀ g, (getS s m).galley = some g → g.resolved = none → g.call = none →
        (g.ev ≠ ev → (getS t m).galley = some g) ∧
        (g.ev = ev → (getS t m).galley = some { g with
          resolved := some (if word.truncate 14 = g.exp then .lockUp else .pie word), back := (getS s m).st }))

/-- 04 R80, R81, R87: GET writes the port's value to its register, a GET of STORE_READ leaves the strand BLOCKED; a PUT
executes at once, or is held in the galley when it is outward and the strand is speculative; PUTS executes at once whatever
the strand's state. `putNow` and `putsNow` are the port writes that the commands of the ports perform. -/
def Obligations.PortInstructions : Prop :=
  ∀ (n : Fin 320) (b : BitVec 26) (s u : State), Issues n 1 1 s u → getP (getS u n) (fieldG b) = true → fieldPDp b = 0 →
    let t := getS u n
    let p := fieldPort b
    (fieldMp b = 0 → getFaults p = false →
      (∀ v, p ≠ 0xD00 → portGet n p (getW t (fieldRA b)) u = some v →
        Gives (.get n b) s (OwnStep n 1 1 (regAfter t (fieldRD b) (BitVec.ofNat 32 v)) (getP t) u)) ∧
      (p ≠ 0xD00 → portGet n p (getW t (fieldRA b)) u = none → Gives (.get n b) s fun r =>
        (getS r n).pc = t.pc + 1 ∧ ∀ j, j ≠ fieldRD b → getW (getS r n) j = getW t j) ∧
      (p = 0xD00 → Gives (.get n b) s fun r =>
        (getS r n).st = .blocked ∧ (getS r n).block = some (.storeRead (fieldRD b).val (getW t (fieldRA b))) ∧
        (getS r n).pc = t.pc + 1 ∧ r.cap.running = none)) ∧
    (¬(t.cls = 0 ∧ t.hmax < t.used + 2) → fieldMp b ≤ 1 → putFaults p = false →
      let x : Word × Word :=
        if fieldMp b = 1 then (BitVec.ofNat 32 (bits b.toNat 16 8), 0) else (getW t (fieldRD b), getW t (fieldRA b))
      let v := portLimit p x.2 x.1 u
      (putHeld n p x.2 v u = false → Gives (.put n b) s fun r => r = putNow n p x.2 v (modS n (Strand.advance 1 2) u)) ∧
      (putHeld n p x.2 v u = true → entryFree n u = true → Gives (.put n b) s fun r =>
        OnlyStrand n u r ∧ (getS r n).pc = t.pc + 1 ∧ (∀ i, getW (getS r n) i = getW t i) ∧
        heldOf r n = heldOf u n ++ [{ kind := .port p x.2 (BitVec.ofNat 32 v) }]) ∧
      Gives (.puts n b) s fun r => r = putsNow n p x.2 v (modS n (Strand.advance 1 2) u)) ∧
    -- 04 R79, R81: which writes are held
    (∀ arg v, putHeld n p arg v u = true → speculative u n = true ∧ ∃ i, portInfo p = some i ∧
      (i.cls = .outward ∨ i.cls = .byRule ∧ v ≠ putsValue n p arg v u)) ∧
    ∀ arg v, (∃ i, portInfo p = some i ∧ i.puts = .lower) → putsValue n p arg v u = min (portRead n p arg u) v

/-- 04 R83: outside a galley ENQ and ENQW append an item to the queue that has room, DEQ and DEQW take its head item, and PD
says whether; an item of type 0xF appends nothing; a full or empty queue refuses ENQ and DEQ and blocks ENQW and DEQW. -/
def Obligations.QueueInstructions : Prop :=
  ∀ (n : Fin 320) (b : BitVec 26) (q : Fin 64) (s u : State), Issues n 1 1 s u → getP (getS u n) (fieldG b) = true →
    fieldMp b = 0 → fieldRA b = 0 → queuePort (fieldPort b) = some q → (getS u n).galley = none → (getQ u q).taker = none →
    let t := getS u n
    let item := getW t (fieldRD b)
    let pd := fieldPDp b
    let frame (r : State) : Prop := (∀ q', q' ≠ q → getQ r q' = getQ u q') ∧ r.cap.caseMem = u.cap.caseMem ∧
      (∀ m, m ≠ n → EventStrand (getS u m) (getS r m)) ∧ (getS r n).pc = t.pc + 1
    let done (ok : Bool) (items : List Word) (w : Fin 16 → Word) (r : State) : Prop :=
      (getQ r q).items = items ∧ (∀ i, getW (getS r n) i = w i) ∧ (∀ i, getP (getS r n) i = predAfter t pd ok i) ∧ frame r
    let stops (why : Block) (r : State) : Prop := (getS r n).st = .blocked ∧ (getS r n).block = some why ∧
      r.cap.running = none ∧ (getQ r q).items = (getQ u q).items ∧ frame r
    let old := (getQ u q).items
    (itemType item = 0xF → Gives (.enq n b) s (done true old (getW t)) ∧ Gives (.enqw n b) s (done true old (getW t))) ∧
    (itemType item ≠ 0xF →
      (0 < qRoom u q → Gives (.enq n b) s (done true (old ++ [item]) (getW t)) ∧
        Gives (.enqw n b) s (done true (old ++ [item]) (getW t))) ∧
      (qRoom u q = 0 → Gives (.enq n b) s (done false old (getW t)) ∧ Gives (.enqw n b) s (stops (.enqw q item pd.val)))) ∧
    (old = [] → Gives (.deq n b) s (done false [] (regAfter t (fieldRD b) 0xF0000000#32)) ∧
      Gives (.deqw n b) s (stops (.deqw q (fieldRD b).val pd.val))) ∧
    (∀ x rest, old = x :: rest → Gives (.deq n b) s (done true rest (regAfter t (fieldRD b) x)) ∧
      Gives (.deqw n b) s (done true rest (regAfter t (fieldRD b) x)))

/-- 04 R84 to R87: SVC issues its call with w2 to w6 and blocks; SVCA issues it and goes on, but for a fifth one outstanding;
SIG raises its event; while speculative the outward ones are held, and nothing but the strand changes. -/
def Obligations.ServiceInstructions : Prop :=
  ∀ (n : Fin 320) (b : BitVec 26) (s u : State), Issues n 1 1 s u → getP (getS u n) (fieldG b) = true → fieldM b = 0 →
    let t := getS u n
    let args : List Word := [getW t 2, getW t 3, getW t 4, getW t 5, getW t 6]
    let o := (getW t 7).toNat - (getW t 7).toNat % 16
    let holds (k : HeldKind) (r : State) : Prop := (∀ m, m ≠ n → getS r m = getS u m) ∧ r.cap.calls = u.cap.calls ∧
      heldOf r n = heldOf u n ++ [{ kind := k }] ∧ (getS r n).pc = t.pc + 1
    let issues (async : Option (BitVec 8 × Nat)) (r : State) : Prop :=
      (∃ k : Call, r.cap.calls = u.cap.calls ++ [k] ∧ k.id = u.cap.nextCall ∧ k.strand = n ∧ k.num = fieldImm b ∧
        k.args = args ∧ k.async = async ∧ k.done = none) ∧
      r.cap.nextCall = u.cap.nextCall + 1 ∧ (∀ m, m ≠ n → getS r m = getS u m) ∧ (∀ i, getW (getS r n) i = getW t i)
    (fieldRD b = 0 → fieldRA b = 0 → (serviceClass (fieldImm b)).isSome = true →
      (callHeld n b u = false → Gives (.svc n b) s fun r => issues none r ∧ (getS r n).st = .blocked ∧
        (getS r n).block = some (.svc u.cap.nextCall) ∧ (getS r n).pc = t.pc + 1) ∧
      (callHeld n b u = true → entryFree n u = true → Gives (.svc n b) s fun r =>
        holds (.svc (fieldImm b) args) r ∧ (getS r n).st = .blocked)) ∧
    (0x80 ≤ (fieldEvSvca b).toNat → (fieldEvSvca b).toNat ≤ 0xBF → (serviceClass (fieldImm b)).isSome = true →
      o + 16 ≤ windowBytes t →
      (callHeld n b u = false → outstanding n u < 4 → Gives (.svca n b) s fun r =>
        issues (some (fieldEvSvca b, 64 * t.winBase + o)) r ∧ (getS r n).st = t.st ∧ (getS r n).pc = t.pc + 1) ∧
      (callHeld n b u = false → 4 ≤ outstanding n u → Gives (.svca n b) s fun r =>
        r.cap.calls = u.cap.calls ∧ (getS r n).st = .blocked ∧ (getS r n).pc = t.pc) ∧
      (callHeld n b u = true → entryFree n u = true → Gives (.svca n b) s
        (holds (.svca (fieldImm b) args (fieldEvSvca b) (64 * t.winBase + o) o)))) ∧
    (fieldRA b = 0 → bits b.toNat 8 6 = 0 → 0xC0 ≤ bits b.toNat 0 8 →
      (speculative u n = false → Gives (.sig n b) s fun r =>
        r = raiseHw (bits b.toNat 0 8) (getW t (fieldRD b)).toNat (modS n (Strand.advance 1 1) u)) ∧
      (speculative u n = true → entryFree n u = true → Gives (.sig n b) s
        (holds (.sig (BitVec.ofNat 8 (bits b.toNat 0 8)) (getW t (fieldRD b))))))

/-- 04 R77, R87, R88, R97: GSET, of a strand that is not speculative and with a timeout, completes: it opens a galley with the
checkpoint of the registers and predicates, its fields and its timeout, and nothing held; an SVCA call on its event that no GSET
has used ties the galley to that call, and without one nothing but the strand changes. ACC completes, whatever the strand's
state, given an entry where it needs one: it adds its pair to the ledger accumulator, or, while speculative, to the sum the
galley holds. -/
def Obligations.GalleyOpensAndAccumulates : Prop :=
  ∀ (n : Fin 320) (b : BitVec 26) (s u : State), Issues n 1 1 s u → getP (getS u n) (fieldG b) = true →
    let t := getS u n
    (∀ w1 : Word, t.pc.toNat + 2 ≤ u.cap.formeWords → fieldTmo w1 ≠ 0 → t.galley = none →
      let calls : List Call :=
        if 0x80 ≤ (fieldEvGset b).toNat ∧ (fieldEvGset b).toNat ≤ 0xBF then unusedCalls n (fieldEvGset b) u else []
      Gives (.gset n b w1) s fun r =>
        (getS r n).pc = t.pc + 2 ∧ (∀ i, getW (getS r n) i = getW t i) ∧ (∀ i, getP (getS r n) i = getP t i) ∧
        (∀ m, m ≠ n → getS r m = getS u m) ∧
        (∃ g, (getS r n).galley = some g ∧ g.ckW = t.w ∧ g.ckP = t.p ∧ g.ev = fieldEvGset b ∧ g.exp = fieldExp b ∧
          g.pd = (fieldPDg b).val ∧ g.alt = fieldAlt w1 ∧ g.tmoEnd = u.sys.usec + 1000 * fieldTmo w1 ∧ g.held = [] ∧
          g.call = calls.getLast?.map (·.id) ∧ g.limit = if t.cls = 0 then min 16 ((t.hmax - 1) / 2) else 16) ∧
        (calls = [] → OnlyStrand n u r ∧ speculative r n = true)) ∧
    (fieldM b = 0 → fieldRD b = 0 → (fieldRA b).val % 2 = 0 → fieldImm b < 3 →
      let x := getX t (fieldRA b)
      (speculative u n = false → Gives (.acc n b) s fun r =>
        (∀ j : Fin 3, r.led.acc.get j = if j.val = fieldImm b then (u.led.acc.get j + x.toNat) % 2 ^ 64 else u.led.acc.get j) ∧
        r = (modS n (Strand.advance 1 1) u).updLed (fun l => { l with acc := r.led.acc, accSeen := true })) ∧
      (speculative u n = true → hasAcc (fieldImm b) (heldOf u n) = false → entryFree n u = true →
        Gives (.acc n b) s fun r => OnlyStrand n u r ∧ (getS r n).pc = t.pc + 1 ∧
          heldOf r n = heldOf u n ++ [{ kind := .acc (fieldImm b) x }]) ∧
      (speculative u n = true → hasAcc (fieldImm b) (heldOf u n) = true →
        Gives (.acc n b) s fun r => OnlyStrand n u r ∧ (getS r n).pc = t.pc + 1 ∧
          (heldOf r n).length = (heldOf u n).length))

/-- 03 R57, 04 R68, R89: an instruction that meets a fault stops its strand FAULTED with the code in ST_INFO.FAULT, its
registers, predicates and program counter as they stood, its galley pied; CAP_FAULT names it. With FB_EN = 1 the
FALLBACK_PUT executes before the report. -/
def Obligations.StrandFaultsStopTheStrand : Prop :=
  ∀ (n : Fin 320) (b : BitVec 26) (s u : State), Issues n 1 1 s u → Memory.wf u = true →
    (getS u n).st ≠ .disabled → (getS u n).st ≠ .faulted →
    let t := getS u n
    let faults (code : Nat) (r : State) : Prop :=
      (t.fbEn = true → r = spendRestarts n (faultReport n code
        (putNow n t.fbPort 0 (portLimit t.fbPort 0 (BitVec.ofNat 32 t.fbValue) (faultStop n code u)) (faultStop n code u)))) ∧
      (t.fbEn = false → (getS r n).st = .faulted ∧ (getS r n).fault = code ∧ (getS r n).w = t.w ∧ (getS r n).p = t.p ∧
        (getS r n).pc = t.pc ∧ (getS r n).galley = none ∧ r.cap.running = none ∧ r.cap.caseMem = u.cap.caseMem ∧
        getF r Reg.CAP_FAULT_LAST_STRAND = n.val ∧ getF r Reg.CAP_FAULT_LAST_CODE = code)
    (illA b = true → Gives (.add n b) s (faults 0xA2) ∧ Gives (.add64 n b) s (faults 0xA2)) ∧
    (illA b = false → (fieldRD b).val % 2 = 1 → Gives (.mulu64 n b) s (faults 0xA6)) ∧
    (fieldMp b = 0 → fieldPDp b = 0 → getFaults (fieldPort b) = true → Gives (.get n b) s (faults 0xA3)) ∧
    (bits b.toNat 14 10 = 0 → (serviceClass (fieldImm b)).isNone = true → Gives (.svc n b) s (faults 0xA7)) ∧
    (getP t (fieldG b) = true →
      (bits b.toNat 17 3 = 0 → u.cap.formeWords ≤ (t.pc + b.truncate 17).toNat → Gives (.br n b) s (faults 0xA5)) ∧
      (fieldM b = 0 →
        (let a := (getW t (fieldRA b) + (b.truncate 14).signExtend 32).toNat
         windowBytes t < a - a % 4 + 4 → Gives (.ld n b) s (faults 0xA4) ∧ Gives (.st n b) s (faults 0xA4))) ∧
      ∀ w1 : Word, t.galley.isSome = true → fieldTmo w1 ≠ 0 → t.pc.toNat + 2 ≤ u.cap.formeWords →
        Gives (.gset n b w1) s (faults 0xA1))

/-- 03 R47, R48: a class-0 strand at the head of those woken gets the engine when no strand runs or one of classes 1 to 3
does; the strand it cuts in on is kept, with its unused turn, and resumes when class 0 has nothing READY. A running class-0
strand keeps the engine. -/
def Obligations.ClassZeroGoesFirst : Prop :=
  ∀ (n : Fin 320) (s : State), fCap s ≠ 0 →
    (∀ rest, s.cap.q0 = n :: rest → s.cap.running = none →
      ∃ u, grant n s = some u ∧ u.cap.q0 = rest ∧ (getS u n).st = .running ∧ u.cap.interrupted = s.cap.interrupted) ∧
    (∀ rest r, s.cap.q0 = n :: rest → s.cap.running = some r → (getS s r).cls ≠ 0 → (getS s r).turnLeft ≠ 0 →
      (∃ u, grant n s = some u ∧ u.cap.q0 = rest ∧ (getS u n).st = .running ∧ u.cap.interrupted = some r ∧
        (r ≠ n → getS u r = getS s r)) ∧ (r ≠ n → grant r s = none)) ∧
    (∀ r, s.cap.running = some r → (getS s r).cls = 0 → (grant n s).isSome = decide (n = r)) ∧
    (s.cap.running = none → s.cap.q0 = [] → s.cap.interrupted = some n →
      ∃ u, grant n s = some u ∧ u.cap.running = some n ∧ u.cap.interrupted = none ∧ getS u n = getS s n)

/-- 03 R42, R44, R46, R50, R56, R65: the budget fault, an error of the strand's own storage, the end of a turn, a timer that
expires, a breakpoint. -/
def Obligations.SchedulerCommands : Prop :=
  ∀ (n : Fin 320) (s : State),
    (∀ u, grant n s = some u → (getS u n).cls = 0 → (getS u n).st = .running → (getS u n).fbEn = false →
      (getS u n).hmax < (getS u n).used + cyclesOf (opcodeOf (mapGet 0 u.cap.prog (getS u n).pc.toNat)) →
      Gives (.capHmaxExceeded (.hmax n)) s fun t => (getS t n).st = .faulted ∧ (getS t n).fault = 0xA0 ∧
        (getS t n).w = (getS u n).w ∧ (getS t n).pc = (getS u n).pc ∧ t.cap.running = none) ∧
    (domainOn 7 s = true → (getS s n).st ≠ .disabled → (getS s n).st ≠ .faulted → (getS s n).fbEn = false →
      Gives (.capHmaxExceeded (.context n)) s fun t => (getS t n).st = .faulted ∧ (getS t n).fault = 0xA8 ∧
        (getS t n).w = (getS s n).w ∧ (getS t n).pc = (getS s n).pc) ∧
    (s.cap.running = some n → (getS s n).cls ≠ 0 → (getS s n).turnLeft = 0 →
      Gives (.turnEnd n) s fun t => (getS t n).st = .ready ∧ t.cap.running = none ∧ t.cap.q0 = s.cap.q0.filter (· ≠ n) ∧
        ((getS s n).cls = 1 → t.cap.q1 = s.cap.q1.filter (· ≠ n) ++ [n]) ∧
        ((getS s n).cls = 2 → t.cap.q2 = s.cap.q2.filter (· ≠ n) ++ [n]) ∧
        ((getS s n).cls = 3 → t.cap.q3 = s.cap.q3.filter (· ≠ n) ++ [n]) ∧ ∀ m, m ≠ n → getS t m = getS s m) ∧
    ((getS s n).timerEnd.isSome = true → Gives (.strandTimerExpiry n) s fun t =>
      (getS t n).timerEnd = none ∧ (getS t n).timerFired = true ∧ (∀ m, m ≠ n → getS t m = getS s m) ∧
      ∀ k : BitVec 9, (getS s n).st = .waiting → (getS s n).waitMask = some k → k.getLsbD 8 = true → (getS t n).st = .ready) ∧
    (∀ u, grant n s = some u → atBreakpoint n u = true → (getS u n).st = .running → Gives (.breakpointHit n) s fun t =>
        (getS t n).st = .halted ∧ (getS t n).prev = .running ∧ (getS t n).pc = (getS u n).pc ∧ (getS t n).w = (getS u n).w ∧
        t.cap.running = none)

/-- 05 R98 to R104: a lock-up that holds one unit's bytes writes them to case memory, sets PD and closes the galley, a fenced
operation is dropped and counted, and registers stay; a pie restores the checkpoint, puts the outcome word in w1, clears PD
and goes to ALT, case memory untouched; a timeout makes a pie with 0xFFFF_FFFF pending, which a HALTED strand keeps for its
RESUME; an entry that is freed is kept for the strand that stalled first. -/
def Obligations.GalleysLockUpOrPie : Prop :=
  ∀ (n : Fin 320) (s : State),
    (∀ u g, grant n s = some u → (getS u n).galley = some g → g.committed = false → g.back = .running →
      (getS u n).waitMask = none → g.resolved = some .lockUp → Memory.wf u = true → 2 ≤ (getS u n).turnLeft → u.cap.q0 = [] →
      (∀ k m f c, g.held = [⟨.unit k m, f, c⟩] → risingFrom 0 m = true → Gives (.lockUp n) s fun t =>
        (getS t n).galley = none ∧ (getS t n).w = (getS u n).w ∧ (getS t n).pc = (getS u n).pc ∧
        (∀ i, getP (getS t n) i = predAfter (getS u n) (Fin.ofNat 4 g.pd) true i) ∧
        ∀ x, byteAt 0 t.cap.caseMem x =
          if 64 * (getS u n).winBase + 64 * k ≤ x
          then mapGet (byteAt 0 u.cap.caseMem x) m (x - (64 * (getS u n).winBase + 64 * k)) else byteAt 0 u.cap.caseMem x) ∧
      (∀ p a v c, g.held = [⟨.port p a v, true, c⟩] → g.fenced = 0 → Gives (.lockUp n) s fun t =>
        (getS t n).galley = none ∧ (getS t n).lastGal = 0x101 ∧ (getS t n).w = (getS u n).w ∧
        t.cap.caseMem = u.cap.caseMem ∧ t.sw = u.sw ∧ t.pilot = u.pilot ∧ t.sup = u.sup)) ∧
    (∀ u g w, grant n s = some u → (getS u n).galley = some g → g.resolved = some (.pie w) →
      Gives (.pie n) s fun t => (getS t n).galley = none ∧ getW (getS t n) 1 = w ∧
        (∀ i : Fin 16, i ≠ 1 → i ≠ 0 → getW (getS t n) i = g.ckW.get i) ∧
        (∀ i : Fin 4, i ≠ 0 → getP (getS t n) i = if i = Fin.ofNat 4 g.pd then false else g.ckP.getLsbD i.val) ∧
        (getS t n).pc = g.alt ∧ t.cap.caseMem = u.cap.caseMem ∧ ∀ m, m ≠ n → getS t m = getS u m) ∧
    (∀ g, (getS s n).galley = some g → g.resolved = none →
      Gives (.galleyTimeout n) s fun t => (getS t n).galley = some { g with resolved := some .timeout, back := (getS s n).st } ∧
        t.cap.caseMem = s.cap.caseMem ∧ (getS t n).w = (getS s n).w ∧ (getS t n).pc = (getS s n).pc ∧
        ((getS s n).st = .halted → (getS t n).st = .halted) ∧
        ((getS s n).st ≠ .halted → (getS s n).st ≠ .disabled → (getS s n).st ≠ .faulted → (getS t n).st = .ready)) ∧
    (∀ rest, s.cap.stalled = n :: rest → entryFree n s = true → Gives .galleyEntryFreed s fun t =>
      ((getS s n).st ≠ .halted → (getS t n).st = .ready) ∧ (getS t n).reserved = true ∧ (getS t n).pc = (getS s n).pc ∧
      (getS t n).galley = (getS s n).galley ∧ t.cap.stalled = rest.filter (· ≠ n))

/-- 04 R80, R83 to R85, R88: what a BLOCKED strand waited for completes: results to w1 and on, or to the result block in case
memory with the completion event, or to the register and predicate of the queue wait or the store read. -/
def Obligations.CompletionsWakeTheStrand : Prop :=
  ∀ (n : Fin 320) (s : State),
    (∀ id call word rets, s.sys.pause = false → (getS s n).st = .blocked → (getS s n).block = some (.svc id) →
      s.cap.calls.find? (·.id == id) = some call → call.done = some (word, rets) → rets.length ≤ 4 →
      Gives (.svcComplete n) s fun t => (getS t n).st = .ready ∧ (getS t n).block = none ∧ getW (getS t n) 1 = word ∧
        (∀ i v, rets[i]? = some v → getW (getS t n) (Fin.ofNat 16 (2 + i)) = v) ∧
        (∀ i : Fin 16, i = 0 ∨ 2 + rets.length ≤ i.val → getW (getS t n) i = getW (getS s n) i) ∧
        t.cap.calls = s.cap.calls.filter (·.id != id) ∧ ∀ m, m ≠ n → getS t m = getS s m) ∧
    (∀ call ev blk word rets, s.sys.pause = false → Memory.wf s = true →
      s.cap.calls.find? (fun k => k.strand == n && k.async.isSome && k.done.isSome && !k.delivered) = some call →
      call.async = some (ev, blk) → call.done = some (word, rets) →
      Gives (.svcaComplete n) s fun t =>
        (∀ i, i < 4 → byteAt 0 t.cap.caseMem (blk + i) = BitVec.ofNat 8 (word.toNat / 256 ^ i)) ∧
        (∀ x, x < blk ∨ blk + 16 ≤ x → byteAt 0 t.cap.caseMem x = byteAt 0 s.cap.caseMem x) ∧
        ∀ m i, (getS s m).st ≠ .disabled → (hitMask ev (getS s m)).getLsbD i = true → (getS t m).pending.getLsbD i = true) ∧
    (∀ q item pd, (getS s n).st = .blocked → (getS s n).block = some (.enqw q item pd) → 0 < qRoom s q →
      Gives (.queueWaitComplete n) s fun t => (getQ t q).items = (getQ s q).items ++ [item] ∧ (getS t n).st = .ready ∧
        getP (getS t n) (Fin.ofNat 4 pd) = true ∧ ∀ q', q' ≠ q → getQ t q' = getQ s q') ∧
    (∀ q rd pd item rest, (getS s n).st = .blocked → (getS s n).block = some (.deqw q rd pd) → (getS s n).galley = none →
      (getQ s q).taker = none → (getQ s q).items = item :: rest → Fin.ofNat 16 rd ≠ 0 →
      Gives (.queueWaitComplete n) s fun t => (getQ t q).items = rest ∧ (getS t n).st = .ready ∧
        getW (getS t n) (Fin.ofNat 16 rd) = item ∧ getP (getS t n) (Fin.ofNat 4 pd) = true) ∧
    (∀ rd addr, (getS s n).st = .blocked → (getS s n).block = some (.storeRead rd addr) →
      Gives (.storeReadComplete n) s fun t => (getS t n).st = .ready ∧
        (∀ i, getW (getS t n) i = regAfter (getS s n) (Fin.ofNat 16 rd) (storeReadWord addr s) i) ∧
        ∀ m, m ≠ n → getS t m = getS s m)

/-- 03 R42, R49, R63, R65: the strand commands of the host and of the debug port. -/
def Obligations.StrandCommands : Prop :=
  ∀ (n : Fin 320) (s : State), Memory.wf s = true → (s.sys.role = .standalone ∨ s.sys.role = .hub) →
    let k : BitVec 9 := BitVec.ofNat 9 n.val
    (HostServes Reg.CAP_STRAND_CMD_CMD.addr s →
      (((getS s n).st = .disabled ∨ (getS s n).st = .faulted) → ((getS s n).cls = 0 → (getS s n).fbEn = true) →
        let starts (t : State) : Prop := Answered 0 t ∧ (getS t n).st = .ready ∧ (∀ i, getW (getS t n) i = 0) ∧
          (getS t n).p = 1 ∧ (getS t n).pc = (getS s n).entry ∧ (getS t n).pending = 0 ∧ (getS t n).fault = 0 ∧
          t.cap.caseMem = s.cap.caseMem ∧ ∀ m, m ≠ n → getS t m = getS s m
        Gives (.enable k) s starts ∧ Gives (.restart k) s starts) ∧
      ((getS s n).st ≠ .disabled → ((getS s n).cls = 0 → sessionActive s = false) →
        Gives (.disable k) s fun t => Answered 0 t ∧ (getS t n).st = .disabled ∧ (getS t n).pending = 0 ∧
          (getS t n).galley = none ∧ t.cap.caseMem = s.cap.caseMem ∧ ∀ m, m ≠ n → getS t m = getS s m) ∧
      ((getS s n).cls = 0 → sessionActive s = true →
        Gives (.disable k) s fun t => Answered 5 t ∧ t.cap = s.cap)) ∧
    (HostServes Reg.CAP_DBG_CMD_CMD.addr s →
      (installer s = false → Gives (.halt k) s fun t => Answered 4 t ∧ t.cap = s.cap) ∧
      (installer s = true → (getS s n).cls ≠ 0 →
        ((getS s n).st = .waiting → Gives (.halt k) s fun t => Answered 0 t ∧ (getS t n).st = .halted ∧
          (getS t n).prev = .waiting ∧ (getS t n).w = (getS s n).w ∧ ∀ m, m ≠ n → getS t m = getS s m) ∧
        ((getS s n).st = .halted → (getS s n).prev = .ready → (getS s n).galley = none →
          (Gives (.resume k) s fun t => Answered 0 t ∧ (getS t n).st = .ready ∧ (getS t n).w = (getS s n).w ∧
            (getS t n).pc = (getS s n).pc ∧ ∀ m, m ≠ n → getS t m = getS s m) ∧
          (∀ b : BitVec 26, (getS s n).waitMask = none → opcodeOf (mapGet 0 s.cap.prog (getS s n).pc.toNat) = 0x02 →
            bodyOf (mapGet 0 s.cap.prog (getS s n).pc.toNat) = b → illA b = false → getP (getS s n) (fieldG b) = true →
            (getS s n).pc.toNat + 1 ≤ s.cap.formeWords →
            Gives (.step k) s fun t => Answered 0 t ∧ (getS t n).st = .halted ∧ (getS t n).pc = (getS s n).pc + 1 ∧
              ∀ i, getW (getS t n) i =
                regAfter (getS s n) (fieldRD b) (getW (getS s n) (fieldRA b) + getW (getS s n) (fieldRB b)) i))))

/-- 09 R186, R192: a trip for a cause that is not held opens both contactors at once, stops PWM, clears the arm, puts the pilot
at -12 V, reported as state F, holds the cause, names it in SAFE_LAST and marks it in SEEN. -/
def Obligations.TripsOpenAndHold : Prop :=
  ∀ s : State, Memory.wf s = true → inService s.sys.mode = true → hostUp s = true → s.sys.mode ≠ .standby →
    let tripped (bit : Nat) (t : State) : Prop :=
      holds bit t = true ∧ t.sw.k1 = false ∧ t.sw.k2 = false ∧ t.pilot.pwmReq = false ∧ t.sup.trip3s = true ∧
      getF t Reg.CONT_STATUS_ARMED = 0 ∧ t.pilot.line = .minus12 ∧ getF t Reg.VI_PILOT_STATE = 0xF ∧
      getF t Reg.SAFE_LAST_CAUSE = bit ∧ (getF t Reg.SAFE_STATUS_SEEN).testBit bit = true
    Gives .hostTrip s (tripped 15) ∧
    (∀ n v, Gives (.safeTrip n v) s fun t => tripped 14 t ∧ getF t Reg.SAFE_LAST_FORME_VAL = v.toNat % 256) ∧
    (∀ dc back ac k, holds 0 s = false → testRuns s = false →
      getF s Reg.SAFE_RCM_CFG_DC_TH ≤ dc.toNat → s.sup.cntDc1 = some k →
      10 * getF s Reg.SAFE_RCM_TIME_T1 ≤ 10 * (k + 1) + s.sup.window →
      getF s Reg.SAFE_RCM_AC_AC_TH = 0 → Gives (.rcmUpdate dc back ac) s (tripped 0)) ∧
    (holds 3 s = false → testRuns s = false → Gives .rcmChainUnhealthy s fun t => tripped 3 t ∧ t.sup.chainOk = false) ∧
    (∀ v, getB s Reg.SAFE_PEN_EN = true → holds 4 s = false → 10 * getF s Reg.SAFE_PEN_PEN_TH < v.toNat →
      Gives (.penTrip v) s (tripped 4)) ∧
    (∀ (i : Fin 2) (x : BitVec 16), holds (9 + i.val) s = false → 10 * (tempTrip i s : Int) ≤ x.toInt →
      Gives (.tempTrip i x) s fun t => tripped (9 + i.val) t ∧ t.sup.temps.get i = x.toInt) ∧
    (∀ va vb vc f, holds 11 s = false → getF s Reg.SAFE_SUPPLY_OV < va.toNat → getB s Reg.SAFE_FREQ_EN = false →
      Gives (.supplyTrip va vb vc f) s (tripped 11)) ∧
    (coilOn s = true → holds 13 s = false → Gives .measLost s (tripped 13)) ∧
    (∀ ia ib ic, holds 6 s = false → 3 * threshold s < 2 * ia.toNat → Gives (.overcurrentTrip ia ib ic) s (tripped 6)) ∧
    (∀ k mv, s.pilot.line = .plus12 → holds 5 s = false → plateauBand s.pilot.mon.band mv.toInt = .over →
      filt s ≤ s.pilot.mon.viol.get 0 + 1 → Gives (.pilotAnomaly [⟨k, mv⟩] []) s fun t =>
      tripped 5 t ∧ getF t Reg.VI_PILOT_ANOM = 1 ∧ getF t Reg.VI_PLATEAU_HIGH = mv.toNat)

/-- 09 R187, R190: with the coils off and the supervisor powered, what ends a cause releases it: the cause is no longer held,
no contactor closes and no PWM is asked for. -/
def Obligations.ReleasesEndACause : Prop :=
  ∀ s : State, Memory.wf s = true → coilOn s = false → domainOn 2 s = true →
    let freed (bit : Nat) (t : State) : Prop := holds bit t = false ∧ t.sw.k1 = false ∧ t.sw.k2 = false ∧
      (t.pilot.pwmReq = true → s.pilot.pwmReq = true) ∧
      ∀ b, b < 16 → b ≠ bit → b ≠ 5 → holds b s = true → holds b t = true
    (∀ v : BitVec 16, v.toNat < 8 * getF s Reg.SAFE_PEN_PEN_TH → Gives (.penClear v) s (freed 4)) ∧
    (∀ (i : Fin 2) (x : BitVec 16), x.toInt < 10 * ((tempTrip i s : Int) - getF s Reg.SAFE_TEMP_CTRL_HYST) → -450 ≤ x.toInt →
      x.toInt ≤ 1600 → Gives (.tempClear i x) s fun t => freed (9 + i.val) t ∧ t.sup.temps.get i = x.toInt) ∧
    (∀ va vb vc f, supplyVMet va.toNat vb.toNat vc.toNat s = none → s.sw.stage = .opened → s.sw.reported = true →
      openOk s = true → s.sw.tripWhy ≠ some .dropout → getB s Reg.SAFE_FREQ_EN = true →
      f.toNat < getF s Reg.SAFE_FREQ_LO → phaseLive va.toNat = true → Gives (.supplyClear va vb vc f) s (freed 11)) ∧
    ((∀ k, k < 3 → s.met.lost.getLsbD (4 + k) = false) → Gives .measRestored s (freed 13)) ∧
    (HostServes Reg.SAFE_CLEAR_CLEAR.addr s → hostClears s = true →
      Gives (.safeClear 0x8000#16) s (freed 15) ∧ Gives (.safeClear 0x4000#16) s (freed 14) ∧
      (largestI s ≤ threshold s → Gives (.safeClear 0x0040#16) s (freed 6))) ∧
    (domainOn 7 s = true → threshold s < largestI s → s.sw.tripWhy ≠ some .closeFail →
      ∀ n, speculative s n = false → Gives (.safeReclose n 1) s (freed 14)) ∧
    (HostServes Reg.SAFE_CLEAR_P_WELD.addr s → installer s = true → openOk s = true →
      Gives .safeClearPWeld s (freed 7) ∧ (s.sw.tripWhy = some .mismatch → Gives .safeClearPContactor s (freed 8))) ∧
    (s.sup.pilotWhy = 2 → getF s Reg.VI_PILOT_STATE ≤ 0xD → Gives .pilotShortClear s (freed 5)) ∧
    (holds 6 s = true → getF s Reg.SAFE_RECLOSE_CFG_COUNT < getF s Reg.SAFE_RECLOSE_CFG_N → s.sup.reclOff.getLsbD 6 = false →
      Gives (.recloseTimer 6) s (freed 6)) ∧
    (∀ t, s.sup.tests = [t] → t.step = 4 → t.asks = [] → s.sup.chainOk = false → ∀ d : BitVec 16, d.toNat ≤ 10 →
      Gives (.rcmSelftestResult d true) s fun r => freed 2 r ∧ r.sup.tests = [] ∧ getF r Reg.SAFE_RCM_TEST_RESULT = 1)

/-- 09 R176 to R186: the self-test comes due, takes its steps with the current of FG_TST, fails and repeats; warnings are
announced once; grace times and the 3 s of a trip end. -/
def Obligations.SupervisorTestsAndWarnings : Prop :=
  ∀ s : State, Memory.wf s = true → coilOn s = false → domainOn 7 s = true → domainOn 2 s = true →
    let due (t : State) : Prop := t.sup.tests ≠ []
    let th := getF s Reg.SAFE_RCM_CFG_DC_TH
    Gives .rcmSelftestDaily s due ∧ (∀ n, speculative s n = false → Gives (.safeSelftest n 1) s due) ∧
    (HostServes Reg.SAFE_CTRL_SELFTEST.addr s → Gives .safeCtrlSelftest s fun t => due t ∧ Answered 0 t) ∧
    (∀ p, s.sup.repeatDue = some p → Gives .rcmSelftestRepeat s fun t => t.sup.repeatDue = none ∧
      t.sup.tests = s.sup.tests ++ [{ again := true, plugIn := p }]) ∧
    (∀ x rest, s.sup.tests = x :: rest → openOk s = true → ∀ (dc : BitVec 15) (neg : Bool) (ac : BitVec 16),
      (x.step = 0 → ∀ y, Gives (.rcmSelftest dc neg ac y true true) s fun t => t.sup.tests = { x with step := 1, tier := false } :: rest) ∧
      (x.step = 1 → dc.toNat ≤ 10 → ac.toNat ≤ 20 → Gives (.rcmSelftest dc neg ac true true true) s fun t =>
        t.sup.tests = { x with step := 2, tier := false } :: rest ∧ fgTst t = 12 * th / getF s Reg.SAFE_RCM_TEST_N_T) ∧
      (x.step = 2 → 108 * th ≤ 100 * dc.toNat → 100 * dc.toNat ≤ 132 * th → ∀ y, Gives (.rcmSelftest dc false ac y true true) s fun t =>
        t.sup.tests = { x with step := 3, tier := false } :: rest ∧ fgTst t = 100 * th / getF s Reg.SAFE_RCM_TEST_N_T) ∧
      (x.step = 3 → x.tier = true → ∀ y, Gives (.rcmSelftest dc neg ac y true true) s fun t =>
        t.sup.tests = { x with step := 4, tier := false } :: rest ∧ fgTst t = 0) ∧
      (x.step = 1 → x.again = false → x.asks = [] → rest = [] → Gives (.rcmSelftest dc neg ac false true true) s fun t =>
        t.sup.tests = [] ∧ t.sup.repeatDue = some (x.plugIn || s.sup.repeatDue == some true) ∧
        getF t Reg.SAFE_RCM_TEST_RESULT = 2) ∧
      (x.step = 2 → 0 < th → x.again = false → x.asks = [] → rest = [] → ∀ y, Gives (.rcmSelftest dc true ac y true true) s fun t =>
        t.sup.tests = [] ∧ getF t Reg.SAFE_RCM_TEST_RESULT = 3)) ∧
    (Gives .rcmChainHealthy s fun t => t.sup.chainOk = true ∧ t.regs = s.regs ∧ t.cap = s.cap) ∧
    (s.sup.warned = false →
      inForce s Reg.SAFE_RCM_CFG_WARN_PCT * getF s Reg.SAFE_RCM_CFG_DC_TH ≤ getF s Reg.SAFE_RCM_MEAS_DC * 100 →
      Gives .rcmWarn s fun t => t.sup.warned = true ∧ t.regs = s.regs ∧
        ∀ m i, (getS s m).st ≠ .disabled → (hitMask 0x0A (getS s m)).getLsbD i = true → (getS t m).pending.getLsbD i = true) ∧
    (∀ (i : Fin 2) (x : BitVec 16), s.sup.tempWarned.get i = false → 10 * (tempWarn i s : Int) ≤ x.toInt →
      Gives (.tempWarn i x) s fun t =>
        t.sup.tempWarned.get i = true ∧ t.sup.temps.get i = x.toInt ∧ t.regs = s.regs) ∧
    (∀ ia ib ic : BitVec 16, s.sup.graceOn = true → s.sup.graceWarned = false → thresholdFor s.pilot.alloc s < ia.toNat →
      Gives (.ocGraceMidpoint ia ib ic) s fun t => t.sup.graceWarned = true ∧ t.regs = s.regs) ∧
    (Gives .ocGraceEnd s fun t => t.sup.graceOn = false ∧ threshold t = thresholdFor s.pilot.alloc s ∧ t.regs = s.regs) ∧
    (Gives .tripPilotRelease s fun t => t.sup.trip3s = false) ∧
    (holds 5 s = true → Gives .pilotTripHoldEnd s fun t => t.sup.trip3s = false)

/-- 07 R122 to R134: the monitor's report, the diode pulse, the proximity reading and the socket lock, with the coils off, no
cause held and the supervisor powered; a band counts CP_FILT samples before it is reported. -/
def Obligations.PilotLineAndLock : Prop :=
  ∀ s : State, Memory.wf s = true → coilOn s = false → held s = 0 → s.sup.trip3s = false → domainOn 2 s = true →
    let run (b : Band) : Nat := if s.pilot.mon.band = some b then s.pilot.mon.run + 1 else 1
    (∀ k (high : BitVec 16), s.pilot.line = .plus12 → s.pilot.mon.low = none →
      (plateauBand s.pilot.mon.band high.toInt = .b → filt s ≤ run .b → getF s Reg.VI_PILOT_STATE = 0xA →
        Gives (.pilotStateChange ⟨k, high⟩ []) s fun t => getF t Reg.VI_PLATEAU_HIGH = high.toNat ∧ t.sup.tests ≠ [] ∧
          (pilotLine s = .plus12 → s.pilot.pwmReq = false → getF t Reg.VI_PILOT_STATE = 0xB ∧ t.pilot.diodeDue = true)) ∧
      (plateauBand s.pilot.mon.band high.toInt = .a → filt s ≤ run .a → getF s Reg.VI_PILOT_STATE = 0xB →
        Gives (.pilotStateChange ⟨k, high⟩ []) s fun t =>
          getF t Reg.CONT_STATUS_ARMED = 0 ∧ t.hlc.matched = false ∧ getF t Reg.SAFE_RECLOSE_CFG_COUNT = 0) ∧
      (plateauBand s.pilot.mon.band high.toInt = .b → run .b < filt s →
        Gives (.pilotStateChange ⟨k, high⟩ []) s fun t => getF t Reg.VI_PILOT_STATE = getF s Reg.VI_PILOT_STATE ∧
          t.pilot.mon.band = some .b ∧ t.pilot.mon.run = run .b ∧ t.cap = s.cap)) ∧
    (∀ low : BitVec 16, s.pilot.diodeDue = true → -13500 ≤ low.toInt → low.toInt ≤ -10500 → s.sup.pilotWhy ≠ 3 →
      Gives (.diodeTestPulse low) s fun t => t.pilot.diodeDue = false ∧ getF t Reg.VI_DIODE_RESULT = 1 ∧
        getF t Reg.VI_PLATEAU_LOW = low.toNat) ∧
    (∀ low : BitVec 16, s.pilot.diodeDue = true → -10500 < low.toInt → low.toInt ≤ -1500 → vehicleThere s = true →
      Gives (.diodeTestPulse low) s fun t => getF t Reg.VI_DIODE_RESULT = 2 ∧ holds 5 t = true ∧ getF t Reg.VI_PILOT_ANOM = 3) ∧
    (getB s Reg.VI_CFG_TETHERED = false → s.pilot.ppBand ≠ some 2 →
      Gives (.ppChange [220, 220, 220]) s fun t =>
        t.pilot.ppBand = some 2 ∧ getF t Reg.VI_PP_OHMS = 220 ∧ getF t Reg.VI_PP_CODE = 320) ∧
    (getB s Reg.VI_LOCK_EN = true → domainOn 7 s = true →
      let moves (lock : Bool) (t : State) : Prop := t.pilot.lockDir = some lock ∧ getF t Reg.VI_LOCK_STATE = 2 ∧
        t.pilot.lockPulse = some (s.sys.usec + 1000 * getF s Reg.VI_LOCK_PULSE_MS) ∧
        (s.sys.vsysLow = false → (outCh (if lock then (lockPair s).1 else (lockPair s).2) t).on = true)
      ∀ n, speculative s n = false → Gives (.lockCmd n 1) s (moves true) ∧
        (outletDead s = true → Gives (.lockCmd n 2) s (moves false)) ∧
        (outletDead s = false → Gives (.lockCmd n 2) s fun t => t.pilot = s.pilot ∧ t.regs = s.regs)) ∧
    (∀ lock, s.pilot.lockDir = some lock → s.pilot.lockRetry = false →
      (∀ level, (level == getB s Reg.VI_LOCK_FB_POL) = lock → Gives (.lockFeedbackCheck level) s fun t =>
        t.pilot.lockDir = none ∧ getF t Reg.VI_LOCK_STATE = (if lock then 1 else 0) ∧ t.pilot.lockPulse = none) ∧
      (∀ level, s.sys.mode ≠ .inert → (level == getB s Reg.VI_LOCK_FB_POL) ≠ lock → Gives (.lockFeedbackCheck level) s fun t =>
        t.pilot.lockDir = some lock ∧ t.pilot.lockRetry = true ∧ t.regs = s.regs)) ∧
    (∀ lock, s.pilot.lockDir = some lock → s.pilot.lockRetry = true →
      (∀ level, (level == getB s Reg.VI_LOCK_FB_POL) = lock → Gives (.lockRetry level) s fun t =>
        t.pilot.lockDir = none ∧ getF t Reg.VI_LOCK_STATE = (if lock then 1 else 0)) ∧
      (∀ level, (level == getB s Reg.VI_LOCK_FB_POL) ≠ lock → Gives (.lockRetry level) s fun t =>
        t.pilot.lockDir = none ∧ getF t Reg.VI_LOCK_STATE = 3))

/-- 06 R107 to R111, 07 R125 to R129: the pilot's ports, with the coils off, no disconnect under way and the strand not
speculative; PWM starts at the next rising edge. -/
def Obligations.PilotPorts : Prop :=
  ∀ (n : Fin 320) (s : State), Memory.wf s = true → coilOn s = false → domainOn 7 s = true → s.sw.disc = none →
    speculative s n = false →
    (held s = 0 → Gives (.pilotPwm n 1) s fun t => t.pilot.pwmReq = true ∧
      (pilotLine (s.updPilot fun p => { p with pwmReq := true }) = .pwm → (s.pilot.line ≠ .pwm → t.pilot.line = .plus12) ∧
        (risingEdge t).pilot.line = .pwm ∧ getF (risingEdge t) Reg.VI_PILOT_PWM = 1 ∧
        getF (risingEdge t) Reg.VI_PILOT_DUTY = (if s.pilot.hlcReq then 100 else codedDuty s.pilot.alloc) % 2 ^ 11)) ∧
    (held s ≠ 0 → Gives (.pilotPwm n 1) s fun t => t.pilot = s.pilot ∧ t.sw = s.sw ∧ t.regs = s.regs) ∧
    Gives (.pilotPwm n 0) s (fun t => t.pilot.pwmReq = false ∧ t.pilot.line ≠ .pwm) ∧
    Gives (.pilotStop n 1) s (fun t => t.pilot.pwmReq = false ∧ t.pilot.line ≠ .pwm) ∧
    (held s = 0 → inService s.sys.mode = true → Gives (.pilotF n 1) s fun t => t.pilot.formeF = true ∧ t.pilot.line = .minus12 ∧
      getF t Reg.VI_PILOT_STATE = 0xF) ∧
    (holds 5 s = false → Gives (.pilotRelease n 1) s fun t => t.pilot.formeF = false) ∧
    (holds 5 s = true → Gives (.pilotRelease n 1) s fun t => t.pilot = s.pilot ∧ t.regs = s.regs) ∧
    (holds 5 s = false → Gives (.pilotHlc n 1) s (fun t => t.pilot.hlcReq = true) ∧
      Gives (.pilotHlc n 0) s fun t => t.pilot.hlcReq = false) ∧
    (∀ v : BitVec 32, v.toNat ≤ 800 → Gives (.allocCurrent n v) s fun t =>
      t.pilot.alloc = min (ceiling s) v.toNat ∧
      (min (ceiling s) v.toNat < s.pilot.alloc → t.sup.graceOn = true ∧ t.sup.graceA = s.pilot.alloc)) ∧
    (∀ v : BitVec 32, v.toNat < 8 → Gives (.hlcOffer n v) s fun t =>
      t.hlc.offer = BitVec.ofNat 3 v.toNat ∧ t.pilot = s.pilot ∧ t.regs = s.regs ∧ t.sw = s.sw)

/-- 08 R149 to R154, R156: the contactor pair's sequence from the arm to the feedback of the opening, each step by its own
command. -/
def Obligations.ContactorSequence : Prop :=
  ∀ s : State, Memory.wf s = true → domainOn 7 s = true → domainOn 2 s = true → s.sys.ctrlStop = false →
    (∀ n, speculative s n = false → refusal s = none → Gives (.contCloseReq n 1) s fun t => getF t Reg.CONT_STATUS_ARMED = 1 ∧ t.sw.refused = false) ∧
    (∀ n c, speculative s n = false → refusal s = some c → Gives (.contCloseReq n 1) s fun t => t.sw.refused = true ∧ getF t Reg.CONT_FAULT_REFUSE = c ∧
      getF t Reg.CONT_STATUS_ARMED = getF s Reg.CONT_STATUS_ARMED ∧ t.sw.k1 = s.sw.k1 ∧ t.sw.k2 = s.sw.k2) ∧
    (∀ n, Gives (.contCloseReq n 0) s fun t => getF t Reg.CONT_STATUS_ARMED = 0 ∧ t.sw = s.sw) ∧
    (closeReady s = true → Gives .closeStart s fun t => t.sw.stage = .closing ∧ getF t Reg.CONT_STATUS_ARMED = 0 ∧
      t.sw.duty2 = nextDuty2 s ∧ t.sw.k1 = nextDuty2 s ∧ t.sw.k2 = !nextDuty2 s) ∧
    (s.sw.stage = .closing → closeHolds s = false → Gives .dutyCoilOn s fun t => t.sw.stage = .closing2 ∧
      (if s.sw.duty2 then t.sw.k2 = true ∧ t.sw.k1 = s.sw.k1 else t.sw.k1 = true ∧ t.sw.k2 = s.sw.k2)) ∧
    (∀ live, s.sw.stage = .closing2 → s.sw.mir1 = some true → s.sw.mir2 = some false → Gives (.closeTimeout live) s fun t =>
      t.sw.k1 = false ∧ t.sw.k2 = false ∧ t.sw.tripWhy = some .closeFail ∧ holds 8 t = true ∧
      getF t Reg.CONT_FAULT_CLOSE_FAIL_K1 = 1 ∧ getF t Reg.CONT_FAULT_CLOSE_FAIL_K2 = getF s Reg.CONT_FAULT_CLOSE_FAIL_K2) ∧
    (∀ (live : BitVec 3), s.sw.stage = .closing2 → s.sw.mir1 = some false → s.sw.discAfter = none → (live &&& ~~~s.sw.vl) = 0 →
      Gives (.mirrorChange true false live) s fun t => t.sw.stage = .closed ∧ t.sw.mir2 = some false ∧ t.sw.supply = live) ∧
    (∀ live : BitVec 3, s.sw.stage = .dutyOff → s.sw.k1 ≠ s.sw.k2 → s.sw.mir1 = some false → s.sw.mir2 = some false → Gives (.loadSideChange 0 true live) s fun t =>
      t.sw.vl = s.sw.vl ||| 1 ∧ t.sw.supply = live ∧ t.sw.stage = .dutyOff) ∧
    (∀ n, s.sw.k1 = true → Gives (.contOpen n 1) s fun t => t.sw.k1 = false ∧ t.sw.k2 = false ∧ t.sw.stage = .feedback ∧
      getF t Reg.CONT_STATUS_ARMED = 0 ∧ t.sw.wear1 = satInc 0xFFFFFFFF s.sw.wear1) ∧
    (∀ ia ib ic : BitVec 16, s.sw.stage = .currentWait → 2 ≤ ia.toNat → Gives (.discCurrentWaitEnd ia ib ic) s fun t =>
      t.sw.stage = .opening ∧ t.sw.phaseI = #v[ia.toNat, ib.toNat, ic.toNat] ∧ t.sw.k1 = s.sw.k1 ∧ t.sw.k2 = s.sw.k2) ∧
    (∀ amps : BitVec 16, s.sw.stage = .opening → s.sw.duty2 = true → s.sw.k2 = true → Gives (.dutyCoilOff amps) s fun t =>
      t.sw.stage = .dutyOff ∧ t.sw.k2 = false ∧ t.sw.k1 = s.sw.k1 ∧ getF t Reg.CONT_LASTBRK_K2 = amps.toNat ∧
      t.sw.wear2 = satInc 0xFFFFFFFF s.sw.wear2) ∧
    (s.sw.stage = .dutyOff → Gives .otherCoilOff s fun t => t.sw.stage = .feedback ∧
      (if s.sw.duty2 then t.sw.k1 = false ∧ t.sw.k2 = s.sw.k2 else t.sw.k2 = false ∧ t.sw.k1 = s.sw.k1)) ∧
    (∀ live : BitVec 3, s.sw.stage = .feedback → coilOn s = false → s.sw.mir1 = some true → s.sw.mir2 = some true → s.sw.vl = 0 →
      s.sw.reported = false → Gives (.disconnectFeedback live) s fun t => t.sw.stage = .opened ∧ t.sw.reported = true ∧
        t.sw.disc = none ∧ t.sw.wearDuty = (if s.sw.disc.isSome then !s.sw.wearDuty else s.sw.wearDuty)) ∧
    (∀ d : BitVec 16, 10 ≤ getF s Reg.CONT_LASTBRK_K1 → 20 ≤ d.toNat → d.toNat ≤ 300 → Gives (.openDelayLearn false d) s fun t =>
      t.sw.dly1 = (d.toNat :: s.sw.dly1).take 8 ∧ t.sw.dly2 = s.sw.dly2 ∧ t.regs = s.regs) ∧
    (∀ ia ib ic : BitVec 16, s.sw.k1 = true → s.sw.k2 = true → Gives (.wearMirror ia ib ic) s fun t =>
      t.sw.bsClosed = true ∧ t.sw.bsCurrent = max ia.toNat (max ib.toNat ic.toNat) ∧ t.sw.bsDuty = nextDuty2 s)

/-- 08 R161 to R170: the twelve outputs; in an H-bridge the cells of the partner follow, and nothing else does. -/
def Obligations.ProtectedOutputs : Prop :=
  ∀ (n : Fin 12) (s : State), Memory.wf s = true → domainOn 7 s = true → domainOn 2 s = true →
    let mask : BitVec 32 := BitVec.ofNat 32 (2 ^ n.val)
    let others (t : State) : Prop := ∀ m, m ≠ n → (partner n s ≠ some m → outCh m t = outCh m s) ∧ (outCh m t).on = (outCh m s).on
    (outputsServed s = true → named (coilMask s) n = false → named (lockMask s) n = false →
      (∀ k, speculative s k = false → Gives (.outOn k mask) s fun t => (outCh n t).on = true ∧
        ((outCh n s).on = false → (outCh n t).inrush = true ∧
          (partner n s = none → (outCh n t).high = true ∧ (outCh n t).low = false) ∧
          ∀ m, partner n s = some m → (outCh n t).high = !(outCh m s).on ∧ (outCh n t).low = (outCh m s).on ∧
            (outCh m t).high = false ∧ (outCh m t).low = !(outCh m s).hot) ∧
        (2 < getF s (Reg.OUT_DIAG_CAUSE n.val) → getF t (Reg.OUT_DIAG_CAUSE n.val) = 0) ∧ others t)) ∧
    (∀ k, speculative s k = false → outputsServed s = false → Gives (.outOn k mask) s fun t => t.sw = s.sw ∧ t.regs = s.regs) ∧
    (∀ k, named (coilMask s) n = false → named (lockMask s) n = false → Gives (.outOff k mask) s fun t => (outCh n t).on = false ∧ others t ∧
      t.sw.k1 = s.sw.k1 ∧ t.sw.k2 = s.sw.k2) ∧
    Gives (.inrushEnd n) s (fun t => outCh n t = { outCh n s with inrush := false } ∧ others t ∧ t.regs = s.regs) ∧
    ((outCh n s).on = true →
      Gives (.outputOverload n) s (fun t => (outCh n t).on = false ∧ getF t (Reg.OUT_DIAG_CAUSE n.val) = 3 ∧ others t) ∧
      ((outCh n s).hot = false → (recentRestarts n s).length < getF s Reg.OUT_TIMING_THERM_RETRY →
        Gives (.thermalShutdown n) s fun t => (outCh n t).on = true ∧ (outCh n t).hot = true ∧
          getF t (Reg.OUT_DIAG_CAUSE n.val) = 7 ∧ others t) ∧
      ((outCh n s).hot = false → getF s Reg.OUT_TIMING_THERM_RETRY ≤ (recentRestarts n s).length →
        Gives (.thermalShutdown n) s fun t => (outCh n t).on = false ∧ getF t (Reg.OUT_DIAG_CAUSE n.val) = 4 ∧ others t) ∧
      ((outCh n s).hot = true → getF s (Reg.OUT_DIAG_CAUSE n.val) = 7 → Gives (.thermalRestart n) s fun t =>
        (outCh n t).on = true ∧ (outCh n t).hot = false ∧ getF t (Reg.OUT_DIAG_CAUSE n.val) = 0 ∧ others t) ∧
      (∀ r : BitVec 16, r.toNat < openLoadLevel n s → getF s (Reg.OUT_DIAG_CAUSE n.val) = 0 → Gives (.openLoad n r) s fun t =>
        getF t (Reg.OUT_DIAG_CAUSE n.val) = 1 ∧ t.sw.outs = s.sw.outs) ∧
      (governed s = some n → Gives .governorAct s fun t => (outCh n t).on = false ∧ getF t (Reg.OUT_DIAG_CAUSE n.val) = 6 ∧
        getF t Reg.OUT_GOV_LAST = 2 ^ n.val ∧ others t)) ∧
    Gives .vsysUndervolt s (fun t => (∀ m, (outCh m t).on = false) ∧ t.sw.k1 = false ∧ t.sw.k2 = false ∧
      t.pilot.pwmReq = false ∧ t.pilot.formeF = true ∧ t.sys.vsysLow = true ∧ getF t Reg.PWR_STATUS_VSYS_LOW = 1) ∧
    Gives .vsysRecovered s (fun t => t.sys.vsysLow = false ∧ getF t Reg.PWR_STATUS_VSYS_LOW = 0 ∧
      (coilOn s = false → ∀ m, (outCh m t).on = (outCh m s).on))

/-- 06 R107 to R109, 05 R91: the strand's own ports, the limit port and the ports of site and reader, written by a strand that is
not speculative; an outward write of one that is goes into its galley and does nothing else. -/
def Obligations.StrandAndServicePorts : Prop :=
  ∀ (n : Fin 320) (s : State), Memory.wf s = true → domainOn 7 s = true →
    (speculative s n = true → entryFree n s = true →
      let held (port : Nat) (v : BitVec 32) (t : State) : Prop := OnlyStrand n s t ∧ (getS t n).pc = (getS s n).pc ∧
        heldOf t n = heldOf s n ++ [{ kind := .port port 0 v }]
      Gives (.outOn n 1) s (held 0x403 1) ∧ Gives (.rdPoll n 1) s (held 0x803 1) ∧ Gives (.hlcOffer n 1) s (held 0x302 1)) ∧
    (speculative s n = false →
    (∀ v : BitVec 32, v ≠ 0 → Gives (.strTimer n v) s fun t => (getS t n).timerEnd = some (s.sys.usec + v.toNat) ∧
      (getS t n).timerFired = false ∧ ∀ m, m ≠ n → getS t m = getS s m) ∧
    Gives (.strTimer n 0) s (fun t => (getS t n).timerEnd = none ∧ ∀ m, m ≠ n → getS t m = getS s m) ∧
    (∀ v, (getS s n).cls ≠ 3 → Gives (.strCtrl n v) s fun t => t = s) ∧
    (∀ k : Fin 320, k ≠ n → (getS s n).cls = 3 → (getS s k).st = .waiting → ((getS s k).cls = 0 → sessionActive s = false) →
      Gives (.strCtrl n (BitVec.ofNat 32 (0x400 + k.val))) s fun t => (getS t k).st = .disabled) ∧
    (∀ v : BitVec 32, 30 ≤ v.toNat → v.toNat ≤ 100 → (v.toNat ≤ getF s Reg.SAFE_RCM_CFG_DC_TH ∨ coilOn s = false) →
      Gives (.safeLimit n 0 v) s fun t => getF t Reg.SAFE_RCM_CFG_DC_TH = v.toNat) ∧
    (∀ v : BitVec 32, 30 ≤ v.toNat → v.toNat ≤ 100 → getF s Reg.SAFE_RCM_CFG_DC_TH < v.toNat → coilOn s = true →
      Gives (.safeLimit n 0 v) s fun t => getF t Reg.SAFE_RCM_CFG_DC_TH = getF s Reg.SAFE_RCM_CFG_DC_TH) ∧
    (s.sys.role = .hub → ∀ c v : BitVec 32, c.toNat < 256 → v.toNat < 2 ^ 14 →
      Gives (.allocCeil n c v) s (fun t => getF t (Reg.ALLOC_CH_CFG_CEIL c.toNat) = v.toNat) ∧
      Gives (.allocPause n c 1) s fun t => (chanAt c.toNat t).pause = true) ∧
    (s.sys.role ≠ .hub → ∀ c v : BitVec 32,
      Gives (.allocCeil n c v) s (fun t => t.regs = s.regs ∧ t.alloc = s.alloc) ∧
      Gives (.allocPause n c v) s fun t => t.regs = s.regs ∧ t.alloc = s.alloc) ∧
    Gives (.rdPoll n 1) s (fun t => t.rd = { s.rd with poll := true } ∧ t.cap = s.cap ∧ t.regs = s.regs) ∧
    Gives (.rdPoll n 0) s (fun t => t.rd = { s.rd with poll := false } ∧ t.cap = s.cap ∧ t.regs = s.regs))

/-- 07 R137, R138, R143, R144, R444: the states of HLC_STATUS, from HLC_START to the session's end. -/
def Obligations.HlcSessionStates : Prop :=
  ∀ s : State, Memory.wf s = true →
    let ended (reason : Nat) (t : State) : Prop := t.hlc.status = 5 ∧ getF t Reg.VI_HLC_REASON = reason ∧ t.hlc.pend = none
    (∀ k, ServesCall 0x300 k s → s.sys.role ≠ .repeater → (s.hlc.status = 0 ∨ s.hlc.status = 5) → Gives .hlcStart s fun t =>
      t.hlc.status = 1 ∧ t.hlc.proto = 0 ∧ CallDone k 0 [] t ∧
      t.hlc.offerInForce = if (k.args.getD 0 0) = 0 then s.hlc.offer else BitVec.ofNat 3 (k.args.getD 0 0).toNat) ∧
    (slacListens s = true → Gives .slacParmReq s fun t => t = s.updHlc fun h => { h with slac := true }) ∧
    (slacListens s = true → s.hlc.slac = true → Gives .slacMatch s fun t =>
      t.hlc.status = 2 ∧ t.hlc.matched = true ∧ t.hlc.slac = false ∧ t.regs = s.regs ∧
      ∃ atten : List Nat, t.hlc.atten = atten.map fun a => a - inForce s Reg.VI_GP_ATTEN_OFS) ∧
    (s.hlc.status = 1 → Gives .slacTimeout s fun t => ended 1 t ∧ t.hlc.slac = false ∧
      getF t (Reg.VI_VIOL_COUNT 13) = satInc (2 ^ (Reg.VI_VIOL_COUNT 13).width - 1) (getF s (Reg.VI_VIOL_COUNT 13))) ∧
    (∀ tls13 suites, s.hlc.status = 2 → Gives (.tlsHandshake tls13 suites false) s fun t =>
      t.hlc.status = 2 ∧ t.hlc.tls = s.hlc.tls ∧
      getF t (Reg.VI_VIOL_COUNT 14) = satInc (2 ^ (Reg.VI_VIOL_COUNT 14).width - 1) (getF s (Reg.VI_VIOL_COUNT 14))) ∧
    (∀ i u, s.hlc.status = 2 → tlsKeys 0x1301 (hlcMove 3 s) = (some i, u) → Gives (.tlsHandshake true [0x1301#16] true) s fun t =>
      t.hlc.status = 3 ∧ t.hlc.tls = true ∧ t.hlc.suite = 0x1301 ∧ t.hlc.tls13 = true ∧ t.hlc.tlsSlot = some i) ∧
    (∀ names : BitVec 3, (s.hlc.status = 2 ∨ s.hlc.status = 3) →
      (names &&& offerCounts s = 1 → ∀ first20, Gives (.supportedAppProtocol names first20) s fun t =>
        t.hlc.status = 4 ∧ t.hlc.proto = 1 ∧ t.hlc.seq = 0 ∧ t.hlc.lastReply = some ⟨0, .ok, []⟩) ∧
      (names &&& offerCounts s ≠ 0 → names &&& offerCounts s &&& 1 = 0 → ∀ first20,
        Gives (.supportedAppProtocol names first20) s fun t => t.hlc.status = 4 ∧ t.hlc.proto = 2) ∧
      (names &&& offerCounts s = 0 → ∀ first20, Gives (.supportedAppProtocol names first20) s fun t =>
        ended 5 t ∧ t.hlc.tls = false ∧ t.hlc.lastReply = some ⟨0, .noNegotiation, []⟩)) ∧
    (s.hlc.status = 4 → coilOn s = false →
      (s.hlc.tls = true → Gives .tlsClosed s fun t => ended 3 t ∧ t.hlc.tls = false) ∧
      (s.hlc.pend = none → Gives .hlcIdleTimeout s (ended 2))) ∧
    (∀ r, s.hlc.pend = some r → Gives .hlcDeadline s fun t => t.hlc.pend = none ∧ t.hlc.late = r.offset :: s.hlc.late ∧
      t.hlc.lastReply = some ⟨r.msg, if r.processing then .ongoing else .failed, []⟩ ∧
      (r.msg ≠ 0xD → t.hlc.status = s.hlc.status) ∧ (r.msg = 0xD → s.hlc.status = 4 → coilOn s = false → ended 0 t))

/-- 07 R139 to R143, R145: a request becomes a record and waits for a strand; firmware answers misbehaviour, receipts and
certificate requests; a reply service answers the vehicle within the allocated current, or returns its refusal. -/
def Obligations.HlcRequestsAndReplies : Prop :=
  ∀ s : State, Memory.wf s = true → s.hlc.status = 4 → coilOn s = false →
    let fresh : Prop := s.hlc.pend = none ∧ s.hlc.certPend = false
    let offset := 256 * getF s Reg.VI_REC_OFF + 256 * s.hlc.ring
    (∀ (msg : BitVec 16) body processing (timeout : BitVec 32), fresh → strandMsg s.hlc.proto msg.toNat = true →
      bptRefused msg.toNat body s = none → Gives (.hlcRequest msg body none processing timeout) s fun t =>
        t.hlc.pend = some ⟨offset, msg.toNat, processing, s.sys.usec + timeout.toNat⟩ ∧ t.hlc.seq = s.hlc.seq + 1 ∧
        t.hlc.status = 4 ∧
        byteAt 0 t.cap.caseMem (64 * getF s Reg.VI_REC_BASE + offset) = BitVec.ofNat 8 msg.toNat ∧
        (∀ i, i < min 240 body.length →
          byteAt 0 t.cap.caseMem (64 * getF s Reg.VI_REC_BASE + offset + 16 + i) = body.getD i 0) ∧
        ∀ x, (x < 64 * getF s Reg.VI_REC_BASE + offset ∨ 64 * getF s Reg.VI_REC_BASE + offset + 256 ≤ x) →
          byteAt 0 t.cap.caseMem x = byteAt 0 s.cap.caseMem x) ∧
    (∀ (msg : BitVec 16) body bad processing timeout, fresh → Gives (.hlcRequest msg body (some bad) processing timeout) s fun t =>
      t.hlc.lastReply = some ⟨msg.toNat, badCode bad, []⟩ ∧ t.hlc.status = 5 ∧ getF t Reg.VI_HLC_REASON = 5 ∧
      t.hlc.tls = (if bad = .undecodable then false else s.hlc.tls)) ∧
    (∀ body timeout, fresh → Gives (.meteringReceipt body timeout) s fun t =>
      t.hlc.lastReply = some ⟨0xC, .ok, []⟩ ∧ t.hlc.pend = none ∧ t.hlc.seq = s.hlc.seq + 1) ∧
    (∀ exi timeout, fresh →
      let request : CertRequest := ⟨false, timeout⟩
      (s.sys.role = .hub → Gives (.certificateInstallation request exi) s fun t => t.hlc.certPend = true ∧
        t.hlc.seq = s.hlc.seq + 1) ∧
      (s.sys.role = .head → Gives (.certificateInstallation request exi) s fun t => t.hlc.certPend = false ∧
        t.hlc.seq = s.hlc.seq + 1 ∧ t.hlc.lastReply = some ⟨0xE, .noCertificateAvailable, []⟩)) ∧
    (∀ a rest, s.hlc.certPend = true → (getQ s 5).items = 0x10000002#32 :: a :: rest → itemType a = 3 →
      Gives .certAnswer s fun t => t.hlc.certPend = false ∧ (getQ t 5).items = rest ∧
        t.hlc.lastReply = some ⟨0xE, .ok, [a.toNat % 256, a.toNat / 256 % 256]⟩) ∧
    (s.hlc.certPend = true → Gives .certAnswerTimeout s fun t => t.hlc.certPend = false ∧
      t.hlc.lastReply = some ⟨0xE, .noCertificateAvailable, []⟩) ∧
    (∀ k r, s.hlc.pend = some r → r.offset = (k.args.getD 0 0).toNat → s.hlc.late.contains r.offset = false →
      let w (i : Nat) : Nat := (wordAt 0 s.cap.caseMem (64 * getF s Reg.VI_REC_BASE + (k.args.getD 1 0).toNat + 4 * i)).toNat
      let replies (code : HlcCode) (fields : List Nat) (t : State) : Prop :=
        t.hlc.lastReply = some ⟨r.msg, code, fields⟩ ∧ t.hlc.pend = none ∧ CallDone k 0 [] t ∧ t.hlc.status = 4 ∧
        ∃ x, t.hlc.lastFill = some x ∧ x.session = s.hlc.session ∧ x.meter = (led s).totals.get 0
      (ServesCall 0x301 k s → r.msg = 7 → Gives .hlcReplyAuth s (replies (if k.args.getD 1 0 = 0 then .ongoing else .ok) [])) ∧
      (ServesCall 0x302 k s → r.msg = 8 → Gives .hlcReplyCpd s
        (replies (if w 2 = 0 then .ok else .ongoing) [min (w 0) s.pilot.alloc, w 1, w 2, min (w 3) s.pilot.alloc])) ∧
      (ServesCall 0x303 k s → r.msg = 0xB → Gives .hlcReply s (replies (.chosen (w 0)) [w 1, w 2, min (w 3) s.pilot.alloc])) ∧
      (ServesCall 0x304 k s → r.msg = 0xA → Gives .hlcFailed s (replies (.chosen (k.args.getD 1 0).toNat) []))) ∧
    (∀ k, ServesCall 0x303 k s → s.hlc.pend = none → s.hlc.late.contains (k.args.getD 0 0).toNat = false →
      Gives .hlcReply s fun t => CallDone k 0x63 [] t ∧ t.hlc = s.hlc) ∧
    (∀ k, ServesCall 0x305 k s →
      (∀ ref expiry, Gives (.hlcContractCheck (.valid ref expiry)) s (CallDone k 0 [ref, expiry])) ∧
      Gives (.hlcContractCheck .invalid) s (CallDone k 0x64 []) ∧ Gives (.hlcContractCheck .revoked) s (CallDone k 0x23 []))

/-- 10 R199 to R203, R209, R214: while metering runs, a block that ends gives its energies whole units and carries the
remainders, counts the block, reports its values, and adds to the ledger; the frequency leaves its band once; calibration values
are staged, committed and discarded in the metrology presence window only. -/
def Obligations.MetrologyBlocks : Prop :=
  ∀ s : State, Memory.wf s = true →
    (metering s = true → ∀ d early,
      -- the state in which the block's samples have given the fast values and the crossings (R199, R202, R204)
      let u := s |> fastUpdates d |> blockCrossings d
      let n := d.samples.toNat
      Gives (.metroBlockEnd d early) s fun t =>
      t.met.blockE = (blockEnergies d u).1 ∧ t.met.rem = (blockEnergies d u).2 ∧ t.met.blocks = s.met.blocks + 1 ∧
      (∀ i : Fin 3, t.met.tot.get i = (s.met.tot.get i + t.met.blockE.get i) % 2 ^ 64 ∧
        unitMwh * t.met.blockE.get i + t.met.rem.get i = s.met.rem.get i +
          (if i = 0 then (if belowCreep (netActive d u) n u then 0 else (netActive d u).toNat)
           else if i = 1 then (if belowCreep (netActive d u) n u then 0 else (-netActive d u).toNat)
           else if belowCreep (netReactive d u) n u then 0 else (netReactive d u).natAbs) ∧
        t.met.rem.get i < unitMwh) ∧
      getF t Reg.MET_BLOCK_SAMPLES = n ∧ getF t Reg.MET_BLOCK_INDEX = s.met.blocks % 16384 ∧
      getB t Reg.MET_BLOCK_PARTIAL = (early || s.met.cutBlock) ∧
      getB t Reg.MET_BLOCK_ESTIMATED = (s.met.estAlways || s.met.estBlock) ∧
      getB t Reg.MET_BLOCK_OVERLOAD = !(clippedInputs d s).isEmpty ∧
      getF t (Reg.MET_VAL_VALUE 0) = voltsOver d 0 u d.first.toNat n % 2 ^ 32 ∧
      getF t (Reg.MET_VAL_VALUE 3) = ampsOver d 0 u d.first.toNat n % 2 ^ 32 ∧
      getF t (Reg.MET_VAL_VALUE 7) = signedField 32 (meanPower (activeSum d 0 u d.first.toNat n) d) ∧
      (s.led.on = true → ∀ i : Fin 3, (led t).totals.get i = ((led s).totals.get i + t.met.blockE.get i) % 2 ^ 64)) ∧
    (metering s = false → ∀ d early, Gives (.metroBlockEnd d early) s fun t => t = s) ∧
    (∀ f : BitVec 17, metering s = true → s.sw.supply ≠ 0 →
      (f.toNat < getF s Reg.MET_FBAND_LO * 10 ∨ getF s Reg.MET_FBAND_HI * 10 < f.toNat) → Gives (.freqBandExit f) s fun t =>
        t.met.freqOut = true ∧ getF t Reg.MET_FREQ_W_FREQ = (if freqValid f.toNat then f.toNat else 0) ∧
        getB t Reg.MET_STATUS_FREQ_VALID = freqValid f.toNat ∧ (s.met.freqOut = true → t.met = s.met ∧ t.cap = s.cap)) ∧
    (∀ f, s.sw.supply = 0 → Gives (.freqBandExit f) s fun t => t = s) ∧
    (HostServes Reg.MET_CAL_VAL_VALUE.addr s → ∀ v : BitVec 32, let i := getF s Reg.MET_CAL_IDX_IDX
      (metrologist s = true → i ≤ 68 → i < 32 ∨ s.sys.mode = .factory → Gives (.metCalStage v) s fun t =>
        Answered 0 t ∧ (calItem i = true → mapGet? t.met.staged i = some v) ∧ t.met.cal = s.met.cal) ∧
      (68 < i → Gives (.metCalStage v) s fun t => Answered 2 t ∧ t.met = s.met) ∧
      (32 ≤ i → i ≤ 68 → s.sys.mode ≠ .factory → Gives (.metCalStage v) s fun t => Answered 6 t ∧ t.met = s.met) ∧
      (metrologist s = false → i < 32 → Gives (.metCalStage v) s fun t => Answered 4 t ∧ t.met = s.met)) ∧
    (HostServes Reg.MET_CAL_CMD_COMMIT.addr s →
      (metrologist s = true → s.met.staged ≠ [] → Gives .metCalCommit s fun t =>
        Answered 0 t ∧ getF t Reg.MET_CAL_CMD_COMMIT = 1 ∧ t.met = s.met) ∧
      (metrologist s = true → s.met.staged = [] → Gives .metCalCommit s fun t =>
        Answered 0 t ∧ getF t Reg.MET_CAL_CMD_COMMIT = getF s Reg.MET_CAL_CMD_COMMIT ∧ t.met = s.met) ∧
      (metrologist s = true → Gives .metCalDiscard s fun t => Answered 0 t ∧ t.met = { s.met with staged := [] } ∧
        getF t Reg.MET_CAL_CMD_COMMIT = 0) ∧
      (metrologist s = false → Gives .metCalCommit s (fun t => Answered 4 t ∧ t.met = s.met) ∧
        Gives .metCalDiscard s fun t => Answered 4 t ∧ t.met = s.met))

/-- 10 R206 to R209: the rotation of the spare chain, from the step that starts an overlap to the judgement of the chain it
relieved, and the hard failure of a chain. -/
def Obligations.SpareChainRotation : Prop :=
  ∀ s : State, Memory.wf s = true → metering s = true →
    (s.met.free < 9 → s.met.rot = .idle → Gives .rotationStep s fun t =>
      t = (s.updShadow fun _ => t.shadow).updMet (fun m => { m with rot := .overlap m.free m.nextInput }) ∧
      inForce t Reg.MET_ROT_ROT_PERIOD = getF s Reg.MET_ROT_ROT_PERIOD) ∧
    (s.met.rot ≠ .idle ∨ 9 ≤ s.met.free → Gives .rotationStep s fun t => t = s) ∧
    (∀ f k (ratio : BitVec 32), s.met.rot = .overlap f k → f < 9 → k < 8 →
      (ratio.toInt.natAbs ≤ 2000 * inForce s Reg.MET_BUDGET_GAIN → Gives (.rotationHandover ratio) s fun t =>
        (∀ j : Fin 8, t.met.map.get j = if j.val = k then f else s.met.map.get j) ∧ t.met.free = chainOf k s ∧
        t.met.rot = .zero (chainOf k s) ∧ t.met.nextInput = (k + 1) % 8 ∧ getF t Reg.MET_STATUS_CHECKING = chainOf k s % 16) ∧
      (2000 * inForce s Reg.MET_BUDGET_GAIN < ratio.toInt.natAbs → Gives (.rotationHandover ratio) s fun t =>
        t.met.map = s.met.map ∧ t.met.free = s.met.free ∧ t.met.rot = .zero f ∧ t.met.nextInput = (k + 1) % 8 ∧
        getF t Reg.MET_STATUS_CHECKING = f ∧ getF t Reg.MET_STATUS_RECHECK = 1)) ∧
    (∀ c (zero : BitVec 32), s.met.rot = .zero c → Gives (.chainReferenceSwitch zero) s fun t =>
      t = s.updMet fun m => { m with rot := .reference c (chainTrim c zero.toInt s) }) ∧
    (∀ c zero (reading : BitVec 32), s.met.rot = .reference c zero → c < 9 → (calValue 68 s).toNat ≠ 0 →
      let r : Int := (calValue 68 s).toNat
      let gain : Int := Int.tdiv ((chainTrim c reading.toNat s - r * 10000000) * 1000000) r
      let within : Prop := gain.natAbs ≤ clamp 50 1000 (getF s Reg.MET_BUDGET_GAIN) * 10000000 ∧
        zero.natAbs ≤ clamp 20 1000 (getF s Reg.MET_BUDGET_OFFSET) * 10000000
      (within → Gives (.chainJudgement reading) s fun t => t.met = { s.met with rot := .idle } ∧
        getF t Reg.MET_CHECK_CHAIN = c ∧ getF t Reg.MET_CHECK_RESULT = 1 ∧ getF t Reg.MET_STATUS_CHECKING = 15 ∧
        getF t Reg.MET_STATUS_RECHECK = 0) ∧
      (¬within → getB s Reg.MET_STATUS_RECHECK = false → Gives (.chainJudgement reading) s fun t =>
        t.met = { s.met with rot := .zero c } ∧ getF t Reg.MET_CHECK_RESULT = 2 ∧ getF t Reg.MET_STATUS_RECHECK = 1 ∧
        getF t Reg.MET_STATUS_CHECKING = c) ∧
      (¬within → getB s Reg.MET_STATUS_RECHECK = true → Gives (.chainJudgement reading) s fun t =>
        t.met.retired = s.met.retired ||| BitVec.ofNat 9 (2 ^ c) ∧ t.met.rot = .idle ∧ t.met.free = 15 ∧
        t.met.map = s.met.map ∧ getF t Reg.MET_CHECK_RESULT = 3 ∧ getF t Reg.MET_STATUS_RECHECK = 0 ∧
        getB t ⟨0x80, 1, 1, 0⟩ = true)) ∧
    (∀ (c : Fin 9) (k : Fin 8), s.met.map.get k = c.val → (∀ j < k, s.met.map.get j ≠ c.val) →
      s.met.retired.getLsbD c.val = false → Gives (.chainHardFail c) s fun t =>
        t.met.estBlock = true ∧ t.met.retired = s.met.retired ||| BitVec.ofNat 9 (2 ^ c.val) ∧ t.met.rot = .idle ∧ t.met.free = 15 ∧
        (if s.met.free < 9 then (∀ j : Fin 8, t.met.map.get j = if j = k then s.met.free else s.met.map.get j) ∧
            t.met.lost = s.met.lost
         else t.met.map = s.met.map ∧ t.met.lost = s.met.lost ||| BitVec.ofNat 8 (2 ^ k.val) ∧ t.met.estAlways = true)) ∧
    (∀ c : Fin 9, s.met.retired.getLsbD c.val = true → Gives (.chainHardFail c) s fun t => t = s)

/-- 11 R217 to R219, R227, R233, R242, R247, R248, 06 R114: ledger time, the wall clock, boundaries, the register image, seals,
the tamper log and the two plain services. -/
def Obligations.LedgerClockAndLogs : Prop :=
  ∀ s : State, Memory.wf s = true →
    (domainOn 0 s = true → s.tag.commPend = false → Gives .rtcSecond s fun t =>
      t.led.rtcSecs = s.led.rtcSecs + 1 ∧ t.led.setPend = none ∧ t.led.rtcValid = (s.led.rtcValid || s.led.setPend.isSome) ∧
      t.led.w = s.led.setPend.getD (if s.led.rtcValid then (s.led.w + 1) % 2 ^ 32 else 0) ∧
      (s.led.on = true → t.sys.ltime = if t.led.rtcValid then max s.sys.ltime t.led.w else s.sys.ltime + 1) ∧
      (s.led.on = false → t.sys.ltime = s.sys.ltime) ∧
      getF t Reg.AO_PRES_STAT_LEFT = (getF s Reg.AO_PRES_STAT_LEFT - 1) % 2 ^ Reg.AO_PRES_STAT_LEFT.width) ∧
    (domainOn 0 s = false → Gives .rtcSecond s fun t => t = s) ∧
    (HostServes Reg.AO_RTC_SET_W.addr s → ∀ w : BitVec 32,
      ((s.sys.role = .standalone ∨ s.sys.role = .hub) → Gives (.aoRtcSet w) s fun t =>
        Answered 0 t ∧ t.led = { s.led with setPend := some w.toNat }) ∧
      ((s.sys.role = .head ∨ s.sys.role = .repeater) → Gives (.aoRtcSet w) s fun t => Answered 6 t ∧ t.led = s.led)) ∧
    (s.led.on = true →
      (s.sys.pause = false → Gives .boundaryClose s fun t => (led t).pend = (led s).pend.dropWhile (·.ended) ∧
        (led t).totals = (led s).totals ∧
        ∀ b i fl, (led s).pend = [b] → b.ended = true → b.ends = some fl → b.opens = some i → (led t).intv = i) ∧
      (s.sys.pause = true → Gives .boundaryClose s fun t => t = s) ∧
      (storeWorn s = false → Gives .registerImage s fun t =>
        t = s.updLed fun l => { l with image := some (ledgerCopy s) }) ∧
      (storeWorn s = true → Gives .registerImage s fun t => t = s) ∧
      (0 < s.led.unsealed → recordsWait s = false →
        (∀ k u, sealKey s = (some k, u) → Gives .sealTimer s fun t => t.led.sealTime = s.sys.ltime ∧ s.led.seq < t.led.seq ∧
          t.led.unsealed ≤ 1 ∧ getF t Reg.LED_STATUS_SEAL_PENDING = 0) ∧
        (∀ u, sealKey s = (none, u) → Gives .sealTimer s fun t => getF t Reg.LED_STATUS_SEAL_PENDING = 1 ∧ t.led = u.led)) ∧
      (s.led.unsealed ≠ 0 → recordsWait s = true → Gives .sealTimer s fun t => getF t Reg.LED_STATUS_SEAL_PENDING = 1 ∧ t.led = s.led) ∧
      (∀ k u, getB s Reg.LED_STATUS_SEAL_PENDING = true → recordsWait s = false → sealKey s = (some k, u) →
        Gives .sealRetry s fun t => getF t Reg.LED_STATUS_SEAL_PENDING = 0 ∧ t.led.sealTime = s.sys.ltime) ∧
      (getB s Reg.LED_STATUS_SEAL_PENDING = false → Gives .sealRetry s fun t => t = s) ∧
      (s.led.tmpLog ≠ [] → Gives .tamperCopy s fun t => t.led.tmpLog = [] ∧ getF t Reg.AO_TMP_LOG_STAT_DROPPED = 0 ∧
        s.led.seq + s.led.backlog.length + s.led.tmpLog.length ≤ t.led.seq + t.led.backlog.length)) ∧
    (domainOn 0 s = true → ∀ terminal opened,
      let f := if terminal then Reg.AO_TMP_STATE_TERM_OPEN else Reg.AO_TMP_STATE_COVER_OPEN
      (getB s f ≠ opened → s.led.tmpLog.length < 63 → Gives (.tamperChange terminal opened) s fun t =>
        getB t f = opened ∧ ∃ e : TamperEntry, t.led.tmpLog = s.led.tmpLog ++ [e] ∧ e.opened = opened ∧
          e.input = ofBool terminal ∧ e.time = wallClock s) ∧
      (getB s f ≠ opened → 63 ≤ s.led.tmpLog.length → Gives (.tamperChange terminal opened) s fun t =>
        getB t f = opened ∧ t.led.tmpLog = s.led.tmpLog ∧ getF t Reg.AO_TMP_LOG_STAT_DROPPED =
          satInc (2 ^ Reg.AO_TMP_LOG_STAT_DROPPED.width - 1) (getF s Reg.AO_TMP_LOG_STAT_DROPPED)) ∧
      (getB s f = opened → Gives (.tamperChange terminal opened) s fun t => t = s)) ∧
    (domainOn 7 s = true → Gives (.vbackTest true) s fun t => getB t ⟨0x80, 7, 1, 0⟩ = true) ∧
    Gives (.vbackTest false) s (fun t => t = s) ∧
    (∀ k, ServesCall 0x001 k s → Gives .svcTime s fun t => CallDone k 0
      [BitVec.ofNat 32 s.sys.ltime, BitVec.ofNat 32 (wallClock s), BitVec.ofNat 32 s.sys.usec] t ∧ t.led = s.led) ∧
    (∀ k, ServesCall 0x002 k s → storeWorn s = false → Gives .logEvent s fun t => CallDone k 0 [] t ∧
      t.sys.eventLog = (⟨s.sys.ltime, 0, k.arg 0 % 256, openSession s, k.arg 1⟩ :: s.sys.eventLog).take 32768) ∧
    (∀ k, ServesCall 0x002 k s → storeWorn s = true → Gives .logEvent s fun t => CallDone k 0x50 [] t ∧
      t.sys.eventLog = s.sys.eventLog)

/-- 11 R221, R223, R226, R235, R236, R238, R244, R246: sessions, accounts, calendars, the billing close, the export pointer and
the ledger's clearing. -/
def Obligations.LedgerSessionsAndAccounts : Prop :=
  ∀ s : State, Memory.wf s = true → risingFrom 0 (led s).accounts = true →
    (∀ k, ServesCall 0x600 k s →
      (s.led.opened = none → k.arg 0 = ownChannel s → maySession s = true → storeWorn s = false → Gives .ledgerOpen s fun t =>
        CallDone k 0 [BitVec.ofNat 32 s.led.nextSess] t ∧ t.led.nextSess = s.led.nextSess + 1 ∧
        getF t Reg.LED_SESSION_NUMBER = s.led.nextSess % 2 ^ Reg.LED_SESSION_NUMBER.width ∧
        ∃ x, t.led.opened = some x ∧ (led t).sess = some x ∧ x.number = s.led.nextSess ∧ x.start = s.sys.ltime ∧
          x.impOpen = (led s).totals.get 0 ∧ x.cost = 0 ∧ x.entry = k.arg 1 ∧ x.contract = k.arg 2) ∧
      (s.led.opened.isSome = true ∨ k.arg 0 ≠ ownChannel s ∨ maySession s = false → Gives .ledgerOpen s fun t => CallDone k 0x71 [] t ∧ t.led = s.led) ∧
      (s.led.opened = none → k.arg 0 = ownChannel s → maySession s = true → storeWorn s = true → Gives .ledgerOpen s fun t =>
        CallDone k 0x50 [] t ∧ t.led = s.led)) ∧
    (∀ k, ServesCall 0x601 k s →
      (∀ x, (led s).sess = some x → x.number = k.arg 0 → storeWorn s = false → s.led.backlog = [] → Gives .ledgerClose s fun t =>
        CallDone k 0 [BitVec.ofNat 32 s.led.seq] t ∧ t.led.opened = none ∧ (led t).sess = none ∧ sessionActive t = false ∧
        s.led.seq < t.led.seq) ∧
      ((∀ x, (led s).sess = some x → x.number ≠ k.arg 0) → Gives .ledgerClose s fun t => CallDone k 0x70 [] t ∧ t.led = s.led)) ∧
    (∀ k, ServesFree 0x602 k s → (s.sys.role = .standalone ∨ s.sys.role = .hub) → k.arg 0 = 0 → (led s).sess = none →
      (emergencyOk 0 s = true → Gives .ledgerEmergency s fun t =>
        CallDone k 0 [BitVec.ofNat 32 (getF s Reg.LED_EMERG_AMT_VALUE)] t ∧
        accountAt 0 t = { accountAt 0 s with e := getF s Reg.LED_EMERG_AMT_VALUE }) ∧
      (emergencyOk 0 s = false → Gives .ledgerEmergency s fun t => CallDone k 0x72 [] t ∧ t.led = s.led)) ∧
    (∀ k, ServesCall 0x603 k s →
      (∀ i : Fin 3, k.arg 0 = i.val → Gives .ledgerRead s fun t => t.led = s.led ∧
        CallDone k 0 [BitVec.ofNat 32 ((led s).totals.get i), BitVec.ofNat 32 ((led s).totals.get i / 2 ^ 32)] t) ∧
      (k.arg 0 = 3 ∨ 30 < k.arg 0 → Gives .ledgerRead s fun t => t.led = s.led ∧ CallDone k 8 [] t)) ∧
    (HostServes Reg.LED_TOPUP_CMD_GO.addr s → (s.sys.role = .standalone ∨ s.sys.role = .hub) →
      let amt := getF s Reg.LED_TOPUP_AMT_VALUE
      let n := getF s Reg.LED_TOPUP_ACCT_ACCOUNT
      let a := accountAt n s
      (inForce s Reg.LED_CFG_PREPAY_EN ≠ 0 → 0 < amt → amt ≤ 10000000 → Gives .ledTopup s fun t =>
        Answered 0 t ∧ getF t Reg.LED_TOPUP_CMD_RESULT = 1 ∧
        accountAt n t = { b := a.b + amt, e := if 0 ≤ a.b + amt then 0 else a.e } ∧
        ∀ m, m ≠ n → accountAt m t = accountAt m s) ∧
      (inForce s Reg.LED_CFG_PREPAY_EN ≠ 0 → (amt = 0 ∨ 10000000 < amt) → Gives .ledTopup s fun t =>
        Answered 0 t ∧ getF t Reg.LED_TOPUP_CMD_RESULT = 3 ∧ t.led = s.led) ∧
      (inForce s Reg.LED_CFG_PREPAY_EN = 0 → Gives .ledTopup s fun t =>
        Answered 0 t ∧ getF t Reg.LED_TOPUP_CMD_RESULT = 4 ∧ t.led = s.led)) ∧
    (HostServes Reg.LED_CLEAR_CLEAR.addr s →
      (metrologist s = true → sessionActive s = false → Gives (.ledClear 0xC1EA) s fun t => Answered 0 t ∧
        (led t).totals = #v[0, 0, 0] ∧ (led t).period = 0 ∧ (led t).accounts = (led s).accounts ∧
        t.led.clears = s.led.clears + 1) ∧
      (metrologist s = true → sessionActive s = true → Gives (.ledClear 0xC1EA) s fun t => Answered 5 t ∧ t.led = s.led) ∧
      (metrologist s = false → ∀ key, Gives (.ledClear key) s fun t => Answered 4 t ∧ t.led = s.led) ∧
      (metrologist s = true → ∀ key, key ≠ 0xC1EA → Gives (.ledClear key) s fun t => Answered 0 t ∧ t.led = s.led)) ∧
    (HostServes Reg.LED_BILL_CLOSE.addr s → Gives .ledBillClose s fun t =>
      Answered 0 t ∧ t.led = { s.led with billReq := true }) ∧
    (HostServes Reg.LED_CAL_CTRL_LOAD.addr s → s.sys.role ≠ .head → migrating s = false →
      let len := getF s Reg.LED_CAL_SRC_LEN
      let image := bytesAt 0 s.cap.shared (getF s Reg.LED_CAL_SRC_OFFSET / 4 * 4) len
      (calendarResult len image = 1 → Gives .ledCalLoad s fun t => Answered 0 t ∧ t.led.calPas = some (calendarOf image) ∧
        t.led.calAct = s.led.calAct ∧ getF t Reg.LED_CAL_STAT_RESULT = 1) ∧
      (calendarResult len image ≠ 1 → Gives .ledCalLoad s fun t => Answered 0 t ∧ t.led.calPas = s.led.calPas ∧
        t.led.calAct = s.led.calAct ∧ getF t Reg.LED_CAL_STAT_RESULT = calendarResult len image)) ∧
    (HostServes Reg.LED_CAL_CTRL_LOAD.addr s → s.sys.role = .head → Gives .ledCalLoad s fun t => Answered 6 t ∧ t.led = s.led) ∧
    (HostServes Reg.LED_CAL_CTRL_DROP_PASSIVE.addr s → Gives .ledCalDropPassive s fun t =>
      Answered 0 t ∧ t.led = { s.led with calPas := none }) ∧
    (HostServes Reg.LED_EXP_ACK_OFFSET.addr s →
      (∀ pos, s.led.tail ≤ pos → pos ≤ s.led.head → s.led.head - pos < ringBlocks * 0x10000 →
        Gives (.ledExpAck (BitVec.ofNat 32 (ringOffset pos))) s fun t => Answered 0 t ∧ t.led = { s.led with ack := pos }) ∧
      (∀ o : BitVec 32, o.toNat < ringBase → Gives (.ledExpAck o) s fun t => Answered 0 t ∧ t.led = s.led))

/-- 12 R256 to R264, R270 to R277, 06 R114 to R116: what a node takes from its hub, and what it hands on: polls, relayed frames,
chunks, whole objects, fallback, and the site services that send. -/
def Obligations.NodesFollowTheHub : Prop :=
  ∀ s : State, Memory.wf s = true →
    (isNode s = true → domainOn 4 s = true →
      (∀ f r, addressed f.route f.hops.toNat ≠ ownChannel s → Gives (.poll f r) s fun t => t = receive r.input s) ∧
      (∀ f r, addressed f.route f.hops.toNat = ownChannel s →
        (f.retry = false → f.round.toNat ≤ s.link.roundCtr → Gives (.poll f r) s fun t => t.link = s.link ∧
          getF t (Reg.LNK_VIOL_COUNT 2) = satInc 0xFFFF (getF s (Reg.LNK_VIOL_COUNT 2))) ∧
        (s.link.roundCtr < f.round.toNat → pollVerifies f s = false → Gives (.poll f r) s fun t => t.link = s.link ∧
          getF t (Reg.LNK_VIOL_COUNT 1) = satInc 0xFFFF (getF s (Reg.LNK_VIOL_COUNT 1))) ∧
        (s.link.roundCtr < f.round.toNat → f.round.toNat ≤ s.link.roundCtr + 16384 → pollVerifies f s = true →
          s.sys.role = .head → s.sys.mode ≠ .inert → Gives (.poll f r) s fun t =>
            t.link.roundCtr = f.round.toNat ∧ t.link.lastPoll = some s.sys.usec ∧ t.link.gImp = f.grantImp.toNat ∧
            t.link.gExp = f.grantExp.toNat ∧ t.link.fallbackA = f.fallback.toNat ∧ t.link.inFallback = false ∧
            t.link.duty = f.duty.toNat ∧ t.pilot.alloc ≤ max f.grantImp.toNat f.grantExp.toNat ∧
            (s.sys.pause = false → t.link.answer.isSome = true ∧ (t.link.tx.map (·.kind)) = some 1))) ∧
      (∀ msg (m : BitVec 2) (delay : BitVec 16) input,
        let hop := fieldOf msg 0 1 % 8
        let hops := fieldOf msg 0 1 / 8 % 8 + 1
        (0 < hop → hop < hops → fieldOf msg hop 1 = s.link.chan → Gives (.relayForward true msg m delay input) s fun t =>
          t.link.relayed = some ⟨true, hop - 1, none⟩ ∧ t.link.roundCtr = s.link.roundCtr ∧ t.cap = s.cap ∧
          t.link.tx = some ⟨1, m.toNat, s.link.tones.headD allCarriers, ctrlByte (hop - 1) hops ++ msg.drop 1⟩ ∧
          t.link.maps = (if hop + 1 = hops then mapPut s.link.maps (fieldOf msg hops 1) (BitVec.ofNat 70 (fieldOf msg 13 9))
            else s.link.maps) ∧ inForce t Reg.LNK_TX_ATT = getF s Reg.LNK_TX_ATT) ∧
        (fieldOf msg hop 1 ≠ s.link.chan → Gives (.relayForward true msg m delay input) s fun t => t = receive input s) ∧
        (hop + 1 < hops → fieldOf msg (1 + hop) 1 = s.link.chan → getF s Reg.MET_FREQ_W_FREQ ≠ 0 → 32768 ≤ fieldOf msg 10 2 →
          let zc := (fieldOf msg 10 2 - 32768 + delay.toNat) % (1000000000 / getF s Reg.MET_FREQ_W_FREQ)
          Gives (.relayForward false msg m delay input) s fun t => t.link.relayed = some ⟨false, hop + 1, some zc⟩ ∧
            t.link.tx = some ⟨0, m.toNat, mapGet allCarriers s.link.maps (fieldOf msg (2 + hop) 1),
              ctrlByte (hop + 1) hops ++ (msg.drop 1).take 9 ++ zcField (some zc) ++ msg.drop 12⟩) ∧
        (fieldOf msg (1 + hop) 1 ≠ s.link.chan → Gives (.relayForward false msg m delay input) s fun t =>
          t = receive input s)) ∧
      (∀ f : ChunkFrame, f.crc ≠ crc32 (chunkData (frameData f)) → Gives (.chunk (some f)) s fun t => t = receive f.input s) ∧
      (∀ (f : ChunkFrame) bytes d, f.crc = crc32 (chunkData (frameData f)) → s.sys.mode ≠ .inert → f.body = .data bytes → s.link.deliv = some d →
        d.id = f.delivery.toNat → d.kind = 3 →
        (f.chunk.toNat = d.next → d.whole = false → fromParent f d.parent d.parentHub = true → Gives (.chunk (some f)) s fun t =>
          ∃ e : Delivery, t.link.deliv = some e ∧
            e.data = d.data ++ bytes.take (min 1024 (d.length - (d.next - 1) * 1024)) ∧
            e.whole = decide (d.chunks ≤ d.next + 1) ∧ e.id = d.id) ∧
        (f.chunk.toNat ≠ d.next → Gives (.chunk (some f)) s fun t => t = receive f.input s)) ∧
      (∀ (f : ChunkFrame) records sig, f.crc = crc32 (chunkData (frameData f)) → s.sys.mode ≠ .inert →
        f.body = .notice records sig false → f.kind = 4 →
        s.link.noticeId ≠ f.delivery.toNat → Gives (.chunk (some f)) s fun t => t.link = s.link ∧
          getF t (Reg.LNK_VIOL_COUNT 5) = satInc 0xFFFF (getF s (Reg.LNK_VIOL_COUNT 5)))) ∧
    (∀ d, isNode s = true → s.link.deliv = some d → d.whole = true → migrating s = false →
      (Config.sha256 (heldObject d s) = d.sha → d.member = false → Gives .objectVerify s fun t =>
        t = s.updLink fun l => { l with deliv := some { d with next := d.chunks, whole := false } }) ∧
      (Config.sha256 (heldObject d s) ≠ d.sha → Gives .objectVerify s fun t =>
        t.link.deliv = some { d with next := 1, whole := decide (d.chunks ≤ 1), data := [] } ∧
        getF t (Reg.LNK_VIOL_COUNT 6) = satInc 0xFFFF (getF s (Reg.LNK_VIOL_COUNT 6)))) ∧
    (s.sys.role = .head → s.sys.paired = true → s.link.inFallback = false → domainOn 4 s = true → s.sys.mode ≠ .inert →
      Gives .fallbackEntry s fun t => t.link.inFallback = true ∧ t.pilot.alloc ≤ s.link.fallbackA ∧
        (s.link.relWait = false → grants t = (s.link.fallbackA, 0)) ∧ (∀ i ∈ t.link.up, i.kind ≠ 2) ∧
        ∀ r ∈ t.link.reqs, ∃ m d, r.body = .alloc 0 m d) ∧
    (∀ k, ServesFree 0x703 k s →
      (s.sys.role = .standalone → Gives .siteSend s fun t => CallDone k 9 [] t ∧ t.link = s.link) ∧
      (s.sys.role ≠ .standalone → 0 < k.arg 1 → k.arg 1 ≤ 64 → outsideWindow (getS s k.strand) (k.arg 0) (k.arg 1) = false →
        let bytes := bytesAt 0 s.cap.caseMem (caseAddr s k.strand (k.arg 0)) (k.arg 1)
        (s.sys.role = .hub → s.link.notices.length < 14 → Gives .siteSend s fun t => CallDone k 0 [] t ∧
          t.link = { s.link with notices := s.link.notices ++ [bytes] }) ∧
        (s.sys.role ≠ .hub → linkLost s = true → Gives .siteSend s fun t => CallDone k 0x31 [] t ∧ t.link = s.link) ∧
        (s.sys.role ≠ .hub → linkLost s = false → Gives .siteSend s fun t =>
          t = s.updLink fun l => { l with up := l.up ++ [⟨2, bytes, some k.id⟩] }))) ∧
    (∀ k, ServesFree 0x700 k s →
      (s.sys.role = .repeater → Gives .hubConfirm s (CallDone k 9 [])) ∧
      (s.sys.role = .head → linkLost s = true → Gives .hubConfirm s (CallDone k 0x31 [])) ∧
      ((s.sys.role = .standalone ∨ s.sys.role = .hub) → dirAt (k.arg 0) s = none → Gives .hubConfirm s (CallDone k 0x21 [])) ∧
      (∀ e, (s.sys.role = .standalone ∨ s.sys.role = .hub) → dirAt (k.arg 0) s = some e → e.valid = true → k.arg 1 = 3 →
        Gives .hubConfirm s (CallDone k (if e.blocked then 0x23
          else if e.prepay = true ∧ (accountAt e.account s).credit ≤ 0 then 0x24 else 0) [])))

/-- 01 R13, 12 R257, R259, R263, R265, R268: the hub's round: the next number, the nodes in their order, each exchange answered,
retried once, or missed. -/
def Obligations.HubPollsTheRound : Prop :=
  ∀ s : State, Memory.wf s = true → hubRuns s = true →
    (s.link.todo = [] → s.link.ran = true → Gives .roundStart s fun t =>
      t.link.roundCtr = (s.link.roundCtr + 1) % 2 ^ 32 ∧ t.link.todo = roundOrder ((s.link.roundCtr + 1) % 2 ^ 32) s ∧
      t.link.roundAt = some s.sys.usec ∧ t.link.poll.isSome = !t.link.todo.isEmpty ∧
      ∀ c, c < 256 → (chanAt c t).answered = false) ∧
    (s.link.todo ≠ [] ∨ s.link.ran = false → Gives .roundStart s fun t => t = s) ∧
    (∀ c rest, s.link.todo = c :: rest → c < 256 →
      (∀ f a r, s.link.poll = some f → answerFails f a s = none → Gives (.answer a r) s fun t => t.link.todo = rest ∧ (nodeAt c t).missed = false ∧ (nodeAt c t).missRun = 0 ∧
        (nodeAt c t).seen = s.link.roundCtr ∧ (nodeAt c t).inert = a.state.getLsbD 4 ∧ (chanAt c t).answered = true ∧
        (chanAt c t).evReq = a.evReq.toNat ∧ (chanAt c t).closed = a.state.getLsbD 3 ∧ t.link.retrying = false) ∧
      (s.link.retrying = false → Gives (.exchangeFail .silent) s fun t => t.link.todo = s.link.todo ∧ t.link.retrying = true ∧
        getF t Reg.LNK_COUNT_RETRIES = satInc 0xFFFF (getF s Reg.LNK_COUNT_RETRIES)) ∧
      (s.link.retrying = true → Gives (.exchangeFail .silent) s fun t => t.link.todo = rest ∧ t.link.retrying = false ∧
        (nodeAt c t).missed = true ∧ (nodeAt c t).missRun = satInc 255 (nodeAt c s).missRun ∧
        getF t Reg.LNK_COUNT_MISSES = satInc 0xFFFF (getF s Reg.LNK_COUNT_MISSES) ∧
        (rest = [] → t.link.ran = false ∧ t.link.poll = none))) ∧
    (s.link.todo = [] → ∀ why, Gives (.exchangeFail why) s fun t => t = s)

/-- 13 R284, R285, R289, R292, R296 to R301: the allocation run and what the host and the strands ask of it: no grant in force
rises for a channel that did not answer, and ALLOC_CURRENT stays within the grants. -/
def Obligations.SiteAllocation : Prop :=
  ∀ s : State, Memory.wf s = true →
    (hubRuns s = true → s.link.todo = [] → s.link.ran = false → Gives .allocationRun s fun t =>
      t.link.ran = true ∧ t.alloc.ownReq = none ∧ getF t Reg.ALLOC_SAFE_FALLBACK = fallbackNow s ∧
      getF t Reg.ALLOC_BUDGET_VALUE = importBudget s % 2 ^ 32 ∧ t.pilot.alloc ≤ max (grants t).1 (grants t).2 ∧
      ∀ c, c ≠ 0 → (chanAt c s).answered = false →
        (chanAt c t).imp.grant = (chanAt c s).imp.grant ∧ (chanAt c t).exp.grant = (chanAt c s).exp.grant) ∧
    (s.link.todo ≠ [] ∨ s.link.ran = true → Gives .allocationRun s fun t => t = s) ∧
    (domainOn 4 s = true →
      Gives .inputStale s (fun t => getF t Reg.ALLOC_STATUS_STALE = 1 ∧ t.alloc = s.alloc) ∧
      (getF s Reg.ALLOC_SA_DEF_SA_TMO ≠ 0 → Gives .saTimeout s fun t => getF t Reg.ALLOC_SA_WRITTEN = 0 ∧
        (s.sys.role = .standalone → s.alloc.released = false → grants t = (getF s Reg.ALLOC_SA_DEF_DEFAULT, 0) ∧
          t.pilot.alloc ≤ getF s Reg.ALLOC_SA_DEF_DEFAULT)) ∧
      (getF s Reg.ALLOC_SA_DEF_SA_TMO = 0 → Gives .saTimeout s fun t => t = s) ∧
      (s.sys.role = .hub → ∀ c : BitVec 8, Gives (.removeReserveEnd c) s fun t => (chanAt c.toNat t).leaving = 0 ∧
        ∀ d, d ≠ c.toNat → chanAt d t = chanAt d s)) ∧
    (HostServes Reg.ALLOC_SA_IMPORT.addr s → ∀ imp exp : BitVec 14, Gives (.allocSa imp exp) s fun t => Answered 0 t ∧
      getF t Reg.ALLOC_SA_IMPORT = min 800 imp.toNat ∧ getF t Reg.ALLOC_SA_EXPORT = min 800 exp.toNat ∧
      getF t Reg.ALLOC_SA_WRITTEN = 1 ∧ (s.sys.role = .standalone → grants t = (min 800 imp.toNat, min 800 exp.toNat) ∧
        t.pilot.alloc ≤ max (min 800 imp.toNat) (min 800 exp.toNat))) ∧
    (∀ k, ServesFree 0x701 k s →
      (s.sys.role = .repeater → Gives .allocRequest s (CallDone k (0x3FFF + 9 * 0x10000) [])) ∧
      (s.sys.role = .standalone → requestOk (k.arg 0) (k.arg 1) (k.arg 2) = false → Gives .allocRequest s fun t =>
        CallDone k (0x3FFF + 8 * 0x10000) [] t ∧ t.alloc = s.alloc) ∧
      (s.sys.role = .standalone → requestOk (k.arg 0) (k.arg 1) (k.arg 2) = true → Gives .allocRequest s fun t =>
        t.alloc = { s.alloc with released := false } ∧
        CallDone k (min (k.arg 0) (if k.arg 2 = 0 then (grants t).1 else (grants t).2)) [] t) ∧
      (s.sys.role = .head → linkLost s = true → requestOk (k.arg 0) (k.arg 1) (k.arg 2) = true → Gives .allocRequest s
        (CallDone k (0x3FFF + 0x31 * 0x10000) [])) ∧
      (s.sys.role = .hub → hubOutlet s = true → requestOk (k.arg 0) (k.arg 1) (k.arg 2) = true → s.alloc.ownReq = none →
        Gives .allocRequest s fun t => t.alloc.ownReq = some k.id ∧ t.alloc.ownDir = k.arg 2 ∧
          (if k.arg 2 = 0 then (chanAt 0 t).imp.req else (chanAt 0 t).exp.req) = some (k.arg 0))) ∧
    (∀ k, ServesFree 0x702 k s →
      (s.sys.role = .repeater → Gives .allocRelease s fun t => CallDone k 9 [] t ∧ t.alloc = s.alloc) ∧
      (s.sys.role = .standalone → Gives .allocRelease s fun t => CallDone k 0 [] t ∧ grants t = (0, 0) ∧ t.pilot.alloc = 0) ∧
      (s.sys.role = .hub → s.alloc.ownReq = none → Gives .allocRelease s fun t => CallDone k 0 [] t ∧
        grants t = (0, 0) ∧ (chanAt 0 t).imp.req = none ∧ (chanAt 0 t).exp.req = none ∧ t.pilot.alloc = 0) ∧
      (s.sys.role = .head → s.sys.paired = true → s.link.reqs = [] → Gives .allocRelease s fun t => CallDone k 0 [] t ∧
        t.link.relWait = true ∧ grants t = (0, 0) ∧ t.pilot.alloc = 0 ∧ t.link.reqs = [⟨.alloc 0 0 0, none⟩]))

/-- 12 R279 to R281, 16 R353: the join window, join requests, the pairing and its end, leaving a site. -/
def Obligations.JoiningAndPairing : Prop :=
  ∀ s : State, Memory.wf s = true →
    (HostServes Reg.LNK_JOIN_OPEN.addr s → ∀ win : BitVec 16, Gives (.lnkJoinOpen win) s fun t => Answered 0 t ∧
      getF t Reg.LNK_JOIN_OPEN = 1 ∧ getF t Reg.LNK_JOIN_WIN = max 10 win.toNat ∧ t.link = s.link) ∧
    (domainOn 4 s = true → Gives .joinWindowClose s fun t => getF t Reg.LNK_JOIN_OPEN = 0 ∧ t.link = s.link) ∧
    (hubRuns s = true → s.link.pairing = none →
      ∀ ident repeater snr (sponsor : Received (BitVec 8)), channelOf ident s = none →
        (∀ c, freeChannel s = some c → Gives (.joinRequest ident repeater snr sponsor) s fun t =>
          (∃ p, t.link.pairing = some p ∧ p.channel = c ∧ p.ident = ident ∧ p.repeater = repeater ∧ p.slot = none ∧
            p.sponsor = sponsor.frame.toNat) ∧ (∃ q, t.link.joinReq = some q ∧ q.channel = some c ∧ q.again = false) ∧
          t.link.nodes = s.link.nodes ∧
          (ident, .joined (BitVec.ofNat 8 c) (BitVec.ofNat 14 (siteFallback s))) ∈ t.link.joinSent) ∧
        (freeChannel s = none → Gives (.joinRequest ident repeater snr sponsor) s fun t => t.link.pairing = none ∧
          (∃ q, t.link.joinReq = some q ∧ q.channel = none) ∧
          (ident, .full (BitVec.ofNat 14 (siteFallback s))) ∈ t.link.joinSent)) ∧
    (domainOn 4 s = true → s.sys.role = .head → s.sys.paired = false → installer s = true → s.link.joinBarred = false →
      ∀ ident repeater snr sponsor, Gives (.joinRequest ident repeater snr sponsor) s fun t =>
        t = s.updLink fun l => { l with joinTried := true }) ∧
    (domainOn 4 s = true → s.sys.role = .head → s.sys.mode ≠ .inert →
      (∀ c fb input, s.sys.paired = false → s.link.joinTried = true → Gives (.joinFrame ⟨.joined c fb, input⟩) s fun t =>
        t.link.joinTried = false ∧ t.link.fallbackA = fb.toNat ∧ ∃ p, t.link.pairing = some p ∧ p.channel = c.toNat ∧ p.slot = none) ∧
      (∀ fb input, s.sys.paired = false → s.link.joinTried = true → Gives (.joinFrame ⟨.full fb, input⟩) s fun t =>
        t.link.joinTried = false ∧ t.link.joinBarred = true ∧ getF t Reg.LNK_JOIN_STAT_RESULT = 0x30 ∧
        getF t Reg.LNK_JOIN_STAT_FALLBACK = fb.toNat) ∧
      (∀ input, s.sys.paired = true → Gives (.joinFrame ⟨.leave, input⟩) s fun t => t.sys.paired = false ∧ t.link.nodeKnot = none ∧
        t.link.linkSlot = none ∧ grants t = (0, 0) ∧ t.pilot.alloc = 0) ∧
      (∀ eph site input, Gives (.joinFrame ⟨.hubKey eph site false, input⟩) s fun t => t = receive input s)) ∧
    (∀ p eph ledgerKey input, hubRuns s = true → s.link.pairing = some p → p.slot = none →
      let key := Config.pairKey (Config.ecdh p.eph eph)
      let code := (Config.sha256 (Config.publicKey false p.eph ++ eph)).toNat / 2 ^ 236 % 1000000
      (∀ i u, place (pairWork key) (receive input s) = (some i, u) → Gives (.pairingReply eph ledgerKey ⟨p.ident, input⟩) s fun t =>
        (∃ q, t.link.pairing = some q ∧ q.slot = some i ∧ q.peer = eph ∧ q.ledgerKey = ledgerKey ∧ q.channel = p.channel) ∧
        getF t Reg.KEY_PAIR_CODE = code ∧ getF t Reg.KEY_PAIR_PENDING = 1) ∧
      (∀ u, place (pairWork key) (receive input s) = (none, u) → Gives (.pairingReply eph ledgerKey ⟨p.ident, input⟩) s fun t =>
        t.link.pairing = none ∧ getF t Reg.KEY_PAIR_PENDING = 0)) ∧
    (∀ p i, HostServes Reg.KEY_PAIR_OK.addr s → s.sys.role = .hub → s.link.pairing = some p → p.slot = some i →
      p.channel < 256 → Gives .keyPairOk s fun t => Answered 0 t ∧ t.link.pairing = none ∧ getF t Reg.KEY_PAIR_PENDING = 0 ∧
        (nodeAt p.channel t).reg = true ∧ (nodeAt p.channel t).ident = p.ident ∧ (nodeAt p.channel t).missed = false) ∧
    (∀ p, s.link.pairing = some p → getB s Reg.KEY_PAIR_PENDING = true → s.sys.role = .hub → Gives .pairingTimeout s fun t =>
      t.link.pairing = none ∧ getF t Reg.KEY_PAIR_PENDING = 0 ∧ t.link.nodes = s.link.nodes) ∧
    (HostServes Reg.LNK_REMOVE_GO.addr s → ∀ c : BitVec 8,
      (s.sys.role ≠ .hub → Gives (.lnkRemove c) s fun t => Answered 6 t ∧ t.link = s.link) ∧
      (s.sys.role = .hub → (nodeAt c.toNat s).reg = true → Gives (.lnkRemove c) s fun t => Answered 0 t ∧
        (nodeAt c.toNat t).reg = false ∧ (chanAt c.toNat t).leaving = (askOf false c.toNat s).committed ∧
        c.toNat ∉ t.link.todo ∧ ∀ d, d ≠ c.toNat → (nodeAt d t).reg = (nodeAt d s).reg)) ∧
    (HostServes Reg.LNK_UNPAIR_LEAVE.addr s →
      (s.sys.role = .hub → Gives .lnkUnpair s fun t => Answered 6 t ∧ t.key = s.key ∧ t.sys.paired = s.sys.paired) ∧
      (s.sys.role = .head → installer s = false → Gives .lnkUnpair s fun t => Answered 4 t ∧ t.key = s.key) ∧
      (s.sys.role = .head → installer s = true → Gives .lnkUnpair s fun t => Answered 0 t ∧ t.sys.paired = false))

/-- 14 R305 to R313, R317: inventories, the pulse that ends STANDBY, and the reader's services. -/
def Obligations.ReaderCommands : Prop :=
  ∀ s : State, Memory.wf s = true →
    (readerFree s = true → s.sys.mode ≠ .standby → ∀ cards,
      let found := (foundCards (getF s Reg.RD_CFG_TYPES) cards).take 7
      (sameUids found s.rd.cards = false → Gives (.inventory cards []) s fun t =>
        t.rd.cards = found ∧ t.rd.pres = s.rd.pres + 1 ∧
        t.rd.tooMany = decide (7 < (foundCards (getF s Reg.RD_CFG_TYPES) cards).length) ∧
        getF t (Reg.RD_UID_HI_LEN 0) = (found.head?.map (·.uid.length)).getD 0 ∧
        getF t (Reg.RD_UID_HI_TYPE 0) = (found.head?.map fun c => if c.typeB then 2 else 1).getD 0) ∧
      (sameUids found s.rd.cards = true → Gives (.inventory cards []) s fun t =>
        t.rd.cards = s.rd.cards ∧ t.rd.pres = s.rd.pres ∧ t.cap = s.cap ∧
        getF t Reg.RD_STATE_INVENTORIES = (getF s Reg.RD_STATE_INVENTORIES + 1) % 2 ^ 16)) ∧
    (readerFree s = false → ∀ cards faults, Gives (.inventory cards faults) s fun t => t = s) ∧
    (readerFree s = true → s.sys.mode = .standby → ∀ change : BitVec 8,
      (clamp 1 50 (getF s Reg.RD_CFG_DET_TH) < change.toNat → Gives (.detectionPulse change) s fun t =>
        t.sys.mode = roleMode s.sys.role ∧ t.sys.standbyReady = false) ∧
      (change.toNat ≤ clamp 1 50 (getF s Reg.RD_CFG_DET_TH) → Gives (.detectionPulse change) s fun t => t = fieldOff s)) ∧
    (∀ k, ServesCall 0x801 k s →
      (∀ card, k.pres = s.rd.pres → s.rd.cards[k.arg 0]? = some card →
        (∀ identity sig, (profileOf identity s = none → Gives (.readerCheck (.card identity sig)) s (CallDone k 0 [0])) ∧
          ∀ e, profileOf identity s = some e →
            (genuine e card.uid sig = true → Gives (.readerCheck (.card identity sig)) s (CallDone k 0 [1])) ∧
            (genuine e card.uid sig = false → Gives (.readerCheck (.card identity sig)) s fun t => CallDone k 0x26 [] t ∧
              getF t (Reg.RD_VIOL_COUNT 4) = satInc 0xFFFF (getF s (Reg.RD_VIOL_COUNT 4)))) ∧
        Gives (.readerCheck .late) s (fun t => CallDone k 0x25 [] t ∧
          getF t (Reg.RD_VIOL_COUNT 3) = satInc 0xFFFF (getF s (Reg.RD_VIOL_COUNT 3))) ∧
        Gives (.readerCheck .gone) s (CallDone k 0x25 [])) ∧
      (k.pres ≠ s.rd.pres → ∀ answer, Gives (.readerCheck answer) s (CallDone k 0x25 []))) ∧
    (∀ k, ServesCall 0x802 k s →
      (15 < k.arg 2 → ∀ answer, Gives (.cardAuth answer) s (CallDone k 8 [])) ∧
      (authRefused k s = none → k.pres = s.rd.pres → ∀ card, s.rd.cards[k.arg 0]? = some card →
        let want := Config.aes128 (slotKey (k.arg 1) s) ((Config.freeWide s.sys.freeCtr).setWidth 128)
        Gives (.cardAuth (.block want)) s (CallDone k 0 [1]) ∧
        (∀ r, r ≠ want → Gives (.cardAuth (.block r)) s fun t => CallDone k 0x2A [] t ∧
          getF t (Reg.RD_VIOL_COUNT 7) = satInc 0xFFFF (getF s (Reg.RD_VIOL_COUNT 7))) ∧
        Gives (.cardAuth .gone) s (CallDone k 0x25 []))) ∧
    (∀ k, ServesCall 0x800 k s →
      let len := bits (k.arg 1) 24 4
      let uid := (leBytes (k.arg 0) 4 ++ leBytes (k.arg 1) 3).take len
      let present := s.rd.cards.any fun x => x.uid.length == len && x.uid.take 7 == uid
      (present = true → s.rd.tooMany = true → Gives .dirLookup s (CallDone k 0x22 [])) ∧
      (present = false → (len = 4 ∨ len = 7) →
        (∀ u, lookup uid s = (none, u) → Gives .dirLookup s (CallDone k 0x21 [])) ∧
        (∀ j u e, lookup uid s = (some j, u) → dirAt j u = some e → Gives .dirLookup s (CallDone k 0
          [BitVec.ofNat 32 j, BitVec.ofNat 32 (e.flags % 0x10000 + 0x10000 * (e.gen % 256) +
            0x1000000 * ofBool (e.expired s.sys.ltime)), BitVec.ofNat 32 e.account]))))

/-- 14 R315 to R323: puts, deletes and lookups of the host, deltas, and what the hub publishes. -/
def Obligations.DirectoryCommands : Prop :=
  ∀ s : State, Memory.wf s = true → risingFrom 0 s.rd.dir = true →
    (HostServes Reg.DIR_CMD_OP.addr s → ∀ offset : BitVec 18,
      let o := offset.toNat / 4 * 4
      let bytes := bytesAt 0 s.cap.shared o 32
      let e := DirEntry.ofBytes bytes
      (dirOpen s = false → Gives (.dirCmdPut offset) s (fun t => Answered 6 t ∧ t.rd = s.rd) ∧
        Gives (.dirCmdDelete offset) s fun t => Answered 6 t ∧ t.rd = s.rd) ∧
      (dirOpen s = true → s.rd.cmdLater.isSome = true → Gives (.dirCmdPut offset) s fun t => Answered 1 t ∧ t.rd = s.rd) ∧
      (dirOpen s = true → s.rd.cmdLater = none → dirWaits s = true → Gives (.dirCmdPut offset) s fun t =>
        Answered 0 t ∧ getF t Reg.DIR_RESULT_BUSY = 1 ∧ t.rd = { s.rd with cmdLater := some ⟨1, o, bytes⟩ }) ∧
      (dirOpen s = true → s.sys.role = .standalone → s.rd.cmdLater = none → dirWaits s = false →
        Gives (.dirCmdPut offset) s (fun t => Answered 0 t ∧ getF t Reg.DIR_RESULT_BUSY = 0 ∧
          getF t Reg.DIR_RESULT_CODE = (dirPut e s).1 ∧ t.rd.dir = (dirPut e s).2.2.rd.dir ∧
          ((dirPut e s).1 = 0 → dirAt (dirPut e s).2.1 t = some e) ∧
          (e.len ≠ 4 → e.len ≠ 7 → getF t Reg.DIR_RESULT_CODE = 0x21 ∧ t.rd = s.rd)) ∧
        (∀ j u, lookup e.uidBytes s = (some j, u) → Gives (.dirCmdDelete offset) s fun t => Answered 0 t ∧
          getF t Reg.DIR_RESULT_CODE = 0 ∧ dirAt j t = none ∧ ∀ m, m ≠ j → dirAt m t = dirAt m u) ∧
        (∀ u, lookup e.uidBytes s = (none, u) → Gives (.dirCmdDelete offset) s fun t => Answered 0 t ∧
          getF t Reg.DIR_RESULT_CODE = 0x21 ∧ t.rd = u.rd)) ∧
      (dirOpen s = true → s.sys.role = .hub → s.rd.cmdLater = none → dirWaits s = false → s.rd.ops.length + 1 < 14562 →
        ∀ j u, lookup e.uidBytes s = (some j, u) → Gives (.dirCmdDelete offset) s fun t =>
          getF t Reg.DIR_RESULT_CODE = 0 ∧ t.rd.ops = s.rd.ops ++ [⟨true, e⟩] ∧ t.rd.seq = s.rd.seq) ∧
      (s.rd.cmdLater = none → s.sys.pause = false → s.sys.takeover = false → (e.len = 4 ∨ e.len = 7) →
        (∀ j u x, lookup e.uidBytes s = (some j, u) → dirAt j u = some x → Gives (.dirCmdLookup offset) s fun t =>
          Answered 0 t ∧ getF t Reg.DIR_RESULT_CODE = 0 ∧ getF t Reg.DIR_RESULT_SLOT = j % 2 ^ 21 ∧ t.rd = u.rd ∧
          t.cap.shared = putBytes 0 s.cap.shared o x.bytes) ∧
        (∀ u, lookup e.uidBytes s = (none, u) → Gives (.dirCmdLookup offset) s fun t =>
          Answered 0 t ∧ getF t Reg.DIR_RESULT_CODE = 0x21 ∧ t.rd = u.rd ∧ t.cap = s.cap))) ∧
    (HostServes Reg.DIR_DELTA_CTRL_APPLY.addr s →
      let u := setF Reg.DIR_DELTA_STAT_BUSY 0 s
      let image := nvBytes 0x3F70000 (32 + 36 * min 14562 (fieldOf (nvBytes 0x3F70000 32 s) 8 4)) s
      (dirOpen s = false → Gives .dirDeltaApply s fun t => Answered 6 t ∧ t.rd = s.rd) ∧
      (dirOpen s = true → s.rd.deltaLater = true → Gives .dirDeltaApply s fun t => Answered 1 t ∧ t.rd = s.rd) ∧
      (dirOpen s = true → s.rd.deltaLater = false → dirWaits s = true → Gives .dirDeltaApply s fun t => Answered 0 t ∧
        t.rd = { s.rd with deltaLater := true } ∧ getF t Reg.DIR_DELTA_STAT_BUSY = 1) ∧
      (dirOpen s = true → s.sys.role = .standalone → s.rd.deltaLater = false → dirWaits s = false →
        (deltaHead image = none → Gives .dirDeltaApply s fun t => Answered 0 t ∧ t.rd = s.rd ∧
          getF t Reg.DIR_DELTA_STAT_RESULT = 0x29) ∧
        (∀ h, deltaHead image = some h → deltaCrcOk (image.take (32 + 36 * h.nOps)) = true → h.full = false →
          (h.baseSeq ≠ s.rd.seq → Gives .dirDeltaApply s fun t => Answered 0 t ∧ t.rd = s.rd ∧
            getF t Reg.DIR_DELTA_STAT_RESULT = 0x28) ∧
          (h.baseSeq = s.rd.seq → s.rd.series = none →
            let r := runOps (deltaOps h.nOps ((image.take (32 + 36 * h.nOps)).drop 32)) u
            Gives .dirDeltaApply s fun t => Answered 0 t ∧ t.rd = { r.2.2.rd with seq := h.newSeq } ∧
              getF t Reg.DIR_DELTA_STAT_RESULT = r.2.1)))) ∧
    (inService s.sys.mode = true → s.sys.role = .hub → s.rd.ops ≠ [] → dirWaits s = false → Gives .dirPublish s fun t =>
      t.rd.ops = [] ∧ t.rd.seq = (s.rd.seq + 1) % 2 ^ 32 ∧
      (dirHeads s ≠ [] → ∃ p, t.link.pubs = s.link.pubs ++ [p] ∧ p.kind = 2 ∧ p.members = dirHeads s ∧
        p.bytes = deltaBytes false false 1 1 s.rd.seq (s.rd.seq + 1) s.rd.ops)) ∧
    (s.sys.role ≠ .hub ∨ s.rd.ops = [] → Gives .dirPublish s fun t => t = s)

/-- 15 R328, R329, R334, R336, R339: a field transaction at the tag, from its start to its end, and the commands it reads with. -/
def Obligations.TagTransactions : Prop :=
  ∀ s : State, Memory.wf s = true →
    (domainOn 1 s = true → tagEnabled s = true → s.tag.quiet = false → muted s = false → s.tag.inTx = false → Gives .tagTransactionStart s fun t =>
      t.tag = { s.tag with inTx := true, appSel := false, file := none, knock := none, auth := false, wrote := false,
                           readTo := 0, committed := false, wrMode := tagWrMode s } ∧
      getF t Reg.TAG_LAST_CODE = 0 ∧ t.sys.rfField = true) ∧
    (s.tag.quiet = true ∨ muted s = true ∨ tagEnabled s = false → Gives .tagTransactionStart s fun t => t = s) ∧
    (∀ c, c = .deselect ∨ c = .hlta ∨ c = .tagIdleTimeout →
      (s.tag.inTx = true → Gives c s fun t => t.tag.inTx = false ∧ t.tag.auth = false ∧
        t.tag.quiet = (s.tag.quiet || completed s) ∧
        (completed s = true → t.tag.quietLeft = tagQuietT s) ∧ t.tag.count = (s.tag.count + 1) % 0x10000 ∧
        getB t Reg.TAG_LAST_COMPLETED = completed s ∧ getB t Reg.TAG_LAST_AUTH = s.tag.auth ∧
        getB t Reg.TAG_LAST_WRITTEN = s.tag.wrote ∧ t.tag.mem = s.tag.mem) ∧
      (s.tag.inTx = false → Gives c s fun t => t = s)) ∧
    Gives .quietHoldEnd s (fun t => t = s.updTag fun t => { t with quiet := false, quietLeft := 0 }) ∧
    (s.tag.inTx = false ∨ muted s = true → ∀ off le, Gives (.readBinary off le) s fun t => t = s) ∧
    (s.tag.inTx = true → muted s = false →
      let replies (bytes : List Byte) (t : State) : Prop := t.tag.resp = bytes ∧ t.tag.inTx = true ∧ t.tag.mem = s.tag.mem
      let counted (k : Fin 4) (t : State) : Prop := t.tag.viol.get k = satInc 0xFFFF (s.tag.viol.get k)
      Gives (.selectApplication selectNdef) s (fun t => replies [0x90, 0x00] t ∧ t.tag.appSel = true ∧ t.tag.file = none) ∧
      (∀ apdu, apdu ≠ selectNdef → Gives (.selectApplication apdu) s fun t =>
        replies [if knownPair apdu then 0x67 else 0x6D, 0x00] t ∧ counted 0 t ∧ t.tag.appSel = s.tag.appSel) ∧
      (∀ (id : BitVec 16) f, fileOfId id.toNat = some f →
        (s.tag.appSel = true → Gives (.selectFile id) s fun t => replies [0x90, 0x00] t ∧ t.tag.file = some f) ∧
        (s.tag.appSel = false → Gives (.selectFile id) s fun t => replies [0x6A, 0x82] t ∧ t.tag.file = s.tag.file)) ∧
      (∀ (off : BitVec 16) (le : BitVec 8) f, s.tag.file = some f → 0 < le.toNat → le.toNat ≤ 246 →
        (f ≠ .comm ∨ s.tag.auth = true → off.toNat + le.toNat ≤ (fileAt f s).2 → Gives (.readBinary off le) s
          (replies (tagBytes ((fileAt f s).1 + off.toNat) le.toNat s ++ [0x90, 0x00]))) ∧
        (f ≠ .comm ∨ s.tag.auth = true → (fileAt f s).2 < off.toNat + le.toNat → Gives (.readBinary off le) s
          (replies [0x6B, 0x00])) ∧
        (f = .comm → s.tag.auth = false → Gives (.readBinary off le) s (replies [0x69, 0x82]))) ∧
      (∀ (off : BitVec 16) (le : BitVec 8), le.toNat = 0 ∨ 246 < le.toNat → Gives (.readBinary off le) s fun t =>
        replies [0x67, 0x00] t ∧ counted 0 t) ∧
      Gives .getOrigin s (replies (tagBytes 0x40 64 s ++ [0x90, 0x00])) ∧
      (∀ key (ch : BitVec 128), tagKey s = some key →
        let ct : BitVec 128 := (Config.freeWide s.sys.freeCtr).setWidth 128
        Gives (.knock ch) s fun t => replies (beBytes ct.toNat 16 ++ knockMac key 0x4B ch ct ++ [0x90, 0x00]) t ∧
          t.tag.knock = some (ch, ct) ∧ t.tag.auth = false) ∧
      (∀ key ch ct (proof : BitVec 64), tagKey s = some key → s.tag.knock = some (ch, ct) →
        (knockMac key 0x50 ct ch = beBytes proof.toNat 8 → Gives (.knockProof proof) s fun t =>
          replies [0x90, 0x00] t ∧ t.tag.auth = true) ∧
        (knockMac key 0x50 ct ch ≠ beBytes proof.toNat 8 → Gives (.knockProof proof) s fun t =>
          replies [0x63, 0x00] t ∧ counted 1 t ∧ t.tag.auth = s.tag.auth)))

/-- 15 R330 to R333, 02 R28: what a field writes, what firmware writes into the tag, and the field without main power. -/
def Obligations.TagWritesAndReceipts : Prop :=
  ∀ s : State, Memory.wf s = true →
    (s.tag.inTx = true → muted s = false →
      let replies (bytes : List Byte) (t : State) : Prop := t.tag.resp = bytes ∧ t.tag.inTx = true
      (∀ (off : BitVec 16) (data : List Byte) (vr : BitVec 8), data.length ≤ 246 →
        (s.tag.file = some .comm → writeRights s = true → off.toNat + data.length ≤ 0x400 →
          (s.tag.wrMode = 0 ∨ tagVmin s ≤ vr.toNat → Gives (.updateBinary off data vr) s fun t =>
            replies [0x90, 0x00] t ∧ t.tag.wrote = true ∧
            t.tag.mem = putBytes 0 s.tag.mem (commBase (writeCopy s) + off.toNat) data) ∧
          (s.tag.wrMode ≠ 0 → vr.toNat < tagVmin s → Gives (.updateBinary off data vr) s fun t =>
            replies [0x65, 0x81] t ∧ t.tag.mem = s.tag.mem ∧ getF t Reg.TAG_LAST_CODE = 0x41)) ∧
        (writeRights s = false → Gives (.updateBinary off data vr) s fun t =>
          replies [0x69, 0x82] t ∧ t.tag.mem = s.tag.mem ∧ t.tag.viol.get 2 = satInc 0xFFFF (s.tag.viol.get 2)) ∧
        (writeRights s = true → s.tag.file ≠ some .comm → Gives (.updateBinary off data vr) s fun t =>
          replies [0x69, 0x82] t ∧ t.tag.mem = s.tag.mem ∧ t.tag.viol = s.tag.viol)) ∧
      (∀ vr : BitVec 8, writeRights s = true → (s.tag.wrMode ≠ 2 ∨ tagVmin s ≤ vr.toNat) →
        (recordOk (tagBytes (commBase (writeCopy s)) 0x400 s) = true → Gives (.tagCommit vr) s fun t =>
          replies [0x90, 0x00] t ∧ t.tag.commAct = writeCopy s ∧ t.tag.mem = s.tag.mem ∧ t.tag.committed = true ∧
          (if s.sys.booted && (mayCommission s || s.sys.mode == .commission) then
            t.sys.mode = .commission ∧ t.tag.commPend = false ∧ t.sys.staged = recordItems t
           else t.sys.mode = s.sys.mode ∧ t.tag.commPend = true)) ∧
        (recordOk (tagBytes (commBase (writeCopy s)) 0x400 s) = false → Gives (.tagCommit vr) s fun t =>
          replies [0x69, 0x82] t ∧ t.tag.commAct = s.tag.commAct ∧ t.sys.mode = s.sys.mode)) ∧
      (∀ vr : BitVec 8, writeRights s = false → Gives (.tagCommit vr) s fun t => replies [0x69, 0x82] t ∧
        t.tag.commAct = s.tag.commAct ∧ t.tag.viol.get 2 = satInc 0xFFFF (s.tag.viol.get 2))) ∧
    (∀ k, ServesCall 0x900 k s →
      let n := clamp 1 8 (getF s Reg.TAG_CFG_RCPT_N)
      (s.tag.inTx = true → Gives .tagReceipt s fun t => CallDone k 0x40 [] t ∧ t.tag = s.tag) ∧
      (s.tag.inTx = false → ownRecord 0x02 (k.arg 0) s = none → Gives .tagReceipt s fun t => CallDone k 0 [] t ∧
        t.tag = s.tag ∧ getF t Reg.TAG_ERR_BADSEQ = 1) ∧
      (∀ r, s.tag.inTx = false → ownRecord 0x02 (k.arg 0) s = some r →
        (receiptsFull n s = true → Gives .tagReceipt s fun t => CallDone k 0x42 [] t ∧ t.tag = s.tag) ∧
        (receiptsFull n s = false → sealAfter (k.arg 0) s = none → Gives .tagReceipt s fun t => t.cap = s.cap ∧ t.tag = s.tag) ∧
        (receiptsFull n s = false → (sealAfter (k.arg 0) s).isSome = true → s.sys.pfwLow = false → Gives .tagReceipt s fun t =>
          CallDone k 0 [] t ∧ t.tag.active = 1 - s.tag.active ∧ t.tag.rcptSeq = k.arg 0 ∧
          t.tag.receipts = ((k.arg 0, false) :: s.tag.receipts).take n))) ∧
    (s.sys.mode = .noPower ∨ s.sys.mode = .backup → Gives .rfFieldAppear s fun t => t.sys.mode = .tagOnly ∧
      t.sys.rfField = true ∧ t.tag = s.tag) ∧
    (s.sys.mode ≠ .noPower → s.sys.mode ≠ .backup → Gives .rfFieldAppear s fun t =>
      t = s.updSys fun y => { y with rfField := true }) ∧
    (s.sys.mode = .tagOnly → Gives .fieldLost s fun t => t.sys.rfField = false ∧ t.tag.inTx = false ∧
      t.sys.mode = if s.sys.vbackOk then .backup else .noPower) ∧
    (s.sys.mode ≠ .tagOnly → Gives .fieldLost s fun t => t.sys.rfField = false ∧ t.tag.inTx = false ∧ t.sys.mode = s.sys.mode)

/-- 16 R343 to R352: the key tree and the slots, as the host and the strands use them. -/
def Obligations.KeyTreeCommands : Prop :=
  ∀ s : State, Memory.wf s = true → risingFrom 0 s.key.knots = true →
    let scrubbed (k : Nat) (t : State) : Prop := ∀ i, i < 64 → ∀ w, (slotAt s i).work = some w → w.lineage.contains k = true →
      (slotAt t i).work = none
    let isCut (k : Nat) (t : State) : Prop := ∀ e, mapGet? s.key.knots k = some e →
      mapGet? t.key.knots k = some { e with epoch := e.epoch + 1, state := if k ≤ 6 then .live else .cut }
    (HostServes Reg.KEY_CMD_OP.addr s → getB s Reg.KEY_RESULT_BUSY = true → ∀ knot, Gives (.cut knot) s fun t =>
      Answered 1 t ∧ t.key = s.key) ∧
    (HostServes Reg.KEY_CMD_OP.addr s → getB s Reg.KEY_RESULT_BUSY = false →
      let result (code value : Nat) (t : State) : Prop :=
        Answered 0 t ∧ getF t Reg.KEY_RESULT_CODE = code ∧ getF t Reg.KEY_RESULT_VALUE = value % 2 ^ 12
      (keysOfMaster s = true → ∀ parent mask len, Gives (.create parent mask len) s fun t => Answered 6 t ∧ t.key = s.key) ∧
      (∀ (parent : BitVec 12) mask (len : BitVec 8) p, keysOfMaster s = false → knotAt parent.toNat s = some p → p.state ≠ .cut →
        let label := keyLabel (bits len.toNat 0 5) s
        0 < label.length → label.length ≤ 16 → p.depth < 8 → mask &&& ~~~p.mask = 0 →
        knotNamed parent.toNat label s = none → freeKnots s ≠ [] → Gives (.create parent mask len) s fun t =>
          ∃ k, k ∈ freeKnots s ∧ result 0 k t ∧ mapGet? t.key.knots k =
            some ⟨parent.toNat, p.depth + 1, .live, mask, max (bits len.toNat 6 2) p.cutClass, label, 0⟩) ∧
      (∀ (parent : BitVec 12) (opt len : BitVec 8) k, subtreeOf parent.toNat s = some k → k ≠ 1 →
        deriveRefused parent.toNat (keyLabel len.toNat s) (bits opt.toNat 0 3) s = none →
        let w := workingKey parent.toNat (keyLabel len.toNat s) (bits opt.toNat 0 3) (opt.toNat.testBit 3) s
        (∀ i u, place w s = (some i, u) → Gives (.derive parent opt len) s fun t => result 0 i t ∧
          (slotAt t i).host = true ∧ (slotAt t i).work = some w) ∧
        (∀ u, place w s = (none, u) → Gives (.derive parent opt len) s (result 0x11 0))) ∧
      (∀ (parent : BitVec 12) opt len, subtreeOf parent.toNat s = some 1 → Gives (.derive parent opt len) s fun t =>
        result 8 0 t ∧ t.key = s.key) ∧
      (∀ slot : BitVec 12, (slotAt s slot.toNat).host = true → (slotAt s slot.toNat).firmware = false →
        strandHolds slot.toNat s = false → Gives (.release slot false) s fun t => result 0 0 t ∧
          (slotAt t slot.toNat).work = none ∧ t.key.retired = s.key.retired) ∧
      (∀ slot fails, (slotAt s slot.toNat).host = false → Gives (.release slot fails) s fun t => result 8 0 t ∧ t.key = s.key) ∧
      (∀ knot : BitVec 12, keysOfMaster s = false →
        (cutRefused knot.toNat s = none → s.sys.pause = false → Gives (.cut knot) s fun t => result 0 0 t ∧
          isCut knot.toNat t ∧ scrubbed knot.toNat t) ∧
        (cutRefused knot.toNat s = none → s.sys.pause = true → Gives (.cut knot) s fun t => Answered 0 t ∧
          getF t Reg.KEY_RESULT_BUSY = 1 ∧ t.key = { s.key with cutLater := some knot.toNat }) ∧
        (cutRefused knot.toNat s = some 0x0A → Gives (.cut knot) s fun t => Answered 4 t ∧ t.key = s.key)) ∧
      (∀ (parent : BitVec 12) mask (len : BitVec 8), keysOfMaster s = false →
        (installer s = false → Gives (.importKnot parent mask len) s fun t => Answered 4 t ∧ t.key = s.key) ∧
        (installer s = true → parent ≠ 4 → parent ≠ 6 → Gives (.importKnot parent mask len) s fun t =>
          result 8 0 t ∧ t.key = s.key) ∧
        (installer s = true → (parent = 4 ∨ parent = 6) →
          let from_ := getF s Reg.KEY_SRC_OFFSET / 4 * 4 + bits len.toNat 0 5
          Gives (.importKnot parent mask len) s fun t => Answered 0 t ∧
            ∀ x, byteAt 0 t.cap.shared x = if from_ ≤ x ∧ x < from_ + 32 then 0 else byteAt 0 s.cap.shared x) ∧
        (∀ p, installer s = true → (parent = 4 ∨ parent = 6) → knotAt parent.toNat s = some p → p.state ≠ .cut →
          let label := keyLabel (bits len.toNat 0 5) s
          let from_ := getF s Reg.KEY_SRC_OFFSET / 4 * 4 + bits len.toNat 0 5
          0 < label.length → label.length ≤ 16 → p.depth < 8 → mask &&& ~~~p.mask = 0 → knotNamed parent.toNat label s = none →
          freeKnots s ≠ [] → s.key.secrets.length < 256 → Gives (.importKnot parent mask len) s fun t =>
            ∃ k, k ∈ freeKnots s ∧ result 0 k t ∧ mapGet? t.key.knots k =
              some ⟨parent.toNat, p.depth + 1, .imported, mask, max (bits len.toNat 6 2) p.cutClass, label, 0⟩ ∧
              mapGet? t.key.secrets k = some (BitVec.ofNat 256 (beNat (bytesAt 0 s.cap.shared from_ 32))))) ∧
      (∀ (slot : BitVec 12) w, (slotAt s slot.toNat).work = some w →
        (isEcc w.engine = true → Gives (.readPublic slot) s fun t => result 0 0 t ∧ t.key = s.key ∧
          getF t Reg.KEY_PUB_LEN_BYTES = (if w.wide then 96 else 64) ∧
          ∀ k, k < 24 → getF t (Reg.KEY_PUB_BYTES k) = fieldOf (Config.publicKey w.wide w.key) (4 * k) 4) ∧
        (isEcc w.engine = false → Gives (.readPublic slot) s fun t => result 8 0 t ∧ t.key = s.key))) ∧
    (∀ k, ServesCall 0xA00 k s →
      (∀ x, x ∈ [2, 4, 6] → subtreeOf (k.arg 0) s = some x → 0 < k.arg 2 → k.arg 2 ≤ 64 →
        outsideWindow (getS s k.strand) (k.arg 1) (k.arg 2) = false → (k.arg 3).testBit 8 = false → heldSlots k.strand s = [] →
        let label := bytesAt 0 s.cap.caseMem (caseAddr s k.strand (k.arg 1)) (k.arg 2)
        let w := workingKey (k.arg 0) label (bits (k.arg 3) 0 3) ((k.arg 3).testBit 3) s
        (∀ c, deriveRefused (k.arg 0) label (bits (k.arg 3) 0 3) s = some c → Gives .keyDerive s fun t =>
          CallDone k c [] t ∧ t.key = s.key) ∧
        (∀ i u, deriveRefused (k.arg 0) label (bits (k.arg 3) 0 3) s = none → place w s = (some i, u) → Gives .keyDerive s fun t =>
          CallDone k 0 [BitVec.ofNat 32 i] t ∧ (slotAt t i).work = some w ∧
          t.key.holds = s.key.holds ++ [⟨k.strand, i, false⟩])) ∧
      (subtreeOf (k.arg 0) s = some 1 → Gives .keyDerive s fun t => CallDone k 8 [] t ∧ t.key = s.key)) ∧
    (∀ k, ServesCall 0xA01 k s →
      (∀ c, cutRefused (k.arg 0) s = some c → Gives .keyCut s fun t => CallDone k c [] t ∧ t.key = s.key) ∧
      (cutRefused (k.arg 0) s = none → Gives .keyCut s fun t => CallDone k 0 [] t ∧ isCut (k.arg 0) t ∧
        scrubbed (k.arg 0) t)) ∧
    (∀ k, ServesCall 0xA02 k s →
      (∀ h w, (heldSlots k.strand s).find? (·.slot = k.arg 0) = some h → h.cut = false → (slotAt s h.slot).work = some w →
        w.engine = engHmac → outsideWindow (getS s k.strand) (k.arg 1) (k.arg 2) = false →
        let mac := hmacBytes (beBytes w.key (if w.wide then 32 else 16))
          (bytesAt 0 s.cap.caseMem (caseAddr s k.strand (k.arg 1)) (k.arg 2))
        Gives .cryptoMac s (CallDone k 0 ((List.range 4).map fun j => BitVec.ofNat 32 (fieldOf mac (4 * j) 4)))) ∧
      (∀ h, (heldSlots k.strand s).find? (·.slot = k.arg 0) = some h → h.cut = true → Gives .cryptoMac s (CallDone k 0x10 (List.replicate 4 0))))

/-- 16 R354, R355, 02 R28: the presence windows open at a press and close together, with what they protected. -/
def Obligations.PresenceWindows : Prop :=
  ∀ s : State, Memory.wf s = true →
    let closed (t : State) : Prop :=
      installer t = false ∧ metrologist t = false ∧ getF t Reg.AO_PRES_STAT_LEFT = 0 ∧
      (presBits s ≠ 0 → domainOn 7 s = true → t.tag.commPend = false ∧ t.link.pairing = none ∧ t.link.joinTried = false ∧
        (∀ n, (getS t n).st ≠ .halted) ∧ (∀ k, k < 4 → getF t (Reg.CAP_BP_CTL_EN k) = 0) ∧
        (2 ≤ presBits s → getB s Reg.MET_CAL_CMD_COMMIT = false → t.met.staged = []) ∧
        (s.sys.mode = .commission → t.sys.mode = roleMode s.sys.role ∧ t.sys.staged = []) ∧
        (s.sys.mode ≠ .commission → t.sys.mode = s.sys.mode))
    (domainOn 0 s = true →
      (∀ jumper, Gives (.sealBtnPress jumper) s fun t => installer t = true ∧
        getF t Reg.AO_PRES_STAT_LEFT = clamp 30 900 (getF s Reg.AO_PRES_CFG_PRES_WIN) ∧
        metrologist t = (jumper || metrologist s) ∧ t.key.jumper = jumper ∧ t.link.joinBarred = false) ∧
      Gives (.presenceWindowClose false) s closed ∧
      Gives (.presenceWindowClose true) s (fun t => metrologist t = false ∧ installer t = installer s ∧ t.key.jumper = false ∧
        t.sys.mode = s.sys.mode ∧ t.link = s.link ∧ t.tag = s.tag)) ∧
    (domainOn 0 s = false → ∀ m, Gives (.sealBtnPress m) s (fun t => t = s) ∧ Gives (.presenceWindowClose m) s fun t => t = s) ∧
    (HostServes Reg.AO_PRES_CTRL_CLOSE.addr s → Gives .aoPresClose s fun t => Answered 0 t ∧ closed t)

/-- 17 R370 to R373: the requests for the display wait in order, a later one of a region in place of the earlier, and none is
taken for the legal region. -/
def Obligations.DisplayRequests : Prop :=
  ∀ (n : Fin 320) (arg : BitVec 32) (s : State), Memory.wf s = true →
    let waits (u : Upd) (t : State) : Prop :=
      t.plt = { s.plt with waiting := (s.plt.waiting.filter fun v => v.region != u.region || v.isRecover) ++ [u] }
    let refused (t : State) : Prop := t.plt = s.plt ∧ getF t Reg.PL_STATUS_LEGAL_REFUSED = 1
    (platenOn s = true →
      (∀ r a, 1 ≤ r → r ≤ 31 → a < 65536 →
        Gives (.platenProof n arg (BitVec.ofNat 32 (a + 65536 * r))) s
          (waits { region := r, kind := .proof, mode := 3, image := ⟨a, 0, List.replicate 32 0, false, false⟩,
                   tag := if speculative s n then some n else none }) ∧
        (speculative s n = false →
          Gives (.platenCommit n arg (BitVec.ofNat 32 (a + 65536 * r))) s
            (waits { region := r, kind := .commit, mode := 1, image := ⟨a, 0, List.replicate 32 0, false, false⟩ })) ∧
        Gives (.platenClear n (BitVec.ofNat 32 r)) s
          (waits { region := r, kind := .commit, mode := 1, image := ⟨0, 0, [], true, false⟩ })) ∧
      (∀ v : BitVec 25, speculative s n = true → entryFree n s = true →
        Gives (.platenCommit n arg (v.setWidth 32)) s fun t => t = addHeld n (.port 0xB01 arg (v.setWidth 32)) s) ∧
      (∀ v : BitVec 32, (v.toNat / 65536 % 256 = 0 ∨ 31 < v.toNat / 65536 % 256) →
        Gives (.platenProof n arg v) s refused ∧
        (speculative s n = false → Gives (.platenCommit n arg v) s refused)) ∧
      Gives (.platenClear n 0) s refused) ∧
    (platenOn s = false → ∀ v, Gives (.platenProof n arg v) s (fun t => t.plt = s.plt) ∧
      Gives (.platenCommit n arg v) s (fun t => t.plt = s.plt) ∧ Gives (.platenClear n v) s fun t => t.plt = s.plt) ∧
    (HostServes Reg.PL_CMD_MODE.addr s → ∀ (mode : BitVec 3) (r : BitVec 5) (a : BitVec 16),
      (s.sys.role = .head ∨ s.sys.role = .repeater → Gives (.plCmd mode r a) s fun t => Answered 6 t ∧ t.plt = s.plt) ∧
      ((s.sys.role = .standalone ∨ s.sys.role = .hub) →
        (3 < mode.toNat → Gives (.plCmd mode r a) s fun t => Answered 0 t ∧ t.plt = s.plt) ∧
        (mode.toNat ≤ 3 → r = 0 → Gives (.plCmd mode r a) s fun t => Answered 0 t ∧ refused t) ∧
        (mode.toNat ≤ 3 → r ≠ 0 → getB s Reg.PL_CMD_SRC_USE = false → Gives (.plCmd mode r a) s fun t => Answered 0 t ∧
          waits { region := r.toNat, kind := .commit, mode := mode.toNat,
                  image := ⟨a.toNat, 0, List.replicate 32 0, false, false⟩ } t)))

/-- 17 R360, R364 to R368, R371, R375 to R381: an update starts, drives its frames and ends; what stops every update, and what
is recovered afterwards. -/
def Obligations.UpdatesAndPanelPower : Prop :=
  ∀ s : State, Memory.wf s = true → risingFrom 0 s.plt.cur = true → platenOn s = true →
    let stopped (t : State) : Prop := t.plt.upds = [] ∧ t.plt.panelOn = false ∧ t.plt.waiting = s.plt.waiting ∧
      ∀ u ∈ s.plt.upds, u.region ∈ t.plt.unknown
    let recovers (ks : List Nat) (t : State) : Prop :=
      ∀ k ∈ ks, ∃ u ∈ t.plt.waiting, u.region = k ∧ u.isRecover = true ∧ u.mode = 4
    (nextUpd s = none → ∀ crackOk powerGood, Gives (.updateStart crackOk powerGood) s fun t => t = s) ∧
    (∀ u, nextUpd s = some u →
      let left (t : State) : Prop := t.plt.waiting = s.plt.waiting.erase u
      let ready : Prop := u.image.sound s = true ∧ waveOk u.mode (getF s Reg.PL_STATUS_BAND) s = true
      (∀ powerGood, Gives (.updateStart false powerGood) s fun t => stopped t ∧ getB t Reg.PL_FAULT_CRACK = true) ∧
      (u.image.sound s = false → ∀ powerGood, Gives (.updateStart true powerGood) s fun t => left t ∧
        getF t Reg.PL_FAULT_CODE = 0x93 ∧ getF t Reg.PL_STATUS_ASSET_ERR = 1 ∧ t.plt.upds = s.plt.upds) ∧
      (u.image.sound s = true → waveOk u.mode (getF s Reg.PL_STATUS_BAND) s = false → ∀ powerGood,
        Gives (.updateStart true powerGood) s fun t => left t ∧ getF t Reg.PL_FAULT_CODE = 0x94 ∧ t.plt.upds = s.plt.upds) ∧
      (ready → s.plt.panelOn = false → Gives (.updateStart true false) s fun t => left t ∧ t.plt.panelOn = false ∧
        getF t Reg.PL_FAULT_POWER = 1 ∧ getF t Reg.PL_FAULT_CODE = 0x92 ∧ u.region ∈ t.plt.pwrDue ∧ t.plt.upds = []) ∧
      (ready → u.kind = .commit → Gives (.updateStart true true) s fun t => left t ∧ t.plt.panelOn = true ∧
        t.plt.vcom = (if s.plt.panelOn then s.plt.vcom else getF s Reg.PL_VCOM_VCOM) ∧
        t.plt.serial = (s.plt.serial + 1) % 0x10000 ∧ u.region ∉ t.plt.proof ∧ (∃ j ∈ t.plt.journal, j.region = u.region) ∧
        ∃ x, t.plt.upds = s.plt.upds ++ [x] ∧ x.region = u.region ∧ x.mode = u.mode ∧ x.frame = 0 ∧
          x.band = getF s Reg.PL_STATUS_BAND ∧ x.image.asset = u.image.asset)) ∧
    (∀ u (temp : BitVec 16), s.plt.upds = [u] →
      let done : Bool := u.keys.all fun k => (pixelStep u k s).done
      (∀ mismatch, Gives (.panelFrame false mismatch temp) s fun t => stopped t ∧ getB t Reg.PL_FAULT_CRACK = true) ∧
      (u.stop = false → done = false → Gives (.panelFrame true false temp) s fun t =>
        (∃ x, t.plt.upds = [x] ∧ x.region = u.region ∧ x.frame = u.frame + 1 ∧ x.mismatches = 0) ∧
        (∀ k ∈ u.keys, mapGet 0 t.plt.codes k = (pixelStep u k s).code) ∧ t.plt.cur = s.plt.cur) ∧
      (u.stop = false → done = true → u.clearing = false → u.kind = .commit → Gives (.panelFrame true false temp) s fun t =>
        t.plt.upds = [] ∧ (∀ j ∈ t.plt.journal, j.region ≠ u.region) ∧
        lastImage u.region t = ⟨true, false, u.image⟩ ∧ ∀ k ∈ u.keys, greyAt k t = mapGet 0 s.plt.target k) ∧
      (u.mismatches = 2 → Gives (.panelFrame true true temp) s fun t => t.plt.upds = [] ∧ u.region ∈ t.plt.rbDue ∧
        u.region ∈ t.plt.unknown ∧ getF t Reg.PL_FAULT_READBACK = 1 ∧ getF t Reg.PL_FAULT_CODE = 0x91)) ∧
    Gives .crackFail s (fun t => stopped t ∧ getB t Reg.PL_FAULT_CRACK = true ∧
      (getB s Reg.PL_FAULT_CRACK = false → getF t Reg.PL_FAULT_CODE = 0x90)) ∧
    (s.plt.upds = [] →
      Gives (.crackTestIdle false) s (fun t => getB t Reg.PL_FAULT_CRACK = true ∧ t.plt.crackOk = 0) ∧
      (getB s Reg.PL_FAULT_CRACK = true → s.plt.crackOk = 0 → Gives (.crackTestIdle true) s fun t =>
        t = s.updPlt fun p => { p with crackOk := 1 }) ∧
      (getB s Reg.PL_FAULT_CRACK = true → s.plt.crackOk = 1 → s.plt.rbDue = [] → s.plt.pwrDue = [] →
        Gives (.crackTestIdle true) s fun t => getB t Reg.PL_FAULT_CRACK = false ∧ recovers s.plt.unknown t) ∧
      (∀ temp : BitVec 16, Gives (.panelTempRead temp) s fun t => getF t Reg.PL_TEMP_TEMP = temp.toNat ∧
        getF t Reg.PL_STATUS_BAND = bandOf temp.toInt ∧ t.plt = s.plt ∧
        getB t Reg.PL_STATUS_TEMP_LIMIT = decide (temp.toInt < -200 ∨ 600 < temp.toInt)) ∧
      (s.plt.proof = [] → Gives .panelPowerOff s fun t => t = s.updPlt fun p => { p with panelOn := false, vcom := 0 })) ∧
    (getB s Reg.PL_FAULT_READBACK = true → Gives .recoverRetry s (recovers s.plt.rbDue)) ∧
    (s.plt.panelOn = true → s.plt.upds ≠ [] → Gives .panelPowerFail s fun t => stopped t ∧ getF t Reg.PL_FAULT_POWER = 1 ∧
      getF t Reg.PL_FAULT_CODE = 0x92 ∧ ∀ u ∈ s.plt.upds, u.region ∈ t.plt.pwrDue) ∧
    Gives .panelPowerRetry s (fun t => t.plt.pwrDue = [] ∧ recovers s.plt.pwrDue t)

/-- 18 R386, R388 to R392, 03 R40, 19 R409: what a transaction of the host port does with a frame that is malformed,
aborted or outside the map, and with words of the memories and of the store. -/
def Obligations.HostTransactions : Prop :=
  ∀ s : State, Memory.wf s = true →
    let quiet (t : State) : Prop := t.cap = s.cap ∧ t.store.cells = s.store.cells ∧ t.hp.queues = s.hp.queues
    let ended (code cmd : Nat) (out : List Word) (t : State) : Prop :=
      Answered code t ∧ getF t Reg.HOST_STAT_CMD = cmd ∧ t.hp.out = out ∧
      t.hp.outCrc = if out = [] then none else some (BitVec.ofNat 16 (crc16 (dataBytes out)))
    let nothing (code cmd : Nat) (t : State) : Prop :=
      ended code cmd [] t ∧ getF t Reg.HOST_STAT_DONE = 0 ∧ quiet t
    let right (cmd : Nat) (a : BitVec 32) (ws : List Word) : Framing := .crc (hostCrc cmd a ws)
    let counted (k : Nat) (t : State) : Prop :=
      getF t (Reg.HOST_VIOL_COUNT k) = (if getF s (Reg.HOST_VIOL_COUNT k) < 65535 then getF s (Reg.HOST_VIOL_COUNT k) + 1 else 65535)
    -- R391: with PD7 off no status is sent
    (hostUp s = false → ∀ a v ws f n p, Gives (.write a ws f) s (fun t => t = s) ∧ Gives (.swrite a ws f) s (fun t => t = s) ∧
      Gives (.qpush a ws f) s (fun t => t = s) ∧ Gives (.read a n) s (fun t => t = s) ∧ Gives (.sread a n) s (fun t => t = s) ∧
      Gives (.qpop a n) s (fun t => t = s) ∧ Gives (.registerWrite a v) s (fun t => t = s) ∧
      Gives (.hostAbort p) s (fun t => t = s) ∧ Gives .status s fun t => t = s) ∧
    (hostUp s = true →
      -- R387, R391, R392: malformed frames
      (∀ a ws (c : BitVec 16), (c ≠ hostCrc 0x02 a ws → Gives (.write a ws (.crc c)) s fun t => nothing 7 0x02 t ∧ counted 1 t) ∧
        (c ≠ hostCrc 0x42 a ws → Gives (.swrite a ws (.crc c)) s fun t => nothing 7 0x42 t ∧ counted 1 t) ∧
        (c ≠ hostCrc 0x31 a ws → Gives (.qpush a ws (.crc c)) s fun t => nothing 7 0x31 t ∧ counted 1 t)) ∧
      (∀ a ws (c : BitVec 8), Gives (.write a ws (.unknown c)) s fun t => nothing 7 c.toNat t ∧ counted 2 t) ∧
      (∀ a (n : BitVec 16) (ws : List Word), (n = 0 ∨ 256 < n.toNat) → (ws = [] ∨ 256 < ws.length) →
        Gives (.write a ws (right 0x02 a ws)) s (fun t => nothing 7 0x02 t ∧ counted 2 t) ∧
        Gives (.swrite a ws (right 0x42 a ws)) s (fun t => nothing 7 0x42 t ∧ counted 2 t) ∧
        Gives (.qpush a ws (right 0x31 a ws)) s (fun t => nothing 7 0x31 t ∧ counted 2 t) ∧
        Gives (.read a n) s (fun t => nothing 7 0x0B t ∧ counted 2 t) ∧
        Gives (.sread a n) s (fun t => nothing 7 0x4B t ∧ counted 2 t) ∧
        Gives (.qpop a n) s fun t => nothing 7 0x32 t ∧ counted 2 t) ∧
      -- R390: an aborted transaction
      (∀ pause, Gives (.hostAbort pause) s fun t => getB t Reg.HOST_STAT_ABORT = true ∧ quiet t ∧
        counted (if pause then 4 else 3) t ∧ getF t Reg.HOST_STAT_LAST = getF s Reg.HOST_STAT_LAST) ∧
      -- R386: STATUS returns HOST_IRQ; a burst outside its region is turned away
      Gives .status s (fun t => ended 0 0x05 [BitVec.ofNat 32 (hostIrq s)] t ∧ quiet t) ∧
      (∀ (a : BitVec 32) (ws : List Word) (n : BitVec 16), ws ≠ [] → ws.length ≤ 256 → n ≠ 0 → n.toNat ≤ 256 →
        (burstOk false a.toNat ws.length = false → Gives (.write a ws (right 0x02 a ws)) s (nothing 2 0x02)) ∧
        (burstOk true a.toNat ws.length = false → Gives (.swrite a ws (right 0x42 a ws)) s (nothing 2 0x42)) ∧
        (burstOk false a.toNat n.toNat = false → Gives (.read a n) s (nothing 2 0x0B)) ∧
        (burstOk true a.toNat n.toNat = false → Gives (.sread a n) s (nothing 2 0x4B))) ∧
      -- R388, R389: a burst into or out of case memory or the shared window, as a whole
      (∀ (i : Nat) (ws : List Word), ws ≠ [] → ws.length ≤ 256 → i + ws.length ≤ 0x10000 →
        HostServes 0x1100000 s → HostServes 0x1200000 s →
        let at_ (base : Nat) : BitVec 32 := BitVec.ofNat 32 (base + 4 * i)
        let lands (old new : NMap Byte) : Prop := (∀ j, j < ws.length → wordAt 0 new (4 * (i + j)) = ws.getD j 0) ∧
          ∀ x, x < 4 * i ∨ 4 * (i + ws.length) ≤ x → byteAt 0 new x = byteAt 0 old x
        Gives (.write (at_ 0x1100000) ws (right 0x02 (at_ 0x1100000) ws)) s (fun t => ended 0 0x02 [] t ∧ getF t Reg.HOST_STAT_DONE = ws.length ∧
          lands s.cap.caseMem t.cap.caseMem ∧ t.cap = { s.cap with caseMem := t.cap.caseMem }) ∧
        Gives (.write (at_ 0x1200000) ws (right 0x02 (at_ 0x1200000) ws)) s (fun t => ended 0 0x02 [] t ∧ getF t Reg.HOST_STAT_DONE = ws.length ∧
          lands s.cap.shared t.cap.shared ∧ t.cap = { s.cap with shared := t.cap.shared }) ∧
        Gives (.read (at_ 0x1100000) (BitVec.ofNat 16 ws.length)) s (fun t => quiet t ∧
          ended 0 0x0B ((List.range ws.length).map fun j => wordAt 0 s.cap.caseMem (4 * (i + j))) t) ∧
        Gives (.read (at_ 0x1200000) (BitVec.ofNat 16 ws.length)) s fun t => quiet t ∧
          ended 0 0x0B ((List.range ws.length).map fun j => wordAt 0 s.cap.shared (4 * (i + j))) t) ∧
      -- 03 R40: the program store takes a word in FACTORY and COMMISSION alone
      (∀ (i : Nat) (w : Word), i < 0x20000 → HostServes 0x1000000 s →
        let a : BitVec 32 := BitVec.ofNat 32 (0x1000000 + 4 * i)
        ((s.sys.mode = .factory ∨ s.sys.mode = .commission) → Gives (.write a [w] (right 0x02 a [w])) s
          fun t => ended 0 0x02 [] t ∧ ∀ k, mapGet 0 t.cap.prog k = if k = i then w else mapGet 0 s.cap.prog k) ∧
        (s.sys.mode ≠ .factory → s.sys.mode ≠ .commission → Gives (.write a [w] (right 0x02 a [w])) s
          (nothing 6 0x02))) ∧
      -- R391: what waits for the end of BOOT or of a service pause, and R409: what the store window serves
      (∀ (o : Nat) (w : Word), o % 4 = 0 → o < 0x4000000 → s.sys.mode ≠ .standby →
        let a : BitVec 32 := BitVec.ofNat 32 (0x10000000 + o)
        ((s.sys.mode = .boot ∨ s.sys.pause = true) → Gives (.swrite a [w] (right 0x42 a [w])) s (nothing 1 0x42) ∧
          Gives (.sread a 1) s fun t => ended 1 0x4B [0] t ∧ quiet t) ∧
        (s.sys.mode ≠ .boot → s.sys.pause = false →
          (swriteTarget o s = true → needsBlock o 4 s = false → Gives (.swrite a [w] (right 0x42 a [w])) s fun t =>
            ended 0 0x42 [] t ∧ t.cap = s.cap ∧ nvBytes o 4 t = leBytes w.toNat 4 ∧
            ∀ x, x < o ∨ o + 4 ≤ x → byteAt 0xFF t.store.cells x = byteAt 0xFF s.store.cells x) ∧
          ((swriteTarget o s = false ∨ needsBlock o 4 s = true) → Gives (.swrite a [w] (right 0x42 a [w])) s fun t => nothing 5 0x42 t ∧
            getF t (Reg.STORE_VIOL_COUNT 2) =
              (if getF s (Reg.STORE_VIOL_COUNT 2) < 65535 then getF s (Reg.STORE_VIOL_COUNT 2) + 1 else 65535)) ∧
          (((partOf o).map (·.1.encrypted)).getD true = true → Gives (.sread a 1) s fun t => ended 5 0x4B [0] t ∧ quiet t) ∧
          (((partOf o).map (·.1.encrypted)).getD true = false → Gives (.sread a 1) s fun t =>
            ended 0 0x4B [storeWord o s] t ∧ quiet t))) ∧
      -- R388: a register of its own takes its word; 00 R4, R8: an address no chapter defines, or of a dark domain, does not
      (∀ (k : Fin 8) (v : Word), HostServes (Reg.MB_OUT_EN_EN k.val).addr s →
        Gives (.registerWrite (BitVec.ofNat 32 (Reg.MB_OUT_EN_EN k.val).addr) v) s fun t =>
          ended 0 0x02 [] t ∧ getF t (Reg.MB_OUT_EN_EN k.val) = v.toNat ∧ getF t Reg.HOST_STAT_DONE = 1) ∧
      (∀ (a v : BitVec 32), burstOk false a.toNat 1 = true →
        (undefinedAt a.toNat = true → Gives (.registerWrite a v) s fun t => nothing 2 0x02 t ∧ t.sys.mode = s.sys.mode) ∧
        (undefinedAt a.toNat = false → ∀ c, portStop a.toNat s = some c → Gives (.registerWrite a v) s fun t =>
          nothing c 0x02 t ∧ (s.sys.mode = .standby → 0x10000 ≤ a.toNat → t.sys.mode = roleMode s.sys.role))))

/-- 18 R393 to R400, 19 R421: the queues as the host sees them, their notices, and the inbound doorbells. -/
def Obligations.QueuesAndDoorbells : Prop :=
  ∀ (q : Fin 64) (s : State), Memory.wf s = true →
    let others (t : State) : Prop := ∀ p, p ≠ q → getQ t p = getQ s p
    let a : BitVec 32 := BitVec.ofNat 32 q.val
    let ended (code cmd done : Nat) (t : State) : Prop :=
      Answered code t ∧ getF t Reg.HOST_STAT_CMD = cmd ∧ getF t Reg.HOST_STAT_DONE = done ∧ others t
    let up (f : Field) (n : Nat) (t : State) : Prop := getF t f = if getF s f < n then getF s f + 1 else n
    let told (f : Nat → Field) (t : State) : Prop :=
      getB s (f q.val) = true → getB s (Reg.Q_CTRL_TO_HOST q.val) = true →
        (getF t (if q.val < 32 then Reg.HOST_QNOTICE0_Q else Reg.HOST_QNOTICE1_Q)).testBit (q.val % 32) = true ∧
        (getF t (Reg.MB_OUT_PEND_PEND 7)).testBit 0 = true
    (hostUp s = true → s.sys.mode ≠ .standby →
      (∀ (b : BitVec 32) (xs : List Word) (n : BitVec 16), 64 ≤ b.toNat → xs ≠ [] → xs.length ≤ 256 → n ≠ 0 → n.toNat ≤ 256 →
        Gives (.qpush b xs (.crc (hostCrc 0x31 b xs))) s (fun t => Answered 2 t ∧ t.hp.queues = s.hp.queues) ∧
        Gives (.qpop b n) s fun t => Answered 2 t ∧ t.hp.queues = s.hp.queues) ∧
      (s.sys.mode ≠ .boot →
        (∀ xs : List Word, xs ≠ [] → xs.length ≤ 256 →
          let ys := xs.filter fun w => itemType w != 0xF
          (shown q.val (Reg.Q_CTRL_PROD q.val) s ≠ 1 → Gives (.qpush a xs (.crc (hostCrc 0x31 a xs))) s fun t => ended 5 0x31 0 t ∧ getQ t q = getQ s q) ∧
          (shown q.val (Reg.Q_CTRL_PROD q.val) s = 1 → qRoom s q < ys.length → Gives (.qpush a xs (.crc (hostCrc 0x31 a xs))) s fun t =>
            ended 1 0x31 0 t ∧ getQ t q = getQ s q ∧ up (Reg.Q_STATS_REFUSED q.val) 65535 t) ∧
          (shown q.val (Reg.Q_CTRL_PROD q.val) s = 1 → ys.length ≤ qRoom s q → Gives (.qpush a xs (.crc (hostCrc 0x31 a xs))) s fun t =>
            ended 0 0x31 ys.length t ∧ (getQ t q).items = (getQ s q).items ++ ys ∧ (getQ t q).taker = (getQ s q).taker ∧
            ((∃ w ∈ ys, itemType w = 3 ∨ itemType w = 4) → getB t (Reg.Q_STATUS_PKT_HIT q.val) = true ∧ told Reg.Q_CTRL_PKT_EN t) ∧
            ((getQ s q).items = [] → ys ≠ [] → (getQ t q).staleArmed = true))) ∧
        (∀ n : BitVec 16, n ≠ 0 → n.toNat ≤ 256 →
          (shown q.val (Reg.Q_CTRL_CONS q.val) s ≠ 1 → Gives (.qpop a n) s fun t => ended 5 0x32 0 t ∧ getQ t q = getQ s q) ∧
          (shown q.val (Reg.Q_CTRL_CONS q.val) s = 1 → (getQ s q).taker.isSome = true → Gives (.qpop a n) s fun t =>
            ended 1 0x32 0 t ∧ getQ t q = getQ s q ∧ t.hp.out = List.replicate n.toNat idleItem) ∧
          (shown q.val (Reg.Q_CTRL_CONS q.val) s = 1 → (getQ s q).taker = none → Gives (.qpop a n) s fun t =>
            ended 0 0x32 (min n.toNat (qLevel s q)) t ∧ (getQ t q).items = (getQ s q).items.drop n.toNat ∧
            t.hp.out = ((getQ s q).items ++ List.replicate n.toNat idleItem).take n.toNat)))) ∧
    (HostServes (Reg.Q_FLUSH_FLUSH q.val).addr s → Gives (.qFlush q) s fun t =>
      Answered 0 t ∧ others t ∧ (getQ t q).items = [] ∧ (getQ t q).taker = none ∧ (getQ t q).staleArmed = false ∧
      up (Reg.Q_STATS_FLUSHES q.val) 65535 t) ∧
    ((getQ s q).staleArmed = true → (getQ s q).items ≠ [] → Gives (.queueStale q) s fun t =>
      getB t (Reg.Q_STATUS_STALE_HIT q.val) = true ∧ told Reg.Q_CTRL_STALE_EN t ∧ others t ∧
      getQ t q = { getQ s q with staleArmed := false }) ∧
    (((getQ s q).staleArmed = false ∨ (getQ s q).items = []) → Gives (.queueStale q) s fun t => t = s) ∧
    -- R398, R400: the doorbells
    (∀ (k : Fin 8) (bells : BitVec 32), HostServes (Reg.MB_IN_RING_RING k.val).addr s →
      (k.val < 5 → Gives (.mbInRing k bells) s fun t => t = answer (0, s)) ∧
      (k = 7 → s.sys.pause = true → Gives (.mbInRing k bells) s fun t => Answered 0 t ∧ t.cap = s.cap ∧
        getF t (Reg.MB_IN_PEND_PEND 7) = (getF s (Reg.MB_IN_PEND_PEND 7) ||| bells.toNat) % 2 ^ 32) ∧
      (k = 7 → s.sys.pause = false → getF s (Reg.MB_IN_PEND_PEND 7) = 0 → Gives (.mbInRing k bells) s fun t => Answered 0 t ∧
        getF t (Reg.MB_IN_PEND_PEND 7) = 0 ∧
        ∀ d u, bells.toNat = 2 ^ d → u = raiseFw 0x36 d s → t = answer (0, u)) ∧
      ((k = 5 ∨ k = 6) → k.val = coreMailbox s.store.coreB → Gives (.mbInRing k bells) s fun t => t = answer (0, s)) ∧
      ((k = 5 ∨ k = 6) → k.val ≠ coreMailbox s.store.coreB → bells = 2 → Gives (.mbInRing k bells) s fun t => Answered 0 t ∧
        t.sys.standbyReady = false ∧ (∀ x, s.store.act = some x → t.store.act = none ∧ getF t Reg.UPD_STATUS_RESULT = updFailed)))

/-- 19 R413 to R416, R421: the inactive firmware slot, the activation of what it holds, and the forme that waits. -/
def Obligations.SlotsAndFormes : Prop :=
  ∀ s : State, Memory.wf s = true → s.store.runs < 2 →
    let k := inactiveSlot s
    let x := fwSlot k s
    let keeps (t : State) : Prop := fwSlot s.store.runs t = fwSlot s.store.runs s ∧ t.store.runs = s.store.runs ∧ t.cap = s.cap
    let erased (t : State) : Prop := ∀ a, byteAt 0xFF t.store.cells a =
      if slotBase k ≤ a ∧ a < slotBase k + 0x400000 then 0xFF else byteAt 0xFF s.store.cells a
    let waits (code : Nat) (st : FwState) (t : State) : Prop := keeps t ∧ (fwSlot k t).state = st ∧ t.store.act = none ∧
      getF t Reg.UPD_STATUS_RESULT = code ∧ ∃ a, t.store.wait = some a ∧ a.slot = k ∧ a.same = false
    let fails (code : Nat) (st : FwState) (t : State) : Prop := keeps t ∧ (fwSlot k t).state = st ∧ t.store.act = none ∧
      getF t Reg.UPD_STATUS_RESULT = code
    let begins (t : State) : Prop := keeps t ∧ (fwSlot k t).state = .trying ∧ t.sys.standbyReady = false ∧
      getF t Reg.UPD_STATUS_RESULT = 0 ∧ getF t Reg.UPD_STATUS_PHASE = 1 ∧
      ∃ a, t.store.act = some a ∧ a.slot = k ∧ a.same = false ∧ a.migrated = migrates x s
    let role : Prop := s.sys.mode = roleMode s.sys.role
    let spare : Prop := s.sys.coreRetired = false ∧ s.sys.standbyReady = true ∧ s.store.act = none
    let room : Prop := migrates x s = true → migrationBlocks x s + 75 ≤ storeFree s
    (HostServes Reg.UPD_CMD_OP.addr s →
      (openable x = true → Gives .updOpen s fun t => Answered 0 t ∧ keeps t ∧ erased t ∧ fwSlot k t = { state := .receiving }) ∧
      (openable x = false → Gives .updOpen s fun t => t = answer (0, s)) ∧
      (x.state = .receiving → (readSlot k s).sound = true → Gives .updVerify s fun t => Answered 0 t ∧ keeps t ∧
        fwSlot k t = { readSlot k s with state := .staged, result := 0 } ∧ t.store.cells = s.store.cells) ∧
      (x.state = .receiving → (readSlot k s).sound = false → Gives .updVerify s fun t => Answered 0 t ∧ keeps t ∧
        (fwSlot k t).state = .rejected ∧ (fwSlot k t).result = 0x60 ∧ t.store.cells = s.store.cells) ∧
      (x.state ≠ .receiving → Gives .updVerify s fun t => t = answer (0, s)) ∧
      ((x.state = .staged ∨ x.state = .previous) → Gives .updDiscard s fun t => Answered 0 t ∧ keeps t ∧ erased t ∧
        fwSlot k t = {} ∧ ∀ a, t.store.wait = some a → a.same = true) ∧
      (x.state ≠ .staged → x.state ≠ .previous → Gives .updDiscard s fun t => t = answer (0, s))) ∧
    (HostServes Reg.UPD_ACT_GO.addr s →
      (installer s = false → Gives .updAct s fun t => t = answer (4, s)) ∧
      (installer s = true →
        (x.state ≠ .staged → x.state ≠ .previous → Gives .updAct s fun t => t = answer (0, s)) ∧
        (x.state = .previous → x.fmtOld = true → s.store.act = none → Gives .updAct s fun t => Answered 0 t ∧
          fails 0x55 .previous t) ∧
        ((x.state = .staged ∨ (x.state = .previous ∧ x.fmtOld = false)) →
          (legalWaits x s = true → s.store.act = none → Gives .updAct s fun t => Answered 0 t ∧ waits 0x56 x.state t) ∧
          (legalWaits x s = false → role → spare → room → bootCheck k s = true → Gives .updAct s fun t => Answered 0 t ∧ begins t) ∧
          (legalWaits x s = false → role → spare → room → bootCheck k s = false → Gives .updAct s fun t =>
            Answered 0 t ∧ fails 0x60 .rejected t) ∧
          (legalWaits x s = false → role → spare → ¬room → Gives .updAct s fun t => Answered 0 t ∧ fails 0x54 .failed t) ∧
          (legalWaits x s = false → role → s.store.act = none → s.sys.standbyReady = false → s.sys.coreRetired = false →
            getB s Reg.SYS_HEALTH_CORE_NO_SPARE = false → Gives .updAct s fun t => Answered 0 t ∧ waits 0x52 x.state t)))) ∧
    ((inService s.sys.mode = false ∨ (s.store.wait = none ∧ autoDue s = false)) → Gives .autoActivation s fun t => t = s) ∧
    (s.store.wait = none → autoDue s = true → legalWaits x s = false → role → spare → room → bootCheck k s = true →
      Gives .autoActivation s begins) ∧
    (∀ a, s.store.wait = some a → a.slot = k → a.same = false → x.state = .staged → legalWaits x s = false → role → spare →
      room → bootCheck k s = true → Gives .autoActivation s fun t => begins t ∧ t.store.wait = none) ∧
    -- R413: the forme
    (domainOn 7 s = true → s.sys.mode ≠ .boot → s.sys.mode ≠ .inert → s.sys.pause = false → s.sys.takeover = false →
      formeWaits s = true → idleForForme s = true → s.store.formeAct < 2 →
      (formeSound (inactiveForme s) s = none → Gives .formeLoad s fun t => t.cap = { s.cap with formePending := false } ∧
        formeWaits t = false ∧
        getF t Reg.FORME_STATE_RESULT = 0x60 ∧ t.store.formeAct = s.store.formeAct) ∧
      (∀ f, formeSound (inactiveForme s) s = some f → Gives .formeLoad s fun t =>
        t.store.formeAct = 1 - s.store.formeAct ∧ t.store.formeVer = f.version ∧ t.cap.formeWords = f.words ∧
        formeWaits t = false ∧ t.cap.caseMem = s.cap.caseMem ∧
        (∀ i, i < f.words → mapGet 0 t.cap.prog i = BitVec.ofNat 32 (fieldOf f.program (4 * i) 4)) ∧
        ∀ n : Fin 320, (getS t n).galley = none ∧
          (n.val < f.entries.length → (getS t n).entry = BitVec.ofNat 17 (fieldOf (f.entries.getD n.val []) 0 4) ∧
            (getS t n).pc = (getS t n).entry ∧
            (getS t n).st = if (getS t n).cls = 0 ∧ (getS t n).fbEn = false then .disabled else .ready) ∧
          (f.entries.length ≤ n.val → getS t n = Strand.reset))) ∧
    ((formeWaits s = false ∨ idleForForme s = false ∨ s.sys.pause = true ∨ s.sys.takeover = true) →
      Gives .formeLoad s fun t => t = s)

/-- 19 R406 to R409, R415, R420, R421, 02 R29, 18 R400: a handover from handover-ready to its end, a core that is retired, and
what the store takes and reports. The model's choices: what a damaged block has lost (assumption log 62), and the code of a
source outside the window (log 57). -/
def Obligations.HandoversAndUpkeep : Prop :=
  ∀ s : State, Memory.wf s = true →
    (∀ a, s.store.act = some a → a.slot < 2 →
      let other := fwSlot (1 - a.slot) s
      let failed (t : State) : Prop := t.store.act = none ∧ t.sys.standbyReady = false ∧ t.sys.pause = false ∧
        getF t Reg.UPD_STATUS_RESULT = 0x53 ∧ getF t Reg.UPD_STATUS_PHASE = 0 ∧ t.store.runs = s.store.runs ∧
        t.store.coreB = s.store.coreB ∧ (a.same = false → (fwSlot a.slot t).state = .failed ∧ fwSlot (1 - a.slot) t = other)
      (s.sys.takeover = false → s.sys.mode = roleMode s.sys.role → s.sys.pause = false → midRound s = false →
        Gives .handoverReady s fun t => t.sys.mode = .handover ∧ t.sys.pause = true ∧ t.store.pauseAt = s.sys.usec ∧
          getF t Reg.UPD_STATUS_PHASE = 5 ∧ (getF t (Reg.MB_OUT_PEND_PEND (coreMailbox s.store.coreB))).testBit 0 = true ∧
          (getF t (Reg.MB_OUT_PEND_PEND 0)).testBit 0 = true ∧ t.cap = (raiseHw 0x33 0 s).cap ∧ t.store.act = some a) ∧
      (s.sys.takeover = false → s.sys.mode = roleMode s.sys.role → midRound s = true → Gives .handoverReady s fun t =>
        getF t Reg.UPD_STATUS_PHASE = 4 ∧ t.sys = s.sys ∧ t.cap = s.cap) ∧
      (s.sys.pause = false → Gives .handoverTExpiry s failed) ∧
      (s.sys.pause = true → Gives .handoverTExpiry s fun t => t = s) ∧
      (s.sys.pause = true → Gives .handoverAbort s fun t => failed t ∧ t.sys.mode = roleMode s.sys.role ∧
        t.sys.pausedEvents = []) ∧
      (s.sys.pause = true → Gives .takeoverComplete s fun t =>
        t.store.act = none ∧ t.sys.pause = false ∧ t.sys.mode = roleMode s.sys.role ∧ t.store.coreB = !s.store.coreB ∧
        t.store.handovers = (if s.store.handovers < 65535 then s.store.handovers + 1 else 65535) ∧ t.sys.pausedEvents = [] ∧
        getF t Reg.UPD_STATUS_RESULT = 0 ∧ getF t Reg.UPD_STATUS_PHASE = 0 ∧
        getF t Reg.UPD_HANDOVER_PAUSE_US = min 0xFFFF (s.sys.usec - s.store.pauseAt) ∧
        (getF t (Reg.MB_OUT_PEND_PEND (coreMailbox (!s.store.coreB)))).testBit 1 = true ∧
        t.sys.coreRetired = (s.sys.coreRetired || s.store.retireAfter) ∧
        (a.same = false → (fwSlot a.slot t).state = .active ∧ t.store.runs = a.slot ∧
          (other.state = .active → (fwSlot (1 - a.slot) t).state = .previous ∧ (fwSlot (1 - a.slot) t).fmtOld = a.migrated)) ∧
        (a.same = true → t.store.runs = s.store.runs ∧ t.store.slots = s.store.slots) ∧
        (∀ v, a.legal = some v → t.store.legalVer = v) ∧ (a.legal = none → t.store.legalVer = s.store.legalVer)) ∧
      (s.sys.pause = false → Gives .takeoverComplete s (fun t => t = s) ∧ Gives .handoverAbort s fun t => t = s)) ∧
    (s.store.act = none → Gives .handoverReady s (fun t => t = s) ∧ Gives .handoverTExpiry s (fun t => t = s) ∧
      Gives .takeoverComplete s fun t => t = s) ∧
    -- R421
    (domainOn 2 s = true → s.sys.coreRetired = false → ∀ (corrected : BitVec 16) (bad b : Bool),
      let excess : Prop := clamp 10 255 (getF s Reg.UPD_CFG_CE_LIM) < corrected.toNat ∨ bad = true
      let counts (t : State) : Prop := getF t (if b then Reg.CORE_HEALTH_CE_B else Reg.CORE_HEALTH_CE_A) = corrected.toNat
      (¬excess → Gives (.coreRetire b corrected bad) s fun t => counts t ∧ t.sys = s.sys ∧ t.store = s.store) ∧
      (excess → b ≠ s.store.coreB → Gives (.coreRetire b corrected bad) s fun t => counts t ∧ t.sys.coreRetired = true ∧
        t.sys.standbyReady = false ∧ getB t Reg.SYS_HEALTH_CORE_NO_SPARE = true) ∧
      (excess → b = s.store.coreB → s.sys.standbyReady = true → s.store.act = none → s.sys.mode = roleMode s.sys.role →
        migrates (fwSlot s.store.runs s) s = false → Gives (.coreRetire b corrected bad) s fun t => counts t ∧ t.sys.coreRetired = false ∧ t.store.retireAfter = true ∧
          ∃ x, t.store.act = some x ∧ x.same = true ∧ x.slot = s.store.runs)) ∧
    -- R406 to R408
    (domainOn 2 s = true → domainOn 7 s = true →
      (∀ corrected worn uncorrectable tagFails old,
        let reads := scrubReads corrected worn uncorrectable tagFails old
        Gives (.scrub corrected worn uncorrectable tagFails old) s fun t => t.cap = s.cap ∧ t.store.slots = s.store.slots ∧
          getF t Reg.STORE_ECC_CORR = min 0xFFFF (reads.foldl (fun n r => n + r.units) 0) ∧
          getF t Reg.STORE_ECC_UNCORR = min 0xFFFF (getF s Reg.STORE_ECC_UNCORR + uncorrectable.length) ∧
          getB t Reg.SYS_HEALTH_STORE_SPARE_LOW = (getB s Reg.SYS_HEALTH_STORE_SPARE_LOW || decide (storeFree t < 75)) ∧
          (uncorrectable = [] → tagFails = [] → t.store.cells = s.store.cells ∧ t.rd = s.rd)) ∧
      (∀ r : DieBlock, let e := (dieOf (ofBool r.die1) s).entry (ofBool r.die1) r.block.toNat
        (e.inUse = false → Gives (.scrub [] [] [r] [] []) s fun t => Gives (.scrub [] [] [] [] []) s fun u =>
          t.store = u.store ∧ t.rd = u.rd) ∧
        (e.inUse = true → encryptedBlock e.logical = true → mirroredBlock e.logical = false →
          let lost (t : State) : Prop := t.store.cells = s.store.cells ∧
            t.rd.dir = s.rd.dir.map fun x => if dirBlock x.1 = e.logical then (x.1, { x.2 with check := 2 ^ 32 }) else x
          Gives (.scrub [] [] [r] [] []) s lost ∧ Gives (.scrub [] [] [] [r] []) s lost))) ∧
    -- R409
    (∀ k, ServesCall 0xD00 k s → migrating s = false →
      let a := k.arg 0
      let len := k.arg 2
      let worn := (blocksOf a len).any fun l => blockWorn l s
      let inArea : Prop := 0 < len ∧ len ≤ 4096 ∧ 0x3F30000 ≤ a ∧ a + len ≤ 0x3F70000
      (¬inArea → Gives .storeWrite s fun t => CallDone k 0x51 [] t ∧ t.store = s.store) ∧
      (inArea → outsideWindow (getS s k.strand) (k.arg 1) len = true → Gives .storeWrite s fun t => CallDone k 0x51 [] t ∧
        t.store = s.store) ∧
      (inArea → outsideWindow (getS s k.strand) (k.arg 1) len = false → worn = true → needsBlock a len s = true →
        Gives .storeWrite s fun t => CallDone k 0x50 [] t ∧ t.store = s.store) ∧
      (inArea → outsideWindow (getS s k.strand) (k.arg 1) len = false → (worn = false ∨ needsBlock a len s = false) →
        Gives .storeWrite s fun t => CallDone k 0 [] t ∧ ∀ x, byteAt 0xFF t.store.cells x =
          if a ≤ x ∧ x < a + len then byteAt 0 s.cap.caseMem (caseAddr s k.strand (k.arg 1) + (x - a))
          else byteAt 0xFF s.store.cells x))

/-- 02 R23, R28, R30, R31, R33, R35, R36, 20 R432: what comes up when: the supplies, RESET_N, the reference, the fuse and a
received image, each with what the boot then ends in. -/
def Obligations.StartUps : Prop :=
  ∀ (r : Role) (s : State), Memory.wf s = true → s.store.runs < 2 →
    let off : Prop := s.sys.mode = .noPower ∨ s.sys.mode = .backup ∨ s.sys.mode = .tagOnly ∨
      (s.sys.mode = .boot ∧ s.sys.booted = false ∧ s.sys.refHeld = false ∧ s.sys.resetLow = false)
    let k := s.store.runs
    let sound : Prop := (fwSlot k s).state = .active ∧ bootCheck k s = true ∧ installer s = false
    let up (role : Role) (t : State) : Prop := t.sys.mode = roleMode role ∧ t.sys.role = role ∧ t.sys.booted = true ∧
      t.store.runs = k ∧ (fwSlot k t).state = .active ∧ (getF t (Reg.MB_IN_PEND_PEND 0)).testBit 0 = true ∧
      (getF t (Reg.MB_OUT_PEND_PEND 0)).testBit 0 = true
    let open_ (t : State) : Prop := t.sw.k1 = false ∧ t.sw.k2 = false
    let inert (why : Nat) (t : State) : Prop := t.sys.mode = .inert ∧ getF t Reg.SYS_INERT_REASON_REASON = why ∧ open_ t ∧
      (∀ n : Fin 320, (getS t n).galley = none) ∧ t.plt.panelOn = false ∧
      (s.pilot.bolt = false → ∀ n, (outCh n t).on = false) ∧
      (s.pilot.bolt = true → getB t Reg.VI_LOCK_EN = true → t.pilot.lockDir = some false)
    (off → s.sys.resetLow = false → s.sys.refHeld = false →
      (s.sys.factoryDone = true → sound → Gives (.suppliesGood r) s fun t => up r t ∧ open_ t) ∧
      (s.sys.factoryDone = false → sound →
        (metrologist s = true → Gives (.suppliesGood r) s fun t => t.sys.mode = .factory ∧ open_ t) ∧
        (metrologist s = false → Gives (.suppliesGood r) s (inert 2))) ∧
      ((∀ j, j < 2 → bootCheck j s = false) → Gives (.suppliesGood r) s (inert 1))) ∧
    (off → s.sys.resetLow = true → Gives (.suppliesGood r) s fun t => t = s.updSys fun y => { y with mainGood := true }) ∧
    (inService s.sys.mode = true → Gives (.suppliesGood r) s fun t => t = s) ∧
    (s.sys.resetLow = true → s.sys.mainGood = true → s.sys.refHeld = false → s.sys.factoryDone = true → sound →
      Gives (.resetNRelease r) s fun t => up r t ∧ t.sys.resetLow = false) ∧
    (s.sys.resetLow = false → Gives (.resetNRelease r) s fun t => t = s) ∧
    (s.sys.refHeld = true → s.sys.mainGood = true → s.sys.resetLow = false → s.sys.factoryDone = true → sound →
      Gives (.refClockRestored r) s fun t => up r t ∧ t.sys.refHeld = false ∧ getF t Reg.PWR_STATUS_XTAL_FAIL = 0) ∧
    (s.sys.refHeld = false → Gives (.refClockRestored r) s fun t => t = s) ∧
    (s.sys.pfwConfirmed = true → powered s = true → s.sys.resetLow = false → s.sys.refHeld = false → s.sys.factoryDone = true →
      sound → Gives (.pfwReturnReset r) s fun t => up r t ∧ open_ t ∧ t.sys.pfwConfirmed = false) ∧
    ((s.sys.pfwConfirmed = false ∨ powered s = false) → Gives (.pfwReturnReset r) s fun t => t = s) ∧
    (s.sys.mode = .factory → s.sys.mainGood = true → s.sys.resetLow = false → s.sys.refHeld = false → sound →
      Gives .factoryDoneBlown s fun t => up s.sys.role t ∧ open_ t ∧ t.sys.factoryDone = true) ∧
    (s.sys.mode ≠ .factory → Gives .factoryDoneBlown s fun t => t = s) ∧
    (s.sys.mode = .inert → getF s Reg.SYS_INERT_REASON_REASON = 1 → (fwSlot (1 - k) s).state = .receiving →
      ((readSlot (1 - k) s).sound = true → (fwSlot k s).state = .rejected → bootCheck (1 - k) (verifySlot s) = true →
        s.sys.mainGood = true → s.sys.resetLow = false → s.sys.refHeld = false → s.sys.factoryDone = true → installer s = false →
        Gives .inertImageReceived s fun t => t.sys.mode = roleMode s.sys.role ∧ t.store.runs = 1 - k ∧
          (fwSlot (1 - k) t).state = .active) ∧
      ((readSlot (1 - k) s).sound = false → (fwSlot k s).state ≠ .staged → Gives .inertImageReceived s fun t =>
        t.sys.mode = .inert ∧ (fwSlot (1 - k) t).state = .rejected ∧ (fwSlot (1 - k) t).result = 0x60)) ∧
    ((s.sys.mode ≠ .inert ∨ getF s Reg.SYS_INERT_REASON_REASON ≠ 1) → Gives .inertImageReceived s fun t => t = s) ∧
    (s.sys.mode = .noPower → Gives .vbackRise s fun t => t.sys.mode = .backup ∧ t.sys.vbackOk = true ∧ t.led = s.led) ∧
    (s.sys.mode ≠ .noPower → Gives .vbackRise s fun t => t = s.updSys fun y => { y with vbackOk := true }) ∧
    (s.sys.booted = true → s.sys.mode ≠ .inert →
      (s.sys.coreRetired = false → s.store.act = none → domainOn (standbyDomain s) s = true → Gives .standbyReady s fun t =>
        t = s.updSys fun y => { y with standbyReady := true }) ∧
      (s.sys.coreRetired = true → Gives .standbyReady s fun t => t = s) ∧
      (domainOn 7 s = true → s.sys.standbyReady = false → Gives .standbyReadyTimeout s fun t =>
        getB t Reg.SYS_HEALTH_CORE_NO_SPARE = true ∧
        (getB s Reg.SYS_HEALTH_CORE_NO_SPARE = false → (getF t (Reg.MB_OUT_PEND_PEND 0)).testBit 1 = true)) ∧
      (s.sys.standbyReady = true → Gives .standbyReadyTimeout s fun t => t = s))

/-- 02 R28, R29, R32 to R34, 03 R61, 20 R432, R442: the resets, the power fail and the failure of a core: what each clears, what it
keeps, and what the energy path does. -/
def Obligations.ResetsAndFailures : Prop :=
  ∀ s : State, Memory.wf s = true →
    let openAndOff (t : State) : Prop := t.sw.k1 = false ∧ t.sw.k2 = false ∧ ∀ n, (outCh n t).on = false
    let dark (t : State) : Prop := openAndOff t ∧ t.cap.caseMem = [] ∧ t.cap.prog = [] ∧ (∀ n : Fin 320, getS t n = Strand.reset) ∧
      t.sys.booted = false ∧ t.sys.standbyReady = false ∧ t.sys.takeover = false ∧ t.store.cells = s.store.cells ∧
      t.led.records = s.led.records ∧ t.key.knots = s.key.knots ∧ t.sys.settings = s.sys.settings ∧
      ∀ f : Field, f.lo < 32 → 0x20000 ≤ f.addr → domainOf f.addr ≠ 0 → domainOf f.addr ≠ 1 → keptReg f.addr = false →
        getF t f = f.reset
    let restarted (t : State) : Prop := t.cap.caseMem = s.cap.caseMem ∧ t.cap.prog = s.cap.prog ∧ t.sw = s.sw ∧
      t.pilot = s.pilot ∧ t.hlc = s.hlc ∧ getB t Reg.SYS_RST_CAUSE_CAPSTAN = true ∧ (∀ c ∈ t.cap.calls, c.abandoned = true) ∧
      ∀ n : Fin 320, (getS t n).galley = none ∧ (∀ i, getW (getS t n) i = 0) ∧ (getS t n).pc = (getS s n).entry ∧
        (getS t n).armed = (getS s n).armed ∧ (getS t n).fault = (getS s n).fault ∧
        (getS t n).st = if (getS s n).st = .disabled ∨ (getS s n).st = .faulted then (getS s n).st else .ready
    -- the pads and the supplies
    (powered s = true → Gives .resetNAssert s fun t => dark t ∧ t.sys.mode = .boot ∧ t.sys.resetLow = true ∧
      getB t Reg.SYS_RST_CAUSE_RESET_PAD = true ∧ t.pilot.line = if s.pilot.pumps then .minus12 else .hiZ) ∧
    (powered s = false → Gives .resetNAssert s fun t => t = s.updSys fun y => { y with resetLow := true }) ∧
    (powered s = true → Gives .vauxLoss s fun t => dark t ∧ t.sys.mainGood = false ∧
      t.sys.mode = (if s.sys.rfField then .tagOnly else if s.sys.vbackOk then .backup else .noPower) ∧
      (s.sys.vbackOk = true → s.sys.pfwConfirmed = false → getB t Reg.SYS_RST_CAUSE_VAUX = true) ∧
      (s.sys.vbackOk = true → t.led.w = s.led.w ∧ t.led.rtcValid = s.led.rtcValid) ∧
      (s.sys.vbackOk = false → getB t Reg.SYS_RST_CAUSE_AO_LOST = true ∧ t.led.rtcValid = false)) ∧
    (s.sys.mainGood = false → Gives .vauxLoss s fun t => t = s) ∧
    (s.sys.mainGood = true → domainOn 2 s = false → s.sys.vbackOk = true → Gives .vauxLoss s fun t =>
      t = s.updSys fun y => { y with mainGood := false }) ∧
    (s.sys.mainGood = true → Gives .aoLoss s fun t => t = s.updSys fun y => { y with vbackOk := false }) ∧
    (s.sys.mainGood = false → Gives .aoLoss s fun t => t.sys.vbackOk = false ∧ t.led.rtcValid = false ∧ t.led.tmpLog = [] ∧
      getB t Reg.SYS_RST_CAUSE_AO_LOST = true ∧ installer t = false ∧
      t.sys.mode = (if s.sys.mode = .backup then .noPower else s.sys.mode)) ∧
    (powered s = true → s.sys.refHeld = false → Gives .refClockFail s fun t => openAndOff t ∧ t.sys.mode = .boot ∧
      t.sys.refHeld = true ∧ getF t Reg.PWR_STATUS_XTAL_FAIL = 1 ∧ t.cap.caseMem = [] ∧
      t.pilot.line = if s.pilot.pumps then .minus12 else .hiZ) ∧
    ((powered s = false ∨ s.sys.refHeld = true) → Gives .refClockFail s fun t => t = s) ∧
    -- R33
    (powered s = true → Gives .pfwNFall s fun t => t = s.updSys fun y => { y with pfwLow := true }) ∧
    (powered s = false → Gives .pfwNFall s fun t => t = s) ∧
    (∀ d, s.sys.pfwConfirmed = false → powered s = true → Gives (.pfwConfirm d) s fun t =>
      t.sys.pfwConfirmed = true ∧ getB t Reg.SYS_RST_CAUSE_PFAIL = true ∧ t.met.frozen = true ∧ t.led.on = false ∧
      (s.led.on = true → t.led.snapshot.isSome = true) ∧ t.pilot.pwmReq = false ∧ t.sys.pause = false ∧
      (inService s.sys.mode = true → s.sys.pause = false → t.pilot.line = .minus12)) ∧
    (∀ d, (powered s = false ∨ s.sys.pfwConfirmed = true) → Gives (.pfwConfirm d) s fun t => t = s) ∧
    (s.sys.pfwConfirmed = true → coilOn s = true → Gives .pfwContactorOpen s fun t => t.sw.k1 = false ∧ t.sw.k2 = false ∧
      t.sw.stage = .feedback ∧ t.sw.disc = none ∧ t.sw.wear1 = s.sw.wear1 ∧ t.sw.wear2 = s.sw.wear2 ∧
      getF t Reg.CONT_STATUS_ARMED = 0) ∧
    ((s.sys.pfwConfirmed = false ∨ coilOn s = false) → Gives .pfwContactorOpen s fun t => t = s) ∧
    -- R32: the soft and the Capstan reset
    (hostUp s = true → powered s = true → sessionActive s = false → s.sys.refHeld = false → s.sys.factoryDone = true →
      s.store.runs < 2 → (fwSlot s.store.runs s).state = .active → bootCheck s.store.runs s = true → installer s = false →
      Gives .softReset s fun t => t.sys.mode = roleMode s.sys.role ∧ getB t Reg.SYS_RST_CAUSE_SOFT = true ∧
        t.sw.k1 = false ∧ t.sw.k2 = false ∧ t.cap.caseMem = []) ∧
    (HostServes Reg.SYS_RESET_SOFT.addr s → sessionActive s = true → Gives .softReset s fun t => t = answer (5, s)) ∧
    (HostServes Reg.SYS_RESET_CAP.addr s → Gives .capstanReset s fun t => Answered 0 t ∧ restarted t) ∧
    (domainOn 7 s = true → fCap s ≠ 0 → Gives (.capstanDoubleFault []) s restarted ∧
      ∀ a b : Fin 320, (getS s a).fbEn = false → (getS s b).fbEn = false → (getS s a).st = .running → (getS s b).st = .ready →
        Gives (.capstanDoubleFault [a, b]) s fun t => (getS t a).st = .faulted ∧ (getS t b).st = .faulted ∧
          0xA0 ≤ (getS t a).fault ∧ (getS t a).fault ≤ 0xA8 ∧ t.cap.caseMem = s.cap.caseMem ∧ t.sw = s.sw ∧
          getB t Reg.SYS_RST_CAUSE_CAPSTAN = true ∧ (∀ i, getW (getS t a) i = 0)) ∧
    (fCap s = 0 → ∀ l, Gives (.capstanDoubleFault l) s fun t => t = s) ∧
    -- R34
    (domainOn 2 s = true → s.sys.mode ≠ .boot → s.sys.takeover = false →
      Gives .coreFailure s fun t => t.sys.takeover = true ∧ getB t Reg.SYS_RST_CAUSE_CORE_FAIL = true ∧ t.store.act = none ∧
        t.sys.pause = false ∧ inForce t Reg.SYS_TIMING_HOLD_T = getF s Reg.SYS_TIMING_HOLD_T ∧
        (s.store.act = none → s.sys.pause = false → t.sw = s.sw ∧ t.pilot = s.pilot ∧ t.cap = s.cap ∧ t.hlc = s.hlc)) ∧
    (s.sys.takeover = true → Gives .coreFailure s fun t => t = s) ∧
    (s.sys.takeover = true → s.sys.standbyReady = true → s.sys.ctrlStop = false → Gives .coreTakeover s fun t =>
      t.sys.takeover = false ∧ t.sys.standbyReady = false ∧ t.store.coreB = (!s.store.coreB) ∧ t.sys.pausedEvents = [] ∧
      t.sw = s.sw ∧ t.pilot = s.pilot) ∧
    ((s.sys.takeover = false ∨ s.sys.standbyReady = false ∨ s.sys.ctrlStop = true) → Gives .coreTakeover s fun t => t = s) ∧
    (s.sys.takeover = true → s.sys.ctrlStop = false → s.sw.stage = .closed → Gives .holdTExpiry s fun t =>
      t.sys.ctrlStop = true ∧ t.pilot.pwmReq = false ∧ t.sw.stage ≠ .closed ∧ getF t Reg.CONT_STATUS_ARMED = 0) ∧
    (s.sys.takeover = true → s.sys.ctrlStop = false → s.sw.stage = .opened → coilOn s = false → Gives .holdTExpiry s fun t =>
      t.sys.takeover = false ∧ t.sys.ctrlStop = false ∧ getB t Reg.SYS_RST_CAUSE_CTRL_STOP = true ∧ t.cap.caseMem = []) ∧
    ((s.sys.takeover = false ∨ s.sys.ctrlStop = true) → Gives .holdTExpiry s fun t => t = s)

/-- 02 R28, 11 R219, 19 R411, 20 R432, R437: COMMISSION and STANDBY are entered and left, the 32 kHz crystal fails and comes back,
and a die is hot and cools. -/
def Obligations.ModesAndSupervision : Prop :=
  ∀ s : State, Memory.wf s = true →
    let role := roleMode s.sys.role
    let allOff (t : State) : Prop := ∀ n, (outCh n t).on = false
    (HostServes Reg.SYS_CTRL_REQ_COMMISSION.addr s →
      (s.sys.mode = role → sessionActive s = false → installer s = true → coilOn s = false → Gives .reqCommission s fun t =>
        Answered 0 t ∧ t.sys.mode = .commission ∧ allOff t ∧ t.pilot.line = .minus12 ∧ t.sys.staged = [] ∧
        (getF t (Reg.MB_OUT_PEND_PEND 0)).testBit 0 = true) ∧
      (s.sys.mode = role → sessionActive s = true → Gives .reqCommission s fun t => t = answer (6, s)) ∧
      (s.sys.mode = role → sessionActive s = false → installer s = false → Gives .reqCommission s fun t => t = answer (4, s)) ∧
      (s.sys.mode = .commission → Gives .reqCommission s fun t => t = answer (0, s)) ∧
      ((s.sys.mode = .factory ∨ s.sys.mode = .inert) → Gives .reqCommission s fun t => t = answer (6, s))) ∧
    (s.sys.mode = .commission →
      (∀ x : SettingItem, s.sys.staged = [x] → x.item ≠ 0x101 → x.item ∈ [1, 2, 3, 4, 0x100, 0x102] → coilOn s = false →
        Gives (.commissionCommit true) s fun t => t.sys.mode = role ∧ t.sys.staged = [] ∧ x ∈ t.sys.settings ∧
          (∀ y ∈ t.sys.settings, y.item = x.item → y = x) ∧ (∀ y ∈ s.sys.settings, y.item ≠ x.item → y ∈ t.sys.settings) ∧
          getF t Reg.OUT_TEST_MASK = 0 ∧ allOff t ∧
          getB t Reg.SYS_STATUS_UNCOMMISSIONED = !(t.sys.settings.any fun i => i.item == 0x100)) ∧
      (∀ x : SettingItem, s.sys.staged = [x] → x.item ∉ [1, 2, 3, 4, 0x100, 0x101, 0x102] →
        Gives (.commissionCommit true) s fun t => t.sys.mode = role ∧ t.sys.settings = s.sys.settings ∧
          getF t (Reg.STORE_VIOL_COUNT 1) =
            if getF s (Reg.STORE_VIOL_COUNT 1) < 65535 then getF s (Reg.STORE_VIOL_COUNT 1) + 1 else 65535) ∧
      Gives (.commissionCommit false) s fun t => t = s) ∧
    (s.sys.mode ≠ .commission → ∀ v, Gives (.commissionCommit v) s fun t => t = s) ∧
    (s.sys.mode = role → s.sys.role ≠ .repeater → getF s Reg.VI_PILOT_STATE = 0xA → sessionActive s = false →
      deliveryPending s = false →
      (getB s Reg.SYS_CTRL_STBY_EN = true → Gives .standbyEntry s fun t => t.sys.mode = .standby ∧ t.sys.standbyReady = false) ∧
      (getB s Reg.SYS_CTRL_STBY_EN = false → Gives .standbyEntry s fun t => t = s)) ∧
    ((s.sys.role = .repeater ∨ sessionActive s = true ∨ deliveryPending s = true ∨ getF s Reg.VI_PILOT_STATE ≠ 0xA) →
      Gives .standbyEntry s fun t => t = s) ∧
    (s.sys.mode = .standby → Gives .standbyExit s fun t => t.sys.mode = role ∧ t.sys.standbyReady = false ∧
      (getF t (Reg.MB_OUT_PEND_PEND 0)).testBit 0 = true) ∧
    (s.sys.mode ≠ .standby → Gives .standbyExit s fun t => t = s) ∧
    -- R432, R219
    (domainOn 0 s = true → Gives .x32Fail s fun t => (domainOn 7 s = true → getF t Reg.PWR_STATUS_X32_FAIL = 1) ∧
      t.led.x32Sub = true ∧
      (s.led.on = true → (led t).unsure = true) ∧
      (s.led.on = false → (∀ c, t.led.snapshot = some c → c.unsure = true) ∧ ∀ c, t.led.image = some c → c.unsure = true) ∧
      t.led.w = s.led.w ∧ t.sys.ltime = s.sys.ltime) ∧
    (domainOn 0 s = false → Gives .x32Fail s fun t => t = s) ∧
    (domainOn 7 s = true → Gives (.x32Retry true) s fun t => getF t Reg.PWR_STATUS_X32_FAIL = 0 ∧ t.led = { s.led with x32Sub := false }) ∧
    Gives (.x32Retry false) s (fun t => t = s) ∧
    -- R437
    (domainOn 7 s = true →
      Gives (.dieHot false) s (fun t => getF t Reg.PWR_STATUS_HOT = 1 ∧
        getF t Reg.PWR_STATUS_HOT_HELD = getF s Reg.PWR_STATUS_HOT_HELD ∧ t.sw = s.sw) ∧
      Gives (.dieHot true) s (fun t => getF t Reg.PWR_STATUS_HOT = 1 ∧ outletHeld t = true) ∧
      Gives .dieCool s fun t => getF t Reg.PWR_STATUS_HOT_HELD = 0) ∧
    (domainOn 7 s = false → ∀ h, Gives (.dieHot h) s (fun t => t = s) ∧ Gives .dieCool s fun t => t = s)

/-- 01 R8: a write to a register in a power domain that is off is discarded with ERR_DOMAIN_OFF, and a read returns 0 with the same
status. In BOOT the port answers ERR_BUSY instead (18 R391), and an access ends STANDBY first (02 R28). -/
def Obligations.DarkDomainsAreNotServed : Prop :=
  ∀ (a v : BitVec 32) (s : State), Memory.wf s = true → hostUp s = true → s.sys.mode ≠ .boot → s.sys.mode ≠ .standby →
    burstOk false a.toNat 1 = true → undefinedAt a.toNat = false → domainOn (domainOf a.toNat) s = false →
    let same (t : State) : Prop := t = { s with regs := t.regs, hp := { s.hp with out := t.hp.out, outCrc := t.hp.outCrc } } ∧
      ∀ f : Field, f.addr ≠ Reg.HOST_STAT_LAST.addr → f.lo < 32 → getF t f = getF s f
    Gives (.registerWrite a v) s (fun t => Answered 3 t ∧ getF t Reg.HOST_STAT_DONE = 0 ∧ same t) ∧
    Gives (.write a [v] (.crc (hostCrc 0x02 a [v]))) s (fun t => Answered 3 t ∧ getF t Reg.HOST_STAT_DONE = 0 ∧ same t) ∧
    Gives (.read a 1) s fun t => Answered 3 t ∧ t.hp.out = [0] ∧ same t

/-- A step takes the command at the front of the queue and runs it on the state with the rest of the queue. -/
def Obligations.StepRunsTheFirstCommand : Prop :=
  ∀ (c : Instr) (s : State), step { s with pending := c :: s.pending } = exec c s ∧
    ∀ rest, s.pending = c :: rest → step s = exec c { s with pending := rest }

/-- The model's own choice (assumption log 1): with no command waiting, a step is 1 µs that passes. Nothing else changes, unless
the lock's pulse is due or a PWM period starts with this microsecond; a pulse that is due ends (07 R134). -/
def Obligations.IdleStepIsAMicrosecond : Prop :=
  ∀ s : State, s.pending = [] →
    let later : State := { s with sys := { s.sys with usec := s.sys.usec + 1 } }
    ∃ t, step s = .next t ∧ ((s.sys.usec + 1) % 1000 ≠ 0 →
      ((∀ u, s.pilot.lockPulse = some u → s.sys.usec + 1 < u) → t = later) ∧
      (∀ u, s.pilot.lockPulse = some u → u ≤ s.sys.usec + 1 → t = lockPulseEnd later ∧ t.pilot.lockPulse = none))

/-- 01 R5, 02 R30, 03 R42, R49, 08 R161, 09 R187, 18 R393: right after reset every register field holds its Reset column, the
module is in BOOT with the contactors open and the outputs off, every strand is DISABLED in class 3, and nothing is queued. -/
def Obligations.ResetStateIsAsTabled : Prop :=
  let s := State.reset
  Memory.wf s = true ∧ s.pending = [] ∧ (∀ f : Field, getF s f = f.reset ∧ inForce s f = f.reset) ∧
  s.sys.mode = .boot ∧ s.sys.booted = false ∧ s.sw.k1 = false ∧ s.sw.k2 = false ∧ (∀ n, (outCh n s).on = false) ∧
  held s = 0 ∧ sessionActive s = false ∧ s.hlc.status = 0 ∧ s.cap.running = none ∧ s.cap.calls = [] ∧
  (∀ a, byteAt 0 s.cap.caseMem a = 0 ∧ byteAt 0xFF s.store.cells a = 0xFF) ∧
  (∀ q, (getQ s q).items = [] ∧ (getQ s q).taker = none) ∧
  ∀ n : Fin 320, (getS s n).st = .disabled ∧ (getS s n).cls = 3 ∧ (getS s n).galley = none ∧ (getS s n).fault = 0 ∧
    getP (getS s n) 0 = true ∧ ∀ i, getW (getS s n) i = 0

/-- Every step keeps the canonical form of the program store, case memory, the shared window, the store, the tag's memory and
the register fields: addresses strictly rising, and no entry that equals what an unlisted address reads as. -/
def Obligations.MemoriesStayCanonical : Prop :=
  ∀ s t : State, Memory.wf s = true → step s = .next t → Memory.wf t = true

/-- Every command completes in every state, leaves the queue of waiting commands alone, and leaves a blown FACTORY_DONE fuse blown
(02 R28); so no run stops. -/
def Obligations.EveryCommandCompletes : Prop :=
  (∀ (c : Instr) (s : State), ∃ t, exec c s = .next t ∧ t.pending = s.pending ∧
    (s.sys.factoryDone = true → t.sys.factoryDone = true)) ∧
  ∀ (n : Nat) (s : State), SafeFor n s
end

