-- ==== Sys2Proof/Laws/Maps.lean ====
section
/-! SUPPORT. The laws of the finite maps and of the byte memories: what a read finds after a write, and that every update
keeps the canonical form. -/
namespace Sys2Proof.Machine

variable {α : Type}

/-! ## The order of the keys -/

theorem risingFrom_mono {lo lo' : Nat} (h : lo' ≤ lo) {m : NMap α} (hm : risingFrom lo m = true) : risingFrom lo' m = true := by
  cases m with
  | nil => rfl
  | cons e m => simp only [risingFrom, Bool.and_eq_true, decide_eq_true_eq] at hm ⊢; exact ⟨by omega, hm.2⟩

theorem risingFrom_mapPut {lo k : Nat} (h : lo ≤ k) (v : α) {m : NMap α} (hm : risingFrom lo m = true) :
    risingFrom lo (mapPut m k v) = true := by
  induction m generalizing lo with
  | nil => simp [mapPut, risingFrom, h]
  | cons e m ih =>
    simp only [risingFrom, Bool.and_eq_true, decide_eq_true_eq] at hm
    unfold mapPut
    split
    · next he => simp only [risingFrom, Bool.and_eq_true, decide_eq_true_eq]; exact ⟨h, he ▸ hm.2⟩
    · split
      · simp only [risingFrom, Bool.and_eq_true, decide_eq_true_eq]; exact ⟨h, by omega, hm.2⟩
      · simp only [risingFrom, Bool.and_eq_true, decide_eq_true_eq]; exact ⟨hm.1, ih (by omega) hm.2⟩

theorem risingFrom_mapErase {lo : Nat} (k : Nat) {m : NMap α} (hm : risingFrom lo m = true) :
    risingFrom lo (mapErase m k) = true := by
  induction m generalizing lo with
  | nil => rfl
  | cons e m ih =>
    have hm' := hm
    simp only [risingFrom, Bool.and_eq_true, decide_eq_true_eq] at hm
    unfold mapErase
    split
    · exact risingFrom_mono (by omega) hm.2
    · split
      · exact hm'
      · simp only [risingFrom, Bool.and_eq_true, decide_eq_true_eq]; exact ⟨hm.1, ih hm.2⟩

theorem risingFrom_filter {lo : Nat} (p : Nat × α → Bool) {m : NMap α} (hm : risingFrom lo m = true) :
    risingFrom lo (m.filter p) = true := by
  induction m generalizing lo with
  | nil => rfl
  | cons e m ih =>
    simp only [risingFrom, Bool.and_eq_true, decide_eq_true_eq] at hm
    rw [List.filter_cons]
    split
    · simp only [risingFrom, Bool.and_eq_true, decide_eq_true_eq]; exact ⟨hm.1, ih hm.2⟩
    · exact risingFrom_mono (by omega) (ih hm.2)

theorem risingFrom_mapSet [DecidableEq α] {lo k : Nat} (h : lo ≤ k) (d v : α) {m : NMap α} (hm : risingFrom lo m = true) :
    risingFrom lo (mapSet d m k v) = true := by
  unfold mapSet; split
  · exact risingFrom_mapErase k hm
  · exact risingFrom_mapPut h v hm

/-! ## The canonical form -/

theorem all_mapErase (p : Nat × α → Bool) (k : Nat) {m : NMap α} (h : m.all p = true) : (mapErase m k).all p = true := by
  induction m with
  | nil => rfl
  | cons e m ih =>
    have h' := h
    simp only [List.all_cons, Bool.and_eq_true] at h
    unfold mapErase
    split
    · exact h.2
    · split
      · exact h'
      · simp only [List.all_cons, Bool.and_eq_true]; exact ⟨h.1, ih h.2⟩

theorem all_mapPut (p : Nat × α → Bool) {k : Nat} {v : α} (hp : p (k, v) = true) {m : NMap α} (h : m.all p = true) :
    (mapPut m k v).all p = true := by
  induction m with
  | nil => simp [mapPut, hp]
  | cons e m ih =>
    simp only [List.all_cons, Bool.and_eq_true] at h
    unfold mapPut
    split_ifs <;> simp [hp, h, ih h.2]

/-- A write keeps the canonical form. -/
theorem mapWf_mapSet [DecidableEq α] (d : α) (k : Nat) (v : α) {m : NMap α} (h : mapWf d m = true) :
    mapWf d (mapSet d m k v) = true := by
  simp only [mapWf, Bool.and_eq_true] at h ⊢
  refine ⟨risingFrom_mapSet (Nat.zero_le k) d v h.1, ?_⟩
  unfold mapSet; split
  · exact all_mapErase _ k h.2
  · next hv => exact all_mapPut _ (by simpa using hv) h.2

theorem mapWf_filter [DecidableEq α] (d : α) (p : Nat × α → Bool) {m : NMap α} (h : mapWf d m = true) :
    mapWf d (m.filter p) = true := by
  simp only [mapWf, Bool.and_eq_true] at h ⊢
  refine ⟨risingFrom_filter p h.1, ?_⟩
  rw [List.all_eq_true] at h ⊢
  intro e he
  exact h.2 e (List.mem_filter.1 he).1

theorem mapWf_nil [DecidableEq α] (d : α) : mapWf d ([] : NMap α) = true := rfl

theorem mapWf_putBytes (d : Byte) (a : Nat) (bs : List Byte) {m : NMap Byte} (h : mapWf d m = true) :
    mapWf d (putBytes d m a bs) = true := by
  induction bs generalizing a m with
  | nil => exact h
  | cons b bs ih => exact ih (a + 1) (mapWf_mapSet d a b h)

theorem mapWf_putWord (d : Byte) (a : Nat) (w : Word) {m : NMap Byte} (h : mapWf d m = true) :
    mapWf d (putWord d m a w) = true := mapWf_putBytes d a _ h

theorem mapWf_foldl_mapSet [DecidableEq α] (d : α) {β : Type} (k : β → Nat) (v : β → α) (l : List β) {m : NMap α}
    (h : mapWf d m = true) : mapWf d (l.foldl (fun m e => mapSet d m (k e) (v e)) m) = true := by
  induction l generalizing m with
  | nil => exact h
  | cons e l ih => exact ih (mapWf_mapSet d (k e) (v e) h)

/-! ## What a read finds -/

theorem mapGet?_mapPut_same (m : NMap α) (k : Nat) (v : α) : mapGet? (mapPut m k v) k = some v := by
  induction m with
  | nil => simp [mapPut, mapGet?]
  | cons e m ih =>
    unfold mapPut
    split
    · simp [mapGet?]
    · split
      · simp [mapGet?]
      · next h1 h2 => simp only [mapGet?, h1, h2, if_false]; exact ih

theorem mapGet?_mapPut_other (m : NMap α) {j k : Nat} (h : j ≠ k) (v : α) : mapGet? (mapPut m k v) j = mapGet? m j := by
  induction m with
  | nil => simp [mapPut, mapGet?, h]
  | cons e m ih =>
    unfold mapPut
    split
    · next he => subst he; simp [mapGet?, h]
    · split
      · next h1 h2 =>
        simp only [mapGet?, h, if_false]
        split
        · next h3 => simp [show j ≠ e.1 by omega, show j < e.1 by omega]
        · rfl
      · simp only [mapGet?, ih]

theorem mapGet?_of_lt {lo j : Nat} (h : j < lo) {m : NMap α} (hm : risingFrom lo m = true) : mapGet? m j = none := by
  cases m with
  | nil => rfl
  | cons e m =>
    simp only [risingFrom, Bool.and_eq_true, decide_eq_true_eq] at hm
    simp [mapGet?, show j ≠ e.1 by omega, show j < e.1 by omega]

theorem mapGet?_mapErase_same {lo : Nat} {m : NMap α} (hm : risingFrom lo m = true) (k : Nat) : mapGet? (mapErase m k) k = none := by
  induction m generalizing lo with
  | nil => rfl
  | cons e m ih =>
    simp only [risingFrom, Bool.and_eq_true, decide_eq_true_eq] at hm
    unfold mapErase
    split
    · next he => exact mapGet?_of_lt (lo := e.1 + 1) (by omega) hm.2
    · split
      · next h1 h2 => simp [mapGet?, h1, h2]
      · next h1 h2 => simp only [mapGet?, h1, h2, if_false]; exact ih hm.2

theorem mapGet?_mapErase_other {lo : Nat} {m : NMap α} (hm : risingFrom lo m = true) {j k : Nat} (h : j ≠ k) :
    mapGet? (mapErase m k) j = mapGet? m j := by
  induction m generalizing lo with
  | nil => rfl
  | cons e m ih =>
    simp only [risingFrom, Bool.and_eq_true, decide_eq_true_eq] at hm
    unfold mapErase
    split
    · next he =>
      subst he
      simp only [mapGet?, h, if_false]
      split
      · next h3 => exact mapGet?_of_lt (by omega) hm.2
      · rfl
    · split
      · rfl
      · simp only [mapGet?, ih hm.2]

/-- A read of the place written finds the value written. -/
theorem mapGet_mapSet_same [DecidableEq α] {lo : Nat} {m : NMap α} (hm : risingFrom lo m = true) (d : α) (k : Nat) (v : α) :
    mapGet d (mapSet d m k v) k = v := by
  unfold mapGet mapSet; split
  · next h => simp [mapGet?_mapErase_same hm, h]
  · simp [mapGet?_mapPut_same]

/-- A read of another place finds what it found before, whatever unlisted places read as. -/
theorem mapGet_mapSet_other [DecidableEq α] {lo : Nat} {m : NMap α} (hm : risingFrom lo m = true) (d d' : α) {j k : Nat} (h : j ≠ k)
    (v : α) : mapGet d' (mapSet d m k v) j = mapGet d' m j := by
  unfold mapGet mapSet; split
  · rw [mapGet?_mapErase_other hm h]
  · rw [mapGet?_mapPut_other m h]

/-- Bytes written leave every byte outside them as it was. -/
theorem byteAt_putBytes_other (d : Byte) {m : NMap Byte} (hm : mapWf d m = true) (a : Nat) (bs : List Byte) {x : Nat}
    (h : x < a ∨ a + bs.length ≤ x) : byteAt d (putBytes d m a bs) x = byteAt d m x := by
  induction bs generalizing a m with
  | nil => rfl
  | cons b bs ih =>
    have hr : risingFrom 0 m = true := by simp only [mapWf, Bool.and_eq_true] at hm; exact hm.1
    simp only [List.length_cons] at h
    rw [putBytes, ih (mapWf_mapSet d a b hm) (a + 1) (by omega)]
    exact mapGet_mapSet_other hr d d (by omega) b

/-- Bytes written are read back. -/
theorem byteAt_putBytes_same (d : Byte) {m : NMap Byte} (hm : mapWf d m = true) (a : Nat) (bs : List Byte) {i : Nat}
    (h : i < bs.length) : byteAt d (putBytes d m a bs) (a + i) = bs[i] := by
  induction bs generalizing a m i with
  | nil => simp at h
  | cons b bs ih =>
    have hr : risingFrom 0 m = true := by simp only [mapWf, Bool.and_eq_true] at hm; exact hm.1
    rw [putBytes]
    cases i with
    | zero =>
      rw [byteAt_putBytes_other d (mapWf_mapSet d a b hm) (a + 1) bs (by omega)]
      exact mapGet_mapSet_same hr d a b
    | succ i =>
      have := ih (mapWf_mapSet d a b hm) (a + 1) (i := i) (by simpa using h)
      rw [show a + (i + 1) = a + 1 + i by omega, this]; rfl

end Sys2Proof.Machine
end

