-- ==== Sys2Proof/Laws/State.lean ====
section
/-! SUPPORT. One lemma per part of the state per update: an update changes its own part and leaves every other. -/
namespace Sys2Proof.Machine

@[simp] theorem State.updSys_regs (s : State) (f : Sys → Sys) : (s.updSys f).regs = s.regs := rfl
@[simp] theorem State.updSys_shadow (s : State) (f : Sys → Sys) : (s.updSys f).shadow = s.shadow := rfl
@[simp] theorem State.updSys_sys (s : State) (f : Sys → Sys) : (s.updSys f).sys = f s.sys := rfl
@[simp] theorem State.updSys_pilot (s : State) (f : Sys → Sys) : (s.updSys f).pilot = s.pilot := rfl
@[simp] theorem State.updSys_hlc (s : State) (f : Sys → Sys) : (s.updSys f).hlc = s.hlc := rfl
@[simp] theorem State.updSys_sw (s : State) (f : Sys → Sys) : (s.updSys f).sw = s.sw := rfl
@[simp] theorem State.updSys_sup (s : State) (f : Sys → Sys) : (s.updSys f).sup = s.sup := rfl
@[simp] theorem State.updSys_cap (s : State) (f : Sys → Sys) : (s.updSys f).cap = s.cap := rfl
@[simp] theorem State.updSys_key (s : State) (f : Sys → Sys) : (s.updSys f).key = s.key := rfl
@[simp] theorem State.updSys_rd (s : State) (f : Sys → Sys) : (s.updSys f).rd = s.rd := rfl
@[simp] theorem State.updSys_tag (s : State) (f : Sys → Sys) : (s.updSys f).tag = s.tag := rfl
@[simp] theorem State.updSys_met (s : State) (f : Sys → Sys) : (s.updSys f).met = s.met := rfl
@[simp] theorem State.updSys_led (s : State) (f : Sys → Sys) : (s.updSys f).led = s.led := rfl
@[simp] theorem State.updSys_link (s : State) (f : Sys → Sys) : (s.updSys f).link = s.link := rfl
@[simp] theorem State.updSys_alloc (s : State) (f : Sys → Sys) : (s.updSys f).alloc = s.alloc := rfl
@[simp] theorem State.updSys_plt (s : State) (f : Sys → Sys) : (s.updSys f).plt = s.plt := rfl
@[simp] theorem State.updSys_hp (s : State) (f : Sys → Sys) : (s.updSys f).hp = s.hp := rfl
@[simp] theorem State.updSys_store (s : State) (f : Sys → Sys) : (s.updSys f).store = s.store := rfl
@[simp] theorem State.updSys_pending (s : State) (f : Sys → Sys) : (s.updSys f).pending = s.pending := rfl

@[simp] theorem State.updPilot_regs (s : State) (f : Pilot → Pilot) : (s.updPilot f).regs = s.regs := rfl
@[simp] theorem State.updPilot_shadow (s : State) (f : Pilot → Pilot) : (s.updPilot f).shadow = s.shadow := rfl
@[simp] theorem State.updPilot_sys (s : State) (f : Pilot → Pilot) : (s.updPilot f).sys = s.sys := rfl
@[simp] theorem State.updPilot_pilot (s : State) (f : Pilot → Pilot) : (s.updPilot f).pilot = f s.pilot := rfl
@[simp] theorem State.updPilot_hlc (s : State) (f : Pilot → Pilot) : (s.updPilot f).hlc = s.hlc := rfl
@[simp] theorem State.updPilot_sw (s : State) (f : Pilot → Pilot) : (s.updPilot f).sw = s.sw := rfl
@[simp] theorem State.updPilot_sup (s : State) (f : Pilot → Pilot) : (s.updPilot f).sup = s.sup := rfl
@[simp] theorem State.updPilot_cap (s : State) (f : Pilot → Pilot) : (s.updPilot f).cap = s.cap := rfl
@[simp] theorem State.updPilot_key (s : State) (f : Pilot → Pilot) : (s.updPilot f).key = s.key := rfl
@[simp] theorem State.updPilot_rd (s : State) (f : Pilot → Pilot) : (s.updPilot f).rd = s.rd := rfl
@[simp] theorem State.updPilot_tag (s : State) (f : Pilot → Pilot) : (s.updPilot f).tag = s.tag := rfl
@[simp] theorem State.updPilot_met (s : State) (f : Pilot → Pilot) : (s.updPilot f).met = s.met := rfl
@[simp] theorem State.updPilot_led (s : State) (f : Pilot → Pilot) : (s.updPilot f).led = s.led := rfl
@[simp] theorem State.updPilot_link (s : State) (f : Pilot → Pilot) : (s.updPilot f).link = s.link := rfl
@[simp] theorem State.updPilot_alloc (s : State) (f : Pilot → Pilot) : (s.updPilot f).alloc = s.alloc := rfl
@[simp] theorem State.updPilot_plt (s : State) (f : Pilot → Pilot) : (s.updPilot f).plt = s.plt := rfl
@[simp] theorem State.updPilot_hp (s : State) (f : Pilot → Pilot) : (s.updPilot f).hp = s.hp := rfl
@[simp] theorem State.updPilot_store (s : State) (f : Pilot → Pilot) : (s.updPilot f).store = s.store := rfl
@[simp] theorem State.updPilot_pending (s : State) (f : Pilot → Pilot) : (s.updPilot f).pending = s.pending := rfl

@[simp] theorem State.updHlc_regs (s : State) (f : Hlc → Hlc) : (s.updHlc f).regs = s.regs := rfl
@[simp] theorem State.updHlc_shadow (s : State) (f : Hlc → Hlc) : (s.updHlc f).shadow = s.shadow := rfl
@[simp] theorem State.updHlc_sys (s : State) (f : Hlc → Hlc) : (s.updHlc f).sys = s.sys := rfl
@[simp] theorem State.updHlc_pilot (s : State) (f : Hlc → Hlc) : (s.updHlc f).pilot = s.pilot := rfl
@[simp] theorem State.updHlc_hlc (s : State) (f : Hlc → Hlc) : (s.updHlc f).hlc = f s.hlc := rfl
@[simp] theorem State.updHlc_sw (s : State) (f : Hlc → Hlc) : (s.updHlc f).sw = s.sw := rfl
@[simp] theorem State.updHlc_sup (s : State) (f : Hlc → Hlc) : (s.updHlc f).sup = s.sup := rfl
@[simp] theorem State.updHlc_cap (s : State) (f : Hlc → Hlc) : (s.updHlc f).cap = s.cap := rfl
@[simp] theorem State.updHlc_key (s : State) (f : Hlc → Hlc) : (s.updHlc f).key = s.key := rfl
@[simp] theorem State.updHlc_rd (s : State) (f : Hlc → Hlc) : (s.updHlc f).rd = s.rd := rfl
@[simp] theorem State.updHlc_tag (s : State) (f : Hlc → Hlc) : (s.updHlc f).tag = s.tag := rfl
@[simp] theorem State.updHlc_met (s : State) (f : Hlc → Hlc) : (s.updHlc f).met = s.met := rfl
@[simp] theorem State.updHlc_led (s : State) (f : Hlc → Hlc) : (s.updHlc f).led = s.led := rfl
@[simp] theorem State.updHlc_link (s : State) (f : Hlc → Hlc) : (s.updHlc f).link = s.link := rfl
@[simp] theorem State.updHlc_alloc (s : State) (f : Hlc → Hlc) : (s.updHlc f).alloc = s.alloc := rfl
@[simp] theorem State.updHlc_plt (s : State) (f : Hlc → Hlc) : (s.updHlc f).plt = s.plt := rfl
@[simp] theorem State.updHlc_hp (s : State) (f : Hlc → Hlc) : (s.updHlc f).hp = s.hp := rfl
@[simp] theorem State.updHlc_store (s : State) (f : Hlc → Hlc) : (s.updHlc f).store = s.store := rfl
@[simp] theorem State.updHlc_pending (s : State) (f : Hlc → Hlc) : (s.updHlc f).pending = s.pending := rfl

@[simp] theorem State.updSw_regs (s : State) (f : Sw → Sw) : (s.updSw f).regs = s.regs := rfl
@[simp] theorem State.updSw_shadow (s : State) (f : Sw → Sw) : (s.updSw f).shadow = s.shadow := rfl
@[simp] theorem State.updSw_sys (s : State) (f : Sw → Sw) : (s.updSw f).sys = s.sys := rfl
@[simp] theorem State.updSw_pilot (s : State) (f : Sw → Sw) : (s.updSw f).pilot = s.pilot := rfl
@[simp] theorem State.updSw_hlc (s : State) (f : Sw → Sw) : (s.updSw f).hlc = s.hlc := rfl
@[simp] theorem State.updSw_sw (s : State) (f : Sw → Sw) : (s.updSw f).sw = f s.sw := rfl
@[simp] theorem State.updSw_sup (s : State) (f : Sw → Sw) : (s.updSw f).sup = s.sup := rfl
@[simp] theorem State.updSw_cap (s : State) (f : Sw → Sw) : (s.updSw f).cap = s.cap := rfl
@[simp] theorem State.updSw_key (s : State) (f : Sw → Sw) : (s.updSw f).key = s.key := rfl
@[simp] theorem State.updSw_rd (s : State) (f : Sw → Sw) : (s.updSw f).rd = s.rd := rfl
@[simp] theorem State.updSw_tag (s : State) (f : Sw → Sw) : (s.updSw f).tag = s.tag := rfl
@[simp] theorem State.updSw_met (s : State) (f : Sw → Sw) : (s.updSw f).met = s.met := rfl
@[simp] theorem State.updSw_led (s : State) (f : Sw → Sw) : (s.updSw f).led = s.led := rfl
@[simp] theorem State.updSw_link (s : State) (f : Sw → Sw) : (s.updSw f).link = s.link := rfl
@[simp] theorem State.updSw_alloc (s : State) (f : Sw → Sw) : (s.updSw f).alloc = s.alloc := rfl
@[simp] theorem State.updSw_plt (s : State) (f : Sw → Sw) : (s.updSw f).plt = s.plt := rfl
@[simp] theorem State.updSw_hp (s : State) (f : Sw → Sw) : (s.updSw f).hp = s.hp := rfl
@[simp] theorem State.updSw_store (s : State) (f : Sw → Sw) : (s.updSw f).store = s.store := rfl
@[simp] theorem State.updSw_pending (s : State) (f : Sw → Sw) : (s.updSw f).pending = s.pending := rfl

@[simp] theorem State.updSup_regs (s : State) (f : Sup → Sup) : (s.updSup f).regs = s.regs := rfl
@[simp] theorem State.updSup_shadow (s : State) (f : Sup → Sup) : (s.updSup f).shadow = s.shadow := rfl
@[simp] theorem State.updSup_sys (s : State) (f : Sup → Sup) : (s.updSup f).sys = s.sys := rfl
@[simp] theorem State.updSup_pilot (s : State) (f : Sup → Sup) : (s.updSup f).pilot = s.pilot := rfl
@[simp] theorem State.updSup_hlc (s : State) (f : Sup → Sup) : (s.updSup f).hlc = s.hlc := rfl
@[simp] theorem State.updSup_sw (s : State) (f : Sup → Sup) : (s.updSup f).sw = s.sw := rfl
@[simp] theorem State.updSup_sup (s : State) (f : Sup → Sup) : (s.updSup f).sup = f s.sup := rfl
@[simp] theorem State.updSup_cap (s : State) (f : Sup → Sup) : (s.updSup f).cap = s.cap := rfl
@[simp] theorem State.updSup_key (s : State) (f : Sup → Sup) : (s.updSup f).key = s.key := rfl
@[simp] theorem State.updSup_rd (s : State) (f : Sup → Sup) : (s.updSup f).rd = s.rd := rfl
@[simp] theorem State.updSup_tag (s : State) (f : Sup → Sup) : (s.updSup f).tag = s.tag := rfl
@[simp] theorem State.updSup_met (s : State) (f : Sup → Sup) : (s.updSup f).met = s.met := rfl
@[simp] theorem State.updSup_led (s : State) (f : Sup → Sup) : (s.updSup f).led = s.led := rfl
@[simp] theorem State.updSup_link (s : State) (f : Sup → Sup) : (s.updSup f).link = s.link := rfl
@[simp] theorem State.updSup_alloc (s : State) (f : Sup → Sup) : (s.updSup f).alloc = s.alloc := rfl
@[simp] theorem State.updSup_plt (s : State) (f : Sup → Sup) : (s.updSup f).plt = s.plt := rfl
@[simp] theorem State.updSup_hp (s : State) (f : Sup → Sup) : (s.updSup f).hp = s.hp := rfl
@[simp] theorem State.updSup_store (s : State) (f : Sup → Sup) : (s.updSup f).store = s.store := rfl
@[simp] theorem State.updSup_pending (s : State) (f : Sup → Sup) : (s.updSup f).pending = s.pending := rfl

@[simp] theorem State.updCap_regs (s : State) (f : Cap → Cap) : (s.updCap f).regs = s.regs := rfl
@[simp] theorem State.updCap_shadow (s : State) (f : Cap → Cap) : (s.updCap f).shadow = s.shadow := rfl
@[simp] theorem State.updCap_sys (s : State) (f : Cap → Cap) : (s.updCap f).sys = s.sys := rfl
@[simp] theorem State.updCap_pilot (s : State) (f : Cap → Cap) : (s.updCap f).pilot = s.pilot := rfl
@[simp] theorem State.updCap_hlc (s : State) (f : Cap → Cap) : (s.updCap f).hlc = s.hlc := rfl
@[simp] theorem State.updCap_sw (s : State) (f : Cap → Cap) : (s.updCap f).sw = s.sw := rfl
@[simp] theorem State.updCap_sup (s : State) (f : Cap → Cap) : (s.updCap f).sup = s.sup := rfl
@[simp] theorem State.updCap_cap (s : State) (f : Cap → Cap) : (s.updCap f).cap = f s.cap := rfl
@[simp] theorem State.updCap_key (s : State) (f : Cap → Cap) : (s.updCap f).key = s.key := rfl
@[simp] theorem State.updCap_rd (s : State) (f : Cap → Cap) : (s.updCap f).rd = s.rd := rfl
@[simp] theorem State.updCap_tag (s : State) (f : Cap → Cap) : (s.updCap f).tag = s.tag := rfl
@[simp] theorem State.updCap_met (s : State) (f : Cap → Cap) : (s.updCap f).met = s.met := rfl
@[simp] theorem State.updCap_led (s : State) (f : Cap → Cap) : (s.updCap f).led = s.led := rfl
@[simp] theorem State.updCap_link (s : State) (f : Cap → Cap) : (s.updCap f).link = s.link := rfl
@[simp] theorem State.updCap_alloc (s : State) (f : Cap → Cap) : (s.updCap f).alloc = s.alloc := rfl
@[simp] theorem State.updCap_plt (s : State) (f : Cap → Cap) : (s.updCap f).plt = s.plt := rfl
@[simp] theorem State.updCap_hp (s : State) (f : Cap → Cap) : (s.updCap f).hp = s.hp := rfl
@[simp] theorem State.updCap_store (s : State) (f : Cap → Cap) : (s.updCap f).store = s.store := rfl
@[simp] theorem State.updCap_pending (s : State) (f : Cap → Cap) : (s.updCap f).pending = s.pending := rfl

@[simp] theorem State.updKey_regs (s : State) (f : Key → Key) : (s.updKey f).regs = s.regs := rfl
@[simp] theorem State.updKey_shadow (s : State) (f : Key → Key) : (s.updKey f).shadow = s.shadow := rfl
@[simp] theorem State.updKey_sys (s : State) (f : Key → Key) : (s.updKey f).sys = s.sys := rfl
@[simp] theorem State.updKey_pilot (s : State) (f : Key → Key) : (s.updKey f).pilot = s.pilot := rfl
@[simp] theorem State.updKey_hlc (s : State) (f : Key → Key) : (s.updKey f).hlc = s.hlc := rfl
@[simp] theorem State.updKey_sw (s : State) (f : Key → Key) : (s.updKey f).sw = s.sw := rfl
@[simp] theorem State.updKey_sup (s : State) (f : Key → Key) : (s.updKey f).sup = s.sup := rfl
@[simp] theorem State.updKey_cap (s : State) (f : Key → Key) : (s.updKey f).cap = s.cap := rfl
@[simp] theorem State.updKey_key (s : State) (f : Key → Key) : (s.updKey f).key = f s.key := rfl
@[simp] theorem State.updKey_rd (s : State) (f : Key → Key) : (s.updKey f).rd = s.rd := rfl
@[simp] theorem State.updKey_tag (s : State) (f : Key → Key) : (s.updKey f).tag = s.tag := rfl
@[simp] theorem State.updKey_met (s : State) (f : Key → Key) : (s.updKey f).met = s.met := rfl
@[simp] theorem State.updKey_led (s : State) (f : Key → Key) : (s.updKey f).led = s.led := rfl
@[simp] theorem State.updKey_link (s : State) (f : Key → Key) : (s.updKey f).link = s.link := rfl
@[simp] theorem State.updKey_alloc (s : State) (f : Key → Key) : (s.updKey f).alloc = s.alloc := rfl
@[simp] theorem State.updKey_plt (s : State) (f : Key → Key) : (s.updKey f).plt = s.plt := rfl
@[simp] theorem State.updKey_hp (s : State) (f : Key → Key) : (s.updKey f).hp = s.hp := rfl
@[simp] theorem State.updKey_store (s : State) (f : Key → Key) : (s.updKey f).store = s.store := rfl
@[simp] theorem State.updKey_pending (s : State) (f : Key → Key) : (s.updKey f).pending = s.pending := rfl

@[simp] theorem State.updRd_regs (s : State) (f : Rd → Rd) : (s.updRd f).regs = s.regs := rfl
@[simp] theorem State.updRd_shadow (s : State) (f : Rd → Rd) : (s.updRd f).shadow = s.shadow := rfl
@[simp] theorem State.updRd_sys (s : State) (f : Rd → Rd) : (s.updRd f).sys = s.sys := rfl
@[simp] theorem State.updRd_pilot (s : State) (f : Rd → Rd) : (s.updRd f).pilot = s.pilot := rfl
@[simp] theorem State.updRd_hlc (s : State) (f : Rd → Rd) : (s.updRd f).hlc = s.hlc := rfl
@[simp] theorem State.updRd_sw (s : State) (f : Rd → Rd) : (s.updRd f).sw = s.sw := rfl
@[simp] theorem State.updRd_sup (s : State) (f : Rd → Rd) : (s.updRd f).sup = s.sup := rfl
@[simp] theorem State.updRd_cap (s : State) (f : Rd → Rd) : (s.updRd f).cap = s.cap := rfl
@[simp] theorem State.updRd_key (s : State) (f : Rd → Rd) : (s.updRd f).key = s.key := rfl
@[simp] theorem State.updRd_rd (s : State) (f : Rd → Rd) : (s.updRd f).rd = f s.rd := rfl
@[simp] theorem State.updRd_tag (s : State) (f : Rd → Rd) : (s.updRd f).tag = s.tag := rfl
@[simp] theorem State.updRd_met (s : State) (f : Rd → Rd) : (s.updRd f).met = s.met := rfl
@[simp] theorem State.updRd_led (s : State) (f : Rd → Rd) : (s.updRd f).led = s.led := rfl
@[simp] theorem State.updRd_link (s : State) (f : Rd → Rd) : (s.updRd f).link = s.link := rfl
@[simp] theorem State.updRd_alloc (s : State) (f : Rd → Rd) : (s.updRd f).alloc = s.alloc := rfl
@[simp] theorem State.updRd_plt (s : State) (f : Rd → Rd) : (s.updRd f).plt = s.plt := rfl
@[simp] theorem State.updRd_hp (s : State) (f : Rd → Rd) : (s.updRd f).hp = s.hp := rfl
@[simp] theorem State.updRd_store (s : State) (f : Rd → Rd) : (s.updRd f).store = s.store := rfl
@[simp] theorem State.updRd_pending (s : State) (f : Rd → Rd) : (s.updRd f).pending = s.pending := rfl

@[simp] theorem State.updTag_regs (s : State) (f : Tag → Tag) : (s.updTag f).regs = s.regs := rfl
@[simp] theorem State.updTag_shadow (s : State) (f : Tag → Tag) : (s.updTag f).shadow = s.shadow := rfl
@[simp] theorem State.updTag_sys (s : State) (f : Tag → Tag) : (s.updTag f).sys = s.sys := rfl
@[simp] theorem State.updTag_pilot (s : State) (f : Tag → Tag) : (s.updTag f).pilot = s.pilot := rfl
@[simp] theorem State.updTag_hlc (s : State) (f : Tag → Tag) : (s.updTag f).hlc = s.hlc := rfl
@[simp] theorem State.updTag_sw (s : State) (f : Tag → Tag) : (s.updTag f).sw = s.sw := rfl
@[simp] theorem State.updTag_sup (s : State) (f : Tag → Tag) : (s.updTag f).sup = s.sup := rfl
@[simp] theorem State.updTag_cap (s : State) (f : Tag → Tag) : (s.updTag f).cap = s.cap := rfl
@[simp] theorem State.updTag_key (s : State) (f : Tag → Tag) : (s.updTag f).key = s.key := rfl
@[simp] theorem State.updTag_rd (s : State) (f : Tag → Tag) : (s.updTag f).rd = s.rd := rfl
@[simp] theorem State.updTag_tag (s : State) (f : Tag → Tag) : (s.updTag f).tag = f s.tag := rfl
@[simp] theorem State.updTag_met (s : State) (f : Tag → Tag) : (s.updTag f).met = s.met := rfl
@[simp] theorem State.updTag_led (s : State) (f : Tag → Tag) : (s.updTag f).led = s.led := rfl
@[simp] theorem State.updTag_link (s : State) (f : Tag → Tag) : (s.updTag f).link = s.link := rfl
@[simp] theorem State.updTag_alloc (s : State) (f : Tag → Tag) : (s.updTag f).alloc = s.alloc := rfl
@[simp] theorem State.updTag_plt (s : State) (f : Tag → Tag) : (s.updTag f).plt = s.plt := rfl
@[simp] theorem State.updTag_hp (s : State) (f : Tag → Tag) : (s.updTag f).hp = s.hp := rfl
@[simp] theorem State.updTag_store (s : State) (f : Tag → Tag) : (s.updTag f).store = s.store := rfl
@[simp] theorem State.updTag_pending (s : State) (f : Tag → Tag) : (s.updTag f).pending = s.pending := rfl

@[simp] theorem State.updMet_regs (s : State) (f : Met → Met) : (s.updMet f).regs = s.regs := rfl
@[simp] theorem State.updMet_shadow (s : State) (f : Met → Met) : (s.updMet f).shadow = s.shadow := rfl
@[simp] theorem State.updMet_sys (s : State) (f : Met → Met) : (s.updMet f).sys = s.sys := rfl
@[simp] theorem State.updMet_pilot (s : State) (f : Met → Met) : (s.updMet f).pilot = s.pilot := rfl
@[simp] theorem State.updMet_hlc (s : State) (f : Met → Met) : (s.updMet f).hlc = s.hlc := rfl
@[simp] theorem State.updMet_sw (s : State) (f : Met → Met) : (s.updMet f).sw = s.sw := rfl
@[simp] theorem State.updMet_sup (s : State) (f : Met → Met) : (s.updMet f).sup = s.sup := rfl
@[simp] theorem State.updMet_cap (s : State) (f : Met → Met) : (s.updMet f).cap = s.cap := rfl
@[simp] theorem State.updMet_key (s : State) (f : Met → Met) : (s.updMet f).key = s.key := rfl
@[simp] theorem State.updMet_rd (s : State) (f : Met → Met) : (s.updMet f).rd = s.rd := rfl
@[simp] theorem State.updMet_tag (s : State) (f : Met → Met) : (s.updMet f).tag = s.tag := rfl
@[simp] theorem State.updMet_met (s : State) (f : Met → Met) : (s.updMet f).met = f s.met := rfl
@[simp] theorem State.updMet_led (s : State) (f : Met → Met) : (s.updMet f).led = s.led := rfl
@[simp] theorem State.updMet_link (s : State) (f : Met → Met) : (s.updMet f).link = s.link := rfl
@[simp] theorem State.updMet_alloc (s : State) (f : Met → Met) : (s.updMet f).alloc = s.alloc := rfl
@[simp] theorem State.updMet_plt (s : State) (f : Met → Met) : (s.updMet f).plt = s.plt := rfl
@[simp] theorem State.updMet_hp (s : State) (f : Met → Met) : (s.updMet f).hp = s.hp := rfl
@[simp] theorem State.updMet_store (s : State) (f : Met → Met) : (s.updMet f).store = s.store := rfl
@[simp] theorem State.updMet_pending (s : State) (f : Met → Met) : (s.updMet f).pending = s.pending := rfl

@[simp] theorem State.updLed_regs (s : State) (f : Led → Led) : (s.updLed f).regs = s.regs := rfl
@[simp] theorem State.updLed_shadow (s : State) (f : Led → Led) : (s.updLed f).shadow = s.shadow := rfl
@[simp] theorem State.updLed_sys (s : State) (f : Led → Led) : (s.updLed f).sys = s.sys := rfl
@[simp] theorem State.updLed_pilot (s : State) (f : Led → Led) : (s.updLed f).pilot = s.pilot := rfl
@[simp] theorem State.updLed_hlc (s : State) (f : Led → Led) : (s.updLed f).hlc = s.hlc := rfl
@[simp] theorem State.updLed_sw (s : State) (f : Led → Led) : (s.updLed f).sw = s.sw := rfl
@[simp] theorem State.updLed_sup (s : State) (f : Led → Led) : (s.updLed f).sup = s.sup := rfl
@[simp] theorem State.updLed_cap (s : State) (f : Led → Led) : (s.updLed f).cap = s.cap := rfl
@[simp] theorem State.updLed_key (s : State) (f : Led → Led) : (s.updLed f).key = s.key := rfl
@[simp] theorem State.updLed_rd (s : State) (f : Led → Led) : (s.updLed f).rd = s.rd := rfl
@[simp] theorem State.updLed_tag (s : State) (f : Led → Led) : (s.updLed f).tag = s.tag := rfl
@[simp] theorem State.updLed_met (s : State) (f : Led → Led) : (s.updLed f).met = s.met := rfl
@[simp] theorem State.updLed_led (s : State) (f : Led → Led) : (s.updLed f).led = f s.led := rfl
@[simp] theorem State.updLed_link (s : State) (f : Led → Led) : (s.updLed f).link = s.link := rfl
@[simp] theorem State.updLed_alloc (s : State) (f : Led → Led) : (s.updLed f).alloc = s.alloc := rfl
@[simp] theorem State.updLed_plt (s : State) (f : Led → Led) : (s.updLed f).plt = s.plt := rfl
@[simp] theorem State.updLed_hp (s : State) (f : Led → Led) : (s.updLed f).hp = s.hp := rfl
@[simp] theorem State.updLed_store (s : State) (f : Led → Led) : (s.updLed f).store = s.store := rfl
@[simp] theorem State.updLed_pending (s : State) (f : Led → Led) : (s.updLed f).pending = s.pending := rfl

@[simp] theorem State.updLink_regs (s : State) (f : Link → Link) : (s.updLink f).regs = s.regs := rfl
@[simp] theorem State.updLink_shadow (s : State) (f : Link → Link) : (s.updLink f).shadow = s.shadow := rfl
@[simp] theorem State.updLink_sys (s : State) (f : Link → Link) : (s.updLink f).sys = s.sys := rfl
@[simp] theorem State.updLink_pilot (s : State) (f : Link → Link) : (s.updLink f).pilot = s.pilot := rfl
@[simp] theorem State.updLink_hlc (s : State) (f : Link → Link) : (s.updLink f).hlc = s.hlc := rfl
@[simp] theorem State.updLink_sw (s : State) (f : Link → Link) : (s.updLink f).sw = s.sw := rfl
@[simp] theorem State.updLink_sup (s : State) (f : Link → Link) : (s.updLink f).sup = s.sup := rfl
@[simp] theorem State.updLink_cap (s : State) (f : Link → Link) : (s.updLink f).cap = s.cap := rfl
@[simp] theorem State.updLink_key (s : State) (f : Link → Link) : (s.updLink f).key = s.key := rfl
@[simp] theorem State.updLink_rd (s : State) (f : Link → Link) : (s.updLink f).rd = s.rd := rfl
@[simp] theorem State.updLink_tag (s : State) (f : Link → Link) : (s.updLink f).tag = s.tag := rfl
@[simp] theorem State.updLink_met (s : State) (f : Link → Link) : (s.updLink f).met = s.met := rfl
@[simp] theorem State.updLink_led (s : State) (f : Link → Link) : (s.updLink f).led = s.led := rfl
@[simp] theorem State.updLink_link (s : State) (f : Link → Link) : (s.updLink f).link = f s.link := rfl
@[simp] theorem State.updLink_alloc (s : State) (f : Link → Link) : (s.updLink f).alloc = s.alloc := rfl
@[simp] theorem State.updLink_plt (s : State) (f : Link → Link) : (s.updLink f).plt = s.plt := rfl
@[simp] theorem State.updLink_hp (s : State) (f : Link → Link) : (s.updLink f).hp = s.hp := rfl
@[simp] theorem State.updLink_store (s : State) (f : Link → Link) : (s.updLink f).store = s.store := rfl
@[simp] theorem State.updLink_pending (s : State) (f : Link → Link) : (s.updLink f).pending = s.pending := rfl

@[simp] theorem State.updAlloc_regs (s : State) (f : Alloc → Alloc) : (s.updAlloc f).regs = s.regs := rfl
@[simp] theorem State.updAlloc_shadow (s : State) (f : Alloc → Alloc) : (s.updAlloc f).shadow = s.shadow := rfl
@[simp] theorem State.updAlloc_sys (s : State) (f : Alloc → Alloc) : (s.updAlloc f).sys = s.sys := rfl
@[simp] theorem State.updAlloc_pilot (s : State) (f : Alloc → Alloc) : (s.updAlloc f).pilot = s.pilot := rfl
@[simp] theorem State.updAlloc_hlc (s : State) (f : Alloc → Alloc) : (s.updAlloc f).hlc = s.hlc := rfl
@[simp] theorem State.updAlloc_sw (s : State) (f : Alloc → Alloc) : (s.updAlloc f).sw = s.sw := rfl
@[simp] theorem State.updAlloc_sup (s : State) (f : Alloc → Alloc) : (s.updAlloc f).sup = s.sup := rfl
@[simp] theorem State.updAlloc_cap (s : State) (f : Alloc → Alloc) : (s.updAlloc f).cap = s.cap := rfl
@[simp] theorem State.updAlloc_key (s : State) (f : Alloc → Alloc) : (s.updAlloc f).key = s.key := rfl
@[simp] theorem State.updAlloc_rd (s : State) (f : Alloc → Alloc) : (s.updAlloc f).rd = s.rd := rfl
@[simp] theorem State.updAlloc_tag (s : State) (f : Alloc → Alloc) : (s.updAlloc f).tag = s.tag := rfl
@[simp] theorem State.updAlloc_met (s : State) (f : Alloc → Alloc) : (s.updAlloc f).met = s.met := rfl
@[simp] theorem State.updAlloc_led (s : State) (f : Alloc → Alloc) : (s.updAlloc f).led = s.led := rfl
@[simp] theorem State.updAlloc_link (s : State) (f : Alloc → Alloc) : (s.updAlloc f).link = s.link := rfl
@[simp] theorem State.updAlloc_alloc (s : State) (f : Alloc → Alloc) : (s.updAlloc f).alloc = f s.alloc := rfl
@[simp] theorem State.updAlloc_plt (s : State) (f : Alloc → Alloc) : (s.updAlloc f).plt = s.plt := rfl
@[simp] theorem State.updAlloc_hp (s : State) (f : Alloc → Alloc) : (s.updAlloc f).hp = s.hp := rfl
@[simp] theorem State.updAlloc_store (s : State) (f : Alloc → Alloc) : (s.updAlloc f).store = s.store := rfl
@[simp] theorem State.updAlloc_pending (s : State) (f : Alloc → Alloc) : (s.updAlloc f).pending = s.pending := rfl

@[simp] theorem State.updPlt_regs (s : State) (f : Plt → Plt) : (s.updPlt f).regs = s.regs := rfl
@[simp] theorem State.updPlt_shadow (s : State) (f : Plt → Plt) : (s.updPlt f).shadow = s.shadow := rfl
@[simp] theorem State.updPlt_sys (s : State) (f : Plt → Plt) : (s.updPlt f).sys = s.sys := rfl
@[simp] theorem State.updPlt_pilot (s : State) (f : Plt → Plt) : (s.updPlt f).pilot = s.pilot := rfl
@[simp] theorem State.updPlt_hlc (s : State) (f : Plt → Plt) : (s.updPlt f).hlc = s.hlc := rfl
@[simp] theorem State.updPlt_sw (s : State) (f : Plt → Plt) : (s.updPlt f).sw = s.sw := rfl
@[simp] theorem State.updPlt_sup (s : State) (f : Plt → Plt) : (s.updPlt f).sup = s.sup := rfl
@[simp] theorem State.updPlt_cap (s : State) (f : Plt → Plt) : (s.updPlt f).cap = s.cap := rfl
@[simp] theorem State.updPlt_key (s : State) (f : Plt → Plt) : (s.updPlt f).key = s.key := rfl
@[simp] theorem State.updPlt_rd (s : State) (f : Plt → Plt) : (s.updPlt f).rd = s.rd := rfl
@[simp] theorem State.updPlt_tag (s : State) (f : Plt → Plt) : (s.updPlt f).tag = s.tag := rfl
@[simp] theorem State.updPlt_met (s : State) (f : Plt → Plt) : (s.updPlt f).met = s.met := rfl
@[simp] theorem State.updPlt_led (s : State) (f : Plt → Plt) : (s.updPlt f).led = s.led := rfl
@[simp] theorem State.updPlt_link (s : State) (f : Plt → Plt) : (s.updPlt f).link = s.link := rfl
@[simp] theorem State.updPlt_alloc (s : State) (f : Plt → Plt) : (s.updPlt f).alloc = s.alloc := rfl
@[simp] theorem State.updPlt_plt (s : State) (f : Plt → Plt) : (s.updPlt f).plt = f s.plt := rfl
@[simp] theorem State.updPlt_hp (s : State) (f : Plt → Plt) : (s.updPlt f).hp = s.hp := rfl
@[simp] theorem State.updPlt_store (s : State) (f : Plt → Plt) : (s.updPlt f).store = s.store := rfl
@[simp] theorem State.updPlt_pending (s : State) (f : Plt → Plt) : (s.updPlt f).pending = s.pending := rfl

@[simp] theorem State.updHp_regs (s : State) (f : Hp → Hp) : (s.updHp f).regs = s.regs := rfl
@[simp] theorem State.updHp_shadow (s : State) (f : Hp → Hp) : (s.updHp f).shadow = s.shadow := rfl
@[simp] theorem State.updHp_sys (s : State) (f : Hp → Hp) : (s.updHp f).sys = s.sys := rfl
@[simp] theorem State.updHp_pilot (s : State) (f : Hp → Hp) : (s.updHp f).pilot = s.pilot := rfl
@[simp] theorem State.updHp_hlc (s : State) (f : Hp → Hp) : (s.updHp f).hlc = s.hlc := rfl
@[simp] theorem State.updHp_sw (s : State) (f : Hp → Hp) : (s.updHp f).sw = s.sw := rfl
@[simp] theorem State.updHp_sup (s : State) (f : Hp → Hp) : (s.updHp f).sup = s.sup := rfl
@[simp] theorem State.updHp_cap (s : State) (f : Hp → Hp) : (s.updHp f).cap = s.cap := rfl
@[simp] theorem State.updHp_key (s : State) (f : Hp → Hp) : (s.updHp f).key = s.key := rfl
@[simp] theorem State.updHp_rd (s : State) (f : Hp → Hp) : (s.updHp f).rd = s.rd := rfl
@[simp] theorem State.updHp_tag (s : State) (f : Hp → Hp) : (s.updHp f).tag = s.tag := rfl
@[simp] theorem State.updHp_met (s : State) (f : Hp → Hp) : (s.updHp f).met = s.met := rfl
@[simp] theorem State.updHp_led (s : State) (f : Hp → Hp) : (s.updHp f).led = s.led := rfl
@[simp] theorem State.updHp_link (s : State) (f : Hp → Hp) : (s.updHp f).link = s.link := rfl
@[simp] theorem State.updHp_alloc (s : State) (f : Hp → Hp) : (s.updHp f).alloc = s.alloc := rfl
@[simp] theorem State.updHp_plt (s : State) (f : Hp → Hp) : (s.updHp f).plt = s.plt := rfl
@[simp] theorem State.updHp_hp (s : State) (f : Hp → Hp) : (s.updHp f).hp = f s.hp := rfl
@[simp] theorem State.updHp_store (s : State) (f : Hp → Hp) : (s.updHp f).store = s.store := rfl
@[simp] theorem State.updHp_pending (s : State) (f : Hp → Hp) : (s.updHp f).pending = s.pending := rfl

@[simp] theorem State.updStore_regs (s : State) (f : Store → Store) : (s.updStore f).regs = s.regs := rfl
@[simp] theorem State.updStore_shadow (s : State) (f : Store → Store) : (s.updStore f).shadow = s.shadow := rfl
@[simp] theorem State.updStore_sys (s : State) (f : Store → Store) : (s.updStore f).sys = s.sys := rfl
@[simp] theorem State.updStore_pilot (s : State) (f : Store → Store) : (s.updStore f).pilot = s.pilot := rfl
@[simp] theorem State.updStore_hlc (s : State) (f : Store → Store) : (s.updStore f).hlc = s.hlc := rfl
@[simp] theorem State.updStore_sw (s : State) (f : Store → Store) : (s.updStore f).sw = s.sw := rfl
@[simp] theorem State.updStore_sup (s : State) (f : Store → Store) : (s.updStore f).sup = s.sup := rfl
@[simp] theorem State.updStore_cap (s : State) (f : Store → Store) : (s.updStore f).cap = s.cap := rfl
@[simp] theorem State.updStore_key (s : State) (f : Store → Store) : (s.updStore f).key = s.key := rfl
@[simp] theorem State.updStore_rd (s : State) (f : Store → Store) : (s.updStore f).rd = s.rd := rfl
@[simp] theorem State.updStore_tag (s : State) (f : Store → Store) : (s.updStore f).tag = s.tag := rfl
@[simp] theorem State.updStore_met (s : State) (f : Store → Store) : (s.updStore f).met = s.met := rfl
@[simp] theorem State.updStore_led (s : State) (f : Store → Store) : (s.updStore f).led = s.led := rfl
@[simp] theorem State.updStore_link (s : State) (f : Store → Store) : (s.updStore f).link = s.link := rfl
@[simp] theorem State.updStore_alloc (s : State) (f : Store → Store) : (s.updStore f).alloc = s.alloc := rfl
@[simp] theorem State.updStore_plt (s : State) (f : Store → Store) : (s.updStore f).plt = s.plt := rfl
@[simp] theorem State.updStore_hp (s : State) (f : Store → Store) : (s.updStore f).hp = s.hp := rfl
@[simp] theorem State.updStore_store (s : State) (f : Store → Store) : (s.updStore f).store = f s.store := rfl
@[simp] theorem State.updStore_pending (s : State) (f : Store → Store) : (s.updStore f).pending = s.pending := rfl

@[simp] theorem State.updRegs_regs (s : State) (f : NMap Nat → NMap Nat) : (s.updRegs f).regs = f s.regs := rfl
@[simp] theorem State.updRegs_shadow (s : State) (f : NMap Nat → NMap Nat) : (s.updRegs f).shadow = s.shadow := rfl
@[simp] theorem State.updRegs_sys (s : State) (f : NMap Nat → NMap Nat) : (s.updRegs f).sys = s.sys := rfl
@[simp] theorem State.updRegs_pilot (s : State) (f : NMap Nat → NMap Nat) : (s.updRegs f).pilot = s.pilot := rfl
@[simp] theorem State.updRegs_hlc (s : State) (f : NMap Nat → NMap Nat) : (s.updRegs f).hlc = s.hlc := rfl
@[simp] theorem State.updRegs_sw (s : State) (f : NMap Nat → NMap Nat) : (s.updRegs f).sw = s.sw := rfl
@[simp] theorem State.updRegs_sup (s : State) (f : NMap Nat → NMap Nat) : (s.updRegs f).sup = s.sup := rfl
@[simp] theorem State.updRegs_cap (s : State) (f : NMap Nat → NMap Nat) : (s.updRegs f).cap = s.cap := rfl
@[simp] theorem State.updRegs_key (s : State) (f : NMap Nat → NMap Nat) : (s.updRegs f).key = s.key := rfl
@[simp] theorem State.updRegs_rd (s : State) (f : NMap Nat → NMap Nat) : (s.updRegs f).rd = s.rd := rfl
@[simp] theorem State.updRegs_tag (s : State) (f : NMap Nat → NMap Nat) : (s.updRegs f).tag = s.tag := rfl
@[simp] theorem State.updRegs_met (s : State) (f : NMap Nat → NMap Nat) : (s.updRegs f).met = s.met := rfl
@[simp] theorem State.updRegs_led (s : State) (f : NMap Nat → NMap Nat) : (s.updRegs f).led = s.led := rfl
@[simp] theorem State.updRegs_link (s : State) (f : NMap Nat → NMap Nat) : (s.updRegs f).link = s.link := rfl
@[simp] theorem State.updRegs_alloc (s : State) (f : NMap Nat → NMap Nat) : (s.updRegs f).alloc = s.alloc := rfl
@[simp] theorem State.updRegs_plt (s : State) (f : NMap Nat → NMap Nat) : (s.updRegs f).plt = s.plt := rfl
@[simp] theorem State.updRegs_hp (s : State) (f : NMap Nat → NMap Nat) : (s.updRegs f).hp = s.hp := rfl
@[simp] theorem State.updRegs_store (s : State) (f : NMap Nat → NMap Nat) : (s.updRegs f).store = s.store := rfl
@[simp] theorem State.updRegs_pending (s : State) (f : NMap Nat → NMap Nat) : (s.updRegs f).pending = s.pending := rfl

@[simp] theorem State.updShadow_regs (s : State) (f : NMap Nat → NMap Nat) : (s.updShadow f).regs = s.regs := rfl
@[simp] theorem State.updShadow_shadow (s : State) (f : NMap Nat → NMap Nat) : (s.updShadow f).shadow = f s.shadow := rfl
@[simp] theorem State.updShadow_sys (s : State) (f : NMap Nat → NMap Nat) : (s.updShadow f).sys = s.sys := rfl
@[simp] theorem State.updShadow_pilot (s : State) (f : NMap Nat → NMap Nat) : (s.updShadow f).pilot = s.pilot := rfl
@[simp] theorem State.updShadow_hlc (s : State) (f : NMap Nat → NMap Nat) : (s.updShadow f).hlc = s.hlc := rfl
@[simp] theorem State.updShadow_sw (s : State) (f : NMap Nat → NMap Nat) : (s.updShadow f).sw = s.sw := rfl
@[simp] theorem State.updShadow_sup (s : State) (f : NMap Nat → NMap Nat) : (s.updShadow f).sup = s.sup := rfl
@[simp] theorem State.updShadow_cap (s : State) (f : NMap Nat → NMap Nat) : (s.updShadow f).cap = s.cap := rfl
@[simp] theorem State.updShadow_key (s : State) (f : NMap Nat → NMap Nat) : (s.updShadow f).key = s.key := rfl
@[simp] theorem State.updShadow_rd (s : State) (f : NMap Nat → NMap Nat) : (s.updShadow f).rd = s.rd := rfl
@[simp] theorem State.updShadow_tag (s : State) (f : NMap Nat → NMap Nat) : (s.updShadow f).tag = s.tag := rfl
@[simp] theorem State.updShadow_met (s : State) (f : NMap Nat → NMap Nat) : (s.updShadow f).met = s.met := rfl
@[simp] theorem State.updShadow_led (s : State) (f : NMap Nat → NMap Nat) : (s.updShadow f).led = s.led := rfl
@[simp] theorem State.updShadow_link (s : State) (f : NMap Nat → NMap Nat) : (s.updShadow f).link = s.link := rfl
@[simp] theorem State.updShadow_alloc (s : State) (f : NMap Nat → NMap Nat) : (s.updShadow f).alloc = s.alloc := rfl
@[simp] theorem State.updShadow_plt (s : State) (f : NMap Nat → NMap Nat) : (s.updShadow f).plt = s.plt := rfl
@[simp] theorem State.updShadow_hp (s : State) (f : NMap Nat → NMap Nat) : (s.updShadow f).hp = s.hp := rfl
@[simp] theorem State.updShadow_store (s : State) (f : NMap Nat → NMap Nat) : (s.updShadow f).store = s.store := rfl
@[simp] theorem State.updShadow_pending (s : State) (f : NMap Nat → NMap Nat) : (s.updShadow f).pending = s.pending := rfl

end Sys2Proof.Machine
end

