-- ==== Sys2Proof/Laws/Keeps.lean ====
section
/-! SUPPORT. What every operation keeps: the relation `Keeps` composes, and each update of a part of the state has it. -/
namespace Sys2Proof.Machine

theorem Keeps.refl (a : State) : Keeps a a := ⟨rfl, id, id⟩

theorem Keeps.trans {a b c : State} (h : Keeps a b) (k : Keeps b c) : Keeps a c :=
  ⟨k.pending.trans h.pending, fun w => k.wf (h.wf w), fun w => k.fuse (h.fuse w)⟩

theorem CapKeeps.refl (a : Cap) : CapKeeps a a := id

/-- A change of nothing that `Keeps` speaks of. -/
theorem Keeps.of_same {a s t : State} (h : Keeps a s) (hp : t.pending = s.pending) (hc : t.cap.memWf = s.cap.memWf)
    (hs : t.store.cells = s.store.cells) (ht : t.tag.mem = s.tag.mem) (hr : t.regs = s.regs) (hd : t.shadow = s.shadow)
    (hf : t.sys.factoryDone = s.sys.factoryDone) : Keeps a t :=
  h.trans ⟨hp, fun w => by unfold Memory.wf at *; rw [hc, hs, ht, hr, hd]; exact w, fun w => by rw [hf]; exact w⟩

section
variable {a s : State} (h : Keeps a s)
include h

theorem State.updPilot_keeps (f) : Keeps a (s.updPilot f) := h.of_same rfl rfl rfl rfl rfl rfl rfl
theorem State.updHlc_keeps (f) : Keeps a (s.updHlc f) := h.of_same rfl rfl rfl rfl rfl rfl rfl
theorem State.updSw_keeps (f) : Keeps a (s.updSw f) := h.of_same rfl rfl rfl rfl rfl rfl rfl
theorem State.updSup_keeps (f) : Keeps a (s.updSup f) := h.of_same rfl rfl rfl rfl rfl rfl rfl
theorem State.updKey_keeps (f) : Keeps a (s.updKey f) := h.of_same rfl rfl rfl rfl rfl rfl rfl
theorem State.updRd_keeps (f) : Keeps a (s.updRd f) := h.of_same rfl rfl rfl rfl rfl rfl rfl
theorem State.updMet_keeps (f) : Keeps a (s.updMet f) := h.of_same rfl rfl rfl rfl rfl rfl rfl
theorem State.updLed_keeps (f) : Keeps a (s.updLed f) := h.of_same rfl rfl rfl rfl rfl rfl rfl
theorem State.updLink_keeps (f) : Keeps a (s.updLink f) := h.of_same rfl rfl rfl rfl rfl rfl rfl
theorem State.updAlloc_keeps (f) : Keeps a (s.updAlloc f) := h.of_same rfl rfl rfl rfl rfl rfl rfl
theorem State.updPlt_keeps (f) : Keeps a (s.updPlt f) := h.of_same rfl rfl rfl rfl rfl rfl rfl
theorem State.updHp_keeps (f) : Keeps a (s.updHp f) := h.of_same rfl rfl rfl rfl rfl rfl rfl

theorem State.updSys_keeps {f : Sys → Sys} (hf : ∀ y : Sys, y.factoryDone = true → (f y).factoryDone = true) :
    Keeps a (s.updSys f) := h.trans ⟨rfl, id, hf s.sys⟩

theorem State.updCap_keeps {f : Cap → Cap} (hf : ∀ c, CapKeeps c (f c)) : Keeps a (s.updCap f) :=
  h.trans ⟨rfl, fun w => by
    simp only [Memory.wf, Bool.and_eq_true] at w ⊢
    exact ⟨⟨⟨⟨hf s.cap w.1.1.1.1, w.1.1.1.2⟩, w.1.1.2⟩, w.1.2⟩, w.2⟩, id⟩

theorem State.updStore_keeps {f : Store → Store} (hf : ∀ t : Store, mapWf 0xFF t.cells = true → mapWf 0xFF (f t).cells = true) :
    Keeps a (s.updStore f) :=
  h.trans ⟨rfl, fun w => by
    simp only [Memory.wf, Bool.and_eq_true] at w ⊢
    exact ⟨⟨⟨⟨w.1.1.1.1, hf s.store w.1.1.1.2⟩, w.1.1.2⟩, w.1.2⟩, w.2⟩, id⟩

theorem State.updTag_keeps {f : Tag → Tag} (hf : ∀ t : Tag, mapWf 0 t.mem = true → mapWf 0 (f t).mem = true) :
    Keeps a (s.updTag f) :=
  h.trans ⟨rfl, fun w => by
    simp only [Memory.wf, Bool.and_eq_true] at w ⊢
    exact ⟨⟨⟨⟨w.1.1.1.1, w.1.1.1.2⟩, hf s.tag w.1.1.2⟩, w.1.2⟩, w.2⟩, id⟩

theorem State.updRegs_keeps {f : NMap Nat → NMap Nat} (hf : ∀ m, risingFrom 0 m = true → risingFrom 0 (f m) = true) :
    Keeps a (s.updRegs f) :=
  h.trans ⟨rfl, fun w => by
    simp only [Memory.wf, Bool.and_eq_true] at w ⊢
    exact ⟨⟨w.1.1, hf s.regs w.1.2⟩, w.2⟩, id⟩

theorem State.updShadow_keeps {f : NMap Nat → NMap Nat} (hf : ∀ m, risingFrom 0 m = true → risingFrom 0 (f m) = true) :
    Keeps a (s.updShadow f) :=
  h.trans ⟨rfl, fun w => by
    simp only [Memory.wf, Bool.and_eq_true] at w ⊢
    exact ⟨w.1, hf s.shadow w.2⟩, id⟩

end

theorem CapKeeps.of_same {a c t : Cap} (hp : t.prog = c.prog) (hm : t.caseMem = c.caseMem) (hs : t.shared = c.shared)
    (h : CapKeeps a c) : CapKeeps a t := fun w => by
  have := h w
  unfold Cap.memWf at *; rw [hp, hm, hs]; exact this

theorem updCaseMem_keeps {a s : State} (h : Keeps a s) {g : Cap → NMap Byte}
    (hg : ∀ c : Cap, mapWf 0 c.caseMem = true → mapWf 0 (g c) = true) :
    Keeps a (s.updCap fun c => { c with caseMem := g c }) :=
  State.updCap_keeps h fun c w => by
    simp only [Cap.memWf, Bool.and_eq_true] at w ⊢; exact ⟨⟨w.1.1, hg c w.1.2⟩, w.2⟩

theorem updShared_keeps {a s : State} (h : Keeps a s) {g : Cap → NMap Byte}
    (hg : ∀ c : Cap, mapWf 0 c.shared = true → mapWf 0 (g c) = true) :
    Keeps a (s.updCap fun c => { c with shared := g c }) :=
  State.updCap_keeps h fun c w => by
    simp only [Cap.memWf, Bool.and_eq_true] at w ⊢; exact ⟨w.1, hg c w.2⟩

theorem updProg_keeps {a s : State} (h : Keeps a s) {g : Cap → NMap Word}
    (hg : ∀ c : Cap, mapWf 0 c.prog = true → mapWf 0 (g c) = true) :
    Keeps a (s.updCap fun c => { c with prog := g c }) :=
  State.updCap_keeps h fun c w => by
    simp only [Cap.memWf, Bool.and_eq_true] at w ⊢; exact ⟨⟨hg c w.1.1, w.1.2⟩, w.2⟩

/-- A fold keeps what each of its steps keeps. -/
theorem foldl_keeps {β : Type} {a s : State} {g : State → β → State} {l : List β} (h : Keeps a s)
    (hg : ∀ b x, Keeps a b → Keeps a (g b x)) : Keeps a (l.foldl g s) := by
  induction l generalizing s with
  | nil => exact h
  | cons x l ih => exact ih (hg s x h)

theorem foldl_capKeeps {β : Type} {a s : Cap} {g : Cap → β → Cap} {l : List β} (h : CapKeeps a s)
    (hg : ∀ b x, CapKeeps a b → CapKeeps a (g b x)) : CapKeeps a (l.foldl g s) := by
  induction l generalizing s with
  | nil => exact h
  | cons x l ih => exact ih (hg s x h)

end Sys2Proof.Machine
end

