-- ==== Sys2Proof/Laws/KeepsOps.lean ====
section
/-! SUPPORT. One lemma per operation of the shared operations of the blocks: what `Keeps` says of it. -/
namespace Sys2Proof.Machine

theorem setF_keeps {a : State} (f : Field) (v : ℕ) (s : State) (h : Keeps a s) : Keeps a (setF f v s) := by
  unfold setF
  try dsimp only
  repeat' first
    | with_reducible first
        | assumption | intro _ | apply State.updRegs_keeps | apply risingFrom_mapSet (Nat.zero_le _)
        | apply mapWf_mapSet
    | split | dsimp only | assumption | exact Keeps.of_same (by assumption) rfl rfl rfl rfl rfl rfl rfl | intro _ | rfl

theorem setB_keeps {a : State} (f : Field) (b : Bool) (s : State) (h : Keeps a s) : Keeps a (setB f b s) := by
  unfold setB
  try dsimp only
  repeat' first
    | with_reducible first
        | assumption | intro _ | apply setF_keeps
    | split | dsimp only | assumption | exact Keeps.of_same (by assumption) rfl rfl rfl rfl rfl rfl rfl | intro _ | rfl

theorem setI_keeps {a : State} (f : Field) (v : ℤ) (s : State) (h : Keeps a s) : Keeps a (setI f v s) := by
  unfold setI
  try dsimp only
  repeat' first
    | with_reducible first
        | assumption | intro _ | apply setF_keeps
    | split | dsimp only | assumption | exact Keeps.of_same (by assumption) rfl rfl rfl rfl rfl rfl rfl | intro _ | rfl

theorem incF_keeps {a : State} (f : Field) (s : State) (h : Keeps a s) : Keeps a (incF f s) := by
  unfold incF
  try dsimp only
  repeat' first
    | with_reducible first
        | assumption | intro _ | apply setF_keeps
    | split | dsimp only | assumption | exact Keeps.of_same (by assumption) rfl rfl rfl rfl rfl rfl rfl | intro _ | rfl

theorem boundary_keeps {a : State} (f : Field) (s : State) (h : Keeps a s) : Keeps a (boundary f s) := by
  unfold boundary
  try dsimp only
  repeat' first
    | with_reducible first
        | assumption | intro _ | apply State.updShadow_keeps | apply risingFrom_mapSet (Nat.zero_le _)
        | apply mapWf_mapSet
    | split | dsimp only | assumption | exact Keeps.of_same (by assumption) rfl rfl rfl rfl rfl rfl rfl | intro _ | rfl

theorem boundaries_keeps {a : State} (fs : List Field) (s : State) (h : Keeps a s) : Keeps a (boundaries fs s) := by
  unfold boundaries
  try dsimp only
  repeat' first
    | with_reducible first
        | assumption | intro _ | apply boundary_keeps | apply foldl_keeps
    | split | dsimp only | assumption | exact Keeps.of_same (by assumption) rfl rfl rfl rfl rfl rfl rfl | intro _ | rfl

theorem clearRegs_keeps {a : State} (ds : List ℕ) (s : State) (h : Keeps a s) : Keeps a (clearRegs ds s) := by
  unfold clearRegs
  try dsimp only
  repeat' first
    | with_reducible first
        | assumption | intro _ | apply State.updShadow_keeps | apply State.updRegs_keeps | apply risingFrom_filter
        | apply mapWf_filter
    | split | dsimp only | assumption | exact Keeps.of_same (by assumption) rfl rfl rfl rfl rfl rfl rfl | intro _ | rfl

theorem freeBelow_keeps {a : State} (bound : ℕ) (s : State) (h : Keeps a s) : Keeps a (freeBelow bound s).2 := by
  unfold freeBelow
  try dsimp only
  repeat' first
    | with_reducible first
        | assumption | intro _ | apply State.updSys_keeps
    | split | dsimp only | assumption | exact Keeps.of_same (by assumption) rfl rfl rfl rfl rfl rfl rfl | intro _ | rfl

theorem freeBelow_keeps' {a t : State} {bound : ℕ} {s : State} {v0} (e : freeBelow bound s = (v0, t)) (h : Keeps a s) : Keeps a t := by
  have q := freeBelow_keeps (a := a) bound s h
  rw [e] at q
  exact q

theorem freeWide_keeps {a : State} (s : State) (h : Keeps a s) : Keeps a (freeWide s).2 := by
  unfold freeWide
  try dsimp only
  repeat' first
    | with_reducible first
        | assumption | intro _ | apply State.updSys_keeps
    | split | dsimp only | assumption | exact Keeps.of_same (by assumption) rfl rfl rfl rfl rfl rfl rfl | intro _ | rfl

theorem freeWide_keeps' {a t : State} {s : State} {v0} (e : freeWide s = (v0, t)) (h : Keeps a s) : Keeps a t := by
  have q := freeWide_keeps (a := a) s h
  rw [e] at q
  exact q

theorem ringOut_keeps {a : State} (k : ℕ) (d : ℕ) (s : State) (h : Keeps a s) : Keeps a (ringOut k d s) := by
  unfold ringOut
  try dsimp only
  repeat' first
    | with_reducible first
        | assumption | intro _ | apply setF_keeps
    | split | dsimp only | assumption | exact Keeps.of_same (by assumption) rfl rfl rfl rfl rfl rfl rfl | intro _ | rfl

theorem logEvent_keeps {a : State} (source : ℕ) (code : ℕ) (value : ℕ) (s : State) (h : Keeps a s) : Keeps a (logEvent source code value s) := by
  unfold logEvent
  try dsimp only
  repeat' first
    | with_reducible first
        | assumption | intro _ | apply State.updSys_keeps | apply State.updStore_keeps
    | split | dsimp only | assumption | exact Keeps.of_same (by assumption) rfl rfl rfl rfl rfl rfl rfl | intro _ | rfl

theorem logViolationAs_keeps {a : State} (source : ℕ) (k : ℕ) (who : ℕ) (value : ℕ) (s : State) (h : Keeps a s) : Keeps a (logViolationAs source k who value s) := by
  unfold logViolationAs
  try dsimp only
  repeat' first
    | with_reducible first
        | assumption | intro _ | apply State.updSys_keeps | apply State.updStore_keeps
    | split | dsimp only | assumption | exact Keeps.of_same (by assumption) rfl rfl rfl rfl rfl rfl rfl | intro _ | rfl

theorem logViolation_keeps {a : State} (source : ℕ) (k : ℕ) (value : ℕ) (s : State) (h : Keeps a s) : Keeps a (logViolation source k value s) := by
  unfold logViolation
  try dsimp only
  repeat' first
    | with_reducible first
        | assumption | intro _ | apply logViolationAs_keeps
    | split | dsimp only | assumption | exact Keeps.of_same (by assumption) rfl rfl rfl rfl rfl rfl rfl | intro _ | rfl

theorem enterMode_keeps {a : State} (m : Mode) (s : State) (h : Keeps a s) : Keeps a (enterMode m s) := by
  unfold enterMode
  try dsimp only
  repeat' first
    | with_reducible first
        | assumption | intro _ | apply ringOut_keeps | apply State.updSys_keeps
    | split | dsimp only | assumption | exact Keeps.of_same (by assumption) rfl rfl rfl rfl rfl rfl rfl | intro _ | rfl

theorem standbyExit_keeps {a : State} (s : State) (h : Keeps a s) : Keeps a (standbyExit s) := by
  unfold standbyExit
  try dsimp only
  repeat' first
    | with_reducible first
        | assumption | intro _ | apply enterMode_keeps | apply State.updSys_keeps
    | split | dsimp only | assumption | exact Keeps.of_same (by assumption) rfl rfl rfl rfl rfl rfl rfl | intro _ | rfl

theorem answerAs_keeps {a : State} (cmd done : Nat) (r : Nat × State) (h : Keeps a r.2) : Keeps a (answerAs cmd done r) :=
  setF_keeps _ _ _ (setF_keeps _ _ _ (setF_keeps _ _ _ h))

theorem answer_keeps {a : State} (r : Nat × State) (h : Keeps a r.2) : Keeps a (answer r) := answerAs_keeps _ _ _ h

theorem portWake_keeps {a : State} (addr : ℕ) (s : State) (h : Keeps a s) : Keeps a (portWake addr s) := by
  unfold portWake
  try dsimp only
  repeat' first
    | with_reducible first
        | assumption | intro _ | apply standbyExit_keeps
    | split | dsimp only | assumption | exact Keeps.of_same (by assumption) rfl rfl rfl rfl rfl rfl rfl | intro _ | rfl

theorem portWord_keeps {a : State} (addr : ℕ) (f : State → ℕ × State) (s : State) (hf : ∀ b, Keeps a b → Keeps a (f b).2) (h : Keeps a s) : Keeps a (portWord addr f s).2 := by
  unfold portWord
  try dsimp only
  repeat' first
    | with_reducible first
        | assumption | intro _ | apply portWake_keeps | apply hf
    | split | dsimp only | assumption | exact Keeps.of_same (by assumption) rfl rfl rfl rfl rfl rfl rfl | intro _ | rfl

theorem portWord_keeps' {a t : State} {addr : ℕ} {f : State → ℕ × State} {s : State} {v0} (hf : ∀ b, Keeps a b → Keeps a (f b).2) (e : portWord addr f s = (v0, t)) (h : Keeps a s) : Keeps a t := by
  have q := portWord_keeps (a := a) addr f s hf h
  rw [e] at q
  exact q

theorem hostTo_keeps {a : State} (addr : ℕ) (f : State → ℕ × State) (s : State) (hf : ∀ b, Keeps a b → Keeps a (f b).2) (h : Keeps a s) : Keeps a (hostTo addr f s) := by
  unfold hostTo
  try dsimp only
  repeat' first
    | with_reducible first
        | assumption | intro _ | apply answer_keeps | apply portWord_keeps | refine portWord_keeps' (by assumption) ?_
        | apply hf
    | split | dsimp only | assumption | exact Keeps.of_same (by assumption) rfl rfl rfl rfl rfl rfl rfl | intro _ | rfl

theorem updDie_keeps {a : State} (d : ℕ) (f : Die → Die) (s : State) (h : Keeps a s) : Keeps a (updDie d f s) := by
  unfold updDie
  try dsimp only
  repeat' first
    | with_reducible first
        | assumption | intro _ | apply State.updStore_keeps
    | split | dsimp only | assumption | exact Keeps.of_same (by assumption) rfl rfl rfl rfl rfl rfl rfl | intro _ | rfl

theorem copyOnWrite_keeps {a : State} (tag : ℕ → ℕ → BitVec 128) (ls : List ℕ) (s : State) (h : Keeps a s) : Keeps a (copyOnWrite tag ls s) := by
  unfold copyOnWrite
  try dsimp only
  repeat' first
    | with_reducible first
        | assumption | intro _ | apply updDie_keeps | apply foldl_keeps
    | split | dsimp only | assumption | exact Keeps.of_same (by assumption) rfl rfl rfl rfl rfl rfl rfl | intro _ | rfl

theorem exchangeGasp_keeps {a : State} (s : State) (h : Keeps a s) : Keeps a (exchangeGasp s) := by
  unfold exchangeGasp
  try dsimp only
  repeat' first
    | with_reducible first
        | assumption | intro _ | apply updDie_keeps | apply foldl_keeps
    | split | dsimp only | assumption | exact Keeps.of_same (by assumption) rfl rfl rfl rfl rfl rfl rfl | intro _ | rfl

theorem moveBlock_keeps {a : State} (a_ : ℕ) (b : ℕ) (s : State) (h : Keeps a s) : Keeps a (moveBlock a_ b s) := by
  unfold moveBlock
  try dsimp only
  repeat' first
    | with_reducible first
        | assumption | intro _ | apply updDie_keeps
    | split | dsimp only | assumption | exact Keeps.of_same (by assumption) rfl rfl rfl rfl rfl rfl rfl | intro _ | rfl

theorem balance_keeps {a : State} (x0 : ℕ) (x1 : State) (h : Keeps a x1) : Keeps a (balance x0 x1) := by
  induction x0 generalizing x1 with
  | zero =>
    unfold balance
    try dsimp only
    repeat' first
      | with_reducible first
          | assumption | intro _ | apply moveBlock_keeps
      | split | dsimp only | assumption | exact Keeps.of_same (by assumption) rfl rfl rfl rfl rfl rfl rfl | intro _
      | rfl
  | succ _ ih =>
    unfold balance
    try dsimp only
    repeat' first
      | with_reducible first
          | assumption | intro _ | apply moveBlock_keeps | apply ih
      | split | dsimp only | assumption | exact Keeps.of_same (by assumption) rfl rfl rfl rfl rfl rfl rfl | intro _
      | rfl

theorem level_keeps {a : State} (tag : ℕ → ℕ → BitVec 128) (s : State) (h : Keeps a s) : Keeps a (level tag s) := by
  unfold level
  try dsimp only
  repeat' first
    | with_reducible first
        | assumption | intro _ | apply updDie_keeps | apply foldl_keeps
    | split | dsimp only | assumption | exact Keeps.of_same (by assumption) rfl rfl rfl rfl rfl rfl rfl | intro _ | rfl

theorem Cap.setStrand_capKeeps {a : Cap} (n : Fin 320) (t_ : Strand) (c : Cap) (h : CapKeeps a c) : CapKeeps a (Cap.setStrand n t_ c) := by
  unfold Cap.setStrand
  try dsimp only
  repeat' first
    | with_reducible first
        | assumption | intro _
    | split | dsimp only | assumption | with_reducible exact CapKeeps.refl _ | intro _ | rfl

theorem Cap.modStrand_capKeeps {a : Cap} (n : Fin 320) (f : Strand → Strand) (c : Cap) (h : CapKeeps a c) : CapKeeps a (Cap.modStrand n f c) := by
  unfold Cap.modStrand
  try dsimp only
  repeat' first
    | with_reducible first
        | assumption | intro _ | apply Cap.setStrand_capKeeps
    | split | dsimp only | assumption | with_reducible exact CapKeeps.refl _
    | (refine CapKeeps.of_same rfl rfl rfl ?_; with_reducible first | assumption | apply Cap.setStrand_capKeeps)
    | intro _ | rfl

theorem modS_keeps {a : State} (n : Fin 320) (f : Strand → Strand) (s : State) (h : Keeps a s) : Keeps a (modS n f s) := by
  unfold modS
  try dsimp only
  repeat' first
    | with_reducible first
        | assumption | intro _ | apply Cap.modStrand_capKeeps | apply State.updCap_keeps
    | split | dsimp only | assumption | with_reducible exact CapKeeps.refl _
    | (refine CapKeeps.of_same rfl rfl rfl ?_; with_reducible first | assumption | apply Cap.modStrand_capKeeps)
    | exact Keeps.of_same (by assumption) rfl rfl rfl rfl rfl rfl rfl | intro _ | rfl

theorem Cap.join_capKeeps {a : Cap} (n : Fin 320) (c : Cap) (h : CapKeeps a c) : CapKeeps a (Cap.join n c) := by
  unfold Cap.join
  try dsimp only
  repeat' first
    | with_reducible first
        | assumption | intro _
    | split | dsimp only | assumption | with_reducible exact CapKeeps.refl _ | intro _ | rfl

theorem Cap.leave_capKeeps {a : Cap} (n : Fin 320) (c : Cap) (h : CapKeeps a c) : CapKeeps a (Cap.leave n c) := by
  unfold Cap.leave
  try dsimp only
  repeat' first
    | with_reducible first
        | assumption | intro _ | apply risingFrom_filter | apply mapWf_filter
    | split | dsimp only | assumption | with_reducible exact CapKeeps.refl _ | intro _ | rfl

theorem Cap.makeReady_capKeeps {a : Cap} (hm : ℕ) (fresh : Bool) (n : Fin 320) (c : Cap) (h : CapKeeps a c) : CapKeeps a (Cap.makeReady hm fresh n c) := by
  unfold Cap.makeReady
  try dsimp only
  repeat' first
    | with_reducible first
        | assumption | intro _ | apply Cap.join_capKeeps | apply Cap.leave_capKeeps | apply Cap.modStrand_capKeeps
    | split | dsimp only | assumption | with_reducible exact CapKeeps.refl _
    | (refine CapKeeps.of_same rfl rfl rfl ?_; with_reducible first | assumption | apply Cap.join_capKeeps | apply Cap.leave_capKeeps | apply Cap.modStrand_capKeeps)
    | intro _ | rfl

theorem Cap.tryWake_capKeeps {a : Cap} (hm : ℕ) (n : Fin 320) (c : Cap) (h : CapKeeps a c) : CapKeeps a (Cap.tryWake hm n c) := by
  unfold Cap.tryWake
  try dsimp only
  repeat' first
    | with_reducible first
        | assumption | intro _ | apply Cap.makeReady_capKeeps
    | split | dsimp only | assumption | with_reducible exact CapKeeps.refl _
    | (refine CapKeeps.of_same rfl rfl rfl ?_; with_reducible first | assumption | apply Cap.makeReady_capKeeps)
    | intro _ | rfl

theorem Cap.notify_capKeeps {a : Cap} (hm : ℕ) (ev : BitVec 8) (n : Fin 320) (c : Cap) (h : CapKeeps a c) : CapKeeps a (Cap.notify hm ev n c) := by
  unfold Cap.notify
  try dsimp only
  repeat' first
    | with_reducible first
        | assumption | intro _ | apply Cap.modStrand_capKeeps | apply Cap.tryWake_capKeeps
    | split | dsimp only | assumption | with_reducible exact CapKeeps.refl _
    | (refine CapKeeps.of_same rfl rfl rfl ?_; with_reducible first | assumption | apply Cap.modStrand_capKeeps | apply Cap.tryWake_capKeeps)
    | intro _ | rfl

theorem Cap.resolve_capKeeps {a : Cap} (hm : ℕ) (r : Resolution) (n : Fin 320) (c : Cap) (h : CapKeeps a c) : CapKeeps a (Cap.resolve hm r n c) := by
  unfold Cap.resolve
  try dsimp only
  repeat' first
    | with_reducible first
        | assumption | intro _ | apply Cap.modStrand_capKeeps | apply Cap.makeReady_capKeeps
    | split | dsimp only | assumption | with_reducible exact CapKeeps.refl _
    | (refine CapKeeps.of_same rfl rfl rfl ?_; with_reducible first | assumption | apply Cap.modStrand_capKeeps | apply Cap.makeReady_capKeeps)
    | intro _ | rfl

theorem Cap.resolveOn_capKeeps {a : Cap} (hm : ℕ) (ev : BitVec 8) (word : Word) (call : Option ℕ) (n : Fin 320) (c : Cap) (h : CapKeeps a c) : CapKeeps a (Cap.resolveOn hm ev word call n c) := by
  unfold Cap.resolveOn
  try dsimp only
  repeat' first
    | with_reducible first
        | assumption | intro _ | apply Cap.resolve_capKeeps
    | split | dsimp only | assumption | with_reducible exact CapKeeps.refl _
    | (refine CapKeeps.of_same rfl rfl rfl ?_; with_reducible first | assumption | apply Cap.resolve_capKeeps)
    | intro _ | rfl

theorem Cap.reach_capKeeps {a : Cap} (hm : ℕ) (ev : BitVec 8) (word : Word) (call : Option ℕ) (spent : Bool) (n : Fin 320) (c : Cap) (h : CapKeeps a c) : CapKeeps a (Cap.reach hm ev word call spent n c) := by
  unfold Cap.reach
  try dsimp only
  repeat' first
    | with_reducible first
        | assumption | intro _ | apply Cap.notify_capKeeps | apply Cap.resolveOn_capKeeps
    | split | dsimp only | assumption | with_reducible exact CapKeeps.refl _
    | (refine CapKeeps.of_same rfl rfl rfl ?_; with_reducible first | assumption | apply Cap.notify_capKeeps | apply Cap.resolveOn_capKeeps)
    | intro _ | rfl

theorem Cap.raise_capKeeps {a : Cap} (hm : ℕ) (ev : BitVec 8) (word : Word) (call : Option ℕ) (spent : Bool) (c : Cap) (h : CapKeeps a c) : CapKeeps a (Cap.raise hm ev word call spent c) := by
  unfold Cap.raise
  try dsimp only
  repeat' first
    | with_reducible first
        | assumption | intro _ | apply Cap.reach_capKeeps | apply foldl_keeps | apply foldl_capKeeps
    | split | dsimp only | assumption | with_reducible exact CapKeeps.refl _
    | (refine CapKeeps.of_same rfl rfl rfl ?_; with_reducible first | assumption | apply Cap.reach_capKeeps) | intro _
    | rfl

theorem raiseHw_keeps {a : State} (ev : ℕ) (word : ℕ) (s : State) (h : Keeps a s) : Keeps a (raiseHw ev word s) := by
  unfold raiseHw
  try dsimp only
  repeat' first
    | with_reducible first
        | assumption | intro _ | apply Cap.raise_capKeeps | apply State.updCap_keeps
    | split | dsimp only | assumption | with_reducible exact CapKeeps.refl _
    | (refine CapKeeps.of_same rfl rfl rfl ?_; with_reducible first | assumption | apply Cap.raise_capKeeps)
    | exact Keeps.of_same (by assumption) rfl rfl rfl rfl rfl rfl rfl | intro _ | rfl

theorem raiseFw_keeps {a : State} (ev : ℕ) (word : ℕ) (s : State) (h : Keeps a s) : Keeps a (raiseFw ev word s) := by
  unfold raiseFw
  try dsimp only
  repeat' first
    | with_reducible first
        | assumption | intro _ | apply raiseHw_keeps | apply State.updSys_keeps
    | split | dsimp only | assumption | exact Keeps.of_same (by assumption) rfl rfl rfl rfl rfl rfl rfl | intro _ | rfl

theorem raisePaused_keeps {a : State} (s : State) (h : Keeps a s) : Keeps a (raisePaused s) := by
  unfold raisePaused
  try dsimp only
  repeat' first
    | with_reducible first
        | assumption | intro _ | apply raiseHw_keeps | apply State.updSys_keeps | apply foldl_keeps
    | split | dsimp only | assumption | exact Keeps.of_same (by assumption) rfl rfl rfl rfl rfl rfl rfl | intro _ | rfl

theorem noteSetting_keeps {a : State} (addr : ℕ) (was : State) (s : State) (h : Keeps a s) : Keeps a (noteSetting addr was s) := by
  unfold noteSetting
  try dsimp only
  repeat' first
    | with_reducible first
        | assumption | intro _ | apply raiseFw_keeps
    | split | dsimp only | assumption | exact Keeps.of_same (by assumption) rfl rfl rfl rfl rfl rfl rfl | intro _ | rfl

theorem mapHeldOfOthers_keeps {a : State} (by_ : Option (Fin 320)) (f : Held → Held) (s : State) (h : Keeps a s) : Keeps a (mapHeldOfOthers by_ f s) := by
  unfold mapHeldOfOthers
  try dsimp only
  repeat' first
    | with_reducible first
        | assumption | intro _ | apply State.updCap_keeps
    | split | dsimp only | assumption | with_reducible exact CapKeeps.refl _
    | exact Keeps.of_same (by assumption) rfl rfl rfl rfl rfl rfl rfl | intro _ | rfl

theorem fence_keeps {a : State} (port : ℕ) (arg : Option Word) (by_ : Option (Fin 320)) (s : State) (h : Keeps a s) : Keeps a (fence port arg by_ s) := by
  unfold fence
  try dsimp only
  repeat' first
    | with_reducible first
        | assumption | intro _ | apply mapHeldOfOthers_keeps
    | split | dsimp only | assumption | exact Keeps.of_same (by assumption) rfl rfl rfl rfl rfl rfl rfl | intro _ | rfl

theorem fenceOutputs_keeps {a : State} (mask : BitVec 12) (by_ : Option (Fin 320)) (s : State) (h : Keeps a s) : Keeps a (fenceOutputs mask by_ s) := by
  unfold fenceOutputs
  try dsimp only
  repeat' first
    | with_reducible first
        | assumption | intro _ | apply mapHeldOfOthers_keeps
    | split | dsimp only | assumption | exact Keeps.of_same (by assumption) rfl rfl rfl rfl rfl rfl rfl | intro _ | rfl

theorem setHealth_keeps {a : State} (b : ℕ) (s : State) (h : Keeps a s) : Keeps a (setHealth b s) := by
  unfold setHealth
  try dsimp only
  repeat' first
    | with_reducible first
        | assumption | intro _ | apply raiseFw_keeps | apply ringOut_keeps | apply setF_keeps
    | split | dsimp only | assumption | exact Keeps.of_same (by assumption) rfl rfl rfl rfl rfl rfl rfl | intro _ | rfl

theorem updKnots_keeps {a : State} (ks : List ℕ) (f : NMap Knot → NMap Knot) (s : State) (h : Keeps a s) : Keeps a (updKnots ks f s) := by
  unfold updKnots
  try dsimp only
  repeat' first
    | with_reducible first
        | assumption | intro _ | apply State.updKey_keeps | apply copyOnWrite_keeps
    | split | dsimp only | assumption | exact Keeps.of_same (by assumption) rfl rfl rfl rfl rfl rfl rfl | intro _ | rfl

theorem modSlot_keeps {a : State} (i : ℕ) (f : Slot → Slot) (s : State) (h : Keeps a s) : Keeps a (modSlot i f s) := by
  unfold modSlot
  try dsimp only
  repeat' first
    | with_reducible first
        | assumption | intro _ | apply State.updKey_keeps
    | split | dsimp only | assumption | exact Keeps.of_same (by assumption) rfl rfl rfl rfl rfl rfl rfl | intro _ | rfl

theorem wipeSlot_keeps {a : State} (fails : Bool) (i : ℕ) (s : State) (h : Keeps a s) : Keeps a (wipeSlot fails i s) := by
  unfold wipeSlot
  try dsimp only
  repeat' first
    | with_reducible first
        | assumption | intro _ | apply setHealth_keeps | apply State.updKey_keeps | apply modSlot_keeps
    | split | dsimp only | assumption | exact Keeps.of_same (by assumption) rfl rfl rfl rfl rfl rfl rfl | intro _ | rfl

theorem settleSlot_keeps {a : State} (fails : Option Bool) (i : ℕ) (s : State) (h : Keeps a s) : Keeps a (settleSlot fails i s) := by
  unfold settleSlot
  try dsimp only
  repeat' first
    | with_reducible first
        | assumption | intro _ | apply wipeSlot_keeps | apply freeBelow_keeps
        | refine freeBelow_keeps' (by assumption) ?_
    | split | dsimp only | assumption | exact Keeps.of_same (by assumption) rfl rfl rfl rfl rfl rfl rfl | intro _ | rfl

theorem keysLetGo_keeps {a : State} (n : Fin 320) (s : State) (h : Keeps a s) : Keeps a (keysLetGo n s) := by
  unfold keysLetGo
  try dsimp only
  repeat' first
    | with_reducible first
        | assumption | intro _ | apply State.updKey_keeps | apply settleSlot_keeps | apply foldl_keeps
        | apply risingFrom_filter | apply mapWf_filter
    | split | dsimp only | assumption | exact Keeps.of_same (by assumption) rfl rfl rfl rfl rfl rfl rfl | intro _ | rfl

theorem firmwareLetsGo_keeps {a : State} (i : ℕ) (s : State) (h : Keeps a s) : Keeps a (firmwareLetsGo i s) := by
  unfold firmwareLetsGo
  try dsimp only
  repeat' first
    | with_reducible first
        | assumption | intro _ | apply modSlot_keeps | apply settleSlot_keeps
    | split | dsimp only | assumption | exact Keeps.of_same (by assumption) rfl rfl rfl rfl rfl rfl rfl | intro _ | rfl

theorem pickOne_keeps {a : State} (l : List ℕ) (s : State) (h : Keeps a s) : Keeps a (pickOne l s).2 := by
  unfold pickOne
  try dsimp only
  repeat' first
    | with_reducible first
        | assumption | intro _ | apply freeBelow_keeps | refine freeBelow_keeps' (by assumption) ?_
    | split | dsimp only | assumption | exact Keeps.of_same (by assumption) rfl rfl rfl rfl rfl rfl rfl | intro _ | rfl

theorem pickOne_keeps' {a t : State} {l : List ℕ} {s : State} {v0} (e : pickOne l s = (v0, t)) (h : Keeps a s) : Keeps a t := by
  have q := pickOne_keeps (a := a) l s h
  rw [e] at q
  exact q

theorem place_keeps {a : State} (w : WorkKey) (s : State) (h : Keeps a s) : Keeps a (place w s).2 := by
  unfold place
  try dsimp only
  repeat' first
    | with_reducible first
        | assumption | intro _ | apply pickOne_keeps | refine pickOne_keeps' (by assumption) ?_ | apply modSlot_keeps
    | split | dsimp only | assumption | exact Keeps.of_same (by assumption) rfl rfl rfl rfl rfl rfl rfl | intro _ | rfl

theorem place_keeps' {a t : State} {w : WorkKey} {s : State} {v0} (e : place w s = (v0, t)) (h : Keeps a s) : Keeps a t := by
  have q := place_keeps (a := a) w s h
  rw [e] at q
  exact q

theorem firmwareDerives_keeps {a : State} (k : ℕ) (label : List Byte) (engine : ℕ) (wide : Bool) (s : State) (h : Keeps a s) : Keeps a (firmwareDerives k label engine wide s).2.2 := by
  unfold firmwareDerives
  try dsimp only
  repeat' first
    | with_reducible first
        | assumption | intro _ | apply place_keeps | refine place_keeps' (by assumption) ?_ | apply modSlot_keeps
    | split | dsimp only | assumption | exact Keeps.of_same (by assumption) rfl rfl rfl rfl rfl rfl rfl | intro _ | rfl

theorem firmwareDerives_keeps' {a t : State} {k : ℕ} {label : List Byte} {engine : ℕ} {wide : Bool} {s : State} {v0 v1} (e : firmwareDerives k label engine wide s = (v0, v1, t)) (h : Keeps a s) : Keeps a t := by
  have q := firmwareDerives_keeps (a := a) k label engine wide s h
  rw [e] at q
  exact q

theorem createKnot_keeps {a : State} (parent : ℕ) (label : List Byte) (mask : BitVec 8) (cutClass : ℕ) (secret : Option (BitVec 256)) (s : State) (h : Keeps a s) : Keeps a (createKnot parent label mask cutClass secret s).2.2 := by
  unfold createKnot
  try dsimp only
  repeat' first
    | with_reducible first
        | assumption | intro _ | apply pickOne_keeps | refine pickOne_keeps' (by assumption) ?_
        | apply State.updKey_keeps | apply updKnots_keeps
    | split | dsimp only | assumption | exact Keeps.of_same (by assumption) rfl rfl rfl rfl rfl rfl rfl | intro _ | rfl

theorem createKnot_keeps' {a t : State} {parent : ℕ} {label : List Byte} {mask : BitVec 8} {cutClass : ℕ} {secret : Option (BitVec 256)} {s : State} {v0 v1} (e : createKnot parent label mask cutClass secret s = (v0, v1, t)) (h : Keeps a s) : Keeps a t := by
  have q := createKnot_keeps (a := a) parent label mask cutClass secret s h
  rw [e] at q
  exact q

theorem cutKnot_keeps {a : State} (k : ℕ) (s : State) (h : Keeps a s) : Keeps a (cutKnot k s) := by
  unfold cutKnot
  try dsimp only
  repeat' first
    | with_reducible first
        | assumption | intro _ | apply wipeSlot_keeps | apply State.updKey_keeps | apply freeBelow_keeps
        | refine freeBelow_keeps' (by assumption) ?_ | apply updKnots_keeps | apply foldl_keeps
        | apply risingFrom_filter | apply mapWf_filter
    | split | dsimp only | assumption | exact Keeps.of_same (by assumption) rfl rfl rfl rfl rfl rfl rfl | intro _ | rfl

theorem updCur_keeps {a : State} (f : LedRegs → LedRegs) (s : State) (h : Keeps a s) : Keeps a (updCur f s) := by
  unfold updCur
  try dsimp only
  repeat' first
    | with_reducible first
        | assumption | intro _ | apply State.updLed_keeps
    | split | dsimp only | assumption | exact Keeps.of_same (by assumption) rfl rfl rfl rfl rfl rfl rfl | intro _ | rfl

theorem ringPut_keeps {a : State} (bytes : List Byte) (s : State) (h : Keeps a s) : Keeps a (ringPut bytes s).2 := by
  unfold ringPut
  try dsimp only
  repeat' first
    | with_reducible first
        | assumption | intro _ | apply State.updLed_keeps | apply copyOnWrite_keeps | apply risingFrom_filter
        | apply mapWf_filter
    | split | dsimp only | assumption | exact Keeps.of_same (by assumption) rfl rfl rfl rfl rfl rfl rfl | intro _ | rfl

theorem ringPut_keeps' {a t : State} {bytes : List Byte} {s : State} {v0} (e : ringPut bytes s = (v0, t)) (h : Keeps a s) : Keeps a t := by
  have q := ringPut_keeps (a := a) bytes s h
  rw [e] at q
  exact q

theorem putRecord_keeps {a : State} (d : RecDraft) (s : State) (h : Keeps a s) : Keeps a (putRecord d s).2 := by
  unfold putRecord
  try dsimp only
  repeat' first
    | with_reducible first
        | assumption | intro _ | apply State.updLed_keeps | apply ringPut_keeps
        | refine ringPut_keeps' (by assumption) ?_
    | split | dsimp only | assumption | exact Keeps.of_same (by assumption) rfl rfl rfl rfl rfl rfl rfl | intro _ | rfl

theorem putRecord_keeps' {a t : State} {d : RecDraft} {s : State} {v0} (e : putRecord d s = (v0, t)) (h : Keeps a s) : Keeps a t := by
  have q := putRecord_keeps (a := a) d s h
  rw [e] at q
  exact q

theorem recordsLost_keeps {a : State} (lost : ℕ) (s : State) (h : Keeps a s) : Keeps a (recordsLost lost s) := by
  unfold recordsLost
  try dsimp only
  repeat' first
    | with_reducible first
        | assumption | intro _ | apply putRecord_keeps | refine putRecord_keeps' (by assumption) ?_ | apply setF_keeps
    | split | dsimp only | assumption | exact Keeps.of_same (by assumption) rfl rfl rfl rfl rfl rfl rfl | intro _ | rfl

theorem writeNow_keeps {a : State} (d : RecDraft) (s : State) (h : Keeps a s) : Keeps a (writeNow d s) := by
  unfold writeNow
  try dsimp only
  repeat' first
    | with_reducible first
        | assumption | intro _ | apply putRecord_keeps | refine putRecord_keeps' (by assumption) ?_
        | apply recordsLost_keeps
    | split | dsimp only | assumption | exact Keeps.of_same (by assumption) rfl rfl rfl rfl rfl rfl rfl | intro _ | rfl

theorem sealKey_keeps {a : State} (s : State) (h : Keeps a s) : Keeps a (sealKey s).2 := by
  unfold sealKey
  try dsimp only
  repeat' first
    | with_reducible first
        | assumption | intro _ | apply firmwareDerives_keeps | refine firmwareDerives_keeps' (by assumption) ?_
    | split | dsimp only | assumption | exact Keeps.of_same (by assumption) rfl rfl rfl rfl rfl rfl rfl | intro _ | rfl

theorem sealKey_keeps' {a t : State} {s : State} {v0} (e : sealKey s = (v0, t)) (h : Keeps a s) : Keeps a t := by
  have q := sealKey_keeps (a := a) s h
  rw [e] at q
  exact q

theorem writeSeal_keeps {a : State} (s : State) (h : Keeps a s) : Keeps a (writeSeal s) := by
  unfold writeSeal
  try dsimp only
  repeat' first
    | with_reducible first
        | assumption | intro _ | apply State.updLed_keeps | apply writeNow_keeps | apply sealKey_keeps
        | refine sealKey_keeps' (by assumption) ?_ | apply setF_keeps | apply State.updSys_keeps
    | split | dsimp only | assumption | exact Keeps.of_same (by assumption) rfl rfl rfl rfl rfl rfl rfl | intro _ | rfl

theorem writeDraft_keeps {a : State} (d : RecDraft) (s : State) (h : Keeps a s) : Keeps a (writeDraft d s) := by
  unfold writeDraft
  try dsimp only
  repeat' first
    | with_reducible first
        | assumption | intro _ | apply State.updLed_keeps | apply writeNow_keeps | apply writeSeal_keeps
    | split | dsimp only | assumption | exact Keeps.of_same (by assumption) rfl rfl rfl rfl rfl rfl rfl | intro _ | rfl

theorem writeBacklog_keeps {a : State} (s : State) (h : Keeps a s) : Keeps a (writeBacklog s) := by
  unfold writeBacklog
  try dsimp only
  repeat' first
    | with_reducible first
        | assumption | intro _ | apply State.updLed_keeps | apply writeDraft_keeps | apply foldl_keeps
    | split | dsimp only | assumption | exact Keeps.of_same (by assumption) rfl rfl rfl rfl rfl rfl rfl | intro _ | rfl

theorem writeRec_keeps {a : State} (type : ℕ) (flags : ℕ) (body : List Byte) (s : State) (h : Keeps a s) : Keeps a (writeRec type flags body s) := by
  unfold writeRec
  try dsimp only
  repeat' first
    | with_reducible first
        | assumption | intro _ | apply writeDraft_keeps
    | split | dsimp only | assumption | exact Keeps.of_same (by assumption) rfl rfl rfl rfl rfl rfl rfl | intro _ | rfl

theorem writeEvent_keeps {a : State} (code : ℕ) (arg : ℕ) (a_ : ℕ) (b : ℕ) (c : ℕ) (s : State) (h : Keeps a s) : Keeps a (writeEvent code arg a_ b c s) := by
  unfold writeEvent
  try dsimp only
  repeat' first
    | with_reducible first
        | assumption | intro _ | apply writeRec_keeps
    | split | dsimp only | assumption | exact Keeps.of_same (by assumption) rfl rfl rfl rfl rfl rfl rfl | intro _ | rfl

theorem modAccount_keeps {a : State} (k : ℕ) (f : Account → Account) (s : State) (h : Keeps a s) : Keeps a (modAccount k f s) := by
  unfold modAccount
  try dsimp only
  repeat' first
    | with_reducible first
        | assumption | intro _ | apply updCur_keeps | apply risingFrom_mapSet (Nat.zero_le _) | apply mapWf_mapSet
    | split | dsimp only | assumption | exact Keeps.of_same (by assumption) rfl rfl rfl rfl rfl rfl rfl | intro _ | rfl

theorem updDir_keeps {a : State} (ks : List ℕ) (f : NMap DirEntry → NMap DirEntry) (s : State) (h : Keeps a s) : Keeps a (updDir ks f s) := by
  unfold updDir
  try dsimp only
  repeat' first
    | with_reducible first
        | assumption | intro _ | apply State.updRd_keeps | apply copyOnWrite_keeps
    | split | dsimp only | assumption | exact Keeps.of_same (by assumption) rfl rfl rfl rfl rfl rfl rfl | intro _ | rfl

theorem dropBad_keeps {a : State} (ks : List ℕ) (s : State) (h : Keeps a s) : Keeps a (dropBad ks s) := by
  unfold dropBad
  try dsimp only
  repeat' first
    | with_reducible first
        | assumption | intro _ | apply State.updRd_keeps | apply logEvent_keeps | apply incF_keeps | apply foldl_keeps
        | apply risingFrom_filter | apply mapWf_filter
    | split | dsimp only | assumption | exact Keeps.of_same (by assumption) rfl rfl rfl rfl rfl rfl rfl | intro _ | rfl

theorem lookup_keeps {a : State} (uid : List Byte) (s : State) (h : Keeps a s) : Keeps a (lookup uid s).2 := by
  unfold lookup
  try dsimp only
  repeat' first
    | with_reducible first
        | assumption | intro _ | apply dropBad_keeps
    | split | dsimp only | assumption | exact Keeps.of_same (by assumption) rfl rfl rfl rfl rfl rfl rfl | intro _ | rfl

theorem lookup_keeps' {a t : State} {uid : List Byte} {s : State} {v0} (e : lookup uid s = (v0, t)) (h : Keeps a s) : Keeps a t := by
  have q := lookup_keeps (a := a) uid s h
  rw [e] at q
  exact q

theorem movePath_keeps {a : State} (x0 : ℕ) (x1 : ℕ) (x2 : List ℕ) (x3 : State) (h : Keeps a x3) : Keeps a (movePath x0 x1 x2 x3).2 := by
  induction x0 generalizing x1 x2 x3 with
  | zero =>
    unfold movePath
    try dsimp only
    repeat' first
      | with_reducible first
          | assumption | intro _ | apply pickOne_keeps | refine pickOne_keeps' (by assumption) ?_
          | apply risingFrom_filter | apply mapWf_filter
      | split | dsimp only | assumption | exact Keeps.of_same (by assumption) rfl rfl rfl rfl rfl rfl rfl | intro _
      | rfl
  | succ _ ih =>
    unfold movePath
    try dsimp only
    repeat' first
      | with_reducible first
          | assumption | intro _ | apply pickOne_keeps | refine pickOne_keeps' (by assumption) ?_
          | apply risingFrom_filter | apply mapWf_filter | apply ih
      | split | dsimp only | assumption | exact Keeps.of_same (by assumption) rfl rfl rfl rfl rfl rfl rfl | intro _
      | rfl

theorem movePath_keeps' {a t : State} {x0 : ℕ} {x1 : ℕ} {x2 : List ℕ} {x3 : State} {v0} (e : movePath x0 x1 x2 x3 = (v0, t)) (h : Keeps a x3) : Keeps a t := by
  have q := movePath_keeps (a := a) x0 x1 x2 x3 h
  rw [e] at q
  exact q

theorem runMoves_keeps {a : State} (path : List Nat) (s : State) (h : Keeps a s) : Keeps a (runMoves path s) := by
  fun_induction runMoves path s with
  | case1 _ _ _ _ _ _ _ ih => exact updDir_keeps _ _ _ (ih h)
  | case2 _ _ _ _ _ _ ih => exact ih h
  | case3 => exact h

theorem placeFor_keeps {a : State} (uid : List Byte) (s : State) (h : Keeps a s) : Keeps a (placeFor uid s).2 := by
  unfold placeFor
  try dsimp only
  repeat' first
    | with_reducible first
        | assumption | intro _ | apply movePath_keeps | refine movePath_keeps' (by assumption) ?_ | apply pickOne_keeps
        | refine pickOne_keeps' (by assumption) ?_ | apply runMoves_keeps
    | split | dsimp only | assumption | exact Keeps.of_same (by assumption) rfl rfl rfl rfl rfl rfl rfl | intro _ | rfl

theorem placeFor_keeps' {a t : State} {uid : List Byte} {s : State} {v0} (e : placeFor uid s = (v0, t)) (h : Keeps a s) : Keeps a t := by
  have q := placeFor_keeps (a := a) uid s h
  rw [e] at q
  exact q

theorem dirPut_keeps {a : State} (e_ : DirEntry) (s : State) (h : Keeps a s) : Keeps a (dirPut e_ s).2.2 := by
  unfold dirPut
  try dsimp only
  repeat' first
    | with_reducible first
        | assumption | intro _ | apply lookup_keeps | refine lookup_keeps' (by assumption) ?_ | apply setF_keeps
        | apply updDir_keeps | apply placeFor_keeps | refine placeFor_keeps' (by assumption) ?_
    | split | dsimp only | assumption | exact Keeps.of_same (by assumption) rfl rfl rfl rfl rfl rfl rfl | intro _ | rfl

theorem dirPut_keeps' {a t : State} {e_ : DirEntry} {s : State} {v0 v1} (e : dirPut e_ s = (v0, v1, t)) (h : Keeps a s) : Keeps a t := by
  have q := dirPut_keeps (a := a) e_ s h
  rw [e] at q
  exact q

theorem dirDelete_keeps {a : State} (uid : List Byte) (s : State) (h : Keeps a s) : Keeps a (dirDelete uid s).2.2 := by
  unfold dirDelete
  try dsimp only
  repeat' first
    | with_reducible first
        | assumption | intro _ | apply lookup_keeps | refine lookup_keeps' (by assumption) ?_ | apply updDir_keeps
    | split | dsimp only | assumption | exact Keeps.of_same (by assumption) rfl rfl rfl rfl rfl rfl rfl | intro _ | rfl

theorem dirDelete_keeps' {a t : State} {uid : List Byte} {s : State} {v0 v1} (e : dirDelete uid s = (v0, v1, t)) (h : Keeps a s) : Keeps a t := by
  have q := dirDelete_keeps (a := a) uid s h
  rw [e] at q
  exact q

theorem dirOp_keeps {a : State} (o : DirOp) (s : State) (h : Keeps a s) : Keeps a (dirOp o s).2 := by
  unfold dirOp
  try dsimp only
  repeat' first
    | with_reducible first
        | assumption | intro _ | apply dirPut_keeps | refine dirPut_keeps' (by assumption) ?_ | apply dirDelete_keeps
        | refine dirDelete_keeps' (by assumption) ?_
    | split | dsimp only | assumption | exact Keeps.of_same (by assumption) rfl rfl rfl rfl rfl rfl rfl | intro _ | rfl

theorem dirOp_keeps' {a t : State} {o : DirOp} {s : State} {v0} (e : dirOp o s = (v0, t)) (h : Keeps a s) : Keeps a t := by
  have q := dirOp_keeps (a := a) o s h
  rw [e] at q
  exact q

theorem deltaResult_keeps {a : State} (code : ℕ) (skipped : ℕ) (s : State) (h : Keeps a s) : Keeps a (deltaResult code skipped s) := by
  unfold deltaResult
  try dsimp only
  repeat' first
    | with_reducible first
        | assumption | intro _ | apply setB_keeps | apply setF_keeps
    | split | dsimp only | assumption | exact Keeps.of_same (by assumption) rfl rfl rfl rfl rfl rfl rfl | intro _ | rfl

theorem dirSeqTo_keeps {a : State} (v : ℕ) (s : State) (h : Keeps a s) : Keeps a (dirSeqTo v s) := by
  unfold dirSeqTo
  try dsimp only
  repeat' first
    | with_reducible first
        | assumption | intro _ | apply raiseFw_keeps | apply State.updRd_keeps
    | split | dsimp only | assumption | exact Keeps.of_same (by assumption) rfl rfl rfl rfl rfl rfl rfl | intro _ | rfl

theorem runOps_keeps {a : State} (ops : List DirOp) (s : State) (h : Keeps a s) : Keeps a (runOps ops s).2.2 := by
  unfold runOps
  have q : ∀ (l : List DirOp) (r : Nat × Nat × State), Keeps a r.2.2 → Keeps a (l.foldl (fun (r : Nat × Nat × State) o =>
      let q := dirOp o r.2.2
      if q.1 = rcOk ∨ q.1 = rcMiss then (r.1, r.2.1, q.2) else (r.1 + 1, q.1, q.2)) r).2.2 := by
    intro l
    induction l with
    | nil => exact fun _ h => h
    | cons o l ih =>
      intro r hr
      refine ih _ ?_
      dsimp only
      split <;> exact dirOp_keeps _ _ hr
  exact q ops (0, rcOk, s) h

theorem runOps_keeps' {a t : State} {ops : List DirOp} {s : State} {v0 v1} (e : runOps ops s = (v0, v1, t)) (h : Keeps a s) :
    Keeps a t := by
  have q := runOps_keeps (a := a) ops s h
  rw [e] at q
  exact q

theorem applyDelta_keeps {a : State} (bs : List Byte) (s : State) (h : Keeps a s) : Keeps a (applyDelta bs s) := by
  unfold applyDelta
  try dsimp only
  repeat' first
    | with_reducible first
        | assumption | intro _ | apply State.updRd_keeps | apply runOps_keeps | refine runOps_keeps' (by assumption) ?_
        | apply setF_keeps | apply deltaResult_keeps | apply updDir_keeps | apply dirSeqTo_keeps
        | apply risingFrom_filter | apply mapWf_filter
    | split | dsimp only | assumption | exact Keeps.of_same (by assumption) rfl rfl rfl rfl rfl rfl rfl | intro _ | rfl

theorem scanned_keeps {a : State} (c : Scan) (s : State) (h : Keeps a s) : Keeps a (scanned c s) := by
  unfold scanned
  try dsimp only
  repeat' first
    | with_reducible first
        | assumption | intro _ | apply State.updLed_keeps | apply boundary_keeps | apply updCur_keeps
    | split | dsimp only | assumption | exact Keeps.of_same (by assumption) rfl rfl rfl rfl rfl rfl rfl | intro _ | rfl

theorem modIntv_keeps {a : State} (k : ℕ) (f : Interval → Interval) (s : State) (h : Keeps a s) : Keeps a (modIntv k f s) := by
  unfold modIntv
  try dsimp only
  repeat' first
    | with_reducible first
        | assumption | intro _ | apply updCur_keeps
    | split | dsimp only | assumption | exact Keeps.of_same (by assumption) rfl rfl rfl rfl rfl rfl rfl | intro _ | rfl

theorem closeInterval_keeps {a : State} (i : Interval) (endTime : ℕ) (flags : BitVec 8) (s : State) (h : Keeps a s) : Keeps a (closeInterval i endTime flags s) := by
  unfold closeInterval
  try dsimp only
  repeat' first
    | with_reducible first
        | assumption | intro _ | apply raiseFw_keeps | apply writeEvent_keeps | apply writeRec_keeps
        | apply updCur_keeps
    | split | dsimp only | assumption | exact Keeps.of_same (by assumption) rfl rfl rfl rfl rfl rfl rfl | intro _ | rfl

theorem closeBilling_keeps {a : State} (t_ : ℕ) (g : BillRegs) (s : State) (h : Keeps a s) : Keeps a (closeBilling t_ g s) := by
  unfold closeBilling
  try dsimp only
  repeat' first
    | with_reducible first
        | assumption | intro _ | apply writeSeal_keeps | apply writeRec_keeps | apply updCur_keeps
    | split | dsimp only | assumption | exact Keeps.of_same (by assumption) rfl rfl rfl rfl rfl rfl rfl | intro _ | rfl

theorem closeBoundary_keeps {a : State} (b : Boundary) (s : State) (h : Keeps a s) : Keeps a (closeBoundary b s) := by
  unfold closeBoundary
  try dsimp only
  repeat' first
    | with_reducible first
        | assumption | intro _ | apply raiseFw_keeps | apply writeEvent_keeps | apply closeBilling_keeps
        | apply closeInterval_keeps | apply writeRec_keeps | apply setF_keeps | apply updCur_keeps
    | split | dsimp only | assumption | exact Keeps.of_same (by assumption) rfl rfl rfl rfl rfl rfl rfl | intro _ | rfl

theorem closeEnded_keeps {a : State} (x0 : ℕ) (x1 : State) (h : Keeps a x1) : Keeps a (closeEnded x0 x1) := by
  induction x0 generalizing x1 with
  | zero =>
    unfold closeEnded
    try dsimp only
    repeat' first
      | with_reducible first
          | assumption | intro _ | apply State.updLed_keeps | apply closeBoundary_keeps | apply updCur_keeps
      | split | dsimp only | assumption | exact Keeps.of_same (by assumption) rfl rfl rfl rfl rfl rfl rfl | intro _
      | rfl
  | succ _ ih =>
    unfold closeEnded
    try dsimp only
    repeat' first
      | with_reducible first
          | assumption | intro _ | apply State.updLed_keeps | apply closeBoundary_keeps | apply updCur_keeps | apply ih
      | split | dsimp only | assumption | exact Keeps.of_same (by assumption) rfl rfl rfl rfl rfl rfl rfl | intro _
      | rfl

theorem boundaryClose_keeps {a : State} (s : State) (h : Keeps a s) : Keeps a (boundaryClose s) := by
  unfold boundaryClose
  try dsimp only
  repeat' first
    | with_reducible first
        | assumption | intro _ | apply closeEnded_keeps
    | split | dsimp only | assumption | exact Keeps.of_same (by assumption) rfl rfl rfl rfl rfl rfl rfl | intro _ | rfl

theorem ledgerJump_keeps {a : State} (l0 l1 oldW newW : Nat) (s : State) (h : Keeps a s) :
    Keeps a (ledgerJump l0 l1 oldW newW s) := by
  unfold ledgerJump
  have h1 : Keeps a { s with sys := { s.sys with ltime := l1 } } := h.of_same rfl rfl rfl rfl rfl rfl rfl
  refine updCur_keeps _ _ ?_
  split
  · exact modIntv_keeps _ _ _ (State.updMet_keeps (writeEvent_keeps _ _ _ _ _ _ (scanned_keeps _ _ h1)) _)
  · exact State.updMet_keeps (writeEvent_keeps _ _ _ _ _ _ (scanned_keeps _ _ h1)) _

theorem ledgerTick_keeps {a : State} (s : State) (h : Keeps a s) : Keeps a (ledgerTick s) := by
  unfold ledgerTick
  have h1 : Keeps a { s with sys := { s.sys with ltime := s.sys.ltime + 1 } } := h.of_same rfl rfl rfl rfl rfl rfl rfl
  dsimp only
  split
  · exact updCur_keeps _ _ (scanned_keeps _ _ h1)
  · exact scanned_keeps _ _ h1

theorem ledgerSetBack_keeps {a : State} (oldW : ℕ) (newW : ℕ) (s : State) (h : Keeps a s) : Keeps a (ledgerSetBack oldW newW s) := by
  unfold ledgerSetBack
  try dsimp only
  repeat' first
    | with_reducible first
        | assumption | intro _ | apply writeEvent_keeps | apply modIntv_keeps | apply updCur_keeps
    | split | dsimp only | assumption | exact Keeps.of_same (by assumption) rfl rfl rfl rfl rfl rfl rfl | intro _ | rfl

theorem ledgerSecond_keeps {a : State} (set : Option (Nat × Nat)) (s : State) (h : Keeps a s) :
    Keeps a (ledgerSecond set s) := by
  unfold ledgerSecond
  extract_lets s1 s2 s3 l0 l1 s4 s5 s6
  have h1 : Keeps a s1 := modIntv_keeps _ _ _ h
  have h2 : Keeps a s2 := by
    unfold s2; split
    · exact updCur_keeps _ _ h1
    · exact h1
  have h3 : Keeps a s3 := by
    unfold s3; split
    · split
      · exact ledgerSetBack_keeps _ _ _ h2
      · exact h2
    · exact h2
  have h4 : Keeps a s4 := by
    unfold s4; split
    · split
      · exact writeEvent_keeps _ _ _ _ _ _ h3
      · exact h3
    · exact h3
  have h5 : Keeps a s5 := by
    unfold s5; split
    · exact ledgerJump_keeps _ _ _ _ _ h3
    · split
      · exact ledgerTick_keeps _ h4
      · exact h4
  refine writeBacklog_keeps _ ?_
  unfold s6; split
  · exact setF_keeps _ _ _ h5
  · exact h5

theorem rtcSecond_keeps {a : State} (s : State) (h : Keeps a s) : Keeps a (rtcSecond s) := by
  unfold rtcSecond
  try dsimp only
  repeat' first
    | with_reducible first
        | assumption | intro _ | apply State.updLed_keeps | apply raiseHw_keeps | apply ledgerSecond_keeps
    | split | dsimp only | assumption | exact Keeps.of_same (by assumption) rfl rfl rfl rfl rfl rfl rfl | intro _ | rfl

theorem ledgerAcc_keeps {a : State} (idx : ℕ) (v : BitVec 64) (s : State) (h : Keeps a s) : Keeps a (ledgerAcc idx v s) := by
  unfold ledgerAcc
  try dsimp only
  repeat' first
    | with_reducible first
        | assumption | intro _ | apply State.updLed_keeps
    | split | dsimp only | assumption | exact Keeps.of_same (by assumption) rfl rfl rfl rfl rfl rfl rfl | intro _ | rfl

theorem reconcile_keeps {a : State} (s : State) (h : Keeps a s) : Keeps a (reconcile s) := by
  unfold reconcile
  try dsimp only
  repeat' first
    | with_reducible first
        | assumption | intro _ | apply State.updLed_keeps | apply modIntv_keeps | apply setF_keeps
    | split | dsimp only | assumption | exact Keeps.of_same (by assumption) rfl rfl rfl rfl rfl rfl rfl | intro _ | rfl

theorem costBlock_keeps {a : State} (imp : ℕ) (exp : ℕ) (est : Bool) (s : State) (h : Keeps a s) : Keeps a (costBlock imp exp est s) := by
  unfold costBlock
  try dsimp only
  repeat' first
    | with_reducible first
        | assumption | intro _ | apply modAccount_keeps | apply updCur_keeps
    | split | dsimp only | assumption | exact Keeps.of_same (by assumption) rfl rfl rfl rfl rfl rfl rfl | intro _ | rfl

theorem blockStarts_keeps {a : State} (s : State) (h : Keeps a s) : Keeps a (blockStarts s) := by
  unfold blockStarts
  try dsimp only
  repeat' first
    | with_reducible first
        | assumption | intro _ | apply State.updLed_keeps | apply boundaries_keeps | apply updCur_keeps
    | split | dsimp only | assumption | exact Keeps.of_same (by assumption) rfl rfl rfl rfl rfl rfl rfl | intro _ | rfl

theorem ledgerBlock_keeps {a : State} (imp : ℕ) (exp : ℕ) (rea : ℕ) (est : Bool) (excess : Bool) (s : State) (h : Keeps a s) : Keeps a (ledgerBlock imp exp rea est excess s) := by
  unfold ledgerBlock
  try dsimp only
  repeat' first
    | with_reducible first
        | assumption | intro _ | apply State.updLed_keeps | apply blockStarts_keeps | apply modIntv_keeps
        | apply costBlock_keeps | apply reconcile_keeps | apply updCur_keeps
    | split | dsimp only | assumption | exact Keeps.of_same (by assumption) rfl rfl rfl rfl rfl rfl rfl | intro _ | rfl

theorem tamperCopy_keeps {a : State} (s : State) (h : Keeps a s) : Keeps a (tamperCopy s) := by
  unfold tamperCopy
  try dsimp only
  repeat' first
    | with_reducible first
        | assumption | intro _ | apply State.updLed_keeps | apply writeEvent_keeps | apply setF_keeps
        | apply foldl_keeps
    | split | dsimp only | assumption | exact Keeps.of_same (by assumption) rfl rfl rfl rfl rfl rfl rfl | intro _ | rfl

theorem endSession_keeps {a : State} (reason : ℕ) (flags : BitVec 8) (s : State) (h : Keeps a s) : Keeps a (endSession reason flags s).2 := by
  unfold endSession
  try dsimp only
  repeat' first
    | with_reducible first
        | assumption | intro _ | apply State.updLed_keeps | apply writeSeal_keeps | apply writeRec_keeps
        | apply setF_keeps | apply updCur_keeps | apply writeBacklog_keeps
    | split | dsimp only | assumption | exact Keeps.of_same (by assumption) rfl rfl rfl rfl rfl rfl rfl | intro _ | rfl

theorem endSession_keeps' {a t : State} {reason : ℕ} {flags : BitVec 8} {s : State} {v0} (e : endSession reason flags s = (v0, t)) (h : Keeps a s) : Keeps a t := by
  have q := endSession_keeps (a := a) reason flags s h
  rw [e] at q
  exact q

theorem restartOutage_keeps {a : State} (l0 : ℕ) (l1 : ℕ) (s : State) (h : Keeps a s) : Keeps a (restartOutage l0 l1 s) := by
  unfold restartOutage
  try dsimp only
  repeat' first
    | with_reducible first
        | assumption | intro _ | apply raiseFw_keeps | apply writeEvent_keeps | apply closeBilling_keeps
        | apply closeInterval_keeps | apply scanned_keeps | apply writeRec_keeps | apply updCur_keeps
        | apply foldl_keeps
    | split | dsimp only | assumption | exact Keeps.of_same (by assumption) rfl rfl rfl rfl rfl rfl rfl | intro _ | rfl

theorem restartSession_keeps {a : State} (r : LedRegs) (s : State) (h : Keeps a s) : Keeps a (restartSession r s) := by
  unfold restartSession
  try dsimp only
  repeat' first
    | with_reducible first
        | assumption | intro _ | apply endSession_keeps | refine endSession_keeps' (by assumption) ?_
        | apply updCur_keeps
    | split | dsimp only | assumption | exact Keeps.of_same (by assumption) rfl rfl rfl rfl rfl rfl rfl | intro _ | rfl

theorem unsureAfter_keeps {a : State} (lost : Bool) (s : State) (h : Keeps a s) : Keeps a (unsureAfter lost s) := by
  unfold unsureAfter
  try dsimp only
  repeat' first
    | with_reducible first
        | assumption | intro _ | apply writeEvent_keeps | apply updCur_keeps
    | split | dsimp only | assumption | exact Keeps.of_same (by assumption) rfl rfl rfl rfl rfl rfl rfl | intro _ | rfl

theorem restartFrom_keeps {a : State} (r : LedRegs) (gap : Bool) (s : State) (h : Keeps a s) : Keeps a (restartFrom r gap s) := by
  unfold restartFrom
  try dsimp only
  repeat' first
    | with_reducible first
        | assumption | intro _ | apply restartOutage_keeps | apply writeEvent_keeps | apply writeSeal_keeps
        | apply closeBoundary_keeps | apply unsureAfter_keeps | apply State.updSys_keeps | apply restartSession_keeps
        | apply updCur_keeps | apply foldl_keeps
    | split | dsimp only | assumption | exact Keeps.of_same (by assumption) rfl rfl rfl rfl rfl rfl rfl | intro _ | rfl

theorem renewGasp_keeps {a : State} (s : State) (h : Keeps a s) : Keeps a (renewGasp s) := by
  unfold renewGasp
  try dsimp only
  repeat' first
    | with_reducible first
        | assumption | intro _ | apply exchangeGasp_keeps | apply State.updStore_keeps
    | split | dsimp only | assumption | exact Keeps.of_same (by assumption) rfl rfl rfl rfl rfl rfl rfl | intro _ | rfl

theorem ledgerRestore_keeps {a : State} (s : State) (h : Keeps a s) : Keeps a (ledgerRestore s) := by
  unfold ledgerRestore
  try dsimp only
  repeat' first
    | with_reducible first
        | assumption | intro _ | apply State.updLed_keeps | apply blockStarts_keeps | apply renewGasp_keeps
        | apply setF_keeps | apply unsureAfter_keeps | apply State.updSys_keeps | apply restartFrom_keeps
        | apply tamperCopy_keeps | apply updCur_keeps
    | split | dsimp only | assumption | exact Keeps.of_same (by assumption) rfl rfl rfl rfl rfl rfl rfl | intro _ | rfl

theorem ledgerFreeze_keeps {a : State} (s : State) (h : Keeps a s) : Keeps a (ledgerFreeze s) := by
  unfold ledgerFreeze
  try dsimp only
  repeat' first
    | with_reducible first
        | assumption | intro _ | apply State.updLed_keeps | apply State.updStore_keeps
    | split | dsimp only | assumption | exact Keeps.of_same (by assumption) rfl rfl rfl rfl rfl rfl rfl | intro _ | rfl

theorem driveSteady_keeps {a : State} (l : Line) (s : State) (h : Keeps a s) : Keeps a (driveSteady l s) := by
  unfold driveSteady
  try dsimp only
  repeat' first
    | with_reducible first
        | assumption | intro _ | apply State.updPilot_keeps | apply setB_keeps | apply setF_keeps
    | split | dsimp only | assumption | exact Keeps.of_same (by assumption) rfl rfl rfl rfl rfl rfl rfl | intro _ | rfl

theorem driveLine_keeps {a : State} (s : State) (h : Keeps a s) : Keeps a (driveLine s) := by
  unfold driveLine
  try dsimp only
  repeat' first
    | with_reducible first
        | assumption | intro _ | apply driveSteady_keeps
    | split | dsimp only | assumption | exact Keeps.of_same (by assumption) rfl rfl rfl rfl rfl rfl rfl | intro _ | rfl

theorem risingEdge_keeps {a : State} (s : State) (h : Keeps a s) : Keeps a (risingEdge s) := by
  unfold risingEdge
  try dsimp only
  repeat' first
    | with_reducible first
        | assumption | intro _ | apply State.updPilot_keeps | apply setB_keeps | apply setF_keeps
    | split | dsimp only | assumption | exact Keeps.of_same (by assumption) rfl rfl rfl rfl rfl rfl rfl | intro _ | rfl

theorem stopPwm_keeps {a : State} (s : State) (h : Keeps a s) : Keeps a (stopPwm s) := by
  unfold stopPwm
  try dsimp only
  repeat' first
    | with_reducible first
        | assumption | intro _ | apply State.updPilot_keeps | apply driveLine_keeps
    | split | dsimp only | assumption | exact Keeps.of_same (by assumption) rfl rfl rfl rfl rfl rfl rfl | intro _ | rfl

theorem supervisorStop_keeps {a : State} (s : State) (h : Keeps a s) : Keeps a (supervisorStop s) := by
  unfold supervisorStop
  try dsimp only
  repeat' first
    | with_reducible first
        | assumption | intro _ | apply fence_keeps | apply stopPwm_keeps
    | split | dsimp only | assumption | exact Keeps.of_same (by assumption) rfl rfl rfl rfl rfl rfl rfl | intro _ | rfl

theorem violation_keeps {a : State} (k : ℕ) (value : ℕ) (s : State) (h : Keeps a s) : Keeps a (violation k value s) := by
  unfold violation
  try dsimp only
  repeat' first
    | with_reducible first
        | assumption | intro _ | apply logViolation_keeps | apply incF_keeps
    | split | dsimp only | assumption | exact Keeps.of_same (by assumption) rfl rfl rfl rfl rfl rfl rfl | intro _ | rfl

theorem lastingBegins_keeps {a : State} (k : ℕ) (value : ℕ) (s : State) (h : Keeps a s) : Keeps a (lastingBegins k value s) := by
  unfold lastingBegins
  try dsimp only
  repeat' first
    | with_reducible first
        | assumption | intro _ | apply violation_keeps | apply State.updPilot_keeps
    | split | dsimp only | assumption | exact Keeps.of_same (by assumption) rfl rfl rfl rfl rfl rfl rfl | intro _ | rfl

theorem lastingEnds_keeps {a : State} (k : ℕ) (s : State) (h : Keeps a s) : Keeps a (lastingEnds k s) := by
  unfold lastingEnds
  try dsimp only
  repeat' first
    | with_reducible first
        | assumption | intro _ | apply State.updPilot_keeps | apply risingFrom_filter | apply mapWf_filter
    | split | dsimp only | assumption | exact Keeps.of_same (by assumption) rfl rfl rfl rfl rfl rfl rfl | intro _ | rfl

theorem clearArm_keeps {a : State} (s : State) (h : Keeps a s) : Keeps a (clearArm s) := by
  unfold clearArm
  try dsimp only
  repeat' first
    | with_reducible first
        | assumption | intro _ | apply fence_keeps | apply setF_keeps
    | split | dsimp only | assumption | exact Keeps.of_same (by assumption) rfl rfl rfl rfl rfl rfl rfl | intro _ | rfl

theorem modOut_keeps {a : State} (n : Fin 12) (f : OutCh → OutCh) (s : State) (h : Keeps a s) : Keeps a (modOut n f s) := by
  unfold modOut
  try dsimp only
  repeat' first
    | with_reducible first
        | assumption | intro _ | apply State.updSw_keeps
    | split | dsimp only | assumption | exact Keeps.of_same (by assumption) rfl rfl rfl rfl rfl rfl rfl | intro _ | rfl

theorem switchOut_keeps {a : State} (n : Fin 12) (f : OutCh → OutCh) (s : State) (h : Keeps a s) : Keeps a (switchOut n f s) := by
  unfold switchOut
  try dsimp only
  repeat' first
    | with_reducible first
        | assumption | intro _ | apply modOut_keeps
    | split | dsimp only | assumption | exact Keeps.of_same (by assumption) rfl rfl rfl rfl rfl rfl rfl | intro _ | rfl

theorem clampEnergy_keeps {a : State} (n : Fin 12) (s : State) (h : Keeps a s) : Keeps a (clampEnergy n s) := by
  unfold clampEnergy
  try dsimp only
  repeat' first
    | with_reducible first
        | assumption | intro _ | apply State.updSw_keeps
    | split | dsimp only | assumption | exact Keeps.of_same (by assumption) rfl rfl rfl rfl rfl rfl rfl | intro _ | rfl

theorem outOff_keeps {a : State} (n : Fin 12) (s : State) (h : Keeps a s) : Keeps a (outOff n s) := by
  unfold outOff
  try dsimp only
  repeat' first
    | with_reducible first
        | assumption | intro _ | apply switchOut_keeps | apply clampEnergy_keeps | apply boundary_keeps
    | split | dsimp only | assumption | exact Keeps.of_same (by assumption) rfl rfl rfl rfl rfl rfl rfl | intro _ | rfl

theorem outOn_keeps {a : State} (n : Fin 12) (s : State) (h : Keeps a s) : Keeps a (outOn n s) := by
  unfold outOn
  try dsimp only
  repeat' first
    | with_reducible first
        | assumption | intro _ | apply switchOut_keeps | apply setHealth_keeps | apply State.updSw_keeps
        | apply boundaries_keeps | apply raiseHw_keeps
    | split | dsimp only | assumption | exact Keeps.of_same (by assumption) rfl rfl rfl rfl rfl rfl rfl | intro _ | rfl

theorem setCoil_keeps {a : State} (second : Bool) (on : Bool) (s : State) (h : Keeps a s) : Keeps a (setCoil second on s) := by
  unfold setCoil
  try dsimp only
  repeat' first
    | with_reducible first
        | assumption | intro _ | apply State.updSw_keeps | apply outOn_keeps | apply outOff_keeps
    | split | dsimp only | assumption | exact Keeps.of_same (by assumption) rfl rfl rfl rfl rfl rfl rfl | intro _ | rfl

theorem wornCheck_keeps {a : State} (s : State) (h : Keeps a s) : Keeps a (wornCheck s) := by
  unfold wornCheck
  try dsimp only
  repeat' first
    | with_reducible first
        | assumption | intro _ | apply setHealth_keeps
    | split | dsimp only | assumption | exact Keeps.of_same (by assumption) rfl rfl rfl rfl rfl rfl rfl | intro _ | rfl

theorem countBreak_keeps {a : State} (second : Bool) (i : ℕ) (s : State) (h : Keeps a s) : Keeps a (countBreak second i s) := by
  unfold countBreak
  try dsimp only
  repeat' first
    | with_reducible first
        | assumption | intro _ | apply State.updSw_keeps | apply wornCheck_keeps | apply setF_keeps
    | split | dsimp only | assumption | exact Keeps.of_same (by assumption) rfl rfl rfl rfl rfl rfl rfl | intro _ | rfl

theorem openingBoundary_keeps {a : State} (s : State) (h : Keeps a s) : Keeps a (openingBoundary s) := by
  unfold openingBoundary
  try dsimp only
  repeat' first
    | with_reducible first
        | assumption | intro _ | apply boundaries_keeps
    | split | dsimp only | assumption | exact Keeps.of_same (by assumption) rfl rfl rfl rfl rfl rfl rfl | intro _ | rfl

theorem openNow_keeps {a : State} (first : Bool) (second : Bool) (s : State) (h : Keeps a s) : Keeps a (openNow first second s) := by
  unfold openNow
  try dsimp only
  repeat' first
    | with_reducible first
        | assumption | intro _ | apply clearArm_keeps | apply State.updSw_keeps | apply setCoil_keeps
        | apply countBreak_keeps | apply openingBoundary_keeps
    | split | dsimp only | assumption | exact Keeps.of_same (by assumption) rfl rfl rfl rfl rfl rfl rfl | intro _ | rfl

theorem beginDisc_keeps {a : State} (k : DiscKind) (s : State) (h : Keeps a s) : Keeps a (beginDisc k s) := by
  unfold beginDisc
  try dsimp only
  repeat' first
    | with_reducible first
        | assumption | intro _ | apply clearArm_keeps | apply State.updSw_keeps | apply boundaries_keeps
        | apply openingBoundary_keeps | apply boundary_keeps | apply stopPwm_keeps
    | split | dsimp only | assumption | exact Keeps.of_same (by assumption) rfl rfl rfl rfl rfl rfl rfl | intro _ | rfl

theorem startDisc_keeps {a : State} (k : DiscKind) (s : State) (h : Keeps a s) : Keeps a (startDisc k s) := by
  unfold startDisc
  try dsimp only
  repeat' first
    | with_reducible first
        | assumption | intro _ | apply clearArm_keeps | apply State.updSw_keeps | apply beginDisc_keeps
        | apply openNow_keeps | apply stopPwm_keeps
    | split | dsimp only | assumption | exact Keeps.of_same (by assumption) rfl rfl rfl rfl rfl rfl rfl | intro _ | rfl

theorem hlcMove_keeps {a : State} (st : ℕ) (s : State) (h : Keeps a s) : Keeps a (hlcMove st s) := by
  unfold hlcMove
  try dsimp only
  repeat' first
    | with_reducible first
        | assumption | intro _ | apply raiseFw_keeps | apply State.updHlc_keeps
    | split | dsimp only | assumption | exact Keeps.of_same (by assumption) rfl rfl rfl rfl rfl rfl rfl | intro _ | rfl

theorem dropTls_keeps {a : State} (s : State) (h : Keeps a s) : Keeps a (dropTls s) := by
  unfold dropTls
  try dsimp only
  repeat' first
    | with_reducible first
        | assumption | intro _ | apply State.updHlc_keeps | apply firmwareLetsGo_keeps
    | split | dsimp only | assumption | exact Keeps.of_same (by assumption) rfl rfl rfl rfl rfl rfl rfl | intro _ | rfl

theorem hlcEnd_keeps {a : State} (reason : ℕ) (s : State) (h : Keeps a s) : Keeps a (hlcEnd reason s) := by
  unfold hlcEnd
  try dsimp only
  repeat' first
    | with_reducible first
        | assumption | intro _ | apply raiseFw_keeps | apply startDisc_keeps | apply dropTls_keeps
        | apply State.updHlc_keeps | apply hlcMove_keeps | apply setF_keeps
    | split | dsimp only | assumption | exact Keeps.of_same (by assumption) rfl rfl rfl rfl rfl rfl rfl | intro _ | rfl

theorem tripCore_keeps {a : State} (bit : ℕ) (value : ℕ) (s : State) (h : Keeps a s) : Keeps a (tripCore bit value s) := by
  unfold tripCore
  try dsimp only
  repeat' first
    | with_reducible first
        | assumption | intro _ | apply logEvent_keeps | apply clearArm_keeps | apply logViolation_keeps
        | apply State.updSup_keeps | apply supervisorStop_keeps | apply raiseHw_keeps | apply ringOut_keeps
        | apply openNow_keeps | apply setF_keeps | apply driveLine_keeps | apply incF_keeps
    | split | dsimp only | assumption | exact Keeps.of_same (by assumption) rfl rfl rfl rfl rfl rfl rfl | intro _ | rfl

theorem report_keeps {a : State} (st : ℕ) (s : State) (h : Keeps a s) : Keeps a (report st s) := by
  unfold report
  try dsimp only
  repeat' first
    | with_reducible first
        | assumption | intro _ | apply clearArm_keeps | apply State.updHlc_keeps | apply raiseHw_keeps
        | apply hlcEnd_keeps | apply setF_keeps
    | split | dsimp only | assumption | exact Keeps.of_same (by assumption) rfl rfl rfl rfl rfl rfl rfl | intro _ | rfl

theorem reportActs_keeps {a : State} (was : ℕ) (st : ℕ) (s : State) (h : Keeps a s) : Keeps a (reportActs was st s) := by
  unfold reportActs
  try dsimp only
  repeat' first
    | with_reducible first
        | assumption | intro _ | apply State.updSup_keeps | apply startDisc_keeps | apply tripCore_keeps
    | split | dsimp only | assumption | exact Keeps.of_same (by assumption) rfl rfl rfl rfl rfl rfl rfl | intro _ | rfl

theorem settleLine_keeps {a : State} (s : State) (h : Keeps a s) : Keeps a (settleLine s) := by
  unfold settleLine
  try dsimp only
  repeat' first
    | with_reducible first
        | assumption | intro _ | apply reportActs_keeps | apply report_keeps | apply driveLine_keeps
    | split | dsimp only | assumption | exact Keeps.of_same (by assumption) rfl rfl rfl rfl rfl rfl rfl | intro _ | rfl

theorem showAnom_keeps {a : State} (k : ℕ) (s : State) (h : Keeps a s) : Keeps a (showAnom k s) := by
  unfold showAnom
  try dsimp only
  repeat' first
    | with_reducible first
        | assumption | intro _ | apply setF_keeps
    | split | dsimp only | assumption | exact Keeps.of_same (by assumption) rfl rfl rfl rfl rfl rfl rfl | intro _ | rfl

theorem settleLasting_keeps {a : State} (k : ℕ) (s : State) (h : Keeps a s) : Keeps a (settleLasting k s) := by
  unfold settleLasting
  try dsimp only
  repeat' first
    | with_reducible first
        | assumption | intro _ | apply startDisc_keeps | apply raiseHw_keeps | apply lastingBegins_keeps
        | apply setF_keeps | apply showAnom_keeps | apply lastingEnds_keeps
    | split | dsimp only | assumption | exact Keeps.of_same (by assumption) rfl rfl rfl rfl rfl rfl rfl | intro _ | rfl

theorem settle_keeps {a : State} (s : State) (h : Keeps a s) : Keeps a (settle s) := by
  unfold settle
  try dsimp only
  repeat' first
    | with_reducible first
        | assumption | intro _ | apply settleLine_keeps | apply settleLasting_keeps
    | split | dsimp only | assumption | exact Keeps.of_same (by assumption) rfl rfl rfl rfl rfl rfl rfl | intro _ | rfl

theorem trip_keeps {a : State} (bit : ℕ) (value : ℕ) (s : State) (h : Keeps a s) : Keeps a (trip bit value s) := by
  unfold trip
  try dsimp only
  repeat' first
    | with_reducible first
        | assumption | intro _ | apply tripCore_keeps | apply settle_keeps
    | split | dsimp only | assumption | exact Keeps.of_same (by assumption) rfl rfl rfl rfl rfl rfl rfl | intro _ | rfl

theorem release_keeps {a : State} (bit : ℕ) (s : State) (h : Keeps a s) : Keeps a (release bit s) := by
  unfold release
  try dsimp only
  repeat' first
    | with_reducible first
        | assumption | intro _ | apply State.updSw_keeps | apply State.updSup_keeps | apply settle_keeps
        | apply raiseHw_keeps | apply ringOut_keeps | apply setF_keeps
    | split | dsimp only | assumption | exact Keeps.of_same (by assumption) rfl rfl rfl rfl rfl rfl rfl | intro _ | rfl

theorem contactorTrip_keeps {a : State} (why : ConTrip) (s : State) (h : Keeps a s) : Keeps a (contactorTrip why s) := by
  unfold contactorTrip
  try dsimp only
  repeat' first
    | with_reducible first
        | assumption | intro _ | apply State.updSw_keeps | apply State.updSup_keeps | apply openNow_keeps
        | apply trip_keeps
    | split | dsimp only | assumption | exact Keeps.of_same (by assumption) rfl rfl rfl rfl rfl rfl rfl | intro _ | rfl

theorem foundMismatch_keeps {a : State} (s : State) (h : Keeps a s) : Keeps a (foundMismatch s) := by
  unfold foundMismatch
  try dsimp only
  repeat' first
    | with_reducible first
        | assumption | intro _ | apply contactorTrip_keeps | apply setF_keeps
    | split | dsimp only | assumption | exact Keeps.of_same (by assumption) rfl rfl rfl rfl rfl rfl rfl | intro _ | rfl

theorem foundWeld_keeps {a : State} (first : Bool) (second : Bool) (s : State) (h : Keeps a s) : Keeps a (foundWeld first second s) := by
  unfold foundWeld
  try dsimp only
  repeat' first
    | with_reducible first
        | assumption | intro _ | apply State.updSw_keeps | apply State.updSup_keeps | apply raiseHw_keeps
        | apply setF_keeps | apply trip_keeps
    | split | dsimp only | assumption | exact Keeps.of_same (by assumption) rfl rfl rfl rfl rfl rfl rfl | intro _ | rfl

theorem foundDropout_keeps {a : State} (s : State) (h : Keeps a s) : Keeps a (foundDropout s) := by
  unfold foundDropout
  try dsimp only
  repeat' first
    | with_reducible first
        | assumption | intro _ | apply State.updSw_keeps | apply setCoil_keeps | apply openingBoundary_keeps
        | apply contactorTrip_keeps | apply openNow_keeps | apply setF_keeps
    | split | dsimp only | assumption | exact Keeps.of_same (by assumption) rfl rfl rfl rfl rfl rfl rfl | intro _ | rfl

theorem deferred_keeps {a : State} (apply : Bool) (s : State) (h : Keeps a s) : Keeps a (deferred apply s) := by
  unfold deferred
  try dsimp only
  repeat' first
    | with_reducible first
        | assumption | intro _ | apply settle_keeps | apply State.updPilot_keeps
    | split | dsimp only | assumption | exact Keeps.of_same (by assumption) rfl rfl rfl rfl rfl rfl rfl | intro _ | rfl

theorem confirmOpen_keeps {a : State} (s : State) (h : Keeps a s) : Keeps a (confirmOpen s) := by
  unfold confirmOpen
  try dsimp only
  repeat' first
    | with_reducible first
        | assumption | intro _ | apply State.updSw_keeps | apply raiseHw_keeps | apply deferred_keeps
        | apply release_keeps
    | split | dsimp only | assumption | exact Keeps.of_same (by assumption) rfl rfl rfl rfl rfl rfl rfl | intro _ | rfl

theorem actOn_keeps {a : State} (f : Finding) (s : State) (h : Keeps a s) : Keeps a (actOn f s) := by
  unfold actOn
  try dsimp only
  repeat' first
    | with_reducible first
        | assumption | intro _ | apply foundWeld_keeps | apply foundDropout_keeps | apply confirmOpen_keeps
        | apply foundMismatch_keeps
    | split | dsimp only | assumption | exact Keeps.of_same (by assumption) rfl rfl rfl rfl rfl rfl rfl | intro _ | rfl

theorem judgeOpening_keeps {a : State} (s : State) (h : Keeps a s) : Keeps a (judgeOpening s) := by
  unfold judgeOpening
  try dsimp only
  repeat' first
    | with_reducible first
        | assumption | intro _ | apply State.updSw_keeps | apply deferred_keeps | apply actOn_keeps
    | split | dsimp only | assumption | exact Keeps.of_same (by assumption) rfl rfl rfl rfl rfl rfl rfl | intro _ | rfl

theorem tryConfirm_keeps {a : State} (s : State) (h : Keeps a s) : Keeps a (tryConfirm s) := by
  unfold tryConfirm
  try dsimp only
  repeat' first
    | with_reducible first
        | assumption | intro _ | apply State.updSw_keeps | apply beginDisc_keeps | apply raiseHw_keeps
    | split | dsimp only | assumption | exact Keeps.of_same (by assumption) rfl rfl rfl rfl rfl rfl rfl | intro _ | rfl

theorem seeSupply_keeps {a : State} (live : BitVec 3) (s : State) (h : Keeps a s) : Keeps a (seeSupply live s) := by
  unfold seeSupply
  try dsimp only
  repeat' first
    | with_reducible first
        | assumption | intro _ | apply State.updSw_keeps
    | split | dsimp only | assumption | exact Keeps.of_same (by assumption) rfl rfl rfl rfl rfl rfl rfl | intro _ | rfl

theorem feedbackChanged_keeps {a : State} (s : State) (h : Keeps a s) : Keeps a (feedbackChanged s) := by
  unfold feedbackChanged
  try dsimp only
  repeat' first
    | with_reducible first
        | assumption | intro _ | apply foundDropout_keeps | apply tryConfirm_keeps | apply confirmOpen_keeps
        | apply actOn_keeps
    | split | dsimp only | assumption | exact Keeps.of_same (by assumption) rfl rfl rfl rfl rfl rfl rfl | intro _ | rfl

theorem allocate_keeps {a : State} (v : ℕ) (s : State) (h : Keeps a s) : Keeps a (allocate v s) := by
  unfold allocate
  try dsimp only
  repeat' first
    | with_reducible first
        | assumption | intro _ | apply State.updSup_keeps | apply settle_keeps | apply boundaries_keeps
        | apply State.updPilot_keeps
    | split | dsimp only | assumption | exact Keeps.of_same (by assumption) rfl rfl rfl rfl rfl rfl rfl | intro _ | rfl

theorem lowerToCeiling_keeps {a : State} (s : State) (h : Keeps a s) : Keeps a (lowerToCeiling s) := by
  unfold lowerToCeiling
  try dsimp only
  repeat' first
    | with_reducible first
        | assumption | intro _ | apply fence_keeps | apply allocate_keeps
    | split | dsimp only | assumption | exact Keeps.of_same (by assumption) rfl rfl rfl rfl rfl rfl rfl | intro _ | rfl

theorem blockValues_keeps {a : State} (d : BlockData) (s : State) (h : Keeps a s) : Keeps a (blockValues d s) := by
  unfold blockValues
  try dsimp only
  repeat' first
    | with_reducible first
        | assumption | intro _ | apply setI_keeps | apply foldl_keeps
    | split | dsimp only | assumption | exact Keeps.of_same (by assumption) rfl rfl rfl rfl rfl rfl rfl | intro _ | rfl

theorem showFreq_keeps {a : State} (freq : ℕ) (s : State) (h : Keeps a s) : Keeps a (showFreq freq s) := by
  unfold showFreq
  try dsimp only
  repeat' first
    | with_reducible first
        | assumption | intro _ | apply State.updSup_keeps | apply setB_keeps | apply setF_keeps
    | split | dsimp only | assumption | exact Keeps.of_same (by assumption) rfl rfl rfl rfl rfl rfl rfl | intro _ | rfl

theorem measureFreq_keeps {a : State} (freq : ℕ) (s : State) (h : Keeps a s) : Keeps a (measureFreq freq s) := by
  unfold measureFreq
  try dsimp only
  repeat' first
    | with_reducible first
        | assumption | intro _ | apply State.updMet_keeps | apply raiseHw_keeps | apply showFreq_keeps
    | split | dsimp only | assumption | exact Keeps.of_same (by assumption) rfl rfl rfl rfl rfl rfl rfl | intro _ | rfl

theorem followRef_keeps {a : State} (s : State) (h : Keeps a s) : Keeps a (followRef s) := by
  unfold followRef
  try dsimp only
  repeat' first
    | with_reducible first
        | assumption | intro _ | apply State.updMet_keeps | apply showFreq_keeps
    | split | dsimp only | assumption | exact Keeps.of_same (by assumption) rfl rfl rfl rfl rfl rfl rfl | intro _ | rfl

theorem refCrossing_keeps {a : State} (t_ : ℕ) (s : State) (h : Keeps a s) : Keeps a (refCrossing t_ s) := by
  unfold refCrossing
  try dsimp only
  repeat' first
    | with_reducible first
        | assumption | intro _ | apply State.updMet_keeps | apply measureFreq_keeps
    | split | dsimp only | assumption | exact Keeps.of_same (by assumption) rfl rfl rfl rfl rfl rfl rfl | intro _ | rfl

theorem fastUpdate_keeps {a : State} (d : BlockData) (s : State) (e_ : ℕ) (h : Keeps a s) : Keeps a (fastUpdate d s e_) := by
  unfold fastUpdate
  try dsimp only
  repeat' first
    | with_reducible first
        | assumption | intro _ | apply seeSupply_keeps | apply State.updSw_keeps | apply feedbackChanged_keeps
        | apply followRef_keeps
    | split | dsimp only | assumption | exact Keeps.of_same (by assumption) rfl rfl rfl rfl rfl rfl rfl | intro _ | rfl

theorem fastUpdates_keeps {a : State} (d : BlockData) (s : State) (h : Keeps a s) : Keeps a (fastUpdates d s) := by
  unfold fastUpdates
  try dsimp only
  repeat' first
    | with_reducible first
        | assumption | intro _ | apply fastUpdate_keeps | apply foldl_keeps
    | split | dsimp only | assumption | exact Keeps.of_same (by assumption) rfl rfl rfl rfl rfl rfl rfl | intro _ | rfl

theorem blockStamps_keeps {a : State} (d : BlockData) (s : State) (h : Keeps a s) : Keeps a (blockStamps d s) := by
  unfold blockStamps
  try dsimp only
  repeat' first
    | with_reducible first
        | assumption | intro _ | apply setF_keeps | apply foldl_keeps
    | split | dsimp only | assumption | exact Keeps.of_same (by assumption) rfl rfl rfl rfl rfl rfl rfl | intro _ | rfl

theorem blockPhase_keeps {a : State} (s : State) (h : Keeps a s) : Keeps a (blockPhase s) := by
  unfold blockPhase
  try dsimp only
  repeat' first
    | with_reducible first
        | assumption | intro _ | apply setF_keeps
    | split | dsimp only | assumption | exact Keeps.of_same (by assumption) rfl rfl rfl rfl rfl rfl rfl | intro _ | rfl

theorem blockCrossings_keeps {a : State} (d : BlockData) (s : State) (h : Keeps a s) : Keeps a (blockCrossings d s) := by
  unfold blockCrossings
  try dsimp only
  repeat' first
    | with_reducible first
        | assumption | intro _ | apply blockPhase_keeps | apply refCrossing_keeps | apply blockStamps_keeps
        | apply foldl_keeps
    | split | dsimp only | assumption | exact Keeps.of_same (by assumption) rfl rfl rfl rfl rfl rfl rfl | intro _ | rfl

theorem calApply_keeps {a : State} (s : State) (h : Keeps a s) : Keeps a (calApply s) := by
  unfold calApply
  try dsimp only
  repeat' first
    | with_reducible first
        | assumption | intro _ | apply State.updMet_keeps | apply writeEvent_keeps | apply ringOut_keeps
        | apply setF_keeps | apply foldl_keeps | apply risingFrom_mapSet (Nat.zero_le _) | apply mapWf_mapSet
        | apply mapWf_foldl_mapSet
    | split | dsimp only | assumption | exact Keeps.of_same (by assumption) rfl rfl rfl rfl rfl rfl rfl | intro _ | rfl

theorem calStage_keeps {a : State} (v : Word) (s : State) (h : Keeps a s) : Keeps a (calStage v s).2 := by
  unfold calStage
  try dsimp only
  repeat' first
    | with_reducible first
        | assumption | intro _ | apply State.updMet_keeps
    | split | dsimp only | assumption | exact Keeps.of_same (by assumption) rfl rfl rfl rfl rfl rfl rfl | intro _ | rfl

theorem calStage_keeps' {a t : State} {v : Word} {s : State} {v0} (e : calStage v s = (v0, t)) (h : Keeps a s) : Keeps a t := by
  have q := calStage_keeps (a := a) v s h
  rw [e] at q
  exact q

theorem calCommit_keeps {a : State} (s : State) (h : Keeps a s) : Keeps a (calCommit s).2 := by
  unfold calCommit
  try dsimp only
  repeat' first
    | with_reducible first
        | assumption | intro _ | apply setF_keeps
    | split | dsimp only | assumption | exact Keeps.of_same (by assumption) rfl rfl rfl rfl rfl rfl rfl | intro _ | rfl

theorem calCommit_keeps' {a t : State} {s : State} {v0} (e : calCommit s = (v0, t)) (h : Keeps a s) : Keeps a t := by
  have q := calCommit_keeps (a := a) s h
  rw [e] at q
  exact q

theorem calDrop_keeps {a : State} (s : State) (h : Keeps a s) : Keeps a (calDrop s) := by
  unfold calDrop
  try dsimp only
  repeat' first
    | with_reducible first
        | assumption | intro _ | apply State.updMet_keeps | apply setF_keeps
    | split | dsimp only | assumption | exact Keeps.of_same (by assumption) rfl rfl rfl rfl rfl rfl rfl | intro _ | rfl

theorem calDiscard_keeps {a : State} (s : State) (h : Keeps a s) : Keeps a (calDiscard s).2 := by
  unfold calDiscard
  try dsimp only
  repeat' first
    | with_reducible first
        | assumption | intro _ | apply calDrop_keeps
    | split | dsimp only | assumption | exact Keeps.of_same (by assumption) rfl rfl rfl rfl rfl rfl rfl | intro _ | rfl

theorem calDiscard_keeps' {a t : State} {s : State} {v0} (e : calDiscard s = (v0, t)) (h : Keeps a s) : Keeps a t := by
  have q := calDiscard_keeps (a := a) s h
  rw [e] at q
  exact q

theorem blockEnd_keeps {a : State} (d : BlockData) (early : Bool) (s : State) (h : Keeps a s) : Keeps a (blockEnd d early s) := by
  unfold blockEnd
  try dsimp only
  repeat' first
    | with_reducible first
        | assumption | intro _ | apply State.updMet_keeps | apply fastUpdates_keeps | apply logEvent_keeps
        | apply writeEvent_keeps | apply blockCrossings_keeps | apply raiseHw_keeps | apply ledgerBlock_keeps
        | apply blockValues_keeps | apply setB_keeps | apply setF_keeps
    | split | dsimp only | assumption | exact Keeps.of_same (by assumption) rfl rfl rfl rfl rfl rfl rfl | intro _ | rfl

theorem blockBoundary_keeps {a : State} (s : State) (h : Keeps a s) : Keeps a (blockBoundary s) := by
  unfold blockBoundary
  try dsimp only
  repeat' first
    | with_reducible first
        | assumption | intro _ | apply boundaries_keeps | apply calApply_keeps
    | split | dsimp only | assumption | exact Keeps.of_same (by assumption) rfl rfl rfl rfl rfl rfl rfl | intro _ | rfl

theorem rotationStep_keeps {a : State} (s : State) (h : Keeps a s) : Keeps a (rotationStep s) := by
  unfold rotationStep
  try dsimp only
  repeat' first
    | with_reducible first
        | assumption | intro _ | apply State.updMet_keeps | apply boundary_keeps
    | split | dsimp only | assumption | exact Keeps.of_same (by assumption) rfl rfl rfl rfl rfl rfl rfl | intro _ | rfl

theorem checkChain_keeps {a : State} (c : ℕ) (s : State) (h : Keeps a s) : Keeps a (checkChain c s) := by
  unfold checkChain
  try dsimp only
  repeat' first
    | with_reducible first
        | assumption | intro _ | apply State.updMet_keeps | apply setF_keeps
    | split | dsimp only | assumption | exact Keeps.of_same (by assumption) rfl rfl rfl rfl rfl rfl rfl | intro _ | rfl

theorem rotationHandover_keeps {a : State} (ratio : ℤ) (s : State) (h : Keeps a s) : Keeps a (rotationHandover ratio s) := by
  unfold rotationHandover
  try dsimp only
  repeat' first
    | with_reducible first
        | assumption | intro _ | apply State.updMet_keeps | apply checkChain_keeps | apply setF_keeps
    | split | dsimp only | assumption | exact Keeps.of_same (by assumption) rfl rfl rfl rfl rfl rfl rfl | intro _ | rfl

theorem referenceSwitch_keeps {a : State} (zero : ℤ) (s : State) (h : Keeps a s) : Keeps a (referenceSwitch zero s) := by
  unfold referenceSwitch
  try dsimp only
  repeat' first
    | with_reducible first
        | assumption | intro _ | apply State.updMet_keeps
    | split | dsimp only | assumption | exact Keeps.of_same (by assumption) rfl rfl rfl rfl rfl rfl rfl | intro _ | rfl

theorem retireChain_keeps {a : State} (c : ℕ) (s : State) (h : Keeps a s) : Keeps a (retireChain c s) := by
  unfold retireChain
  try dsimp only
  repeat' first
    | with_reducible first
        | assumption | intro _ | apply State.updMet_keeps | apply setHealth_keeps | apply writeEvent_keeps
        | apply raiseHw_keeps | apply ringOut_keeps | apply setF_keeps
    | split | dsimp only | assumption | exact Keeps.of_same (by assumption) rfl rfl rfl rfl rfl rfl rfl | intro _ | rfl

theorem gainPart_keeps {a : State} (x : ℤ) (s : State) (h : Keeps a s) : Keeps a (gainPart x s).2 := by
  unfold gainPart
  try dsimp only
  repeat' first
    | with_reducible first
        | assumption | intro _ | apply freeBelow_keeps | refine freeBelow_keeps' (by assumption) ?_
    | split | dsimp only | assumption | exact Keeps.of_same (by assumption) rfl rfl rfl rfl rfl rfl rfl | intro _ | rfl

theorem gainPart_keeps' {a t : State} {x : ℤ} {s : State} {v0} (e : gainPart x s = (v0, t)) (h : Keeps a s) : Keeps a t := by
  have q := gainPart_keeps (a := a) x s h
  rw [e] at q
  exact q

theorem judgeChain_keeps {a : State} (reading : ℕ) (s : State) (h : Keeps a s) : Keeps a (judgeChain reading s) := by
  unfold judgeChain
  try dsimp only
  repeat' first
    | with_reducible first
        | assumption | intro _ | apply State.updMet_keeps | apply boundaries_keeps | apply checkChain_keeps
        | apply gainPart_keeps | refine gainPart_keeps' (by assumption) ?_ | apply setI_keeps | apply setF_keeps
        | apply retireChain_keeps
    | split | dsimp only | assumption | exact Keeps.of_same (by assumption) rfl rfl rfl rfl rfl rfl rfl | intro _ | rfl

theorem hardFail_keeps {a : State} (c : ℕ) (s : State) (h : Keeps a s) : Keeps a (hardFail c s) := by
  unfold hardFail
  try dsimp only
  repeat' first
    | with_reducible first
        | assumption | intro _ | apply State.updMet_keeps | apply writeEvent_keeps | apply retireChain_keeps
    | split | dsimp only | assumption | exact Keeps.of_same (by assumption) rfl rfl rfl rfl rfl rfl rfl | intro _ | rfl

theorem modQ_keeps {a : State} (q_ : Fin 64) (f : Queue → Queue) (s : State) (h : Keeps a s) : Keeps a (modQ q_ f s) := by
  unfold modQ
  try dsimp only
  repeat' first
    | with_reducible first
        | assumption | intro _ | apply State.updHp_keeps
    | split | dsimp only | assumption | exact Keeps.of_same (by assumption) rfl rfl rfl rfl rfl rfl rfl | intro _ | rfl

theorem qNotice_keeps {a : State} (q_ : Fin 64) (s : State) (h : Keeps a s) : Keeps a (qNotice q_ s) := by
  unfold qNotice
  try dsimp only
  repeat' first
    | with_reducible first
        | assumption | intro _ | apply raiseHw_keeps | apply ringOut_keeps | apply setF_keeps
    | split | dsimp only | assumption | exact Keeps.of_same (by assumption) rfl rfl rfl rfl rfl rfl rfl | intro _ | rfl

theorem qHit_keeps {a : State} (hit : ℕ → Field) (enable : ℕ → Field) (q_ : Fin 64) (s : State) (h : Keeps a s) : Keeps a (qHit hit enable q_ s) := by
  unfold qHit
  try dsimp only
  repeat' first
    | with_reducible first
        | assumption | intro _ | apply qNotice_keeps | apply setF_keeps
    | split | dsimp only | assumption | exact Keeps.of_same (by assumption) rfl rfl rfl rfl rfl rfl rfl | intro _ | rfl

theorem qLevelMoved_keeps {a : State} (old : ℕ) (q_ : Fin 64) (s : State) (h : Keeps a s) : Keeps a (qLevelMoved old q_ s) := by
  unfold qLevelMoved
  try dsimp only
  repeat' first
    | with_reducible first
        | assumption | intro _ | apply setF_keeps | apply qHit_keeps
    | split | dsimp only | assumption | exact Keeps.of_same (by assumption) rfl rfl rfl rfl rfl rfl rfl | intro _ | rfl

theorem qArmStale_keeps {a : State} (q_ : Fin 64) (s : State) (h : Keeps a s) : Keeps a (qArmStale q_ s) := by
  unfold qArmStale
  try dsimp only
  repeat' first
    | with_reducible first
        | assumption | intro _ | apply boundary_keeps | apply modQ_keeps
    | split | dsimp only | assumption | exact Keeps.of_same (by assumption) rfl rfl rfl rfl rfl rfl rfl | intro _ | rfl

theorem qAppend_keeps {a : State} (q_ : Fin 64) (item : Word) (s : State) (h : Keeps a s) : Keeps a (qAppend q_ item s) := by
  unfold qAppend
  try dsimp only
  repeat' first
    | with_reducible first
        | assumption | intro _ | apply qLevelMoved_keeps | apply boundary_keeps | apply qArmStale_keeps
        | apply modQ_keeps | apply qHit_keeps
    | split | dsimp only | assumption | exact Keeps.of_same (by assumption) rfl rfl rfl rfl rfl rfl rfl | intro _ | rfl

theorem qRemove_keeps {a : State} (q_ : Fin 64) (k : ℕ) (s : State) (h : Keeps a s) : Keeps a (qRemove q_ k s) := by
  unfold qRemove
  try dsimp only
  repeat' first
    | with_reducible first
        | assumption | intro _ | apply qLevelMoved_keeps | apply boundary_keeps | apply qArmStale_keeps
        | apply modQ_keeps
    | split | dsimp only | assumption | exact Keeps.of_same (by assumption) rfl rfl rfl rfl rfl rfl rfl | intro _ | rfl

theorem qRefuse_keeps {a : State} (q_ : Fin 64) (s : State) (h : Keeps a s) : Keeps a (qRefuse q_ s) := by
  unfold qRefuse
  try dsimp only
  repeat' first
    | with_reducible first
        | assumption | intro _ | apply incF_keeps
    | split | dsimp only | assumption | exact Keeps.of_same (by assumption) rfl rfl rfl rfl rfl rfl rfl | intro _ | rfl

theorem qEnqueue_keeps {a : State} (q_ : Fin 64) (item : Word) (s : State) (h : Keeps a s) : Keeps a (qEnqueue q_ item s).2 := by
  unfold qEnqueue
  try dsimp only
  repeat' first
    | with_reducible first
        | assumption | intro _ | apply qRefuse_keeps | apply qAppend_keeps
    | split | dsimp only | assumption | exact Keeps.of_same (by assumption) rfl rfl rfl rfl rfl rfl rfl | intro _ | rfl

theorem qEnqueue_keeps' {a t : State} {q_ : Fin 64} {item : Word} {s : State} {v0} (e : qEnqueue q_ item s = (v0, t)) (h : Keeps a s) : Keeps a t := by
  have q := qEnqueue_keeps (a := a) q_ item s h
  rw [e] at q
  exact q

theorem qFlush_keeps {a : State} (q_ : Fin 64) (s : State) (h : Keeps a s) : Keeps a (qFlush q_ s) := by
  unfold qFlush
  try dsimp only
  repeat' first
    | with_reducible first
        | assumption | intro _ | apply qLevelMoved_keeps | apply boundary_keeps | apply mapHeldOfOthers_keeps
        | apply incF_keeps | apply modQ_keeps
    | split | dsimp only | assumption | exact Keeps.of_same (by assumption) rfl rfl rfl rfl rfl rfl rfl | intro _ | rfl

theorem showWaiting_keeps {a : State} (s : State) (h : Keeps a s) : Keeps a (showWaiting s) := by
  unfold showWaiting
  try dsimp only
  repeat' first
    | with_reducible first
        | assumption | intro _ | apply setF_keeps
    | split | dsimp only | assumption | exact Keeps.of_same (by assumption) rfl rfl rfl rfl rfl rfl rfl | intro _ | rfl

theorem askTest_keeps {a : State} (plugIn : Bool) (again : Bool) (ask : Option TestAsk) (s : State) (h : Keeps a s) : Keeps a (askTest plugIn again ask s) := by
  unfold askTest
  try dsimp only
  repeat' first
    | with_reducible first
        | assumption | intro _ | apply State.updSup_keeps | apply showWaiting_keeps
    | split | dsimp only | assumption | exact Keeps.of_same (by assumption) rfl rfl rfl rfl rfl rfl rfl | intro _ | rfl

theorem decideAsk_keeps {a : State} (pass : Bool) (a_ : TestAsk) (s : State) (h : Keeps a s) : Keeps a (decideAsk pass a_ s) := by
  unfold decideAsk
  try dsimp only
  repeat' first
    | with_reducible first
        | assumption | intro _ | apply State.updSup_keeps | apply incF_keeps | apply release_keeps
    | split | dsimp only | assumption | exact Keeps.of_same (by assumption) rfl rfl rfl rfl rfl rfl rfl | intro _ | rfl

theorem endTest_keeps {a : State} (code : ℕ) (s : State) (h : Keeps a s) : Keeps a (endTest code s) := by
  unfold endTest
  try dsimp only
  repeat' first
    | with_reducible first
        | assumption | intro _ | apply State.updSup_keeps | apply setF_keeps | apply decideAsk_keeps
        | apply release_keeps | apply showWaiting_keeps | apply trip_keeps | apply foldl_keeps
    | split | dsimp only | assumption | exact Keeps.of_same (by assumption) rfl rfl rfl rfl rfl rfl rfl | intro _ | rfl

theorem modTest_keeps {a : State} (f : SelfTest → SelfTest) (s : State) (h : Keeps a s) : Keeps a (modTest f s) := by
  unfold modTest
  try dsimp only
  repeat' first
    | with_reducible first
        | assumption | intro _ | apply State.updSup_keeps
    | split | dsimp only | assumption | exact Keeps.of_same (by assumption) rfl rfl rfl rfl rfl rfl rfl | intro _ | rfl

theorem testStep_keeps {a : State} (dc : ℤ) (ac : ℕ) (symmetric : Bool) (healthy : Bool) (t_ : SelfTest) (s : State) (h : Keeps a s) : Keeps a (testStep dc ac symmetric healthy t_ s) := by
  unfold testStep
  try dsimp only
  repeat' first
    | with_reducible first
        | assumption | intro _ | apply endTest_keeps | apply showWaiting_keeps | apply modTest_keeps
    | split | dsimp only | assumption | exact Keeps.of_same (by assumption) rfl rfl rfl rfl rfl rfl rfl | intro _ | rfl

theorem readTemp_keeps {a : State} (i : Fin 2) (t_ : ℤ) (s : State) (h : Keeps a s) : Keeps a (readTemp i t_ s) := by
  unfold readTemp
  try dsimp only
  repeat' first
    | with_reducible first
        | assumption | intro _ | apply State.updSup_keeps | apply boundary_keeps
    | split | dsimp only | assumption | exact Keeps.of_same (by assumption) rfl rfl rfl rfl rfl rfl rfl | intro _ | rfl

theorem readCurrents_keeps {a : State} (ia : BitVec 16) (ib : BitVec 16) (ic : BitVec 16) (s : State) (h : Keeps a s) : Keeps a (readCurrents ia ib ic s) := by
  unfold readCurrents
  try dsimp only
  repeat' first
    | with_reducible first
        | assumption | intro _ | apply State.updSw_keeps
    | split | dsimp only | assumption | exact Keeps.of_same (by assumption) rfl rfl rfl rfl rfl rfl rfl | intro _ | rfl

theorem clearCause_keeps {a : State} (bit : ℕ) (s : State) (h : Keeps a s) : Keeps a (clearCause bit s) := by
  unfold clearCause
  try dsimp only
  repeat' first
    | with_reducible first
        | assumption | intro _ | apply askTest_keeps | apply release_keeps
    | split | dsimp only | assumption | exact Keeps.of_same (by assumption) rfl rfl rfl rfl rfl rfl rfl | intro _ | rfl

theorem safeClear_keeps {a : State} (mask : BitVec 16) (s : State) (h : Keeps a s) : Keeps a (safeClear mask s) := by
  unfold safeClear
  try dsimp only
  repeat' first
    | with_reducible first
        | assumption | intro _ | apply clearCause_keeps | apply foldl_keeps
    | split | dsimp only | assumption | exact Keeps.of_same (by assumption) rfl rfl rfl rfl rfl rfl rfl | intro _ | rfl

theorem reclose_keeps {a : State} (s : State) (h : Keeps a s) : Keeps a (reclose s) := by
  unfold reclose
  try dsimp only
  repeat' first
    | with_reducible first
        | assumption | intro _ | apply release_keeps
    | split | dsimp only | assumption | exact Keeps.of_same (by assumption) rfl rfl rfl rfl rfl rfl rfl | intro _ | rfl

theorem clearWeld_keeps {a : State} (s : State) (h : Keeps a s) : Keeps a (clearWeld s) := by
  unfold clearWeld
  try dsimp only
  repeat' first
    | with_reducible first
        | assumption | intro _ | apply release_keeps
    | split | dsimp only | assumption | exact Keeps.of_same (by assumption) rfl rfl rfl rfl rfl rfl rfl | intro _ | rfl

theorem clearMismatch_keeps {a : State} (s : State) (h : Keeps a s) : Keeps a (clearMismatch s) := by
  unfold clearMismatch
  try dsimp only
  repeat' first
    | with_reducible first
        | assumption | intro _ | apply release_keeps
    | split | dsimp only | assumption | exact Keeps.of_same (by assumption) rfl rfl rfl rfl rfl rfl rfl | intro _ | rfl

theorem formeTrip_keeps {a : State} (v : ℕ) (s : State) (h : Keeps a s) : Keeps a (formeTrip v s) := by
  unfold formeTrip
  try dsimp only
  repeat' first
    | with_reducible first
        | assumption | intro _ | apply setF_keeps | apply trip_keeps
    | split | dsimp only | assumption | exact Keeps.of_same (by assumption) rfl rfl rfl rfl rfl rfl rfl | intro _ | rfl

theorem limitPut_keeps {a : State} (arg : ℕ) (v : ℕ) (s : State) (h : Keeps a s) : Keeps a (limitPut arg v s) := by
  unfold limitPut
  try dsimp only
  repeat' first
    | with_reducible first
        | assumption | intro _ | apply boundary_keeps | apply setF_keeps
    | split | dsimp only | assumption | exact Keeps.of_same (by assumption) rfl rfl rfl rfl rfl rfl rfl | intro _ | rfl

theorem unplugged_keeps {a : State} (s : State) (h : Keeps a s) : Keeps a (unplugged s) := by
  unfold unplugged
  try dsimp only
  repeat' first
    | with_reducible first
        | assumption | intro _ | apply release_keeps
    | split | dsimp only | assumption | exact Keeps.of_same (by assumption) rfl rfl rfl rfl rfl rfl rfl | intro _ | rfl

theorem tripAnomaly_keeps {a : State} (k : ℕ) (value : ℕ) (s : State) (h : Keeps a s) : Keeps a (tripAnomaly k value s) := by
  unfold tripAnomaly
  try dsimp only
  repeat' first
    | with_reducible first
        | assumption | intro _ | apply State.updSup_keeps | apply violation_keeps | apply raiseHw_keeps
        | apply State.updPilot_keeps | apply setF_keeps | apply State.updSys_keeps | apply trip_keeps
    | split | dsimp only | assumption | exact Keeps.of_same (by assumption) rfl rfl rfl rfl rfl rfl rfl | intro _ | rfl

theorem chatter_keeps {a : State} (value : ℕ) (s : State) (h : Keeps a s) : Keeps a (chatter value s) := by
  unfold chatter
  try dsimp only
  repeat' first
    | with_reducible first
        | assumption | intro _ | apply startDisc_keeps | apply settle_keeps | apply violation_keeps
        | apply raiseHw_keeps | apply stopPwm_keeps | apply showAnom_keeps
    | split | dsimp only | assumption | exact Keeps.of_same (by assumption) rfl rfl rfl rfl rfl rfl rfl | intro _ | rfl

theorem countMove_keeps {a : State} (was : ℕ) (st : ℕ) (value : ℕ) (s : State) (h : Keeps a s) : Keeps a (countMove was st value s) := by
  unfold countMove
  try dsimp only
  repeat' first
    | with_reducible first
        | assumption | intro _ | apply chatter_keeps | apply State.updPilot_keeps | apply risingFrom_filter
        | apply mapWf_filter
    | split | dsimp only | assumption | exact Keeps.of_same (by assumption) rfl rfl rfl rfl rfl rfl rfl | intro _ | rfl

theorem newState_keeps {a : State} (st : ℕ) (value : ℕ) (s : State) (h : Keeps a s) : Keeps a (newState st value s) := by
  unfold newState
  try dsimp only
  repeat' first
    | with_reducible first
        | assumption | intro _ | apply reportActs_keeps | apply standbyExit_keeps | apply report_keeps
        | apply unplugged_keeps | apply settle_keeps | apply countMove_keeps | apply State.updPilot_keeps
        | apply askTest_keeps | apply setF_keeps
    | split | dsimp only | assumption | exact Keeps.of_same (by assumption) rfl rfl rfl rfl rfl rfl rfl | intro _ | rfl

theorem concludeSample_keeps {a : State} (value : ℕ) (s : State) (h : Keeps a s) : Keeps a (concludeSample value s) := by
  unfold concludeSample
  try dsimp only
  repeat' first
    | with_reducible first
        | assumption | intro _ | apply tripAnomaly_keeps | apply newState_keeps
    | split | dsimp only | assumption | exact Keeps.of_same (by assumption) rfl rfl rfl rfl rfl rfl rfl | intro _ | rfl

theorem highSample_keeps {a : State} (mv : BitVec 16) (s : State) (h : Keeps a s) : Keeps a (highSample mv s) := by
  unfold highSample
  try dsimp only
  repeat' first
    | with_reducible first
        | assumption | intro _ | apply State.updPilot_keeps | apply setF_keeps | apply concludeSample_keeps
    | split | dsimp only | assumption | exact Keeps.of_same (by assumption) rfl rfl rfl rfl rfl rfl rfl | intro _ | rfl

theorem lowSample_keeps {a : State} (mv : BitVec 16) (s : State) (h : Keeps a s) : Keeps a (lowSample mv s) := by
  unfold lowSample
  try dsimp only
  repeat' first
    | with_reducible first
        | assumption | intro _ | apply State.updPilot_keeps | apply setF_keeps | apply concludeSample_keeps
    | split | dsimp only | assumption | exact Keeps.of_same (by assumption) rfl rfl rfl rfl rfl rfl rfl | intro _ | rfl

theorem pilotSample_keeps {a : State} (s : State) (x : PilotSample) (h : Keeps a s) : Keeps a (pilotSample s x) := by
  unfold pilotSample
  try dsimp only
  repeat' first
    | with_reducible first
        | assumption | intro _ | apply highSample_keeps | apply lowSample_keeps
    | split | dsimp only | assumption | exact Keeps.of_same (by assumption) rfl rfl rfl rfl rfl rfl rfl | intro _ | rfl

theorem periodDuty_keeps {a : State} (s : State) (duty : BitVec 11) (h : Keeps a s) : Keeps a (periodDuty s duty) := by
  unfold periodDuty
  try dsimp only
  repeat' first
    | with_reducible first
        | assumption | intro _ | apply tripAnomaly_keeps | apply State.updPilot_keeps
    | split | dsimp only | assumption | exact Keeps.of_same (by assumption) rfl rfl rfl rfl rfl rfl rfl | intro _ | rfl

theorem diodePulse_keeps {a : State} (low : BitVec 16) (s : State) (h : Keeps a s) : Keeps a (diodePulse low s) := by
  unfold diodePulse
  try dsimp only
  repeat' first
    | with_reducible first
        | assumption | intro _ | apply tripAnomaly_keeps | apply raiseHw_keeps | apply State.updPilot_keeps
        | apply setF_keeps | apply release_keeps
    | split | dsimp only | assumption | exact Keeps.of_same (by assumption) rfl rfl rfl rfl rfl rfl rfl | intro _ | rfl

theorem newBand_keeps {a : State} (band : ℕ) (ohms : ℕ) (s : State) (h : Keeps a s) : Keeps a (newBand band ohms s) := by
  unfold newBand
  try dsimp only
  repeat' first
    | with_reducible first
        | assumption | intro _ | apply lowerToCeiling_keeps | apply State.updSup_keeps | apply settle_keeps
        | apply violation_keeps | apply raiseHw_keeps | apply State.updPilot_keeps | apply lastingBegins_keeps
        | apply setF_keeps | apply lastingEnds_keeps | apply trip_keeps
    | split | dsimp only | assumption | exact Keeps.of_same (by assumption) rfl rfl rfl rfl rfl rfl rfl | intro _ | rfl

theorem ppReading_keeps {a : State} (s : State) (ohms : ℕ) (h : Keeps a s) : Keeps a (ppReading s ohms) := by
  unfold ppReading
  try dsimp only
  repeat' first
    | with_reducible first
        | assumption | intro _ | apply newBand_keeps | apply State.updPilot_keeps | apply setF_keeps
    | split | dsimp only | assumption | exact Keeps.of_same (by assumption) rfl rfl rfl rfl rfl rfl rfl | intro _ | rfl

theorem lockPulseEnd_keeps {a : State} (s : State) (h : Keeps a s) : Keeps a (lockPulseEnd s) := by
  unfold lockPulseEnd
  try dsimp only
  repeat' first
    | with_reducible first
        | assumption | intro _ | apply State.updPilot_keeps | apply outOff_keeps
    | split | dsimp only | assumption | exact Keeps.of_same (by assumption) rfl rfl rfl rfl rfl rfl rfl | intro _ | rfl

theorem lockPulseStart_keeps {a : State} (lock : Bool) (s : State) (h : Keeps a s) : Keeps a (lockPulseStart lock s) := by
  unfold lockPulseStart
  try dsimp only
  repeat' first
    | with_reducible first
        | assumption | intro _ | apply outOn_keeps | apply State.updPilot_keeps | apply lockPulseEnd_keeps
    | split | dsimp only | assumption | exact Keeps.of_same (by assumption) rfl rfl rfl rfl rfl rfl rfl | intro _ | rfl

theorem lockStart_keeps {a : State} (lock : Bool) (s : State) (h : Keeps a s) : Keeps a (lockStart lock s) := by
  unfold lockStart
  try dsimp only
  repeat' first
    | with_reducible first
        | assumption | intro _ | apply State.updPilot_keeps | apply setF_keeps | apply lockPulseStart_keeps
        | apply lastingEnds_keeps
    | split | dsimp only | assumption | exact Keeps.of_same (by assumption) rfl rfl rfl rfl rfl rfl rfl | intro _ | rfl

theorem lockCommand_keeps {a : State} (v : ℕ) (s : State) (h : Keeps a s) : Keeps a (lockCommand v s) := by
  unfold lockCommand
  try dsimp only
  repeat' first
    | with_reducible first
        | assumption | intro _ | apply lockStart_keeps
    | split | dsimp only | assumption | exact Keeps.of_same (by assumption) rfl rfl rfl rfl rfl rfl rfl | intro _ | rfl

theorem lockMoved_keeps {a : State} (lock : Bool) (s : State) (h : Keeps a s) : Keeps a (lockMoved lock s) := by
  unfold lockMoved
  try dsimp only
  repeat' first
    | with_reducible first
        | assumption | intro _ | apply raiseHw_keeps | apply State.updPilot_keeps | apply setF_keeps
        | apply lastingEnds_keeps
    | split | dsimp only | assumption | exact Keeps.of_same (by assumption) rfl rfl rfl rfl rfl rfl rfl | intro _ | rfl

theorem seeBolt_keeps {a : State} (level : Bool) (s : State) (h : Keeps a s) : Keeps a (seeBolt level s) := by
  unfold seeBolt
  try dsimp only
  repeat' first
    | with_reducible first
        | assumption | intro _ | apply State.updPilot_keeps
    | split | dsimp only | assumption | exact Keeps.of_same (by assumption) rfl rfl rfl rfl rfl rfl rfl | intro _ | rfl

theorem pwmPeriod_keeps {a : State} (s : State) (h : Keeps a s) : Keeps a (pwmPeriod s) := by
  unfold pwmPeriod
  try dsimp only
  repeat' first
    | with_reducible first
        | assumption | intro _ | apply risingEdge_keeps | apply settle_keeps | apply boundary_keeps
    | split | dsimp only | assumption | exact Keeps.of_same (by assumption) rfl rfl rfl rfl rfl rfl rfl | intro _ | rfl

theorem microsecond_keeps {a : State} (s : State) (h : Keeps a s) : Keeps a (microsecond s) := by
  unfold microsecond
  try dsimp only
  repeat' first
    | with_reducible first
        | assumption | intro _ | apply pwmPeriod_keeps | apply State.updSys_keeps | apply lockPulseEnd_keeps
    | split | dsimp only | assumption | exact Keeps.of_same (by assumption) rfl rfl rfl rfl rfl rfl rfl | intro _ | rfl

theorem putPwm_keeps {a : State} (v : ℕ) (s : State) (h : Keeps a s) : Keeps a (putPwm v s) := by
  unfold putPwm
  try dsimp only
  repeat' first
    | with_reducible first
        | assumption | intro _ | apply settle_keeps | apply State.updPilot_keeps | apply stopPwm_keeps
    | split | dsimp only | assumption | exact Keeps.of_same (by assumption) rfl rfl rfl rfl rfl rfl rfl | intro _ | rfl

theorem putHlc_keeps {a : State} (v : ℕ) (s : State) (h : Keeps a s) : Keeps a (putHlc v s) := by
  unfold putHlc
  try dsimp only
  repeat' first
    | with_reducible first
        | assumption | intro _ | apply settle_keeps | apply State.updPilot_keeps
    | split | dsimp only | assumption | exact Keeps.of_same (by assumption) rfl rfl rfl rfl rfl rfl rfl | intro _ | rfl

theorem pilotStop_keeps {a : State} (s : State) (h : Keeps a s) : Keeps a (pilotStop s) := by
  unfold pilotStop
  try dsimp only
  repeat' first
    | with_reducible first
        | assumption | intro _ | apply settle_keeps | apply stopPwm_keeps
    | split | dsimp only | assumption | exact Keeps.of_same (by assumption) rfl rfl rfl rfl rfl rfl rfl | intro _ | rfl

theorem pilotF_keeps {a : State} (s : State) (h : Keeps a s) : Keeps a (pilotF s) := by
  unfold pilotF
  try dsimp only
  repeat' first
    | with_reducible first
        | assumption | intro _ | apply settle_keeps | apply State.updPilot_keeps
    | split | dsimp only | assumption | exact Keeps.of_same (by assumption) rfl rfl rfl rfl rfl rfl rfl | intro _ | rfl

theorem pilotRelease_keeps {a : State} (s : State) (h : Keeps a s) : Keeps a (pilotRelease s) := by
  unfold pilotRelease
  try dsimp only
  repeat' first
    | with_reducible first
        | assumption | intro _ | apply settle_keeps | apply State.updPilot_keeps
    | split | dsimp only | assumption | exact Keeps.of_same (by assumption) rfl rfl rfl rfl rfl rfl rfl | intro _ | rfl

theorem putOffer_keeps {a : State} (v : ℕ) (s : State) (h : Keeps a s) : Keeps a (putOffer v s) := by
  unfold putOffer
  try dsimp only
  repeat' first
    | with_reducible first
        | assumption | intro _ | apply State.updHlc_keeps
    | split | dsimp only | assumption | exact Keeps.of_same (by assumption) rfl rfl rfl rfl rfl rfl rfl | intro _ | rfl

theorem armClose_keeps {a : State} (s : State) (h : Keeps a s) : Keeps a (armClose s) := by
  unfold armClose
  try dsimp only
  repeat' first
    | with_reducible first
        | assumption | intro _ | apply State.updSw_keeps | apply raiseHw_keeps | apply setF_keeps
    | split | dsimp only | assumption | exact Keeps.of_same (by assumption) rfl rfl rfl rfl rfl rfl rfl | intro _ | rfl

theorem putCloseReq_keeps {a : State} (v : ℕ) (s : State) (h : Keeps a s) : Keeps a (putCloseReq v s) := by
  unfold putCloseReq
  try dsimp only
  repeat' first
    | with_reducible first
        | assumption | intro _ | apply setF_keeps | apply armClose_keeps
    | split | dsimp only | assumption | exact Keeps.of_same (by assumption) rfl rfl rfl rfl rfl rfl rfl | intro _ | rfl

theorem closeStart_keeps {a : State} (s : State) (h : Keeps a s) : Keeps a (closeStart s) := by
  unfold closeStart
  try dsimp only
  repeat' first
    | with_reducible first
        | assumption | intro _ | apply State.updSw_keeps | apply setCoil_keeps | apply boundaries_keeps
        | apply setF_keeps
    | split | dsimp only | assumption | exact Keeps.of_same (by assumption) rfl rfl rfl rfl rfl rfl rfl | intro _ | rfl

theorem dutyCoilOn_keeps {a : State} (s : State) (h : Keeps a s) : Keeps a (dutyCoilOn s) := by
  unfold dutyCoilOn
  try dsimp only
  repeat' first
    | with_reducible first
        | assumption | intro _ | apply State.updSw_keeps | apply setCoil_keeps | apply tryConfirm_keeps
    | split | dsimp only | assumption | exact Keeps.of_same (by assumption) rfl rfl rfl rfl rfl rfl rfl | intro _ | rfl

theorem closeTimeout_keeps {a : State} (live : BitVec 3) (s : State) (h : Keeps a s) : Keeps a (closeTimeout live s) := by
  unfold closeTimeout
  try dsimp only
  repeat' first
    | with_reducible first
        | assumption | intro _ | apply seeSupply_keeps | apply contactorTrip_keeps | apply tryConfirm_keeps
        | apply setF_keeps
    | split | dsimp only | assumption | exact Keeps.of_same (by assumption) rfl rfl rfl rfl rfl rfl rfl | intro _ | rfl

theorem mirrorChange_keeps {a : State} (second : Bool) (reads : Bool) (live : BitVec 3) (s : State) (h : Keeps a s) : Keeps a (mirrorChange second reads live s) := by
  unfold mirrorChange
  try dsimp only
  repeat' first
    | with_reducible first
        | assumption | intro _ | apply seeSupply_keeps | apply State.updSw_keeps | apply feedbackChanged_keeps
    | split | dsimp only | assumption | exact Keeps.of_same (by assumption) rfl rfl rfl rfl rfl rfl rfl | intro _ | rfl

theorem loadSideChange_keeps {a : State} (phase : Fin 3) (on : Bool) (live : BitVec 3) (s : State) (h : Keeps a s) : Keeps a (loadSideChange phase on live s) := by
  unfold loadSideChange
  try dsimp only
  repeat' first
    | with_reducible first
        | assumption | intro _ | apply seeSupply_keeps | apply State.updSw_keeps | apply feedbackChanged_keeps
    | split | dsimp only | assumption | exact Keeps.of_same (by assumption) rfl rfl rfl rfl rfl rfl rfl | intro _ | rfl

theorem putContOpen_keeps {a : State} (v : ℕ) (s : State) (h : Keeps a s) : Keeps a (putContOpen v s) := by
  unfold putContOpen
  try dsimp only
  repeat' first
    | with_reducible first
        | assumption | intro _ | apply clearArm_keeps | apply startDisc_keeps | apply settle_keeps
        | apply openNow_keeps
    | split | dsimp only | assumption | exact Keeps.of_same (by assumption) rfl rfl rfl rfl rfl rfl rfl | intro _ | rfl

theorem breakDuty_keeps {a : State} (i : ℕ) (s : State) (h : Keeps a s) : Keeps a (breakDuty i s) := by
  unfold breakDuty
  try dsimp only
  repeat' first
    | with_reducible first
        | assumption | intro _ | apply State.updSw_keeps | apply setCoil_keeps | apply countBreak_keeps
    | split | dsimp only | assumption | exact Keeps.of_same (by assumption) rfl rfl rfl rfl rfl rfl rfl | intro _ | rfl

theorem currentWaitEnd_keeps {a : State} (ia : BitVec 16) (ib : BitVec 16) (ic : BitVec 16) (s : State) (h : Keeps a s) : Keeps a (currentWaitEnd ia ib ic s) := by
  unfold currentWaitEnd
  try dsimp only
  repeat' first
    | with_reducible first
        | assumption | intro _ | apply State.updSw_keeps | apply breakDuty_keeps | apply setF_keeps
        | apply readCurrents_keeps
    | split | dsimp only | assumption | exact Keeps.of_same (by assumption) rfl rfl rfl rfl rfl rfl rfl | intro _ | rfl

theorem otherCoilOff_keeps {a : State} (s : State) (h : Keeps a s) : Keeps a (otherCoilOff s) := by
  unfold otherCoilOff
  try dsimp only
  repeat' first
    | with_reducible first
        | assumption | intro _ | apply State.updSw_keeps | apply setCoil_keeps
    | split | dsimp only | assumption | exact Keeps.of_same (by assumption) rfl rfl rfl rfl rfl rfl rfl | intro _ | rfl

theorem disconnectFeedback_keeps {a : State} (live : BitVec 3) (s : State) (h : Keeps a s) : Keeps a (disconnectFeedback live s) := by
  unfold disconnectFeedback
  try dsimp only
  repeat' first
    | with_reducible first
        | assumption | intro _ | apply seeSupply_keeps | apply judgeOpening_keeps
    | split | dsimp only | assumption | exact Keeps.of_same (by assumption) rfl rfl rfl rfl rfl rfl rfl | intro _ | rfl

theorem openDelayLearn_keeps {a : State} (second : Bool) (delay : BitVec 16) (s : State) (h : Keeps a s) : Keeps a (openDelayLearn second delay s) := by
  unfold openDelayLearn
  try dsimp only
  repeat' first
    | with_reducible first
        | assumption | intro _ | apply State.updSw_keeps | apply incF_keeps
    | split | dsimp only | assumption | exact Keeps.of_same (by assumption) rfl rfl rfl rfl rfl rfl rfl | intro _ | rfl

theorem countLostBreak_keeps {a : State} (s : State) (h : Keeps a s) : Keeps a (countLostBreak s) := by
  unfold countLostBreak
  try dsimp only
  repeat' first
    | with_reducible first
        | assumption | intro _ | apply State.updSw_keeps | apply countBreak_keeps
    | split | dsimp only | assumption | exact Keeps.of_same (by assumption) rfl rfl rfl rfl rfl rfl rfl | intro _ | rfl

theorem setCause_keeps {a : State} (n : Fin 12) (c : ℕ) (s : State) (h : Keeps a s) : Keeps a (setCause n c s) := by
  unfold setCause
  try dsimp only
  repeat' first
    | with_reducible first
        | assumption | intro _ | apply setF_keeps
    | split | dsimp only | assumption | exact Keeps.of_same (by assumption) rfl rfl rfl rfl rfl rfl rfl | intro _ | rfl

theorem clearCauseOn_keeps {a : State} (n : Fin 12) (s : State) (h : Keeps a s) : Keeps a (clearCauseOn n s) := by
  unfold clearCauseOn
  try dsimp only
  repeat' first
    | with_reducible first
        | assumption | intro _ | apply setCause_keeps
    | split | dsimp only | assumption | exact Keeps.of_same (by assumption) rfl rfl rfl rfl rfl rfl rfl | intro _ | rfl

theorem putOutOn_keeps {a : State} (mask : ℕ) (s : State) (h : Keeps a s) : Keeps a (putOutOn mask s) := by
  unfold putOutOn
  try dsimp only
  repeat' first
    | with_reducible first
        | assumption | intro _ | apply clearCauseOn_keeps | apply outOn_keeps | apply foldl_keeps
    | split | dsimp only | assumption | exact Keeps.of_same (by assumption) rfl rfl rfl rfl rfl rfl rfl | intro _ | rfl

theorem putOutOff_keeps {a : State} (mask : ℕ) (s : State) (h : Keeps a s) : Keeps a (putOutOff mask s) := by
  unfold putOutOff
  try dsimp only
  repeat' first
    | with_reducible first
        | assumption | intro _ | apply openNow_keeps | apply outOff_keeps | apply foldl_keeps
    | split | dsimp only | assumption | exact Keeps.of_same (by assumption) rfl rfl rfl rfl rfl rfl rfl | intro _ | rfl

theorem latchOff_keeps {a : State} (n : Fin 12) (cause : ℕ) (s : State) (h : Keeps a s) : Keeps a (latchOff n cause s) := by
  unfold latchOff
  try dsimp only
  repeat' first
    | with_reducible first
        | assumption | intro _ | apply setCause_keeps | apply fenceOutputs_keeps | apply outOff_keeps
    | split | dsimp only | assumption | exact Keeps.of_same (by assumption) rfl rfl rfl rfl rfl rfl rfl | intro _ | rfl

theorem undervolt_keeps {a : State} (s : State) (h : Keeps a s) : Keeps a (undervolt s) := by
  unfold undervolt
  try dsimp only
  repeat' first
    | with_reducible first
        | assumption | intro _ | apply settle_keeps | apply supervisorStop_keeps | apply State.updPilot_keeps
        | apply openNow_keeps | apply setF_keeps | apply State.updSys_keeps | apply latchOff_keeps | apply foldl_keeps
    | split | dsimp only | assumption | exact Keeps.of_same (by assumption) rfl rfl rfl rfl rfl rfl rfl | intro _ | rfl

theorem vsysRecovered_keeps {a : State} (s : State) (h : Keeps a s) : Keeps a (vsysRecovered s) := by
  unfold vsysRecovered
  try dsimp only
  repeat' first
    | with_reducible first
        | assumption | intro _ | apply settle_keeps | apply setF_keeps | apply State.updSys_keeps
    | split | dsimp only | assumption | exact Keeps.of_same (by assumption) rfl rfl rfl rfl rfl rfl rfl | intro _ | rfl

theorem openLoad_keeps {a : State} (n : Fin 12) (reading : BitVec 16) (s : State) (h : Keeps a s) : Keeps a (openLoad n reading s) := by
  unfold openLoad
  try dsimp only
  repeat' first
    | with_reducible first
        | assumption | intro _ | apply setCause_keeps | apply raiseHw_keeps
    | split | dsimp only | assumption | exact Keeps.of_same (by assumption) rfl rfl rfl rfl rfl rfl rfl | intro _ | rfl

theorem governorAct_keeps {a : State} (s : State) (h : Keeps a s) : Keeps a (governorAct s) := by
  unfold governorAct
  try dsimp only
  repeat' first
    | with_reducible first
        | assumption | intro _ | apply raiseHw_keeps | apply setF_keeps | apply incF_keeps | apply latchOff_keeps
    | split | dsimp only | assumption | exact Keeps.of_same (by assumption) rfl rfl rfl rfl rfl rfl rfl | intro _ | rfl

theorem modNode_keeps {a : State} (c : ℕ) (f : Node → Node) (s : State) (h : Keeps a s) : Keeps a (modNode c f s) := by
  unfold modNode
  try dsimp only
  repeat' first
    | with_reducible first
        | assumption | intro _ | apply State.updLink_keeps
    | split | dsimp only | assumption | exact Keeps.of_same (by assumption) rfl rfl rfl rfl rfl rfl rfl | intro _ | rfl

theorem modChan_keeps {a : State} (c : ℕ) (f : Chan → Chan) (s : State) (h : Keeps a s) : Keeps a (modChan c f s) := by
  unfold modChan
  try dsimp only
  repeat' first
    | with_reducible first
        | assumption | intro _ | apply State.updAlloc_keeps
    | split | dsimp only | assumption | exact Keeps.of_same (by assumption) rfl rfl rfl rfl rfl rfl rfl | intro _ | rfl

theorem lowerToGrant_keeps {a : State} (s : State) (h : Keeps a s) : Keeps a (lowerToGrant s) := by
  unfold lowerToGrant
  try dsimp only
  repeat' first
    | with_reducible first
        | assumption | intro _ | apply fence_keeps | apply allocate_keeps
    | split | dsimp only | assumption | exact Keeps.of_same (by assumption) rfl rfl rfl rfl rfl rfl rfl | intro _ | rfl

theorem chooseLead_keeps {a : State} (c : ℕ) (s : State) (h : Keeps a s) : Keeps a (chooseLead c s) := by
  unfold chooseLead
  try dsimp only
  repeat' first
    | with_reducible first
        | assumption | intro _ | apply modNode_keeps | apply risingFrom_filter | apply mapWf_filter
    | split | dsimp only | assumption | exact Keeps.of_same (by assumption) rfl rfl rfl rfl rfl rfl rfl | intro _ | rfl

theorem learnHop_keeps {a : State} (h_ : Hop) (s : State) (h : Keeps a s) : Keeps a (learnHop h_ s) := by
  unfold learnHop
  try dsimp only
  repeat' first
    | with_reducible first
        | assumption | intro _ | apply State.updLink_keeps
    | split | dsimp only | assumption | exact Keeps.of_same (by assumption) rfl rfl rfl rfl rfl rfl rfl | intro _ | rfl

theorem publish_keeps {a : State} (kind : ℕ) (bytes : List Byte) (members : List ℕ) (front : Bool) (s : State) (h : Keeps a s) : Keeps a (publish kind bytes members front s) := by
  unfold publish
  try dsimp only
  repeat' first
    | with_reducible first
        | assumption | intro _ | apply State.updLink_keeps
    | split | dsimp only | assumption | exact Keeps.of_same (by assumption) rfl rfl rfl rfl rfl rfl rfl | intro _ | rfl

theorem storePut_keeps {a : State} (a_ : ℕ) (bs : List Byte) (s : State) (h : Keeps a s) : Keeps a (storePut a_ bs s) := by
  unfold storePut
  try dsimp only
  repeat' first
    | with_reducible first
        | assumption | intro _ | apply State.updStore_keeps | apply mapWf_putBytes
    | split | dsimp only | assumption | exact Keeps.of_same (by assumption) rfl rfl rfl rfl rfl rfl rfl | intro _ | rfl

theorem storeErase_keeps {a : State} (a_ : ℕ) (n : ℕ) (s : State) (h : Keeps a s) : Keeps a (storeErase a_ n s) := by
  unfold storeErase
  try dsimp only
  repeat' first
    | with_reducible first
        | assumption | intro _ | apply State.updStore_keeps | apply copyOnWrite_keeps | apply risingFrom_filter
        | apply mapWf_filter
    | split | dsimp only | assumption | exact Keeps.of_same (by assumption) rfl rfl rfl rfl rfl rfl rfl | intro _ | rfl

theorem storeOver_keeps {a : State} (a_ : ℕ) (bs : List Byte) (s : State) (h : Keeps a s) : Keeps a (storeOver a_ bs s) := by
  unfold storeOver
  try dsimp only
  repeat' first
    | with_reducible first
        | assumption | intro _ | apply storePut_keeps | apply copyOnWrite_keeps
    | split | dsimp only | assumption | exact Keeps.of_same (by assumption) rfl rfl rfl rfl rfl rfl rfl | intro _ | rfl

theorem modFw_keeps {a : State} (k : ℕ) (f : FwSlot → FwSlot) (s : State) (h : Keeps a s) : Keeps a (modFw k f s) := by
  unfold modFw
  try dsimp only
  repeat' first
    | with_reducible first
        | assumption | intro _ | apply State.updStore_keeps
    | split | dsimp only | assumption | exact Keeps.of_same (by assumption) rfl rfl rfl rfl rfl rfl rfl | intro _ | rfl

theorem setShadows_keeps {a : State} (ls : List ℕ) (s : State) (h : Keeps a s) : Keeps a (setShadows ls s) := by
  unfold setShadows
  try dsimp only
  repeat' first
    | with_reducible first
        | assumption | intro _ | apply updDie_keeps | apply foldl_keeps | apply risingFrom_filter | apply mapWf_filter
    | split | dsimp only | assumption | exact Keeps.of_same (by assumption) rfl rfl rfl rfl rfl rfl rfl | intro _ | rfl

theorem openSlot_keeps {a : State} (s : State) (h : Keeps a s) : Keeps a (openSlot s) := by
  unfold openSlot
  try dsimp only
  repeat' first
    | with_reducible first
        | assumption | intro _ | apply modFw_keeps | apply storeErase_keeps
    | split | dsimp only | assumption | exact Keeps.of_same (by assumption) rfl rfl rfl rfl rfl rfl rfl | intro _ | rfl

theorem verifySlot_keeps {a : State} (s : State) (h : Keeps a s) : Keeps a (verifySlot s) := by
  unfold verifySlot
  try dsimp only
  repeat' first
    | with_reducible first
        | assumption | intro _ | apply modFw_keeps
    | split | dsimp only | assumption | exact Keeps.of_same (by assumption) rfl rfl rfl rfl rfl rfl rfl | intro _ | rfl

theorem noteForme_keeps {a : State} (pending : Bool) (new : Bool) (s : State) (h : Keeps a s) : Keeps a (noteForme pending new s) := by
  unfold noteForme
  try dsimp only
  repeat' first
    | with_reducible first
        | assumption | intro _ | apply State.updStore_keeps | apply State.updCap_keeps
    | split | dsimp only | assumption | with_reducible exact CapKeeps.refl _
    | exact Keeps.of_same (by assumption) rfl rfl rfl rfl rfl rfl rfl | intro _ | rfl

theorem checkForme_keeps {a : State} (s : State) (h : Keeps a s) : Keeps a (checkForme s) := by
  unfold checkForme
  try dsimp only
  repeat' first
    | with_reducible first
        | assumption | intro _ | apply noteForme_keeps | apply setF_keeps
    | split | dsimp only | assumption | exact Keeps.of_same (by assumption) rfl rfl rfl rfl rfl rfl rfl | intro _ | rfl

theorem transmit_keeps {a : State} (f : TxFrame) (s : State) (h : Keeps a s) : Keeps a (transmit f s) := by
  unfold transmit
  try dsimp only
  repeat' first
    | with_reducible first
        | assumption | intro _ | apply boundary_keeps | apply State.updLink_keeps
    | split | dsimp only | assumption | exact Keeps.of_same (by assumption) rfl rfl rfl rfl rfl rfl rfl | intro _ | rfl

theorem receive_keeps {a : State} (input : List (BitVec 16)) (s : State) (h : Keeps a s) : Keeps a (receive input s) := by
  unfold receive
  try dsimp only
  repeat' first
    | with_reducible first
        | assumption | intro _ | apply setF_keeps
    | split | dsimp only | assumption | exact Keeps.of_same (by assumption) rfl rfl rfl rfl rfl rfl rfl | intro _ | rfl

theorem updPl_keeps {a : State} (f : Plt → Plt) (s : State) (h : Keeps a s) : Keeps a (updPl f s) := by
  unfold updPl
  try dsimp only
  repeat' first
    | with_reducible first
        | assumption | intro _ | apply State.updPlt_keeps
    | split | dsimp only | assumption | exact Keeps.of_same (by assumption) rfl rfl rfl rfl rfl rfl rfl | intro _ | rfl

theorem plRequest_keeps {a : State} (u : Upd) (s : State) (h : Keeps a s) : Keeps a (plRequest u s) := by
  unfold plRequest
  try dsimp only
  repeat' first
    | with_reducible first
        | assumption | intro _ | apply updPl_keeps | apply risingFrom_filter | apply mapWf_filter
    | split | dsimp only | assumption | exact Keeps.of_same (by assumption) rfl rfl rfl rfl rfl rfl rfl | intro _ | rfl

theorem legalRefused_keeps {a : State} (s : State) (h : Keeps a s) : Keeps a (legalRefused s) := by
  unfold legalRefused
  try dsimp only
  repeat' first
    | with_reducible first
        | assumption | intro _ | apply setF_keeps
    | split | dsimp only | assumption | exact Keeps.of_same (by assumption) rfl rfl rfl rfl rfl rfl rfl | intro _ | rfl

theorem portImage_keeps {a : State} (n : Fin 320) (arg : Word) (v : ℕ) (s : State) (h : Keeps a s) : Keeps a (portImage n arg v s).2 := by
  unfold portImage
  try dsimp only
  repeat' first
    | with_reducible first
        | assumption | intro _ | apply freeWide_keeps | refine freeWide_keeps' (by assumption) ?_
    | split | dsimp only | assumption | exact Keeps.of_same (by assumption) rfl rfl rfl rfl rfl rfl rfl | intro _ | rfl

theorem portImage_keeps' {a t : State} {n : Fin 320} {arg : Word} {v : ℕ} {s : State} {v0} (e : portImage n arg v s = (v0, t)) (h : Keeps a s) : Keeps a t := by
  have q := portImage_keeps (a := a) n arg v s h
  rw [e] at q
  exact q

theorem portRequest_keeps {a : State} (region : ℕ) (f : State → State) (s : State) (hf : ∀ b, Keeps a b → Keeps a (f b)) (h : Keeps a s) : Keeps a (portRequest region f s) := by
  unfold portRequest
  try dsimp only
  repeat' first
    | with_reducible first
        | assumption | intro _ | apply legalRefused_keeps | apply hf
    | split | dsimp only | assumption | exact Keeps.of_same (by assumption) rfl rfl rfl rfl rfl rfl rfl | intro _ | rfl

theorem proofDraw_keeps {a : State} (n : Fin 320) (arg : Word) (v : ℕ) (s : State) (h : Keeps a s) : Keeps a (proofDraw n arg v s) := by
  unfold proofDraw
  try dsimp only
  repeat' first
    | with_reducible first
        | assumption | intro _ | apply portRequest_keeps | apply portImage_keeps
        | refine portImage_keeps' (by assumption) ?_ | apply plRequest_keeps
    | split | dsimp only | assumption | exact Keeps.of_same (by assumption) rfl rfl rfl rfl rfl rfl rfl | intro _ | rfl

theorem platenCommit_keeps {a : State} (n : Fin 320) (arg : Word) (v : ℕ) (s : State) (h : Keeps a s) : Keeps a (platenCommit n arg v s) := by
  unfold platenCommit
  try dsimp only
  repeat' first
    | with_reducible first
        | assumption | intro _ | apply portRequest_keeps | apply portImage_keeps
        | refine portImage_keeps' (by assumption) ?_ | apply plRequest_keeps
    | split | dsimp only | assumption | exact Keeps.of_same (by assumption) rfl rfl rfl rfl rfl rfl rfl | intro _ | rfl

theorem platenClear_keeps {a : State} (v : ℕ) (s : State) (h : Keeps a s) : Keeps a (platenClear v s) := by
  unfold platenClear
  try dsimp only
  repeat' first
    | with_reducible first
        | assumption | intro _ | apply portRequest_keeps | apply plRequest_keeps
    | split | dsimp only | assumption | exact Keeps.of_same (by assumption) rfl rfl rfl rfl rfl rfl rfl | intro _ | rfl

theorem plCmd_keeps {a : State} (mode : ℕ) (region : ℕ) (asset : ℕ) (s : State) (h : Keeps a s) : Keeps a (plCmd mode region asset s).2 := by
  unfold plCmd
  try dsimp only
  repeat' first
    | with_reducible first
        | assumption | intro _ | apply State.cap_capKeeps | apply legalRefused_keeps | apply plRequest_keeps
    | split | dsimp only | assumption
    | (refine CapKeeps.of_same rfl rfl rfl ?_; with_reducible first | assumption | apply State.cap_capKeeps)
    | exact Keeps.of_same (by assumption) rfl rfl rfl rfl rfl rfl rfl | intro _ | rfl

theorem plCmd_keeps' {a t : State} {mode : ℕ} {region : ℕ} {asset : ℕ} {s : State} {v0} (e : plCmd mode region asset s = (v0, t)) (h : Keeps a s) : Keeps a t := by
  have q := plCmd_keeps (a := a) mode region asset s h
  rw [e] at q
  exact q

theorem modImage_keeps {a : State} (k : ℕ) (f : LastImage → LastImage) (s : State) (h : Keeps a s) : Keeps a (modImage k f s) := by
  unfold modImage
  try dsimp only
  repeat' first
    | with_reducible first
        | assumption | intro _ | apply updPl_keeps
    | split | dsimp only | assumption | exact Keeps.of_same (by assumption) rfl rfl rfl rfl rfl rfl rfl | intro _ | rfl

theorem proofGone_keeps {a : State} (k : ℕ) (s : State) (h : Keeps a s) : Keeps a (proofGone k s) := by
  unfold proofGone
  try dsimp only
  repeat' first
    | with_reducible first
        | assumption | intro _ | apply modImage_keeps | apply updPl_keeps | apply risingFrom_filter
        | apply mapWf_filter
    | split | dsimp only | assumption | exact Keeps.of_same (by assumption) rfl rfl rfl rfl rfl rfl rfl | intro _ | rfl

theorem proofPie_keeps {a : State} (n : Fin 320) (s : State) (h : Keeps a s) : Keeps a (proofPie n s) := by
  unfold proofPie
  try dsimp only
  repeat' first
    | with_reducible first
        | assumption | intro _ | apply updPl_keeps | apply plRequest_keeps | apply foldl_keeps
        | apply risingFrom_filter | apply mapWf_filter
    | split | dsimp only | assumption | exact Keeps.of_same (by assumption) rfl rfl rfl rfl rfl rfl rfl | intro _ | rfl

theorem proofLock_keeps {a : State} (n : Fin 320) (s : State) (h : Keeps a s) : Keeps a (proofLock n s) := by
  unfold proofLock
  try dsimp only
  repeat' first
    | with_reducible first
        | assumption | intro _ | apply updPl_keeps | apply risingFrom_filter | apply mapWf_filter
    | split | dsimp only | assumption | exact Keeps.of_same (by assumption) rfl rfl rfl rfl rfl rfl rfl | intro _ | rfl

theorem plFault_keeps {a : State} (code : ℕ) (s : State) (h : Keeps a s) : Keeps a (plFault code s) := by
  unfold plFault
  try dsimp only
  repeat' first
    | with_reducible first
        | assumption | intro _ | apply setF_keeps
    | split | dsimp only | assumption | exact Keeps.of_same (by assumption) rfl rfl rfl rfl rfl rfl rfl | intro _ | rfl

theorem stopAll_keeps {a : State} (s : State) (h : Keeps a s) : Keeps a (stopAll s) := by
  unfold stopAll
  try dsimp only
  repeat' first
    | with_reducible first
        | assumption | intro _ | apply updPl_keeps | apply risingFrom_filter | apply mapWf_filter
    | split | dsimp only | assumption | exact Keeps.of_same (by assumption) rfl rfl rfl rfl rfl rfl rfl | intro _ | rfl

theorem panelOff_keeps {a : State} (s : State) (h : Keeps a s) : Keeps a (panelOff s) := by
  unfold panelOff
  try dsimp only
  repeat' first
    | with_reducible first
        | assumption | intro _ | apply updPl_keeps
    | split | dsimp only | assumption | exact Keeps.of_same (by assumption) rfl rfl rfl rfl rfl rfl rfl | intro _ | rfl

theorem crackFail_keeps {a : State} (s : State) (h : Keeps a s) : Keeps a (crackFail s) := by
  unfold crackFail
  try dsimp only
  repeat' first
    | with_reducible first
        | assumption | intro _ | apply raiseHw_keeps | apply setF_keeps | apply stopAll_keeps | apply panelOff_keeps
        | apply updPl_keeps | apply plFault_keeps
    | split | dsimp only | assumption | exact Keeps.of_same (by assumption) rfl rfl rfl rfl rfl rfl rfl | intro _ | rfl

theorem powerFail_keeps {a : State} (regions : List ℕ) (s : State) (h : Keeps a s) : Keeps a (powerFail regions s) := by
  unfold powerFail
  try dsimp only
  repeat' first
    | with_reducible first
        | assumption | intro _ | apply setF_keeps | apply stopAll_keeps | apply panelOff_keeps | apply updPl_keeps
        | apply plFault_keeps | apply risingFrom_filter | apply mapWf_filter
    | split | dsimp only | assumption | exact Keeps.of_same (by assumption) rfl rfl rfl rfl rfl rfl rfl | intro _ | rfl

theorem recoverAll_keeps {a : State} (ks : List ℕ) (s : State) (h : Keeps a s) : Keeps a (recoverAll ks s) := by
  unfold recoverAll
  try dsimp only
  repeat' first
    | with_reducible first
        | assumption | intro _ | apply plRequest_keeps | apply foldl_keeps
    | split | dsimp only | assumption | exact Keeps.of_same (by assumption) rfl rfl rfl rfl rfl rfl rfl | intro _ | rfl

theorem crackTestIdle_keeps {a : State} (passes : Bool) (s : State) (h : Keeps a s) : Keeps a (crackTestIdle passes s) := by
  unfold crackTestIdle
  try dsimp only
  repeat' first
    | with_reducible first
        | assumption | intro _ | apply recoverAll_keeps | apply setF_keeps | apply crackFail_keeps | apply updPl_keeps
        | apply risingFrom_filter | apply mapWf_filter
    | split | dsimp only | assumption | exact Keeps.of_same (by assumption) rfl rfl rfl rfl rfl rfl rfl | intro _ | rfl

theorem takeTemp_keeps {a : State} (t_ : BitVec 16) (s : State) (h : Keeps a s) : Keeps a (takeTemp t_ s) := by
  unfold takeTemp
  try dsimp only
  repeat' first
    | with_reducible first
        | assumption | intro _ | apply setB_keeps | apply setF_keeps
    | split | dsimp only | assumption | exact Keeps.of_same (by assumption) rfl rfl rfl rfl rfl rfl rfl | intro _ | rfl

theorem driftCheck_keeps {a : State} (s : State) (h : Keeps a s) : Keeps a (driftCheck s) := by
  unfold driftCheck
  try dsimp only
  repeat' first
    | with_reducible first
        | assumption | intro _ | apply setF_keeps | apply updPl_keeps
    | split | dsimp only | assumption | exact Keeps.of_same (by assumption) rfl rfl rfl rfl rfl rfl rfl | intro _ | rfl

theorem dropWaiting_keeps {a : State} (u : Upd) (s : State) (h : Keeps a s) : Keeps a (dropWaiting u s) := by
  unfold dropWaiting
  try dsimp only
  repeat' first
    | with_reducible first
        | assumption | intro _ | apply updPl_keeps
    | split | dsimp only | assumption | exact Keeps.of_same (by assumption) rfl rfl rfl rfl rfl rfl rfl | intro _ | rfl

theorem setTargets_keeps {a : State} (ts : List (ℕ × BitVec 4)) (s : State) (h : Keeps a s) : Keeps a (setTargets ts s) := by
  unfold setTargets
  try dsimp only
  repeat' first
    | with_reducible first
        | assumption | intro _ | apply updPl_keeps | apply foldl_keeps | apply risingFrom_mapSet (Nat.zero_le _)
        | apply mapWf_mapSet | apply mapWf_foldl_mapSet
    | split | dsimp only | assumption | exact Keeps.of_same (by assumption) rfl rfl rfl rfl rfl rfl rfl | intro _ | rfl

theorem beginUpd_keeps {a : State} (u : Upd) (s : State) (h : Keeps a s) : Keeps a (beginUpd u s) := by
  unfold beginUpd
  try dsimp only
  repeat' first
    | with_reducible first
        | assumption | intro _ | apply setTargets_keeps | apply setF_keeps | apply updPl_keeps
        | apply risingFrom_filter | apply mapWf_filter
    | split | dsimp only | assumption | exact Keeps.of_same (by assumption) rfl rfl rfl rfl rfl rfl rfl | intro _ | rfl

theorem proofBegins_keeps {a : State} (u : Upd) (s : State) (h : Keeps a s) : Keeps a (proofBegins u s) := by
  unfold proofBegins
  try dsimp only
  repeat' first
    | with_reducible first
        | assumption | intro _ | apply modImage_keeps | apply updPl_keeps | apply foldl_keeps
    | split | dsimp only | assumption | exact Keeps.of_same (by assumption) rfl rfl rfl rfl rfl rfl rfl | intro _ | rfl

theorem startUpd_keeps {a : State} (u : Upd) (s : State) (h : Keeps a s) : Keeps a (startUpd u s) := by
  unfold startUpd
  try dsimp only
  repeat' first
    | with_reducible first
        | assumption | intro _ | apply proofBegins_keeps | apply setF_keeps | apply beginUpd_keeps
        | apply proofGone_keeps
    | split | dsimp only | assumption | exact Keeps.of_same (by assumption) rfl rfl rfl rfl rfl rfl rfl | intro _ | rfl

theorem updateStart_keeps {a : State} (crackOk : Bool) (powerGood : Bool) (s : State) (h : Keeps a s) : Keeps a (updateStart crackOk powerGood s) := by
  unfold updateStart
  try dsimp only
  repeat' first
    | with_reducible first
        | assumption | intro _ | apply startUpd_keeps | apply powerFail_keeps | apply boundary_keeps
        | apply dropWaiting_keeps | apply setF_keeps | apply crackFail_keeps | apply updPl_keeps | apply plFault_keeps
    | split | dsimp only | assumption | exact Keeps.of_same (by assumption) rfl rfl rfl rfl rfl rfl rfl | intro _ | rfl

theorem endUpd_keeps {a : State} (u : Upd) (s : State) (h : Keeps a s) : Keeps a (endUpd u s) := by
  unfold endUpd
  try dsimp only
  repeat' first
    | with_reducible first
        | assumption | intro _ | apply modImage_keeps | apply raiseHw_keeps | apply setF_keeps | apply panelOff_keeps
        | apply proofGone_keeps | apply updPl_keeps | apply plRequest_keeps | apply foldl_keeps
        | apply risingFrom_mapSet (Nat.zero_le _) | apply mapWf_mapSet | apply mapWf_foldl_mapSet
        | apply risingFrom_filter | apply mapWf_filter
    | split | dsimp only | assumption | exact Keeps.of_same (by assumption) rfl rfl rfl rfl rfl rfl rfl | intro _ | rfl

theorem afterClearing_keeps {a : State} (u : Upd) (s : State) (h : Keeps a s) : Keeps a (afterClearing u s) := by
  unfold afterClearing
  try dsimp only
  repeat' first
    | with_reducible first
        | assumption | intro _ | apply updPl_keeps | apply foldl_keeps | apply risingFrom_mapSet (Nat.zero_le _)
        | apply mapWf_mapSet | apply mapWf_foldl_mapSet
    | split | dsimp only | assumption | exact Keeps.of_same (by assumption) rfl rfl rfl rfl rfl rfl rfl | intro _ | rfl

theorem afterStop_keeps {a : State} (u : Upd) (s : State) (h : Keeps a s) : Keeps a (afterStop u s) := by
  unfold afterStop
  try dsimp only
  repeat' first
    | with_reducible first
        | assumption | intro _ | apply updPl_keeps | apply plRequest_keeps | apply risingFrom_filter
        | apply mapWf_filter
    | split | dsimp only | assumption | exact Keeps.of_same (by assumption) rfl rfl rfl rfl rfl rfl rfl | intro _ | rfl

theorem frameOf_keeps {a : State} (u : Upd) (s : State) (h : Keeps a s) : Keeps a (frameOf u s) := by
  unfold frameOf
  try dsimp only
  repeat' first
    | with_reducible first
        | assumption | intro _ | apply afterStop_keeps | apply updPl_keeps | apply endUpd_keeps
        | apply afterClearing_keeps | apply foldl_keeps | apply risingFrom_mapSet (Nat.zero_le _) | apply mapWf_mapSet
        | apply mapWf_foldl_mapSet
    | split | dsimp only | assumption | exact Keeps.of_same (by assumption) rfl rfl rfl rfl rfl rfl rfl | intro _ | rfl

theorem frameChecks_keeps {a : State} (mismatch : Bool) (s : State) (h : Keeps a s) : Keeps a (frameChecks mismatch s) := by
  unfold frameChecks
  try dsimp only
  repeat' first
    | with_reducible first
        | assumption | intro _ | apply raiseHw_keeps | apply setF_keeps | apply incF_keeps | apply stopAll_keeps
        | apply updPl_keeps | apply plFault_keeps | apply risingFrom_filter | apply mapWf_filter
    | split | dsimp only | assumption | exact Keeps.of_same (by assumption) rfl rfl rfl rfl rfl rfl rfl | intro _ | rfl

theorem panelFrame_keeps {a : State} (crackOk : Bool) (mismatch : Bool) (t_ : BitVec 16) (s : State) (h : Keeps a s) : Keeps a (panelFrame crackOk mismatch t_ s) := by
  unfold panelFrame
  try dsimp only
  repeat' first
    | with_reducible first
        | assumption | intro _ | apply frameOf_keeps | apply boundary_keeps | apply takeTemp_keeps
        | apply frameChecks_keeps | apply crackFail_keeps | apply updPl_keeps | apply driftCheck_keeps
        | apply foldl_keeps
    | split | dsimp only | assumption | exact Keeps.of_same (by assumption) rfl rfl rfl rfl rfl rfl rfl | intro _ | rfl

theorem loadTrims_keeps {a : State} (s : State) (h : Keeps a s) : Keeps a (loadTrims s) := by
  unfold loadTrims
  try dsimp only
  repeat' first
    | with_reducible first
        | assumption | intro _ | apply updPl_keeps
    | split | dsimp only | assumption | exact Keeps.of_same (by assumption) rfl rfl rfl rfl rfl rfl rfl | intro _ | rfl

theorem rebuildRegion_keeps {a : State} (k : ℕ) (s : State) (h : Keeps a s) : Keeps a (rebuildRegion k s) := by
  unfold rebuildRegion
  try dsimp only
  repeat' first
    | with_reducible first
        | assumption | intro _ | apply updPl_keeps | apply foldl_keeps | apply risingFrom_mapSet (Nat.zero_le _)
        | apply mapWf_mapSet | apply mapWf_foldl_mapSet
    | split | dsimp only | assumption | exact Keeps.of_same (by assumption) rfl rfl rfl rfl rfl rfl rfl | intro _ | rfl

theorem platenStart_keeps {a : State} (s : State) (h : Keeps a s) : Keeps a (platenStart s) := by
  unfold platenStart
  try dsimp only
  repeat' first
    | with_reducible first
        | assumption | intro _ | apply rebuildRegion_keeps | apply recoverAll_keeps | apply updPl_keeps
        | apply foldl_keeps | apply risingFrom_filter | apply mapWf_filter
    | split | dsimp only | assumption | exact Keeps.of_same (by assumption) rfl rfl rfl rfl rfl rfl rfl | intro _ | rfl

theorem legalDraw_keeps {a : State} (s : State) (h : Keeps a s) : Keeps a (legalDraw s) := by
  unfold legalDraw
  try dsimp only
  repeat' first
    | with_reducible first
        | assumption | intro _ | apply plRequest_keeps
    | split | dsimp only | assumption | exact Keeps.of_same (by assumption) rfl rfl rfl rfl rfl rfl rfl | intro _ | rfl

theorem putTimer_keeps {a : State} (n : Fin 320) (v : ℕ) (s : State) (h : Keeps a s) : Keeps a (putTimer n v s) := by
  unfold putTimer
  try dsimp only
  repeat' first
    | with_reducible first
        | assumption | intro _ | apply modS_keeps
    | split | dsimp only | assumption | exact Keeps.of_same (by assumption) rfl rfl rfl rfl rfl rfl rfl | intro _ | rfl

theorem portWrite0_keeps {a : State} (n : Fin 320) (port : ℕ) (arg : ℕ) (v : ℕ) (s : State) (h : Keeps a s) : Keeps a (portWrite0 n port arg v s) := by
  unfold portWrite0
  try dsimp only
  repeat' first
    | with_reducible first
        | assumption | intro _ | apply pilotRelease_keeps | apply putOffer_keeps | apply putPwm_keeps
        | apply putHlc_keeps | apply pilotStop_keeps | apply formeTrip_keeps | apply limitPut_keeps
        | apply askTest_keeps | apply pilotF_keeps | apply reclose_keeps | apply lockCommand_keeps
        | apply allocate_keeps | apply putTimer_keeps
    | split | dsimp only | assumption | exact Keeps.of_same (by assumption) rfl rfl rfl rfl rfl rfl rfl | intro _ | rfl

theorem portWrite4_keeps {a : State} (n : Fin 320) (port : ℕ) (arg : Word) (v : ℕ) (s : State) (h : Keeps a s) : Keeps a (portWrite4 n port arg v s) := by
  unfold portWrite4
  try dsimp only
  repeat' first
    | with_reducible first
        | assumption | intro _ | apply State.updRd_keeps | apply putOutOn_keeps | apply modChan_keeps
        | apply platenCommit_keeps | apply putCloseReq_keeps | apply setF_keeps | apply putOutOff_keeps
        | apply proofDraw_keeps | apply putContOpen_keeps | apply platenClear_keeps
    | split | dsimp only | assumption | exact Keeps.of_same (by assumption) rfl rfl rfl rfl rfl rfl rfl | intro _ | rfl

theorem portWrite_keeps {a : State} (n : Fin 320) (port : ℕ) (arg : Word) (v : ℕ) (s : State) (h : Keeps a s) : Keeps a (portWrite n port arg v s) := by
  unfold portWrite
  try dsimp only
  repeat' first
    | with_reducible first
        | assumption | intro _ | apply portWrite0_keeps | apply portWrite4_keeps
    | split | dsimp only | assumption | exact Keeps.of_same (by assumption) rfl rfl rfl rfl rfl rfl rfl | intro _ | rfl

end Sys2Proof.Machine
end

