-- ==== Sys2Proof/Laws/KeepsCapstan.lean ====
section
/-! SUPPORT. One lemma per operation of the Capstan, its instructions, the high-level link and the ledger: what `Keeps` says of it. -/
namespace Sys2Proof.Machine

theorem Cap.dropHead_capKeeps {a : Cap} (c : Cap) (h : CapKeeps a c) : CapKeeps a (Cap.dropHead c) := by
  unfold Cap.dropHead
  try dsimp only
  repeat' first
    | with_reducible first
        | assumption | intro _
    | split | dsimp only | assumption | with_reducible exact CapKeeps.refl _ | intro _ | rfl

theorem Cap.nextClass_capKeeps {a : Cap} (ws : Vector ℕ 3) (c : Cap) (h : CapKeeps a c) : CapKeeps a (Cap.nextClass ws c) := by
  unfold Cap.nextClass
  try dsimp only
  repeat' first
    | with_reducible first
        | assumption | intro _
    | split | dsimp only | assumption | with_reducible exact CapKeeps.refl _ | intro _ | rfl

theorem Cap.pickClass_capKeeps {a : Cap} (ws : Vector Nat 3) (k : Nat) (c : Cap) (h : CapKeeps a c) :
    CapKeeps a (Cap.pickClass ws k c).1 := by
  induction k generalizing c with
  | zero => exact h
  | succ k ih =>
    unfold Cap.pickClass
    split
    · exact CapKeeps.of_same (c := c.dropHead) rfl rfl rfl (Cap.dropHead_capKeeps c h)
    · exact ih _ (Cap.nextClass_capKeeps ws c h)

theorem Cap.pickClass_capKeeps' {a t : Cap} {ws : Vector Nat 3} {k : Nat} {c : Cap} {v0} (e : Cap.pickClass ws k c = (t, v0))
    (h : CapKeeps a c) : CapKeeps a t := by
  have q := Cap.pickClass_capKeeps ws k c h
  rw [e] at q
  exact q

theorem Cap.start_capKeeps {a : Cap} (turn : ℕ) (n : Fin 320) (c : Cap) (h : CapKeeps a c) : CapKeeps a (Cap.start turn n c) := by
  unfold Cap.start
  try dsimp only
  repeat' first
    | with_reducible first
        | assumption | intro _ | apply Cap.modStrand_capKeeps
    | split | dsimp only | assumption | with_reducible exact CapKeeps.refl _
    | (refine CapKeeps.of_same rfl rfl rfl ?_; with_reducible first | assumption | apply Cap.modStrand_capKeeps)
    | intro _ | rfl

theorem Cap.endTurn_capKeeps {a : Cap} (n : Fin 320) (c : Cap) (h : CapKeeps a c) : CapKeeps a (Cap.endTurn n c) := by
  unfold Cap.endTurn
  try dsimp only
  repeat' first
    | with_reducible first
        | assumption | intro _ | apply Cap.join_capKeeps | apply Cap.leave_capKeeps | apply Cap.modStrand_capKeeps
    | split | dsimp only | assumption | with_reducible exact CapKeeps.refl _
    | (refine CapKeeps.of_same rfl rfl rfl ?_; with_reducible first | assumption | apply Cap.join_capKeeps | apply Cap.leave_capKeeps | apply Cap.modStrand_capKeeps)
    | intro _ | rfl

theorem Cap.dueTurnEnd_capKeeps {a : Cap} (c : Cap) (h : CapKeeps a c) : CapKeeps a (Cap.dueTurnEnd c) := by
  unfold Cap.dueTurnEnd
  try dsimp only
  repeat' first
    | with_reducible first
        | assumption | intro _ | apply Cap.endTurn_capKeeps
    | split | dsimp only | assumption | with_reducible exact CapKeeps.refl _
    | (refine CapKeeps.of_same rfl rfl rfl ?_; with_reducible first | assumption | apply Cap.endTurn_capKeeps)
    | intro _ | rfl

theorem Cap.schedule_capKeeps {a : Cap} (turn : Nat) (ws : Vector Nat 3) (c : Cap) (h : CapKeeps a c) :
    CapKeeps a (Cap.schedule turn ws c) := by
  unfold Cap.schedule
  have h1 := Cap.dueTurnEnd_capKeeps c h
  extract_lets d busy
  have hd : CapKeeps a d := h1
  split
  · exact hd
  · split
    · exact Cap.start_capKeeps _ _ _ (CapKeeps.of_same (c := d) rfl rfl rfl hd)
    · split
      · exact CapKeeps.of_same (c := d) rfl rfl rfl hd
      · split
        · next e => exact Cap.start_capKeeps _ _ _ (Cap.pickClass_capKeeps' e hd)
        · next e => exact Cap.pickClass_capKeeps' e hd

theorem grant_keeps' {a t : State} {n : Fin 320} {s : State} (e : grant n s = some t) (h : Keeps a s) : Keeps a t := by
  unfold grant at e
  split at e
  · cases e
  · dsimp only at e
    split at e
    · cases e
      exact State.updCap_keeps h fun c => Cap.schedule_capKeeps _ _ c (CapKeeps.refl c)
    · cases e

theorem Cap.stopIn_capKeeps {a : Cap} (st : StrandState) (n : Fin 320) (c : Cap) (h : CapKeeps a c) : CapKeeps a (Cap.stopIn st n c) := by
  unfold Cap.stopIn
  try dsimp only
  repeat' first
    | with_reducible first
        | assumption | intro _ | apply Cap.leave_capKeeps | apply Cap.modStrand_capKeeps
    | split | dsimp only | assumption | with_reducible exact CapKeeps.refl _
    | (refine CapKeeps.of_same rfl rfl rfl ?_; with_reducible first | assumption | apply Cap.leave_capKeeps | apply Cap.modStrand_capKeeps)
    | intro _ | rfl

theorem blockOn_keeps {a : State} (b : Block) (n : Fin 320) (s : State) (h : Keeps a s) : Keeps a (blockOn b n s) := by
  unfold blockOn
  try dsimp only
  repeat' first
    | with_reducible first
        | assumption | intro _ | apply Cap.modStrand_capKeeps | apply Cap.stopIn_capKeeps | apply State.updCap_keeps
    | split | dsimp only | assumption | with_reducible exact CapKeeps.refl _
    | (refine CapKeeps.of_same rfl rfl rfl ?_; with_reducible first | assumption | apply Cap.modStrand_capKeeps | apply Cap.stopIn_capKeeps)
    | exact Keeps.of_same (by assumption) rfl rfl rfl rfl rfl rfl rfl | intro _ | rfl

theorem unblock_keeps {a : State} (n : Fin 320) (s : State) (h : Keeps a s) : Keeps a (unblock n s) := by
  unfold unblock
  try dsimp only
  repeat' first
    | with_reducible first
        | assumption | intro _ | apply Cap.modStrand_capKeeps | apply Cap.makeReady_capKeeps | apply State.updCap_keeps
    | split | dsimp only | assumption | with_reducible exact CapKeeps.refl _
    | (refine CapKeeps.of_same rfl rfl rfl ?_; with_reducible first | assumption | apply Cap.modStrand_capKeeps | apply Cap.makeReady_capKeeps)
    | exact Keeps.of_same (by assumption) rfl rfl rfl rfl rfl rfl rfl | intro _ | rfl

theorem releaseTakes_keeps {a : State} (n : Fin 320) (s : State) (h : Keeps a s) : Keeps a (releaseTakes n s) := by
  unfold releaseTakes
  try dsimp only
  repeat' first
    | with_reducible first
        | assumption | intro _ | apply State.updHp_keeps
    | split | dsimp only | assumption | exact Keeps.of_same (by assumption) rfl rfl rfl rfl rfl rfl rfl | intro _ | rfl

theorem Cap.stopKeeping_capKeeps {a : Cap} (st : StrandState) (n : Fin 320) (c : Cap) (h : CapKeeps a c) : CapKeeps a (Cap.stopKeeping st n c) := by
  unfold Cap.stopKeeping
  try dsimp only
  repeat' first
    | with_reducible first
        | assumption | intro _ | apply Cap.stopIn_capKeeps
    | split | dsimp only | assumption | with_reducible exact CapKeeps.refl _
    | (refine CapKeeps.of_same rfl rfl rfl ?_; with_reducible first | assumption | apply Cap.stopIn_capKeeps) | intro _
    | rfl

theorem stall_keeps {a : State} (n : Fin 320) (s : State) (h : Keeps a s) : Keeps a (stall n s) := by
  unfold stall
  try dsimp only
  repeat' first
    | with_reducible first
        | assumption | intro _ | apply Cap.stopKeeping_capKeeps | apply setF_keeps | apply State.updCap_keeps
    | split | dsimp only | assumption | with_reducible exact CapKeeps.refl _
    | (refine CapKeeps.of_same rfl rfl rfl ?_; with_reducible first | assumption | apply Cap.stopKeeping_capKeeps)
    | exact Keeps.of_same (by assumption) rfl rfl rfl rfl rfl rfl rfl | intro _ | rfl

theorem addHeld_keeps {a : State} (n : Fin 320) (k : HeldKind) (s : State) (h : Keeps a s) : Keeps a (addHeld n k s) := by
  unfold addHeld
  try dsimp only
  repeat' first
    | with_reducible first
        | assumption | intro _ | apply modS_keeps
    | split | dsimp only | assumption | exact Keeps.of_same (by assumption) rfl rfl rfl rfl rfl rfl rfl | intro _ | rfl

theorem modHeld_keeps {a : State} (n : Fin 320) (f : List Held → List Held) (s : State) (h : Keeps a s) : Keeps a (modHeld n f s) := by
  unfold modHeld
  try dsimp only
  repeat' first
    | with_reducible first
        | assumption | intro _ | apply modS_keeps
    | split | dsimp only | assumption | exact Keeps.of_same (by assumption) rfl rfl rfl rfl rfl rfl rfl | intro _ | rfl

theorem discardGalley_keeps {a : State} (n : Fin 320) (s : State) (h : Keeps a s) : Keeps a (discardGalley n s) := by
  unfold discardGalley
  try dsimp only
  repeat' first
    | with_reducible first
        | assumption | intro _ | apply modS_keeps | apply proofPie_keeps | apply releaseTakes_keeps
    | split | dsimp only | assumption | exact Keeps.of_same (by assumption) rfl rfl rfl rfl rfl rfl rfl | intro _ | rfl

theorem abandonCalls_keeps {a : State} (n : Fin 320) (s : State) (h : Keeps a s) : Keeps a (abandonCalls n s) := by
  unfold abandonCalls
  try dsimp only
  repeat' first
    | with_reducible first
        | assumption | intro _ | apply State.updCap_keeps | apply risingFrom_filter | apply mapWf_filter
    | split | dsimp only | assumption | with_reducible exact CapKeeps.refl _
    | exact Keeps.of_same (by assumption) rfl rfl rfl rfl rfl rfl rfl | intro _ | rfl

theorem enableStrand_keeps {a : State} (n : Fin 320) (s : State) (h : Keeps a s) : Keeps a (enableStrand n s).2 := by
  unfold enableStrand
  try dsimp only
  repeat' first
    | with_reducible first
        | assumption | intro _ | apply modS_keeps | apply abandonCalls_keeps | apply keysLetGo_keeps | apply setF_keeps
        | apply Cap.makeReady_capKeeps | apply State.updCap_keeps
    | split | dsimp only | assumption | with_reducible exact CapKeeps.refl _
    | (refine CapKeeps.of_same rfl rfl rfl ?_; with_reducible first | assumption | apply Cap.makeReady_capKeeps)
    | exact Keeps.of_same (by assumption) rfl rfl rfl rfl rfl rfl rfl | intro _ | rfl

theorem enableStrand_keeps' {a t : State} {n : Fin 320} {s : State} {v0} (e : enableStrand n s = (v0, t)) (h : Keeps a s) : Keeps a t := by
  have q := enableStrand_keeps (a := a) n s h
  rw [e] at q
  exact q

theorem disableStrand_keeps {a : State} (n : Fin 320) (s : State) (h : Keeps a s) : Keeps a (disableStrand n s).2 := by
  unfold disableStrand
  try dsimp only
  repeat' first
    | with_reducible first
        | assumption | intro _ | apply modS_keeps | apply discardGalley_keeps | apply abandonCalls_keeps
        | apply keysLetGo_keeps | apply Cap.stopIn_capKeeps | apply State.updCap_keeps
    | split | dsimp only | assumption | with_reducible exact CapKeeps.refl _
    | (refine CapKeeps.of_same rfl rfl rfl ?_; with_reducible first | assumption | apply Cap.stopIn_capKeeps)
    | exact Keeps.of_same (by assumption) rfl rfl rfl rfl rfl rfl rfl | intro _ | rfl

theorem disableStrand_keeps' {a t : State} {n : Fin 320} {s : State} {v0} (e : disableStrand n s = (v0, t)) (h : Keeps a s) : Keeps a t := by
  have q := disableStrand_keeps (a := a) n s h
  rw [e] at q
  exact q

theorem strandCommand_keeps {a : State} (cmd : ℕ) (n : ℕ) (s : State) (h : Keeps a s) : Keeps a (strandCommand cmd n s).2 := by
  unfold strandCommand
  try dsimp only
  repeat' first
    | with_reducible first
        | assumption | intro _ | apply disableStrand_keeps | refine disableStrand_keeps' (by assumption) ?_
        | apply enableStrand_keeps | refine enableStrand_keeps' (by assumption) ?_
    | split | dsimp only | assumption | exact Keeps.of_same (by assumption) rfl rfl rfl rfl rfl rfl rfl | intro _ | rfl

theorem strandCommand_keeps' {a t : State} {cmd : ℕ} {n : ℕ} {s : State} {v0} (e : strandCommand cmd n s = (v0, t)) (h : Keeps a s) : Keeps a t := by
  have q := strandCommand_keeps (a := a) cmd n s h
  rw [e] at q
  exact q

theorem safeEffects_keeps {a : State} (n : Fin 320) (port : ℕ) (arg : Word) (v : ℕ) (s : State) (h : Keeps a s) : Keeps a (safeEffects n port arg v s) := by
  unfold safeEffects
  try dsimp only
  repeat' first
    | with_reducible first
        | assumption | intro _ | apply modHeld_keeps | apply fence_keeps | apply fenceOutputs_keeps
        | apply risingFrom_filter | apply mapWf_filter
    | split | dsimp only | assumption | exact Keeps.of_same (by assumption) rfl rfl rfl rfl rfl rfl rfl | intro _ | rfl

theorem noteRestart_keeps {a : State} (m : ℕ) (was : State) (s : State) (h : Keeps a s) : Keeps a (noteRestart m was s) := by
  unfold noteRestart
  try dsimp only
  repeat' first
    | with_reducible first
        | assumption | intro _ | apply modS_keeps
    | split | dsimp only | assumption | exact Keeps.of_same (by assumption) rfl rfl rfl rfl rfl rfl rfl | intro _ | rfl

theorem putStrCtrl_keeps {a : State} (n : Fin 320) (v : ℕ) (s : State) (h : Keeps a s) : Keeps a (putStrCtrl n v s) := by
  unfold putStrCtrl
  try dsimp only
  repeat' first
    | with_reducible first
        | assumption | intro _ | apply strandCommand_keeps | refine strandCommand_keeps' (by assumption) ?_
        | apply noteRestart_keeps
    | split | dsimp only | assumption | exact Keeps.of_same (by assumption) rfl rfl rfl rfl rfl rfl rfl | intro _ | rfl

theorem applyPort_keeps {a : State} (n : Fin 320) (port : ℕ) (arg : Word) (v : ℕ) (s : State) (h : Keeps a s) : Keeps a (applyPort n port arg v s) := by
  unfold applyPort
  try dsimp only
  repeat' first
    | with_reducible first
        | assumption | intro _ | apply portWrite_keeps | apply putStrCtrl_keeps
    | split | dsimp only | assumption | exact Keeps.of_same (by assumption) rfl rfl rfl rfl rfl rfl rfl | intro _ | rfl

theorem putNow_keeps {a : State} (n : Fin 320) (port : ℕ) (arg : Word) (v : ℕ) (s : State) (h : Keeps a s) : Keeps a (putNow n port arg v s) := by
  unfold putNow
  try dsimp only
  repeat' first
    | with_reducible first
        | assumption | intro _ | apply safeEffects_keeps | apply applyPort_keeps
    | split | dsimp only | assumption | exact Keeps.of_same (by assumption) rfl rfl rfl rfl rfl rfl rfl | intro _ | rfl

theorem putsNow_keeps {a : State} (n : Fin 320) (port : ℕ) (arg : Word) (v : ℕ) (s : State) (h : Keeps a s) : Keeps a (putsNow n port arg v s) := by
  unfold putsNow
  try dsimp only
  repeat' first
    | with_reducible first
        | assumption | intro _ | apply safeEffects_keeps | apply applyPort_keeps
    | split | dsimp only | assumption | exact Keeps.of_same (by assumption) rfl rfl rfl rfl rfl rfl rfl | intro _ | rfl

theorem faultStop_keeps {a : State} (n : Fin 320) (code : ℕ) (s : State) (h : Keeps a s) : Keeps a (faultStop n code s) := by
  unfold faultStop
  try dsimp only
  repeat' first
    | with_reducible first
        | assumption | intro _ | apply modS_keeps | apply discardGalley_keeps | apply keysLetGo_keeps
        | apply Cap.stopIn_capKeeps | apply State.updCap_keeps
    | split | dsimp only | assumption | with_reducible exact CapKeeps.refl _
    | (refine CapKeeps.of_same rfl rfl rfl ?_; with_reducible first | assumption | apply Cap.stopIn_capKeeps)
    | exact Keeps.of_same (by assumption) rfl rfl rfl rfl rfl rfl rfl | intro _ | rfl

theorem fallbackPut_keeps {a : State} (n : Fin 320) (s : State) (h : Keeps a s) : Keeps a (fallbackPut n s) := by
  unfold fallbackPut
  try dsimp only
  repeat' first
    | with_reducible first
        | assumption | intro _ | apply putNow_keeps
    | split | dsimp only | assumption | exact Keeps.of_same (by assumption) rfl rfl rfl rfl rfl rfl rfl | intro _ | rfl

theorem faultReport_keeps {a : State} (n : Fin 320) (code : ℕ) (s : State) (h : Keeps a s) : Keeps a (faultReport n code s) := by
  unfold faultReport
  try dsimp only
  repeat' first
    | with_reducible first
        | assumption | intro _ | apply raiseHw_keeps | apply ringOut_keeps | apply setF_keeps | apply incF_keeps
    | split | dsimp only | assumption | exact Keeps.of_same (by assumption) rfl rfl rfl rfl rfl rfl rfl | intro _ | rfl

theorem spendRestarts_keeps {a : State} (n : Fin 320) (s : State) (h : Keeps a s) : Keeps a (spendRestarts n s) := by
  unfold spendRestarts
  try dsimp only
  repeat' first
    | with_reducible first
        | assumption | intro _ | apply modS_keeps | apply State.updSys_keeps | apply risingFrom_filter
        | apply mapWf_filter
    | split | dsimp only | assumption | exact Keeps.of_same (by assumption) rfl rfl rfl rfl rfl rfl rfl | intro _ | rfl

theorem capFault_keeps {a : State} (n : Fin 320) (code : ℕ) (s : State) (h : Keeps a s) : Keeps a (capFault n code s) := by
  unfold capFault
  try dsimp only
  repeat' first
    | with_reducible first
        | assumption | intro _ | apply faultReport_keeps | apply spendRestarts_keeps | apply fallbackPut_keeps
        | apply faultStop_keeps
    | split | dsimp only | assumption | exact Keeps.of_same (by assumption) rfl rfl rfl rfl rfl rfl rfl | intro _ | rfl

theorem Issue.core_keeps {a : State} (n : Fin 320) (i : Issue) (s : State) (hi : ∀ b, Keeps a b → Keeps a (i.effect b))
    (h : Keeps a s) : Keeps a (Issue.core n i s) := by
  unfold Issue.core
  dsimp only
  repeat' first
    | with_reducible first | assumption | apply capFault_keeps | apply modS_keeps | apply hi
    | split

theorem Issue.run_keeps {a : State} (n : Fin 320) (i : Issue) (s : State) (hi : ∀ b, Keeps a b → Keeps a (i.effect b))
    (h : Keeps a s) : Keeps a (Issue.run n i s) := by
  unfold Issue.run
  split
  · exact h
  · next e =>
    split
    · exact h
    · exact Issue.core_keeps _ _ _ hi (grant_keeps' e h)

theorem regOnly_keeps {a : State} (n : Fin 320) (f : Strand → Strand) (words : optParam ℕ 1) (x3 : State) (h : Keeps a x3) : Keeps a (regOnly n f words x3) := by
  unfold regOnly
  try dsimp only
  repeat' first
    | with_reducible first
        | assumption | intro _ | apply modS_keeps
    | split | dsimp only | assumption | exact Keeps.of_same (by assumption) rfl rfl rfl rfl rfl rfl rfl | intro _ | rfl

theorem issueCall_keeps {a : State} (n : Fin 320) (num : ℕ) (args : List Word) (async : Option (BitVec 8 × ℕ)) (s : State) (h : Keeps a s) : Keeps a (issueCall n num args async s) := by
  unfold issueCall
  try dsimp only
  repeat' first
    | with_reducible first
        | assumption | intro _ | apply State.cap_capKeeps | apply State.updCap_keeps
    | split | dsimp only | assumption | with_reducible exact CapKeeps.refl _
    | (refine CapKeeps.of_same rfl rfl rfl ?_; with_reducible first | assumption | apply State.cap_capKeeps)
    | exact Keeps.of_same (by assumption) rfl rfl rfl rfl rfl rfl rfl | intro _ | rfl

theorem finishCall_keeps {a : State} (id : ℕ) (word : Word) (rets : List Word) (s : State) (h : Keeps a s) : Keeps a (finishCall id word rets s) := by
  unfold finishCall
  try dsimp only
  repeat' first
    | with_reducible first
        | assumption | intro _ | apply State.updCap_keeps | apply risingFrom_filter | apply mapWf_filter
    | split | dsimp only | assumption | with_reducible exact CapKeeps.refl _
    | exact Keeps.of_same (by assumption) rfl rfl rfl rfl rfl rfl rfl | intro _ | rfl

theorem finishCode_keeps {a : State} (id : ℕ) (code : ℕ) (rets : List Word) (s : State) (h : Keeps a s) : Keeps a (finishCode id code rets s) := by
  unfold finishCode
  try dsimp only
  repeat' first
    | with_reducible first
        | assumption | intro _ | apply finishCall_keeps
    | split | dsimp only | assumption | exact Keeps.of_same (by assumption) rfl rfl rfl rfl rfl rfl rfl | intro _ | rfl

theorem commitHeld_keeps {a : State} (n : Fin 320) (h_ : Held) (s : State) (h : Keeps a s) : Keeps a (commitHeld n h_ s) := by
  unfold commitHeld
  try dsimp only
  repeat' first
    | with_reducible first
        | assumption | intro _ | apply ledgerAcc_keeps | apply qRemove_keeps | apply updCaseMem_keeps
        | apply updShared_keeps | apply updProg_keeps | apply State.updCap_keeps | apply foldl_keeps
        | apply risingFrom_mapSet (Nat.zero_le _) | apply mapWf_mapSet | apply mapWf_foldl_mapSet
    | split | dsimp only | assumption | with_reducible exact CapKeeps.refl _
    | exact Keeps.of_same (by assumption) rfl rfl rfl rfl rfl rfl rfl | intro _ | rfl

theorem commitGalley_keeps {a : State} (n : Fin 320) (g : Galley) (s : State) (h : Keeps a s) : Keeps a (commitGalley n g s) := by
  unfold commitGalley
  try dsimp only
  repeat' first
    | with_reducible first
        | assumption | intro _ | apply modS_keeps | apply commitHeld_keeps | apply releaseTakes_keeps
        | apply foldl_keeps | apply risingFrom_filter | apply mapWf_filter
    | split | dsimp only | assumption | exact Keeps.of_same (by assumption) rfl rfl rfl rfl rfl rfl rfl | intro _ | rfl

theorem heldOp_keeps' {a t : State} {n : Fin 320} {h_ : Held} {s : State} (e : heldOp n h_ s = some t) (h : Keeps a s) :
    Keeps a t := by
  unfold heldOp at e
  split at e
  · cases e; exact putNow_keeps _ _ _ _ _ h
  · split at e <;> cases e; exact qAppend_keeps _ _ _ h
  · cases e; exact issueCall_keeps _ _ _ _ _ (modS_keeps _ _ _ h)
  · split at e <;> cases e; exact issueCall_keeps _ _ _ _ _ h
  · cases e; exact raiseHw_keeps _ _ _ h
  · cases e; exact h

theorem lockDone_keeps {a : State} (n : Fin 320) (g : Galley) (s : State) (h : Keeps a s) : Keeps a (lockDone n g s) := by
  unfold lockDone
  try dsimp only
  repeat' first
    | with_reducible first
        | assumption | intro _ | apply modS_keeps | apply proofLock_keeps | apply setF_keeps | apply incF_keeps
        | apply Cap.tryWake_capKeeps | apply Cap.stopIn_capKeeps | apply State.updCap_keeps
    | split | dsimp only | assumption | with_reducible exact CapKeeps.refl _
    | (refine CapKeeps.of_same rfl rfl rfl ?_; with_reducible first | assumption | apply Cap.tryWake_capKeeps | apply Cap.stopIn_capKeeps)
    | exact Keeps.of_same (by assumption) rfl rfl rfl rfl rfl rfl rfl | intro _ | rfl

theorem lockOps_keeps {a : State} (whole : Bool) (x1 : ℕ) (x2 : Fin 320) (x3 : State) (h : Keeps a x3) : Keeps a (lockOps whole x1 x2 x3) := by
  induction x1 generalizing whole x2 x3 with
  | zero =>
    unfold lockOps
    try dsimp only
    repeat' first
      | with_reducible first
          | assumption | intro _ | apply State.cap_capKeeps | apply blockOn_keeps | apply modS_keeps
          | refine heldOp_keeps' (by assumption) ?_ | apply lockDone_keeps
      | split | dsimp only | assumption
      | (refine CapKeeps.of_same rfl rfl rfl ?_; with_reducible first | assumption | apply State.cap_capKeeps)
      | exact Keeps.of_same (by assumption) rfl rfl rfl rfl rfl rfl rfl | intro _ | rfl
  | succ _ ih =>
    unfold lockOps
    try dsimp only
    repeat' first
      | with_reducible first
          | assumption | intro _ | apply State.cap_capKeeps | apply blockOn_keeps | apply modS_keeps
          | refine heldOp_keeps' (by assumption) ?_ | apply lockDone_keeps | apply ih
      | split | dsimp only | assumption
      | (refine CapKeeps.of_same rfl rfl rfl ?_; with_reducible first | assumption | apply State.cap_capKeeps)
      | exact Keeps.of_same (by assumption) rfl rfl rfl rfl rfl rfl rfl | intro _ | rfl

theorem lockUp_keeps {a : State} (whole : Bool) (n : Fin 320) (s : State) (h : Keeps a s) : Keeps a (lockUp whole n s) := by
  unfold lockUp
  try dsimp only
  repeat' first
    | with_reducible first
        | assumption | intro _ | apply modS_keeps | apply commitGalley_keeps | apply lockOps_keeps
    | split | dsimp only | assumption | exact Keeps.of_same (by assumption) rfl rfl rfl rfl rfl rfl rfl | intro _ | rfl

theorem pieNow_keeps {a : State} (n : Fin 320) (w1 : Word) (timeout : Bool) (s : State) (h : Keeps a s) : Keeps a (pieNow n w1 timeout s) := by
  unfold pieNow
  try dsimp only
  repeat' first
    | with_reducible first
        | assumption | intro _ | apply modS_keeps | apply proofPie_keeps | apply incF_keeps | apply releaseTakes_keeps
    | split | dsimp only | assumption | exact Keeps.of_same (by assumption) rfl rfl rfl rfl rfl rfl rfl | intro _ | rfl

theorem performResolution_keeps {a : State} (whole : Bool) (n : Fin 320) (s : State) (h : Keeps a s) : Keeps a (performResolution whole n s) := by
  unfold performResolution
  try dsimp only
  repeat' first
    | with_reducible first
        | assumption | intro _ | apply lockUp_keeps | apply pieNow_keeps
    | split | dsimp only | assumption | exact Keeps.of_same (by assumption) rfl rfl rfl rfl rfl rfl rfl | intro _ | rfl

theorem branchTo_keeps {a : State} (n : Fin 320) (rl : Fin 16) (target : BitVec 17) (x3 : State) (h : Keeps a x3) : Keeps a (branchTo n rl target x3) := by
  unfold branchTo
  try dsimp only
  repeat' first
    | with_reducible first
        | assumption | intro _ | apply modS_keeps
    | split | dsimp only | assumption | exact Keeps.of_same (by assumption) rfl rfl rfl rfl rfl rfl rfl | intro _ | rfl

theorem storeBytes_keeps {a : State} (n : Fin 320) (o : ℕ) (bs : List Byte) (s : State) (h : Keeps a s) : Keeps a (storeBytes n o bs s) := by
  unfold storeBytes
  try dsimp only
  repeat' first
    | with_reducible first
        | assumption | intro _ | apply modS_keeps | apply modHeld_keeps | apply stall_keeps | apply addHeld_keeps
        | apply updCaseMem_keeps | apply updShared_keeps | apply updProg_keeps | apply State.updCap_keeps
        | apply mapWf_putBytes
    | split | dsimp only | assumption | with_reducible exact CapKeeps.refl _
    | exact Keeps.of_same (by assumption) rfl rfl rfl rfl rfl rfl rfl | intro _ | rfl

theorem finishQueue_keeps {a : State} (n : Fin 320) (pd : Fin 4) (ok : Bool) (w : Option (Fin 16 × Word)) (x4 : State) (h : Keeps a x4) : Keeps a (finishQueue n pd ok w x4) := by
  unfold finishQueue
  try dsimp only
  repeat' first
    | with_reducible first
        | assumption | intro _ | apply modS_keeps
    | split | dsimp only | assumption | exact Keeps.of_same (by assumption) rfl rfl rfl rfl rfl rfl rfl | intro _ | rfl

theorem enqHeld_keeps {a : State} (n : Fin 320) (b : BitVec 26) (s : State) (h : Keeps a s) : Keeps a (enqHeld n b s) := by
  unfold enqHeld
  dsimp only
  split
  · exact finishQueue_keeps _ _ _ _ _ h
  · split
    · exact addHeld_keeps _ _ _ (finishQueue_keeps _ _ _ _ _ h)
    · exact stall_keeps _ _ h

theorem takeItem_keeps {a : State} (n : Fin 320) (q_ : Fin 64) (s : State) (h : Keeps a s) : Keeps a (takeItem n q_ s) := by
  unfold takeItem
  try dsimp only
  repeat' first
    | with_reducible first
        | assumption | intro _ | apply modHeld_keeps | apply modQ_keeps | apply qRemove_keeps | apply addHeld_keeps
    | split | dsimp only | assumption | exact Keeps.of_same (by assumption) rfl rfl rfl rfl rfl rfl rfl | intro _ | rfl

theorem queueWaitComplete_keeps {a : State} (n : Fin 320) (s : State) (h : Keeps a s) : Keeps a (queueWaitComplete n s) := by
  unfold queueWaitComplete
  try dsimp only
  repeat' first
    | with_reducible first
        | assumption | intro _ | apply takeItem_keeps | apply modS_keeps | apply unblock_keeps | apply qAppend_keeps
    | split | dsimp only | assumption | exact Keeps.of_same (by assumption) rfl rfl rfl rfl rfl rfl rfl | intro _ | rfl

theorem storeReadComplete_keeps {a : State} (n : Fin 320) (s : State) (h : Keeps a s) : Keeps a (storeReadComplete n s) := by
  unfold storeReadComplete
  try dsimp only
  repeat' first
    | with_reducible first
        | assumption | intro _ | apply modS_keeps | apply unblock_keeps
    | split | dsimp only | assumption | exact Keeps.of_same (by assumption) rfl rfl rfl rfl rfl rfl rfl | intro _ | rfl

theorem svcComplete_keeps {a : State} (n : Fin 320) (s : State) (h : Keeps a s) : Keeps a (svcComplete n s) := by
  unfold svcComplete
  try dsimp only
  repeat' first
    | with_reducible first
        | assumption | intro _ | apply State.cap_capKeeps | apply modS_keeps | apply unblock_keeps
        | apply State.updCap_keeps | apply risingFrom_filter | apply mapWf_filter
    | split | dsimp only | assumption | with_reducible exact CapKeeps.refl _
    | (refine CapKeeps.of_same rfl rfl rfl ?_; with_reducible first | assumption | apply State.cap_capKeeps)
    | exact Keeps.of_same (by assumption) rfl rfl rfl rfl rfl rfl rfl | intro _ | rfl

theorem putCaseWords_keeps {a : State} (a_ : ℕ) (x1 : List Word) (x2 : State) (h : Keeps a x2) : Keeps a (putCaseWords a_ x1 x2) := by
  induction x1 generalizing a_ x2 with
  | nil =>
    unfold putCaseWords
    try dsimp only
    repeat' first
      | with_reducible first
          | assumption | intro _ | apply updCaseMem_keeps | apply updShared_keeps | apply updProg_keeps
          | apply State.updCap_keeps | apply mapWf_putWord
      | split | dsimp only | assumption | with_reducible exact CapKeeps.refl _
      | exact Keeps.of_same (by assumption) rfl rfl rfl rfl rfl rfl rfl | intro _ | rfl
  | cons _ _ ih =>
    unfold putCaseWords
    try dsimp only
    repeat' first
      | with_reducible first
          | assumption | intro _ | apply updCaseMem_keeps | apply updShared_keeps | apply updProg_keeps
          | apply State.updCap_keeps | apply mapWf_putWord | apply ih
      | split | dsimp only | assumption | with_reducible exact CapKeeps.refl _
      | exact Keeps.of_same (by assumption) rfl rfl rfl rfl rfl rfl rfl | intro _ | rfl

theorem unblockSvca_keeps {a : State} (n : Fin 320) (s : State) (h : Keeps a s) : Keeps a (unblockSvca n s) := by
  unfold unblockSvca
  try dsimp only
  repeat' first
    | with_reducible first
        | assumption | intro _ | apply unblock_keeps
    | split | dsimp only | assumption | exact Keeps.of_same (by assumption) rfl rfl rfl rfl rfl rfl rfl | intro _ | rfl

theorem svcaComplete_keeps {a : State} (n : Fin 320) (s : State) (h : Keeps a s) : Keeps a (svcaComplete n s) := by
  unfold svcaComplete
  try dsimp only
  repeat' first
    | with_reducible first
        | assumption | intro _ | apply unblockSvca_keeps | apply State.cap_capKeeps | apply putCaseWords_keeps
        | apply Cap.raise_capKeeps | apply State.updCap_keeps
    | split | dsimp only | assumption | with_reducible exact CapKeeps.refl _
    | (refine CapKeeps.of_same rfl rfl rfl ?_; with_reducible first | assumption | apply State.cap_capKeeps | apply Cap.raise_capKeeps)
    | exact Keeps.of_same (by assumption) rfl rfl rfl rfl rfl rfl rfl | intro _ | rfl

theorem waitEffect_keeps {a : State} (n : Fin 320) (mask : BitVec 9) (s : State) (h : Keeps a s) : Keeps a (waitEffect n mask s) := by
  unfold waitEffect
  try dsimp only
  repeat' first
    | with_reducible first
        | assumption | intro _ | apply modS_keeps | apply Cap.modStrand_capKeeps | apply Cap.makeReady_capKeeps
        | apply Cap.stopIn_capKeeps | apply State.updCap_keeps
    | split | dsimp only | assumption | with_reducible exact CapKeeps.refl _
    | (refine CapKeeps.of_same rfl rfl rfl ?_; with_reducible first | assumption | apply Cap.modStrand_capKeeps | apply Cap.makeReady_capKeeps | apply Cap.stopIn_capKeeps)
    | exact Keeps.of_same (by assumption) rfl rfl rfl rfl rfl rfl rfl | intro _ | rfl

theorem useCalls_keeps {a : State} (n : Fin 320) (ev : BitVec 8) (latest : ℕ) (s : State) (h : Keeps a s) : Keeps a (useCalls n ev latest s) := by
  unfold useCalls
  try dsimp only
  repeat' first
    | with_reducible first
        | assumption | intro _ | apply State.updCap_keeps | apply risingFrom_filter | apply mapWf_filter
    | split | dsimp only | assumption | with_reducible exact CapKeeps.refl _
    | exact Keeps.of_same (by assumption) rfl rfl rfl rfl rfl rfl rfl | intro _ | rfl

theorem gsetEffect_keeps {a : State} (n : Fin 320) (b : BitVec 26) (w1 : Word) (s : State) (h : Keeps a s) : Keeps a (gsetEffect n b w1 s) := by
  unfold gsetEffect
  try dsimp only
  repeat' first
    | with_reducible first
        | assumption | intro _ | apply useCalls_keeps | apply modS_keeps | apply Cap.resolve_capKeeps
        | apply State.updCap_keeps
    | split | dsimp only | assumption | with_reducible exact CapKeeps.refl _
    | (refine CapKeeps.of_same rfl rfl rfl ?_; with_reducible first | assumption | apply Cap.resolve_capKeeps)
    | exact Keeps.of_same (by assumption) rfl rfl rfl rfl rfl rfl rfl | intro _ | rfl

theorem capHmaxExceeded_keeps {a : State} (n : Fin 320) (s : State) (h : Keeps a s) : Keeps a (capHmaxExceeded n s) := by
  unfold capHmaxExceeded
  try dsimp only
  repeat' first
    | with_reducible first
        | assumption | intro _ | apply capFault_keeps | refine grant_keeps' (by assumption) ?_
    | split | dsimp only | assumption | exact Keeps.of_same (by assumption) rfl rfl rfl rfl rfl rfl rfl | intro _ | rfl

theorem contextFault_keeps {a : State} (n : Fin 320) (s : State) (h : Keeps a s) : Keeps a (contextFault n s) := by
  unfold contextFault
  split
  · exact capFault_keeps _ _ _ h
  · exact h

theorem turnEnd_keeps {a : State} (n : Fin 320) (s : State) (h : Keeps a s) : Keeps a (turnEnd n s) := by
  unfold turnEnd
  try dsimp only
  repeat' first
    | with_reducible first
        | assumption | intro _ | apply State.cap_capKeeps | apply Cap.dueTurnEnd_capKeeps | apply State.updCap_keeps
    | split | dsimp only | assumption | with_reducible exact CapKeeps.refl _
    | (refine CapKeeps.of_same rfl rfl rfl ?_; with_reducible first | assumption | apply State.cap_capKeeps | apply Cap.dueTurnEnd_capKeeps)
    | exact Keeps.of_same (by assumption) rfl rfl rfl rfl rfl rfl rfl | intro _ | rfl

theorem strandTimerExpiry_keeps {a : State} (n : Fin 320) (s : State) (h : Keeps a s) : Keeps a (strandTimerExpiry n s) := by
  unfold strandTimerExpiry
  try dsimp only
  repeat' first
    | with_reducible first
        | assumption | intro _ | apply modS_keeps | apply Cap.tryWake_capKeeps | apply State.updCap_keeps
    | split | dsimp only | assumption | with_reducible exact CapKeeps.refl _
    | (refine CapKeeps.of_same rfl rfl rfl ?_; with_reducible first | assumption | apply Cap.tryWake_capKeeps)
    | exact Keeps.of_same (by assumption) rfl rfl rfl rfl rfl rfl rfl | intro _ | rfl

theorem Cap.giveEntry_capKeeps {a : Cap} (n : Fin 320) (c : Cap) (h : CapKeeps a c) : CapKeeps a (Cap.giveEntry n c) := by
  unfold Cap.giveEntry
  try dsimp only
  repeat' first
    | with_reducible first
        | assumption | intro _ | apply Cap.modStrand_capKeeps | apply Cap.makeReady_capKeeps | apply risingFrom_filter
        | apply mapWf_filter
    | split | dsimp only | assumption | with_reducible exact CapKeeps.refl _
    | (refine CapKeeps.of_same rfl rfl rfl ?_; with_reducible first | assumption | apply Cap.modStrand_capKeeps | apply Cap.makeReady_capKeeps)
    | intro _ | rfl

theorem galleyEntryFreed_keeps {a : State} (s : State) (h : Keeps a s) : Keeps a (galleyEntryFreed s) := by
  unfold galleyEntryFreed
  try dsimp only
  repeat' first
    | with_reducible first
        | assumption | intro _ | apply State.cap_capKeeps | apply Cap.giveEntry_capKeeps | apply State.updCap_keeps
    | split | dsimp only | assumption | with_reducible exact CapKeeps.refl _
    | (refine CapKeeps.of_same rfl rfl rfl ?_; with_reducible first | assumption | apply State.cap_capKeeps | apply Cap.giveEntry_capKeeps)
    | exact Keeps.of_same (by assumption) rfl rfl rfl rfl rfl rfl rfl | intro _ | rfl

theorem galleyResolve_keeps {a : State} (ev : ℕ) (word : ℕ) (s : State) (h : Keeps a s) : Keeps a (galleyResolve ev word s) := by
  unfold galleyResolve
  try dsimp only
  repeat' first
    | with_reducible first
        | assumption | intro _ | apply raiseFw_keeps | apply raiseHw_keeps
    | split | dsimp only | assumption | exact Keeps.of_same (by assumption) rfl rfl rfl rfl rfl rfl rfl | intro _ | rfl

theorem galleyTimeout_keeps {a : State} (n : Fin 320) (s : State) (h : Keeps a s) : Keeps a (galleyTimeout n s) := by
  unfold galleyTimeout
  try dsimp only
  repeat' first
    | with_reducible first
        | assumption | intro _ | apply Cap.resolve_capKeeps | apply State.updCap_keeps
    | split | dsimp only | assumption | with_reducible exact CapKeeps.refl _
    | (refine CapKeeps.of_same rfl rfl rfl ?_; with_reducible first | assumption | apply Cap.resolve_capKeeps)
    | exact Keeps.of_same (by assumption) rfl rfl rfl rfl rfl rfl rfl | intro _ | rfl

theorem performWhen_keeps {a : State} (p : Resolution → Bool) (n : Fin 320) (s : State) (h : Keeps a s) : Keeps a (performWhen p n s) := by
  unfold performWhen
  try dsimp only
  repeat' first
    | with_reducible first
        | assumption | intro _ | apply performResolution_keeps | refine grant_keeps' (by assumption) ?_
    | split | dsimp only | assumption | exact Keeps.of_same (by assumption) rfl rfl rfl rfl rfl rfl rfl | intro _ | rfl

theorem hostStrand_keeps {a : State} (cmd : ℕ) (n : ℕ) (s : State) (h : Keeps a s) : Keeps a (hostStrand cmd n s).2 := by
  unfold hostStrand
  try dsimp only
  repeat' first
    | with_reducible first
        | assumption | intro _ | apply strandCommand_keeps | refine strandCommand_keeps' (by assumption) ?_
    | split | dsimp only | assumption | exact Keeps.of_same (by assumption) rfl rfl rfl rfl rfl rfl rfl | intro _ | rfl

theorem hostStrand_keeps' {a t : State} {cmd : ℕ} {n : ℕ} {s : State} {v0} (e : hostStrand cmd n s = (v0, t)) (h : Keeps a s) : Keeps a t := by
  have q := hostStrand_keeps (a := a) cmd n s h
  rw [e] at q
  exact q

theorem haltStrand_keeps {a : State} (n : Fin 320) (s : State) (h : Keeps a s) : Keeps a (haltStrand n s) := by
  unfold haltStrand
  try dsimp only
  repeat' first
    | with_reducible first
        | assumption | intro _ | apply Cap.stopKeeping_capKeeps | apply Cap.modStrand_capKeeps
        | apply State.updCap_keeps
    | split | dsimp only | assumption | with_reducible exact CapKeeps.refl _
    | (refine CapKeeps.of_same rfl rfl rfl ?_; with_reducible first | assumption | apply Cap.stopKeeping_capKeeps | apply Cap.modStrand_capKeeps)
    | exact Keeps.of_same (by assumption) rfl rfl rfl rfl rfl rfl rfl | intro _ | rfl

theorem Cap.reenter_capKeeps {a : Cap} (n : Fin 320) (c : Cap) (h : CapKeeps a c) : CapKeeps a (Cap.reenter n c) := by
  unfold Cap.reenter
  try dsimp only
  repeat' first
    | with_reducible first
        | assumption | intro _ | apply Cap.leave_capKeeps | apply Cap.modStrand_capKeeps | apply Cap.makeReady_capKeeps
    | split | dsimp only | assumption | with_reducible exact CapKeeps.refl _
    | (refine CapKeeps.of_same rfl rfl rfl ?_; with_reducible first | assumption | apply Cap.leave_capKeeps | apply Cap.modStrand_capKeeps | apply Cap.makeReady_capKeeps)
    | intro _ | rfl

theorem resumeStrand_keeps {a : State} (n : Fin 320) (s : State) (h : Keeps a s) : Keeps a (resumeStrand n s) := by
  unfold resumeStrand
  try dsimp only
  repeat' first
    | with_reducible first
        | assumption | intro _ | apply Cap.stopKeeping_capKeeps | apply modS_keeps | apply Cap.makeReady_capKeeps
        | apply Cap.tryWake_capKeeps | apply Cap.reenter_capKeeps | apply Cap.stopIn_capKeeps
        | apply State.updCap_keeps
    | split | dsimp only | assumption | with_reducible exact CapKeeps.refl _
    | (refine CapKeeps.of_same rfl rfl rfl ?_; with_reducible first | assumption | apply Cap.stopKeeping_capKeeps | apply Cap.makeReady_capKeeps | apply Cap.tryWake_capKeeps | apply Cap.reenter_capKeeps | apply Cap.stopIn_capKeeps)
    | exact Keeps.of_same (by assumption) rfl rfl rfl rfl rfl rfl rfl | intro _ | rfl

theorem opAdd_keeps {a : State} (n : Fin 320) (b : BitVec 26) : ∀ s, Keeps a s → Keeps a ((opAdd n b).effect s) := fun _ h => modS_keeps _ _ _ h
theorem opSub_keeps {a : State} (n : Fin 320) (b : BitVec 26) : ∀ s, Keeps a s → Keeps a ((opSub n b).effect s) := fun _ h => modS_keeps _ _ _ h
theorem opAnd_keeps {a : State} (n : Fin 320) (b : BitVec 26) : ∀ s, Keeps a s → Keeps a ((opAnd n b).effect s) := fun _ h => modS_keeps _ _ _ h
theorem opOr_keeps {a : State} (n : Fin 320) (b : BitVec 26) : ∀ s, Keeps a s → Keeps a ((opOr n b).effect s) := fun _ h => modS_keeps _ _ _ h
theorem opXor_keeps {a : State} (n : Fin 320) (b : BitVec 26) : ∀ s, Keeps a s → Keeps a ((opXor n b).effect s) := fun _ h => modS_keeps _ _ _ h
theorem opShl_keeps {a : State} (n : Fin 320) (b : BitVec 26) : ∀ s, Keeps a s → Keeps a ((opShl n b).effect s) := fun _ h => modS_keeps _ _ _ h
theorem opShr_keeps {a : State} (n : Fin 320) (b : BitVec 26) : ∀ s, Keeps a s → Keeps a ((opShr n b).effect s) := fun _ h => modS_keeps _ _ _ h
theorem opSar_keeps {a : State} (n : Fin 320) (b : BitVec 26) : ∀ s, Keeps a s → Keeps a ((opSar n b).effect s) := fun _ h => modS_keeps _ _ _ h
theorem opMul_keeps {a : State} (n : Fin 320) (b : BitVec 26) : ∀ s, Keeps a s → Keeps a ((opMul n b).effect s) := fun _ h => modS_keeps _ _ _ h
theorem opMulu64_keeps {a : State} (n : Fin 320) (b : BitVec 26) : ∀ s, Keeps a s → Keeps a ((opMulu64 n b).effect s) := fun _ h => modS_keeps _ _ _ h
theorem opMinu_keeps {a : State} (n : Fin 320) (b : BitVec 26) : ∀ s, Keeps a s → Keeps a ((opMinu n b).effect s) := fun _ h => modS_keeps _ _ _ h
theorem opMaxu_keeps {a : State} (n : Fin 320) (b : BitVec 26) : ∀ s, Keeps a s → Keeps a ((opMaxu n b).effect s) := fun _ h => modS_keeps _ _ _ h
theorem opCmp_keeps {a : State} (n : Fin 320) (b : BitVec 26) : ∀ s, Keeps a s → Keeps a ((opCmp n b).effect s) := fun _ h => modS_keeps _ _ _ h
theorem opPlog_keeps {a : State} (n : Fin 320) (b : BitVec 26) : ∀ s, Keeps a s → Keeps a ((opPlog n b).effect s) := fun _ h => modS_keeps _ _ _ h
theorem opAddi_keeps {a : State} (n : Fin 320) (b : BitVec 26) : ∀ s, Keeps a s → Keeps a ((opAddi n b).effect s) := fun _ h => modS_keeps _ _ _ h
theorem opAndi_keeps {a : State} (n : Fin 320) (b : BitVec 26) : ∀ s, Keeps a s → Keeps a ((opAndi n b).effect s) := fun _ h => modS_keeps _ _ _ h
theorem opOri_keeps {a : State} (n : Fin 320) (b : BitVec 26) : ∀ s, Keeps a s → Keeps a ((opOri n b).effect s) := fun _ h => modS_keeps _ _ _ h
theorem opXori_keeps {a : State} (n : Fin 320) (b : BitVec 26) : ∀ s, Keeps a s → Keeps a ((opXori n b).effect s) := fun _ h => modS_keeps _ _ _ h
theorem opShli_keeps {a : State} (n : Fin 320) (b : BitVec 26) : ∀ s, Keeps a s → Keeps a ((opShli n b).effect s) := fun _ h => modS_keeps _ _ _ h
theorem opShri_keeps {a : State} (n : Fin 320) (b : BitVec 26) : ∀ s, Keeps a s → Keeps a ((opShri n b).effect s) := fun _ h => modS_keeps _ _ _ h
theorem opSari_keeps {a : State} (n : Fin 320) (b : BitVec 26) : ∀ s, Keeps a s → Keeps a ((opSari n b).effect s) := fun _ h => modS_keeps _ _ _ h
theorem opCmpi_keeps {a : State} (n : Fin 320) (b : BitVec 26) : ∀ s, Keeps a s → Keeps a ((opCmpi n b).effect s) := fun _ h => modS_keeps _ _ _ h
theorem opExt_keeps {a : State} (n : Fin 320) (b : BitVec 26) : ∀ s, Keeps a s → Keeps a ((opExt n b).effect s) := fun _ h => modS_keeps _ _ _ h
theorem opIns_keeps {a : State} (n : Fin 320) (b : BitVec 26) : ∀ s, Keeps a s → Keeps a ((opIns n b).effect s) := fun _ h => modS_keeps _ _ _ h
theorem opAdd64_keeps {a : State} (n : Fin 320) (b : BitVec 26) : ∀ s, Keeps a s → Keeps a ((opAdd64 n b).effect s) := fun _ h => modS_keeps _ _ _ h
theorem opSub64_keeps {a : State} (n : Fin 320) (b : BitVec 26) : ∀ s, Keeps a s → Keeps a ((opSub64 n b).effect s) := fun _ h => modS_keeps _ _ _ h
theorem opCmp64_keeps {a : State} (n : Fin 320) (b : BitVec 26) : ∀ s, Keeps a s → Keeps a ((opCmp64 n b).effect s) := fun _ h => modS_keeps _ _ _ h
theorem opShr64i_keeps {a : State} (n : Fin 320) (b : BitVec 26) : ∀ s, Keeps a s → Keeps a ((opShr64i n b).effect s) := fun _ h => modS_keeps _ _ _ h
theorem opBr_keeps {a : State} (n : Fin 320) (b : BitVec 26) : ∀ s, Keeps a s → Keeps a ((opBr n b).effect s) := fun _ h => modS_keeps _ _ _ h
theorem opJr_keeps {a : State} (n : Fin 320) (b : BitVec 26) : ∀ s, Keeps a s → Keeps a ((opJr n b).effect s) := fun _ h => modS_keeps _ _ _ h
theorem opNop_keeps {a : State} (n : Fin 320) (op : Nat) (b : BitVec 26) : ∀ s, Keeps a s → Keeps a ((opNop n op b).effect s) := fun _ h => modS_keeps _ _ _ h
theorem opLdi_keeps {a : State} (n : Fin 320) (b : BitVec 26) (w1 : Word) : ∀ s, Keeps a s → Keeps a ((opLdi n b w1).effect s) := fun _ h => modS_keeps _ _ _ h

theorem opAcc_keeps {a : State} (n : Fin 320) (b : BitVec 26) : ∀ s, Keeps a s → Keeps a ((opAcc n b).effect s) := by
  intro s h
  unfold opAcc
  dsimp only
  repeat' first
    | with_reducible first
      | assumption
      | apply ledgerAcc_keeps
      | apply modHeld_keeps
      | apply addHeld_keeps
      | apply stall_keeps
      | apply modS_keeps
    | split

theorem opLoad_keeps {a : State} (size : Nat) (n : Fin 320) (b : BitVec 26) : ∀ s, Keeps a s → Keeps a ((opLoad size n b).effect s) := by
  intro s h
  unfold opLoad
  dsimp only
  repeat' first
    | with_reducible first
      | assumption
      | apply modS_keeps
    | split

theorem opLd64_keeps {a : State} (n : Fin 320) (b : BitVec 26) : ∀ s, Keeps a s → Keeps a ((opLd64 n b).effect s) := by
  intro s h
  unfold opLd64
  dsimp only
  repeat' first
    | with_reducible first
      | assumption
      | apply modS_keeps
    | split

theorem opStore_keeps {a : State} (size : Nat) (n : Fin 320) (b : BitVec 26) : ∀ s, Keeps a s → Keeps a ((opStore size n b).effect s) := by
  intro s h
  unfold opStore
  dsimp only
  repeat' first
    | with_reducible first
      | assumption
      | apply storeBytes_keeps
    | split

theorem opSt64_keeps {a : State} (n : Fin 320) (b : BitVec 26) : ∀ s, Keeps a s → Keeps a ((opSt64 n b).effect s) := by
  intro s h
  unfold opSt64
  dsimp only
  repeat' first
    | with_reducible first
      | assumption
      | apply storeBytes_keeps
    | split

theorem opGet_keeps {a : State} (n : Fin 320) (b : BitVec 26) : ∀ s, Keeps a s → Keeps a ((opGet n b).effect s) := by
  intro s h
  unfold opGet
  dsimp only
  repeat' first
    | with_reducible first
      | assumption
      | apply blockOn_keeps
      | apply modS_keeps
      | apply freeBelow_keeps
      | refine freeBelow_keeps' (by assumption) ?_
    | split

theorem opPut_keeps {a : State} (n : Fin 320) (b : BitVec 26) : ∀ s, Keeps a s → Keeps a ((opPut n b).effect s) := by
  intro s h
  unfold opPut
  dsimp only
  repeat' first
    | with_reducible first
      | assumption
      | apply addHeld_keeps
      | apply putNow_keeps
      | apply stall_keeps
      | apply modS_keeps
    | split

theorem opPuts_keeps {a : State} (n : Fin 320) (b : BitVec 26) : ∀ s, Keeps a s → Keeps a ((opPuts n b).effect s) := by
  intro s h
  unfold opPuts
  dsimp only
  repeat' first
    | with_reducible first
      | assumption
      | apply putsNow_keeps
      | apply modS_keeps
    | split

theorem opEnq_keeps {a : State} (n : Fin 320) (b : BitVec 26) : ∀ s, Keeps a s → Keeps a ((opEnq n b).effect s) := by
  intro s h
  unfold opEnq
  dsimp only
  repeat' first
    | with_reducible first
      | assumption
      | apply enqHeld_keeps
      | apply finishQueue_keeps
      | apply qEnqueue_keeps
      | refine qEnqueue_keeps' (by assumption) ?_
    | split

theorem opEnqw_keeps {a : State} (n : Fin 320) (b : BitVec 26) : ∀ s, Keeps a s → Keeps a ((opEnqw n b).effect s) := by
  intro s h
  unfold opEnqw
  dsimp only
  repeat' first
    | with_reducible first
      | assumption
      | apply enqHeld_keeps
      | apply finishQueue_keeps
      | apply qAppend_keeps
      | apply blockOn_keeps
      | apply modS_keeps
    | split

theorem opDeq_keeps {a : State} (n : Fin 320) (b : BitVec 26) : ∀ s, Keeps a s → Keeps a ((opDeq n b).effect s) := by
  intro s h
  unfold opDeq
  dsimp only
  repeat' first
    | with_reducible first
      | assumption
      | apply finishQueue_keeps
      | apply stall_keeps
      | apply takeItem_keeps
    | split

theorem opDeqw_keeps {a : State} (n : Fin 320) (b : BitVec 26) : ∀ s, Keeps a s → Keeps a ((opDeqw n b).effect s) := by
  intro s h
  unfold opDeqw
  dsimp only
  repeat' first
    | with_reducible first
      | assumption
      | apply finishQueue_keeps
      | apply stall_keeps
      | apply takeItem_keeps
      | apply blockOn_keeps
      | apply modS_keeps
    | split

theorem opSvc_keeps {a : State} (n : Fin 320) (b : BitVec 26) : ∀ s, Keeps a s → Keeps a ((opSvc n b).effect s) := by
  intro s h
  unfold opSvc
  dsimp only
  repeat' first
    | with_reducible first
      | assumption
      | apply blockOn_keeps
      | apply addHeld_keeps
      | apply stall_keeps
      | apply issueCall_keeps
      | apply modS_keeps
    | split

theorem opSvca_keeps {a : State} (n : Fin 320) (b : BitVec 26) : ∀ s, Keeps a s → Keeps a ((opSvca n b).effect s) := by
  intro s h
  unfold opSvca
  dsimp only
  repeat' first
    | with_reducible first
      | assumption
      | apply blockOn_keeps
      | apply addHeld_keeps
      | apply stall_keeps
      | apply issueCall_keeps
      | apply modS_keeps
    | split

theorem opYield_keeps {a : State} (n : Fin 320) (b : BitVec 26) : ∀ s, Keeps a s → Keeps a ((opYield n b).effect s) := by
  intro s h
  unfold opYield
  dsimp only
  repeat' first
    | with_reducible first
      | assumption
      | apply State.updCap_keeps
      | apply modS_keeps
    | split
    | exact fun c => Cap.endTurn_capKeeps _ c (CapKeeps.refl c)

theorem opSig_keeps {a : State} (n : Fin 320) (b : BitVec 26) : ∀ s, Keeps a s → Keeps a ((opSig n b).effect s) := by
  intro s h
  unfold opSig
  dsimp only
  repeat' first
    | with_reducible first
      | assumption
      | apply addHeld_keeps
      | apply stall_keeps
      | apply raiseHw_keeps
      | apply modS_keeps
    | split

theorem opWait_keeps {a : State} (n : Fin 320) (b : BitVec 26) : ∀ s, Keeps a s → Keeps a ((opWait n b).effect s) := fun _ h => waitEffect_keeps _ _ _ h
theorem opGset_keeps {a : State} (n : Fin 320) (b : BitVec 26) (w1 : Word) : ∀ s, Keeps a s → Keeps a ((opGset n b w1).effect s) := fun _ h => gsetEffect_keeps _ _ _ _ h

/-- The instruction that a word spells has an effect that keeps what it must. -/
theorem issueOf_keeps {a : State} (n : Fin 320) (w w1 : Word) {i : Issue} (e : issueOf n w w1 = some i) :
    ∀ s, Keeps a s → Keeps a (i.effect s) := by
  unfold issueOf at e
  dsimp only at e
  split at e
  · cases e; exact opNop_keeps _ _ _
  · cases e; exact opAdd_keeps _ _
  · cases e; exact opSub_keeps _ _
  · cases e; exact opAnd_keeps _ _
  · cases e; exact opOr_keeps _ _
  · cases e; exact opXor_keeps _ _
  · cases e; exact opShl_keeps _ _
  · cases e; exact opShr_keeps _ _
  · cases e; exact opSar_keeps _ _
  · cases e; exact opMul_keeps _ _
  · cases e; exact opMulu64_keeps _ _
  · cases e; exact opMinu_keeps _ _
  · cases e; exact opMaxu_keeps _ _
  · cases e; exact opCmp_keeps _ _
  · cases e; exact opPlog_keeps _ _
  · cases e; exact opAddi_keeps _ _
  · cases e; exact opAndi_keeps _ _
  · cases e; exact opOri_keeps _ _
  · cases e; exact opXori_keeps _ _
  · cases e; exact opShli_keeps _ _
  · cases e; exact opShri_keeps _ _
  · cases e; exact opSari_keeps _ _
  · cases e; exact opCmpi_keeps _ _
  · cases e; exact opExt_keeps _ _
  · cases e; exact opIns_keeps _ _
  · cases e; exact opLdi_keeps _ _ _
  · cases e; exact opLoad_keeps _ _ _
  · cases e; exact opLoad_keeps _ _ _
  · cases e; exact opLoad_keeps _ _ _
  · cases e; exact opStore_keeps _ _ _
  · cases e; exact opStore_keeps _ _ _
  · cases e; exact opStore_keeps _ _ _
  · cases e; exact opLd64_keeps _ _
  · cases e; exact opSt64_keeps _ _
  · cases e; exact opAdd64_keeps _ _
  · cases e; exact opSub64_keeps _ _
  · cases e; exact opCmp64_keeps _ _
  · cases e; exact opShr64i_keeps _ _
  · cases e; exact opAcc_keeps _ _
  · cases e; exact opBr_keeps _ _
  · cases e; exact opJr_keeps _ _
  · cases e; exact opGet_keeps _ _
  · cases e; exact opPut_keeps _ _
  · cases e; exact opPuts_keeps _ _
  · cases e; exact opEnq_keeps _ _
  · cases e; exact opEnqw_keeps _ _
  · cases e; exact opDeq_keeps _ _
  · cases e; exact opDeqw_keeps _ _
  · cases e; exact opSvc_keeps _ _
  · cases e; exact opSvca_keeps _ _
  · cases e; exact opWait_keeps _ _
  · cases e; exact opYield_keeps _ _
  · cases e; exact opSig_keeps _ _
  · cases e; exact opGset_keeps _ _ _
  · cases e

theorem issueFetched_keeps {a : State} (n : Fin 320) (s : State) (h : Keeps a s) : Keeps a (issueFetched n s) := by
  unfold issueFetched
  dsimp only
  refine Issue.core_keeps _ _ _ ?_ h
  cases e : issueOf n (fetchWord n s).1 (fetchWord n s).2 with
  | none => exact fun _ hb => hb
  | some i => exact issueOf_keeps _ _ _ e

theorem backToHalted_keeps {a : State} (n : Fin 320) (was : StrandState) (s : State) (h : Keeps a s) : Keeps a (backToHalted n was s) := by
  unfold backToHalted
  try dsimp only
  repeat' first
    | with_reducible first
        | assumption | intro _ | apply Cap.stopKeeping_capKeeps | apply Cap.modStrand_capKeeps
        | apply Cap.stopIn_capKeeps | apply State.updCap_keeps
    | split | dsimp only | assumption | with_reducible exact CapKeeps.refl _
    | (refine CapKeeps.of_same rfl rfl rfl ?_; with_reducible first | assumption | apply Cap.stopKeeping_capKeeps | apply Cap.modStrand_capKeeps | apply Cap.stopIn_capKeeps)
    | exact Keeps.of_same (by assumption) rfl rfl rfl rfl rfl rfl rfl | intro _ | rfl

theorem stepStrand_keeps {a : State} (n : Fin 320) (s : State) (h : Keeps a s) : Keeps a (stepStrand n s) := by
  unfold stepStrand
  try dsimp only
  repeat' first
    | with_reducible first
        | assumption | intro _ | apply performResolution_keeps | apply backToHalted_keeps | apply modS_keeps
        | apply issueFetched_keeps
    | split | dsimp only | assumption | exact Keeps.of_same (by assumption) rfl rfl rfl rfl rfl rfl rfl | intro _ | rfl

theorem keepDebug_keeps {a : State} (cmd : ℕ) (n : ℕ) (s : State) (h : Keeps a s) : Keeps a (keepDebug cmd n s) := by
  unfold keepDebug
  try dsimp only
  repeat' first
    | with_reducible first
        | assumption | intro _ | apply setF_keeps
    | split | dsimp only | assumption | exact Keeps.of_same (by assumption) rfl rfl rfl rfl rfl rfl rfl | intro _ | rfl

theorem debugCommand_keeps {a : State} (cmd : ℕ) (cls0 : Bool) (n : ℕ) (f : Fin 320 → State → State) (s : State) (hf : ∀ y0 b, Keeps a b → Keeps a (f y0 b)) (h : Keeps a s) : Keeps a (debugCommand cmd cls0 n f s).2 := by
  unfold debugCommand
  try dsimp only
  repeat' first
    | with_reducible first
        | assumption | intro _ | apply keepDebug_keeps | apply hf
    | split | dsimp only | assumption | exact Keeps.of_same (by assumption) rfl rfl rfl rfl rfl rfl rfl | intro _ | rfl

theorem debugCommand_keeps' {a t : State} {cmd : ℕ} {cls0 : Bool} {n : ℕ} {f : Fin 320 → State → State} {s : State} {v0} (hf : ∀ y0 b, Keeps a b → Keeps a (f y0 b)) (e : debugCommand cmd cls0 n f s = (v0, t)) (h : Keeps a s) : Keeps a t := by
  have q := debugCommand_keeps (a := a) cmd cls0 n f s hf h
  rw [e] at q
  exact q

theorem breakpointHit_keeps {a : State} (n : Fin 320) (s : State) (h : Keeps a s) : Keeps a (breakpointHit n s) := by
  unfold breakpointHit
  try dsimp only
  repeat' first
    | with_reducible first
        | assumption | intro _ | apply haltStrand_keeps | refine grant_keeps' (by assumption) ?_
    | split | dsimp only | assumption | exact Keeps.of_same (by assumption) rfl rfl rfl rfl rfl rfl rfl | intro _ | rfl

theorem serve_keeps {a : State} (num : ℕ) (f : Call → State → State) (s : State) (hf : ∀ y0 b, Keeps a b → Keeps a (f y0 b)) (h : Keeps a s) : Keeps a (serve num f s) := by
  unfold serve
  try dsimp only
  repeat' first
    | with_reducible first
        | assumption | intro _ | apply hf
    | split | dsimp only | assumption | exact Keeps.of_same (by assumption) rfl rfl rfl rfl rfl rfl rfl | intro _ | rfl

theorem writeRecord_keeps {a : State} (msg : ℕ) (body : List Byte) (answered : Bool) (timeout : ℕ) (s : State) (h : Keeps a s) : Keeps a (writeRecord msg body answered timeout s).2 := by
  unfold writeRecord
  try dsimp only
  repeat' first
    | with_reducible first
        | assumption | intro _ | apply qEnqueue_keeps | refine qEnqueue_keeps' (by assumption) ?_
        | apply State.updHlc_keeps | apply updCaseMem_keeps | apply updShared_keeps | apply updProg_keeps
        | apply State.updCap_keeps | apply risingFrom_filter | apply mapWf_filter | apply mapWf_putBytes
    | split | dsimp only | assumption | with_reducible exact CapKeeps.refl _
    | exact Keeps.of_same (by assumption) rfl rfl rfl rfl rfl rfl rfl | intro _ | rfl

theorem writeRecord_keeps' {a t : State} {msg : ℕ} {body : List Byte} {answered : Bool} {timeout : ℕ} {s : State} {v0} (e : writeRecord msg body answered timeout s = (v0, t)) (h : Keeps a s) : Keeps a t := by
  have q := writeRecord_keeps (a := a) msg body answered timeout s h
  rw [e] at q
  exact q

theorem hlcStart_keeps {a : State} (c : Call) (s : State) (h : Keeps a s) : Keeps a (hlcStart c s) := by
  unfold hlcStart
  try dsimp only
  repeat' first
    | with_reducible first
        | assumption | intro _ | apply finishCode_keeps | apply dropTls_keeps | apply State.updHlc_keeps
        | apply boundaries_keeps | apply hlcMove_keeps
    | split | dsimp only | assumption | exact Keeps.of_same (by assumption) rfl rfl rfl rfl rfl rfl rfl | intro _ | rfl

theorem slacMatch_keeps {a : State} (s : State) (h : Keeps a s) : Keeps a (slacMatch s) := by
  unfold slacMatch
  split
  · exact hlcMove_keeps _ _ (h.of_same rfl rfl rfl rfl rfl rfl rfl)
  · exact h

theorem slacTimeout_keeps {a : State} (s : State) (h : Keeps a s) : Keeps a (slacTimeout s) := by
  unfold slacTimeout
  try dsimp only
  repeat' first
    | with_reducible first
        | assumption | intro _ | apply violation_keeps | apply State.updHlc_keeps | apply hlcEnd_keeps
    | split | dsimp only | assumption | exact Keeps.of_same (by assumption) rfl rfl rfl rfl rfl rfl rfl | intro _ | rfl

theorem tlsKeys_keeps {a : State} (suite : ℕ) (s : State) (h : Keeps a s) : Keeps a (tlsKeys suite s).2 := by
  unfold tlsKeys
  try dsimp only
  repeat' first
    | with_reducible first
        | assumption | intro _ | apply freeWide_keeps | refine freeWide_keeps' (by assumption) ?_ | apply place_keeps
        | refine place_keeps' (by assumption) ?_ | apply modSlot_keeps
    | split | dsimp only | assumption | exact Keeps.of_same (by assumption) rfl rfl rfl rfl rfl rfl rfl | intro _ | rfl

theorem tlsKeys_keeps' {a t : State} {suite : ℕ} {s : State} {v0} (e : tlsKeys suite s = (v0, t)) (h : Keeps a s) : Keeps a t := by
  have q := tlsKeys_keeps (a := a) suite s h
  rw [e] at q
  exact q

theorem tlsHandshake_keeps {a : State} (tls13 : Bool) (suites : List (BitVec 16)) (rest : Bool) (s : State) (h : Keeps a s) : Keeps a (tlsHandshake tls13 suites rest s) := by
  unfold tlsHandshake
  try dsimp only
  repeat' first
    | with_reducible first
        | assumption | intro _ | apply tlsKeys_keeps | refine tlsKeys_keeps' (by assumption) ?_ | apply violation_keeps
        | apply State.updHlc_keeps | apply hlcMove_keeps
    | split | dsimp only | assumption | exact Keeps.of_same (by assumption) rfl rfl rfl rfl rfl rfl rfl | intro _ | rfl

theorem say_keeps {a : State} (msg : ℕ) (code : HlcCode) (fields : List ℕ) (s : State) (h : Keeps a s) : Keeps a (say msg code fields s) := by
  unfold say
  try dsimp only
  repeat' first
    | with_reducible first
        | assumption | intro _ | apply State.updHlc_keeps
    | split | dsimp only | assumption | exact Keeps.of_same (by assumption) rfl rfl rfl rfl rfl rfl rfl | intro _ | rfl

theorem misbehaved_keeps {a : State} (msg : ℕ) (code : HlcCode) (s : State) (h : Keeps a s) : Keeps a (misbehaved msg code s) := by
  unfold misbehaved
  try dsimp only
  repeat' first
    | with_reducible first
        | assumption | intro _ | apply say_keeps | apply violation_keeps | apply hlcEnd_keeps
    | split | dsimp only | assumption | exact Keeps.of_same (by assumption) rfl rfl rfl rfl rfl rfl rfl | intro _ | rfl

theorem misbehavedTls_keeps {a : State} (msg : ℕ) (code : HlcCode) (s : State) (h : Keeps a s) : Keeps a (misbehavedTls msg code s) := by
  unfold misbehavedTls
  try dsimp only
  repeat' first
    | with_reducible first
        | assumption | intro _ | apply misbehaved_keeps | apply dropTls_keeps
    | split | dsimp only | assumption | exact Keeps.of_same (by assumption) rfl rfl rfl rfl rfl rfl rfl | intro _ | rfl

theorem supportedApp_keeps {a : State} (names : BitVec 3) (first20 : Bool) (s : State) (h : Keeps a s) : Keeps a (supportedApp names first20 s) := by
  unfold supportedApp
  try dsimp only
  repeat' first
    | with_reducible first
        | assumption | intro _ | apply say_keeps | apply misbehaved_keeps | apply State.updHlc_keeps
        | apply hlcMove_keeps | apply misbehavedTls_keeps | apply freeBelow_keeps
        | refine freeBelow_keeps' (by assumption) ?_
    | split | dsimp only | assumption | exact Keeps.of_same (by assumption) rfl rfl rfl rfl rfl rfl rfl | intro _ | rfl

theorem tlsScrubbed_keeps {a : State} (s : State) (h : Keeps a s) : Keeps a (tlsScrubbed s) := by
  unfold tlsScrubbed
  try dsimp only
  repeat' first
    | with_reducible first
        | assumption | intro _ | apply violation_keeps | apply State.updHlc_keeps | apply hlcEnd_keeps
    | split | dsimp only | assumption | exact Keeps.of_same (by assumption) rfl rfl rfl rfl rfl rfl rfl | intro _ | rfl

theorem hlcRequest_keeps {a : State} (msg : ℕ) (body : List Byte) (bad : Option HlcBad) (processing : Bool) (timeout : ℕ) (s : State) (h : Keeps a s) : Keeps a (hlcRequest msg body bad processing timeout s) := by
  unfold hlcRequest
  try dsimp only
  repeat' first
    | with_reducible first
        | assumption | intro _ | apply misbehaved_keeps | apply State.updHlc_keeps | apply misbehavedTls_keeps
        | apply writeRecord_keeps | refine writeRecord_keeps' (by assumption) ?_
    | split | dsimp only | assumption | exact Keeps.of_same (by assumption) rfl rfl rfl rfl rfl rfl rfl | intro _ | rfl

theorem meteringReceipt_keeps {a : State} (body : List Byte) (timeout : ℕ) (s : State) (h : Keeps a s) : Keeps a (meteringReceipt body timeout s) := by
  unfold meteringReceipt
  try dsimp only
  repeat' first
    | with_reducible first
        | assumption | intro _ | apply say_keeps | apply misbehaved_keeps | apply writeRecord_keeps
        | refine writeRecord_keeps' (by assumption) ?_
    | split | dsimp only | assumption | exact Keeps.of_same (by assumption) rfl rfl rfl rfl rfl rfl rfl | intro _ | rfl

theorem certRequest_keeps {a : State} (update : Bool) (exi : List Byte) (timeout : ℕ) (s : State) (h : Keeps a s) : Keeps a (certRequest update exi timeout s) := by
  unfold certRequest
  try dsimp only
  repeat' first
    | with_reducible first
        | assumption | intro _ | apply say_keeps | apply misbehaved_keeps | apply qEnqueue_keeps
        | refine qEnqueue_keeps' (by assumption) ?_ | apply State.updHlc_keeps | apply misbehavedTls_keeps
        | apply writeRecord_keeps | refine writeRecord_keeps' (by assumption) ?_ | apply foldl_keeps
    | split | dsimp only | assumption | exact Keeps.of_same (by assumption) rfl rfl rfl rfl rfl rfl rfl | intro _ | rfl

theorem certAnswer_keeps {a : State} (s : State) (h : Keeps a s) : Keeps a (certAnswer s) := by
  unfold certAnswer
  try dsimp only
  repeat' first
    | with_reducible first
        | assumption | intro _ | apply say_keeps | apply State.updHlc_keeps | apply qRemove_keeps
    | split | dsimp only | assumption | exact Keeps.of_same (by assumption) rfl rfl rfl rfl rfl rfl rfl | intro _ | rfl

theorem signReading_keeps {a : State} (s : State) (h : Keeps a s) : Keeps a (signReading s).2 := by
  unfold signReading
  try dsimp only
  repeat' first
    | with_reducible first
        | assumption | intro _ | apply sealKey_keeps | refine sealKey_keeps' (by assumption) ?_
        | apply State.updSys_keeps
    | split | dsimp only | assumption | exact Keeps.of_same (by assumption) rfl rfl rfl rfl rfl rfl rfl | intro _ | rfl

theorem signReading_keeps' {a t : State} {s : State} {v0} (e : signReading s = (v0, t)) (h : Keeps a s) : Keeps a t := by
  have q := signReading_keeps (a := a) s h
  rw [e] at q
  exact q

theorem replyWith_keeps {a : State} (c : Call) (code : HlcCode) (fields : List ℕ) (s : State) (h : Keeps a s) : Keeps a (replyWith c code fields s) := by
  unfold replyWith
  try dsimp only
  repeat' first
    | with_reducible first
        | assumption | intro _ | apply say_keeps | apply finishCode_keeps | apply State.updHlc_keeps
        | apply signReading_keeps | refine signReading_keeps' (by assumption) ?_ | apply hlcEnd_keeps
    | split | dsimp only | assumption | exact Keeps.of_same (by assumption) rfl rfl rfl rfl rfl rfl rfl | intro _ | rfl

theorem replyService_keeps {a : State} (serves : ℕ → Bool) (send : Call → State → State) (c : Call) (s : State) (hsend : ∀ y0 b, Keeps a b → Keeps a (send y0 b)) (h : Keeps a s) : Keeps a (replyService serves send c s) := by
  unfold replyService
  try dsimp only
  repeat' first
    | with_reducible first
        | assumption | intro _ | apply finishCode_keeps | apply hsend
    | split | dsimp only | assumption | exact Keeps.of_same (by assumption) rfl rfl rfl rfl rfl rfl rfl | intro _ | rfl

theorem hlcDeadline_keeps {a : State} (s : State) (h : Keeps a s) : Keeps a (hlcDeadline s) := by
  unfold hlcDeadline
  try dsimp only
  repeat' first
    | with_reducible first
        | assumption | intro _ | apply say_keeps | apply raiseFw_keeps | apply violation_keeps
        | apply State.updHlc_keeps | apply hlcEnd_keeps
    | split | dsimp only | assumption | exact Keeps.of_same (by assumption) rfl rfl rfl rfl rfl rfl rfl | intro _ | rfl

theorem rtcSet_keeps {a : State} (w : Word) (s : State) (h : Keeps a s) : Keeps a (rtcSet w s).2 := by
  unfold rtcSet
  try dsimp only
  repeat' first
    | with_reducible first
        | assumption | intro _ | apply State.updLed_keeps | apply setF_keeps
    | split | dsimp only | assumption | exact Keeps.of_same (by assumption) rfl rfl rfl rfl rfl rfl rfl | intro _ | rfl

theorem rtcSet_keeps' {a t : State} {w : Word} {s : State} {v0} (e : rtcSet w s = (v0, t)) (h : Keeps a s) : Keeps a t := by
  have q := rtcSet_keeps (a := a) w s h
  rw [e] at q
  exact q

theorem loadCalendar_keeps {a : State} (len : ℕ) (image : List Byte) (s : State) (h : Keeps a s) : Keeps a (loadCalendar len image s) := by
  unfold loadCalendar
  try dsimp only
  repeat' first
    | with_reducible first
        | assumption | intro _ | apply State.updLed_keeps | apply logViolation_keeps | apply writeEvent_keeps
        | apply setF_keeps
    | split | dsimp only | assumption | exact Keeps.of_same (by assumption) rfl rfl rfl rfl rfl rfl rfl | intro _ | rfl

theorem calLoad_keeps {a : State} (s : State) (h : Keeps a s) : Keeps a (calLoad s).2 := by
  unfold calLoad
  try dsimp only
  repeat' first
    | with_reducible first
        | assumption | intro _ | apply State.cap_capKeeps | apply loadCalendar_keeps | apply publish_keeps
        | apply setF_keeps
    | split | dsimp only | assumption
    | (refine CapKeeps.of_same rfl rfl rfl ?_; with_reducible first | assumption | apply State.cap_capKeeps)
    | exact Keeps.of_same (by assumption) rfl rfl rfl rfl rfl rfl rfl | intro _ | rfl

theorem calLoad_keeps' {a t : State} {s : State} {v0} (e : calLoad s = (v0, t)) (h : Keeps a s) : Keeps a t := by
  have q := calLoad_keeps (a := a) s h
  rw [e] at q
  exact q

theorem topup_keeps {a : State} (s : State) (h : Keeps a s) : Keeps a (topup s).2 := by
  unfold topup
  try dsimp only
  repeat' first
    | with_reducible first
        | assumption | intro _ | apply logViolation_keeps | apply writeDraft_keeps | apply modAccount_keeps
        | apply setF_keeps
    | split | dsimp only | assumption | exact Keeps.of_same (by assumption) rfl rfl rfl rfl rfl rfl rfl | intro _ | rfl

theorem topup_keeps' {a t : State} {s : State} {v0} (e : topup s = (v0, t)) (h : Keeps a s) : Keeps a t := by
  have q := topup_keeps (a := a) s h
  rw [e] at q
  exact q

theorem grantEmergency_keeps {a : State} (k : ℕ) (s : State) (h : Keeps a s) : Keeps a (grantEmergency k s).2.2 := by
  unfold grantEmergency
  try dsimp only
  repeat' first
    | with_reducible first
        | assumption | intro _ | apply writeEvent_keeps | apply modAccount_keeps
    | split | dsimp only | assumption | exact Keeps.of_same (by assumption) rfl rfl rfl rfl rfl rfl rfl | intro _ | rfl

theorem grantEmergency_keeps' {a t : State} {k : ℕ} {s : State} {v0 v1} (e : grantEmergency k s = (v0, v1, t)) (h : Keeps a s) : Keeps a t := by
  have q := grantEmergency_keeps (a := a) k s h
  rw [e] at q
  exact q

theorem ledgerOpen_keeps {a : State} (c : Call) (s : State) (h : Keeps a s) : Keeps a (ledgerOpen c s) := by
  unfold ledgerOpen
  try dsimp only
  repeat' first
    | with_reducible first
        | assumption | intro _ | apply State.updMet_keeps | apply finishCode_keeps | apply State.updLed_keeps
        | apply writeSeal_keeps | apply writeRec_keeps | apply setF_keeps | apply updCur_keeps
    | split | dsimp only | assumption | exact Keeps.of_same (by assumption) rfl rfl rfl rfl rfl rfl rfl | intro _ | rfl

theorem ledgerClose_keeps {a : State} (c : Call) (s : State) (h : Keeps a s) : Keeps a (ledgerClose c s) := by
  unfold ledgerClose
  try dsimp only
  repeat' first
    | with_reducible first
        | assumption | intro _ | apply finishCode_keeps | apply endSession_keeps
        | refine endSession_keeps' (by assumption) ?_
    | split | dsimp only | assumption | exact Keeps.of_same (by assumption) rfl rfl rfl rfl rfl rfl rfl | intro _ | rfl

theorem ledgerRead_keeps {a : State} (c : Call) (s : State) (h : Keeps a s) : Keeps a (ledgerRead c s) := by
  unfold ledgerRead
  try dsimp only
  repeat' first
    | with_reducible first
        | assumption | intro _ | apply finishCode_keeps
    | split | dsimp only | assumption | exact Keeps.of_same (by assumption) rfl rfl rfl rfl rfl rfl rfl | intro _ | rfl

theorem expAck_keeps {a : State} (offset : ℕ) (s : State) (h : Keeps a s) : Keeps a (expAck offset s).2 := by
  unfold expAck
  try dsimp only
  repeat' first
    | with_reducible first
        | assumption | intro _ | apply State.updLed_keeps | apply logViolation_keeps
    | split | dsimp only | assumption | exact Keeps.of_same (by assumption) rfl rfl rfl rfl rfl rfl rfl | intro _ | rfl

theorem expAck_keeps' {a t : State} {offset : ℕ} {s : State} {v0} (e : expAck offset s = (v0, t)) (h : Keeps a s) : Keeps a t := by
  have q := expAck_keeps (a := a) offset s h
  rw [e] at q
  exact q

theorem ledClear_keeps {a : State} (key : ℕ) (s : State) (h : Keeps a s) : Keeps a (ledClear key s).2 := by
  unfold ledClear
  try dsimp only
  repeat' first
    | with_reducible first
        | assumption | intro _ | apply State.updLed_keeps | apply writeEvent_keeps | apply updCur_keeps
    | split | dsimp only | assumption | exact Keeps.of_same (by assumption) rfl rfl rfl rfl rfl rfl rfl | intro _ | rfl

theorem ledClear_keeps' {a t : State} {key : ℕ} {s : State} {v0} (e : ledClear key s = (v0, t)) (h : Keeps a s) : Keeps a t := by
  have q := ledClear_keeps (a := a) key s h
  rw [e] at q
  exact q

theorem tamperChange_keeps {a : State} (terminal : Bool) (opened : Bool) (s : State) (h : Keeps a s) : Keeps a (tamperChange terminal opened s) := by
  unfold tamperChange
  try dsimp only
  repeat' first
    | with_reducible first
        | assumption | intro _ | apply State.updLed_keeps | apply raiseHw_keeps | apply ringOut_keeps
        | apply setB_keeps | apply incF_keeps
    | split | dsimp only | assumption | exact Keeps.of_same (by assumption) rfl rfl rfl rfl rfl rfl rfl | intro _ | rfl

theorem portRow_keeps {a : State} (n : Fin 320) (port : ℕ) (arg : Word) (value : Word) (s : State) (h : Keeps a s) : Keeps a (portRow n port arg value s) := by
  unfold portRow
  try dsimp only
  repeat' first
    | with_reducible first
        | assumption | intro _ | apply stall_keeps | apply putNow_keeps | apply addHeld_keeps
    | split | dsimp only | assumption | exact Keeps.of_same (by assumption) rfl rfl rfl rfl rfl rfl rfl | intro _ | rfl

end Sys2Proof.Machine
end

