-- ==== Sys2Proof/Laws/KeepsRows.lean ====
section
/-! SUPPORT. One lemma per operation of the site, the keys, the reader, the store, the tag, the registers, the modes and the host port: what `Keeps` says of it. -/
namespace Sys2Proof.Machine

theorem linkViolation_keeps {a : State} (k : ℕ) (c : ℕ) (value : ℕ) (s : State) (h : Keeps a s) : Keeps a (linkViolation k c value s) := by
  unfold linkViolation
  try dsimp only
  repeat' first
    | with_reducible first
        | assumption | intro _ | apply logViolationAs_keeps | apply incF_keeps
    | split | dsimp only | assumption | exact Keeps.of_same (by assumption) rfl rfl rfl rfl rfl rfl rfl | intro _ | rfl

theorem serveFree_keeps {a : State} (num : ℕ) (f : Call → State → State) (s : State) (hf : ∀ y0 b, Keeps a b → Keeps a (f y0 b)) (h : Keeps a s) : Keeps a (serveFree num f s) := by
  unfold serveFree
  try dsimp only
  repeat' first
    | with_reducible first
        | assumption | intro _ | apply State.cap_capKeeps | apply hf
    | split | dsimp only | assumption
    | (refine CapKeeps.of_same rfl rfl rfl ?_; with_reducible first | assumption | apply State.cap_capKeeps)
    | exact Keeps.of_same (by assumption) rfl rfl rfl rfl rfl rfl rfl | intro _ | rfl

theorem holdReq_keeps {a : State} (r : SiteReq) (s : State) (h : Keeps a s) : Keeps a (holdReq r s) := by
  unfold holdReq
  try dsimp only
  repeat' first
    | with_reducible first
        | assumption | intro _ | apply State.updLink_keeps
    | split | dsimp only | assumption | exact Keeps.of_same (by assumption) rfl rfl rfl rfl rfl rfl rfl | intro _ | rfl

theorem dropReq_keeps {a : State} (kind : ℕ) (s : State) (h : Keeps a s) : Keeps a (dropReq kind s) := by
  unfold dropReq
  try dsimp only
  repeat' first
    | with_reducible first
        | assumption | intro _ | apply State.updLink_keeps | apply risingFrom_filter | apply mapWf_filter
    | split | dsimp only | assumption | exact Keeps.of_same (by assumption) rfl rfl rfl rfl rfl rfl rfl | intro _ | rfl

theorem finishReq_keeps {a : State} (r : SiteReq) (code : ℕ) (rets : List Word) (s : State) (h : Keeps a s) : Keeps a (finishReq r code rets s) := by
  unfold finishReq
  try dsimp only
  repeat' first
    | with_reducible first
        | assumption | intro _ | apply finishCode_keeps
    | split | dsimp only | assumption | exact Keeps.of_same (by assumption) rfl rfl rfl rfl rfl rfl rfl | intro _ | rfl

theorem finishAlloc_keeps {a : State} (call : Option ℕ) (word : Word) (s : State) (h : Keeps a s) : Keeps a (finishAlloc call word s) := by
  unfold finishAlloc
  try dsimp only
  repeat' first
    | with_reducible first
        | assumption | intro _ | apply finishCall_keeps
    | split | dsimp only | assumption | exact Keeps.of_same (by assumption) rfl rfl rfl rfl rfl rfl rfl | intro _ | rfl

theorem hubConfirm_keeps {a : State} (c : Call) (s : State) (h : Keeps a s) : Keeps a (hubConfirm c s) := by
  unfold hubConfirm
  try dsimp only
  repeat' first
    | with_reducible first
        | assumption | intro _ | apply finishCode_keeps | apply holdReq_keeps
    | split | dsimp only | assumption | exact Keeps.of_same (by assumption) rfl rfl rfl rfl rfl rfl rfl | intro _ | rfl

theorem newRequest_keeps {a : State} (current : ℕ) (mask : ℕ) (dir : ℕ) (c : ℕ) (s : State) (h : Keeps a s) : Keeps a (newRequest current mask dir c s) := by
  unfold newRequest
  try dsimp only
  repeat' first
    | with_reducible first
        | assumption | intro _ | apply modChan_keeps
    | split | dsimp only | assumption | exact Keeps.of_same (by assumption) rfl rfl rfl rfl rfl rfl rfl | intro _ | rfl

theorem allocRequest_keeps {a : State} (c : Call) (s : State) (h : Keeps a s) : Keeps a (allocRequest c s) := by
  unfold allocRequest
  try dsimp only
  repeat' first
    | with_reducible first
        | assumption | intro _ | apply newRequest_keeps | apply holdReq_keeps | apply State.updAlloc_keeps
        | apply finishAlloc_keeps
    | split | dsimp only | assumption | exact Keeps.of_same (by assumption) rfl rfl rfl rfl rfl rfl rfl | intro _ | rfl

theorem releaseChannel_keeps {a : State} (c : ℕ) (now : ℕ) (s : State) (h : Keeps a s) : Keeps a (releaseChannel c now s) := by
  unfold releaseChannel
  try dsimp only
  repeat' first
    | with_reducible first
        | assumption | intro _ | apply modChan_keeps
    | split | dsimp only | assumption | exact Keeps.of_same (by assumption) rfl rfl rfl rfl rfl rfl rfl | intro _ | rfl

theorem allocRelease_keeps {a : State} (c : Call) (s : State) (h : Keeps a s) : Keeps a (allocRelease c s) := by
  unfold allocRelease
  try dsimp only
  repeat' first
    | with_reducible first
        | assumption | intro _ | apply finishCode_keeps | apply lowerToGrant_keeps | apply releaseChannel_keeps
        | apply State.updAlloc_keeps | apply finishAlloc_keeps | apply State.updLink_keeps | apply foldl_keeps
        | apply risingFrom_filter | apply mapWf_filter
    | split | dsimp only | assumption | exact Keeps.of_same (by assumption) rfl rfl rfl rfl rfl rfl rfl | intro _ | rfl

theorem ledgerEmergency_keeps {a : State} (c : Call) (s : State) (h : Keeps a s) : Keeps a (ledgerEmergency c s) := by
  unfold ledgerEmergency
  try dsimp only
  repeat' first
    | with_reducible first
        | assumption | intro _ | apply finishCode_keeps | apply holdReq_keeps | apply grantEmergency_keeps
        | refine grantEmergency_keeps' (by assumption) ?_
    | split | dsimp only | assumption | exact Keeps.of_same (by assumption) rfl rfl rfl rfl rfl rfl rfl | intro _ | rfl

theorem siteSend_keeps {a : State} (c : Call) (s : State) (h : Keeps a s) : Keeps a (siteSend c s) := by
  unfold siteSend
  try dsimp only
  repeat' first
    | with_reducible first
        | assumption | intro _ | apply finishCode_keeps | apply State.cap_capKeeps | apply State.updLink_keeps
    | split | dsimp only | assumption
    | (refine CapKeeps.of_same rfl rfl rfl ?_; with_reducible first | assumption | apply State.cap_capKeeps)
    | exact Keeps.of_same (by assumption) rfl rfl rfl rfl rfl rfl rfl | intro _ | rfl

theorem fragDone_keeps {a : State} (f : UpFrag) (s : State) (h : Keeps a s) : Keeps a (fragDone f s) := by
  unfold fragDone
  try dsimp only
  repeat' first
    | with_reducible first
        | assumption | intro _ | apply finishCode_keeps | apply State.updLed_keeps | apply State.updLink_keeps
    | split | dsimp only | assumption | exact Keeps.of_same (by assumption) rfl rfl rfl rfl rfl rfl rfl | intro _ | rfl

theorem ackFrag_keeps {a : State} (ack : ℕ) (s : State) (h : Keeps a s) : Keeps a (ackFrag ack s) := by
  unfold ackFrag
  try dsimp only
  repeat' first
    | with_reducible first
        | assumption | intro _ | apply fragDone_keeps
    | split | dsimp only | assumption | exact Keeps.of_same (by assumption) rfl rfl rfl rfl rfl rfl rfl | intro _ | rfl

theorem fillSlot_keeps {a : State} (ack : ℕ) (s : State) (h : Keeps a s) : Keeps a (fillSlot ack s) := by
  unfold fillSlot
  try dsimp only
  repeat' first
    | with_reducible first
        | assumption | intro _ | apply State.updLink_keeps
    | split | dsimp only | assumption | exact Keeps.of_same (by assumption) rfl rfl rfl rfl rfl rfl rfl | intro _ | rfl

theorem sendAnswer_keeps {a : State} (f : PollFrame) (r : Reception) (s : State) (h : Keeps a s) : Keeps a (sendAnswer f r s) := by
  unfold sendAnswer
  try dsimp only
  repeat' first
    | with_reducible first
        | assumption | intro _ | apply transmit_keeps | apply fillSlot_keeps | apply State.updLink_keeps
    | split | dsimp only | assumption | exact Keeps.of_same (by assumption) rfl rfl rfl rfl rfl rfl rfl | intro _ | rfl

theorem takeLag_keeps {a : State} (zc : Option (BitVec 15)) (sinceZc : ℕ) (s : State) (h : Keeps a s) : Keeps a (takeLag zc sinceZc s) := by
  unfold takeLag
  try dsimp only
  repeat' first
    | with_reducible first
        | assumption | intro _ | apply State.updLink_keeps
    | split | dsimp only | assumption | exact Keeps.of_same (by assumption) rfl rfl rfl rfl rfl rfl rfl | intro _ | rfl

theorem adoptClock_keeps {a : State} (f : PollFrame) (credit : Bool) (s : State) (h : Keeps a s) : Keeps a (adoptClock f credit s) := by
  unfold adoptClock
  try dsimp only
  repeat' first
    | with_reducible first
        | assumption | intro _ | apply State.updLed_keeps
    | split | dsimp only | assumption | exact Keeps.of_same (by assumption) rfl rfl rfl rfl rfl rfl rfl | intro _ | rfl

theorem adoptCredit_keeps {a : State} (var : ℕ) (s : State) (h : Keeps a s) : Keeps a (adoptCredit var s) := by
  unfold adoptCredit
  try dsimp only
  repeat' first
    | with_reducible first
        | assumption | intro _ | apply modAccount_keeps
    | split | dsimp only | assumption | exact Keeps.of_same (by assumption) rfl rfl rfl rfl rfl rfl rfl | intro _ | rfl

theorem takeReply_keeps {a : State} (f : PollFrame) (creditBefore : ℤ) (s : State) (h : Keeps a s) : Keeps a (takeReply f creditBefore s) := by
  unfold takeReply
  try dsimp only
  repeat' first
    | with_reducible first
        | assumption | intro _ | apply finishReq_keeps | apply finishAlloc_keeps | apply dropReq_keeps
        | apply State.updLink_keeps
    | split | dsimp only | assumption | exact Keeps.of_same (by assumption) rfl rfl rfl rfl rfl rfl rfl | intro _ | rfl

theorem leaveFallback_keeps {a : State} (s : State) (h : Keeps a s) : Keeps a (leaveFallback s) := by
  unfold leaveFallback
  try dsimp only
  repeat' first
    | with_reducible first
        | assumption | intro _ | apply raiseFw_keeps | apply ringOut_keeps | apply State.updLink_keeps
    | split | dsimp only | assumption | exact Keeps.of_same (by assumption) rfl rfl rfl rfl rfl rfl rfl | intro _ | rfl

theorem pollContent_keeps {a : State} (f : PollFrame) (s : State) (h : Keeps a s) : Keeps a (pollContent f s) := by
  unfold pollContent
  try dsimp only
  repeat' first
    | with_reducible first
        | assumption | intro _ | apply leaveFallback_keeps | apply lowerToGrant_keeps | apply takeReply_keeps
        | apply ackFrag_keeps | apply State.updLink_keeps | apply adoptClock_keeps | apply adoptCredit_keeps
    | split | dsimp only | assumption | exact Keeps.of_same (by assumption) rfl rfl rfl rfl rfl rfl rfl | intro _ | rfl

theorem pollPassed_keeps {a : State} (fresh : Bool) (f : PollFrame) (r : Reception) (s : State) (h : Keeps a s) :
    Keeps a (pollPassed fresh f r s) := by
  unfold pollPassed
  extract_lets low inert wakes s1 gone s2 s3 times first s4 s5 s6 s7
  have h1 : Keeps a s1 := by
    unfold s1; split
    · exact standbyExit_keeps _ h
    · exact h
  have h4 : Keeps a s4 := State.updLink_keeps (setF_keeps _ _ _ (setF_keeps _ _ _ (setF_keeps _ _ _ h1))) _
  have h5 : Keeps a s5 := by
    unfold s5; split
    · exact h4
    · exact takeLag_keeps _ _ _ h4
  have h6 : Keeps a s6 := by
    unfold s6; split
    · exact pollContent_keeps _ _ h5
    · split
      · exact h5
      · exact ackFrag_keeps _ _ (adoptClock_keeps _ _ _ h5)
  refine sendAnswer_keeps _ _ _ ?_
  unfold s7; split
  · exact raiseFw_keeps _ _ _ h6
  · exact h6

theorem poll_keeps {a : State} (f : PollFrame) (r : Reception) (s : State) (h : Keeps a s) : Keeps a (poll f r s) := by
  unfold poll
  try dsimp only
  repeat' first
    | with_reducible first
        | assumption | intro _ | apply linkViolation_keeps | apply pollPassed_keeps | apply receive_keeps
    | split | dsimp only | assumption | exact Keeps.of_same (by assumption) rfl rfl rfl rfl rfl rfl rfl | intro _ | rfl

theorem loseRequests_keeps {a : State} (s : State) (h : Keeps a s) : Keeps a (loseRequests s) := by
  unfold loseRequests
  try dsimp only
  repeat' first
    | with_reducible first
        | assumption | intro _ | apply finishCode_keeps | apply finishReq_keeps | apply finishAlloc_keeps
        | apply State.updLink_keeps | apply foldl_keeps | apply risingFrom_filter | apply mapWf_filter
    | split | dsimp only | assumption | exact Keeps.of_same (by assumption) rfl rfl rfl rfl rfl rfl rfl | intro _ | rfl

theorem enterFallback_keeps {a : State} (s : State) (h : Keeps a s) : Keeps a (enterFallback s) := by
  unfold enterFallback
  try dsimp only
  repeat' first
    | with_reducible first
        | assumption | intro _ | apply raiseFw_keeps | apply lowerToGrant_keeps | apply ringOut_keeps
        | apply loseRequests_keeps | apply State.updLink_keeps
    | split | dsimp only | assumption | exact Keeps.of_same (by assumption) rfl rfl rfl rfl rfl rfl rfl | intro _ | rfl

theorem relayPoll_keeps {a : State} (msg : List Byte) (modulation : ℕ) (delay : ℕ) (s : State) (h : Keeps a s) : Keeps a (relayPoll msg modulation delay s) := by
  unfold relayPoll
  try dsimp only
  repeat' first
    | with_reducible first
        | assumption | intro _ | apply transmit_keeps | apply State.updLink_keeps
    | split | dsimp only | assumption | exact Keeps.of_same (by assumption) rfl rfl rfl rfl rfl rfl rfl | intro _ | rfl

theorem relayAnswer_keeps {a : State} (msg : List Byte) (modulation : ℕ) (s : State) (h : Keeps a s) : Keeps a (relayAnswer msg modulation s) := by
  unfold relayAnswer
  try dsimp only
  repeat' first
    | with_reducible first
        | assumption | intro _ | apply transmit_keeps | apply State.updLink_keeps
    | split | dsimp only | assumption | exact Keeps.of_same (by assumption) rfl rfl rfl rfl rfl rfl rfl | intro _ | rfl

theorem relayForward_keeps {a : State} (isAnswer : Bool) (msg : List Byte) (modulation : ℕ) (delay : ℕ) (input : List (BitVec 16)) (s : State) (h : Keeps a s) : Keeps a (relayForward isAnswer msg modulation delay input s) := by
  unfold relayForward
  try dsimp only
  repeat' first
    | with_reducible first
        | assumption | intro _ | apply relayAnswer_keeps | apply relayPoll_keeps | apply receive_keeps
    | split | dsimp only | assumption | exact Keeps.of_same (by assumption) rfl rfl rfl rfl rfl rfl rfl | intro _ | rfl

theorem siteRecord_keeps {a : State} (c : ℕ) (kind : ℕ) (bs : List Byte) (s : State) (h : Keeps a s) : Keeps a (siteRecord c kind bs s) := by
  unfold siteRecord
  try dsimp only
  repeat' first
    | with_reducible first
        | assumption | intro _ | apply qEnqueue_keeps | refine qEnqueue_keeps' (by assumption) ?_ | apply foldl_keeps
    | split | dsimp only | assumption | exact Keeps.of_same (by assumption) rfl rfl rfl rfl rfl rfl rfl | intro _ | rfl

theorem startDelivery_keeps {a : State} (f : ChunkFrame) (length : ℕ) (sha : BitVec 256) (parent : ℕ) (parentHub : Bool) (member : Bool) (owner : List Byte) (s : State) (h : Keeps a s) : Keeps a (startDelivery f length sha parent parentHub member owner s) := by
  unfold startDelivery
  try dsimp only
  repeat' first
    | with_reducible first
        | assumption | intro _ | apply openSlot_keeps | apply modFw_keeps | apply State.updLink_keeps
    | split | dsimp only | assumption | exact Keeps.of_same (by assumption) rfl rfl rfl rfl rfl rfl rfl | intro _ | rfl

theorem takeData_keeps {a : State} (f : ChunkFrame) (bytes : List Byte) (d : Delivery) (s : State) (h : Keeps a s) : Keeps a (takeData f bytes d s) := by
  unfold takeData
  try dsimp only
  repeat' first
    | with_reducible first
        | assumption | intro _ | apply storeOver_keeps | apply State.updLink_keeps
    | split | dsimp only | assumption | exact Keeps.of_same (by assumption) rfl rfl rfl rfl rfl rfl rfl | intro _ | rfl

theorem chunkPassed_keeps {a : State} (f : ChunkFrame) (s : State) (h : Keeps a s) : Keeps a (chunkPassed f s) := by
  unfold chunkPassed
  try dsimp only
  repeat' first
    | with_reducible first
        | assumption | intro _ | apply takeData_keeps | apply siteRecord_keeps | apply linkViolation_keeps
        | apply State.updLink_keeps | apply startDelivery_keeps | apply foldl_keeps
    | split | dsimp only | assumption | exact Keeps.of_same (by assumption) rfl rfl rfl rfl rfl rfl rfl | intro _ | rfl

theorem hearChunk_keeps {a : State} (f : ChunkFrame) (s : State) (h : Keeps a s) : Keeps a (hearChunk f s) := by
  unfold hearChunk
  try dsimp only
  repeat' first
    | with_reducible first
        | assumption | intro _ | apply chunkPassed_keeps | apply receive_keeps
    | split | dsimp only | assumption | exact Keeps.of_same (by assumption) rfl rfl rfl rfl rfl rfl rfl | intro _ | rfl

theorem ownWindow_keeps {a : State} (s : State) (h : Keeps a s) : Keeps a (ownWindow s) := by
  unfold ownWindow
  try dsimp only
  repeat' first
    | with_reducible first
        | assumption | intro _ | apply transmit_keeps | apply State.updLink_keeps
    | split | dsimp only | assumption | exact Keeps.of_same (by assumption) rfl rfl rfl rfl rfl rfl rfl | intro _ | rfl

theorem install_keeps {a : State} (d : Delivery) (s : State) (h : Keeps a s) : Keeps a (install d s) := by
  unfold install
  try dsimp only
  repeat' first
    | with_reducible first
        | assumption | intro _ | apply applyDelta_keeps | apply loadCalendar_keeps | apply verifySlot_keeps
        | apply checkForme_keeps
    | split | dsimp only | assumption | exact Keeps.of_same (by assumption) rfl rfl rfl rfl rfl rfl rfl | intro _ | rfl

theorem objectVerify_keeps {a : State} (s : State) (h : Keeps a s) : Keeps a (objectVerify s) := by
  unfold objectVerify
  try dsimp only
  repeat' first
    | with_reducible first
        | assumption | intro _ | apply linkViolation_keeps | apply install_keeps | apply State.updLink_keeps
    | split | dsimp only | assumption | exact Keeps.of_same (by assumption) rfl rfl rfl rfl rfl rfl rfl | intro _ | rfl

theorem allocViolation_keeps {a : State} (k : ℕ) (c : ℕ) (value : ℕ) (s : State) (h : Keeps a s) : Keeps a (allocViolation k c value s) := by
  unfold allocViolation
  try dsimp only
  repeat' first
    | with_reducible first
        | assumption | intro _ | apply logViolationAs_keeps | apply incF_keeps
    | split | dsimp only | assumption | exact Keeps.of_same (by assumption) rfl rfl rfl rfl rfl rfl rfl | intro _ | rfl

theorem chanAnswer_keeps {a : State} (c : ℕ) (amps : Vector ℕ 3) (exporting : BitVec 3) (evReq : ℕ) (closed : Bool) (s : State) (h : Keeps a s) : Keeps a (chanAnswer c amps exporting evReq closed s) := by
  unfold chanAnswer
  try dsimp only
  repeat' first
    | with_reducible first
        | assumption | intro _ | apply modChan_keeps | apply allocViolation_keeps
    | split | dsimp only | assumption | exact Keeps.of_same (by assumption) rfl rfl rfl rfl rfl rfl rfl | intro _ | rfl

theorem putImport_keeps {a : State} (r : Ask × ℕ) (s : State) (h : Keeps a s) : Keeps a (putImport r s) := by
  unfold putImport
  try dsimp only
  repeat' first
    | with_reducible first
        | assumption | intro _ | apply modChan_keeps
    | split | dsimp only | assumption | exact Keeps.of_same (by assumption) rfl rfl rfl rfl rfl rfl rfl | intro _ | rfl

theorem putExport_keeps {a : State} (r : Ask × ℕ) (s : State) (h : Keeps a s) : Keeps a (putExport r s) := by
  unfold putExport
  try dsimp only
  repeat' first
    | with_reducible first
        | assumption | intro _ | apply modChan_keeps
    | split | dsimp only | assumption | exact Keeps.of_same (by assumption) rfl rfl rfl rfl rfl rfl rfl | intro _ | rfl

theorem readOwn_keeps {a : State} (s : State) (h : Keeps a s) : Keeps a (readOwn s) := by
  unfold readOwn
  try dsimp only
  repeat' first
    | with_reducible first
        | assumption | intro _ | apply chanAnswer_keeps
    | split | dsimp only | assumption | exact Keeps.of_same (by assumption) rfl rfl rfl rfl rfl rfl rfl | intro _ | rfl

theorem answerRequests_keeps {a : State} (s : State) (h : Keeps a s) : Keeps a (answerRequests s) := by
  unfold answerRequests
  try dsimp only
  repeat' first
    | with_reducible first
        | assumption | intro _ | apply finishCall_keeps | apply State.updAlloc_keeps | apply modNode_keeps
        | apply foldl_keeps
    | split | dsimp only | assumption | exact Keeps.of_same (by assumption) rfl rfl rfl rfl rfl rfl rfl | intro _ | rfl

theorem showRun_keeps {a : State} (imp : RunResult) (heads : List ℕ) (budget : ℕ) (s : State) (h : Keeps a s) : Keeps a (showRun imp heads budget s) := by
  unfold showRun
  try dsimp only
  repeat' first
    | with_reducible first
        | assumption | intro _ | apply setB_keeps | apply setF_keeps | apply foldl_keeps | apply risingFrom_filter
        | apply mapWf_filter
    | split | dsimp only | assumption | exact Keeps.of_same (by assumption) rfl rfl rfl rfl rfl rfl rfl | intro _ | rfl

theorem allocRun_keeps {a : State} (s : State) (h : Keeps a s) : Keeps a (allocRun s) := by
  unfold allocRun
  try dsimp only
  repeat' first
    | with_reducible first
        | assumption | intro _ | apply raiseFw_keeps | apply lowerToGrant_keeps | apply putExport_keeps
        | apply readOwn_keeps | apply ringOut_keeps | apply setF_keeps | apply putImport_keeps | apply showRun_keeps
        | apply State.updLink_keeps | apply answerRequests_keeps | apply foldl_keeps
    | split | dsimp only | assumption | exact Keeps.of_same (by assumption) rfl rfl rfl rfl rfl rfl rfl | intro _ | rfl

theorem writeSa_keeps {a : State} (imp : ℕ) (exp : ℕ) (s : State) (h : Keeps a s) : Keeps a (writeSa imp exp s) := by
  unfold writeSa
  try dsimp only
  repeat' first
    | with_reducible first
        | assumption | intro _ | apply lowerToGrant_keeps | apply noteSetting_keeps | apply setF_keeps
        | apply State.updAlloc_keeps
    | split | dsimp only | assumption | exact Keeps.of_same (by assumption) rfl rfl rfl rfl rfl rfl rfl | intro _ | rfl

theorem hubSigns_keeps {a : State} (msg : List Byte) (s : State) (h : Keeps a s) : Keeps a (hubSigns msg s).2 := by
  unfold hubSigns
  try dsimp only
  repeat' first
    | with_reducible first
        | assumption | intro _ | apply State.updSys_keeps
    | split | dsimp only | assumption | exact Keeps.of_same (by assumption) rfl rfl rfl rfl rfl rfl rfl | intro _ | rfl

theorem hubSigns_keeps' {a t : State} {msg : List Byte} {s : State} {v0} (e : hubSigns msg s = (v0, t)) (h : Keeps a s) : Keeps a t := by
  have q := hubSigns_keeps (a := a) msg s h
  rw [e] at q
  exact q

theorem pubChunk_keeps {a : State} (p : Pub) (k : ℕ) (s : State) (h : Keeps a s) : Keeps a (pubChunk p k s).2 := by
  unfold pubChunk
  try dsimp only
  repeat' first
    | with_reducible first
        | assumption | intro _ | apply hubSigns_keeps | refine hubSigns_keeps' (by assumption) ?_
    | split | dsimp only | assumption | exact Keeps.of_same (by assumption) rfl rfl rfl rfl rfl rfl rfl | intro _ | rfl

theorem pubChunk_keeps' {a t : State} {p : Pub} {k : ℕ} {s : State} {v0} (e : pubChunk p k s = (v0, t)) (h : Keeps a s) : Keeps a t := by
  have q := pubChunk_keeps (a := a) p k s h
  rw [e] at q
  exact q

theorem hubWindow_keeps {a : State} (s : State) (h : Keeps a s) : Keeps a (hubWindow s) := by
  unfold hubWindow
  try dsimp only
  repeat' first
    | with_reducible first
        | assumption | intro _ | apply pubChunk_keeps | refine pubChunk_keeps' (by assumption) ?_
        | apply transmit_keeps | apply State.updLink_keeps
    | split | dsimp only | assumption | exact Keeps.of_same (by assumption) rfl rfl rfl rfl rfl rfl rfl | intro _ | rfl

theorem markResync_keeps {a : State} (c : ℕ) (on : Bool) (s : State) (h : Keeps a s) : Keeps a (markResync c on s) := by
  unfold markResync
  try dsimp only
  repeat' first
    | with_reducible first
        | assumption | intro _ | apply setF_keeps
    | split | dsimp only | assumption | exact Keeps.of_same (by assumption) rfl rfl rfl rfl rfl rfl rfl | intro _ | rfl

theorem publishSeries_keeps {a : State} (c : ℕ) (s : State) (h : Keeps a s) : Keeps a (publishSeries c s) := by
  unfold publishSeries
  try dsimp only
  repeat' first
    | with_reducible first
        | assumption | intro _ | apply markResync_keeps | apply publish_keeps | apply foldl_keeps
    | split | dsimp only | assumption | exact Keeps.of_same (by assumption) rfl rfl rfl rfl rfl rfl rfl | intro _ | rfl

theorem endDelivery_keeps {a : State} (s : State) (h : Keeps a s) : Keeps a (endDelivery s) := by
  unfold endDelivery
  try dsimp only
  repeat' first
    | with_reducible first
        | assumption | intro _ | apply markResync_keeps | apply State.updLink_keeps
    | split | dsimp only | assumption | exact Keeps.of_same (by assumption) rfl rfl rfl rfl rfl rfl rfl | intro _ | rfl

theorem takeDeliv_keeps {a : State} (c : ℕ) (id : ℕ) (next : ℕ) (s : State) (h : Keeps a s) : Keeps a (takeDeliv c id next s) := by
  unfold takeDeliv
  try dsimp only
  repeat' first
    | with_reducible first
        | assumption | intro _ | apply endDelivery_keeps | apply publishSeries_keeps | apply modNode_keeps
        | apply State.updLink_keeps
    | split | dsimp only | assumption | exact Keeps.of_same (by assumption) rfl rfl rfl rfl rfl rfl rfl | intro _ | rfl

theorem publishNotice_keeps {a : State} (s : State) (h : Keeps a s) : Keeps a (publishNotice s) := by
  unfold publishNotice
  try dsimp only
  repeat' first
    | with_reducible first
        | assumption | intro _ | apply publish_keeps | apply State.updLink_keeps
    | split | dsimp only | assumption | exact Keeps.of_same (by assumption) rfl rfl rfl rfl rfl rfl rfl | intro _ | rfl

theorem mendLeads_keeps {a : State} (s : State) (h : Keeps a s) : Keeps a (mendLeads s) := by
  unfold mendLeads
  try dsimp only
  repeat' first
    | with_reducible first
        | assumption | intro _ | apply chooseLead_keeps | apply foldl_keeps
    | split | dsimp only | assumption | exact Keeps.of_same (by assumption) rfl rfl rfl rfl rfl rfl rfl | intro _ | rfl

theorem dropLinkSlot_keeps {a : State} (s : State) (h : Keeps a s) : Keeps a (dropLinkSlot s) := by
  unfold dropLinkSlot
  try dsimp only
  repeat' first
    | with_reducible first
        | assumption | intro _ | apply firmwareLetsGo_keeps | apply State.updLink_keeps
    | split | dsimp only | assumption | exact Keeps.of_same (by assumption) rfl rfl rfl rfl rfl rfl rfl | intro _ | rfl

theorem takeLinkSlot_keeps {a : State} (c : ℕ) (s : State) (h : Keeps a s) : Keeps a (takeLinkSlot c s) := by
  unfold takeLinkSlot
  try dsimp only
  repeat' first
    | with_reducible first
        | assumption | intro _ | apply place_keeps | refine place_keeps' (by assumption) ?_ | apply modSlot_keeps
        | apply dropLinkSlot_keeps | apply State.updLink_keeps
    | split | dsimp only | assumption | exact Keeps.of_same (by assumption) rfl rfl rfl rfl rfl rfl rfl | intro _ | rfl

theorem sendPoll_keeps {a : State} (retry : Bool) (s : State) (h : Keeps a s) : Keeps a (sendPoll retry s) := by
  unfold sendPoll
  try dsimp only
  repeat' first
    | with_reducible first
        | assumption | intro _ | apply mendLeads_keeps | apply takeLinkSlot_keeps | apply transmit_keeps
        | apply dropLinkSlot_keeps | apply State.updLink_keeps
    | split | dsimp only | assumption | exact Keeps.of_same (by assumption) rfl rfl rfl rfl rfl rfl rfl | intro _ | rfl

theorem roundStart_keeps {a : State} (s : State) (h : Keeps a s) : Keeps a (roundStart s) := by
  unfold roundStart
  try dsimp only
  repeat' first
    | with_reducible first
        | assumption | intro _ | apply chooseLead_keeps | apply setHealth_keeps | apply sendPoll_keeps
        | apply publishNotice_keeps | apply boundary_keeps | apply setF_keeps | apply State.updAlloc_keeps
        | apply State.updLink_keeps | apply foldl_keeps | apply risingFrom_filter | apply mapWf_filter
    | split | dsimp only | assumption | exact Keeps.of_same (by assumption) rfl rfl rfl rfl rfl rfl rfl | intro _ | rfl

theorem nextExchange_keeps {a : State} (s : State) (h : Keeps a s) : Keeps a (nextExchange s) := by
  unfold nextExchange
  try dsimp only
  repeat' first
    | with_reducible first
        | assumption | intro _ | apply sendPoll_keeps | apply State.updLink_keeps
    | split | dsimp only | assumption | exact Keeps.of_same (by assumption) rfl rfl rfl rfl rfl rfl rfl | intro _ | rfl

theorem markMissed_keeps {a : State} (c : ℕ) (s : State) (h : Keeps a s) : Keeps a (markMissed c s) := by
  unfold markMissed
  try dsimp only
  repeat' first
    | with_reducible first
        | assumption | intro _ | apply incF_keeps | apply modNode_keeps | apply State.updLink_keeps
    | split | dsimp only | assumption | exact Keeps.of_same (by assumption) rfl rfl rfl rfl rfl rfl rfl | intro _ | rfl

theorem exchangeFail_keeps {a : State} (why : FailCause) (s : State) (h : Keeps a s) : Keeps a (exchangeFail why s) := by
  unfold exchangeFail
  try dsimp only
  repeat' first
    | with_reducible first
        | assumption | intro _ | apply sendPoll_keeps | apply nextExchange_keeps | apply linkViolation_keeps
        | apply incF_keeps | apply markMissed_keeps
    | split | dsimp only | assumption | exact Keeps.of_same (by assumption) rfl rfl rfl rfl rfl rfl rfl | intro _ | rfl

theorem sendJoin_keeps {a : State} (ident : BitVec 64) (fs : List JoinFrame) (s : State) (h : Keeps a s) : Keeps a (sendJoin ident fs s) := by
  unfold sendJoin
  try dsimp only
  repeat' first
    | with_reducible first
        | assumption | intro _ | apply State.updLink_keeps | apply risingFrom_filter | apply mapWf_filter
    | split | dsimp only | assumption | exact Keeps.of_same (by assumption) rfl rfl rfl rfl rfl rfl rfl | intro _ | rfl

theorem joinHeard_keeps {a : State} (ident : BitVec 64) (repeater : Bool) (snr : ℕ) (sponsor : ℕ) (s : State) (h : Keeps a s) : Keeps a (joinHeard ident repeater snr sponsor s) := by
  unfold joinHeard
  try dsimp only
  repeat' first
    | with_reducible first
        | assumption | intro _ | apply raiseFw_keeps | apply sendJoin_keeps | apply freeWide_keeps
        | refine freeWide_keeps' (by assumption) ?_ | apply linkViolation_keeps | apply ringOut_keeps
        | apply State.updLink_keeps
    | split | dsimp only | assumption | exact Keeps.of_same (by assumption) rfl rfl rfl rfl rfl rfl rfl | intro _ | rfl

theorem foreignRecord_keeps {a : State} (bs : List Byte) (s : State) (h : Keeps a s) : Keeps a (foreignRecord bs s) := by
  unfold foreignRecord
  try dsimp only
  repeat' first
    | with_reducible first
        | assumption | intro _ | apply State.updLed_keeps | apply writeSeal_keeps | apply recordsLost_keeps
        | apply ringPut_keeps | refine ringPut_keeps' (by assumption) ?_
    | split | dsimp only | assumption | exact Keeps.of_same (by assumption) rfl rfl rfl rfl rfl rfl rfl | intro _ | rfl

theorem foreignSeal_keeps {a : State} (c : ℕ) (bs : List Byte) (s : State) (h : Keeps a s) : Keeps a (foreignSeal c bs s) := by
  unfold foreignSeal
  try dsimp only
  repeat' first
    | with_reducible first
        | assumption | intro _ | apply writeEvent_keeps | apply logViolationAs_keeps | apply setF_keeps
        | apply modNode_keeps | apply foreignRecord_keeps | apply foldl_keeps
    | split | dsimp only | assumption | exact Keeps.of_same (by assumption) rfl rfl rfl rfl rfl rfl rfl | intro _ | rfl

theorem upComplete_keeps {a : State} (c : ℕ) (kind : ℕ) (bs : List Byte) (s : State) (h : Keeps a s) : Keeps a (upComplete c kind bs s) := by
  unfold upComplete
  try dsimp only
  repeat' first
    | with_reducible first
        | assumption | intro _ | apply siteRecord_keeps | apply joinHeard_keeps | apply modNode_keeps
        | apply foreignSeal_keeps
    | split | dsimp only | assumption | exact Keeps.of_same (by assumption) rfl rfl rfl rfl rfl rfl rfl | intro _ | rfl

theorem takeSlot_keeps {a : State} (c : ℕ) (ctrl : ℕ) (bs : List Byte) (s : State) (h : Keeps a s) : Keeps a (takeSlot c ctrl bs s) := by
  unfold takeSlot
  try dsimp only
  repeat' first
    | with_reducible first
        | assumption | intro _ | apply modNode_keeps | apply upComplete_keeps
    | split | dsimp only | assumption | exact Keeps.of_same (by assumption) rfl rfl rfl rfl rfl rfl rfl | intro _ | rfl

theorem takeCost_keeps {a : State} (c : ℕ) (prepay : Bool) (cost : ℤ) (s : State) (h : Keeps a s) : Keeps a (takeCost c prepay cost s) := by
  unfold takeCost
  try dsimp only
  repeat' first
    | with_reducible first
        | assumption | intro _ | apply linkViolation_keeps | apply modAccount_keeps | apply modNode_keeps
    | split | dsimp only | assumption | exact Keeps.of_same (by assumption) rfl rfl rfl rfl rfl rfl rfl | intro _ | rfl

theorem addReply_keeps {a : State} (kind : ℕ) (value : ℕ) (c : ℕ) (s : State) (h : Keeps a s) : Keeps a (addReply kind value c s) := by
  unfold addReply
  try dsimp only
  repeat' first
    | with_reducible first
        | assumption | intro _ | apply modNode_keeps
    | split | dsimp only | assumption | exact Keeps.of_same (by assumption) rfl rfl rfl rfl rfl rfl rfl | intro _ | rfl

theorem badRequest_keeps {a : State} (kind : ℕ) (c : ℕ) (s : State) (h : Keeps a s) : Keeps a (badRequest kind c s) := by
  unfold badRequest
  try dsimp only
  repeat' first
    | with_reducible first
        | assumption | intro _ | apply addReply_keeps | apply linkViolation_keeps
    | split | dsimp only | assumption | exact Keeps.of_same (by assumption) rfl rfl rfl rfl rfl rfl rfl | intro _ | rfl

theorem takeConfirm_keeps {a : State} (req : List Byte) (c : ℕ) (s : State) (h : Keeps a s) : Keeps a (takeConfirm req c s) := by
  unfold takeConfirm
  try dsimp only
  repeat' first
    | with_reducible first
        | assumption | intro _ | apply lookup_keeps | refine lookup_keeps' (by assumption) ?_ | apply addReply_keeps
        | apply modNode_keeps | apply badRequest_keeps
    | split | dsimp only | assumption | exact Keeps.of_same (by assumption) rfl rfl rfl rfl rfl rfl rfl | intro _ | rfl

theorem takeAlloc_keeps {a : State} (req : List Byte) (c : ℕ) (s : State) (h : Keeps a s) : Keeps a (takeAlloc req c s) := by
  unfold takeAlloc
  try dsimp only
  repeat' first
    | with_reducible first
        | assumption | intro _ | apply newRequest_keeps | apply releaseChannel_keeps | apply modNode_keeps
        | apply badRequest_keeps | apply allocViolation_keeps | apply risingFrom_filter | apply mapWf_filter
    | split | dsimp only | assumption | exact Keeps.of_same (by assumption) rfl rfl rfl rfl rfl rfl rfl | intro _ | rfl

theorem takeEmergency_keeps {a : State} (c : ℕ) (s : State) (h : Keeps a s) : Keeps a (takeEmergency c s) := by
  unfold takeEmergency
  try dsimp only
  repeat' first
    | with_reducible first
        | assumption | intro _ | apply addReply_keeps | apply grantEmergency_keeps
        | refine grantEmergency_keeps' (by assumption) ?_
    | split | dsimp only | assumption | exact Keeps.of_same (by assumption) rfl rfl rfl rfl rfl rfl rfl | intro _ | rfl

theorem takePlace_keeps {a : State} (req : List Byte) (c : ℕ) (s : State) (h : Keeps a s) : Keeps a (takePlace req c s) := by
  unfold takePlace
  try dsimp only
  repeat' first
    | with_reducible first
        | assumption | intro _ | apply takeEmergency_keeps | apply takeAlloc_keeps | apply badRequest_keeps
    | split | dsimp only | assumption | exact Keeps.of_same (by assumption) rfl rfl rfl rfl rfl rfl rfl | intro _ | rfl

theorem takeRequests_keeps {a : State} (req : List Byte) (c : ℕ) (s : State) (h : Keeps a s) : Keeps a (takeRequests req c s) := by
  unfold takeRequests
  try dsimp only
  repeat' first
    | with_reducible first
        | assumption | intro _ | apply takePlace_keeps | apply takeConfirm_keeps
    | split | dsimp only | assumption | exact Keeps.of_same (by assumption) rfl rfl rfl rfl rfl rfl rfl | intro _ | rfl

theorem learnAnswer_keeps {a : State} (c : ℕ) (a_ : AnswerFrame) (r : Reception) (s : State) (h : Keeps a s) : Keeps a (learnAnswer c a_ r s) := by
  unfold learnAnswer
  try dsimp only
  repeat' first
    | with_reducible first
        | assumption | intro _ | apply learnHop_keeps | apply State.updLink_keeps | apply foldl_keeps
        | apply risingFrom_filter | apply mapWf_filter
    | split | dsimp only | assumption | exact Keeps.of_same (by assumption) rfl rfl rfl rfl rfl rfl rfl | intro _ | rfl

theorem learnState_keeps {a : State} (c : ℕ) (a_ : AnswerFrame) (s : State) (h : Keeps a s) : Keeps a (learnState c a_ s) := by
  unfold learnState
  try dsimp only
  repeat' first
    | with_reducible first
        | assumption | intro _ | apply modNode_keeps
    | split | dsimp only | assumption | exact Keeps.of_same (by assumption) rfl rfl rfl rfl rfl rfl rfl | intro _ | rfl

theorem answerHeard_keeps {a : State} (a_ : AnswerFrame) (r : Reception) (s : State) (h : Keeps a s) : Keeps a (answerHeard a_ r s) := by
  unfold answerHeard
  try dsimp only
  repeat' first
    | with_reducible first
        | assumption | intro _ | apply chanAnswer_keeps | apply takeDeliv_keeps | apply nextExchange_keeps
        | apply takeSlot_keeps | apply learnAnswer_keeps | apply takeRequests_keeps | apply learnState_keeps
        | apply takeCost_keeps
    | split | dsimp only | assumption | exact Keeps.of_same (by assumption) rfl rfl rfl rfl rfl rfl rfl | intro _ | rfl

theorem answerTaken_keeps {a : State} (a_ : AnswerFrame) (r : Reception) (s : State) (h : Keeps a s) : Keeps a (answerTaken a_ r s) := by
  unfold answerTaken
  try dsimp only
  repeat' first
    | with_reducible first
        | assumption | intro _ | apply exchangeFail_keeps | apply answerHeard_keeps | apply receive_keeps
    | split | dsimp only | assumption | exact Keeps.of_same (by assumption) rfl rfl rfl rfl rfl rfl rfl | intro _ | rfl

theorem endPairing_keeps {a : State} (s : State) (h : Keeps a s) : Keeps a (endPairing s) := by
  unfold endPairing
  try dsimp only
  repeat' first
    | with_reducible first
        | assumption | intro _ | apply setF_keeps | apply firmwareLetsGo_keeps | apply State.updLink_keeps
    | split | dsimp only | assumption | exact Keeps.of_same (by assumption) rfl rfl rfl rfl rfl rfl rfl | intro _ | rfl

theorem pairKeyed_keeps {a : State} (hubEph : List Byte) (headEph : List Byte) (own : ℕ) (peer : List Byte) (p : Pairing) (s : State) (h : Keeps a s) : Keeps a (pairKeyed hubEph headEph own peer p s) := by
  unfold pairKeyed
  try dsimp only
  repeat' first
    | with_reducible first
        | assumption | intro _ | apply endPairing_keeps | apply place_keeps | refine place_keeps' (by assumption) ?_
        | apply setF_keeps | apply modSlot_keeps | apply State.updLink_keeps
    | split | dsimp only | assumption | exact Keeps.of_same (by assumption) rfl rfl rfl rfl rfl rfl rfl | intro _ | rfl

theorem joinRequest_keeps {a : State} (ident : BitVec 64) (repeater : Bool) (snr : ℕ) (sponsor : ℕ) (input : List (BitVec 16)) (s : State) (h : Keeps a s) : Keeps a (joinRequest ident repeater snr sponsor input s) := by
  unfold joinRequest
  try dsimp only
  repeat' first
    | with_reducible first
        | assumption | intro _ | apply joinHeard_keeps | apply State.updLink_keeps | apply receive_keeps
    | split | dsimp only | assumption | exact Keeps.of_same (by assumption) rfl rfl rfl rfl rfl rfl rfl | intro _ | rfl

theorem pairingReply_keeps {a : State} (eph : List Byte) (ledgerKey : List Byte) (ident : BitVec 64) (s : State) (h : Keeps a s) : Keeps a (pairingReply eph ledgerKey ident s) := by
  unfold pairingReply
  try dsimp only
  repeat' first
    | with_reducible first
        | assumption | intro _ | apply pairKeyed_keeps
    | split | dsimp only | assumption | exact Keeps.of_same (by assumption) rfl rfl rfl rfl rfl rfl rfl | intro _ | rfl

theorem sendSecret_keeps {a : State} (p : Pairing) (s : State) (h : Keeps a s) : Keeps a (sendSecret p s) := by
  unfold sendSecret
  try dsimp only
  repeat' first
    | with_reducible first
        | assumption | intro _ | apply sendJoin_keeps
    | split | dsimp only | assumption | exact Keeps.of_same (by assumption) rfl rfl rfl rfl rfl rfl rfl | intro _ | rfl

theorem register_keeps {a : State} (p : Pairing) (s : State) (h : Keeps a s) : Keeps a (register p s) := by
  unfold register
  try dsimp only
  repeat' first
    | with_reducible first
        | assumption | intro _ | apply modChan_keeps | apply learnHop_keeps | apply setF_keeps
        | apply publishSeries_keeps | apply modNode_keeps
    | split | dsimp only | assumption | exact Keeps.of_same (by assumption) rfl rfl rfl rfl rfl rfl rfl | intro _ | rfl

theorem keyPairOk_keeps {a : State} (s : State) (h : Keeps a s) : Keeps a (keyPairOk s) := by
  unfold keyPairOk
  try dsimp only
  repeat' first
    | with_reducible first
        | assumption | intro _ | apply endPairing_keeps | apply sendSecret_keeps | apply register_keeps
    | split | dsimp only | assumption | exact Keeps.of_same (by assumption) rfl rfl rfl rfl rfl rfl rfl | intro _ | rfl

theorem removeNode_keeps {a : State} (c : ℕ) (s : State) (h : Keeps a s) : Keeps a (removeNode c s) := by
  unfold removeNode
  try dsimp only
  repeat' first
    | with_reducible first
        | assumption | intro _ | apply endPairing_keeps | apply sendPoll_keeps | apply modChan_keeps
        | apply markResync_keeps | apply endDelivery_keeps | apply modNode_keeps | apply State.updLink_keeps
        | apply risingFrom_filter | apply mapWf_filter
    | split | dsimp only | assumption | exact Keeps.of_same (by assumption) rfl rfl rfl rfl rfl rfl rfl | intro _ | rfl

theorem lnkRemove_keeps {a : State} (c : ℕ) (s : State) (h : Keeps a s) : Keeps a (lnkRemove c s).2 := by
  unfold lnkRemove
  try dsimp only
  repeat' first
    | with_reducible first
        | assumption | intro _ | apply sendJoin_keeps | apply removeNode_keeps
    | split | dsimp only | assumption | exact Keeps.of_same (by assumption) rfl rfl rfl rfl rfl rfl rfl | intro _ | rfl

theorem lnkRemove_keeps' {a t : State} {c : ℕ} {s : State} {v0} (e : lnkRemove c s = (v0, t)) (h : Keeps a s) : Keeps a t := by
  have q := lnkRemove_keeps (a := a) c s h
  rw [e] at q
  exact q

theorem unpair_keeps {a : State} (s : State) (h : Keeps a s) : Keeps a (unpair s) := by
  unfold unpair
  try dsimp only
  repeat' first
    | with_reducible first
        | assumption | intro _ | apply endPairing_keeps | apply lowerToGrant_keeps | apply firmwareLetsGo_keeps
        | apply State.updSys_keeps | apply loseRequests_keeps | apply State.updLink_keeps
    | split | dsimp only | assumption | exact Keeps.of_same (by assumption) rfl rfl rfl rfl rfl rfl rfl | intro _ | rfl

theorem endRound_keeps {a : State} (s : State) (h : Keeps a s) : Keeps a (endRound s) := by
  unfold endRound
  try dsimp only
  repeat' first
    | with_reducible first
        | assumption | intro _ | apply sendPoll_keeps | apply State.updLink_keeps
    | split | dsimp only | assumption | exact Keeps.of_same (by assumption) rfl rfl rfl rfl rfl rfl rfl | intro _ | rfl

theorem siteCut_keeps {a : State} (s : State) (h : Keeps a s) : Keeps a (siteCut s) := by
  unfold siteCut
  try dsimp only
  repeat' first
    | with_reducible first
        | assumption | intro _ | apply unpair_keeps | apply endPairing_keeps | apply removeNode_keeps
        | apply endRound_keeps | apply foldl_keeps
    | split | dsimp only | assumption | exact Keeps.of_same (by assumption) rfl rfl rfl rfl rfl rfl rfl | intro _ | rfl

theorem afterCut_keeps {a : State} (k : ℕ) (s : State) (h : Keeps a s) : Keeps a (afterCut k s) := by
  unfold afterCut
  try dsimp only
  repeat' first
    | with_reducible first
        | assumption | intro _ | apply siteCut_keeps | apply tlsScrubbed_keeps
    | split | dsimp only | assumption | exact Keeps.of_same (by assumption) rfl rfl rfl rfl rfl rfl rfl | intro _ | rfl

theorem performCut_keeps {a : State} (k : ℕ) (s : State) (h : Keeps a s) : Keeps a (performCut k s) := by
  unfold performCut
  try dsimp only
  repeat' first
    | with_reducible first
        | assumption | intro _ | apply cutKnot_keeps | apply afterCut_keeps
    | split | dsimp only | assumption | exact Keeps.of_same (by assumption) rfl rfl rfl rfl rfl rfl rfl | intro _ | rfl

theorem lnkUnpair_keeps {a : State} (s : State) (h : Keeps a s) : Keeps a (lnkUnpair s).2 := by
  unfold lnkUnpair
  try dsimp only
  repeat' first
    | with_reducible first
        | assumption | intro _ | apply performCut_keeps
    | split | dsimp only | assumption | exact Keeps.of_same (by assumption) rfl rfl rfl rfl rfl rfl rfl | intro _ | rfl

theorem lnkUnpair_keeps' {a t : State} {s : State} {v0} (e : lnkUnpair s = (v0, t)) (h : Keeps a s) : Keeps a t := by
  have q := lnkUnpair_keeps (a := a) s h
  rw [e] at q
  exact q

theorem joinResult_keeps {a : State} (channel : Option ℕ) (fallback : ℕ) (s : State) (h : Keeps a s) : Keeps a (joinResult channel fallback s) := by
  unfold joinResult
  try dsimp only
  repeat' first
    | with_reducible first
        | assumption | intro _ | apply setF_keeps | apply State.updLink_keeps
    | split | dsimp only | assumption | exact Keeps.of_same (by assumption) rfl rfl rfl rfl rfl rfl rfl | intro _ | rfl

theorem hubKeyHeard_keeps {a : State} (eph : List Byte) (signed : Bool) (s : State) (h : Keeps a s) : Keeps a (hubKeyHeard eph signed s) := by
  unfold hubKeyHeard
  try dsimp only
  repeat' first
    | with_reducible first
        | assumption | intro _ | apply pairKeyed_keeps | apply freeWide_keeps
        | refine freeWide_keeps' (by assumption) ?_
    | split | dsimp only | assumption | exact Keeps.of_same (by assumption) rfl rfl rfl rfl rfl rfl rfl | intro _ | rfl

theorem nodeSecretHeard_keeps {a : State} (wrapped : List Byte) (s : State) (h : Keeps a s) : Keeps a (nodeSecretHeard wrapped s) := by
  unfold nodeSecretHeard
  try dsimp only
  repeat' first
    | with_reducible first
        | assumption | intro _ | apply endPairing_keeps | apply setF_keeps | apply createKnot_keeps
        | refine createKnot_keeps' (by assumption) ?_ | apply State.updSys_keeps | apply State.updLink_keeps
        | apply firmwareDerives_keeps | refine firmwareDerives_keeps' (by assumption) ?_
    | split | dsimp only | assumption | exact Keeps.of_same (by assumption) rfl rfl rfl rfl rfl rfl rfl | intro _ | rfl

theorem joinFrame_keeps {a : State} (f : Received JoinFrame) (s : State) (h : Keeps a s) : Keeps a (joinFrame f s) := by
  unfold joinFrame
  try dsimp only
  repeat' first
    | with_reducible first
        | assumption | intro _ | apply joinResult_keeps | apply performCut_keeps | apply nodeSecretHeard_keeps
        | apply hubKeyHeard_keeps | apply receive_keeps
    | split | dsimp only | assumption | exact Keeps.of_same (by assumption) rfl rfl rfl rfl rfl rfl rfl | intro _ | rfl

theorem keyResult_keeps {a : State} (code : ℕ) (value : ℕ) (s : State) (h : Keeps a s) : Keeps a (keyResult code value s) := by
  unfold keyResult
  try dsimp only
  repeat' first
    | with_reducible first
        | assumption | intro _ | apply setF_keeps
    | split | dsimp only | assumption | exact Keeps.of_same (by assumption) rfl rfl rfl rfl rfl rfl rfl | intro _ | rfl

theorem keyCommand_keeps {a : State} (f : State → ℕ × State) (s : State) (hf : ∀ b, Keeps a b → Keeps a (f b).2) (h : Keeps a s) : Keeps a (keyCommand f s) := by
  unfold keyCommand
  try dsimp only
  repeat' first
    | with_reducible first
        | assumption | intro _ | apply hostTo_keeps | apply hf
    | split | dsimp only | assumption | exact Keeps.of_same (by assumption) rfl rfl rfl rfl rfl rfl rfl | intro _ | rfl

theorem keyCreate_keeps {a : State} (parent : ℕ) (mask : BitVec 8) (len : ℕ) (s : State) (h : Keeps a s) : Keeps a (keyCreate parent mask len s).2 := by
  unfold keyCreate
  try dsimp only
  repeat' first
    | with_reducible first
        | assumption | intro _ | apply keyResult_keeps | apply createKnot_keeps
        | refine createKnot_keeps' (by assumption) ?_
    | split | dsimp only | assumption | exact Keeps.of_same (by assumption) rfl rfl rfl rfl rfl rfl rfl | intro _ | rfl

theorem keyCreate_keeps' {a t : State} {parent : ℕ} {mask : BitVec 8} {len : ℕ} {s : State} {v0} (e : keyCreate parent mask len s = (v0, t)) (h : Keeps a s) : Keeps a t := by
  have q := keyCreate_keeps (a := a) parent mask len s h
  rw [e] at q
  exact q

theorem keyDerive_keeps {a : State} (parent : ℕ) (opt : ℕ) (len : ℕ) (s : State) (h : Keeps a s) : Keeps a (keyDerive parent opt len s).2 := by
  unfold keyDerive
  try dsimp only
  repeat' first
    | with_reducible first
        | assumption | intro _ | apply place_keeps | refine place_keeps' (by assumption) ?_ | apply modSlot_keeps
        | apply keyResult_keeps
    | split | dsimp only | assumption | exact Keeps.of_same (by assumption) rfl rfl rfl rfl rfl rfl rfl | intro _ | rfl

theorem keyDerive_keeps' {a t : State} {parent : ℕ} {opt : ℕ} {len : ℕ} {s : State} {v0} (e : keyDerive parent opt len s = (v0, t)) (h : Keeps a s) : Keeps a t := by
  have q := keyDerive_keeps (a := a) parent opt len s h
  rw [e] at q
  exact q

theorem keyRelease_keeps {a : State} (i : ℕ) (fails : Bool) (s : State) (h : Keeps a s) : Keeps a (keyRelease i fails s).2 := by
  unfold keyRelease
  try dsimp only
  repeat' first
    | with_reducible first
        | assumption | intro _ | apply modSlot_keeps | apply keyResult_keeps | apply settleSlot_keeps
    | split | dsimp only | assumption | exact Keeps.of_same (by assumption) rfl rfl rfl rfl rfl rfl rfl | intro _ | rfl

theorem keyRelease_keeps' {a t : State} {i : ℕ} {fails : Bool} {s : State} {v0} (e : keyRelease i fails s = (v0, t)) (h : Keeps a s) : Keeps a t := by
  have q := keyRelease_keeps (a := a) i fails s h
  rw [e] at q
  exact q

theorem keyCut_keeps {a : State} (k : ℕ) (s : State) (h : Keeps a s) : Keeps a (keyCut k s).2 := by
  unfold keyCut
  try dsimp only
  repeat' first
    | with_reducible first
        | assumption | intro _ | apply performCut_keeps | apply setF_keeps | apply State.updKey_keeps
        | apply keyResult_keeps
    | split | dsimp only | assumption | exact Keeps.of_same (by assumption) rfl rfl rfl rfl rfl rfl rfl | intro _ | rfl

theorem keyCut_keeps' {a t : State} {k : ℕ} {s : State} {v0} (e : keyCut k s = (v0, t)) (h : Keeps a s) : Keeps a t := by
  have q := keyCut_keeps (a := a) k s h
  rw [e] at q
  exact q

theorem cutAfterPause_keeps {a : State} (s : State) (h : Keeps a s) : Keeps a (cutAfterPause s) := by
  unfold cutAfterPause
  try dsimp only
  repeat' first
    | with_reducible first
        | assumption | intro _ | apply performCut_keeps | apply setF_keeps | apply State.updKey_keeps
        | apply keyResult_keeps
    | split | dsimp only | assumption | exact Keeps.of_same (by assumption) rfl rfl rfl rfl rfl rfl rfl | intro _ | rfl

theorem keyImport_keeps {a : State} (parent : ℕ) (mask : BitVec 8) (len : ℕ) (s : State) (h : Keeps a s) : Keeps a (keyImport parent mask len s).2 := by
  unfold keyImport
  try dsimp only
  repeat' first
    | with_reducible first
        | assumption | intro _ | apply State.cap_capKeeps | apply keyResult_keeps | apply createKnot_keeps
        | refine createKnot_keeps' (by assumption) ?_ | apply updCaseMem_keeps | apply updShared_keeps
        | apply updProg_keeps | apply State.updCap_keeps | apply mapWf_putBytes
    | split | dsimp only | assumption | with_reducible exact CapKeeps.refl _
    | (refine CapKeeps.of_same rfl rfl rfl ?_; with_reducible first | assumption | apply State.cap_capKeeps)
    | exact Keeps.of_same (by assumption) rfl rfl rfl rfl rfl rfl rfl | intro _ | rfl

theorem keyImport_keeps' {a t : State} {parent : ℕ} {mask : BitVec 8} {len : ℕ} {s : State} {v0} (e : keyImport parent mask len s = (v0, t)) (h : Keeps a s) : Keeps a t := by
  have q := keyImport_keeps (a := a) parent mask len s h
  rw [e] at q
  exact q

theorem readPublic_keeps {a : State} (i : ℕ) (s : State) (h : Keeps a s) : Keeps a (readPublic i s).2 := by
  unfold readPublic
  try dsimp only
  repeat' first
    | with_reducible first
        | assumption | intro _ | apply setF_keeps | apply keyResult_keeps | apply foldl_keeps
    | split | dsimp only | assumption | exact Keeps.of_same (by assumption) rfl rfl rfl rfl rfl rfl rfl | intro _ | rfl

theorem readPublic_keeps' {a t : State} {i : ℕ} {s : State} {v0} (e : readPublic i s = (v0, t)) (h : Keeps a s) : Keeps a t := by
  have q := readPublic_keeps (a := a) i s h
  rw [e] at q
  exact q

theorem releaseOlder_keeps {a : State} (n : Fin 320) (s : State) (h : Keeps a s) : Keeps a (releaseOlder n s) := by
  unfold releaseOlder
  try dsimp only
  repeat' first
    | with_reducible first
        | assumption | intro _ | apply State.updKey_keeps | apply settleSlot_keeps | apply risingFrom_filter
        | apply mapWf_filter
    | split | dsimp only | assumption | exact Keeps.of_same (by assumption) rfl rfl rfl rfl rfl rfl rfl | intro _ | rfl

theorem strandDerives_keeps {a : State} (n : Fin 320) (w : WorkKey) (s : State) (h : Keeps a s) : Keeps a (strandDerives n w s).2.2 := by
  unfold strandDerives
  try dsimp only
  repeat' first
    | with_reducible first
        | assumption | intro _ | apply releaseOlder_keeps | apply place_keeps | refine place_keeps' (by assumption) ?_
        | apply State.updKey_keeps | apply risingFrom_filter | apply mapWf_filter
    | split | dsimp only | assumption | exact Keeps.of_same (by assumption) rfl rfl rfl rfl rfl rfl rfl | intro _ | rfl

theorem strandDerives_keeps' {a t : State} {n : Fin 320} {w : WorkKey} {s : State} {v0 v1} (e : strandDerives n w s = (v0, v1, t)) (h : Keeps a s) : Keeps a t := by
  have q := strandDerives_keeps (a := a) n w s h
  rw [e] at q
  exact q

theorem svcDerive_keeps {a : State} (c : Call) (s : State) (h : Keeps a s) : Keeps a (svcDerive c s) := by
  unfold svcDerive
  try dsimp only
  repeat' first
    | with_reducible first
        | assumption | intro _ | apply finishCode_keeps | apply State.cap_capKeeps | apply strandDerives_keeps
        | refine strandDerives_keeps' (by assumption) ?_ | apply createKnot_keeps
        | refine createKnot_keeps' (by assumption) ?_
    | split | dsimp only | assumption
    | (refine CapKeeps.of_same rfl rfl rfl ?_; with_reducible first | assumption | apply State.cap_capKeeps)
    | exact Keeps.of_same (by assumption) rfl rfl rfl rfl rfl rfl rfl | intro _ | rfl

theorem svcCut_keeps {a : State} (c : Call) (s : State) (h : Keeps a s) : Keeps a (svcCut c s) := by
  unfold svcCut
  try dsimp only
  repeat' first
    | with_reducible first
        | assumption | intro _ | apply finishCode_keeps | apply performCut_keeps
    | split | dsimp only | assumption | exact Keeps.of_same (by assumption) rfl rfl rfl rfl rfl rfl rfl | intro _ | rfl

theorem svcMac_keeps {a : State} (c : Call) (s : State) (h : Keeps a s) : Keeps a (svcMac c s) := by
  unfold svcMac
  try dsimp only
  repeat' first
    | with_reducible first
        | assumption | intro _ | apply finishCode_keeps | apply State.cap_capKeeps
    | split | dsimp only | assumption
    | (refine CapKeeps.of_same rfl rfl rfl ?_; with_reducible first | assumption | apply State.cap_capKeeps)
    | exact Keeps.of_same (by assumption) rfl rfl rfl rfl rfl rfl rfl | intro _ | rfl

theorem presChanged_keeps {a : State} (before : ℕ) (s : State) (h : Keeps a s) : Keeps a (presChanged before s) := by
  unfold presChanged
  try dsimp only
  repeat' first
    | with_reducible first
        | assumption | intro _ | apply raiseHw_keeps | apply ringOut_keeps
    | split | dsimp only | assumption | exact Keeps.of_same (by assumption) rfl rfl rfl rfl rfl rfl rfl | intro _ | rfl

theorem sealPress_keeps {a : State} (jumper : Bool) (s : State) (h : Keeps a s) : Keeps a (sealPress jumper s) := by
  unfold sealPress
  try dsimp only
  repeat' first
    | with_reducible first
        | assumption | intro _ | apply presChanged_keeps | apply boundary_keeps | apply setB_keeps | apply setF_keeps
        | apply State.updKey_keeps | apply State.updLink_keeps
    | split | dsimp only | assumption | exact Keeps.of_same (by assumption) rfl rfl rfl rfl rfl rfl rfl | intro _ | rfl

theorem discardCommission_keeps {a : State} (s : State) (h : Keeps a s) : Keeps a (discardCommission s) := by
  unfold discardCommission
  try dsimp only
  repeat' first
    | with_reducible first
        | assumption | intro _ | apply settle_keeps | apply enterMode_keeps | apply State.updTag_keeps
        | apply State.updSys_keeps
    | split | dsimp only | assumption | exact Keeps.of_same (by assumption) rfl rfl rfl rfl rfl rfl rfl | intro _ | rfl

theorem endDebug_keeps {a : State} (s : State) (h : Keeps a s) : Keeps a (endDebug s) := by
  unfold endDebug
  try dsimp only
  repeat' first
    | with_reducible first
        | assumption | intro _ | apply setF_keeps | apply resumeStrand_keeps | apply foldl_keeps
    | split | dsimp only | assumption | exact Keeps.of_same (by assumption) rfl rfl rfl rfl rfl rfl rfl | intro _ | rfl

theorem metroClosed_keeps {a : State} (s : State) (h : Keeps a s) : Keeps a (metroClosed s) := by
  unfold metroClosed
  try dsimp only
  repeat' first
    | with_reducible first
        | assumption | intro _ | apply calDrop_keeps
    | split | dsimp only | assumption | exact Keeps.of_same (by assumption) rfl rfl rfl rfl rfl rfl rfl | intro _ | rfl

theorem installerClosed_keeps {a : State} (s : State) (h : Keeps a s) : Keeps a (installerClosed s) := by
  unfold installerClosed
  try dsimp only
  repeat' first
    | with_reducible first
        | assumption | intro _ | apply endPairing_keeps | apply setF_keeps | apply State.updLink_keeps
        | apply discardCommission_keeps | apply endDebug_keeps
    | split | dsimp only | assumption | exact Keeps.of_same (by assumption) rfl rfl rfl rfl rfl rfl rfl | intro _ | rfl

theorem closePresence_keeps {a : State} (metroOnly : Bool) (s : State) (h : Keeps a s) : Keeps a (closePresence metroOnly s) := by
  unfold closePresence
  try dsimp only
  repeat' first
    | with_reducible first
        | assumption | intro _ | apply presChanged_keeps | apply installerClosed_keeps | apply setF_keeps
        | apply State.updKey_keeps | apply metroClosed_keeps
    | split | dsimp only | assumption | exact Keeps.of_same (by assumption) rfl rfl rfl rfl rfl rfl rfl | intro _ | rfl

theorem cardViolation_keeps {a : State} (k : ℕ) (uid : List Byte) (s : State) (h : Keeps a s) : Keeps a (cardViolation k uid s) := by
  unfold cardViolation
  try dsimp only
  repeat' first
    | with_reducible first
        | assumption | intro _ | apply logViolation_keeps | apply incF_keeps
    | split | dsimp only | assumption | exact Keeps.of_same (by assumption) rfl rfl rfl rfl rfl rfl rfl | intro _ | rfl

theorem showCard_keeps {a : State} (cards : List Card) (i : ℕ) (s : State) (h : Keeps a s) : Keeps a (showCard cards i s) := by
  unfold showCard
  try dsimp only
  repeat' first
    | with_reducible first
        | assumption | intro _ | apply setF_keeps
    | split | dsimp only | assumption | exact Keeps.of_same (by assumption) rfl rfl rfl rfl rfl rfl rfl | intro _ | rfl

theorem fieldOff_keeps {a : State} (s : State) (h : Keeps a s) : Keeps a (fieldOff s) := by
  unfold fieldOff
  try dsimp only
  repeat' first
    | with_reducible first
        | assumption | intro _ | apply State.updRd_keeps
    | split | dsimp only | assumption | exact Keeps.of_same (by assumption) rfl rfl rfl rfl rfl rfl rfl | intro _ | rfl

theorem inventory_keeps {a : State} (cards : List FieldCard) (faults : List (CardFault × Uid)) (s : State) (h : Keeps a s) : Keeps a (inventory cards faults s) := by
  unfold inventory
  try dsimp only
  repeat' first
    | with_reducible first
        | assumption | intro _ | apply State.updRd_keeps | apply raiseHw_keeps | apply boundary_keeps
        | apply fieldOff_keeps | apply setF_keeps | apply showCard_keeps | apply cardViolation_keeps
        | apply foldl_keeps
    | split | dsimp only | assumption | exact Keeps.of_same (by assumption) rfl rfl rfl rfl rfl rfl rfl | intro _ | rfl

theorem detectionPulse_keeps {a : State} (change : ℕ) (s : State) (h : Keeps a s) : Keeps a (detectionPulse change s) := by
  unfold detectionPulse
  try dsimp only
  repeat' first
    | with_reducible first
        | assumption | intro _ | apply standbyExit_keeps | apply fieldOff_keeps
    | split | dsimp only | assumption | exact Keeps.of_same (by assumption) rfl rfl rfl rfl rfl rfl rfl | intro _ | rfl

theorem enrolled_keeps {a : State} (x0 : List (List Byte)) (x1 : State) (h : Keeps a x1) : Keeps a (enrolled x0 x1).2 := by
  induction x0 generalizing x1 with
  | nil =>
    unfold enrolled
    try dsimp only
    repeat' first
      | with_reducible first
          | assumption | intro _ | apply lookup_keeps | refine lookup_keeps' (by assumption) ?_
      | split | dsimp only | assumption | exact Keeps.of_same (by assumption) rfl rfl rfl rfl rfl rfl rfl | intro _
      | rfl
  | cons _ _ ih =>
    unfold enrolled
    try dsimp only
    repeat' first
      | with_reducible first
          | assumption | intro _ | apply lookup_keeps | refine lookup_keeps' (by assumption) ?_ | apply ih
      | split | dsimp only | assumption | exact Keeps.of_same (by assumption) rfl rfl rfl rfl rfl rfl rfl | intro _
      | rfl

theorem enrolled_keeps' {a t : State} {x0 : List (List Byte)} {x1 : State} {v0} (e : enrolled x0 x1 = (v0, t)) (h : Keeps a x1) : Keeps a t := by
  have q := enrolled_keeps (a := a) x0 x1 h
  rw [e] at q
  exact q

theorem dirLookup_keeps {a : State} (c : Call) (s : State) (h : Keeps a s) : Keeps a (dirLookup c s) := by
  unfold dirLookup
  try dsimp only
  repeat' first
    | with_reducible first
        | assumption | intro _ | apply finishCode_keeps | apply enrolled_keeps
        | refine enrolled_keeps' (by assumption) ?_ | apply lookup_keeps | refine lookup_keeps' (by assumption) ?_
    | split | dsimp only | assumption | exact Keeps.of_same (by assumption) rfl rfl rfl rfl rfl rfl rfl | intro _ | rfl

theorem exchangeBoundary_keeps {a : State} (s : State) (h : Keeps a s) : Keeps a (exchangeBoundary s) := by
  unfold exchangeBoundary
  try dsimp only
  repeat' first
    | with_reducible first
        | assumption | intro _ | apply boundary_keeps | apply fieldOff_keeps
    | split | dsimp only | assumption | exact Keeps.of_same (by assumption) rfl rfl rfl rfl rfl rfl rfl | intro _ | rfl

theorem readerCheck_keeps {a : State} (answer : SignatureAnswer) (c : Call) (s : State) (h : Keeps a s) : Keeps a (readerCheck answer c s) := by
  unfold readerCheck
  try dsimp only
  repeat' first
    | with_reducible first
        | assumption | intro _ | apply finishCode_keeps | apply exchangeBoundary_keeps | apply cardViolation_keeps
    | split | dsimp only | assumption | exact Keeps.of_same (by assumption) rfl rfl rfl rfl rfl rfl rfl | intro _ | rfl

theorem cardAuth_keeps {a : State} (answer : AuthAnswer) (c : Call) (s : State) (h : Keeps a s) : Keeps a (cardAuth answer c s) := by
  unfold cardAuth
  try dsimp only
  repeat' first
    | with_reducible first
        | assumption | intro _ | apply finishCode_keeps | apply exchangeBoundary_keeps | apply freeWide_keeps
        | refine freeWide_keeps' (by assumption) ?_ | apply cardViolation_keeps
    | split | dsimp only | assumption | exact Keeps.of_same (by assumption) rfl rfl rfl rfl rfl rfl rfl | intro _ | rfl

theorem dirPublish_keeps {a : State} (s : State) (h : Keeps a s) : Keeps a (dirPublish s) := by
  unfold dirPublish
  try dsimp only
  repeat' first
    | with_reducible first
        | assumption | intro _ | apply State.updRd_keeps | apply publish_keeps | apply dirSeqTo_keeps
    | split | dsimp only | assumption | exact Keeps.of_same (by assumption) rfl rfl rfl rfl rfl rfl rfl | intro _ | rfl

theorem gather_keeps {a : State} (o : DirOp) (s : State) (h : Keeps a s) : Keeps a (gather o s) := by
  unfold gather
  try dsimp only
  repeat' first
    | with_reducible first
        | assumption | intro _ | apply State.updRd_keeps | apply dirPublish_keeps
    | split | dsimp only | assumption | exact Keeps.of_same (by assumption) rfl rfl rfl rfl rfl rfl rfl | intro _ | rfl

theorem dirResult_keeps {a : State} (code : ℕ) (slot : ℕ) (s : State) (h : Keeps a s) : Keeps a (dirResult code slot s) := by
  unfold dirResult
  try dsimp only
  repeat' first
    | with_reducible first
        | assumption | intro _ | apply setF_keeps
    | split | dsimp only | assumption | exact Keeps.of_same (by assumption) rfl rfl rfl rfl rfl rfl rfl | intro _ | rfl

theorem runDirCommand_keeps {a : State} (k : DirCommand) (s : State) (h : Keeps a s) : Keeps a (runDirCommand k s) := by
  unfold runDirCommand
  try dsimp only
  repeat' first
    | with_reducible first
        | assumption | intro _ | apply dirResult_keeps | apply dirPut_keeps | refine dirPut_keeps' (by assumption) ?_
        | apply dirDelete_keeps | refine dirDelete_keeps' (by assumption) ?_ | apply lookup_keeps
        | refine lookup_keeps' (by assumption) ?_ | apply gather_keeps | apply updCaseMem_keeps | apply updShared_keeps
        | apply updProg_keeps | apply State.updCap_keeps | apply mapWf_putBytes
    | split | dsimp only | assumption | with_reducible exact CapKeeps.refl _
    | exact Keeps.of_same (by assumption) rfl rfl rfl rfl rfl rfl rfl | intro _ | rfl

theorem dirCommand_keeps {a : State} (op : ℕ) (offset : ℕ) (s : State) (h : Keeps a s) : Keeps a (dirCommand op offset s).2 := by
  unfold dirCommand
  try dsimp only
  repeat' first
    | with_reducible first
        | assumption | intro _ | apply State.updRd_keeps | apply State.cap_capKeeps | apply setF_keeps
        | apply runDirCommand_keeps
    | split | dsimp only | assumption
    | (refine CapKeeps.of_same rfl rfl rfl ?_; with_reducible first | assumption | apply State.cap_capKeeps)
    | exact Keeps.of_same (by assumption) rfl rfl rfl rfl rfl rfl rfl | intro _ | rfl

theorem dirCommand_keeps' {a t : State} {op : ℕ} {offset : ℕ} {s : State} {v0} (e : dirCommand op offset s = (v0, t)) (h : Keeps a s) : Keeps a t := by
  have q := dirCommand_keeps (a := a) op offset s h
  rw [e] at q
  exact q

theorem applyStaged_keeps {a : State} (s : State) (h : Keeps a s) : Keeps a (applyStaged s) := by
  unfold applyStaged
  try dsimp only
  repeat' first
    | with_reducible first
        | assumption | intro _ | apply applyDelta_keeps | apply publish_keeps | apply setF_keeps
    | split | dsimp only | assumption | exact Keeps.of_same (by assumption) rfl rfl rfl rfl rfl rfl rfl | intro _ | rfl

theorem deltaApply_keeps {a : State} (s : State) (h : Keeps a s) : Keeps a (deltaApply s).2 := by
  unfold deltaApply
  try dsimp only
  repeat' first
    | with_reducible first
        | assumption | intro _ | apply State.updRd_keeps | apply applyStaged_keeps | apply setF_keeps
    | split | dsimp only | assumption | exact Keeps.of_same (by assumption) rfl rfl rfl rfl rfl rfl rfl | intro _ | rfl

theorem deltaApply_keeps' {a t : State} {s : State} {v0} (e : deltaApply s = (v0, t)) (h : Keeps a s) : Keeps a t := by
  have q := deltaApply_keeps (a := a) s h
  rw [e] at q
  exact q

theorem dirResume_keeps {a : State} (s : State) (h : Keeps a s) : Keeps a (dirResume s) := by
  unfold dirResume
  try dsimp only
  repeat' first
    | with_reducible first
        | assumption | intro _ | apply State.updRd_keeps | apply applyStaged_keeps | apply runDirCommand_keeps
    | split | dsimp only | assumption | exact Keeps.of_same (by assumption) rfl rfl rfl rfl rfl rfl rfl | intro _ | rfl

theorem discardSlot_keeps {a : State} (s : State) (h : Keeps a s) : Keeps a (discardSlot s) := by
  unfold discardSlot
  try dsimp only
  repeat' first
    | with_reducible first
        | assumption | intro _ | apply modFw_keeps | apply State.updStore_keeps | apply storeErase_keeps
    | split | dsimp only | assumption | exact Keeps.of_same (by assumption) rfl rfl rfl rfl rfl rfl rfl | intro _ | rfl

theorem actResult_keeps {a : State} (a_ : Activation) (code : ℕ) (s : State) (h : Keeps a s) : Keeps a (actResult a_ code s) := by
  unfold actResult
  try dsimp only
  repeat' first
    | with_reducible first
        | assumption | intro _ | apply modFw_keeps | apply setF_keeps
    | split | dsimp only | assumption | exact Keeps.of_same (by assumption) rfl rfl rfl rfl rfl rfl rfl | intro _ | rfl

theorem afterActivation_keeps {a : State} (s : State) (h : Keeps a s) : Keeps a (afterActivation s) := by
  unfold afterActivation
  try dsimp only
  repeat' first
    | with_reducible first
        | assumption | intro _ | apply calLoad_keeps | refine calLoad_keeps' (by assumption) ?_ | apply dirResume_keeps
        | apply setF_keeps
    | split | dsimp only | assumption | exact Keeps.of_same (by assumption) rfl rfl rfl rfl rfl rfl rfl | intro _ | rfl

theorem failAct_keeps {a : State} (st : FwState) (code : ℕ) (s : State) (h : Keeps a s) : Keeps a (failAct st code s) := by
  unfold failAct
  try dsimp only
  repeat' first
    | with_reducible first
        | assumption | intro _ | apply actResult_keeps | apply modFw_keeps | apply State.updSys_keeps
        | apply setShadows_keeps | apply afterActivation_keeps | apply State.updStore_keeps
    | split | dsimp only | assumption | exact Keeps.of_same (by assumption) rfl rfl rfl rfl rfl rfl rfl | intro _ | rfl

theorem takeFormats_keeps {a : State} (x : FwSlot) (s : State) (h : Keeps a s) : Keeps a (takeFormats x s) := by
  unfold takeFormats
  try dsimp only
  repeat' first
    | with_reducible first
        | assumption | intro _ | apply State.updSys_keeps | apply setShadows_keeps | apply State.updStore_keeps
        | apply copyOnWrite_keeps | apply risingFrom_filter | apply mapWf_filter
    | split | dsimp only | assumption | exact Keeps.of_same (by assumption) rfl rfl rfl rfl rfl rfl rfl | intro _ | rfl

theorem takeLegal_keeps {a : State} (v : Option ℕ) (s : State) (h : Keeps a s) : Keeps a (takeLegal v s) := by
  unfold takeLegal
  try dsimp only
  repeat' first
    | with_reducible first
        | assumption | intro _ | apply writeEvent_keeps | apply State.updStore_keeps
    | split | dsimp only | assumption | exact Keeps.of_same (by assumption) rfl rfl rfl rfl rfl rfl rfl | intro _ | rfl

theorem makeActive_keeps {a : State} (a_ : Activation) (s : State) (h : Keeps a s) : Keeps a (makeActive a_ s) := by
  unfold makeActive
  try dsimp only
  repeat' first
    | with_reducible first
        | assumption | intro _ | apply actResult_keeps | apply takeLegal_keeps | apply modFw_keeps
        | apply takeFormats_keeps | apply State.updStore_keeps
    | split | dsimp only | assumption | exact Keeps.of_same (by assumption) rfl rfl rfl rfl rfl rfl rfl | intro _ | rfl

theorem waitAct_keeps {a : State} (a_ : Activation) (code : ℕ) (s : State) (h : Keeps a s) : Keeps a (waitAct a_ code s) := by
  unfold waitAct
  try dsimp only
  repeat' first
    | with_reducible first
        | assumption | intro _ | apply actResult_keeps | apply State.updStore_keeps
    | split | dsimp only | assumption | exact Keeps.of_same (by assumption) rfl rfl rfl rfl rfl rfl rfl | intro _ | rfl

theorem tryActivate_keeps {a : State} (a_ : Activation) (s : State) (h : Keeps a s) : Keeps a (tryActivate a_ s) := by
  unfold tryActivate
  try dsimp only
  repeat' first
    | with_reducible first
        | assumption | intro _ | apply standbyExit_keeps | apply makeActive_keeps | apply actResult_keeps
        | apply boundary_keeps | apply waitAct_keeps | apply modFw_keeps | apply setF_keeps | apply State.updSys_keeps
        | apply setShadows_keeps | apply State.updStore_keeps
    | split | dsimp only | assumption | exact Keeps.of_same (by assumption) rfl rfl rfl rfl rfl rfl rfl | intro _ | rfl

theorem updAct_keeps {a : State} (s : State) (h : Keeps a s) : Keeps a (updAct s).2 := by
  unfold updAct
  try dsimp only
  repeat' first
    | with_reducible first
        | assumption | intro _ | apply tryActivate_keeps | apply actResult_keeps
    | split | dsimp only | assumption | exact Keeps.of_same (by assumption) rfl rfl rfl rfl rfl rfl rfl | intro _ | rfl

theorem updAct_keeps' {a t : State} {s : State} {v0} (e : updAct s = (v0, t)) (h : Keeps a s) : Keeps a t := by
  have q := updAct_keeps (a := a) s h
  rw [e] at q
  exact q

theorem autoActivation_keeps {a : State} (s : State) (h : Keeps a s) : Keeps a (autoActivation s) := by
  unfold autoActivation
  try dsimp only
  repeat' first
    | with_reducible first
        | assumption | intro _ | apply tryActivate_keeps
    | split | dsimp only | assumption | exact Keeps.of_same (by assumption) rfl rfl rfl rfl rfl rfl rfl | intro _ | rfl

theorem beginPause_keeps {a : State} (s : State) (h : Keeps a s) : Keeps a (beginPause s) := by
  unfold beginPause
  try dsimp only
  repeat' first
    | with_reducible first
        | assumption | intro _ | apply raiseFw_keeps | apply enterMode_keeps | apply ringOut_keeps | apply setF_keeps
        | apply State.updSys_keeps | apply State.updStore_keeps
    | split | dsimp only | assumption | exact Keeps.of_same (by assumption) rfl rfl rfl rfl rfl rfl rfl | intro _ | rfl

theorem handoverReady_keeps {a : State} (s : State) (h : Keeps a s) : Keeps a (handoverReady s) := by
  unfold handoverReady
  try dsimp only
  repeat' first
    | with_reducible first
        | assumption | intro _ | apply beginPause_keeps | apply setF_keeps
    | split | dsimp only | assumption | exact Keeps.of_same (by assumption) rfl rfl rfl rfl rfl rfl rfl | intro _ | rfl

theorem endPause_keeps {a : State} (s : State) (h : Keeps a s) : Keeps a (endPause s) := by
  unfold endPause
  try dsimp only
  repeat' first
    | with_reducible first
        | assumption | intro _ | apply raiseFw_keeps | apply raisePaused_keeps | apply enterMode_keeps
        | apply setF_keeps | apply State.updSys_keeps | apply writeBacklog_keeps
    | split | dsimp only | assumption | exact Keeps.of_same (by assumption) rfl rfl rfl rfl rfl rfl rfl | intro _ | rfl

theorem retireCore_keeps {a : State} (s : State) (h : Keeps a s) : Keeps a (retireCore s) := by
  unfold retireCore
  try dsimp only
  repeat' first
    | with_reducible first
        | assumption | intro _ | apply setHealth_keeps | apply State.updSys_keeps
    | split | dsimp only | assumption | exact Keeps.of_same (by assumption) rfl rfl rfl rfl rfl rfl rfl | intro _ | rfl

theorem takeoverComplete_keeps {a : State} (s : State) (h : Keeps a s) : Keeps a (takeoverComplete s) := by
  unfold takeoverComplete
  try dsimp only
  repeat' first
    | with_reducible first
        | assumption | intro _ | apply cutAfterPause_keeps | apply endPause_keeps | apply makeActive_keeps
        | apply ringOut_keeps | apply retireCore_keeps | apply afterActivation_keeps | apply State.updStore_keeps
    | split | dsimp only | assumption | exact Keeps.of_same (by assumption) rfl rfl rfl rfl rfl rfl rfl | intro _ | rfl

theorem handoverAbort_keeps {a : State} (s : State) (h : Keeps a s) : Keeps a (handoverAbort s) := by
  unfold handoverAbort
  try dsimp only
  repeat' first
    | with_reducible first
        | assumption | intro _ | apply cutAfterPause_keeps | apply endPause_keeps | apply failAct_keeps
    | split | dsimp only | assumption | exact Keeps.of_same (by assumption) rfl rfl rfl rfl rfl rfl rfl | intro _ | rfl

theorem coreRetire_keeps {a : State} (coreB : Bool) (corrected : ℕ) (uncorrectable : Bool) (s : State) (h : Keeps a s) : Keeps a (coreRetire coreB corrected uncorrectable s) := by
  unfold coreRetire
  try dsimp only
  repeat' first
    | with_reducible first
        | assumption | intro _ | apply tryActivate_keeps | apply failAct_keeps | apply setF_keeps
        | apply retireCore_keeps | apply State.updStore_keeps
    | split | dsimp only | assumption | exact Keeps.of_same (by assumption) rfl rfl rfl rfl rfl rfl rfl | intro _ | rfl

theorem stopStrands_keeps {a : State} (s : State) (h : Keeps a s) : Keeps a (stopStrands s) := by
  unfold stopStrands
  try dsimp only
  repeat' first
    | with_reducible first
        | assumption | intro _ | apply discardGalley_keeps | apply abandonCalls_keeps | apply keysLetGo_keeps
        | apply foldl_keeps
    | split | dsimp only | assumption | exact Keeps.of_same (by assumption) rfl rfl rfl rfl rfl rfl rfl | intro _ | rfl

theorem mapWf_programWords (n : Nat) (bs : List Byte) (k : Nat) :
    risingFrom k (programWords n bs k) = true ∧ (programWords n bs k).all (fun e => decide (e.2 ≠ 0)) = true := by
  induction n generalizing bs k with
  | zero => exact ⟨rfl, rfl⟩
  | succ n ih =>
    unfold programWords
    dsimp only
    split
    · exact ⟨risingFrom_mono (Nat.le_succ k) (ih _ _).1, (ih _ _).2⟩
    · next hw => exact ⟨by simp [risingFrom, (ih (bs.drop 4) (k + 1)).1], by simp only [List.all_cons, Bool.and_eq_true, decide_eq_true_eq]; exact ⟨hw, (ih (bs.drop 4) (k + 1)).2⟩⟩

theorem loadForme_keeps {a : State} (k : Nat) (f : Forme) (s : State) (h : Keeps a s) : Keeps a (loadForme k f s) := by
  unfold loadForme
  refine foldl_keeps ?_ fun b n hb => enableStrand_keeps n b hb
  refine State.updStore_keeps ?_ fun t w => w
  refine State.updCap_keeps (stopStrands_keeps _ h) fun c w => ?_
  have hp : mapWf 0 (programWords f.words f.program 0) = true := by
    have := mapWf_programWords f.words f.program 0
    simp only [mapWf, Bool.and_eq_true]
    exact ⟨this.1, this.2⟩
  simp only [Cap.memWf, Bool.and_eq_true] at w ⊢
  exact ⟨⟨hp, w.1.2⟩, w.2⟩

theorem formeLoad_keeps {a : State} (s : State) (h : Keeps a s) : Keeps a (formeLoad s) := by
  unfold formeLoad
  try dsimp only
  repeat' first
    | with_reducible first
        | assumption | intro _ | apply noteForme_keeps | apply loadForme_keeps | apply setF_keeps
    | split | dsimp only | assumption | exact Keeps.of_same (by assumption) rfl rfl rfl rfl rfl rfl rfl | intro _ | rfl

theorem noteSpare_keeps {a : State} (s : State) (h : Keeps a s) : Keeps a (noteSpare s) := by
  unfold noteSpare
  try dsimp only
  repeat' first
    | with_reducible first
        | assumption | intro _ | apply setHealth_keeps
    | split | dsimp only | assumption | exact Keeps.of_same (by assumption) rfl rfl rfl rfl rfl rfl rfl | intro _ | rfl

theorem loseBlock_keeps {a : State} (l : ℕ) (s : State) (h : Keeps a s) : Keeps a (loseBlock l s) := by
  unfold loseBlock
  try dsimp only
  repeat' first
    | with_reducible first
        | assumption | intro _ | apply State.updRd_keeps | apply storePut_keeps | apply State.updSys_keeps
    | split | dsimp only | assumption | exact Keeps.of_same (by assumption) rfl rfl rfl rfl rfl rfl rfl | intro _ | rfl

theorem scrubRead_keeps {a : State} (s : State) (r : BlockRead) (h : Keeps a s) : Keeps a (scrubRead s r) := by
  unfold scrubRead
  try dsimp only
  repeat' first
    | with_reducible first
        | assumption | intro _ | apply updDie_keeps | apply loseBlock_keeps
    | split | dsimp only | assumption | exact Keeps.of_same (by assumption) rfl rfl rfl rfl rfl rfl rfl | intro _ | rfl

theorem scrub_keeps {a : State} (reads : List BlockRead) (s : State) (h : Keeps a s) : Keeps a (scrub reads s) := by
  unfold scrub
  try dsimp only
  repeat' first
    | with_reducible first
        | assumption | intro _ | apply level_keeps | apply balance_keeps | apply noteSpare_keeps | apply setF_keeps
        | apply scrubRead_keeps | apply foldl_keeps | apply risingFrom_filter | apply mapWf_filter
    | split | dsimp only | assumption | exact Keeps.of_same (by assumption) rfl rfl rfl rfl rfl rfl rfl | intro _ | rfl

theorem storeWrite_keeps {a : State} (c : Call) (s : State) (h : Keeps a s) : Keeps a (storeWrite c s) := by
  unfold storeWrite
  try dsimp only
  repeat' first
    | with_reducible first
        | assumption | intro _ | apply finishCode_keeps | apply State.cap_capKeeps | apply noteSpare_keeps
        | apply storeOver_keeps
    | split | dsimp only | assumption
    | (refine CapKeeps.of_same rfl rfl rfl ?_; with_reducible first | assumption | apply State.cap_capKeeps)
    | exact Keeps.of_same (by assumption) rfl rfl rfl rfl rfl rfl rfl | intro _ | rfl

theorem coreBells_keeps {a : State} (mailbox : ℕ) (bells : ℕ) (s : State) (h : Keeps a s) : Keeps a (coreBells mailbox bells s) := by
  unfold coreBells
  try dsimp only
  repeat' first
    | with_reducible first
        | assumption | intro _ | apply tryActivate_keeps | apply failAct_keeps | apply State.updSys_keeps
    | split | dsimp only | assumption | exact Keeps.of_same (by assumption) rfl rfl rfl rfl rfl rfl rfl | intro _ | rfl

theorem hostBells_keeps {a : State} (bells : ℕ) (s : State) (h : Keeps a s) : Keeps a (hostBells bells s) := by
  unfold hostBells
  try dsimp only
  repeat' first
    | with_reducible first
        | assumption | intro _ | apply raiseFw_keeps | apply setF_keeps | apply foldl_keeps | apply risingFrom_filter
        | apply mapWf_filter
    | split | dsimp only | assumption | exact Keeps.of_same (by assumption) rfl rfl rfl rfl rfl rfl rfl | intro _ | rfl

theorem mbRing_keeps {a : State} (mailbox : ℕ) (bells : ℕ) (s : State) (h : Keeps a s) : Keeps a (mbRing mailbox bells s).2 := by
  unfold mbRing
  try dsimp only
  repeat' first
    | with_reducible first
        | assumption | intro _ | apply hostBells_keeps | apply coreBells_keeps
    | split | dsimp only | assumption | exact Keeps.of_same (by assumption) rfl rfl rfl rfl rfl rfl rfl | intro _ | rfl

theorem mbRing_keeps' {a t : State} {mailbox : ℕ} {bells : ℕ} {s : State} {v0} (e : mbRing mailbox bells s = (v0, t)) (h : Keeps a s) : Keeps a t := by
  have q := mbRing_keeps (a := a) mailbox bells s h
  rw [e] at q
  exact q

theorem tagPut_keeps {a : State} (a_ : ℕ) (bs : List Byte) (s : State) (h : Keeps a s) : Keeps a (tagPut a_ bs s) := by
  unfold tagPut
  try dsimp only
  repeat' first
    | with_reducible first
        | assumption | intro _ | apply State.updTag_keeps | apply mapWf_putBytes
    | split | dsimp only | assumption | exact Keeps.of_same (by assumption) rfl rfl rfl rfl rfl rfl rfl | intro _ | rfl

theorem tagViolation_keeps {a : State} (k : ℕ) (s : State) (h : Keeps a s) : Keeps a (tagViolation k s) := by
  unfold tagViolation
  try dsimp only
  repeat' first
    | with_reducible first
        | assumption | intro _ | apply logViolation_keeps | apply State.updTag_keeps
    | split | dsimp only | assumption | exact Keeps.of_same (by assumption) rfl rfl rfl rfl rfl rfl rfl | intro _ | rfl

theorem respond_keeps {a : State} (bs : List Byte) (sw : ℕ) (s : State) (h : Keeps a s) : Keeps a (respond bs sw s) := by
  unfold respond
  try dsimp only
  repeat' first
    | with_reducible first
        | assumption | intro _ | apply State.updTag_keeps
    | split | dsimp only | assumption | exact Keeps.of_same (by assumption) rfl rfl rfl rfl rfl rfl rfl | intro _ | rfl

theorem tagCommand_keeps {a : State} (f : State → State) (s : State) (hf : ∀ b, Keeps a b → Keeps a (f b)) (h : Keeps a s) : Keeps a (tagCommand f s) := by
  unfold tagCommand
  try dsimp only
  repeat' first
    | with_reducible first
        | assumption | intro _ | apply hf
    | split | dsimp only | assumption | exact Keeps.of_same (by assumption) rfl rfl rfl rfl rfl rfl rfl | intro _ | rfl

theorem txStart_keeps {a : State} (s : State) (h : Keeps a s) : Keeps a (txStart s) := by
  unfold txStart
  try dsimp only
  repeat' first
    | with_reducible first
        | assumption | intro _ | apply boundary_keeps | apply State.updTag_keeps | apply setF_keeps
        | apply State.updSys_keeps
    | split | dsimp only | assumption | exact Keeps.of_same (by assumption) rfl rfl rfl rfl rfl rfl rfl | intro _ | rfl

theorem txEnd_keeps {a : State} (s : State) (h : Keeps a s) : Keeps a (txEnd s) := by
  unfold txEnd
  try dsimp only
  repeat' first
    | with_reducible first
        | assumption | intro _ | apply raiseHw_keeps | apply boundary_keeps | apply State.updTag_keeps
        | apply ringOut_keeps | apply setB_keeps
    | split | dsimp only | assumption | exact Keeps.of_same (by assumption) rfl rfl rfl rfl rfl rfl rfl | intro _ | rfl

theorem selectApp_keeps {a : State} (apdu : List Byte) (s : State) (h : Keeps a s) : Keeps a (selectApp apdu s) := by
  unfold selectApp
  try dsimp only
  repeat' first
    | with_reducible first
        | assumption | intro _ | apply respond_keeps | apply State.updTag_keeps | apply tagViolation_keeps
    | split | dsimp only | assumption | exact Keeps.of_same (by assumption) rfl rfl rfl rfl rfl rfl rfl | intro _ | rfl

theorem selectFile_keeps {a : State} (id : ℕ) (s : State) (h : Keeps a s) : Keeps a (selectFile id s) := by
  unfold selectFile
  try dsimp only
  repeat' first
    | with_reducible first
        | assumption | intro _ | apply respond_keeps | apply State.updTag_keeps
    | split | dsimp only | assumption | exact Keeps.of_same (by assumption) rfl rfl rfl rfl rfl rfl rfl | intro _ | rfl

theorem noteRead_keeps {a : State} (f : TagFile) (off : ℕ) (len : ℕ) (s : State) (h : Keeps a s) : Keeps a (noteRead f off len s) := by
  unfold noteRead
  try dsimp only
  repeat' first
    | with_reducible first
        | assumption | intro _ | apply State.updTag_keeps
    | split | dsimp only | assumption | exact Keeps.of_same (by assumption) rfl rfl rfl rfl rfl rfl rfl | intro _ | rfl

theorem readBinary_keeps {a : State} (off : ℕ) (le : ℕ) (s : State) (h : Keeps a s) : Keeps a (readBinary off le s) := by
  unfold readBinary
  try dsimp only
  repeat' first
    | with_reducible first
        | assumption | intro _ | apply noteRead_keeps | apply respond_keeps | apply freeBelow_keeps
        | refine freeBelow_keeps' (by assumption) ?_ | apply tagViolation_keeps
    | split | dsimp only | assumption | exact Keeps.of_same (by assumption) rfl rfl rfl rfl rfl rfl rfl | intro _ | rfl

theorem weakField_keeps {a : State} (s : State) (h : Keeps a s) : Keeps a (weakField s) := by
  unfold weakField
  try dsimp only
  repeat' first
    | with_reducible first
        | assumption | intro _ | apply respond_keeps | apply setF_keeps | apply tagViolation_keeps
    | split | dsimp only | assumption | exact Keeps.of_same (by assumption) rfl rfl rfl rfl rfl rfl rfl | intro _ | rfl

theorem updateBinary_keeps {a : State} (off : ℕ) (data : List Byte) (vr : ℕ) (s : State) (h : Keeps a s) : Keeps a (updateBinary off data vr s) := by
  unfold updateBinary
  try dsimp only
  repeat' first
    | with_reducible first
        | assumption | intro _ | apply tagPut_keeps | apply respond_keeps | apply State.updTag_keeps
        | apply weakField_keeps | apply tagViolation_keeps
    | split | dsimp only | assumption | exact Keeps.of_same (by assumption) rfl rfl rfl rfl rfl rfl rfl | intro _ | rfl

theorem knock_keeps {a : State} (ch : BitVec 128) (s : State) (h : Keeps a s) : Keeps a (knock ch s) := by
  unfold knock
  try dsimp only
  repeat' first
    | with_reducible first
        | assumption | intro _ | apply freeWide_keeps | refine freeWide_keeps' (by assumption) ?_ | apply respond_keeps
        | apply State.updTag_keeps | apply freeBelow_keeps | refine freeBelow_keeps' (by assumption) ?_
    | split | dsimp only | assumption | exact Keeps.of_same (by assumption) rfl rfl rfl rfl rfl rfl rfl | intro _ | rfl

theorem knockProof_keeps {a : State} (proof : BitVec 64) (s : State) (h : Keeps a s) : Keeps a (knockProof proof s) := by
  unfold knockProof
  try dsimp only
  repeat' first
    | with_reducible first
        | assumption | intro _ | apply respond_keeps | apply State.updTag_keeps | apply tagViolation_keeps
    | split | dsimp only | assumption | exact Keeps.of_same (by assumption) rfl rfl rfl rfl rfl rfl rfl | intro _ | rfl

theorem enterCommission_keeps {a : State} (items : List SettingItem) (s : State) (h : Keeps a s) : Keeps a (enterCommission items s) := by
  unfold enterCommission
  try dsimp only
  repeat' first
    | with_reducible first
        | assumption | intro _ | apply settle_keeps | apply enterMode_keeps | apply State.updSys_keeps
        | apply fenceOutputs_keeps | apply outOff_keeps | apply foldl_keeps
    | split | dsimp only | assumption | exact Keeps.of_same (by assumption) rfl rfl rfl rfl rfl rfl rfl | intro _ | rfl

theorem takeRecord_keeps {a : State} (s : State) (h : Keeps a s) : Keeps a (takeRecord s) := by
  unfold takeRecord
  try dsimp only
  repeat' first
    | with_reducible first
        | assumption | intro _ | apply State.updTag_keeps | apply State.updSys_keeps | apply enterCommission_keeps
    | split | dsimp only | assumption | exact Keeps.of_same (by assumption) rfl rfl rfl rfl rfl rfl rfl | intro _ | rfl

theorem tagCommit_keeps {a : State} (vr : ℕ) (s : State) (h : Keeps a s) : Keeps a (tagCommit vr s) := by
  unfold tagCommit
  try dsimp only
  repeat' first
    | with_reducible first
        | assumption | intro _ | apply respond_keeps | apply State.updTag_keeps | apply takeRecord_keeps
        | apply weakField_keeps | apply tagViolation_keeps
    | split | dsimp only | assumption | exact Keeps.of_same (by assumption) rfl rfl rfl rfl rfl rfl rfl | intro _ | rfl

theorem localeCode_keeps {a : State} (s : State) (h : Keeps a s) : Keeps a (localeCode s).2 := by
  unfold localeCode
  try dsimp only
  repeat' first
    | with_reducible first
        | assumption | intro _ | apply freeBelow_keeps | refine freeBelow_keeps' (by assumption) ?_
    | split | dsimp only | assumption | exact Keeps.of_same (by assumption) rfl rfl rfl rfl rfl rfl rfl | intro _ | rfl

theorem localeCode_keeps' {a t : State} {s : State} {v0} (e : localeCode s = (v0, t)) (h : Keeps a s) : Keeps a t := by
  have q := localeCode_keeps (a := a) s h
  rw [e] at q
  exact q

theorem writeReceipt_keeps {a : State} (seq : ℕ) (n : ℕ) (sess : List Byte) (sealRec : List Byte) (s : State) (h : Keeps a s) : Keeps a (writeReceipt seq n sess sealRec s) := by
  unfold writeReceipt
  try dsimp only
  repeat' first
    | with_reducible first
        | assumption | intro _ | apply tagPut_keeps | apply localeCode_keeps
        | refine localeCode_keeps' (by assumption) ?_ | apply State.updTag_keeps
    | split | dsimp only | assumption | exact Keeps.of_same (by assumption) rfl rfl rfl rfl rfl rfl rfl | intro _ | rfl

theorem tagReceipt_keeps {a : State} (c : Call) (s : State) (h : Keeps a s) : Keeps a (tagReceipt c s) := by
  unfold tagReceipt
  try dsimp only
  repeat' first
    | with_reducible first
        | assumption | intro _ | apply finishCode_keeps | apply boundary_keeps | apply writeReceipt_keeps
        | apply setF_keeps
    | split | dsimp only | assumption | exact Keeps.of_same (by assumption) rfl rfl rfl rfl rfl rfl rfl | intro _ | rfl

theorem fieldAppear_keeps {a : State} (s : State) (h : Keeps a s) : Keeps a (fieldAppear s) := by
  unfold fieldAppear
  try dsimp only
  repeat' first
    | with_reducible first
        | assumption | intro _ | apply State.updSys_keeps
    | split | dsimp only | assumption | exact Keeps.of_same (by assumption) rfl rfl rfl rfl rfl rfl rfl | intro _ | rfl

theorem fieldLost_keeps {a : State} (s : State) (h : Keeps a s) : Keeps a (fieldLost s) := by
  unfold fieldLost
  try dsimp only
  repeat' first
    | with_reducible first
        | assumption | intro _ | apply txEnd_keeps | apply clearRegs_keeps | apply State.updSys_keeps
    | split | dsimp only | assumption | exact Keeps.of_same (by assumption) rfl rfl rfl rfl rfl rfl rfl | intro _ | rfl

theorem readField_keeps {a : State} (k : ℕ) (f : Field) (s : State) (h : Keeps a s) : Keeps a (readField k f s).2 := by
  unfold readField
  try dsimp only
  repeat' first
    | with_reducible first
        | assumption | intro _ | apply freeBelow_keeps | refine freeBelow_keeps' (by assumption) ?_
    | split | dsimp only | assumption | exact Keeps.of_same (by assumption) rfl rfl rfl rfl rfl rfl rfl | intro _ | rfl

theorem readField_keeps' {a t : State} {k : ℕ} {f : Field} {s : State} {v0} (e : readField k f s = (v0, t)) (h : Keeps a s) : Keeps a t := by
  have q := readField_keeps (a := a) k f s h
  rw [e] at q
  exact q

theorem refusalShown_keeps {a : State} (addr : ℕ) (k : ℕ) (s : State) (h : Keeps a s) : Keeps a (refusalShown addr k s) := by
  unfold refusalShown
  try dsimp only
  repeat' first
    | with_reducible first
        | assumption | intro _ | apply setF_keeps
    | split | dsimp only | assumption | exact Keeps.of_same (by assumption) rfl rfl rfl rfl rfl rfl rfl | intro _ | rfl

theorem modStrandNo_keeps {a : State} (k : ℕ) (f : Strand → Strand) (s : State) (h : Keeps a s) : Keeps a (modStrandNo k f s) := by
  unfold modStrandNo
  try dsimp only
  repeat' first
    | with_reducible first
        | assumption | intro _ | apply modS_keeps
    | split | dsimp only | assumption | exact Keeps.of_same (by assumption) rfl rfl rfl rfl rfl rfl rfl | intro _ | rfl

theorem putSub_keeps {a : State} (k : ℕ) (i : ℕ) (v : ℕ) (s : State) (h : Keeps a s) : Keeps a (putSub k i v s) := by
  unfold putSub
  try dsimp only
  repeat' first
    | with_reducible first
        | assumption | intro _ | apply modStrandNo_keeps
    | split | dsimp only | assumption | exact Keeps.of_same (by assumption) rfl rfl rfl rfl rfl rfl rfl | intro _ | rfl

theorem putStrandField_keeps {a : State} (k : ℕ) (f : Field) (v : ℕ) (s : State) (h : Keeps a s) : Keeps a (putStrandField k f v s) := by
  unfold putStrandField
  try dsimp only
  repeat' first
    | with_reducible first
        | assumption | intro _ | apply putSub_keeps | apply modStrandNo_keeps
    | split | dsimp only | assumption | exact Keeps.of_same (by assumption) rfl rfl rfl rfl rfl rfl rfl | intro _ | rfl

theorem putField_keeps {a : State} (k : ℕ) (f : Field) (v : ℕ) (s : State) (h : Keeps a s) : Keeps a (putField k f v s) := by
  unfold putField
  try dsimp only
  repeat' first
    | with_reducible first
        | assumption | intro _ | apply setF_keeps | apply putStrandField_keeps
    | split | dsimp only | assumption | exact Keeps.of_same (by assumption) rfl rfl rfl rfl rfl rfl rfl | intro _ | rfl

theorem RegField.write_keeps {a : State} (k : ℕ) (w : ℕ) (s : State) (x : RegField) (h : Keeps a s) : Keeps a (RegField.write k w s x) := by
  unfold RegField.write
  try dsimp only
  repeat' first
    | with_reducible first
        | assumption | intro _ | apply putField_keeps | apply setF_keeps
    | split | dsimp only | assumption | exact Keeps.of_same (by assumption) rfl rfl rfl rfl rfl rfl rfl | intro _ | rfl

theorem putWear_keeps {a : State} (k : ℕ) (v : ℕ) (s : State) (h : Keeps a s) : Keeps a (putWear k v s) := by
  unfold putWear
  try dsimp only
  repeat' first
    | with_reducible first
        | assumption | intro _ | apply logEvent_keeps | apply State.updSw_keeps | apply wornCheck_keeps
    | split | dsimp only | assumption | exact Keeps.of_same (by assumption) rfl rfl rfl rfl rfl rfl rfl | intro _ | rfl

theorem testOutputs_keeps {a : State} (mask : ℕ) (s : State) (h : Keeps a s) : Keeps a (testOutputs mask s) := by
  unfold testOutputs
  try dsimp only
  repeat' first
    | with_reducible first
        | assumption | intro _ | apply clearCauseOn_keeps | apply outOn_keeps | apply fenceOutputs_keeps
        | apply outOff_keeps | apply foldl_keeps
    | split | dsimp only | assumption | exact Keeps.of_same (by assumption) rfl rfl rfl rfl rfl rfl rfl | intro _ | rfl

theorem unlearnAll_keeps {a : State} (s : State) (h : Keeps a s) : Keeps a (unlearnAll s) := by
  unfold unlearnAll
  try dsimp only
  repeat' first
    | with_reducible first
        | assumption | intro _ | apply State.updAlloc_keeps
    | split | dsimp only | assumption | exact Keeps.of_same (by assumption) rfl rfl rfl rfl rfl rfl rfl | intro _ | rfl

theorem copyTagControl_keeps {a : State} (s : State) (h : Keeps a s) : Keeps a (copyTagControl s) := by
  unfold copyTagControl
  try dsimp only
  repeat' first
    | with_reducible first
        | assumption | intro _ | apply State.updTag_keeps
    | split | dsimp only | assumption | exact Keeps.of_same (by assumption) rfl rfl rfl rfl rfl rfl rfl | intro _ | rfl

theorem nameCoils_keeps {a : State} (s : State) (h : Keeps a s) : Keeps a (nameCoils s) := by
  unfold nameCoils
  try dsimp only
  repeat' first
    | with_reducible first
        | assumption | intro _ | apply State.updSw_keeps
    | split | dsimp only | assumption | exact Keeps.of_same (by assumption) rfl rfl rfl rfl rfl rfl rfl | intro _ | rfl

theorem afterWrite_keeps {a : State} (addr : ℕ) (k : ℕ) (w : ℕ) (s : State) (h : Keeps a s) : Keeps a (afterWrite addr k w s) := by
  unfold afterWrite
  try dsimp only
  repeat' first
    | with_reducible first
        | assumption | intro _ | apply lowerToCeiling_keeps | apply copyTagControl_keeps | apply lowerToGrant_keeps
        | apply loadTrims_keeps | apply wornCheck_keeps | apply setF_keeps | apply unlearnAll_keeps
        | apply nameCoils_keeps | apply putWear_keeps | apply testOutputs_keeps
    | split | dsimp only | assumption | exact Keeps.of_same (by assumption) rfl rfl rfl rfl rfl rfl rfl | intro _ | rfl

theorem hostFence_keeps {a : State} (addr : ℕ) (k : ℕ) (was : State) (s : State) (h : Keeps a s) : Keeps a (hostFence addr k was s) := by
  unfold hostFence
  try dsimp only
  repeat' first
    | with_reducible first
        | assumption | intro _ | apply fence_keeps | apply foldl_keeps
    | split | dsimp only | assumption | exact Keeps.of_same (by assumption) rfl rfl rfl rfl rfl rfl rfl | intro _ | rfl

theorem writeFields_keeps {a : State} (addr : ℕ) (k : ℕ) (w : ℕ) (xs : List RegField) (s : State) (h : Keeps a s) : Keeps a (writeFields addr k w xs s) := by
  unfold writeFields
  try dsimp only
  repeat' first
    | with_reducible first
        | assumption | intro _ | apply RegField.write_keeps | apply hostFence_keeps | apply settle_keeps
        | apply afterWrite_keeps | apply foldl_keeps
    | split | dsimp only | assumption | exact Keeps.of_same (by assumption) rfl rfl rfl rfl rfl rfl rfl | intro _ | rfl

theorem registerWrite_keeps {a : State} (addr : ℕ) (w : ℕ) (s : State) (h : Keeps a s) : Keeps a (registerWrite addr w s).2 := by
  unfold registerWrite
  try dsimp only
  repeat' first
    | with_reducible first
        | assumption | intro _ | apply noteSetting_keeps | apply refusalShown_keeps | apply writeFields_keeps
    | split | dsimp only | assumption | exact Keeps.of_same (by assumption) rfl rfl rfl rfl rfl rfl rfl | intro _ | rfl

theorem registerWrite_keeps' {a t : State} {addr : ℕ} {w : ℕ} {s : State} {v0} (e : registerWrite addr w s = (v0, t)) (h : Keeps a s) : Keeps a t := by
  have q := registerWrite_keeps (a := a) addr w s h
  rw [e] at q
  exact q

theorem restoreRegister_keeps {a : State} (addr : ℕ) (w : ℕ) (s : State) (h : Keeps a s) : Keeps a (restoreRegister addr w s) := by
  unfold restoreRegister
  try dsimp only
  repeat' first
    | with_reducible first
        | assumption | intro _ | apply writeFields_keeps | apply risingFrom_filter | apply mapWf_filter
    | split | dsimp only | assumption | exact Keeps.of_same (by assumption) rfl rfl rfl rfl rfl rfl rfl | intro _ | rfl

theorem clearPower_keeps {a : State} (powerOn : Bool) (s : State) (h : Keeps a s) : Keeps a (clearPower powerOn s) := by
  unfold clearPower
  extract_lets health s1 s2 s3
  have h3 : Keeps a s3 :=
    setB_keeps _ _ _ (setB_keeps _ _ _ (foldl_keeps (clearRegs_keeps _ _ h) fun b x hb => setF_keeps _ _ _ hb))
  refine h3.trans ⟨rfl, fun w => ?_, id⟩
  simp only [Memory.wf, Bool.and_eq_true] at w ⊢
  exact ⟨⟨⟨⟨rfl, w.1.1.1.2⟩, w.1.1.2⟩, w.1.2⟩, w.2⟩

theorem restoreItems_keeps {a : State} (p : ℕ → Bool) (s : State) (h : Keeps a s) : Keeps a (restoreItems p s) := by
  unfold restoreItems
  try dsimp only
  repeat' first
    | with_reducible first
        | assumption | intro _ | apply restoreRegister_keeps | apply foldl_keeps | apply risingFrom_filter
        | apply mapWf_filter
    | split | dsimp only | assumption | exact Keeps.of_same (by assumption) rfl rfl rfl rfl rfl rfl rfl | intro _ | rfl

theorem inertUnlock_keeps {a : State} (s : State) (h : Keeps a s) : Keeps a (inertUnlock s) := by
  unfold inertUnlock
  try dsimp only
  repeat' first
    | with_reducible first
        | assumption | intro _ | apply restoreItems_keeps | apply lockStart_keeps
    | split | dsimp only | assumption | exact Keeps.of_same (by assumption) rfl rfl rfl rfl rfl rfl rfl | intro _ | rfl

theorem enterInert_keeps {a : State} (reason : ℕ) (s : State) (h : Keeps a s) : Keeps a (enterInert reason s) := by
  unfold enterInert
  try dsimp only
  repeat' first
    | with_reducible first
        | assumption | intro _ | apply State.updMet_keeps | apply settle_keeps | apply inertUnlock_keeps
        | apply enterMode_keeps | apply clearRegs_keeps | apply openNow_keeps | apply setF_keeps | apply stopAll_keeps
        | apply panelOff_keeps | apply stopStrands_keeps | apply outOff_keeps | apply foldl_keeps
    | split | dsimp only | assumption | exact Keeps.of_same (by assumption) rfl rfl rfl rfl rfl rfl rfl | intro _ | rfl

theorem placeLinkKey_keeps {a : State} (s : State) (h : Keeps a s) : Keeps a (placeLinkKey s) := by
  unfold placeLinkKey
  try dsimp only
  repeat' first
    | with_reducible first
        | assumption | intro _ | apply State.updLink_keeps | apply firmwareDerives_keeps
        | refine firmwareDerives_keeps' (by assumption) ?_
    | split | dsimp only | assumption | exact Keeps.of_same (by assumption) rfl rfl rfl rfl rfl rfl rfl | intro _ | rfl

theorem deriveRoot_keeps {a : State} (s : State) (h : Keeps a s) : Keeps a (deriveRoot s) := by
  unfold deriveRoot
  try dsimp only
  repeat' first
    | with_reducible first
        | assumption | intro _ | apply State.updKey_keeps | apply firmwareDerives_keeps
        | refine firmwareDerives_keeps' (by assumption) ?_
    | split | dsimp only | assumption | exact Keeps.of_same (by assumption) rfl rfl rfl rfl rfl rfl rfl | intro _ | rfl

theorem firstSound_keeps {a : State} (x0 : List ℕ) (x1 : State) (h : Keeps a x1) : Keeps a (firstSound x0 x1).2 := by
  induction x0 generalizing x1 with
  | nil =>
    unfold firstSound
    try dsimp only
    repeat' first
      | with_reducible first
          | assumption | intro _ | apply modFw_keeps
      | split | dsimp only | assumption | exact Keeps.of_same (by assumption) rfl rfl rfl rfl rfl rfl rfl | intro _
      | rfl
  | cons _ _ ih =>
    unfold firstSound
    try dsimp only
    repeat' first
      | with_reducible first
          | assumption | intro _ | apply modFw_keeps | apply ih
      | split | dsimp only | assumption | exact Keeps.of_same (by assumption) rfl rfl rfl rfl rfl rfl rfl | intro _
      | rfl

theorem firstSound_keeps' {a t : State} {x0 : List ℕ} {x1 : State} {v0} (e : firstSound x0 x1 = (v0, t)) (h : Keeps a x1) : Keeps a t := by
  have q := firstSound_keeps (a := a) x0 x1 h
  rw [e] at q
  exact q

theorem bootSlot_keeps {a : State} (s : State) (h : Keeps a s) : Keeps a (bootSlot s).2 := by
  unfold bootSlot
  try dsimp only
  repeat' first
    | with_reducible first
        | assumption | intro _ | apply firstSound_keeps | refine firstSound_keeps' (by assumption) ?_
        | apply risingFrom_filter | apply mapWf_filter
    | split | dsimp only | assumption | exact Keeps.of_same (by assumption) rfl rfl rfl rfl rfl rfl rfl | intro _ | rfl

theorem bootSlot_keeps' {a t : State} {s : State} {v0} (e : bootSlot s = (v0, t)) (h : Keeps a s) : Keeps a t := by
  have q := bootSlot_keeps (a := a) s h
  rw [e] at q
  exact q

theorem bootImage_keeps {a : State} (k : ℕ) (s : State) (h : Keeps a s) : Keeps a (bootImage k s) := by
  unfold bootImage
  try dsimp only
  repeat' first
    | with_reducible first
        | assumption | intro _ | apply modFw_keeps | apply State.updStore_keeps
    | split | dsimp only | assumption | exact Keeps.of_same (by assumption) rfl rfl rfl rfl rfl rfl rfl | intro _ | rfl

theorem noteCommissioned_keeps {a : State} (s : State) (h : Keeps a s) : Keeps a (noteCommissioned s) := by
  unfold noteCommissioned
  try dsimp only
  repeat' first
    | with_reducible first
        | assumption | intro _ | apply setB_keeps
    | split | dsimp only | assumption | exact Keeps.of_same (by assumption) rfl rfl rfl rfl rfl rfl rfl | intro _ | rfl

theorem assertSaved_keeps {a : State} (s : State) (h : Keeps a s) : Keeps a (assertSaved s) := by
  unfold assertSaved
  try dsimp only
  repeat' first
    | with_reducible first
        | assumption | intro _ | apply State.updSw_keeps | apply setF_keeps
    | split | dsimp only | assumption | exact Keeps.of_same (by assumption) rfl rfl rfl rfl rfl rfl rfl | intro _ | rfl

theorem healthCheck_keeps {a : State} (s : State) (h : Keeps a s) : Keeps a (healthCheck s) := by
  unfold healthCheck
  try dsimp only
  repeat' first
    | with_reducible first
        | assumption | intro _ | apply setHealth_keeps | apply wornCheck_keeps
    | split | dsimp only | assumption | exact Keeps.of_same (by assumption) rfl rfl rfl rfl rfl rfl rfl | intro _ | rfl

theorem bootForme_keeps {a : State} (s : State) (h : Keeps a s) : Keeps a (bootForme s) := by
  unfold bootForme
  try dsimp only
  repeat' first
    | with_reducible first
        | assumption | intro _ | apply loadForme_keeps | apply setF_keeps
    | split | dsimp only | assumption | exact Keeps.of_same (by assumption) rfl rfl rfl rfl rfl rfl rfl | intro _ | rfl

theorem linkStart_keeps {a : State} (s : State) (h : Keeps a s) : Keeps a (linkStart s) := by
  unfold linkStart
  try dsimp only
  repeat' first
    | with_reducible first
        | assumption | intro _ | apply roundStart_keeps | apply enterFallback_keeps | apply State.updLink_keeps
    | split | dsimp only | assumption | exact Keeps.of_same (by assumption) rfl rfl rfl rfl rfl rfl rfl | intro _ | rfl

theorem ready_keeps {a : State} (s : State) (h : Keeps a s) : Keeps a (ready s) := by
  unfold ready
  try dsimp only
  repeat' first
    | with_reducible first
        | assumption | intro _ | apply settle_keeps | apply enterMode_keeps | apply State.updTag_keeps
        | apply takeRecord_keeps | apply setF_keeps | apply platenStart_keeps | apply linkStart_keeps
    | split | dsimp only | assumption | exact Keeps.of_same (by assumption) rfl rfl rfl rfl rfl rfl rfl | intro _ | rfl

theorem bootFirmware_keeps {a : State} (k : ℕ) (s : State) (h : Keeps a s) : Keeps a (bootFirmware k s) := by
  unfold bootFirmware
  try dsimp only
  repeat' first
    | with_reducible first
        | assumption | intro _ | apply countLostBreak_keeps | apply bootImage_keeps | apply assertSaved_keeps
        | apply enterInert_keeps | apply restoreItems_keeps | apply enterMode_keeps | apply ready_keeps
        | apply healthCheck_keeps | apply deriveRoot_keeps | apply loadTrims_keeps | apply askTest_keeps
        | apply ledgerRestore_keeps | apply noteCommissioned_keeps | apply State.updSys_keeps
        | apply placeLinkKey_keeps | apply linkStart_keeps | apply bootForme_keeps
    | split | dsimp only | assumption | exact Keeps.of_same (by assumption) rfl rfl rfl rfl rfl rfl rfl | intro _ | rfl

theorem boot_keeps {a : State} (s : State) (h : Keeps a s) : Keeps a (boot s) := by
  unfold boot
  try dsimp only
  repeat' first
    | with_reducible first
        | assumption | intro _ | apply enterInert_keeps | apply settle_keeps | apply bootSlot_keeps
        | refine bootSlot_keeps' (by assumption) ?_ | apply enterMode_keeps | apply healthCheck_keeps
        | apply deriveRoot_keeps | apply State.updPilot_keeps | apply bootFirmware_keeps | apply placeLinkKey_keeps
    | split | dsimp only | assumption | exact Keeps.of_same (by assumption) rfl rfl rfl rfl rfl rfl rfl | intro _ | rfl

theorem sampleMsel_keeps {a : State} (r : Role) (s : State) (h : Keeps a s) : Keeps a (sampleMsel r s) := by
  unfold sampleMsel
  try dsimp only
  repeat' first
    | with_reducible first
        | assumption | intro _ | apply State.updSys_keeps
    | split | dsimp only | assumption | exact Keeps.of_same (by assumption) rfl rfl rfl rfl rfl rfl rfl | intro _ | rfl

theorem cause_keeps {a : State} (f : Field) (s : State) (h : Keeps a s) : Keeps a (cause f s) := by
  unfold cause
  try dsimp only
  repeat' first
    | with_reducible first
        | assumption | intro _ | apply setF_keeps
    | split | dsimp only | assumption | exact Keeps.of_same (by assumption) rfl rfl rfl rfl rfl rfl rfl | intro _ | rfl

theorem defaultF_keeps {a : State} (pumps : Bool) (s : State) (h : Keeps a s) : Keeps a (defaultF pumps s) := by
  unfold defaultF
  try dsimp only
  repeat' first
    | with_reducible first
        | assumption | intro _ | apply settle_keeps | apply State.updPilot_keeps
    | split | dsimp only | assumption | exact Keeps.of_same (by assumption) rfl rfl rfl rfl rfl rfl rfl | intro _ | rfl

theorem resetAndBoot_keeps {a : State} (powerOn : Bool) (why : Option Field) (s : State) (h : Keeps a s) : Keeps a (resetAndBoot powerOn why s) := by
  unfold resetAndBoot
  try dsimp only
  repeat' first
    | with_reducible first
        | assumption | intro _ | apply boot_keeps | apply clearPower_keeps | apply cause_keeps
    | split | dsimp only | assumption | exact Keeps.of_same (by assumption) rfl rfl rfl rfl rfl rfl rfl | intro _ | rfl

theorem suppliesGood_keeps {a : State} (msel : Role) (s : State) (h : Keeps a s) : Keeps a (suppliesGood msel s) := by
  unfold suppliesGood
  try dsimp only
  repeat' first
    | with_reducible first
        | assumption | intro _ | apply resetAndBoot_keeps | apply sampleMsel_keeps | apply State.updSys_keeps
    | split | dsimp only | assumption | exact Keeps.of_same (by assumption) rfl rfl rfl rfl rfl rfl rfl | intro _ | rfl

theorem loseAo_keeps {a : State} (s : State) (h : Keeps a s) : Keeps a (loseAo s) := by
  unfold loseAo
  try dsimp only
  repeat' first
    | with_reducible first
        | assumption | intro _ | apply State.updLed_keeps | apply clearRegs_keeps
    | split | dsimp only | assumption | exact Keeps.of_same (by assumption) rfl rfl rfl rfl rfl rfl rfl | intro _ | rfl

theorem loseBackupSram_keeps {a : State} (s : State) (h : Keeps a s) : Keeps a (loseBackupSram s) := by
  unfold loseBackupSram
  try dsimp only
  repeat' first
    | with_reducible first
        | assumption | intro _ | apply State.updSw_keeps
    | split | dsimp only | assumption | exact Keeps.of_same (by assumption) rfl rfl rfl rfl rfl rfl rfl | intro _ | rfl

theorem aoGone_keeps {a : State} (s : State) (h : Keeps a s) : Keeps a (aoGone s) := by
  unfold aoGone
  try dsimp only
  repeat' first
    | with_reducible first
        | assumption | intro _ | apply loseBackupSram_keeps | apply loseAo_keeps | apply enterMode_keeps
    | split | dsimp only | assumption | exact Keeps.of_same (by assumption) rfl rfl rfl rfl rfl rfl rfl | intro _ | rfl

theorem vauxLoss_keeps {a : State} (s : State) (h : Keeps a s) : Keeps a (vauxLoss s) := by
  unfold vauxLoss
  try dsimp only
  repeat' first
    | with_reducible first
        | assumption | intro _ | apply loseBackupSram_keeps | apply loseAo_keeps | apply enterMode_keeps
        | apply clearPower_keeps | apply State.updSys_keeps | apply cause_keeps | apply aoGone_keeps
    | split | dsimp only | assumption | exact Keeps.of_same (by assumption) rfl rfl rfl rfl rfl rfl rfl | intro _ | rfl

theorem softReset_keeps {a : State} (s : State) (h : Keeps a s) : Keeps a (softReset s).2 := by
  unfold softReset
  try dsimp only
  repeat' first
    | with_reducible first
        | assumption | intro _ | apply resetAndBoot_keeps
    | split | dsimp only | assumption | exact Keeps.of_same (by assumption) rfl rfl rfl rfl rfl rfl rfl | intro _ | rfl

theorem softReset_keeps' {a t : State} {s : State} {v0} (e : softReset s = (v0, t)) (h : Keeps a s) : Keeps a t := by
  have q := softReset_keeps (a := a) s h
  rw [e] at q
  exact q

theorem loadsOff_keeps {a : State} (s : State) (h : Keeps a s) : Keeps a (loadsOff s) := by
  unfold loadsOff
  try dsimp only
  repeat' first
    | with_reducible first
        | assumption | intro _ | apply outOff_keeps | apply foldl_keeps
    | split | dsimp only | assumption | exact Keeps.of_same (by assumption) rfl rfl rfl rfl rfl rfl rfl | intro _ | rfl

theorem pfwConfirm_keeps {a : State} (d : BlockData) (s : State) (h : Keeps a s) : Keeps a (pfwConfirm d s) := by
  unfold pfwConfirm
  try dsimp only
  repeat' first
    | with_reducible first
        | assumption | intro _ | apply State.updMet_keeps | apply loadsOff_keeps | apply settle_keeps
        | apply endPause_keeps | apply ledgerFreeze_keeps | apply supervisorStop_keeps | apply failAct_keeps
        | apply blockEnd_keeps | apply setF_keeps | apply State.updSys_keeps | apply cause_keeps
    | split | dsimp only | assumption | exact Keeps.of_same (by assumption) rfl rfl rfl rfl rfl rfl rfl | intro _ | rfl

theorem capstanResetStrand_keeps {a : State} (n : Fin 320) (s : State) (h : Keeps a s) : Keeps a (capstanResetStrand n s) := by
  unfold capstanResetStrand
  try dsimp only
  repeat' first
    | with_reducible first
        | assumption | intro _ | apply modS_keeps | apply discardGalley_keeps | apply abandonCalls_keeps
        | apply keysLetGo_keeps | apply Cap.makeReady_capKeeps | apply State.updCap_keeps
    | split | dsimp only | assumption | with_reducible exact CapKeeps.refl _
    | (refine CapKeeps.of_same rfl rfl rfl ?_; with_reducible first | assumption | apply Cap.makeReady_capKeeps)
    | exact Keeps.of_same (by assumption) rfl rfl rfl rfl rfl rfl rfl | intro _ | rfl

theorem capstanReset_keeps {a : State} (s : State) (h : Keeps a s) : Keeps a (capstanReset s) := by
  unfold capstanReset
  try dsimp only
  repeat' first
    | with_reducible first
        | assumption | intro _ | apply capstanResetStrand_keeps | apply setF_keeps | apply cause_keeps
        | apply State.updCap_keeps | apply foldl_keeps
    | split | dsimp only | assumption | with_reducible exact CapKeeps.refl _
    | exact Keeps.of_same (by assumption) rfl rfl rfl rfl rfl rfl rfl | intro _ | rfl

theorem faultInOrder_keeps {a : State} (s : State) (n : Fin 320) (h : Keeps a s) : Keeps a (faultInOrder s n) := by
  unfold faultInOrder
  try dsimp only
  repeat' first
    | with_reducible first
        | assumption | intro _ | apply capFault_keeps | apply freeBelow_keeps
        | refine freeBelow_keeps' (by assumption) ?_
    | split | dsimp only | assumption | exact Keeps.of_same (by assumption) rfl rfl rfl rfl rfl rfl rfl | intro _ | rfl

theorem coreFailure_keeps {a : State} (s : State) (h : Keeps a s) : Keeps a (coreFailure s) := by
  unfold coreFailure
  try dsimp only
  repeat' first
    | with_reducible first
        | assumption | intro _ | apply endPause_keeps | apply failAct_keeps | apply clearRegs_keeps
        | apply boundary_keeps | apply State.updSys_keeps | apply cause_keeps
    | split | dsimp only | assumption | exact Keeps.of_same (by assumption) rfl rfl rfl rfl rfl rfl rfl | intro _ | rfl

theorem pickCore_keeps {a : State} (s : State) (h : Keeps a s) : Keeps a (pickCore s) := by
  unfold pickCore
  try dsimp only
  repeat' first
    | with_reducible first
        | assumption | intro _ | apply freeBelow_keeps | refine freeBelow_keeps' (by assumption) ?_
        | apply State.updStore_keeps
    | split | dsimp only | assumption | exact Keeps.of_same (by assumption) rfl rfl rfl rfl rfl rfl rfl | intro _ | rfl

theorem stopDone_keeps {a : State} (s : State) (h : Keeps a s) : Keeps a (stopDone s) := by
  unfold stopDone
  try dsimp only
  repeat' first
    | with_reducible first
        | assumption | intro _ | apply boot_keeps | apply pickCore_keeps | apply clearPower_keeps | apply cause_keeps
    | split | dsimp only | assumption | exact Keeps.of_same (by assumption) rfl rfl rfl rfl rfl rfl rfl | intro _ | rfl

theorem requestCommission_keeps {a : State} (req : Bool) (s : State) (h : Keeps a s) : Keeps a (requestCommission req s).2 := by
  unfold requestCommission
  try dsimp only
  repeat' first
    | with_reducible first
        | assumption | intro _ | apply enterCommission_keeps
    | split | dsimp only | assumption | exact Keeps.of_same (by assumption) rfl rfl rfl rfl rfl rfl rfl | intro _ | rfl

theorem requestCommission_keeps' {a t : State} {req : Bool} {s : State} {v0} (e : requestCommission req s = (v0, t)) (h : Keeps a s) : Keeps a t := by
  have q := requestCommission_keeps (a := a) req s h
  rw [e] at q
  exact q

theorem storeItem_keeps {a : State} (s : State) (i : SettingItem) (h : Keeps a s) : Keeps a (storeItem s i) := by
  unfold storeItem
  try dsimp only
  repeat' first
    | with_reducible first
        | assumption | intro _ | apply logViolation_keeps | apply incF_keeps | apply State.updSys_keeps
        | apply risingFrom_filter | apply mapWf_filter
    | split | dsimp only | assumption | exact Keeps.of_same (by assumption) rfl rfl rfl rfl rfl rfl rfl | intro _ | rfl

theorem commissionCommit_keeps {a : State} (valid : Bool) (s : State) (h : Keeps a s) : Keeps a (commissionCommit valid s) := by
  unfold commissionCommit
  try dsimp only
  repeat' first
    | with_reducible first
        | assumption | intro _ | apply restoreRegister_keeps | apply settle_keeps | apply enterMode_keeps
        | apply storeItem_keeps | apply setF_keeps | apply noteCommissioned_keeps | apply State.updSys_keeps
        | apply outOff_keeps | apply copyOnWrite_keeps | apply foldl_keeps | apply risingFrom_filter
        | apply mapWf_filter
    | split | dsimp only | assumption | exact Keeps.of_same (by assumption) rfl rfl rfl rfl rfl rfl rfl | intro _ | rfl

theorem timeUnsure_keeps {a : State} (s : State) (h : Keeps a s) : Keeps a (timeUnsure s) := by
  unfold timeUnsure
  try dsimp only
  repeat' first
    | with_reducible first
        | assumption | intro _ | apply State.updLed_keeps | apply writeEvent_keeps | apply updCur_keeps
    | split | dsimp only | assumption | exact Keeps.of_same (by assumption) rfl rfl rfl rfl rfl rfl rfl | intro _ | rfl

theorem setX32_keeps {a : State} (sub : Bool) (s : State) (h : Keeps a s) : Keeps a (setX32 sub s) := by
  unfold setX32
  try dsimp only
  repeat' first
    | with_reducible first
        | assumption | intro _ | apply State.updLed_keeps | apply setB_keeps
    | split | dsimp only | assumption | exact Keeps.of_same (by assumption) rfl rfl rfl rfl rfl rfl rfl | intro _ | rfl

theorem safeClearP_keeps {a : State} (weld : Bool) (contactor : Bool) (s : State) (h : Keeps a s) : Keeps a (safeClearP weld contactor s).2 := by
  unfold safeClearP
  try dsimp only
  repeat' first
    | with_reducible first
        | assumption | intro _ | apply clearMismatch_keeps | apply clearWeld_keeps
    | split | dsimp only | assumption | exact Keeps.of_same (by assumption) rfl rfl rfl rfl rfl rfl rfl | intro _ | rfl

theorem safeClearP_keeps' {a t : State} {weld : Bool} {contactor : Bool} {s : State} {v0} (e : safeClearP weld contactor s = (v0, t)) (h : Keeps a s) : Keeps a t := by
  have q := safeClearP_keeps (a := a) weld contactor s h
  rw [e] at q
  exact q

theorem rtcRollover_keeps {a : State} (s : State) (h : Keeps a s) : Keeps a (rtcRollover s) := by
  unfold rtcRollover
  try dsimp only
  repeat' first
    | with_reducible first
        | assumption | intro _ | apply rtcSecond_keeps | apply legalDraw_keeps | apply State.updTag_keeps
        | apply takeRecord_keeps | apply setF_keeps | apply State.updSys_keeps
    | split | dsimp only | assumption | exact Keeps.of_same (by assumption) rfl rfl rfl rfl rfl rfl rfl | intro _ | rfl

theorem keyWord_keeps {a : State} (w : ℕ) (s : State) (h : Keeps a s) : Keeps a (keyWord w s).2 := by
  unfold keyWord
  try dsimp only
  repeat' first
    | with_reducible first
        | assumption | intro _ | apply keyDerive_keeps | refine keyDerive_keeps' (by assumption) ?_
        | apply keyImport_keeps | refine keyImport_keeps' (by assumption) ?_ | apply keyCut_keeps
        | refine keyCut_keeps' (by assumption) ?_ | apply readPublic_keeps
        | refine readPublic_keeps' (by assumption) ?_ | apply keyRelease_keeps
        | refine keyRelease_keeps' (by assumption) ?_ | apply freeBelow_keeps
        | refine freeBelow_keeps' (by assumption) ?_ | apply keyCreate_keeps
        | refine keyCreate_keeps' (by assumption) ?_
    | split | dsimp only | assumption | exact Keeps.of_same (by assumption) rfl rfl rfl rfl rfl rfl rfl | intro _ | rfl

theorem keyWord_keeps' {a t : State} {w : ℕ} {s : State} {v0} (e : keyWord w s = (v0, t)) (h : Keeps a s) : Keeps a t := by
  have q := keyWord_keeps (a := a) w s h
  rw [e] at q
  exact q

theorem sysCtrlWord_keeps {a : State} (w : ℕ) (s : State) (h : Keeps a s) : Keeps a (sysCtrlWord w s).2 := by
  unfold sysCtrlWord
  try dsimp only
  repeat' first
    | with_reducible first
        | assumption | intro _ | apply standbyExit_keeps | apply settle_keeps | apply requestCommission_keeps
        | refine requestCommission_keeps' (by assumption) ?_ | apply setB_keeps
    | split | dsimp only | assumption | exact Keeps.of_same (by assumption) rfl rfl rfl rfl rfl rfl rfl | intro _ | rfl

theorem sysCtrlWord_keeps' {a t : State} {w : ℕ} {s : State} {v0} (e : sysCtrlWord w s = (v0, t)) (h : Keeps a s) : Keeps a t := by
  have q := sysCtrlWord_keeps (a := a) w s h
  rw [e] at q
  exact q

theorem sysResetWord_keeps {a : State} (w : ℕ) (s : State) (h : Keeps a s) : Keeps a (sysResetWord w s).2 := by
  unfold sysResetWord
  try dsimp only
  repeat' first
    | with_reducible first
        | assumption | intro _ | apply softReset_keeps | refine softReset_keeps' (by assumption) ?_
        | apply capstanReset_keeps
    | split | dsimp only | assumption | exact Keeps.of_same (by assumption) rfl rfl rfl rfl rfl rfl rfl | intro _ | rfl

theorem sysResetWord_keeps' {a t : State} {w : ℕ} {s : State} {v0} (e : sysResetWord w s = (v0, t)) (h : Keeps a s) : Keeps a t := by
  have q := sysResetWord_keeps (a := a) w s h
  rw [e] at q
  exact q

theorem debugWord_keeps {a : State} (w : ℕ) (s : State) (h : Keeps a s) : Keeps a (debugWord w s).2 := by
  unfold debugWord
  try dsimp only
  repeat' first
    | with_reducible first
        | assumption | intro _ | apply debugCommand_keeps | refine debugCommand_keeps' (by assumption) ?_
        | apply stepStrand_keeps | apply keepDebug_keeps | apply resumeStrand_keeps | apply haltStrand_keeps
    | split | dsimp only | assumption | exact Keeps.of_same (by assumption) rfl rfl rfl rfl rfl rfl rfl | intro _ | rfl

theorem debugWord_keeps' {a t : State} {w : ℕ} {s : State} {v0} (e : debugWord w s = (v0, t)) (h : Keeps a s) : Keeps a t := by
  have q := debugWord_keeps (a := a) w s h
  rw [e] at q
  exact q

theorem dirPubWord_keeps {a : State} (w : ℕ) (s : State) (h : Keeps a s) : Keeps a (dirPubWord w s).2 := by
  unfold dirPubWord
  try dsimp only
  repeat' first
    | with_reducible first
        | assumption | intro _ | apply registerWrite_keeps | refine registerWrite_keeps' (by assumption) ?_
        | apply dirPublish_keeps
    | split | dsimp only | assumption | exact Keeps.of_same (by assumption) rfl rfl rfl rfl rfl rfl rfl | intro _ | rfl

theorem dirPubWord_keeps' {a t : State} {w : ℕ} {s : State} {v0} (e : dirPubWord w s = (v0, t)) (h : Keeps a s) : Keeps a t := by
  have q := dirPubWord_keeps (a := a) w s h
  rw [e] at q
  exact q

theorem calWord_keeps {a : State} (w : ℕ) (s : State) (h : Keeps a s) : Keeps a (calWord w s).2 := by
  unfold calWord
  try dsimp only
  repeat' first
    | with_reducible first
        | assumption | intro _ | apply State.updLed_keeps | apply calLoad_keeps
        | refine calLoad_keeps' (by assumption) ?_
    | split | dsimp only | assumption | exact Keeps.of_same (by assumption) rfl rfl rfl rfl rfl rfl rfl | intro _ | rfl

theorem calWord_keeps' {a t : State} {w : ℕ} {s : State} {v0} (e : calWord w s = (v0, t)) (h : Keeps a s) : Keeps a t := by
  have q := calWord_keeps (a := a) w s h
  rw [e] at q
  exact q

theorem commandWord_keeps {a : State} (addr w : Nat) (s : State) (d : Nat × State) (h : Keeps a s) (hd : Keeps a d.2) :
    Keeps a ((commandWord addr w s).getD d).2 := by
  unfold commandWord
  dsimp only
  split <;> repeat' first
    | with_reducible first
      | assumption
      | apply dirPubWord_keeps
      | apply keyPairOk_keeps
      | apply writeSa_keeps
      | apply discardSlot_keeps
      | apply sysResetWord_keeps
      | apply State.updLed_keeps
      | apply hostStrand_keeps
      | apply openSlot_keeps
      | apply safeClear_keeps
      | apply dirCommand_keeps
      | apply sysCtrlWord_keeps
      | apply topup_keeps
      | apply calStage_keeps
      | apply calDiscard_keeps
      | apply mbRing_keeps
      | apply qFlush_keeps
      | apply keyWord_keeps
      | apply verifySlot_keeps
      | apply calWord_keeps
      | apply calCommit_keeps
      | apply debugWord_keeps
      | apply closePresence_keeps
      | apply updAct_keeps
      | apply rtcSet_keeps
      | apply askTest_keeps
      | apply setF_keeps
      | apply ledClear_keeps
      | apply expAck_keeps
      | apply lnkUnpair_keeps
      | apply lnkRemove_keeps
      | apply safeClearP_keeps
      | apply deltaApply_keeps
      | apply plCmd_keeps
      | apply trip_keeps
      | apply foldl_keeps
    | split
    | dsimp only [Option.getD_some, Option.getD_none]
    | intro _

theorem tagWord_keeps {a : State} (o : ℕ) (w : ℕ) (s : State) (h : Keeps a s) : Keeps a (tagWord o w s).2 := by
  unfold tagWord
  try dsimp only
  repeat' first
    | with_reducible first
        | assumption | intro _ | apply tagPut_keeps
    | split | dsimp only | assumption | exact Keeps.of_same (by assumption) rfl rfl rfl rfl rfl rfl rfl | intro _ | rfl

theorem tagWord_keeps' {a t : State} {o : ℕ} {w : ℕ} {s : State} {v0} (e : tagWord o w s = (v0, t)) (h : Keeps a s) : Keeps a t := by
  have q := tagWord_keeps (a := a) o w s h
  rw [e] at q
  exact q

theorem mapWord_keeps {a : State} (x w : Nat) (s : State) (h : Keeps a s) : Keeps a (mapWord x w s).2 := by
  unfold mapWord
  repeat' first
    | with_reducible first
      | assumption
      | apply commandWord_keeps
      | apply registerWrite_keeps
      | apply tagWord_keeps
      | apply updProg_keeps
      | apply updCaseMem_keeps
      | apply updShared_keeps
    | split
    | exact fun c hc => mapWf_mapSet _ _ _ hc
    | exact fun c hc => mapWf_putWord _ _ _ hc

theorem mapWord_keeps' {a t : State} {x w : Nat} {s : State} {v0} (e : mapWord x w s = (v0, t)) (h : Keeps a s) : Keeps a t := by
  have q := mapWord_keeps (a := a) x w s h
  rw [e] at q
  exact q

theorem wordWrite_keeps {a : State} (a_ : ℕ) (w : ℕ) (s : State) (h : Keeps a s) : Keeps a (wordWrite a_ w s).2 := by
  unfold wordWrite
  try dsimp only
  repeat' first
    | with_reducible first
        | assumption | intro _ | apply mapWord_keeps | refine mapWord_keeps' (by assumption) ?_ | apply portWord_keeps
        | refine portWord_keeps' (by assumption) ?_
    | split | dsimp only | assumption | exact Keeps.of_same (by assumption) rfl rfl rfl rfl rfl rfl rfl | intro _ | rfl

theorem wordWrite_keeps' {a t : State} {a_ : ℕ} {w : ℕ} {s : State} {v0} (e : wordWrite a_ w s = (v0, t)) (h : Keeps a s) : Keeps a t := by
  have q := wordWrite_keeps (a := a) a_ w s h
  rw [e] at q
  exact q

theorem applyWords_keeps {a : State} (f : ℕ → ℕ → State → ℕ × State) (a_ : ℕ) (x2 : List (BitVec 32)) (x3 : ℕ) (x4 : State) (hf : ∀ y0 y1 b, Keeps a b → Keeps a (f y0 y1 b).2) (h : Keeps a x4) : Keeps a (applyWords f a_ x2 x3 x4).2.2.2 := by
  induction x2 generalizing a_ x3 x4 with
  | nil =>
    unfold applyWords
    try dsimp only
    repeat' first
      | with_reducible first
          | assumption | intro _ | apply hf
      | split | dsimp only | assumption | exact Keeps.of_same (by assumption) rfl rfl rfl rfl rfl rfl rfl | intro _
      | rfl
  | cons _ _ ih =>
    unfold applyWords
    try dsimp only
    repeat' first
      | with_reducible first
          | assumption | intro _ | apply hf | apply ih
      | split | dsimp only | assumption | exact Keeps.of_same (by assumption) rfl rfl rfl rfl rfl rfl rfl | intro _
      | rfl

theorem applyWords_keeps' {a t : State} {f : ℕ → ℕ → State → ℕ × State} {a_ : ℕ} {x2 : List (BitVec 32)} {x3 : ℕ} {x4 : State} {v0 v1 v2} (hf : ∀ y0 y1 b, Keeps a b → Keeps a (f y0 y1 b).2) (e : applyWords f a_ x2 x3 x4 = (v0, v1, v2, t)) (h : Keeps a x4) : Keeps a t := by
  have q := applyWords_keeps (a := a) f a_ x2 x3 x4 hf h
  rw [e] at q
  exact q

theorem writeWords_keeps {a : State} (f : ℕ → ℕ → State → ℕ × State) (a_ : ℕ) (ws : List (BitVec 32)) (s : State) (hf : ∀ y0 y1 b, Keeps a b → Keeps a (f y0 y1 b).2) (h : Keeps a s) : Keeps a (writeWords f a_ ws s).2.2.2 := by
  unfold writeWords
  try dsimp only
  repeat' first
    | with_reducible first
        | assumption | intro _ | apply applyWords_keeps | refine applyWords_keeps' (by assumption) ?_ | apply hf
    | split | dsimp only | assumption | exact Keeps.of_same (by assumption) rfl rfl rfl rfl rfl rfl rfl | intro _ | rfl

theorem writeWords_keeps' {a t : State} {f : ℕ → ℕ → State → ℕ × State} {a_ : ℕ} {ws : List (BitVec 32)} {s : State} {v0 v1 v2} (hf : ∀ y0 y1 b, Keeps a b → Keeps a (f y0 y1 b).2) (e : writeWords f a_ ws s = (v0, v1, v2, t)) (h : Keeps a s) : Keeps a t := by
  have q := writeWords_keeps (a := a) f a_ ws s hf h
  rw [e] at q
  exact q

theorem unitWord_keeps {a : State} (m : NMap Byte) (o : ℕ) (s : State) (h : Keeps a s) : Keeps a (unitWord m o s).2 := by
  unfold unitWord
  try dsimp only
  repeat' first
    | with_reducible first
        | assumption | intro _ | apply freeBelow_keeps | refine freeBelow_keeps' (by assumption) ?_
    | split | dsimp only | assumption | exact Keeps.of_same (by assumption) rfl rfl rfl rfl rfl rfl rfl | intro _ | rfl

theorem unitWord_keeps' {a t : State} {m : NMap Byte} {o : ℕ} {s : State} {v0} (e : unitWord m o s = (v0, t)) (h : Keeps a s) : Keeps a t := by
  have q := unitWord_keeps (a := a) m o s h
  rw [e] at q
  exact q

theorem entryWord_keeps {a : State} (h_ : Held) (e_ : ℕ) (o : ℕ) (s : State) (h : Keeps a s) : Keeps a (entryWord h_ e_ o s).2 := by
  unfold entryWord
  try dsimp only
  repeat' first
    | with_reducible first
        | assumption | intro _ | apply unitWord_keeps | refine unitWord_keeps' (by assumption) ?_
        | apply freeBelow_keeps | refine freeBelow_keeps' (by assumption) ?_
    | split | dsimp only | assumption | exact Keeps.of_same (by assumption) rfl rfl rfl rfl rfl rfl rfl | intro _ | rfl

theorem entryWord_keeps' {a t : State} {h_ : Held} {e_ : ℕ} {o : ℕ} {s : State} {v0} (e : entryWord h_ e_ o s = (v0, t)) (h : Keeps a s) : Keeps a t := by
  have q := entryWord_keeps (a := a) h_ e_ o s h
  rw [e] at q
  exact q

theorem viewRead_keeps {a : State} (a_ : ℕ) (s : State) (h : Keeps a s) : Keeps a (viewRead a_ s).2 := by
  unfold viewRead
  try dsimp only
  repeat' first
    | with_reducible first
        | assumption | intro _ | apply State.cap_capKeeps | apply entryWord_keeps
        | refine entryWord_keeps' (by assumption) ?_
    | split | dsimp only | assumption
    | (refine CapKeeps.of_same rfl rfl rfl ?_; with_reducible first | assumption | apply State.cap_capKeeps)
    | exact Keeps.of_same (by assumption) rfl rfl rfl rfl rfl rfl rfl | intro _ | rfl

theorem viewRead_keeps' {a t : State} {a_ : ℕ} {s : State} {v0} (e : viewRead a_ s = (v0, t)) (h : Keeps a s) : Keeps a t := by
  have q := viewRead_keeps (a := a) a_ s h
  rw [e] at q
  exact q

theorem readRegister_keeps {a : State} (x : Nat) (s : State) (h : Keeps a s) : Keeps a (readRegister x s).2.2 := by
  unfold readRegister
  split
  · exact h
  · next k xs _ =>
    have q : ∀ (l : List RegField) (r : Nat × State), Keeps a r.2 → Keeps a (l.foldl (fun (r : Nat × State) x =>
        if x.access = .wo then r
        else
          let (v, s) := readField k x.field r.2
          (r.1 + v % 2 ^ x.field.width * 2 ^ x.field.lo, s)) r).2 := by
      intro l
      induction l with
      | nil => exact fun _ h => h
      | cons f l ih =>
        intro r hr
        refine ih _ ?_
        dsimp only
        split
        · exact hr
        · exact readField_keeps _ _ _ hr
    extract_lets r latch
    have hr : Keeps a r.2 := q xs (0, s) h
    show Keeps a (latch r.2)
    unfold latch
    split
    · exact State.updMet_keeps hr _
    · exact hr

theorem readRegister_keeps' {a t : State} {x : Nat} {s : State} {v0 v1} (e : readRegister x s = (v0, v1, t)) (h : Keeps a s) :
    Keeps a t := by
  have q := readRegister_keeps (a := a) x s h
  rw [e] at q
  exact q

theorem mapRead_keeps {a : State} (a_ : ℕ) (s : State) (h : Keeps a s) : Keeps a (mapRead a_ s).2.2 := by
  unfold mapRead
  try dsimp only
  repeat' first
    | with_reducible first
        | assumption | intro _ | apply readRegister_keeps | refine readRegister_keeps' (by assumption) ?_
        | apply State.cap_capKeeps | apply State.updSys_keeps | apply freeBelow_keeps
        | refine freeBelow_keeps' (by assumption) ?_ | apply viewRead_keeps | refine viewRead_keeps' (by assumption) ?_
    | split | dsimp only | assumption
    | (refine CapKeeps.of_same rfl rfl rfl ?_; with_reducible first | assumption | apply State.cap_capKeeps)
    | exact Keeps.of_same (by assumption) rfl rfl rfl rfl rfl rfl rfl | intro _ | rfl

theorem mapRead_keeps' {a t : State} {a_ : ℕ} {s : State} {v0 v1} (e : mapRead a_ s = (v0, v1, t)) (h : Keeps a s) : Keeps a t := by
  have q := mapRead_keeps (a := a) a_ s h
  rw [e] at q
  exact q

theorem wordRead_keeps {a : State} (a_ : ℕ) (s : State) (h : Keeps a s) : Keeps a (wordRead a_ s).2.2 := by
  unfold wordRead
  try dsimp only
  repeat' first
    | with_reducible first
        | assumption | intro _ | apply portWake_keeps | apply mapRead_keeps | refine mapRead_keeps' (by assumption) ?_
    | split | dsimp only | assumption | exact Keeps.of_same (by assumption) rfl rfl rfl rfl rfl rfl rfl | intro _ | rfl

theorem wordRead_keeps' {a t : State} {a_ : ℕ} {s : State} {v0 v1} (e : wordRead a_ s = (v0, v1, t)) (h : Keeps a s) : Keeps a t := by
  have q := wordRead_keeps (a := a) a_ s h
  rw [e] at q
  exact q

theorem readWords_keeps {a : State} (f : ℕ → State → ℕ × ℕ × State) (a_ : ℕ) (x2 : ℕ) (x3 : State) (hf : ∀ y0 b, Keeps a b → Keeps a (f y0 b).2.2) (h : Keeps a x3) : Keeps a (readWords f a_ x2 x3).2.2 := by
  induction x2 generalizing a_ x3 with
  | zero =>
    unfold readWords
    try dsimp only
    repeat' first
      | with_reducible first
          | assumption | intro _ | apply hf
      | split | dsimp only | assumption | exact Keeps.of_same (by assumption) rfl rfl rfl rfl rfl rfl rfl | intro _
      | rfl
  | succ _ ih =>
    unfold readWords
    try dsimp only
    repeat' first
      | with_reducible first
          | assumption | intro _ | apply hf | apply ih
      | split | dsimp only | assumption | exact Keeps.of_same (by assumption) rfl rfl rfl rfl rfl rfl rfl | intro _
      | rfl

theorem readWords_keeps' {a t : State} {f : ℕ → State → ℕ × ℕ × State} {a_ : ℕ} {x2 : ℕ} {x3 : State} {v0 v1} (hf : ∀ y0 b, Keeps a b → Keeps a (f y0 b).2.2) (e : readWords f a_ x2 x3 = (v0, v1, t)) (h : Keeps a x3) : Keeps a t := by
  have q := readWords_keeps (a := a) f a_ x2 x3 hf h
  rw [e] at q
  exact q

theorem storeWriteWord_keeps {a : State} (a_ : ℕ) (w : ℕ) (s : State) (h : Keeps a s) : Keeps a (storeWriteWord a_ w s).2 := by
  unfold storeWriteWord
  try dsimp only
  repeat' first
    | with_reducible first
        | assumption | intro _ | apply portWake_keeps | apply storePut_keeps | apply State.updStore_keeps
    | split | dsimp only | assumption | exact Keeps.of_same (by assumption) rfl rfl rfl rfl rfl rfl rfl | intro _ | rfl

theorem storeWriteWord_keeps' {a t : State} {a_ : ℕ} {w : ℕ} {s : State} {v0} (e : storeWriteWord a_ w s = (v0, t)) (h : Keeps a s) : Keeps a t := by
  have q := storeWriteWord_keeps (a := a) a_ w s h
  rw [e] at q
  exact q

theorem storeReadHost_keeps {a : State} (a_ : ℕ) (s : State) (h : Keeps a s) : Keeps a (storeReadHost a_ s).2.2 := by
  unfold storeReadHost
  try dsimp only
  repeat' first
    | with_reducible first
        | assumption | intro _ | apply portWake_keeps | apply State.updSys_keeps
    | split | dsimp only | assumption | exact Keeps.of_same (by assumption) rfl rfl rfl rfl rfl rfl rfl | intro _ | rfl

theorem storeReadHost_keeps' {a t : State} {a_ : ℕ} {s : State} {v0 v1} (e : storeReadHost a_ s = (v0, v1, t)) (h : Keeps a s) : Keeps a t := by
  have q := storeReadHost_keeps (a := a) a_ s h
  rw [e] at q
  exact q

theorem returned_keeps {a : State} (ws : List (BitVec 32)) (s : State) (h : Keeps a s) : Keeps a (returned ws s) := by
  unfold returned
  try dsimp only
  repeat' first
    | with_reducible first
        | assumption | intro _ | apply State.updHp_keeps
    | split | dsimp only | assumption | exact Keeps.of_same (by assumption) rfl rfl rfl rfl rfl rfl rfl | intro _ | rfl

theorem hostViolation_keeps {a : State} (k : ℕ) (s : State) (h : Keeps a s) : Keeps a (hostViolation k s) := by
  unfold hostViolation
  try dsimp only
  repeat' first
    | with_reducible first
        | assumption | intro _ | apply logViolation_keeps | apply incF_keeps
    | split | dsimp only | assumption | exact Keeps.of_same (by assumption) rfl rfl rfl rfl rfl rfl rfl | intro _ | rfl

theorem transaction_keeps {a : State} (bad : Option (ℕ × ℕ)) (f : State → State) (s : State) (hf : ∀ b, Keeps a b → Keeps a (f b)) (h : Keeps a s) : Keeps a (transaction bad f s) := by
  unfold transaction
  try dsimp only
  repeat' first
    | with_reducible first
        | assumption | intro _ | apply hostViolation_keeps | apply returned_keeps | apply answerAs_keeps | apply hf
    | split | dsimp only | assumption | exact Keeps.of_same (by assumption) rfl rfl rfl rfl rfl rfl rfl | intro _ | rfl

theorem endWrite_keeps {a : State} (cmd : Nat) (r : Nat × Nat × Bool × State) (h : Keeps a r.2.2.2) : Keeps a (endWrite cmd r) := by
  unfold endWrite
  split
  · exact h
  · exact answerAs_keeps _ _ _ h

theorem endRead_keeps {a : State} (cmd : Nat) (r : Nat × List (BitVec 32) × State) (h : Keeps a r.2.2) : Keeps a (endRead cmd r) :=
  answerAs_keeps _ _ _ (returned_keeps _ _ h)

theorem hostWrite_keeps {a : State} (addr : BitVec 32) (words : List (BitVec 32)) (frame : Framing) (s : State) (h : Keeps a s) : Keeps a (hostWrite addr words frame s) := by
  unfold hostWrite
  try dsimp only
  repeat' first
    | with_reducible first
        | assumption | intro _ | apply wordWrite_keeps | refine wordWrite_keeps' (by assumption) ?_
        | apply endWrite_keeps | apply writeWords_keeps | refine writeWords_keeps' (by assumption) ?_
        | apply answerAs_keeps | apply transaction_keeps
    | split | dsimp only | assumption | exact Keeps.of_same (by assumption) rfl rfl rfl rfl rfl rfl rfl | intro _ | rfl

theorem onQueue_keeps {a : State} (addr : ℕ) (f : Fin 64 → State → ℕ × ℕ × State) (s : State) (hf : ∀ y0 b, Keeps a b → Keeps a (f y0 b).2.2) (h : Keeps a s) : Keeps a (onQueue addr f s).2.2 := by
  unfold onQueue
  try dsimp only
  repeat' first
    | with_reducible first
        | assumption | intro _ | apply standbyExit_keeps | apply hf
    | split | dsimp only | assumption | exact Keeps.of_same (by assumption) rfl rfl rfl rfl rfl rfl rfl | intro _ | rfl

theorem onQueue_keeps' {a t : State} {addr : ℕ} {f : Fin 64 → State → ℕ × ℕ × State} {s : State} {v0 v1} (hf : ∀ y0 b, Keeps a b → Keeps a (f y0 b).2.2) (e : onQueue addr f s = (v0, v1, t)) (h : Keeps a s) : Keeps a t := by
  have q := onQueue_keeps (a := a) addr f s hf h
  rw [e] at q
  exact q

theorem hostPush_keeps {a : State} (items : List (BitVec 32)) (q_ : Fin 64) (s : State) (h : Keeps a s) : Keeps a (hostPush items q_ s).2.2 := by
  unfold hostPush
  try dsimp only
  repeat' first
    | with_reducible first
        | assumption | intro _ | apply qRefuse_keeps | apply qAppend_keeps | apply foldl_keeps
        | apply risingFrom_filter | apply mapWf_filter
    | split | dsimp only | assumption | exact Keeps.of_same (by assumption) rfl rfl rfl rfl rfl rfl rfl | intro _ | rfl

theorem hostPush_keeps' {a t : State} {items : List (BitVec 32)} {q_ : Fin 64} {s : State} {v0 v1} (e : hostPush items q_ s = (v0, v1, t)) (h : Keeps a s) : Keeps a t := by
  have q := hostPush_keeps (a := a) items q_ s h
  rw [e] at q
  exact q

theorem hostPop_keeps {a : State} (n : ℕ) (q_ : Fin 64) (s : State) (h : Keeps a s) : Keeps a (hostPop n q_ s).2.2 := by
  unfold hostPop
  try dsimp only
  repeat' first
    | with_reducible first
        | assumption | intro _ | apply returned_keeps | apply qRemove_keeps
    | split | dsimp only | assumption | exact Keeps.of_same (by assumption) rfl rfl rfl rfl rfl rfl rfl | intro _ | rfl

theorem hostPop_keeps' {a t : State} {n : ℕ} {q_ : Fin 64} {s : State} {v0 v1} (e : hostPop n q_ s = (v0, v1, t)) (h : Keeps a s) : Keeps a t := by
  have q := hostPop_keeps (a := a) n q_ s h
  rw [e] at q
  exact q

theorem queueStale_keeps {a : State} (q_ : Fin 64) (s : State) (h : Keeps a s) : Keeps a (queueStale q_ s) := by
  unfold queueStale
  try dsimp only
  repeat' first
    | with_reducible first
        | assumption | intro _ | apply modQ_keeps | apply qHit_keeps
    | split | dsimp only | assumption | exact Keeps.of_same (by assumption) rfl rfl rfl rfl rfl rfl rfl | intro _ | rfl

theorem tick_keeps {a : State} (s : State) (h : Keeps a s) : Keeps a (tick s) := by
  unfold tick
  try dsimp only
  repeat' first
    | with_reducible first
        | assumption | intro _ | apply microsecond_keeps
    | split | dsimp only | assumption | exact Keeps.of_same (by assumption) rfl rfl rfl rfl rfl rfl rfl | intro _ | rfl

end Sys2Proof.Machine
end

