-- ==== Sys2Proof/Laws/Parts.lean ====
section
/-! SUPPORT. Which parts of the state each shared operation leaves as they are: one lemma per operation and part. -/
namespace Sys2Proof.Machine

@[simp] theorem setF_shadow (f : Field) (v : Nat) (s : State) : (setF f v s).shadow = s.shadow := rfl
@[simp] theorem setF_sys (f : Field) (v : Nat) (s : State) : (setF f v s).sys = s.sys := rfl
@[simp] theorem setF_pilot (f : Field) (v : Nat) (s : State) : (setF f v s).pilot = s.pilot := rfl
@[simp] theorem setF_hlc (f : Field) (v : Nat) (s : State) : (setF f v s).hlc = s.hlc := rfl
@[simp] theorem setF_sw (f : Field) (v : Nat) (s : State) : (setF f v s).sw = s.sw := rfl
@[simp] theorem setF_sup (f : Field) (v : Nat) (s : State) : (setF f v s).sup = s.sup := rfl
@[simp] theorem setF_cap (f : Field) (v : Nat) (s : State) : (setF f v s).cap = s.cap := rfl
@[simp] theorem setF_key (f : Field) (v : Nat) (s : State) : (setF f v s).key = s.key := rfl
@[simp] theorem setF_rd (f : Field) (v : Nat) (s : State) : (setF f v s).rd = s.rd := rfl
@[simp] theorem setF_tag (f : Field) (v : Nat) (s : State) : (setF f v s).tag = s.tag := rfl
@[simp] theorem setF_met (f : Field) (v : Nat) (s : State) : (setF f v s).met = s.met := rfl
@[simp] theorem setF_led (f : Field) (v : Nat) (s : State) : (setF f v s).led = s.led := rfl
@[simp] theorem setF_link (f : Field) (v : Nat) (s : State) : (setF f v s).link = s.link := rfl
@[simp] theorem setF_alloc (f : Field) (v : Nat) (s : State) : (setF f v s).alloc = s.alloc := rfl
@[simp] theorem setF_plt (f : Field) (v : Nat) (s : State) : (setF f v s).plt = s.plt := rfl
@[simp] theorem setF_hp (f : Field) (v : Nat) (s : State) : (setF f v s).hp = s.hp := rfl
@[simp] theorem setF_store (f : Field) (v : Nat) (s : State) : (setF f v s).store = s.store := rfl
@[simp] theorem setF_pending (f : Field) (v : Nat) (s : State) : (setF f v s).pending = s.pending := rfl

@[simp] theorem setB_shadow (f : Field) (b : Bool) (s : State) : (setB f b s).shadow = s.shadow := rfl
@[simp] theorem setB_sys (f : Field) (b : Bool) (s : State) : (setB f b s).sys = s.sys := rfl
@[simp] theorem setB_pilot (f : Field) (b : Bool) (s : State) : (setB f b s).pilot = s.pilot := rfl
@[simp] theorem setB_hlc (f : Field) (b : Bool) (s : State) : (setB f b s).hlc = s.hlc := rfl
@[simp] theorem setB_sw (f : Field) (b : Bool) (s : State) : (setB f b s).sw = s.sw := rfl
@[simp] theorem setB_sup (f : Field) (b : Bool) (s : State) : (setB f b s).sup = s.sup := rfl
@[simp] theorem setB_cap (f : Field) (b : Bool) (s : State) : (setB f b s).cap = s.cap := rfl
@[simp] theorem setB_key (f : Field) (b : Bool) (s : State) : (setB f b s).key = s.key := rfl
@[simp] theorem setB_rd (f : Field) (b : Bool) (s : State) : (setB f b s).rd = s.rd := rfl
@[simp] theorem setB_tag (f : Field) (b : Bool) (s : State) : (setB f b s).tag = s.tag := rfl
@[simp] theorem setB_met (f : Field) (b : Bool) (s : State) : (setB f b s).met = s.met := rfl
@[simp] theorem setB_led (f : Field) (b : Bool) (s : State) : (setB f b s).led = s.led := rfl
@[simp] theorem setB_link (f : Field) (b : Bool) (s : State) : (setB f b s).link = s.link := rfl
@[simp] theorem setB_alloc (f : Field) (b : Bool) (s : State) : (setB f b s).alloc = s.alloc := rfl
@[simp] theorem setB_plt (f : Field) (b : Bool) (s : State) : (setB f b s).plt = s.plt := rfl
@[simp] theorem setB_hp (f : Field) (b : Bool) (s : State) : (setB f b s).hp = s.hp := rfl
@[simp] theorem setB_store (f : Field) (b : Bool) (s : State) : (setB f b s).store = s.store := rfl
@[simp] theorem setB_pending (f : Field) (b : Bool) (s : State) : (setB f b s).pending = s.pending := rfl

@[simp] theorem setI_shadow (f : Field) (v : Int) (s : State) : (setI f v s).shadow = s.shadow := rfl
@[simp] theorem setI_sys (f : Field) (v : Int) (s : State) : (setI f v s).sys = s.sys := rfl
@[simp] theorem setI_pilot (f : Field) (v : Int) (s : State) : (setI f v s).pilot = s.pilot := rfl
@[simp] theorem setI_hlc (f : Field) (v : Int) (s : State) : (setI f v s).hlc = s.hlc := rfl
@[simp] theorem setI_sw (f : Field) (v : Int) (s : State) : (setI f v s).sw = s.sw := rfl
@[simp] theorem setI_sup (f : Field) (v : Int) (s : State) : (setI f v s).sup = s.sup := rfl
@[simp] theorem setI_cap (f : Field) (v : Int) (s : State) : (setI f v s).cap = s.cap := rfl
@[simp] theorem setI_key (f : Field) (v : Int) (s : State) : (setI f v s).key = s.key := rfl
@[simp] theorem setI_rd (f : Field) (v : Int) (s : State) : (setI f v s).rd = s.rd := rfl
@[simp] theorem setI_tag (f : Field) (v : Int) (s : State) : (setI f v s).tag = s.tag := rfl
@[simp] theorem setI_met (f : Field) (v : Int) (s : State) : (setI f v s).met = s.met := rfl
@[simp] theorem setI_led (f : Field) (v : Int) (s : State) : (setI f v s).led = s.led := rfl
@[simp] theorem setI_link (f : Field) (v : Int) (s : State) : (setI f v s).link = s.link := rfl
@[simp] theorem setI_alloc (f : Field) (v : Int) (s : State) : (setI f v s).alloc = s.alloc := rfl
@[simp] theorem setI_plt (f : Field) (v : Int) (s : State) : (setI f v s).plt = s.plt := rfl
@[simp] theorem setI_hp (f : Field) (v : Int) (s : State) : (setI f v s).hp = s.hp := rfl
@[simp] theorem setI_store (f : Field) (v : Int) (s : State) : (setI f v s).store = s.store := rfl
@[simp] theorem setI_pending (f : Field) (v : Int) (s : State) : (setI f v s).pending = s.pending := rfl

@[simp] theorem incF_shadow (f : Field) (s : State) : (incF f s).shadow = s.shadow := rfl
@[simp] theorem incF_sys (f : Field) (s : State) : (incF f s).sys = s.sys := rfl
@[simp] theorem incF_pilot (f : Field) (s : State) : (incF f s).pilot = s.pilot := rfl
@[simp] theorem incF_hlc (f : Field) (s : State) : (incF f s).hlc = s.hlc := rfl
@[simp] theorem incF_sw (f : Field) (s : State) : (incF f s).sw = s.sw := rfl
@[simp] theorem incF_sup (f : Field) (s : State) : (incF f s).sup = s.sup := rfl
@[simp] theorem incF_cap (f : Field) (s : State) : (incF f s).cap = s.cap := rfl
@[simp] theorem incF_key (f : Field) (s : State) : (incF f s).key = s.key := rfl
@[simp] theorem incF_rd (f : Field) (s : State) : (incF f s).rd = s.rd := rfl
@[simp] theorem incF_tag (f : Field) (s : State) : (incF f s).tag = s.tag := rfl
@[simp] theorem incF_met (f : Field) (s : State) : (incF f s).met = s.met := rfl
@[simp] theorem incF_led (f : Field) (s : State) : (incF f s).led = s.led := rfl
@[simp] theorem incF_link (f : Field) (s : State) : (incF f s).link = s.link := rfl
@[simp] theorem incF_alloc (f : Field) (s : State) : (incF f s).alloc = s.alloc := rfl
@[simp] theorem incF_plt (f : Field) (s : State) : (incF f s).plt = s.plt := rfl
@[simp] theorem incF_hp (f : Field) (s : State) : (incF f s).hp = s.hp := rfl
@[simp] theorem incF_store (f : Field) (s : State) : (incF f s).store = s.store := rfl
@[simp] theorem incF_pending (f : Field) (s : State) : (incF f s).pending = s.pending := rfl

@[simp] theorem boundary_regs (f : Field) (s : State) : (boundary f s).regs = s.regs := rfl
@[simp] theorem boundary_sys (f : Field) (s : State) : (boundary f s).sys = s.sys := rfl
@[simp] theorem boundary_pilot (f : Field) (s : State) : (boundary f s).pilot = s.pilot := rfl
@[simp] theorem boundary_hlc (f : Field) (s : State) : (boundary f s).hlc = s.hlc := rfl
@[simp] theorem boundary_sw (f : Field) (s : State) : (boundary f s).sw = s.sw := rfl
@[simp] theorem boundary_sup (f : Field) (s : State) : (boundary f s).sup = s.sup := rfl
@[simp] theorem boundary_cap (f : Field) (s : State) : (boundary f s).cap = s.cap := rfl
@[simp] theorem boundary_key (f : Field) (s : State) : (boundary f s).key = s.key := rfl
@[simp] theorem boundary_rd (f : Field) (s : State) : (boundary f s).rd = s.rd := rfl
@[simp] theorem boundary_tag (f : Field) (s : State) : (boundary f s).tag = s.tag := rfl
@[simp] theorem boundary_met (f : Field) (s : State) : (boundary f s).met = s.met := rfl
@[simp] theorem boundary_led (f : Field) (s : State) : (boundary f s).led = s.led := rfl
@[simp] theorem boundary_link (f : Field) (s : State) : (boundary f s).link = s.link := rfl
@[simp] theorem boundary_alloc (f : Field) (s : State) : (boundary f s).alloc = s.alloc := rfl
@[simp] theorem boundary_plt (f : Field) (s : State) : (boundary f s).plt = s.plt := rfl
@[simp] theorem boundary_hp (f : Field) (s : State) : (boundary f s).hp = s.hp := rfl
@[simp] theorem boundary_store (f : Field) (s : State) : (boundary f s).store = s.store := rfl
@[simp] theorem boundary_pending (f : Field) (s : State) : (boundary f s).pending = s.pending := rfl

@[simp] theorem ringOut_shadow (k d : Nat) (s : State) : (ringOut k d s).shadow = s.shadow := rfl
@[simp] theorem ringOut_sys (k d : Nat) (s : State) : (ringOut k d s).sys = s.sys := rfl
@[simp] theorem ringOut_pilot (k d : Nat) (s : State) : (ringOut k d s).pilot = s.pilot := rfl
@[simp] theorem ringOut_hlc (k d : Nat) (s : State) : (ringOut k d s).hlc = s.hlc := rfl
@[simp] theorem ringOut_sw (k d : Nat) (s : State) : (ringOut k d s).sw = s.sw := rfl
@[simp] theorem ringOut_sup (k d : Nat) (s : State) : (ringOut k d s).sup = s.sup := rfl
@[simp] theorem ringOut_cap (k d : Nat) (s : State) : (ringOut k d s).cap = s.cap := rfl
@[simp] theorem ringOut_key (k d : Nat) (s : State) : (ringOut k d s).key = s.key := rfl
@[simp] theorem ringOut_rd (k d : Nat) (s : State) : (ringOut k d s).rd = s.rd := rfl
@[simp] theorem ringOut_tag (k d : Nat) (s : State) : (ringOut k d s).tag = s.tag := rfl
@[simp] theorem ringOut_met (k d : Nat) (s : State) : (ringOut k d s).met = s.met := rfl
@[simp] theorem ringOut_led (k d : Nat) (s : State) : (ringOut k d s).led = s.led := rfl
@[simp] theorem ringOut_link (k d : Nat) (s : State) : (ringOut k d s).link = s.link := rfl
@[simp] theorem ringOut_alloc (k d : Nat) (s : State) : (ringOut k d s).alloc = s.alloc := rfl
@[simp] theorem ringOut_plt (k d : Nat) (s : State) : (ringOut k d s).plt = s.plt := rfl
@[simp] theorem ringOut_hp (k d : Nat) (s : State) : (ringOut k d s).hp = s.hp := rfl
@[simp] theorem ringOut_store (k d : Nat) (s : State) : (ringOut k d s).store = s.store := rfl
@[simp] theorem ringOut_pending (k d : Nat) (s : State) : (ringOut k d s).pending = s.pending := rfl

@[simp] theorem clearRegs_sys (ds : List Nat) (s : State) : (clearRegs ds s).sys = s.sys := rfl
@[simp] theorem clearRegs_pilot (ds : List Nat) (s : State) : (clearRegs ds s).pilot = s.pilot := rfl
@[simp] theorem clearRegs_hlc (ds : List Nat) (s : State) : (clearRegs ds s).hlc = s.hlc := rfl
@[simp] theorem clearRegs_sw (ds : List Nat) (s : State) : (clearRegs ds s).sw = s.sw := rfl
@[simp] theorem clearRegs_sup (ds : List Nat) (s : State) : (clearRegs ds s).sup = s.sup := rfl
@[simp] theorem clearRegs_cap (ds : List Nat) (s : State) : (clearRegs ds s).cap = s.cap := rfl
@[simp] theorem clearRegs_key (ds : List Nat) (s : State) : (clearRegs ds s).key = s.key := rfl
@[simp] theorem clearRegs_rd (ds : List Nat) (s : State) : (clearRegs ds s).rd = s.rd := rfl
@[simp] theorem clearRegs_tag (ds : List Nat) (s : State) : (clearRegs ds s).tag = s.tag := rfl
@[simp] theorem clearRegs_met (ds : List Nat) (s : State) : (clearRegs ds s).met = s.met := rfl
@[simp] theorem clearRegs_led (ds : List Nat) (s : State) : (clearRegs ds s).led = s.led := rfl
@[simp] theorem clearRegs_link (ds : List Nat) (s : State) : (clearRegs ds s).link = s.link := rfl
@[simp] theorem clearRegs_alloc (ds : List Nat) (s : State) : (clearRegs ds s).alloc = s.alloc := rfl
@[simp] theorem clearRegs_plt (ds : List Nat) (s : State) : (clearRegs ds s).plt = s.plt := rfl
@[simp] theorem clearRegs_hp (ds : List Nat) (s : State) : (clearRegs ds s).hp = s.hp := rfl
@[simp] theorem clearRegs_store (ds : List Nat) (s : State) : (clearRegs ds s).store = s.store := rfl
@[simp] theorem clearRegs_pending (ds : List Nat) (s : State) : (clearRegs ds s).pending = s.pending := rfl

@[simp] theorem modS_regs (n : Fin 320) (f : Strand → Strand) (s : State) : (modS n f s).regs = s.regs := rfl
@[simp] theorem modS_shadow (n : Fin 320) (f : Strand → Strand) (s : State) : (modS n f s).shadow = s.shadow := rfl
@[simp] theorem modS_sys (n : Fin 320) (f : Strand → Strand) (s : State) : (modS n f s).sys = s.sys := rfl
@[simp] theorem modS_pilot (n : Fin 320) (f : Strand → Strand) (s : State) : (modS n f s).pilot = s.pilot := rfl
@[simp] theorem modS_hlc (n : Fin 320) (f : Strand → Strand) (s : State) : (modS n f s).hlc = s.hlc := rfl
@[simp] theorem modS_sw (n : Fin 320) (f : Strand → Strand) (s : State) : (modS n f s).sw = s.sw := rfl
@[simp] theorem modS_sup (n : Fin 320) (f : Strand → Strand) (s : State) : (modS n f s).sup = s.sup := rfl
@[simp] theorem modS_key (n : Fin 320) (f : Strand → Strand) (s : State) : (modS n f s).key = s.key := rfl
@[simp] theorem modS_rd (n : Fin 320) (f : Strand → Strand) (s : State) : (modS n f s).rd = s.rd := rfl
@[simp] theorem modS_tag (n : Fin 320) (f : Strand → Strand) (s : State) : (modS n f s).tag = s.tag := rfl
@[simp] theorem modS_met (n : Fin 320) (f : Strand → Strand) (s : State) : (modS n f s).met = s.met := rfl
@[simp] theorem modS_led (n : Fin 320) (f : Strand → Strand) (s : State) : (modS n f s).led = s.led := rfl
@[simp] theorem modS_link (n : Fin 320) (f : Strand → Strand) (s : State) : (modS n f s).link = s.link := rfl
@[simp] theorem modS_alloc (n : Fin 320) (f : Strand → Strand) (s : State) : (modS n f s).alloc = s.alloc := rfl
@[simp] theorem modS_plt (n : Fin 320) (f : Strand → Strand) (s : State) : (modS n f s).plt = s.plt := rfl
@[simp] theorem modS_hp (n : Fin 320) (f : Strand → Strand) (s : State) : (modS n f s).hp = s.hp := rfl
@[simp] theorem modS_store (n : Fin 320) (f : Strand → Strand) (s : State) : (modS n f s).store = s.store := rfl
@[simp] theorem modS_pending (n : Fin 320) (f : Strand → Strand) (s : State) : (modS n f s).pending = s.pending := rfl

@[simp] theorem mapHeldOfOthers_regs (o : Option (Fin 320)) (f : Held → Held) (s : State) : (mapHeldOfOthers o f s).regs = s.regs := rfl
@[simp] theorem mapHeldOfOthers_shadow (o : Option (Fin 320)) (f : Held → Held) (s : State) : (mapHeldOfOthers o f s).shadow = s.shadow := rfl
@[simp] theorem mapHeldOfOthers_sys (o : Option (Fin 320)) (f : Held → Held) (s : State) : (mapHeldOfOthers o f s).sys = s.sys := rfl
@[simp] theorem mapHeldOfOthers_pilot (o : Option (Fin 320)) (f : Held → Held) (s : State) : (mapHeldOfOthers o f s).pilot = s.pilot := rfl
@[simp] theorem mapHeldOfOthers_hlc (o : Option (Fin 320)) (f : Held → Held) (s : State) : (mapHeldOfOthers o f s).hlc = s.hlc := rfl
@[simp] theorem mapHeldOfOthers_sw (o : Option (Fin 320)) (f : Held → Held) (s : State) : (mapHeldOfOthers o f s).sw = s.sw := rfl
@[simp] theorem mapHeldOfOthers_sup (o : Option (Fin 320)) (f : Held → Held) (s : State) : (mapHeldOfOthers o f s).sup = s.sup := rfl
@[simp] theorem mapHeldOfOthers_key (o : Option (Fin 320)) (f : Held → Held) (s : State) : (mapHeldOfOthers o f s).key = s.key := rfl
@[simp] theorem mapHeldOfOthers_rd (o : Option (Fin 320)) (f : Held → Held) (s : State) : (mapHeldOfOthers o f s).rd = s.rd := rfl
@[simp] theorem mapHeldOfOthers_tag (o : Option (Fin 320)) (f : Held → Held) (s : State) : (mapHeldOfOthers o f s).tag = s.tag := rfl
@[simp] theorem mapHeldOfOthers_met (o : Option (Fin 320)) (f : Held → Held) (s : State) : (mapHeldOfOthers o f s).met = s.met := rfl
@[simp] theorem mapHeldOfOthers_led (o : Option (Fin 320)) (f : Held → Held) (s : State) : (mapHeldOfOthers o f s).led = s.led := rfl
@[simp] theorem mapHeldOfOthers_link (o : Option (Fin 320)) (f : Held → Held) (s : State) : (mapHeldOfOthers o f s).link = s.link := rfl
@[simp] theorem mapHeldOfOthers_alloc (o : Option (Fin 320)) (f : Held → Held) (s : State) : (mapHeldOfOthers o f s).alloc = s.alloc := rfl
@[simp] theorem mapHeldOfOthers_plt (o : Option (Fin 320)) (f : Held → Held) (s : State) : (mapHeldOfOthers o f s).plt = s.plt := rfl
@[simp] theorem mapHeldOfOthers_hp (o : Option (Fin 320)) (f : Held → Held) (s : State) : (mapHeldOfOthers o f s).hp = s.hp := rfl
@[simp] theorem mapHeldOfOthers_store (o : Option (Fin 320)) (f : Held → Held) (s : State) : (mapHeldOfOthers o f s).store = s.store := rfl
@[simp] theorem mapHeldOfOthers_pending (o : Option (Fin 320)) (f : Held → Held) (s : State) : (mapHeldOfOthers o f s).pending = s.pending := rfl

@[simp] theorem fence_regs (p : Nat) (a : Option Word) (o : Option (Fin 320)) (s : State) : (fence p a o s).regs = s.regs := rfl
@[simp] theorem fence_shadow (p : Nat) (a : Option Word) (o : Option (Fin 320)) (s : State) : (fence p a o s).shadow = s.shadow := rfl
@[simp] theorem fence_sys (p : Nat) (a : Option Word) (o : Option (Fin 320)) (s : State) : (fence p a o s).sys = s.sys := rfl
@[simp] theorem fence_pilot (p : Nat) (a : Option Word) (o : Option (Fin 320)) (s : State) : (fence p a o s).pilot = s.pilot := rfl
@[simp] theorem fence_hlc (p : Nat) (a : Option Word) (o : Option (Fin 320)) (s : State) : (fence p a o s).hlc = s.hlc := rfl
@[simp] theorem fence_sw (p : Nat) (a : Option Word) (o : Option (Fin 320)) (s : State) : (fence p a o s).sw = s.sw := rfl
@[simp] theorem fence_sup (p : Nat) (a : Option Word) (o : Option (Fin 320)) (s : State) : (fence p a o s).sup = s.sup := rfl
@[simp] theorem fence_key (p : Nat) (a : Option Word) (o : Option (Fin 320)) (s : State) : (fence p a o s).key = s.key := rfl
@[simp] theorem fence_rd (p : Nat) (a : Option Word) (o : Option (Fin 320)) (s : State) : (fence p a o s).rd = s.rd := rfl
@[simp] theorem fence_tag (p : Nat) (a : Option Word) (o : Option (Fin 320)) (s : State) : (fence p a o s).tag = s.tag := rfl
@[simp] theorem fence_met (p : Nat) (a : Option Word) (o : Option (Fin 320)) (s : State) : (fence p a o s).met = s.met := rfl
@[simp] theorem fence_led (p : Nat) (a : Option Word) (o : Option (Fin 320)) (s : State) : (fence p a o s).led = s.led := rfl
@[simp] theorem fence_link (p : Nat) (a : Option Word) (o : Option (Fin 320)) (s : State) : (fence p a o s).link = s.link := rfl
@[simp] theorem fence_alloc (p : Nat) (a : Option Word) (o : Option (Fin 320)) (s : State) : (fence p a o s).alloc = s.alloc := rfl
@[simp] theorem fence_plt (p : Nat) (a : Option Word) (o : Option (Fin 320)) (s : State) : (fence p a o s).plt = s.plt := rfl
@[simp] theorem fence_hp (p : Nat) (a : Option Word) (o : Option (Fin 320)) (s : State) : (fence p a o s).hp = s.hp := rfl
@[simp] theorem fence_store (p : Nat) (a : Option Word) (o : Option (Fin 320)) (s : State) : (fence p a o s).store = s.store := rfl
@[simp] theorem fence_pending (p : Nat) (a : Option Word) (o : Option (Fin 320)) (s : State) : (fence p a o s).pending = s.pending := rfl

@[simp] theorem fenceOutputs_regs (m : BitVec 12) (o : Option (Fin 320)) (s : State) : (fenceOutputs m o s).regs = s.regs := rfl
@[simp] theorem fenceOutputs_shadow (m : BitVec 12) (o : Option (Fin 320)) (s : State) : (fenceOutputs m o s).shadow = s.shadow := rfl
@[simp] theorem fenceOutputs_sys (m : BitVec 12) (o : Option (Fin 320)) (s : State) : (fenceOutputs m o s).sys = s.sys := rfl
@[simp] theorem fenceOutputs_pilot (m : BitVec 12) (o : Option (Fin 320)) (s : State) : (fenceOutputs m o s).pilot = s.pilot := rfl
@[simp] theorem fenceOutputs_hlc (m : BitVec 12) (o : Option (Fin 320)) (s : State) : (fenceOutputs m o s).hlc = s.hlc := rfl
@[simp] theorem fenceOutputs_sw (m : BitVec 12) (o : Option (Fin 320)) (s : State) : (fenceOutputs m o s).sw = s.sw := rfl
@[simp] theorem fenceOutputs_sup (m : BitVec 12) (o : Option (Fin 320)) (s : State) : (fenceOutputs m o s).sup = s.sup := rfl
@[simp] theorem fenceOutputs_key (m : BitVec 12) (o : Option (Fin 320)) (s : State) : (fenceOutputs m o s).key = s.key := rfl
@[simp] theorem fenceOutputs_rd (m : BitVec 12) (o : Option (Fin 320)) (s : State) : (fenceOutputs m o s).rd = s.rd := rfl
@[simp] theorem fenceOutputs_tag (m : BitVec 12) (o : Option (Fin 320)) (s : State) : (fenceOutputs m o s).tag = s.tag := rfl
@[simp] theorem fenceOutputs_met (m : BitVec 12) (o : Option (Fin 320)) (s : State) : (fenceOutputs m o s).met = s.met := rfl
@[simp] theorem fenceOutputs_led (m : BitVec 12) (o : Option (Fin 320)) (s : State) : (fenceOutputs m o s).led = s.led := rfl
@[simp] theorem fenceOutputs_link (m : BitVec 12) (o : Option (Fin 320)) (s : State) : (fenceOutputs m o s).link = s.link := rfl
@[simp] theorem fenceOutputs_alloc (m : BitVec 12) (o : Option (Fin 320)) (s : State) : (fenceOutputs m o s).alloc = s.alloc := rfl
@[simp] theorem fenceOutputs_plt (m : BitVec 12) (o : Option (Fin 320)) (s : State) : (fenceOutputs m o s).plt = s.plt := rfl
@[simp] theorem fenceOutputs_hp (m : BitVec 12) (o : Option (Fin 320)) (s : State) : (fenceOutputs m o s).hp = s.hp := rfl
@[simp] theorem fenceOutputs_store (m : BitVec 12) (o : Option (Fin 320)) (s : State) : (fenceOutputs m o s).store = s.store := rfl
@[simp] theorem fenceOutputs_pending (m : BitVec 12) (o : Option (Fin 320)) (s : State) : (fenceOutputs m o s).pending = s.pending := rfl

@[simp] theorem raiseHw_regs (e w : Nat) (s : State) : (raiseHw e w s).regs = s.regs := by unfold raiseHw; rw [State.updCap_regs]
@[simp] theorem raiseHw_shadow (e w : Nat) (s : State) : (raiseHw e w s).shadow = s.shadow := by unfold raiseHw; rw [State.updCap_shadow]
@[simp] theorem raiseHw_sys (e w : Nat) (s : State) : (raiseHw e w s).sys = s.sys := by unfold raiseHw; rw [State.updCap_sys]
@[simp] theorem raiseHw_pilot (e w : Nat) (s : State) : (raiseHw e w s).pilot = s.pilot := by unfold raiseHw; rw [State.updCap_pilot]
@[simp] theorem raiseHw_hlc (e w : Nat) (s : State) : (raiseHw e w s).hlc = s.hlc := by unfold raiseHw; rw [State.updCap_hlc]
@[simp] theorem raiseHw_sw (e w : Nat) (s : State) : (raiseHw e w s).sw = s.sw := by unfold raiseHw; rw [State.updCap_sw]
@[simp] theorem raiseHw_sup (e w : Nat) (s : State) : (raiseHw e w s).sup = s.sup := by unfold raiseHw; rw [State.updCap_sup]
@[simp] theorem raiseHw_key (e w : Nat) (s : State) : (raiseHw e w s).key = s.key := by unfold raiseHw; rw [State.updCap_key]
@[simp] theorem raiseHw_rd (e w : Nat) (s : State) : (raiseHw e w s).rd = s.rd := by unfold raiseHw; rw [State.updCap_rd]
@[simp] theorem raiseHw_tag (e w : Nat) (s : State) : (raiseHw e w s).tag = s.tag := by unfold raiseHw; rw [State.updCap_tag]
@[simp] theorem raiseHw_met (e w : Nat) (s : State) : (raiseHw e w s).met = s.met := by unfold raiseHw; rw [State.updCap_met]
@[simp] theorem raiseHw_led (e w : Nat) (s : State) : (raiseHw e w s).led = s.led := by unfold raiseHw; rw [State.updCap_led]
@[simp] theorem raiseHw_link (e w : Nat) (s : State) : (raiseHw e w s).link = s.link := by unfold raiseHw; rw [State.updCap_link]
@[simp] theorem raiseHw_alloc (e w : Nat) (s : State) : (raiseHw e w s).alloc = s.alloc := by unfold raiseHw; rw [State.updCap_alloc]
@[simp] theorem raiseHw_plt (e w : Nat) (s : State) : (raiseHw e w s).plt = s.plt := by unfold raiseHw; rw [State.updCap_plt]
@[simp] theorem raiseHw_hp (e w : Nat) (s : State) : (raiseHw e w s).hp = s.hp := by unfold raiseHw; rw [State.updCap_hp]
@[simp] theorem raiseHw_store (e w : Nat) (s : State) : (raiseHw e w s).store = s.store := by unfold raiseHw; rw [State.updCap_store]
@[simp] theorem raiseHw_pending (e w : Nat) (s : State) : (raiseHw e w s).pending = s.pending := by unfold raiseHw; rw [State.updCap_pending]

@[simp] theorem raiseFw_regs (e w : Nat) (s : State) : (raiseFw e w s).regs = s.regs := by unfold raiseFw; split <;> simp
@[simp] theorem raiseFw_shadow (e w : Nat) (s : State) : (raiseFw e w s).shadow = s.shadow := by unfold raiseFw; split <;> simp
@[simp] theorem raiseFw_pilot (e w : Nat) (s : State) : (raiseFw e w s).pilot = s.pilot := by unfold raiseFw; split <;> simp
@[simp] theorem raiseFw_hlc (e w : Nat) (s : State) : (raiseFw e w s).hlc = s.hlc := by unfold raiseFw; split <;> simp
@[simp] theorem raiseFw_sw (e w : Nat) (s : State) : (raiseFw e w s).sw = s.sw := by unfold raiseFw; split <;> simp
@[simp] theorem raiseFw_sup (e w : Nat) (s : State) : (raiseFw e w s).sup = s.sup := by unfold raiseFw; split <;> simp
@[simp] theorem raiseFw_key (e w : Nat) (s : State) : (raiseFw e w s).key = s.key := by unfold raiseFw; split <;> simp
@[simp] theorem raiseFw_rd (e w : Nat) (s : State) : (raiseFw e w s).rd = s.rd := by unfold raiseFw; split <;> simp
@[simp] theorem raiseFw_tag (e w : Nat) (s : State) : (raiseFw e w s).tag = s.tag := by unfold raiseFw; split <;> simp
@[simp] theorem raiseFw_met (e w : Nat) (s : State) : (raiseFw e w s).met = s.met := by unfold raiseFw; split <;> simp
@[simp] theorem raiseFw_led (e w : Nat) (s : State) : (raiseFw e w s).led = s.led := by unfold raiseFw; split <;> simp
@[simp] theorem raiseFw_link (e w : Nat) (s : State) : (raiseFw e w s).link = s.link := by unfold raiseFw; split <;> simp
@[simp] theorem raiseFw_alloc (e w : Nat) (s : State) : (raiseFw e w s).alloc = s.alloc := by unfold raiseFw; split <;> simp
@[simp] theorem raiseFw_plt (e w : Nat) (s : State) : (raiseFw e w s).plt = s.plt := by unfold raiseFw; split <;> simp
@[simp] theorem raiseFw_hp (e w : Nat) (s : State) : (raiseFw e w s).hp = s.hp := by unfold raiseFw; split <;> simp
@[simp] theorem raiseFw_store (e w : Nat) (s : State) : (raiseFw e w s).store = s.store := by unfold raiseFw; split <;> simp
@[simp] theorem raiseFw_pending (e w : Nat) (s : State) : (raiseFw e w s).pending = s.pending := by unfold raiseFw; split <;> simp

@[simp] theorem logViolationAs_regs (a k x v : Nat) (s : State) : (logViolationAs a k x v s).regs = s.regs := by unfold logViolationAs; split <;> simp
@[simp] theorem logViolationAs_shadow (a k x v : Nat) (s : State) : (logViolationAs a k x v s).shadow = s.shadow := by unfold logViolationAs; split <;> simp
@[simp] theorem logViolationAs_pilot (a k x v : Nat) (s : State) : (logViolationAs a k x v s).pilot = s.pilot := by unfold logViolationAs; split <;> simp
@[simp] theorem logViolationAs_hlc (a k x v : Nat) (s : State) : (logViolationAs a k x v s).hlc = s.hlc := by unfold logViolationAs; split <;> simp
@[simp] theorem logViolationAs_sw (a k x v : Nat) (s : State) : (logViolationAs a k x v s).sw = s.sw := by unfold logViolationAs; split <;> simp
@[simp] theorem logViolationAs_sup (a k x v : Nat) (s : State) : (logViolationAs a k x v s).sup = s.sup := by unfold logViolationAs; split <;> simp
@[simp] theorem logViolationAs_cap (a k x v : Nat) (s : State) : (logViolationAs a k x v s).cap = s.cap := by unfold logViolationAs; split <;> simp
@[simp] theorem logViolationAs_key (a k x v : Nat) (s : State) : (logViolationAs a k x v s).key = s.key := by unfold logViolationAs; split <;> simp
@[simp] theorem logViolationAs_rd (a k x v : Nat) (s : State) : (logViolationAs a k x v s).rd = s.rd := by unfold logViolationAs; split <;> simp
@[simp] theorem logViolationAs_tag (a k x v : Nat) (s : State) : (logViolationAs a k x v s).tag = s.tag := by unfold logViolationAs; split <;> simp
@[simp] theorem logViolationAs_met (a k x v : Nat) (s : State) : (logViolationAs a k x v s).met = s.met := by unfold logViolationAs; split <;> simp
@[simp] theorem logViolationAs_led (a k x v : Nat) (s : State) : (logViolationAs a k x v s).led = s.led := by unfold logViolationAs; split <;> simp
@[simp] theorem logViolationAs_link (a k x v : Nat) (s : State) : (logViolationAs a k x v s).link = s.link := by unfold logViolationAs; split <;> simp
@[simp] theorem logViolationAs_alloc (a k x v : Nat) (s : State) : (logViolationAs a k x v s).alloc = s.alloc := by unfold logViolationAs; split <;> simp
@[simp] theorem logViolationAs_plt (a k x v : Nat) (s : State) : (logViolationAs a k x v s).plt = s.plt := by unfold logViolationAs; split <;> simp
@[simp] theorem logViolationAs_hp (a k x v : Nat) (s : State) : (logViolationAs a k x v s).hp = s.hp := by unfold logViolationAs; split <;> simp
@[simp] theorem logViolationAs_pending (a k x v : Nat) (s : State) : (logViolationAs a k x v s).pending = s.pending := by unfold logViolationAs; split <;> simp

@[simp] theorem logViolation_regs (a k v : Nat) (s : State) : (logViolation a k v s).regs = s.regs := by unfold logViolation; simp
@[simp] theorem logViolation_shadow (a k v : Nat) (s : State) : (logViolation a k v s).shadow = s.shadow := by unfold logViolation; simp
@[simp] theorem logViolation_pilot (a k v : Nat) (s : State) : (logViolation a k v s).pilot = s.pilot := by unfold logViolation; simp
@[simp] theorem logViolation_hlc (a k v : Nat) (s : State) : (logViolation a k v s).hlc = s.hlc := by unfold logViolation; simp
@[simp] theorem logViolation_sw (a k v : Nat) (s : State) : (logViolation a k v s).sw = s.sw := by unfold logViolation; simp
@[simp] theorem logViolation_sup (a k v : Nat) (s : State) : (logViolation a k v s).sup = s.sup := by unfold logViolation; simp
@[simp] theorem logViolation_cap (a k v : Nat) (s : State) : (logViolation a k v s).cap = s.cap := by unfold logViolation; simp
@[simp] theorem logViolation_key (a k v : Nat) (s : State) : (logViolation a k v s).key = s.key := by unfold logViolation; simp
@[simp] theorem logViolation_rd (a k v : Nat) (s : State) : (logViolation a k v s).rd = s.rd := by unfold logViolation; simp
@[simp] theorem logViolation_tag (a k v : Nat) (s : State) : (logViolation a k v s).tag = s.tag := by unfold logViolation; simp
@[simp] theorem logViolation_met (a k v : Nat) (s : State) : (logViolation a k v s).met = s.met := by unfold logViolation; simp
@[simp] theorem logViolation_led (a k v : Nat) (s : State) : (logViolation a k v s).led = s.led := by unfold logViolation; simp
@[simp] theorem logViolation_link (a k v : Nat) (s : State) : (logViolation a k v s).link = s.link := by unfold logViolation; simp
@[simp] theorem logViolation_alloc (a k v : Nat) (s : State) : (logViolation a k v s).alloc = s.alloc := by unfold logViolation; simp
@[simp] theorem logViolation_plt (a k v : Nat) (s : State) : (logViolation a k v s).plt = s.plt := by unfold logViolation; simp
@[simp] theorem logViolation_hp (a k v : Nat) (s : State) : (logViolation a k v s).hp = s.hp := by unfold logViolation; simp
@[simp] theorem logViolation_pending (a k v : Nat) (s : State) : (logViolation a k v s).pending = s.pending := by unfold logViolation; simp

@[simp] theorem logEvent_regs (a k v : Nat) (s : State) : (logEvent a k v s).regs = s.regs := by unfold logEvent; split <;> simp
@[simp] theorem logEvent_shadow (a k v : Nat) (s : State) : (logEvent a k v s).shadow = s.shadow := by unfold logEvent; split <;> simp
@[simp] theorem logEvent_pilot (a k v : Nat) (s : State) : (logEvent a k v s).pilot = s.pilot := by unfold logEvent; split <;> simp
@[simp] theorem logEvent_hlc (a k v : Nat) (s : State) : (logEvent a k v s).hlc = s.hlc := by unfold logEvent; split <;> simp
@[simp] theorem logEvent_sw (a k v : Nat) (s : State) : (logEvent a k v s).sw = s.sw := by unfold logEvent; split <;> simp
@[simp] theorem logEvent_sup (a k v : Nat) (s : State) : (logEvent a k v s).sup = s.sup := by unfold logEvent; split <;> simp
@[simp] theorem logEvent_cap (a k v : Nat) (s : State) : (logEvent a k v s).cap = s.cap := by unfold logEvent; split <;> simp
@[simp] theorem logEvent_key (a k v : Nat) (s : State) : (logEvent a k v s).key = s.key := by unfold logEvent; split <;> simp
@[simp] theorem logEvent_rd (a k v : Nat) (s : State) : (logEvent a k v s).rd = s.rd := by unfold logEvent; split <;> simp
@[simp] theorem logEvent_tag (a k v : Nat) (s : State) : (logEvent a k v s).tag = s.tag := by unfold logEvent; split <;> simp
@[simp] theorem logEvent_met (a k v : Nat) (s : State) : (logEvent a k v s).met = s.met := by unfold logEvent; split <;> simp
@[simp] theorem logEvent_led (a k v : Nat) (s : State) : (logEvent a k v s).led = s.led := by unfold logEvent; split <;> simp
@[simp] theorem logEvent_link (a k v : Nat) (s : State) : (logEvent a k v s).link = s.link := by unfold logEvent; split <;> simp
@[simp] theorem logEvent_alloc (a k v : Nat) (s : State) : (logEvent a k v s).alloc = s.alloc := by unfold logEvent; split <;> simp
@[simp] theorem logEvent_plt (a k v : Nat) (s : State) : (logEvent a k v s).plt = s.plt := by unfold logEvent; split <;> simp
@[simp] theorem logEvent_hp (a k v : Nat) (s : State) : (logEvent a k v s).hp = s.hp := by unfold logEvent; split <;> simp
@[simp] theorem logEvent_pending (a k v : Nat) (s : State) : (logEvent a k v s).pending = s.pending := by unfold logEvent; split <;> simp

@[simp] theorem setHealth_shadow (b : Nat) (s : State) : (setHealth b s).shadow = s.shadow := by unfold setHealth; simp only []; split <;> simp
@[simp] theorem setHealth_pilot (b : Nat) (s : State) : (setHealth b s).pilot = s.pilot := by unfold setHealth; simp only []; split <;> simp
@[simp] theorem setHealth_hlc (b : Nat) (s : State) : (setHealth b s).hlc = s.hlc := by unfold setHealth; simp only []; split <;> simp
@[simp] theorem setHealth_sw (b : Nat) (s : State) : (setHealth b s).sw = s.sw := by unfold setHealth; simp only []; split <;> simp
@[simp] theorem setHealth_sup (b : Nat) (s : State) : (setHealth b s).sup = s.sup := by unfold setHealth; simp only []; split <;> simp
@[simp] theorem setHealth_key (b : Nat) (s : State) : (setHealth b s).key = s.key := by unfold setHealth; simp only []; split <;> simp
@[simp] theorem setHealth_rd (b : Nat) (s : State) : (setHealth b s).rd = s.rd := by unfold setHealth; simp only []; split <;> simp
@[simp] theorem setHealth_tag (b : Nat) (s : State) : (setHealth b s).tag = s.tag := by unfold setHealth; simp only []; split <;> simp
@[simp] theorem setHealth_met (b : Nat) (s : State) : (setHealth b s).met = s.met := by unfold setHealth; simp only []; split <;> simp
@[simp] theorem setHealth_led (b : Nat) (s : State) : (setHealth b s).led = s.led := by unfold setHealth; simp only []; split <;> simp
@[simp] theorem setHealth_link (b : Nat) (s : State) : (setHealth b s).link = s.link := by unfold setHealth; simp only []; split <;> simp
@[simp] theorem setHealth_alloc (b : Nat) (s : State) : (setHealth b s).alloc = s.alloc := by unfold setHealth; simp only []; split <;> simp
@[simp] theorem setHealth_plt (b : Nat) (s : State) : (setHealth b s).plt = s.plt := by unfold setHealth; simp only []; split <;> simp
@[simp] theorem setHealth_hp (b : Nat) (s : State) : (setHealth b s).hp = s.hp := by unfold setHealth; simp only []; split <;> simp
@[simp] theorem setHealth_store (b : Nat) (s : State) : (setHealth b s).store = s.store := by unfold setHealth; simp only []; split <;> simp
@[simp] theorem setHealth_pending (b : Nat) (s : State) : (setHealth b s).pending = s.pending := by unfold setHealth; simp only []; split <;> simp

@[simp] theorem enterMode_shadow (m : Mode) (s : State) : (enterMode m s).shadow = s.shadow := by unfold enterMode; split <;> simp
@[simp] theorem enterMode_pilot (m : Mode) (s : State) : (enterMode m s).pilot = s.pilot := by unfold enterMode; split <;> simp
@[simp] theorem enterMode_hlc (m : Mode) (s : State) : (enterMode m s).hlc = s.hlc := by unfold enterMode; split <;> simp
@[simp] theorem enterMode_sw (m : Mode) (s : State) : (enterMode m s).sw = s.sw := by unfold enterMode; split <;> simp
@[simp] theorem enterMode_sup (m : Mode) (s : State) : (enterMode m s).sup = s.sup := by unfold enterMode; split <;> simp
@[simp] theorem enterMode_cap (m : Mode) (s : State) : (enterMode m s).cap = s.cap := by unfold enterMode; split <;> simp
@[simp] theorem enterMode_key (m : Mode) (s : State) : (enterMode m s).key = s.key := by unfold enterMode; split <;> simp
@[simp] theorem enterMode_rd (m : Mode) (s : State) : (enterMode m s).rd = s.rd := by unfold enterMode; split <;> simp
@[simp] theorem enterMode_tag (m : Mode) (s : State) : (enterMode m s).tag = s.tag := by unfold enterMode; split <;> simp
@[simp] theorem enterMode_met (m : Mode) (s : State) : (enterMode m s).met = s.met := by unfold enterMode; split <;> simp
@[simp] theorem enterMode_led (m : Mode) (s : State) : (enterMode m s).led = s.led := by unfold enterMode; split <;> simp
@[simp] theorem enterMode_link (m : Mode) (s : State) : (enterMode m s).link = s.link := by unfold enterMode; split <;> simp
@[simp] theorem enterMode_alloc (m : Mode) (s : State) : (enterMode m s).alloc = s.alloc := by unfold enterMode; split <;> simp
@[simp] theorem enterMode_plt (m : Mode) (s : State) : (enterMode m s).plt = s.plt := by unfold enterMode; split <;> simp
@[simp] theorem enterMode_hp (m : Mode) (s : State) : (enterMode m s).hp = s.hp := by unfold enterMode; split <;> simp
@[simp] theorem enterMode_store (m : Mode) (s : State) : (enterMode m s).store = s.store := by unfold enterMode; split <;> simp
@[simp] theorem enterMode_pending (m : Mode) (s : State) : (enterMode m s).pending = s.pending := by unfold enterMode; split <;> simp

@[simp] theorem standbyExit_shadow  (s : State) : (standbyExit s).shadow = s.shadow := by unfold standbyExit; split <;> simp
@[simp] theorem standbyExit_pilot  (s : State) : (standbyExit s).pilot = s.pilot := by unfold standbyExit; split <;> simp
@[simp] theorem standbyExit_hlc  (s : State) : (standbyExit s).hlc = s.hlc := by unfold standbyExit; split <;> simp
@[simp] theorem standbyExit_sw  (s : State) : (standbyExit s).sw = s.sw := by unfold standbyExit; split <;> simp
@[simp] theorem standbyExit_sup  (s : State) : (standbyExit s).sup = s.sup := by unfold standbyExit; split <;> simp
@[simp] theorem standbyExit_cap  (s : State) : (standbyExit s).cap = s.cap := by unfold standbyExit; split <;> simp
@[simp] theorem standbyExit_key  (s : State) : (standbyExit s).key = s.key := by unfold standbyExit; split <;> simp
@[simp] theorem standbyExit_rd  (s : State) : (standbyExit s).rd = s.rd := by unfold standbyExit; split <;> simp
@[simp] theorem standbyExit_tag  (s : State) : (standbyExit s).tag = s.tag := by unfold standbyExit; split <;> simp
@[simp] theorem standbyExit_met  (s : State) : (standbyExit s).met = s.met := by unfold standbyExit; split <;> simp
@[simp] theorem standbyExit_led  (s : State) : (standbyExit s).led = s.led := by unfold standbyExit; split <;> simp
@[simp] theorem standbyExit_link  (s : State) : (standbyExit s).link = s.link := by unfold standbyExit; split <;> simp
@[simp] theorem standbyExit_alloc  (s : State) : (standbyExit s).alloc = s.alloc := by unfold standbyExit; split <;> simp
@[simp] theorem standbyExit_plt  (s : State) : (standbyExit s).plt = s.plt := by unfold standbyExit; split <;> simp
@[simp] theorem standbyExit_hp  (s : State) : (standbyExit s).hp = s.hp := by unfold standbyExit; split <;> simp
@[simp] theorem standbyExit_store  (s : State) : (standbyExit s).store = s.store := by unfold standbyExit; split <;> simp
@[simp] theorem standbyExit_pending  (s : State) : (standbyExit s).pending = s.pending := by unfold standbyExit; split <;> simp

@[simp] theorem modQ_regs (q : Fin 64) (f : Queue → Queue) (s : State) : (modQ q f s).regs = s.regs := rfl
@[simp] theorem modQ_shadow (q : Fin 64) (f : Queue → Queue) (s : State) : (modQ q f s).shadow = s.shadow := rfl
@[simp] theorem modQ_sys (q : Fin 64) (f : Queue → Queue) (s : State) : (modQ q f s).sys = s.sys := rfl
@[simp] theorem modQ_pilot (q : Fin 64) (f : Queue → Queue) (s : State) : (modQ q f s).pilot = s.pilot := rfl
@[simp] theorem modQ_hlc (q : Fin 64) (f : Queue → Queue) (s : State) : (modQ q f s).hlc = s.hlc := rfl
@[simp] theorem modQ_sw (q : Fin 64) (f : Queue → Queue) (s : State) : (modQ q f s).sw = s.sw := rfl
@[simp] theorem modQ_sup (q : Fin 64) (f : Queue → Queue) (s : State) : (modQ q f s).sup = s.sup := rfl
@[simp] theorem modQ_cap (q : Fin 64) (f : Queue → Queue) (s : State) : (modQ q f s).cap = s.cap := rfl
@[simp] theorem modQ_key (q : Fin 64) (f : Queue → Queue) (s : State) : (modQ q f s).key = s.key := rfl
@[simp] theorem modQ_rd (q : Fin 64) (f : Queue → Queue) (s : State) : (modQ q f s).rd = s.rd := rfl
@[simp] theorem modQ_tag (q : Fin 64) (f : Queue → Queue) (s : State) : (modQ q f s).tag = s.tag := rfl
@[simp] theorem modQ_met (q : Fin 64) (f : Queue → Queue) (s : State) : (modQ q f s).met = s.met := rfl
@[simp] theorem modQ_led (q : Fin 64) (f : Queue → Queue) (s : State) : (modQ q f s).led = s.led := rfl
@[simp] theorem modQ_link (q : Fin 64) (f : Queue → Queue) (s : State) : (modQ q f s).link = s.link := rfl
@[simp] theorem modQ_alloc (q : Fin 64) (f : Queue → Queue) (s : State) : (modQ q f s).alloc = s.alloc := rfl
@[simp] theorem modQ_plt (q : Fin 64) (f : Queue → Queue) (s : State) : (modQ q f s).plt = s.plt := rfl
@[simp] theorem modQ_store (q : Fin 64) (f : Queue → Queue) (s : State) : (modQ q f s).store = s.store := rfl
@[simp] theorem modQ_pending (q : Fin 64) (f : Queue → Queue) (s : State) : (modQ q f s).pending = s.pending := rfl

@[simp] theorem finishCall_regs (i : Nat) (w : Word) (r : List Word) (s : State) : (finishCall i w r s).regs = s.regs := rfl
@[simp] theorem finishCall_shadow (i : Nat) (w : Word) (r : List Word) (s : State) : (finishCall i w r s).shadow = s.shadow := rfl
@[simp] theorem finishCall_sys (i : Nat) (w : Word) (r : List Word) (s : State) : (finishCall i w r s).sys = s.sys := rfl
@[simp] theorem finishCall_pilot (i : Nat) (w : Word) (r : List Word) (s : State) : (finishCall i w r s).pilot = s.pilot := rfl
@[simp] theorem finishCall_hlc (i : Nat) (w : Word) (r : List Word) (s : State) : (finishCall i w r s).hlc = s.hlc := rfl
@[simp] theorem finishCall_sw (i : Nat) (w : Word) (r : List Word) (s : State) : (finishCall i w r s).sw = s.sw := rfl
@[simp] theorem finishCall_sup (i : Nat) (w : Word) (r : List Word) (s : State) : (finishCall i w r s).sup = s.sup := rfl
@[simp] theorem finishCall_key (i : Nat) (w : Word) (r : List Word) (s : State) : (finishCall i w r s).key = s.key := rfl
@[simp] theorem finishCall_rd (i : Nat) (w : Word) (r : List Word) (s : State) : (finishCall i w r s).rd = s.rd := rfl
@[simp] theorem finishCall_tag (i : Nat) (w : Word) (r : List Word) (s : State) : (finishCall i w r s).tag = s.tag := rfl
@[simp] theorem finishCall_met (i : Nat) (w : Word) (r : List Word) (s : State) : (finishCall i w r s).met = s.met := rfl
@[simp] theorem finishCall_led (i : Nat) (w : Word) (r : List Word) (s : State) : (finishCall i w r s).led = s.led := rfl
@[simp] theorem finishCall_link (i : Nat) (w : Word) (r : List Word) (s : State) : (finishCall i w r s).link = s.link := rfl
@[simp] theorem finishCall_alloc (i : Nat) (w : Word) (r : List Word) (s : State) : (finishCall i w r s).alloc = s.alloc := rfl
@[simp] theorem finishCall_plt (i : Nat) (w : Word) (r : List Word) (s : State) : (finishCall i w r s).plt = s.plt := rfl
@[simp] theorem finishCall_hp (i : Nat) (w : Word) (r : List Word) (s : State) : (finishCall i w r s).hp = s.hp := rfl
@[simp] theorem finishCall_store (i : Nat) (w : Word) (r : List Word) (s : State) : (finishCall i w r s).store = s.store := rfl
@[simp] theorem finishCall_pending (i : Nat) (w : Word) (r : List Word) (s : State) : (finishCall i w r s).pending = s.pending := rfl

@[simp] theorem finishCode_regs (i k : Nat) (r : List Word) (s : State) : (finishCode i k r s).regs = s.regs := rfl
@[simp] theorem finishCode_shadow (i k : Nat) (r : List Word) (s : State) : (finishCode i k r s).shadow = s.shadow := rfl
@[simp] theorem finishCode_sys (i k : Nat) (r : List Word) (s : State) : (finishCode i k r s).sys = s.sys := rfl
@[simp] theorem finishCode_pilot (i k : Nat) (r : List Word) (s : State) : (finishCode i k r s).pilot = s.pilot := rfl
@[simp] theorem finishCode_hlc (i k : Nat) (r : List Word) (s : State) : (finishCode i k r s).hlc = s.hlc := rfl
@[simp] theorem finishCode_sw (i k : Nat) (r : List Word) (s : State) : (finishCode i k r s).sw = s.sw := rfl
@[simp] theorem finishCode_sup (i k : Nat) (r : List Word) (s : State) : (finishCode i k r s).sup = s.sup := rfl
@[simp] theorem finishCode_key (i k : Nat) (r : List Word) (s : State) : (finishCode i k r s).key = s.key := rfl
@[simp] theorem finishCode_rd (i k : Nat) (r : List Word) (s : State) : (finishCode i k r s).rd = s.rd := rfl
@[simp] theorem finishCode_tag (i k : Nat) (r : List Word) (s : State) : (finishCode i k r s).tag = s.tag := rfl
@[simp] theorem finishCode_met (i k : Nat) (r : List Word) (s : State) : (finishCode i k r s).met = s.met := rfl
@[simp] theorem finishCode_led (i k : Nat) (r : List Word) (s : State) : (finishCode i k r s).led = s.led := rfl
@[simp] theorem finishCode_link (i k : Nat) (r : List Word) (s : State) : (finishCode i k r s).link = s.link := rfl
@[simp] theorem finishCode_alloc (i k : Nat) (r : List Word) (s : State) : (finishCode i k r s).alloc = s.alloc := rfl
@[simp] theorem finishCode_plt (i k : Nat) (r : List Word) (s : State) : (finishCode i k r s).plt = s.plt := rfl
@[simp] theorem finishCode_hp (i k : Nat) (r : List Word) (s : State) : (finishCode i k r s).hp = s.hp := rfl
@[simp] theorem finishCode_store (i k : Nat) (r : List Word) (s : State) : (finishCode i k r s).store = s.store := rfl
@[simp] theorem finishCode_pending (i k : Nat) (r : List Word) (s : State) : (finishCode i k r s).pending = s.pending := rfl

@[simp] theorem raiseFw_sys_mode (e w : Nat) (s : State) : (raiseFw e w s).sys.mode = s.sys.mode := by unfold raiseFw; split <;> simp
@[simp] theorem raiseFw_sys_role (e w : Nat) (s : State) : (raiseFw e w s).sys.role = s.sys.role := by unfold raiseFw; split <;> simp
@[simp] theorem raiseFw_sys_booted (e w : Nat) (s : State) : (raiseFw e w s).sys.booted = s.sys.booted := by unfold raiseFw; split <;> simp
@[simp] theorem raiseFw_sys_refHeld (e w : Nat) (s : State) : (raiseFw e w s).sys.refHeld = s.sys.refHeld := by unfold raiseFw; split <;> simp
@[simp] theorem raiseFw_sys_mainGood (e w : Nat) (s : State) : (raiseFw e w s).sys.mainGood = s.sys.mainGood := by unfold raiseFw; split <;> simp
@[simp] theorem raiseFw_sys_vbackOk (e w : Nat) (s : State) : (raiseFw e w s).sys.vbackOk = s.sys.vbackOk := by unfold raiseFw; split <;> simp
@[simp] theorem raiseFw_sys_rfField (e w : Nat) (s : State) : (raiseFw e w s).sys.rfField = s.sys.rfField := by unfold raiseFw; split <;> simp
@[simp] theorem raiseFw_sys_factoryDone (e w : Nat) (s : State) : (raiseFw e w s).sys.factoryDone = s.sys.factoryDone := by unfold raiseFw; split <;> simp
@[simp] theorem raiseFw_sys_staged (e w : Nat) (s : State) : (raiseFw e w s).sys.staged = s.sys.staged := by unfold raiseFw; split <;> simp
@[simp] theorem raiseFw_sys_settings (e w : Nat) (s : State) : (raiseFw e w s).sys.settings = s.sys.settings := by unfold raiseFw; split <;> simp
@[simp] theorem raiseFw_sys_standbyReady (e w : Nat) (s : State) : (raiseFw e w s).sys.standbyReady = s.sys.standbyReady := by unfold raiseFw; split <;> simp
@[simp] theorem raiseFw_sys_paired (e w : Nat) (s : State) : (raiseFw e w s).sys.paired = s.sys.paired := by unfold raiseFw; split <;> simp
@[simp] theorem raiseFw_sys_coreRetired (e w : Nat) (s : State) : (raiseFw e w s).sys.coreRetired = s.sys.coreRetired := by unfold raiseFw; split <;> simp
@[simp] theorem raiseFw_sys_takeover (e w : Nat) (s : State) : (raiseFw e w s).sys.takeover = s.sys.takeover := by unfold raiseFw; split <;> simp
@[simp] theorem raiseFw_sys_ctrlStop (e w : Nat) (s : State) : (raiseFw e w s).sys.ctrlStop = s.sys.ctrlStop := by unfold raiseFw; split <;> simp
@[simp] theorem raiseFw_sys_pfwLow (e w : Nat) (s : State) : (raiseFw e w s).sys.pfwLow = s.sys.pfwLow := by unfold raiseFw; split <;> simp
@[simp] theorem raiseFw_sys_pfwConfirmed (e w : Nat) (s : State) : (raiseFw e w s).sys.pfwConfirmed = s.sys.pfwConfirmed := by unfold raiseFw; split <;> simp
@[simp] theorem raiseFw_sys_resetLow (e w : Nat) (s : State) : (raiseFw e w s).sys.resetLow = s.sys.resetLow := by unfold raiseFw; split <;> simp
@[simp] theorem raiseFw_sys_anomHeld (e w : Nat) (s : State) : (raiseFw e w s).sys.anomHeld = s.sys.anomHeld := by unfold raiseFw; split <;> simp
@[simp] theorem raiseFw_sys_strandHeld (e w : Nat) (s : State) : (raiseFw e w s).sys.strandHeld = s.sys.strandHeld := by unfold raiseFw; split <;> simp
@[simp] theorem raiseFw_sys_pause (e w : Nat) (s : State) : (raiseFw e w s).sys.pause = s.sys.pause := by unfold raiseFw; split <;> simp
@[simp] theorem raiseFw_sys_vsysLow (e w : Nat) (s : State) : (raiseFw e w s).sys.vsysLow = s.sys.vsysLow := by unfold raiseFw; split <;> simp
@[simp] theorem raiseFw_sys_violLog (e w : Nat) (s : State) : (raiseFw e w s).sys.violLog = s.sys.violLog := by unfold raiseFw; split <;> simp
@[simp] theorem raiseFw_sys_eventLog (e w : Nat) (s : State) : (raiseFw e w s).sys.eventLog = s.sys.eventLog := by unfold raiseFw; split <;> simp
@[simp] theorem raiseFw_sys_usec (e w : Nat) (s : State) : (raiseFw e w s).sys.usec = s.sys.usec := by unfold raiseFw; split <;> simp
@[simp] theorem raiseFw_sys_ltime (e w : Nat) (s : State) : (raiseFw e w s).sys.ltime = s.sys.ltime := by unfold raiseFw; split <;> simp
@[simp] theorem raiseFw_sys_freeCtr (e w : Nat) (s : State) : (raiseFw e w s).sys.freeCtr = s.sys.freeCtr := by unfold raiseFw; split <;> simp

@[simp] theorem logViolationAs_sys_mode (a k x v : Nat) (s : State) : (logViolationAs a k x v s).sys.mode = s.sys.mode := by unfold logViolationAs; split <;> simp
@[simp] theorem logViolationAs_sys_role (a k x v : Nat) (s : State) : (logViolationAs a k x v s).sys.role = s.sys.role := by unfold logViolationAs; split <;> simp
@[simp] theorem logViolationAs_sys_booted (a k x v : Nat) (s : State) : (logViolationAs a k x v s).sys.booted = s.sys.booted := by unfold logViolationAs; split <;> simp
@[simp] theorem logViolationAs_sys_refHeld (a k x v : Nat) (s : State) : (logViolationAs a k x v s).sys.refHeld = s.sys.refHeld := by unfold logViolationAs; split <;> simp
@[simp] theorem logViolationAs_sys_mainGood (a k x v : Nat) (s : State) : (logViolationAs a k x v s).sys.mainGood = s.sys.mainGood := by unfold logViolationAs; split <;> simp
@[simp] theorem logViolationAs_sys_vbackOk (a k x v : Nat) (s : State) : (logViolationAs a k x v s).sys.vbackOk = s.sys.vbackOk := by unfold logViolationAs; split <;> simp
@[simp] theorem logViolationAs_sys_rfField (a k x v : Nat) (s : State) : (logViolationAs a k x v s).sys.rfField = s.sys.rfField := by unfold logViolationAs; split <;> simp
@[simp] theorem logViolationAs_sys_factoryDone (a k x v : Nat) (s : State) : (logViolationAs a k x v s).sys.factoryDone = s.sys.factoryDone := by unfold logViolationAs; split <;> simp
@[simp] theorem logViolationAs_sys_staged (a k x v : Nat) (s : State) : (logViolationAs a k x v s).sys.staged = s.sys.staged := by unfold logViolationAs; split <;> simp
@[simp] theorem logViolationAs_sys_settings (a k x v : Nat) (s : State) : (logViolationAs a k x v s).sys.settings = s.sys.settings := by unfold logViolationAs; split <;> simp
@[simp] theorem logViolationAs_sys_standbyReady (a k x v : Nat) (s : State) : (logViolationAs a k x v s).sys.standbyReady = s.sys.standbyReady := by unfold logViolationAs; split <;> simp
@[simp] theorem logViolationAs_sys_paired (a k x v : Nat) (s : State) : (logViolationAs a k x v s).sys.paired = s.sys.paired := by unfold logViolationAs; split <;> simp
@[simp] theorem logViolationAs_sys_coreRetired (a k x v : Nat) (s : State) : (logViolationAs a k x v s).sys.coreRetired = s.sys.coreRetired := by unfold logViolationAs; split <;> simp
@[simp] theorem logViolationAs_sys_takeover (a k x v : Nat) (s : State) : (logViolationAs a k x v s).sys.takeover = s.sys.takeover := by unfold logViolationAs; split <;> simp
@[simp] theorem logViolationAs_sys_ctrlStop (a k x v : Nat) (s : State) : (logViolationAs a k x v s).sys.ctrlStop = s.sys.ctrlStop := by unfold logViolationAs; split <;> simp
@[simp] theorem logViolationAs_sys_pfwLow (a k x v : Nat) (s : State) : (logViolationAs a k x v s).sys.pfwLow = s.sys.pfwLow := by unfold logViolationAs; split <;> simp
@[simp] theorem logViolationAs_sys_pfwConfirmed (a k x v : Nat) (s : State) : (logViolationAs a k x v s).sys.pfwConfirmed = s.sys.pfwConfirmed := by unfold logViolationAs; split <;> simp
@[simp] theorem logViolationAs_sys_resetLow (a k x v : Nat) (s : State) : (logViolationAs a k x v s).sys.resetLow = s.sys.resetLow := by unfold logViolationAs; split <;> simp
@[simp] theorem logViolationAs_sys_anomHeld (a k x v : Nat) (s : State) : (logViolationAs a k x v s).sys.anomHeld = s.sys.anomHeld := by unfold logViolationAs; split <;> simp
@[simp] theorem logViolationAs_sys_strandHeld (a k x v : Nat) (s : State) : (logViolationAs a k x v s).sys.strandHeld = s.sys.strandHeld := by unfold logViolationAs; split <;> simp
@[simp] theorem logViolationAs_sys_pause (a k x v : Nat) (s : State) : (logViolationAs a k x v s).sys.pause = s.sys.pause := by unfold logViolationAs; split <;> simp
@[simp] theorem logViolationAs_sys_pausedEvents (a k x v : Nat) (s : State) : (logViolationAs a k x v s).sys.pausedEvents = s.sys.pausedEvents := by unfold logViolationAs; split <;> simp
@[simp] theorem logViolationAs_sys_vsysLow (a k x v : Nat) (s : State) : (logViolationAs a k x v s).sys.vsysLow = s.sys.vsysLow := by unfold logViolationAs; split <;> simp
@[simp] theorem logViolationAs_sys_eventLog (a k x v : Nat) (s : State) : (logViolationAs a k x v s).sys.eventLog = s.sys.eventLog := by unfold logViolationAs; split <;> simp
@[simp] theorem logViolationAs_sys_usec (a k x v : Nat) (s : State) : (logViolationAs a k x v s).sys.usec = s.sys.usec := by unfold logViolationAs; split <;> simp
@[simp] theorem logViolationAs_sys_ltime (a k x v : Nat) (s : State) : (logViolationAs a k x v s).sys.ltime = s.sys.ltime := by unfold logViolationAs; split <;> simp
@[simp] theorem logViolationAs_sys_freeCtr (a k x v : Nat) (s : State) : (logViolationAs a k x v s).sys.freeCtr = s.sys.freeCtr := by unfold logViolationAs; split <;> simp

@[simp] theorem logViolation_sys_mode (a k v : Nat) (s : State) : (logViolation a k v s).sys.mode = s.sys.mode := by unfold logViolation; simp
@[simp] theorem logViolation_sys_role (a k v : Nat) (s : State) : (logViolation a k v s).sys.role = s.sys.role := by unfold logViolation; simp
@[simp] theorem logViolation_sys_booted (a k v : Nat) (s : State) : (logViolation a k v s).sys.booted = s.sys.booted := by unfold logViolation; simp
@[simp] theorem logViolation_sys_refHeld (a k v : Nat) (s : State) : (logViolation a k v s).sys.refHeld = s.sys.refHeld := by unfold logViolation; simp
@[simp] theorem logViolation_sys_mainGood (a k v : Nat) (s : State) : (logViolation a k v s).sys.mainGood = s.sys.mainGood := by unfold logViolation; simp
@[simp] theorem logViolation_sys_vbackOk (a k v : Nat) (s : State) : (logViolation a k v s).sys.vbackOk = s.sys.vbackOk := by unfold logViolation; simp
@[simp] theorem logViolation_sys_rfField (a k v : Nat) (s : State) : (logViolation a k v s).sys.rfField = s.sys.rfField := by unfold logViolation; simp
@[simp] theorem logViolation_sys_factoryDone (a k v : Nat) (s : State) : (logViolation a k v s).sys.factoryDone = s.sys.factoryDone := by unfold logViolation; simp
@[simp] theorem logViolation_sys_staged (a k v : Nat) (s : State) : (logViolation a k v s).sys.staged = s.sys.staged := by unfold logViolation; simp
@[simp] theorem logViolation_sys_settings (a k v : Nat) (s : State) : (logViolation a k v s).sys.settings = s.sys.settings := by unfold logViolation; simp
@[simp] theorem logViolation_sys_standbyReady (a k v : Nat) (s : State) : (logViolation a k v s).sys.standbyReady = s.sys.standbyReady := by unfold logViolation; simp
@[simp] theorem logViolation_sys_paired (a k v : Nat) (s : State) : (logViolation a k v s).sys.paired = s.sys.paired := by unfold logViolation; simp
@[simp] theorem logViolation_sys_coreRetired (a k v : Nat) (s : State) : (logViolation a k v s).sys.coreRetired = s.sys.coreRetired := by unfold logViolation; simp
@[simp] theorem logViolation_sys_takeover (a k v : Nat) (s : State) : (logViolation a k v s).sys.takeover = s.sys.takeover := by unfold logViolation; simp
@[simp] theorem logViolation_sys_ctrlStop (a k v : Nat) (s : State) : (logViolation a k v s).sys.ctrlStop = s.sys.ctrlStop := by unfold logViolation; simp
@[simp] theorem logViolation_sys_pfwLow (a k v : Nat) (s : State) : (logViolation a k v s).sys.pfwLow = s.sys.pfwLow := by unfold logViolation; simp
@[simp] theorem logViolation_sys_pfwConfirmed (a k v : Nat) (s : State) : (logViolation a k v s).sys.pfwConfirmed = s.sys.pfwConfirmed := by unfold logViolation; simp
@[simp] theorem logViolation_sys_resetLow (a k v : Nat) (s : State) : (logViolation a k v s).sys.resetLow = s.sys.resetLow := by unfold logViolation; simp
@[simp] theorem logViolation_sys_anomHeld (a k v : Nat) (s : State) : (logViolation a k v s).sys.anomHeld = s.sys.anomHeld := by unfold logViolation; simp
@[simp] theorem logViolation_sys_strandHeld (a k v : Nat) (s : State) : (logViolation a k v s).sys.strandHeld = s.sys.strandHeld := by unfold logViolation; simp
@[simp] theorem logViolation_sys_pause (a k v : Nat) (s : State) : (logViolation a k v s).sys.pause = s.sys.pause := by unfold logViolation; simp
@[simp] theorem logViolation_sys_pausedEvents (a k v : Nat) (s : State) : (logViolation a k v s).sys.pausedEvents = s.sys.pausedEvents := by unfold logViolation; simp
@[simp] theorem logViolation_sys_vsysLow (a k v : Nat) (s : State) : (logViolation a k v s).sys.vsysLow = s.sys.vsysLow := by unfold logViolation; simp
@[simp] theorem logViolation_sys_eventLog (a k v : Nat) (s : State) : (logViolation a k v s).sys.eventLog = s.sys.eventLog := by unfold logViolation; simp
@[simp] theorem logViolation_sys_usec (a k v : Nat) (s : State) : (logViolation a k v s).sys.usec = s.sys.usec := by unfold logViolation; simp
@[simp] theorem logViolation_sys_ltime (a k v : Nat) (s : State) : (logViolation a k v s).sys.ltime = s.sys.ltime := by unfold logViolation; simp
@[simp] theorem logViolation_sys_freeCtr (a k v : Nat) (s : State) : (logViolation a k v s).sys.freeCtr = s.sys.freeCtr := by unfold logViolation; simp

@[simp] theorem logEvent_sys_mode (a k v : Nat) (s : State) : (logEvent a k v s).sys.mode = s.sys.mode := by unfold logEvent; split <;> simp
@[simp] theorem logEvent_sys_role (a k v : Nat) (s : State) : (logEvent a k v s).sys.role = s.sys.role := by unfold logEvent; split <;> simp
@[simp] theorem logEvent_sys_booted (a k v : Nat) (s : State) : (logEvent a k v s).sys.booted = s.sys.booted := by unfold logEvent; split <;> simp
@[simp] theorem logEvent_sys_refHeld (a k v : Nat) (s : State) : (logEvent a k v s).sys.refHeld = s.sys.refHeld := by unfold logEvent; split <;> simp
@[simp] theorem logEvent_sys_mainGood (a k v : Nat) (s : State) : (logEvent a k v s).sys.mainGood = s.sys.mainGood := by unfold logEvent; split <;> simp
@[simp] theorem logEvent_sys_vbackOk (a k v : Nat) (s : State) : (logEvent a k v s).sys.vbackOk = s.sys.vbackOk := by unfold logEvent; split <;> simp
@[simp] theorem logEvent_sys_rfField (a k v : Nat) (s : State) : (logEvent a k v s).sys.rfField = s.sys.rfField := by unfold logEvent; split <;> simp
@[simp] theorem logEvent_sys_factoryDone (a k v : Nat) (s : State) : (logEvent a k v s).sys.factoryDone = s.sys.factoryDone := by unfold logEvent; split <;> simp
@[simp] theorem logEvent_sys_staged (a k v : Nat) (s : State) : (logEvent a k v s).sys.staged = s.sys.staged := by unfold logEvent; split <;> simp
@[simp] theorem logEvent_sys_settings (a k v : Nat) (s : State) : (logEvent a k v s).sys.settings = s.sys.settings := by unfold logEvent; split <;> simp
@[simp] theorem logEvent_sys_standbyReady (a k v : Nat) (s : State) : (logEvent a k v s).sys.standbyReady = s.sys.standbyReady := by unfold logEvent; split <;> simp
@[simp] theorem logEvent_sys_paired (a k v : Nat) (s : State) : (logEvent a k v s).sys.paired = s.sys.paired := by unfold logEvent; split <;> simp
@[simp] theorem logEvent_sys_coreRetired (a k v : Nat) (s : State) : (logEvent a k v s).sys.coreRetired = s.sys.coreRetired := by unfold logEvent; split <;> simp
@[simp] theorem logEvent_sys_takeover (a k v : Nat) (s : State) : (logEvent a k v s).sys.takeover = s.sys.takeover := by unfold logEvent; split <;> simp
@[simp] theorem logEvent_sys_ctrlStop (a k v : Nat) (s : State) : (logEvent a k v s).sys.ctrlStop = s.sys.ctrlStop := by unfold logEvent; split <;> simp
@[simp] theorem logEvent_sys_pfwLow (a k v : Nat) (s : State) : (logEvent a k v s).sys.pfwLow = s.sys.pfwLow := by unfold logEvent; split <;> simp
@[simp] theorem logEvent_sys_pfwConfirmed (a k v : Nat) (s : State) : (logEvent a k v s).sys.pfwConfirmed = s.sys.pfwConfirmed := by unfold logEvent; split <;> simp
@[simp] theorem logEvent_sys_resetLow (a k v : Nat) (s : State) : (logEvent a k v s).sys.resetLow = s.sys.resetLow := by unfold logEvent; split <;> simp
@[simp] theorem logEvent_sys_anomHeld (a k v : Nat) (s : State) : (logEvent a k v s).sys.anomHeld = s.sys.anomHeld := by unfold logEvent; split <;> simp
@[simp] theorem logEvent_sys_strandHeld (a k v : Nat) (s : State) : (logEvent a k v s).sys.strandHeld = s.sys.strandHeld := by unfold logEvent; split <;> simp
@[simp] theorem logEvent_sys_pause (a k v : Nat) (s : State) : (logEvent a k v s).sys.pause = s.sys.pause := by unfold logEvent; split <;> simp
@[simp] theorem logEvent_sys_pausedEvents (a k v : Nat) (s : State) : (logEvent a k v s).sys.pausedEvents = s.sys.pausedEvents := by unfold logEvent; split <;> simp
@[simp] theorem logEvent_sys_vsysLow (a k v : Nat) (s : State) : (logEvent a k v s).sys.vsysLow = s.sys.vsysLow := by unfold logEvent; split <;> simp
@[simp] theorem logEvent_sys_violLog (a k v : Nat) (s : State) : (logEvent a k v s).sys.violLog = s.sys.violLog := by unfold logEvent; split <;> simp
@[simp] theorem logEvent_sys_usec (a k v : Nat) (s : State) : (logEvent a k v s).sys.usec = s.sys.usec := by unfold logEvent; split <;> simp
@[simp] theorem logEvent_sys_ltime (a k v : Nat) (s : State) : (logEvent a k v s).sys.ltime = s.sys.ltime := by unfold logEvent; split <;> simp
@[simp] theorem logEvent_sys_freeCtr (a k v : Nat) (s : State) : (logEvent a k v s).sys.freeCtr = s.sys.freeCtr := by unfold logEvent; split <;> simp

@[simp] theorem setHealth_sys_mode (b : Nat) (s : State) : (setHealth b s).sys.mode = s.sys.mode := by unfold setHealth; simp only []; split <;> simp
@[simp] theorem setHealth_sys_role (b : Nat) (s : State) : (setHealth b s).sys.role = s.sys.role := by unfold setHealth; simp only []; split <;> simp
@[simp] theorem setHealth_sys_booted (b : Nat) (s : State) : (setHealth b s).sys.booted = s.sys.booted := by unfold setHealth; simp only []; split <;> simp
@[simp] theorem setHealth_sys_refHeld (b : Nat) (s : State) : (setHealth b s).sys.refHeld = s.sys.refHeld := by unfold setHealth; simp only []; split <;> simp
@[simp] theorem setHealth_sys_mainGood (b : Nat) (s : State) : (setHealth b s).sys.mainGood = s.sys.mainGood := by unfold setHealth; simp only []; split <;> simp
@[simp] theorem setHealth_sys_vbackOk (b : Nat) (s : State) : (setHealth b s).sys.vbackOk = s.sys.vbackOk := by unfold setHealth; simp only []; split <;> simp
@[simp] theorem setHealth_sys_rfField (b : Nat) (s : State) : (setHealth b s).sys.rfField = s.sys.rfField := by unfold setHealth; simp only []; split <;> simp
@[simp] theorem setHealth_sys_factoryDone (b : Nat) (s : State) : (setHealth b s).sys.factoryDone = s.sys.factoryDone := by unfold setHealth; simp only []; split <;> simp
@[simp] theorem setHealth_sys_staged (b : Nat) (s : State) : (setHealth b s).sys.staged = s.sys.staged := by unfold setHealth; simp only []; split <;> simp
@[simp] theorem setHealth_sys_settings (b : Nat) (s : State) : (setHealth b s).sys.settings = s.sys.settings := by unfold setHealth; simp only []; split <;> simp
@[simp] theorem setHealth_sys_standbyReady (b : Nat) (s : State) : (setHealth b s).sys.standbyReady = s.sys.standbyReady := by unfold setHealth; simp only []; split <;> simp
@[simp] theorem setHealth_sys_paired (b : Nat) (s : State) : (setHealth b s).sys.paired = s.sys.paired := by unfold setHealth; simp only []; split <;> simp
@[simp] theorem setHealth_sys_coreRetired (b : Nat) (s : State) : (setHealth b s).sys.coreRetired = s.sys.coreRetired := by unfold setHealth; simp only []; split <;> simp
@[simp] theorem setHealth_sys_takeover (b : Nat) (s : State) : (setHealth b s).sys.takeover = s.sys.takeover := by unfold setHealth; simp only []; split <;> simp
@[simp] theorem setHealth_sys_ctrlStop (b : Nat) (s : State) : (setHealth b s).sys.ctrlStop = s.sys.ctrlStop := by unfold setHealth; simp only []; split <;> simp
@[simp] theorem setHealth_sys_pfwLow (b : Nat) (s : State) : (setHealth b s).sys.pfwLow = s.sys.pfwLow := by unfold setHealth; simp only []; split <;> simp
@[simp] theorem setHealth_sys_pfwConfirmed (b : Nat) (s : State) : (setHealth b s).sys.pfwConfirmed = s.sys.pfwConfirmed := by unfold setHealth; simp only []; split <;> simp
@[simp] theorem setHealth_sys_resetLow (b : Nat) (s : State) : (setHealth b s).sys.resetLow = s.sys.resetLow := by unfold setHealth; simp only []; split <;> simp
@[simp] theorem setHealth_sys_anomHeld (b : Nat) (s : State) : (setHealth b s).sys.anomHeld = s.sys.anomHeld := by unfold setHealth; simp only []; split <;> simp
@[simp] theorem setHealth_sys_strandHeld (b : Nat) (s : State) : (setHealth b s).sys.strandHeld = s.sys.strandHeld := by unfold setHealth; simp only []; split <;> simp
@[simp] theorem setHealth_sys_pause (b : Nat) (s : State) : (setHealth b s).sys.pause = s.sys.pause := by unfold setHealth; simp only []; split <;> simp
@[simp] theorem setHealth_sys_vsysLow (b : Nat) (s : State) : (setHealth b s).sys.vsysLow = s.sys.vsysLow := by unfold setHealth; simp only []; split <;> simp
@[simp] theorem setHealth_sys_violLog (b : Nat) (s : State) : (setHealth b s).sys.violLog = s.sys.violLog := by unfold setHealth; simp only []; split <;> simp
@[simp] theorem setHealth_sys_eventLog (b : Nat) (s : State) : (setHealth b s).sys.eventLog = s.sys.eventLog := by unfold setHealth; simp only []; split <;> simp
@[simp] theorem setHealth_sys_usec (b : Nat) (s : State) : (setHealth b s).sys.usec = s.sys.usec := by unfold setHealth; simp only []; split <;> simp
@[simp] theorem setHealth_sys_ltime (b : Nat) (s : State) : (setHealth b s).sys.ltime = s.sys.ltime := by unfold setHealth; simp only []; split <;> simp
@[simp] theorem setHealth_sys_freeCtr (b : Nat) (s : State) : (setHealth b s).sys.freeCtr = s.sys.freeCtr := by unfold setHealth; simp only []; split <;> simp

@[simp] theorem enterMode_sys_role (m : Mode) (s : State) : (enterMode m s).sys.role = s.sys.role := by unfold enterMode; split <;> simp
@[simp] theorem enterMode_sys_booted (m : Mode) (s : State) : (enterMode m s).sys.booted = s.sys.booted := by unfold enterMode; split <;> simp
@[simp] theorem enterMode_sys_refHeld (m : Mode) (s : State) : (enterMode m s).sys.refHeld = s.sys.refHeld := by unfold enterMode; split <;> simp
@[simp] theorem enterMode_sys_mainGood (m : Mode) (s : State) : (enterMode m s).sys.mainGood = s.sys.mainGood := by unfold enterMode; split <;> simp
@[simp] theorem enterMode_sys_vbackOk (m : Mode) (s : State) : (enterMode m s).sys.vbackOk = s.sys.vbackOk := by unfold enterMode; split <;> simp
@[simp] theorem enterMode_sys_rfField (m : Mode) (s : State) : (enterMode m s).sys.rfField = s.sys.rfField := by unfold enterMode; split <;> simp
@[simp] theorem enterMode_sys_factoryDone (m : Mode) (s : State) : (enterMode m s).sys.factoryDone = s.sys.factoryDone := by unfold enterMode; split <;> simp
@[simp] theorem enterMode_sys_staged (m : Mode) (s : State) : (enterMode m s).sys.staged = s.sys.staged := by unfold enterMode; split <;> simp
@[simp] theorem enterMode_sys_settings (m : Mode) (s : State) : (enterMode m s).sys.settings = s.sys.settings := by unfold enterMode; split <;> simp
@[simp] theorem enterMode_sys_standbyReady (m : Mode) (s : State) : (enterMode m s).sys.standbyReady = s.sys.standbyReady := by unfold enterMode; split <;> simp
@[simp] theorem enterMode_sys_paired (m : Mode) (s : State) : (enterMode m s).sys.paired = s.sys.paired := by unfold enterMode; split <;> simp
@[simp] theorem enterMode_sys_coreRetired (m : Mode) (s : State) : (enterMode m s).sys.coreRetired = s.sys.coreRetired := by unfold enterMode; split <;> simp
@[simp] theorem enterMode_sys_takeover (m : Mode) (s : State) : (enterMode m s).sys.takeover = s.sys.takeover := by unfold enterMode; split <;> simp
@[simp] theorem enterMode_sys_ctrlStop (m : Mode) (s : State) : (enterMode m s).sys.ctrlStop = s.sys.ctrlStop := by unfold enterMode; split <;> simp
@[simp] theorem enterMode_sys_pfwLow (m : Mode) (s : State) : (enterMode m s).sys.pfwLow = s.sys.pfwLow := by unfold enterMode; split <;> simp
@[simp] theorem enterMode_sys_pfwConfirmed (m : Mode) (s : State) : (enterMode m s).sys.pfwConfirmed = s.sys.pfwConfirmed := by unfold enterMode; split <;> simp
@[simp] theorem enterMode_sys_resetLow (m : Mode) (s : State) : (enterMode m s).sys.resetLow = s.sys.resetLow := by unfold enterMode; split <;> simp
@[simp] theorem enterMode_sys_anomHeld (m : Mode) (s : State) : (enterMode m s).sys.anomHeld = s.sys.anomHeld := by unfold enterMode; split <;> simp
@[simp] theorem enterMode_sys_strandHeld (m : Mode) (s : State) : (enterMode m s).sys.strandHeld = s.sys.strandHeld := by unfold enterMode; split <;> simp
@[simp] theorem enterMode_sys_pause (m : Mode) (s : State) : (enterMode m s).sys.pause = s.sys.pause := by unfold enterMode; split <;> simp
@[simp] theorem enterMode_sys_pausedEvents (m : Mode) (s : State) : (enterMode m s).sys.pausedEvents = s.sys.pausedEvents := by unfold enterMode; split <;> simp
@[simp] theorem enterMode_sys_vsysLow (m : Mode) (s : State) : (enterMode m s).sys.vsysLow = s.sys.vsysLow := by unfold enterMode; split <;> simp
@[simp] theorem enterMode_sys_violLog (m : Mode) (s : State) : (enterMode m s).sys.violLog = s.sys.violLog := by unfold enterMode; split <;> simp
@[simp] theorem enterMode_sys_eventLog (m : Mode) (s : State) : (enterMode m s).sys.eventLog = s.sys.eventLog := by unfold enterMode; split <;> simp
@[simp] theorem enterMode_sys_usec (m : Mode) (s : State) : (enterMode m s).sys.usec = s.sys.usec := by unfold enterMode; split <;> simp
@[simp] theorem enterMode_sys_ltime (m : Mode) (s : State) : (enterMode m s).sys.ltime = s.sys.ltime := by unfold enterMode; split <;> simp
@[simp] theorem enterMode_sys_freeCtr (m : Mode) (s : State) : (enterMode m s).sys.freeCtr = s.sys.freeCtr := by unfold enterMode; split <;> simp

@[simp] theorem standbyExit_sys_role  (s : State) : (standbyExit s).sys.role = s.sys.role := by unfold standbyExit; split <;> simp
@[simp] theorem standbyExit_sys_booted  (s : State) : (standbyExit s).sys.booted = s.sys.booted := by unfold standbyExit; split <;> simp
@[simp] theorem standbyExit_sys_refHeld  (s : State) : (standbyExit s).sys.refHeld = s.sys.refHeld := by unfold standbyExit; split <;> simp
@[simp] theorem standbyExit_sys_mainGood  (s : State) : (standbyExit s).sys.mainGood = s.sys.mainGood := by unfold standbyExit; split <;> simp
@[simp] theorem standbyExit_sys_vbackOk  (s : State) : (standbyExit s).sys.vbackOk = s.sys.vbackOk := by unfold standbyExit; split <;> simp
@[simp] theorem standbyExit_sys_rfField  (s : State) : (standbyExit s).sys.rfField = s.sys.rfField := by unfold standbyExit; split <;> simp
@[simp] theorem standbyExit_sys_factoryDone  (s : State) : (standbyExit s).sys.factoryDone = s.sys.factoryDone := by unfold standbyExit; split <;> simp
@[simp] theorem standbyExit_sys_staged  (s : State) : (standbyExit s).sys.staged = s.sys.staged := by unfold standbyExit; split <;> simp
@[simp] theorem standbyExit_sys_settings  (s : State) : (standbyExit s).sys.settings = s.sys.settings := by unfold standbyExit; split <;> simp
@[simp] theorem standbyExit_sys_paired  (s : State) : (standbyExit s).sys.paired = s.sys.paired := by unfold standbyExit; split <;> simp
@[simp] theorem standbyExit_sys_coreRetired  (s : State) : (standbyExit s).sys.coreRetired = s.sys.coreRetired := by unfold standbyExit; split <;> simp
@[simp] theorem standbyExit_sys_takeover  (s : State) : (standbyExit s).sys.takeover = s.sys.takeover := by unfold standbyExit; split <;> simp
@[simp] theorem standbyExit_sys_ctrlStop  (s : State) : (standbyExit s).sys.ctrlStop = s.sys.ctrlStop := by unfold standbyExit; split <;> simp
@[simp] theorem standbyExit_sys_pfwLow  (s : State) : (standbyExit s).sys.pfwLow = s.sys.pfwLow := by unfold standbyExit; split <;> simp
@[simp] theorem standbyExit_sys_pfwConfirmed  (s : State) : (standbyExit s).sys.pfwConfirmed = s.sys.pfwConfirmed := by unfold standbyExit; split <;> simp
@[simp] theorem standbyExit_sys_resetLow  (s : State) : (standbyExit s).sys.resetLow = s.sys.resetLow := by unfold standbyExit; split <;> simp
@[simp] theorem standbyExit_sys_anomHeld  (s : State) : (standbyExit s).sys.anomHeld = s.sys.anomHeld := by unfold standbyExit; split <;> simp
@[simp] theorem standbyExit_sys_strandHeld  (s : State) : (standbyExit s).sys.strandHeld = s.sys.strandHeld := by unfold standbyExit; split <;> simp
@[simp] theorem standbyExit_sys_pause  (s : State) : (standbyExit s).sys.pause = s.sys.pause := by unfold standbyExit; split <;> simp
@[simp] theorem standbyExit_sys_pausedEvents  (s : State) : (standbyExit s).sys.pausedEvents = s.sys.pausedEvents := by unfold standbyExit; split <;> simp
@[simp] theorem standbyExit_sys_vsysLow  (s : State) : (standbyExit s).sys.vsysLow = s.sys.vsysLow := by unfold standbyExit; split <;> simp
@[simp] theorem standbyExit_sys_violLog  (s : State) : (standbyExit s).sys.violLog = s.sys.violLog := by unfold standbyExit; split <;> simp
@[simp] theorem standbyExit_sys_eventLog  (s : State) : (standbyExit s).sys.eventLog = s.sys.eventLog := by unfold standbyExit; split <;> simp
@[simp] theorem standbyExit_sys_usec  (s : State) : (standbyExit s).sys.usec = s.sys.usec := by unfold standbyExit; split <;> simp
@[simp] theorem standbyExit_sys_ltime  (s : State) : (standbyExit s).sys.ltime = s.sys.ltime := by unfold standbyExit; split <;> simp
@[simp] theorem standbyExit_sys_freeCtr  (s : State) : (standbyExit s).sys.freeCtr = s.sys.freeCtr := by unfold standbyExit; split <;> simp

end Sys2Proof.Machine
end

