-- ==== Sys2Proof/Laws/Strands.lean ====
section
/-! SUPPORT. Reads of a strand after writes: one lemma per accessor and update. -/
namespace Sys2Proof.Machine

@[simp] theorem vector_get_set_same {α : Type} {k : Nat} (v : Vector α k) (i : Fin k) (x : α) :
    (v.set i.val x i.isLt).get i = x := by
  show (v.set i.val x i.isLt)[i.val] = x
  exact Vector.getElem_set_self _

theorem vector_get_set_other {α : Type} {k : Nat} (v : Vector α k) {i j : Fin k} (h : j ≠ i) (x : α) :
    (v.set i.val x i.isLt).get j = v.get j := by
  show (v.set i.val x i.isLt)[j.val] = v[j.val]
  exact Vector.getElem_set_ne _ _ fun e => h (Fin.ext e.symm)

@[simp] theorem getS_modS_same (n : Fin 320) (f : Strand → Strand) (s : State) : getS (modS n f s) n = f (getS s n) := by
  simp only [getS, modS, Cap.modStrand, Cap.setStrand, Cap.strand, State.updCap_cap, vector_get_set_same]

theorem getS_modS_other {n m : Fin 320} (h : m ≠ n) (f : Strand → Strand) (s : State) : getS (modS n f s) m = getS s m := by
  simp only [getS, modS, Cap.modStrand, Cap.setStrand, Cap.strand, State.updCap_cap]
  exact vector_get_set_other _ h _

/-- A change of one strand leaves everything of the Capstan but its strands. -/
theorem modS_only (n : Fin 320) (f : Strand → Strand) (s : State) :
    modS n f s = s.updCap fun c => { c with strands := (modS n f s).cap.strands } := rfl

@[simp] theorem modS_running (n : Fin 320) (f : Strand → Strand) (s : State) : (modS n f s).cap.running = s.cap.running := rfl
@[simp] theorem modS_formeWords (n : Fin 320) (f : Strand → Strand) (s : State) : (modS n f s).cap.formeWords = s.cap.formeWords := rfl
@[simp] theorem modS_caseMem (n : Fin 320) (f : Strand → Strand) (s : State) : (modS n f s).cap.caseMem = s.cap.caseMem := rfl
@[simp] theorem modS_calls (n : Fin 320) (f : Strand → Strand) (s : State) : (modS n f s).cap.calls = s.cap.calls := rfl
@[simp] theorem modS_nextCall (n : Fin 320) (f : Strand → Strand) (s : State) : (modS n f s).cap.nextCall = s.cap.nextCall := rfl

/-! ## Registers and predicates -/

/-- A register after a write: the value written, but in w0 and in every other register. -/
@[simp] theorem getW_setW (i j : Fin 16) (v : Word) (t : Strand) :
    getW (setW i v t) j = if j = i ∧ j ≠ 0 then v else getW t j := by
  unfold getW setW
  by_cases hi : i = 0
  · subst hi; by_cases hj : j = 0 <;> simp [hj]
  · by_cases hj : j = 0
    · simp [hj]
    · by_cases h : j = i
      · subst h; simp [hi]
      · simp [hi, hj, h, vector_get_set_other _ h]

@[simp] theorem setW_pc (i : Fin 16) (v : Word) (t : Strand) : (setW i v t).pc = t.pc := by unfold setW; split <;> rfl
@[simp] theorem setW_p (i : Fin 16) (v : Word) (t : Strand) : (setW i v t).p = t.p := by unfold setW; split <;> rfl
@[simp] theorem getP_setW (i : Fin 16) (v : Word) (t : Strand) (j : Fin 4) : getP (setW i v t) j = getP t j := by
  unfold getP; rw [setW_p]

@[simp] theorem setP_w (i : Fin 4) (b : Bool) (t : Strand) : (setP i b t).w = t.w := by unfold setP; split <;> rfl
@[simp] theorem setP_pc (i : Fin 4) (b : Bool) (t : Strand) : (setP i b t).pc = t.pc := by unfold setP; split <;> rfl
@[simp] theorem getW_setP (i : Fin 4) (b : Bool) (t : Strand) (j : Fin 16) : getW (setP i b t) j = getW t j := by
  unfold getW; rw [setP_w]

/-- A predicate after a write: p0 stays true. -/
@[simp] theorem getP_setP (i j : Fin 4) (b : Bool) (t : Strand) :
    getP (setP i b t) j = if j = i ∧ j ≠ 0 then b else getP t j := by
  unfold getP setP
  by_cases hi : i = 0
  · subst hi; by_cases hj : j = 0 <;> simp [hj]
  · simp only [hi, if_false]
    generalize t.p = p
    revert hi
    revert i j b p
    decide

/-- Pair `i` after a write of it, `i` even and not 0. -/
theorem getX_setX (i : Fin 16) (v : BitVec 64) (t : Strand) (h : i ≠ 0) (e : i.val % 2 = 0) : getX (setX i v t) i = v := by
  have h1 : i + 1 ≠ 0 := by revert h e; revert i; decide
  have h2 : i ≠ i + 1 := by revert i; decide
  have h3 : i + 1 ≠ i := fun x => h2 x.symm
  simp only [getX, setX, getW_setW, h, h1, h2, ne_eq, not_false_eq_true, and_self, and_true, if_true, if_false, false_and]
  have : BitVec.ofNat 32 (v.toNat / 2 ^ 32) ++ v.truncate 32 = v := by
    apply BitVec.eq_of_toNat_eq
    have hv := v.isLt
    simp only [BitVec.toNat_append, BitVec.toNat_ofNat, BitVec.truncate_eq_setWidth, BitVec.toNat_setWidth]
    rw [Nat.mod_eq_of_lt (a := v.toNat / 2 ^ 32) (by omega), ← Nat.shiftLeft_add_eq_or_of_lt (by omega)]
    rw [Nat.shiftLeft_eq]; omega
  exact this

/-! ## Issue -/

@[simp] theorem charge_w (k : Nat) (t : Strand) : (t.charge k).w = t.w := by unfold Strand.charge; split <;> rfl
@[simp] theorem charge_p (k : Nat) (t : Strand) : (t.charge k).p = t.p := by unfold Strand.charge; split <;> rfl
@[simp] theorem charge_pc (k : Nat) (t : Strand) : (t.charge k).pc = t.pc := by unfold Strand.charge; split <;> rfl
@[simp] theorem charge_cls (k : Nat) (t : Strand) : (t.charge k).cls = t.cls := by unfold Strand.charge; split <;> rfl
@[simp] theorem charge_galley (k : Nat) (t : Strand) : (t.charge k).galley = t.galley := by unfold Strand.charge; split <;> rfl
@[simp] theorem advance_w (a k : Nat) (t : Strand) : (t.advance a k).w = t.w := by simp [Strand.advance]
@[simp] theorem advance_p (a k : Nat) (t : Strand) : (t.advance a k).p = t.p := by simp [Strand.advance]
@[simp] theorem advance_cls (a k : Nat) (t : Strand) : (t.advance a k).cls = t.cls := by simp [Strand.advance]
@[simp] theorem advance_galley (a k : Nat) (t : Strand) : (t.advance a k).galley = t.galley := by simp [Strand.advance]
@[simp] theorem advance_pc (a k : Nat) (t : Strand) : (t.advance a k).pc = t.pc + BitVec.ofNat 17 a := rfl
@[simp] theorem getW_advance (a k : Nat) (t : Strand) (i : Fin 16) : getW (t.advance a k) i = getW t i := by simp [getW]
@[simp] theorem getP_advance (a k : Nat) (t : Strand) (i : Fin 4) : getP (t.advance a k) i = getP t i := by simp [getP]
@[simp] theorem getX_advance (a k : Nat) (t : Strand) (i : Fin 16) : getX (t.advance a k) i = getX t i := by simp [getX]

/-- An instruction that the engine issues from strand `n`, with nothing that turns it away, a true guard and no fault, has
its effect. -/
theorem Issue.run_effect {n : Fin 320} {i : Issue} {s u : State} (hg : grant n s = some u)
    (hr : (getS u n).galley.bind (·.resolved) = none) (hb : atBreakpoint n u = false)
    (hc : ¬((getS u n).cls = 0 ∧ (getS u n).hmax < (getS u n).used + i.cycles))
    (hf : (getS u n).pc.toNat + i.words ≤ u.cap.formeWords) (he : i.early = none) (hp : getP (getS u n) i.guard = true)
    (hl : i.late u = none) : i.run n s = i.effect u := by
  unfold Issue.run Issue.core
  simp only [hg, hr, hb, hc, Nat.not_lt.mpr hf, he, hp, hl, Option.isSome_none, Bool.or_self, Bool.false_eq_true, if_false, Bool.not_true]

/-- With a false guard it only takes its issue cycles (R67). -/
theorem Issue.run_skip {n : Fin 320} {i : Issue} {s u : State} (hg : grant n s = some u)
    (hr : (getS u n).galley.bind (·.resolved) = none) (hb : atBreakpoint n u = false)
    (hc : ¬((getS u n).cls = 0 ∧ (getS u n).hmax < (getS u n).used + i.cycles))
    (hf : (getS u n).pc.toNat + i.words ≤ u.cap.formeWords) (he : i.early = none) (hp : getP (getS u n) i.guard = false) :
    i.run n s = modS n (Strand.advance i.words i.cycles) u := by
  unfold Issue.run Issue.core
  simp only [hg, hr, hb, hc, Nat.not_lt.mpr hf, he, hp, Option.isSome_none, Bool.or_self, Bool.false_eq_true, if_false, Bool.not_false, if_true]

/-- What the issue of a one-strand change leaves, by `Issued`. -/
theorem issued_of {a k : Nat} {t : Strand} {f : Strand → Strand} (hf : ∀ x : Strand, f x = { x with w := (f x).w, p := (f x).p }) :
    Issued k t (f (t.advance a k)) (getW (f (t.advance a k))) (getP (f (t.advance a k))) (t.pc + BitVec.ofNat 17 a) := by
  have e := hf (t.advance a k)
  refine ⟨fun _ => rfl, fun _ => rfl, by rw [e]; rfl, ?_, ?_, ?_⟩
  · intro h; rw [e]; simp [Strand.advance, Strand.charge, h]
  · intro h; rw [e]; simp [Strand.advance, Strand.charge, h]
  · rw [e]; unfold Strand.advance Strand.charge; split <;> rfl

theorem setW_shape (i : Fin 16) (v : Strand → Word) (x : Strand) :
    setW i (v x) x = { x with w := (setW i (v x) x).w, p := (setW i (v x) x).p } := by unfold setW; split <;> rfl

theorem setP_shape (i : Fin 4) (v : Strand → Bool) (x : Strand) :
    setP i (v x) x = { x with w := (setP i (v x) x).w, p := (setP i (v x) x).p } := by unfold setP; split <;> rfl

theorem setX_shape (i : Fin 16) (v : Strand → BitVec 64) (x : Strand) :
    setX i (v x) x = { x with w := (setX i (v x) x).w, p := (setX i (v x) x).p } := by
  unfold setX; rw [setW_shape (i + 1) fun _ => _, setW_shape i fun _ => _]

/-- A change of strand `n` alone is an `OwnStep`. -/
theorem ownStep_modS {n : Fin 320} {a k : Nat} {u : State} {f : Strand → Strand} {w : Fin 16 → Word} {p : Fin 4 → Bool}
    (hf : ∀ x : Strand, f x = { x with w := (f x).w, p := (f x).p })
    (hw : ∀ i, getW (f ((getS u n).advance a k)) i = w i) (hp : ∀ i, getP (f ((getS u n).advance a k)) i = p i) :
    OwnStep n a k w p u (modS n (fun t => f (t.advance a k)) u) := by
  refine ⟨?_, ⟨rfl, fun m h => getS_modS_other h _ _⟩⟩
  rw [getS_modS_same]
  have := issued_of (a := a) (k := k) (t := getS u n) hf
  rwa [funext hw, funext hp] at this

end Sys2Proof.Machine
end

