-- ==== Sys2Proof/Laws/Raise.lean ====
section
/-! SUPPORT. What raising an event can do: to a strand its state, its pending bits, its class-0 activation and the
resolution of its galley; of the Capstan's other parts, the engine and the queues of strands alone. -/
namespace Sys2Proof.Machine

theorem EventStrand.refl (a : Strand) : EventStrand a a := ⟨rfl, rfl, Iff.rfl, Iff.rfl, Iff.rfl⟩

theorem EventStrand.trans {a b c : Strand} (h : EventStrand a b) (k : EventStrand b c) : EventStrand a c :=
  ⟨by rw [k.rest, h.rest], k.held.trans h.held, h.dead.1.trans k.dead.1, h.dead.2.1.trans k.dead.2.1,
    h.dead.2.2.trans k.dead.2.2⟩

theorem EventCap.refl (c : Cap) : EventCap c c := ⟨rfl, fun _ => .refl _⟩

theorem EventCap.trans {a b c : Cap} (h : EventCap a b) (k : EventCap b c) : EventCap a c :=
  ⟨by rw [k.rest, h.rest], fun m => (h.strands m).trans (k.strands m)⟩

theorem Cap.strand_modStrand_same (n : Fin 320) (f : Strand → Strand) (c : Cap) : (c.modStrand n f).strand n = f (c.strand n) := by
  simp only [Cap.modStrand, Cap.setStrand, Cap.strand, vector_get_set_same]

theorem Cap.strand_modStrand_other {n m : Fin 320} (h : m ≠ n) (f : Strand → Strand) (c : Cap) :
    (c.modStrand n f).strand m = c.strand m := by
  simp only [Cap.modStrand, Cap.setStrand, Cap.strand, vector_get_set_other _ h]

theorem EventCap.mod {c : Cap} (n : Fin 320) {f : Strand → Strand} (h : EventStrand (c.strand n) (f (c.strand n))) :
    EventCap c (c.modStrand n f) := by
  refine ⟨rfl, fun m => ?_⟩
  by_cases e : m = n
  · subst e; rw [Cap.strand_modStrand_same]; exact h
  · rw [Cap.strand_modStrand_other e]; exact .refl _

theorem Cap.leave_event (n : Fin 320) (c : Cap) : EventCap c (c.leave n) := ⟨rfl, fun _ => .refl _⟩

theorem Cap.join_event (n : Fin 320) (c : Cap) : EventCap c (c.join n) := by
  unfold Cap.join; split <;> exact ⟨rfl, fun _ => .refl _⟩

/-- Making a strand READY that is neither DISABLED nor FAULTED nor HALTED. -/
theorem Cap.makeReady_event {hm : Nat} {fresh : Bool} {n : Fin 320} {c : Cap} (h1 : (c.strand n).st ≠ .disabled)
    (h2 : (c.strand n).st ≠ .faulted) (h3 : (c.strand n).st ≠ .halted) : EventCap c (c.makeReady hm fresh n) := by
  refine ((c.leave_event n).trans (EventCap.mod n ⟨rfl, rfl, ?_, ?_, ?_⟩)).trans (Cap.join_event n _)
  · exact ⟨fun h => absurd h h1, fun h => nomatch h⟩
  · exact ⟨fun h => absurd h h2, fun h => nomatch h⟩
  · exact ⟨fun h => absurd h h3, fun h => nomatch h⟩

theorem Cap.tryWake_event (hm : Nat) (n : Fin 320) (c : Cap) : EventCap c (c.tryWake hm n) := by
  unfold Cap.tryWake; simp only []
  split
  · next m hs _ =>
    split
    · exact Cap.makeReady_event (by rw [hs]; nofun) (by rw [hs]; nofun) (by rw [hs]; nofun)
    · exact .refl _
  · exact .refl _

theorem Cap.notify_event (hm : Nat) (ev : BitVec 8) (n : Fin 320) (c : Cap) : EventCap c (c.notify hm ev n) := by
  unfold Cap.notify; simp only []
  split
  · exact .refl _
  · split
    · exact .refl _
    · exact (EventCap.mod (f := fun t => { t with pending := t.pending ||| hitMask ev (c.strand n) }) n
        ⟨rfl, rfl, Iff.rfl, Iff.rfl, Iff.rfl⟩).trans (Cap.tryWake_event hm n _)

theorem Strand.activation_event (hm : Nat) (fresh : Bool) (t : Strand) : EventStrand t (t.activation hm fresh) :=
  ⟨rfl, rfl, Iff.rfl, Iff.rfl, Iff.rfl⟩

theorem Cap.resolve_event (hm : Nat) (r : Resolution) (n : Fin 320) (c : Cap) : EventCap c (c.resolve hm r n) := by
  unfold Cap.resolve; simp only []
  split
  · exact .refl _
  · next g hg =>
    split
    · exact .refl _
    · have k : EventCap c (c.modStrand n fun t => { t with galley := some { g with resolved := some r, back := t.st } }) :=
        EventCap.mod n ⟨rfl, by rw [hg]; rfl, Iff.rfl, Iff.rfl, Iff.rfl⟩
      have e : ((c.modStrand n fun t => { t with galley := some { g with resolved := some r, back := t.st } }).strand n).st =
          (c.strand n).st := by rw [Cap.strand_modStrand_same]
      split
      · exact k
      · exact k.trans (EventCap.mod n (Strand.activation_event ..))
      · exact k
      · exact k
      · exact k.trans (Cap.makeReady_event (by rw [e]; assumption) (by rw [e]; assumption) (by rw [e]; assumption))

theorem Cap.resolveOn_event (hm : Nat) (ev : BitVec 8) (w : Word) (call : Option Nat) (n : Fin 320) (c : Cap) :
    EventCap c (c.resolveOn hm ev w call n) := by
  unfold Cap.resolveOn
  split
  · exact .refl _
  · split
    · exact Cap.resolve_event ..
    · exact .refl _

theorem EventCap.foldl {β : Type} {g : Cap → β → Cap} (hg : ∀ c x, EventCap c (g c x)) (l : List β) (c : Cap) :
    EventCap c (l.foldl g c) := by
  induction l generalizing c with
  | nil => exact .refl _
  | cons x l ih => exact (hg c x).trans (ih _)

theorem Cap.reach_event (hm : Nat) (ev : BitVec 8) (w : Word) (call : Option Nat) (spent : Bool) (n : Fin 320) (c : Cap) :
    EventCap c (c.reach hm ev w call spent n) := by
  unfold Cap.reach
  refine EventCap.trans ?_ (Cap.notify_event hm ev n _)
  split
  · exact .refl _
  · exact Cap.resolveOn_event hm ev w call n c

theorem Cap.raise_event (hm : Nat) (ev : BitVec 8) (w : Word) (call : Option Nat) (spent : Bool) (c : Cap) :
    EventCap c (c.raise hm ev w call spent) :=
  EventCap.foldl (fun c n => Cap.reach_event hm ev w call spent n c) _ _

/-- What raising an event changes. -/
theorem raiseHw_event (ev w : Nat) (s : State) : EventCap s.cap (raiseHw ev w s).cap := by
  unfold raiseHw; rw [State.updCap_cap]; exact Cap.raise_event _ _ _ _ _ _

theorem raiseFw_event (ev w : Nat) (s : State) : EventCap s.cap (raiseFw ev w s).cap := by
  unfold raiseFw; split
  · exact .refl _
  · exact raiseHw_event ev w s

section
variable {a b : Strand} (h : EventStrand a b)
include h
theorem EventStrand.w : b.w = a.w := by rw [h.rest]
theorem EventStrand.p : b.p = a.p := by rw [h.rest]
theorem EventStrand.pc : b.pc = a.pc := by rw [h.rest]
theorem EventStrand.cls : b.cls = a.cls := by rw [h.rest]
end

end Sys2Proof.Machine
end

