-- ==== Sys2Proof/WellFormed.lean ====
section
/-! DEFINITION. Which commands the module's surroundings can send at all: the checks that the widths in `Instr` do not make.
The step runs an ill-formed command too; these are the bounds on lists and codes that the spec's frames set. -/
namespace Sys2Proof

/-- The field holds exactly `n` bytes. -/
def hasBytes (n : Nat) (l : List (BitVec 8)) : Bool := l.length == n

/-- The command codes of R386. -/
def hostCodes : List (BitVec 8) := [0x02, 0x0B, 0x05, 0x31, 0x32, 0x42, 0x4B]

/-- An unknown command code is one that R386 does not list. -/
def Framing.wf : Framing → Bool
  | .crc _ => true
  | .unknown code => !hostCodes.contains code

/-- LEN has four clocks of four bits (R385). -/
def hostWordsWf (words : List (BitVec 32)) (frame : Framing) : Bool := decide (words.length < 65536) && frame.wf

/-- A strand faults at most once while a FALLBACK_PUT executes (R61). -/
def noRepeats : List (Fin 320) → Bool
  | [] => true
  | n :: ns => !ns.contains n && noRepeats ns

/-- The other senders that a node can hear are the 256 channels and the hub (R256). -/
def Reception.wf (r : Reception) : Bool := decide (r.heard.length ≤ 257)

/-- A route has at most 7 entries (R258). -/
def PollFrame.wf (f : PollFrame) : Bool := decide (f.route.length ≤ 7)

/-- NEIGH has two entries, REQ 14 bytes and SLOT 32 (R259). -/
def AnswerFrame.wf (a : AnswerFrame) : Bool :=
  decide (a.route.length ≤ 7) && decide (a.neigh.length ≤ 2) && hasBytes 14 a.req && hasBytes 32 a.slot

/-- A chunk has 1,024 data bytes, a descriptor 256 table entries, 16 owner bytes and 64 of signature, a notice at most 14
records (R272, R273). -/
def ChunkBody.wf : ChunkBody → Bool
  | .descriptor _ _ table owner signature _ => table.length == 256 && hasBytes 16 owner && hasBytes 64 signature
  | .notice records signature _ => decide (records.length ≤ 14) && hasBytes 64 signature
  | .data bytes => decide (bytes.length ≤ 1024)

/-- A P-256 public key has 64 bytes (R353, KEY_PUB_LEN). -/
def JoinFrame.wf : JoinFrame → Bool
  | .hubKey ephemeral site _ => hasBytes 64 ephemeral && hasBytes 64 site
  | .joined _ _ | .full _ | .leave | .nodeSecret _ => true

/-- The commands that the surroundings can send. The commands of the last arm carry operands whose widths are all that the
spec bounds. -/
def Instr.wf : Instr → Bool
  | .capstanDoubleFault faulted => noRepeats faulted
  | .poll f r => f.wf && r.wf
  | .answer a r => a.wf && r.wf
  | .chunk (some f) => f.body.wf
  | .joinFrame f => f.frame.wf
  | .selectApplication apdu => decide (apdu.length ≤ 261)
  | .updateBinary _ data _ => decide (data.length ≤ 255)
  | .write _ words frame => hostWordsWf words frame
  | .qpush _ items frame => hostWordsWf items frame
  | .swrite _ words frame => hostWordsWf words frame
  | .pairingReply ephemeral ledgerKey _ => hasBytes 64 ephemeral && hasBytes 64 ledgerKey
  | _ => true

end Sys2Proof
end

