-- ==== Sys2Proof/Tests/Slice0.lean ====
section
/-! SUPPORT. The author's own tests: what `Instr.wf` refuses, one step of a few commands with the result the spec gives, and for
every statement of `Obligations.lean` that has hypotheses, states and operands that meet them. -/
set_option Elab.async false

namespace Sys2Proof.Tests
open Sys2Proof Sys2Proof.Machine

/-! ## Ill-formed commands -/

theorem test_wf_double_fault_repeats : (Instr.capstanDoubleFault [3, 5, 3]).wf = false := by decide
theorem test_wf_double_fault : (Instr.capstanDoubleFault [3, 5, 4]).wf = true := by decide
theorem test_wf_unknown_code_known : (Instr.write 0 [] (.unknown 0x42)).wf = false := by decide
theorem test_wf_unknown_code : (Instr.write 0 [] (.unknown 0x43)).wf = true := by decide
theorem test_wf_words_too_many (ws : List (BitVec 32)) (h : ws.length = 65536) : (Instr.write 0 ws (.crc 0)).wf = false ∧
    (Instr.qpush 0 ws (.crc 0)).wf = false ∧ (Instr.swrite 0 ws (.crc 0)).wf = false := by
  simp [Instr.wf, hostWordsWf, h]
theorem test_wf_apdu_too_long : (Instr.selectApplication (List.replicate 262 0)).wf = false := by decide +kernel
theorem test_wf_update_too_long : (Instr.updateBinary 0 (List.replicate 256 0) 0).wf = false := by decide +kernel

/-- `n` bytes. -/
def zeros (n : Nat) : List Byte := List.replicate n 0

theorem test_wf_keys_short :
    (List.map Instr.wf [.joinFrame ⟨.hubKey (zeros 63) (zeros 64) true, []⟩, .joinFrame ⟨.hubKey (zeros 64) [] true, []⟩,
      .pairingReply [] (zeros 64) ⟨1, []⟩, .pairingReply (zeros 64) [] ⟨1, []⟩, .pairingReply (zeros 64) (zeros 64) ⟨1, []⟩]) =
    [false, false, false, false, true] := by decide +kernel

/-- A chunk frame around a body. -/
def chunkOf (b : ChunkBody) : Instr := .chunk (some ⟨1, true, 0, 1, 0, 2, 0, b, []⟩)

theorem test_wf_chunk_too_long : (chunkOf (.data (zeros 1025))).wf = false := by decide +kernel
theorem test_wf_descriptor : (chunkOf (.descriptor 9 0 (List.replicate 256 0) [] (zeros 64) true)).wf = false ∧
    (chunkOf (.descriptor 9 0 (List.replicate 256 0) (zeros 16) (zeros 64) true)).wf = true := by decide +kernel
theorem test_wf_notice_records : (chunkOf (.notice (List.replicate 15 []) (zeros 64) true)).wf = false := by decide +kernel

/-- An answer with nothing in it but its three lists, and what is measured of it. -/
def answerOf (neigh : List (BitVec 8 × BitVec 8)) (req slot : List (BitVec 8)) (heard : List (BitVec 8 × BitVec 8)) : Instr :=
  .answer { hops := 0, route := [], round := 0, lqSnr := 0, lqUsable := 0, lqBlanked := 0, tones := 0, neigh, state := 0
            amps := #v[0, 0, 0], exporting := 0, evReq := 0, phase := 0, req, cost := 0, delivNext := 0, delivId := 0
            slotCtrl := 0, slot, tag := 0 }
    { tones := 0, snr := 0, input := [], sinceZc := 0, heard }

theorem test_wf_answer : (answerOf [(1, 9)] (List.replicate 14 0) (List.replicate 32 0) []).wf = true := by decide
theorem test_wf_answer_neigh : (answerOf [(1, 9), (2, 9), (3, 9)] (List.replicate 14 0) (List.replicate 32 0) []).wf = false := by
  decide
theorem test_wf_answer_req : (answerOf [] (List.replicate 13 0) (List.replicate 32 0) []).wf = false := by decide
theorem test_wf_answer_slot : (answerOf [] (List.replicate 14 0) (List.replicate 33 0) []).wf = false := by decide
theorem test_wf_answer_heard :
    (answerOf [] (List.replicate 14 0) (List.replicate 32 0) (List.replicate 258 (0, 0))).wf = false := by decide +kernel
theorem test_wf_poll_heard : ∀ f r, r.heard.length = 258 → (Instr.poll f r).wf = false := fun f r h => by
  simp [Instr.wf, Reception.wf, h]

/-! ## Small states -/

/-- The module in service in STANDALONE. -/
def lab : State := State.reset.updSys fun y => { y with mode := .standalone, booted := true }

/-- The same, commissioned and with a site allocation: nothing holds its outlet. -/
def labFree : State := [(Reg.SYS_STATUS_UNCOMMISSIONED, 0), (Reg.ALLOC_SA_WRITTEN, 1)].foldl (fun s p => setF p.1 p.2 s) lab

/-- The module in service in another role. -/
def labAs (r : Role) : State := State.reset.updSys fun y => { y with mode := roleMode r, role := r, booted := true }

/-- Register fields at given values. -/
def put (l : List (Field × Nat)) (s : State) : State := l.foldl (fun s p => setF p.1 p.2 s) s

/-- Strand 0 holds the engine. -/
def onEngine (t : Strand) (s : State) : State :=
  modS 0 (fun _ => t) (s.updCap fun c => { c with running := some 0, formeWords := 100 })

/-- Strand 0, not on the engine. -/
def withStrand (t : Strand) (s : State) : State := modS 0 (fun _ => t) s

@[simp] theorem getS_onEngine (t : Strand) (s : State) : getS (onEngine t s) 0 = t := getS_modS_same 0 _ _

@[simp] theorem getS_withStrand (t : Strand) (s : State) : getS (withStrand t s) 0 = t := getS_modS_same 0 _ _

/-- A strand that holds the engine with turn or class-0 cycles left issues its instruction. -/
theorem issues_onEngine (t : Strand) (s : State) (words cycles : Nat) (hf : fCap s ≠ 0) (h0 : s.cap.q0 = [])
    (ht : t.cls = 0 ∨ t.turnLeft ≠ 0) (hg : t.galley.bind (·.resolved) = none)
    (hb : ∀ k < 4, getB s (Reg.CAP_BP_CTL_EN k) = false) (hc : ¬(t.cls = 0 ∧ t.hmax < t.used + cycles))
    (hw : t.pc.toNat + words ≤ 100) : Issues 0 words cycles (onEngine t s) (onEngine t s) where
  granted := by
    have e : (onEngine t s).cap.strand 0 = t := getS_onEngine t s
    have r : (onEngine t s).cap.running = some 0 := rfl
    have q : (onEngine t s).cap.q0 = [] := h0
    have f : fCap (onEngine t s) ≠ 0 := hf
    have sch : ∀ turn ws, Cap.schedule turn ws (onEngine t s).cap = (onEngine t s).cap := by
      intro turn ws
      have d : (onEngine t s).cap.dueTurnEnd = (onEngine t s).cap := by
        simp only [Cap.dueTurnEnd, r, e]
        exact if_neg fun h => ht.elim h.1 fun x => x h.2
      simp [Cap.schedule, d, r, q]
    simp [grant, f, State.updCap, sch, r]
  unresolved := by simpa using hg
  noBreak := by
    have : ∀ k, getB (onEngine t s) (Reg.CAP_BP_CTL_EN k) = getB s (Reg.CAP_BP_CTL_EN k) := fun _ => rfl
    simp only [atBreakpoint, Bool.and_eq_false_iff, List.any_eq_false, List.mem_range, this]
    right; intro k hk; simp [hb k hk]
  budget := by simpa using hc
  inForme := by rw [getS_onEngine]; exact hw

/-- The body of an instruction: guard, RD, RA, and the low 16 bits. -/
def body (g rd ra low : Nat) : BitVec 26 := BitVec.ofNat 26 (g * 2 ^ 24 + rd * 2 ^ 20 + ra * 2 ^ 16 + low)

/-- A strand of class 3 in its turn, with a window of one unit. -/
def str : Strand := { st := .running, turnLeft := 8, winBase := 2, winSize := 1, w := #v[0, 8, 60, 3, 4, 5, 6, 7, 1, 1, 1, 1, 1, 1, 1, 1] }

/-- A galley that waits for event 0x80. -/
def openGalley : Galley := { ev := 0x80, exp := 1, pd := 1, alt := 5, tmoEnd := 1000, ckW := str.w, ckP := 1, limit := 16 }

/-- The same strand, speculative. -/
def spec : Strand := { str with galley := some openGalley }

/-- The same strand in class 0. -/
def str0 : Strand := { str with cls := 0 }

theorem issues_str (words cycles : Nat) (hw : words ≤ 100) : Issues 0 words cycles (onEngine str lab) (onEngine str lab) :=
  issues_onEngine str lab words cycles (by decide) rfl (Or.inr (by decide)) rfl (by decide) (fun h => absurd h.1 (by decide))
    (by simpa [str] using hw)

theorem issues_spec (words cycles : Nat) (hw : words ≤ 100) : Issues 0 words cycles (onEngine spec lab) (onEngine spec lab) :=
  issues_onEngine spec lab words cycles (by decide) rfl (Or.inr (by decide)) rfl (by decide) (fun h => absurd h.1 (by decide))
    (by simpa [spec, str] using hw)

theorem issues_str0 : Issues 0 1 1 (onEngine str0 lab) (onEngine str0 lab) :=
  issues_onEngine str0 lab 1 1 (by decide) rfl (Or.inl rfl) rfl (by decide) (by decide) (by decide)

/-- The module in service with the installer's presence window open. -/
def labInstaller : State := put [(Reg.AO_PRES_STAT_INSTALLER, 1), (Reg.AO_PRES_STAT_LEFT, 300)] lab

/-- What `HostServes` asks, as a value to compute. -/
def hostServes (addr : Nat) (s : State) : Bool :=
  hostUp s && s.sys.mode != .standby && portStop addr s == none

theorem serves_of {addr : Nat} {s : State} (h : hostServes addr s = true) : HostServes addr s := by
  simp only [hostServes, Bool.and_eq_true, bne_iff_ne, ne_eq, beq_iff_eq] at h
  exact ⟨h.1.1, h.1.2, h.2⟩

/-- A call of strand 0 in firmware. -/
def callOf (num : Nat) (args : List Word) : Call := { id := 0, strand := 0, num, args, async := none }

/-- The one call waits to be served. -/
def calling (num : Nat) (args : List Word) (s : State) : State := s.updCap fun c => { c with calls := [callOf num args] }

theorem serves_call (num : Nat) (args : List Word) (s : State) (hp : s.sys.pause = false) (ht : s.sys.takeover = false) :
    ServesCall num (callOf num args) (calling num args s) :=
  ⟨hp, ht, by simp [calling, callOf, State.updCap], rfl⟩

theorem serves_free (num : Nat) (args : List Word) (s : State) (hp : s.sys.pause = false) (ht : s.sys.takeover = false)
    (hh : (heldCalls s).contains 0 = false) : ServesFree num (callOf num args) (calling num args s) :=
  ⟨hp, ht, by
    have h0 : (heldCalls (calling num args s)).contains 0 = false := hh
    show [callOf num args].find? _ = _
    rw [List.find?_cons_of_pos]
    show (num == num && true && !(heldCalls (calling num args s)).contains 0) = true
    rw [h0]; simp, rfl⟩

theorem getD_lt (l : List Nat) (k r : Nat) (hk : 0 < k) (h : ∀ x ∈ l, x < k) : l.getD r 0 < k := by
  rw [List.getD_eq_getElem?_getD]
  cases e : l[r]? with
  | none => exact hk
  | some x => exact h x (List.mem_of_getElem? e)

theorem slotAt_modSlot (i : Nat) (f : Slot → Slot) (s : State) (h : i < 64) : slotAt (modSlot i f s) i = f (slotAt s i) := by
  simp only [slotAt, modSlot, h, dite_true, State.updKey]
  exact vector_get_set_same _ ⟨i, h⟩ _

/-- A working key finds a slot while its engine has fewer than 8 in use and a slot is free. -/
theorem place_finds (w : WorkKey) (s : State) (hu : engineUse w.engine s < 8) (hf : freeSlots s ≠ []) :
    ∃ i u, place w s = (some i, u) ∧ i < 64 ∧ (slotAt u i).work = some w := by
  unfold place
  split
  · rename_i i e
    have := List.find?_some e
    exact ⟨i, s, rfl, by simpa using List.mem_of_find?_eq_some e, by simpa using this⟩
  · rw [if_neg (by simp [hf, hu])]
    have lt : (pickOne (freeSlots s) s).1 < 64 :=
      getD_lt _ 64 _ (by decide) fun x hx => by simpa using (List.mem_filter.mp hx).1
    exact ⟨_, _, rfl, lt, by rw [slotAt_modSlot _ _ _ lt]⟩

/-- Every slot is retired. -/
def wornKeys (s : State) : State := s.updKey fun k => { k with retired := BitVec.allOnes 64 }

/-- The metrology window open. -/
def labMetro : State := put [(Reg.AO_PRES_STAT_INSTALLER, 1), (Reg.AO_PRES_STAT_METRO, 1), (Reg.AO_PRES_STAT_LEFT, 300)] lab

/-- No free block is left. -/
def wornOut (s : State) : State := s.updStore fun x => { x with dies := x.dies.map fun d => { d with free := 0 } }

/-- With no key in use and no slot free, a working key finds none. -/
theorem place_full (w : WorkKey) (s : State) (hn : ∀ i, (slotAt s i).work = none) (hf : freeSlots s = []) :
    place w s = (none, s) := by
  unfold place
  rw [show (List.range 64).find? (fun i => (slotAt s i).work == some w) = none by
    rw [List.find?_eq_none]; intro i _; simp [hn i]]
  exact if_pos (Or.inr hf)

theorem bytesAt_eq (d : Byte) (m : NMap Byte) : ∀ n a, bytesAt d m a n = (List.range n).map fun i => byteAt d m (a + i)
  | 0, _ => rfl
  | n + 1, a => by
    rw [List.range_succ_eq_map, bytesAt, bytesAt_eq d m n (a + 1)]
    simp only [List.map_cons, List.map_map, Nat.add_zero, List.cons.injEq, true_and]
    exact List.map_congr_left fun i _ => by simp only [Function.comp_apply, Nat.succ_eq_add_one]; congr 1; omega

/-- Bytes written read back. -/
theorem bytesAt_putBytes (d : Byte) {m : NMap Byte} (hm : mapWf d m = true) (a : Nat) (bs : List Byte) :
    bytesAt d (putBytes d m a bs) a bs.length = bs := by
  rw [bytesAt_eq]
  refine List.ext_getElem (by simp) fun i h1 h2 => ?_
  simp only [List.getElem_map, List.getElem_range, byteAt_putBytes_same d hm a bs h2]

theorem leNat_leBytes4 (v : Nat) (h : v < 2 ^ 32) : leNat (leBytes v 4) = v := by
  simp only [leBytes, leNat, BitVec.toNat_ofNat]; omega

/-- A hub in service. -/
def labHub : State := labAs .hub

/-- A paired head in service. -/
def labHead : State := (labAs .head).updSys fun y => { y with paired := true }

/-- Every channel is registered. -/
def labFull : State := labHub.updLink fun l => { l with nodes := Vector.replicate 256 { reg := true, ident := 8 } }

theorem nodeAt_all {x : Node} {s : State} (h : s.link.nodes = Vector.replicate 256 x) {c : Nat} (hc : c < 256) : nodeAt c s = x := by
  simp [nodeAt, h, hc, Vector.get]

/-- A field transaction at the tag, as `f` leaves it. -/
def tagIn (f : Tag → Tag) : State := lab.updTag fun t => f { t with inTx := true }

/-- A session is open. -/
def inSession (s : State) : State :=
  put [(Reg.LED_SESSION_NUMBER, 1)]
    (s.updLed fun l => { l with opened := some { number := 1, start := 0, entry := 0, contract := 0, impOpen := 0 }
                                cur := { l.cur with sess := some { number := 1, start := 0, entry := 0, contract := 0, impOpen := 0 } } })

/-- Strand 0, with a window of one unit. -/
def labStrand (s : State) : State := withStrand str s

/-- A module that has been made and has no power. -/
def labOff : State := State.reset.updSys fun y => { y with mode := .noPower, mainGood := false, vbackOk := false }

/-! ## The hypotheses of the statements: the Capstan -/

theorem test_meets_ThreeRegisterArithmetic : Issues 0 1 1 (onEngine str lab) (onEngine str lab) ∧
    getP str (fieldG (body 0 1 2 0x3000)) = true ∧ illA (body 0 1 2 0x3000) = false :=
  ⟨issues_str 1 1 (by decide), by decide +kernel⟩

theorem test_meets_ImmediateArithmetic : Issues 0 1 1 (onEngine str lab) (onEngine str lab) ∧
    (getP str (fieldG (body 0 1 2 0x3FFF)) = true ∧ fieldM (body 0 1 2 0x3FFF) = 0) ∧
    fieldImm (body 0 1 2 31) < 32 ∧ fieldImm (body 0 1 0 0) = 0 ∧ fieldRA (body 0 1 0 0) = 0 ∧ str.pc.toNat + 2 ≤ 100 :=
  ⟨issues_str 1 1 (by decide), by decide +kernel⟩

theorem test_meets_BitFieldsAndPairs : Issues 0 1 1 (onEngine str lab) (onEngine str lab) ∧
    (bits (body 0 1 2 0x3FF).toNat 10 4 = 0 ∧ fieldM (body 0 1 2 0x3FF) = 0) ∧
    (bits (body 0 1 2 0x43FF).toNat 10 4 = 0 ∧ fieldM (body 0 1 2 0x43FF) = 1) ∧
    ((fieldRD (body 0 14 2 0x4000)).val % 2 = 0 ∧ illA (body 0 14 2 0x4000) = false ∧
      (fieldRA (body 0 14 2 0x4000)).val % 2 = 0 ∧ (fieldRB (body 0 14 2 0x4000)).val % 2 = 0) ∧
    ((fieldRD (body 0 14 2 63)).val % 2 = 0 ∧ fieldM (body 0 14 2 63) = 0 ∧ fieldImm (body 0 14 2 63) < 64) :=
  ⟨issues_str 1 1 (by decide), by decide +kernel⟩

theorem test_meets_ComparesWritePredicates : Issues 0 1 1 (onEngine str lab) (onEngine str lab) ∧
    (let b := body 0 3 2 0x4B00; fieldLow8 b = 0 ∧ bits b.toNat 22 2 = 0 ∧ fieldF b = 11 ∧ (fieldRA b).val % 2 = 0 ∧
      (fieldRB b).val % 2 = 0) ∧
    (fieldRD (body 0 11 2 0x7FFF)).val = 11 ∧
    (let b := body 0 3 2 0x3F00; fieldLow8 b = 0 ∧ bits b.toNat 22 2 = 0 ∧ bits b.toNat 18 2 = 0 ∧ bits b.toNat 14 2 = 0) :=
  ⟨issues_str 1 1 (by decide), by decide +kernel⟩

theorem test_meets_FalseGuardHasNoEffect : Issues 0 1 2 (onEngine str lab) (onEngine str lab) ∧
    getP str (fieldG (body 1 1 2 0x3000)) = false ∧ (opAdd 0 (body 1 1 2 0x3000)).early = none ∧
    (let t := { str0 with used := 64 }
     grant 0 (onEngine t lab) = some (onEngine t lab) ∧ t.galley = none ∧ atBreakpoint 0 (onEngine t lab) = false ∧ t.cls = 0 ∧
     t.st = .running ∧ t.hmax < t.used + 1 ∧ t.fbEn = false) :=
  ⟨issues_str 1 2 (by decide), by decide, by decide,
    (issues_onEngine _ lab 1 0 (by decide) rfl (Or.inl rfl) rfl (by decide) (by decide) (by decide)).granted, rfl, by decide, rfl, rfl,
    by decide, rfl⟩

theorem test_meets_LoadsReadTheWindow : Issues 0 1 1 (onEngine str lab) (onEngine str lab) ∧
    fieldM (body 0 4 2 0) = 0 ∧ (getW str 2).toNat + 4 = windowBytes str ∧ (fieldRD (body 0 4 1 48)).val % 2 = 0 ∧
    (getW str 1).toNat + 48 + 8 = windowBytes str ∧ str.galley = none :=
  ⟨issues_str 1 1 (by decide), by decide +kernel⟩

theorem test_meets_StoresWriteCaseMemory : Issues 0 1 1 (onEngine str lab) (onEngine str lab) ∧
    Memory.wf (onEngine str lab) = true ∧ str.galley = none ∧ (getW str 2).toNat + 4 = windowBytes str ∧
    (getW str 1).toNat + 48 + 8 = windowBytes str :=
  ⟨issues_str 1 1 (by decide), by decide +kernel⟩

theorem test_meets_SpeculativeStoresAreHeld : Issues 0 1 1 (onEngine spec lab) (onEngine spec lab) ∧
    speculative (onEngine spec lab) 0 = true ∧ entryFree 0 (onEngine spec lab) = true ∧
    (getW spec 2).toNat + 4 = windowBytes spec ∧ (fieldRD (body 0 4 1 48)).val % 2 = 0 ∧
    (getW spec 1).toNat + 48 + 8 = windowBytes spec :=
  ⟨issues_spec 1 1 (by decide), by decide +kernel⟩

theorem test_meets_BranchesAndYield : Issues 0 1 1 (onEngine str lab) (onEngine str lab) ∧
    (bits (body 0 1 0 99).toNat 17 3 = 0 ∧ (str.pc + (body 0 1 0 99).truncate 17).toNat = 99) ∧
    (bits (body 0 1 2 0).toNat 0 16 = 0 ∧ ((getW str 2).truncate 17).toNat < 100) ∧
    bits (body 0 0 0 0).toNat 0 24 = 0 ∧ str.cls ≠ 0 ∧ Issues 0 1 1 (onEngine str0 lab) (onEngine str0 lab) ∧ str0.cls = 0 :=
  ⟨issues_str 1 1 (by decide), by decide +kernel, by decide +kernel, by decide +kernel, by decide, issues_str0, rfl⟩

theorem test_meets_WaitTakesTheLowestSlot :
    (let t := { str with timerFired := true }
     Issues 0 1 1 (onEngine t lab) (onEngine t lab) ∧ bits (body 0 0 0 0x1FF).toNat 9 15 = 0 ∧ fieldMask (body 0 0 0 0x1FF) ≠ 0 ∧
     (fieldMask (body 0 0 0 0x1FF)).getLsbD 8 = true ∧ t.timerFired = true ∧ t.pending = 0) ∧
    (let t := { str with pending := 0x81 }
     Issues 0 1 1 (onEngine t lab) (onEngine t lab) ∧ (fieldMask (body 0 0 0 0x180)).getLsbD 7 = true ∧
     t.pending.getLsbD 7 = true ∧ ∀ j, j < 7 → (fieldMask (body 0 0 0 0x180)).getLsbD j = false) ∧
    str.pending = 0 ∧ str.timerFired = false :=
  ⟨⟨issues_onEngine _ lab 1 1 (by decide) rfl (Or.inr (by decide)) rfl (by decide) (fun h => absurd h.1 (by decide)) (by decide),
      by decide +kernel⟩,
    ⟨issues_onEngine _ lab 1 1 (by decide) rfl (Or.inr (by decide)) rfl (by decide) (fun h => absurd h.1 (by decide)) (by decide),
      by decide +kernel⟩, by decide⟩

theorem test_meets_EventsReachStrands :
    let t : Strand := { st := .waiting, enOn := 0x80, subOn := #v[0, 0, 0, 0, 0, 0, 0, 0x10], waitMask := some 0x80 }
    t.st ≠ .disabled ∧ Strand.reset.st = .disabled ∧ t.st = .waiting ∧ t.waitMask = some 0x80 ∧
    (0x80 : BitVec 9).getLsbD 7 = true ∧ t.enOn.getLsbD 7 = true ∧ t.subOn.get 7 = 0x10 ∧
    (let g := { openGalley with ev := 0x10 }
     g.resolved = none ∧ g.call = none ∧ spec.galley = some openGalley ∧ openGalley.ev ≠ g.ev) ∧
    (listedEvent 0x05 = false ∧ listedEvent 0x10 = true ∧ firmwareEvent 0x10 = false ∧ listedEvent 0x2C = true ∧
      firmwareEvent 0x2C = true) := by decide +kernel

theorem test_meets_PortInstructions :
    Issues 0 1 1 (onEngine str lab) (onEngine str lab) ∧ Issues 0 1 1 (onEngine spec lab) (onEngine spec lab) ∧
    -- GET of STR_USEC, of STORE_READ; PUT of STR_TIMER, held of OUT_ON; PUTS of ALLOC_CURRENT
    (fieldPDp (body 0 1 2 0x004) = 0 ∧ fieldMp (body 0 1 2 0x004) = 0 ∧ getFaults 0x004 = false ∧
      portGet 0 0x004 60 (onEngine str lab) = some 0) ∧
    (fieldPort (body 0 1 2 0xD00) = 0xD00 ∧ getFaults 0xD00 = false) ∧
    (fieldPort (body 0 1 2 0x406) = 0x406 ∧ getFaults 0x406 = false ∧ portGet 0 0x406 60 (onEngine str lab) = none) ∧
    (fieldMp (body 0 1 2 0x1000) = 1 ∧ putFaults 0x000 = false ∧ putHeld 0 0x000 0 18 (onEngine str lab) = false) ∧
    (fieldMp (body 0 1 2 0x403) = 0 ∧ putFaults 0x403 = false ∧ putHeld 0 0x403 60 8 (onEngine spec lab) = true ∧
      entryFree 0 (onEngine spec lab) = true) ∧ ¬(str.cls = 0 ∧ str.hmax < str.used + 2) ∧
    (∃ i, portInfo 0x20B = some i ∧ i.puts = .lower) := by
  refine ⟨issues_str 1 1 (by decide), issues_spec 1 1 (by decide), ?_⟩
  and_intros
  all_goals first | decide +kernel | exact ⟨_, rfl, rfl⟩

/-- Queue 3 enabled, with these items. -/
def labQueue (xs : List Word) : State :=
  put [(Reg.Q_CTRL_EN 3, 1), (Reg.Q_CTRL_PROD 3, 1)] (modQ 3 (fun x => { x with items := xs }) lab)

theorem test_meets_QueueInstructions :
    (∀ xs, Issues 0 1 1 (onEngine str (labQueue xs)) (onEngine str (labQueue xs))) ∧
    (fieldMp (body 0 4 0 0xC03) = 0 ∧ fieldRA (body 0 4 0 0xC03) = 0 ∧ queuePort (fieldPort (body 0 4 0 0xC03)) = some 3 ∧
      str.galley = none ∧ (getQ (onEngine str (labQueue [])) 3).taker = none) ∧
    itemType (getW { str with w := Vector.replicate 16 0xF0000000 } 4) = 0xF ∧
    itemType (getW str 4) ≠ 0xF ∧ 0 < qRoom (onEngine str (labQueue [])) 3 ∧ qRoom (onEngine str (put [(Reg.Q_CTRL_EN 3, 0)] lab)) 3 = 0 ∧
    (getQ (onEngine str (labQueue [])) 3).items = [] ∧ (getQ (onEngine str (labQueue [7, 8])) 3).items = 7 :: [8] :=
  ⟨fun xs => issues_onEngine str _ 1 1 (show fCap lab ≠ 0 by decide) rfl (Or.inr (by decide)) rfl
      (show ∀ k < 4, getB (labQueue []) (Reg.CAP_BP_CTL_EN k) = false by decide +kernel)
      (fun h => absurd h.1 (by decide)) (by decide), by decide +kernel⟩

/-- Strand 0 has four calls outstanding. -/
def labCalls : State :=
  lab.updCap fun c => { c with
    nextCall := 4, calls := [0, 1, 2, 3].map fun i => { id := i, strand := 0, num := 1, args := [], async := some (0x80, 0) } }

theorem issues_labCalls : Issues 0 1 1 (onEngine str labCalls) (onEngine str labCalls) :=
  issues_onEngine str _ 1 1 (by decide) rfl (Or.inr (by decide)) rfl (by decide) (fun h => absurd h.1 (by decide)) (by decide)

theorem test_meets_ServiceInstructions :
    Issues 0 1 1 (onEngine str lab) (onEngine str lab) ∧ Issues 0 1 1 (onEngine spec lab) (onEngine spec lab) ∧
    Issues 0 1 1 (onEngine str labCalls) (onEngine str labCalls) ∧
    (let b := body 0 0 0 0x600
     fieldM b = 0 ∧ fieldRD b = 0 ∧ fieldRA b = 0 ∧ (serviceClass (fieldImm b)).isSome = true ∧
     callHeld 0 b (onEngine str lab) = false ∧ callHeld 0 b (onEngine spec lab) = true ∧ entryFree 0 (onEngine spec lab) = true) ∧
    (let b := body 0 0xB 0xF 0x002
     fieldEvSvca b = 0xBF ∧ fieldM b = 0 ∧ (serviceClass (fieldImm b)).isSome = true ∧
     (getW { str with w := Vector.replicate 16 63 } 7).toNat / 16 * 16 + 16 = windowBytes str ∧
     callHeld 0 b (onEngine str lab) = false ∧ outstanding 0 (onEngine str lab) < 4 ∧ outstanding 0 (onEngine str labCalls) = 4 ∧
     callHeld 0 b (onEngine spec lab) = true) ∧
    (let b := body 0 4 0 0xC0
     fieldM b = 0 ∧ fieldRA b = 0 ∧ bits b.toNat 8 6 = 0 ∧ bits b.toNat 0 8 = 0xC0 ∧ speculative (onEngine str lab) 0 = false ∧
     speculative (onEngine spec lab) 0 = true) :=
  ⟨issues_str 1 1 (by decide), issues_spec 1 1 (by decide),
    issues_labCalls, by decide +kernel, by decide +kernel, by decide +kernel⟩

theorem test_meets_GalleyOpensAndAccumulates :
    Issues 0 1 1 (onEngine str lab) (onEngine str lab) ∧ Issues 0 1 1 (onEngine spec lab) (onEngine spec lab) ∧
    (str.pc.toNat + 2 ≤ 100 ∧ fieldTmo 1 ≠ 0 ∧ str.galley = none ∧
      unusedCalls 0 (fieldEvGset (body 0 4 0 0)) (onEngine str lab) = []) ∧
    (Issues 0 1 1 (onEngine str labCalls) (onEngine str labCalls) ∧ fieldEvGset (body 0 2 0 0) = 0x80 ∧
      (unusedCalls 0 0x80 (onEngine str labCalls)).length = 4) ∧
    (let b := body 0 0 4 2
     fieldM b = 0 ∧ fieldRD b = 0 ∧ (fieldRA b).val % 2 = 0 ∧ fieldImm b = 2 ∧ speculative (onEngine str lab) 0 = false ∧
     speculative (onEngine spec lab) 0 = true ∧ hasAcc 2 (heldOf (onEngine spec lab) 0) = false ∧
     entryFree 0 (onEngine spec lab) = true) ∧
    (let t := { spec with galley := some { openGalley with held := [⟨.acc 2 7, false, 0⟩] } }
     Issues 0 1 1 (onEngine t lab) (onEngine t lab) ∧ speculative (onEngine t lab) 0 = true ∧
     hasAcc 2 (heldOf (onEngine t lab) 0) = true) :=
  ⟨issues_str 1 1 (by decide), issues_spec 1 1 (by decide), by decide +kernel, ⟨issues_labCalls, by decide +kernel⟩,
    by decide +kernel, issues_onEngine _ lab 1 1 (by decide) rfl (Or.inr (by decide)) rfl (by decide) (fun h => absurd h.1 (by decide)) (by decide),
    by decide +kernel⟩

theorem test_meets_StrandFaultsStopTheStrand :
    Issues 0 1 1 (onEngine str lab) (onEngine str lab) ∧ Issues 0 1 1 (onEngine spec lab) (onEngine spec lab) ∧
    Memory.wf (onEngine str lab) = true ∧ str.st ≠ .disabled ∧ str.st ≠ .faulted ∧ str.fbEn = false ∧
    { str with fbEn := true }.fbEn = true ∧ illA (body 0 1 2 0x3001) = true ∧
    (illA (body 0 1 2 0x3000) = false ∧ (fieldRD (body 0 1 2 0x3000)).val % 2 = 1) ∧
    (fieldMp (body 0 1 2 0x002) = 0 ∧ fieldPDp (body 0 1 2 0x002) = 0 ∧ getFaults (fieldPort (body 0 1 2 0x002)) = true) ∧
    (bits (body 0 0 0 3).toNat 14 10 = 0 ∧ (serviceClass (fieldImm (body 0 0 0 3))).isNone = true) ∧
    (bits (body 0 0 0 100).toNat 17 3 = 0 ∧ 100 ≤ (str.pc + (body 0 0 0 100).truncate 17).toNat) ∧
    (fieldM (body 0 1 0 64) = 0 ∧ (getW str 0 + ((body 0 1 0 64).truncate 14).signExtend 32).toNat = windowBytes str) ∧
    spec.galley.isSome = true ∧ fieldTmo 0x7FFF ≠ 0 ∧ spec.pc.toNat + 2 ≤ 100 :=
  ⟨issues_str 1 1 (by decide), issues_spec 1 1 (by decide), by decide +kernel⟩

/-- Strand 0 is woken while the engine is as `c` leaves it. -/
def woken (t : Strand) (c : Cap → Cap) : State := withStrand t (lab.updCap c)

theorem test_meets_ClassZeroGoesFirst : fCap lab ≠ 0 ∧
    (let s := woken { str0 with st := .ready } fun c => { c with q0 := [0, 5] }
     s.cap.q0 = 0 :: [5] ∧ s.cap.running = none) ∧
    (let s := modS 7 (fun _ => str) (woken { str0 with st := .ready } fun c => { c with q0 := [0], running := some 7 })
     s.cap.q0 = 0 :: [] ∧ s.cap.running = some 7 ∧ (getS s 7).cls ≠ 0 ∧ (getS s 7).turnLeft ≠ 0) ∧
    ((onEngine str0 lab).cap.running = some 0 ∧ (getS (onEngine str0 lab) 0).cls = 0) ∧
    (let s := woken str fun c => { c with interrupted := some 0 }
     s.cap.running = none ∧ s.cap.q0 = [] ∧ s.cap.interrupted = some 0) := by decide +kernel

/-- Breakpoint 0 on the first word of strand 0. -/
def labBreak : State := put [(Reg.CAP_BP_CTL_EN 0, 1)] lab

theorem test_meets_SchedulerCommands :
    (let t := { str0 with used := 64 }
     grant 0 (onEngine t lab) = some (onEngine t lab) ∧ t.cls = 0 ∧ t.st = .running ∧ t.fbEn = false ∧
     t.hmax < t.used + cyclesOf (opcodeOf (mapGet 0 (onEngine t lab).cap.prog t.pc.toNat))) ∧
    (let t := { str with turnLeft := 0 }
     (onEngine t lab).cap.running = some 0 ∧ t.cls ≠ 0 ∧ t.turnLeft = 0) ∧
    (let t := { str with st := .waiting, timerEnd := some 5, waitMask := some 0x100 }
     t.timerEnd.isSome = true ∧ t.st = .waiting ∧ (0x100 : BitVec 9).getLsbD 8 = true) ∧
    (domainOn 7 (withStrand str lab) = true ∧ str.st ≠ .disabled ∧ str.st ≠ .faulted ∧ str.fbEn = false) ∧
    (∃ u, grant 0 (onEngine str labBreak) = some u ∧ atBreakpoint 0 u = true ∧ (getS u 0).cls ≠ 0 ∧ (getS u 0).st = .running) :=
  ⟨⟨(issues_onEngine _ lab 1 0 (by decide) rfl (Or.inl rfl) rfl (by decide) (by decide) (by decide)).granted, by decide +kernel⟩,
    by decide +kernel, by decide +kernel, by decide +kernel, ⟨onEngine str labBreak, by
      show (if fCap lab = 0 then none else _) = _
      rfl, by decide +kernel⟩⟩

/-- Strand 0 with a galley resolved to `r` that holds `hs`. -/
def resolved (r : Resolution) (hs : List Held) : Strand :=
  { str with galley := some { openGalley with resolved := some r, held := hs } }

theorem test_meets_GalleysLockUpOrPie :
    (∀ r hs, grant 0 (onEngine (resolved r hs) lab) = some (onEngine (resolved r hs) lab)) ∧
    (openGalley.committed = false ∧ openGalley.back = .running ∧ Memory.wf (onEngine str lab) = true ∧ 2 ≤ str.turnLeft ∧
      (onEngine str lab).cap.q0 = [] ∧ str.waitMask = none ∧ risingFrom 0 ([(0, 1), (63, 2)] : NMap Byte) = true ∧ openGalley.fenced = 0) ∧
    (getS (withStrand spec lab) 0).galley = some openGalley ∧ spec.st ≠ .halted ∧ { spec with st := .halted }.st = .halted ∧
    (let s := (withStrand { spec with st := .stalled } lab).updCap fun c => { c with stalled := [0, 4] }
     s.cap.stalled = 0 :: [4] ∧ entryFree 0 s = true) := by
  refine ⟨fun r hs => ?_, by decide +kernel⟩
  have e : (onEngine (resolved r hs) lab).cap.strand 0 = resolved r hs := getS_onEngine _ _
  have c : (onEngine (resolved r hs) lab).cap.schedule (turnLen lab) (weightsNow lab) = (onEngine (resolved r hs) lab).cap := by
    have d : (onEngine (resolved r hs) lab).cap.dueTurnEnd = (onEngine (resolved r hs) lab).cap := by
      simp only [Cap.dueTurnEnd, show (onEngine (resolved r hs) lab).cap.running = some 0 from rfl, e]
      exact if_neg fun h => absurd (show (8 : Nat) = 0 from h.2) (by decide)
    simp [Cap.schedule, d, show (onEngine (resolved r hs) lab).cap.running = some 0 from rfl,
      show (onEngine (resolved r hs) lab).cap.q0 = [] from rfl]
  show (if fCap lab = 0 then none else _) = _
  rw [if_neg (by decide)]
  show (if (Cap.schedule (turnLen lab) (weightsNow lab) (onEngine (resolved r hs) lab).cap).running = some 0 then
    some ((onEngine (resolved r hs) lab).updCap (Cap.schedule (turnLen lab) (weightsNow lab))) else none) = _
  simp only [State.updCap, c]; rfl

/-- Strand 0 is BLOCKED for the reason `b`. -/
def blockedFor (b : Block) : Strand := { str with st := .blocked, block := some b }

/-- A call of strand 0 that has run. -/
def doneCall (async : Option (BitVec 8 × Nat)) : Call :=
  { id := 9, strand := 0, num := 0x001, args := [], async, done := some (0, [1, 2, 3, 4]) }

theorem test_meets_CompletionsWakeTheStrand :
    (let s := withStrand (blockedFor (.svc 9)) (lab.updCap fun c => { c with calls := [doneCall none] })
     s.sys.pause = false ∧ (getS s 0).st = .blocked ∧ (getS s 0).block = some (.svc 9) ∧
     s.cap.calls.find? (·.id == 9) = some (doneCall none) ∧ (doneCall none).done = some (0, [1, 2, 3, 4]) ∧ [1, 2, 3, 4].length ≤ 4) ∧
    (let s := withStrand str (lab.updCap fun c => { c with calls := [doneCall (some (0x80, 64))] })
     s.sys.pause = false ∧ Memory.wf s = true ∧
     s.cap.calls.find? (fun k => k.strand == 0 && k.async.isSome && k.done.isSome && !k.delivered) =
       some (doneCall (some (0x80, 64)))) ∧
    (let s := withStrand (blockedFor (.enqw 3 7 1)) (labQueue [])
     (getS s 0).block = some (.enqw 3 7 1) ∧ 0 < qRoom s 3) ∧
    (let s := withStrand (blockedFor (.deqw 3 4 1)) (labQueue [7, 8])
     (getS s 0).block = some (.deqw 3 4 1) ∧ (getS s 0).galley = none ∧ (getQ s 3).taker = none ∧ (getQ s 3).items = 7 :: [8] ∧ Fin.ofNat 16 4 ≠ 0) ∧
    (getS (withStrand (blockedFor (.storeRead 4 64)) lab) 0).block = some (.storeRead 4 64) := by decide +kernel

theorem test_meets_StrandCommands :
    HostServes Reg.CAP_STRAND_CMD_CMD.addr lab ∧ HostServes Reg.CAP_DBG_CMD_CMD.addr lab ∧
    HostServes Reg.CAP_DBG_CMD_CMD.addr labInstaller ∧ Memory.wf lab = true ∧ Memory.wf labInstaller = true ∧
    lab.sys.role = .standalone ∧ (getS lab 0).st = .disabled ∧ (getS lab 0).cls = 3 ∧
    (getS (withStrand { str0 with st := .faulted, fbEn := true } lab) 0).st = .faulted ∧
    (getS (withStrand str lab) 0).st ≠ .disabled ∧
    (let s := put [(Reg.LED_SESSION_NUMBER, 1)] (withStrand str0 lab)
     (getS s 0).cls = 0 ∧ sessionActive s = true) ∧
    installer lab = false ∧ installer labInstaller = true ∧
    (getS (withStrand { str with st := .waiting } labInstaller) 0).st = .waiting ∧
    (let t := { str with st := .halted }
     let s := withStrand t (labInstaller.updCap fun c => { c with prog := [(0, 0x08123000#32)], formeWords := 1 })
     (getS s 0).st = .halted ∧ (getS s 0).prev = .ready ∧ (getS s 0).galley = none ∧ (getS s 0).waitMask = none ∧
     opcodeOf (mapGet 0 s.cap.prog 0) = 0x02 ∧ illA (bodyOf (mapGet 0 s.cap.prog 0)) = false ∧
     getP (getS s 0) (fieldG (bodyOf (mapGet 0 s.cap.prog 0))) = true ∧ (getS s 0).pc.toNat + 1 ≤ s.cap.formeWords) :=
  ⟨serves_of (by decide +kernel), serves_of (by decide +kernel), serves_of (by decide +kernel), by decide +kernel⟩

/-! ## The hypotheses of the statements: the vehicle interface, the contactors, the outputs and the supervisor -/

/-- The contactor pair is closed. -/
def closedSw (s : State) : State :=
  s.updSw fun w => { w with k1 := true, k2 := true, mir1 := some false, mir2 := some false, vl := 1, supply := 1, stage := .closed }

/-- The contactor pair is confirmed open. -/
def openSw (s : State) : State := s.updSw fun w => { w with mir1 := some true, mir2 := some true }

theorem test_meets_TripsOpenAndHold :
    let base (s : State) : Bool := Memory.wf s && inService s.sys.mode && hostUp s && s.sys.mode != .standby
    base lab = true ∧ base (closedSw lab) = true ∧ base (lab.updPilot fun p => { p with line := .plus12 }) = true ∧
    (let s := lab.updSup fun u => { u with cntDc1 := some 979, window := 200 }
     base s = true ∧ holds 0 s = false ∧ testRuns s = false ∧ getF s Reg.SAFE_RCM_CFG_DC_TH = 60 ∧
     10 * getF s Reg.SAFE_RCM_TIME_T1 = 10 * (979 + 1) + s.sup.window ∧ getF s Reg.SAFE_RCM_AC_AC_TH = 0) ∧
    (holds 3 lab = false ∧ testRuns lab = false) ∧
    (getB lab Reg.SAFE_PEN_EN = true ∧ holds 4 lab = false ∧ 10 * getF lab Reg.SAFE_PEN_PEN_TH < (501#16).toNat) ∧
    (holds 9 lab = false ∧ 10 * (tempTrip 0 lab : Int) = (900#16).toInt) ∧
    (holds 10 lab = false ∧ 10 * (tempTrip 1 lab : Int) ≤ (0x7FFF#16).toInt) ∧
    (let s := put [(Reg.SAFE_FREQ_EN, 0)] lab
     base s = true ∧ holds 11 s = false ∧ getF s Reg.SAFE_SUPPLY_OV < (2646#16).toNat ∧ getB s Reg.SAFE_FREQ_EN = false) ∧
    (coilOn (closedSw lab) = true ∧ holds 13 (closedSw lab) = false) ∧
    (holds 6 lab = false ∧ 3 * threshold lab < 2 * (16#16).toNat) ∧
    (let s := lab.updPilot fun p => { p with line := .plus12, mon := { p.mon with viol := Vector.replicate 5 50 } }
     base s = true ∧ s.pilot.line = .plus12 ∧ holds 5 s = false ∧ plateauBand s.pilot.mon.band (13600#16).toInt = .over ∧
     filt s ≤ s.pilot.mon.viol.get 0 + 1) := by decide +kernel

/-- Causes held. -/
def holding (mask : Nat) (s : State) : State := put [(Reg.SAFE_STATUS_HELD, mask)] s

theorem test_meets_ReleasesEndACause :
    Memory.wf lab = true ∧ coilOn lab = false ∧ domainOn 2 lab = true ∧ (399#16).toNat < 8 * getF lab Reg.SAFE_PEN_PEN_TH ∧
    ((799#16).toInt < 10 * ((tempTrip 0 lab : Int) - getF lab Reg.SAFE_TEMP_CTRL_HYST) ∧ -450 ≤ ((-450 : BitVec 16)).toInt ∧
      (799#16).toInt ≤ 1600) ∧
    (let s := openSw lab
     supplyVMet 2300 2300 2300 s = none ∧ s.sw.stage = .opened ∧ s.sw.reported = true ∧ openOk s = true ∧
     s.sw.tripWhy ≠ some .dropout ∧ getB s Reg.SAFE_FREQ_EN = true ∧ (4749#16).toNat < getF s Reg.SAFE_FREQ_LO ∧
     phaseLive 2300 = true) ∧ (∀ k, k < 3 → lab.met.lost.getLsbD (4 + k) = false) ∧
    HostServes Reg.SAFE_CLEAR_CLEAR.addr lab ∧ hostClears lab = true ∧ largestI lab ≤ threshold lab ∧
    (let s := lab.updSw fun w => { w with phaseI := #v[11, 0, 0] }
     domainOn 7 s = true ∧ threshold s < largestI s ∧ s.sw.tripWhy ≠ some .closeFail) ∧
    (let s := openSw (labInstaller.updSw fun w => { w with tripWhy := some .mismatch })
     HostServes Reg.SAFE_CLEAR_P_WELD.addr s ∧ Memory.wf s = true ∧ installer s = true ∧ openOk s = true ∧
     s.sw.tripWhy = some .mismatch) ∧
    (let s := put [(Reg.VI_PILOT_STATE, 0xD)] (lab.updSup fun u => { u with pilotWhy := 2 })
     s.sup.pilotWhy = 2 ∧ getF s Reg.VI_PILOT_STATE ≤ 0xD) ∧
    (let s := holding 0x40 (put [(Reg.SAFE_RECLOSE_CFG_N, 1)] lab)
     Memory.wf s = true ∧ holds 6 s = true ∧ getF s Reg.SAFE_RECLOSE_CFG_COUNT < getF s Reg.SAFE_RECLOSE_CFG_N ∧
     s.sup.reclOff.getLsbD 6 = false) ∧
    (let s := lab.updSup fun u => { u with tests := [{ step := 4 }], chainOk := false }
     s.sup.tests = [{ step := 4 }] ∧ s.sup.chainOk = false ∧ (10#16).toNat ≤ 10) := by
  refine ⟨?_, ?_, ?_, ?_, ?_, ?_, ?_, serves_of (by decide +kernel), ?_, ?_, ?_, ⟨serves_of (by decide +kernel), ?_⟩, ?_⟩
  all_goals decide +kernel

theorem test_meets_SupervisorTestsAndWarnings :
    Memory.wf lab = true ∧ coilOn lab = false ∧ domainOn 7 lab = true ∧ domainOn 2 lab = true ∧
    HostServes Reg.SAFE_CTRL_SELFTEST.addr lab ∧
    (lab.updSup fun u => { u with repeatDue := some true }).sup.repeatDue = some true ∧
    (let s (x : SelfTest) := openSw (lab.updSup fun u => { u with tests := [x, { again := true }] })
     (∀ x ∈ ([{ step := 0 }, { step := 1 }, { step := 2 }, { step := 3, tier := true }] : List SelfTest),
       Memory.wf (s x) = true ∧ openOk (s x) = true ∧ (s x).sup.tests = x :: [{ again := true }]) ∧
     0 < getF (s {}) Reg.SAFE_RCM_CFG_DC_TH ∧ 108 * getF (s {}) Reg.SAFE_RCM_CFG_DC_TH ≤ 100 * (65#15).toNat ∧
     100 * (79#15).toNat ≤ 132 * getF (s {}) Reg.SAFE_RCM_CFG_DC_TH) ∧
    (openOk (openSw (lab.updSup fun u => { u with tests := [{ step := 1 }] })) = true) ∧
    (let s := put [(Reg.SAFE_RCM_MEAS_DC, 30)] lab
     s.sup.warned = false ∧
     inForce s Reg.SAFE_RCM_CFG_WARN_PCT * getF s Reg.SAFE_RCM_CFG_DC_TH = getF s Reg.SAFE_RCM_MEAS_DC * 100) ∧
    (lab.sup.tempWarned.get 0 = false ∧ 10 * (tempWarn 0 lab : Int) ≤ (890#16).toInt ∧ lab.sup.tempWarned.get 1 = false) ∧
    (let s := lab.updSup fun u => { u with graceOn := true, graceA := 320 }
     s.sup.graceOn = true ∧ s.sup.graceWarned = false ∧ thresholdFor s.pilot.alloc s < (11#16).toNat) ∧
    holds 5 (holding 0x20 lab) = true :=
  ⟨by decide +kernel, by decide +kernel, by decide +kernel, by decide +kernel, serves_of (by decide +kernel), by decide +kernel⟩

/-- The pilot at +12 V, the monitor in band `band` for `n` samples, in the reported state `st`. -/
def labPilot (st : Nat) (band : Band) (n : Nat) : State :=
  put [(Reg.VI_PILOT_STATE, st), (Reg.SYS_STATUS_UNCOMMISSIONED, 0), (Reg.ALLOC_SA_WRITTEN, 1)]
    (lab.updPilot fun p => { p with line := .plus12, mon := { p.mon with band := some band, run := n } })

theorem test_meets_PilotLineAndLock :
    let base (s : State) : Bool := Memory.wf s && !coilOn s && held s == 0 && !s.sup.trip3s && domainOn 2 s
    (let s := labPilot 0xA .b (filt lab - 1)
     base s = true ∧ s.pilot.line = .plus12 ∧ s.pilot.mon.low = none ∧ plateauBand s.pilot.mon.band (9000#16).toInt = .b ∧
     filt s = s.pilot.mon.run + 1 ∧ getF s Reg.VI_PILOT_STATE = 0xA ∧ pilotLine s = .plus12 ∧ s.pilot.pwmReq = false) ∧
    (let s := labPilot 0xB .a (filt lab)
     base s = true ∧ plateauBand s.pilot.mon.band (12000#16).toInt = .a ∧ filt s ≤ s.pilot.mon.run + 1 ∧
     getF s Reg.VI_PILOT_STATE = 0xB) ∧
    (let s := labPilot 0xA .a 7
     base s = true ∧ plateauBand s.pilot.mon.band (9000#16).toInt = .b ∧ 1 < filt s) ∧
    (let s := put [(Reg.VI_PILOT_STATE, 0xB)] (lab.updPilot fun p => { p with line := .plus12, diodeDue := true })
     base s = true ∧ s.pilot.diodeDue = true ∧ s.sup.pilotWhy ≠ 3 ∧ vehicleThere s = true ∧
     (-13500 : BitVec 16).toInt = -13500 ∧ (-10500 : BitVec 16).toInt = -10500 ∧ (-10499 : BitVec 16).toInt = -10499 ∧
     (-1500 : BitVec 16).toInt = -1500) ∧
    (getB lab Reg.VI_CFG_TETHERED = false ∧ lab.pilot.ppBand ≠ some 2) ∧
    (let s := put [(Reg.VI_LOCK_EN, 1)] lab
     base s = true ∧ getB s Reg.VI_LOCK_EN = true ∧ domainOn 7 s = true ∧ outletDead s = false ∧ outletDead (openSw s) = true ∧
     base (openSw s) = true ∧ speculative s 0 = false ∧ s.sys.vsysLow = false) ∧
    (let s := lab.updPilot fun p => { p with lockDir := some true }
     base s = true ∧ s.pilot.lockDir = some true ∧ s.pilot.lockRetry = false ∧ s.sys.mode ≠ .inert ∧
     (true == getB s Reg.VI_LOCK_FB_POL) ≠ (false == getB s Reg.VI_LOCK_FB_POL)) ∧
    (let s := lab.updPilot fun p => { p with lockDir := some false, lockRetry := true }
     base s = true ∧ s.pilot.lockDir = some false ∧ s.pilot.lockRetry = true) := by decide +kernel

theorem test_meets_PilotPorts :
    Memory.wf lab = true ∧ coilOn lab = false ∧ domainOn 7 lab = true ∧ lab.sw.disc = none ∧ speculative lab 0 = false ∧ held lab = 0 ∧
    inService lab.sys.mode = true ∧
    (let s := put [(Reg.VI_PILOT_STATE, 0xC), (Reg.SYS_STATUS_UNCOMMISSIONED, 0), (Reg.ALLOC_SA_WRITTEN, 1)]
      (lab.updPilot fun p => { p with alloc := 60 })
     Memory.wf s = true ∧ held s = 0 ∧ pilotLine (s.updPilot fun p => { p with pwmReq := true }) = .pwm ∧ s.pilot.line ≠ .pwm) ∧
    (let s := holding 0x20 lab
     Memory.wf s = true ∧ held s ≠ 0 ∧ holds 5 s = true) ∧ holds 5 lab = false ∧ (800#32).toNat ≤ 800 ∧
    (let s := lab.updPilot fun p => { p with alloc := 320 }
     Memory.wf s = true ∧ min (ceiling s) (0#32).toNat < s.pilot.alloc) ∧ (7#32).toNat < 8 := by decide +kernel

/-- The pair enabled, open, and its preconditions met. -/
def labArmed : State :=
  put [(Reg.CONT_CFG_EN, 1), (Reg.CONT_STATUS_ARMED, 1), (Reg.VI_PILOT_STATE, 0xC)]
    (openSw (lab.updPilot fun p => { p with line := .pwm, pwmReq := true }))

/-- The pair in stage `g`. -/
def staged (g : Stage) (s : State) : State := s.updSw fun w => { w with stage := g }

theorem test_meets_ContactorSequence :
    let base (s : State) : Bool := Memory.wf s && domainOn 7 s && domainOn 2 s && !s.sys.ctrlStop && !speculative s 0
    (base labArmed = true ∧ refusal labArmed = none ∧ closeReady labArmed = true) ∧
    (base lab = true ∧ refusal lab = some 1) ∧
    (let s := staged .closing labArmed
     base s = true ∧ s.sw.stage = .closing ∧ closeHolds s = false) ∧
    (let s := (staged .closing2 lab).updSw fun w => { w with mir1 := some true, mir2 := some false }
     base s = true ∧ s.sw.stage = .closing2 ∧ s.sw.mir1 = some true ∧ s.sw.mir2 = some false) ∧
    (let s := (staged .closing2 lab).updSw fun w => { w with mir1 := some false, vl := 1 }
     base s = true ∧ s.sw.mir1 = some false ∧ s.sw.discAfter = none ∧ (1#3 &&& ~~~s.sw.vl) = 0) ∧
    (let s := (staged .dutyOff lab).updSw fun w => { w with duty2 := true, k1 := true, mir1 := some false, mir2 := some false }
     base s = true ∧ s.sw.stage = .dutyOff ∧ s.sw.k1 ≠ s.sw.k2 ∧ s.sw.mir1 = some false ∧ s.sw.mir2 = some false) ∧
    (let s := staged .currentWait (closedSw lab)
     base s = true ∧ s.sw.stage = .currentWait ∧ 2 ≤ (2#16).toNat) ∧
    (let s := (staged .opening (closedSw lab)).updSw fun w => { w with duty2 := true }
     base s = true ∧ s.sw.stage = .opening ∧ s.sw.duty2 = true ∧ s.sw.k2 = true) ∧
    (let s := (staged .feedback (openSw lab)).updSw fun w => { w with reported := false, disc := some .controlled }
     base s = true ∧ s.sw.stage = .feedback ∧ coilOn s = false ∧ s.sw.mir1 = some true ∧ s.sw.mir2 = some true ∧ s.sw.vl = 0 ∧
     s.sw.reported = false ∧ s.sw.disc.isSome = true) ∧
    (let s := put [(Reg.CONT_LASTBRK_K1, 10)] lab
     base s = true ∧ 10 ≤ getF s Reg.CONT_LASTBRK_K1 ∧ 20 ≤ (20#16).toNat ∧ (300#16).toNat ≤ 300) ∧
    (closedSw lab).sw.k1 = true ∧ (closedSw lab).sw.k2 = true := by decide +kernel

/-- Output 5 as given. -/
def withOut (o : OutCh) (s : State) : State := s.updSw fun w => { w with outs := w.outs.set 5 o }

theorem test_meets_ProtectedOutputs :
    let base (s : State) : Bool := Memory.wf s && domainOn 7 s && domainOn 2 s && !speculative s 0
    (base lab = true ∧ outputsServed lab = true ∧ named (coilMask lab) 5 = false ∧ named (lockMask lab) 5 = false ∧
      (outCh 5 lab).on = false ∧ partner 5 lab = none) ∧
    (let s := put [(Reg.OUT_CFG_BRIDGE 8, 1), (Reg.OUT_CFG_BRIDGE 9, 1)] lab
     base s = true ∧ partner 8 s = some 9 ∧ (outCh 8 s).on = false) ∧
    (let s := put [(Reg.OUT_DIAG_CAUSE 5, 3)] lab
     base s = true ∧ 2 < getF s (Reg.OUT_DIAG_CAUSE 5)) ∧
    (let s := lab.updSys fun y => { y with vsysLow := true }
     base s = true ∧ outputsServed s = false) ∧
    (let s := (withOut { on := true } lab).updShadow fun m => mapSet 0 m (Reg.OUT_CFG_OL_TH 5).key 20
     base s = true ∧ (outCh 5 s).on = true ∧ (outCh 5 s).hot = false ∧
     (recentRestarts 5 s).length < getF s Reg.OUT_TIMING_THERM_RETRY ∧ getF s (Reg.OUT_DIAG_CAUSE 5) = 0 ∧
     (0#16).toNat < openLoadLevel 5 s) ∧
    (let s := withOut { on := true, restarts := [0, 0, 0] } lab
     base s = true ∧ (outCh 5 s).hot = false ∧ getF s Reg.OUT_TIMING_THERM_RETRY = (recentRestarts 5 s).length) ∧
    (let s := put [(Reg.OUT_DIAG_CAUSE 5, 7)] (withOut { on := true, hot := true } lab)
     base s = true ∧ (outCh 5 s).on = true ∧ (outCh 5 s).hot = true ∧ getF s (Reg.OUT_DIAG_CAUSE 5) = 7) ∧
    (let s := put [(Reg.OUT_CFG_PRIO 5, 1)] (withOut { on := true } lab)
     base s = true ∧ governed s = some 5) ∧ coilOn lab = false := by decide +kernel

theorem test_meets_StrandAndServicePorts :
    Memory.wf lab = true ∧ domainOn 7 lab = true ∧ speculative lab 0 = false ∧ (getS (withStrand str0 lab) 0).cls ≠ 3 ∧
    (let s := withStrand spec lab
     Memory.wf s = true ∧ domainOn 7 s = true ∧ speculative s 0 = true ∧ entryFree 0 s = true) ∧
    (let s := modS 4 (fun _ => { str0 with st := .waiting }) (withStrand str lab)
     (4 : Fin 320) ≠ 0 ∧ (getS s 0).cls = 3 ∧ (getS s 4).st = .waiting ∧ (getS s 4).cls = 0 ∧ sessionActive s = false) ∧
    ((60#32).toNat = getF lab Reg.SAFE_RCM_CFG_DC_TH ∧ 30 ≤ (30#32).toNat ∧ (100#32).toNat ≤ 100 ∧ coilOn lab = false) ∧
    (getF (closedSw lab) Reg.SAFE_RCM_CFG_DC_TH < (61#32).toNat ∧ coilOn (closedSw lab) = true) ∧
    (let s := labAs .hub
     Memory.wf s = true ∧ domainOn 7 s = true ∧ s.sys.role = .hub ∧ (255#32).toNat < 256 ∧ (16383#32).toNat < 2 ^ 14) ∧
    lab.sys.role ≠ .hub := by decide +kernel

/-! ## The hypotheses of the statements: high-level communication, metrology and ledger -/

/-- A session of high-level communication in status `st`. -/
def hlcIn (st : Nat) (s : State) : State := s.updHlc fun h => { h with status := st }

theorem test_meets_HlcSessionStates :
    Memory.wf lab = true ∧ ServesCall 0x300 (callOf 0x300 [0]) (calling 0x300 [0] lab) ∧ lab.sys.role ≠ .repeater ∧
    lab.hlc.status = 0 ∧ (hlcIn 5 lab).hlc.status = 5 ∧
    (let s := put [(Reg.VI_PILOT_STATE, 0xB), (Reg.VI_PILOT_HLC, 1)]
      (((hlcIn 1 lab).updPilot fun p => { p with line := .pwm, hlcReq := true }).updHlc fun h => { h with slac := true })
     Memory.wf s = true ∧ slacListens s = true ∧ s.hlc.slac = true ∧ s.hlc.status = 1) ∧
    (hlcIn 2 lab).hlc.status = 2 ∧ (tlsKeys 0x1301 (hlcMove 3 (hlcIn 2 lab))).1.isSome = true ∧
    (let s := (hlcIn 2 lab).updHlc fun h => { h with offerInForce := 3, tls := true }
     s.hlc.status = 2 ∧ 3#3 &&& offerCounts s = 1 ∧ 2#3 &&& offerCounts s = 0) ∧
    (let s := put [(Reg.VI_CFG_BPT_EN, 1)] ((hlcIn 3 lab).updHlc fun h => { h with offerInForce := 7, tls := true, tls13 := true })
     s.hlc.status = 3 ∧ 7#3 &&& offerCounts s = 6 ∧ 3#3 &&& offerCounts s = 2 ∧ 1#3 &&& offerCounts s = 0) ∧
    (let s := (hlcIn 4 lab).updHlc fun h => { h with tls := true }
     s.hlc.status = 4 ∧ coilOn s = false ∧ s.hlc.tls = true ∧ s.hlc.pend = none) ∧
    ((hlcIn 4 lab).updHlc fun h => { h with pend := some ⟨0, 0xD, true, 9⟩ }).hlc.pend = some ⟨0, 0xD, true, 9⟩ := by
  and_intros
  on_goal 2 => exact serves_call _ _ _ rfl rfl
  all_goals decide +kernel

/-- A request of message `m` is unanswered. -/
def asked (m : Nat) (s : State) : State := (hlcIn 4 s).updHlc fun h => { h with proto := 2, pend := some ⟨0, m, true, 9⟩ }

theorem test_meets_HlcRequestsAndReplies :
    (let s := (hlcIn 4 lab).updHlc fun h => { h with proto := 2 }
     Memory.wf s = true ∧ s.hlc.status = 4 ∧ coilOn s = false ∧ s.hlc.pend = none ∧ s.hlc.certPend = false ∧
     strandMsg s.hlc.proto (0xD#16).toNat = true ∧ bptRefused (0xD#16).toNat [] s = none) ∧
    (let s := hlcIn 4 (labAs .hub)
     Memory.wf s = true ∧ s.sys.role = .hub ∧ s.hlc.pend = none ∧ s.hlc.certPend = false) ∧
    (hlcIn 4 (labAs .head)).sys.role = .head ∧
    (let s := modQ 5 (fun x => { x with items := [0x10000002#32, 0x30000000#32, 7#32] })
       ((hlcIn 4 lab).updHlc fun h => { h with certPend := true })
     s.hlc.certPend = true ∧ (getQ s 5).items = 0x10000002#32 :: 0x30000000#32 :: [7#32] ∧ itemType 0x30000000#32 = 3) ∧
    (∀ m a, (asked m lab).hlc.pend = some ⟨0, m, true, 9⟩ ∧ ((callOf 0x301 [0, a]).args.getD 0 0).toNat = 0 ∧
      (asked m lab).hlc.late.contains 0 = false) ∧
    ServesCall 0x301 (callOf 0x301 [0, 0]) (calling 0x301 [0, 0] (asked 7 lab)) ∧
    ServesCall 0x302 (callOf 0x302 [0, 0]) (calling 0x302 [0, 0] (asked 8 lab)) ∧
    ServesCall 0x303 (callOf 0x303 [0, 0]) (calling 0x303 [0, 0] (asked 0xB lab)) ∧
    ServesCall 0x304 (callOf 0x304 [0, 0]) (calling 0x304 [0, 0] (asked 0xA lab)) ∧
    ServesCall 0x303 (callOf 0x303 [0, 0]) (calling 0x303 [0, 0] (hlcIn 4 lab)) ∧ (hlcIn 4 lab).hlc.pend = none ∧
    ServesCall 0x305 (callOf 0x305 [0, 0]) (calling 0x305 [0, 0] (hlcIn 4 lab)) :=
  ⟨by decide +kernel, by decide +kernel, rfl, by decide +kernel, fun _ _ => ⟨rfl, rfl, rfl⟩, serves_call _ _ _ rfl rfl,
    serves_call _ _ _ rfl rfl, serves_call _ _ _ rfl rfl, serves_call _ _ _ rfl rfl, serves_call _ _ _ rfl rfl, rfl,
    serves_call _ _ _ rfl rfl⟩

theorem test_meets_MetrologyBlocks :
    (Memory.wf lab = true ∧ metering lab = true ∧ lab.led.on = false ∧ (lab.updLed fun l => { l with on := true }).led.on = true) ∧
    metering State.reset = false ∧
    (lab.sw.supply = 0 ∧ metering (closedSw lab) = true ∧ (closedSw lab).sw.supply ≠ 0) ∧
    (lab.met.freqOut = false ∧ (0#17).toNat < getF lab Reg.MET_FBAND_LO * 10 ∧
      getF lab Reg.MET_FBAND_HI * 10 < (0x1FFFF#17).toNat) ∧
    (lab.updMet fun m => { m with freqOut := true }).met.freqOut = true ∧
    HostServes Reg.MET_CAL_VAL_VALUE.addr labMetro ∧ HostServes Reg.MET_CAL_VAL_VALUE.addr lab ∧
    HostServes Reg.MET_CAL_CMD_COMMIT.addr labMetro ∧ HostServes Reg.MET_CAL_CMD_COMMIT.addr lab ∧
    (metrologist labMetro = true ∧ metrologist lab = false ∧ Memory.wf labMetro = true ∧
      getF (put [(Reg.MET_CAL_IDX_IDX, 31)] labMetro) Reg.MET_CAL_IDX_IDX = 31 ∧
      getF (put [(Reg.MET_CAL_IDX_IDX, 32)] labMetro) Reg.MET_CAL_IDX_IDX = 32 ∧
      getF (put [(Reg.MET_CAL_IDX_IDX, 68)] labMetro) Reg.MET_CAL_IDX_IDX = 68 ∧
      68 < getF (put [(Reg.MET_CAL_IDX_IDX, 69)] labMetro) Reg.MET_CAL_IDX_IDX ∧ labMetro.sys.mode ≠ .factory) ∧
    labMetro.met.staged = [] ∧ (labMetro.updMet fun m => { m with staged := [(0, 5)] }).met.staged ≠ [] :=
  ⟨by decide +kernel, by decide +kernel, by decide +kernel, by decide +kernel, rfl, serves_of (by decide +kernel), serves_of (by decide +kernel),
    serves_of (by decide +kernel), serves_of (by decide +kernel), by decide +kernel⟩

/-- The rotation in phase `r`. -/
def rotating (r : RotPhase) (s : State) : State := s.updMet fun m => { m with rot := r }

theorem test_meets_SpareChainRotation :
    (Memory.wf lab = true ∧ metering lab = true ∧ lab.met.free < 9 ∧ lab.met.rot = .idle) ∧
    (let s := rotating (.overlap 8 0) lab
     s.met.rot = .overlap 8 0 ∧ s.met.rot ≠ .idle ∧ (1000000#32).toInt.natAbs = 2000 * inForce s Reg.MET_BUDGET_GAIN ∧
     2000 * inForce s Reg.MET_BUDGET_GAIN < (1000001#32).toInt.natAbs) ∧
    (rotating (.zero 0) lab).met.rot = .zero 0 ∧
    (let s := rotating (.reference 0 0) lab
     let gain (r : BitVec 32) : Int :=
       Int.tdiv ((chainTrim 0 r.toNat s - (calValue 68 s).toNat * 10000000) * 1000000) (calValue 68 s).toNat
     let budget := clamp 50 1000 (getF s Reg.MET_BUDGET_GAIN) * 10000000
     s.met.rot = .reference 0 0 ∧ (calValue 68 s).toNat = 2000000 ∧ (gain 2001000#32).natAbs = budget ∧
     ¬((gain 2001001#32).natAbs ≤ budget) ∧ (0 : Int).natAbs ≤ clamp 20 1000 (getF s Reg.MET_BUDGET_OFFSET) * 10000000 ∧
     getB s Reg.MET_STATUS_RECHECK = false ∧ getB (put [(Reg.MET_STATUS_RECHECK, 1)] s) Reg.MET_STATUS_RECHECK = true) ∧
    (lab.met.map.get 0 = (0 : Fin 9).val ∧ (∀ j < (0 : Fin 8), lab.met.map.get j ≠ 0) ∧ lab.met.retired.getLsbD 0 = false) ∧
    (lab.updMet fun m => { m with free := 15 }).met.free = 15 ∧
    (lab.updMet fun m => { m with retired := 1 }).met.retired.getLsbD (0 : Fin 9).val = true := by decide +kernel

/-- The ledger runs. -/
def labLedger : State := lab.updLed fun l => { l with on := true, rtcValid := true }

theorem sealKey_lab : ∃ k u, sealKey (labLedger.updLed fun l => { l with unsealed := 1 }) = (some k, u) := by
  unfold sealKey firmwareDerives
  obtain ⟨i, u, e, lt, hw⟩ := place_finds (workingKey 1 [0x53, 0x45, 0x41, 0x4C] engEcc1 false
    (labLedger.updLed fun l => { l with unsealed := 1 })) (labLedger.updLed fun l => { l with unsealed := 1 })
    (by decide +kernel) (by decide +kernel)
  rw [show deriveRefused 1 [0x53, 0x45, 0x41, 0x4C] engEcc1 (labLedger.updLed fun l => { l with unsealed := 1 }) = none by
    decide +kernel]
  simp only [e]
  obtain ⟨k, hk⟩ : ∃ k, (slotAt (modSlot i (fun x => { x with firmware := true }) u) i).work = some k :=
    ⟨_, (congrArg Slot.work (slotAt_modSlot i _ u lt)).trans hw⟩
  exact ⟨k, _, Prod.ext hk rfl⟩

/-- The ledger's knot is gone. -/
def labUnsealable : State := (labLedger.updLed fun l => { l with unsealed := 1 }).updKey fun k => { k with knots := [] }

theorem sealKey_cut : ∃ u, sealKey labUnsealable = (none, u) := by
  unfold sealKey firmwareDerives
  rw [show deriveRefused 1 [0x53, 0x45, 0x41, 0x4C] engEcc1 labUnsealable = some rcArg by decide +kernel]
  exact ⟨_, rfl⟩

theorem test_meets_LedgerClockAndLogs :
    Memory.wf labLedger = true ∧ domainOn 0 labLedger = true ∧ labLedger.tag.commPend = false ∧
    domainOn 0 (lab.updSys fun y => { y with mode := .noPower }) = false ∧ labLedger.led.on = true ∧ lab.led.on = false ∧
    HostServes Reg.AO_RTC_SET_W.addr lab ∧ HostServes Reg.AO_RTC_SET_W.addr (labAs .head) ∧ (labAs .head).sys.role = .head ∧
    lab.sys.role = .standalone ∧ labLedger.sys.pause = false ∧ (labLedger.updSys fun y => { y with pause := true }).sys.pause = true ∧
    storeWorn labLedger = false ∧ storeWorn (wornOut labLedger) = true ∧
    (let s := labLedger.updLed fun l => { l with unsealed := 1 }
     0 < s.led.unsealed ∧ recordsWait s = false ∧ ∃ k u, sealKey s = (some k, u)) ∧
    (0 < labUnsealable.led.unsealed ∧ recordsWait labUnsealable = false ∧ ∃ u, sealKey labUnsealable = (none, u)) ∧
    recordsWait (wornOut labLedger) = true ∧
    (let b : Boundary := { time := 9, kinds := 1, oldTariff := 0, newTariff := 1, ends := some 0, opens := some {}, ended := true }
     (led (labLedger.updLed fun l => { l with cur := { l.cur with pend := [b] } })).pend = [b]) ∧
    getB (put [(Reg.LED_STATUS_SEAL_PENDING, 1)] labLedger) Reg.LED_STATUS_SEAL_PENDING = true ∧
    getB labLedger Reg.LED_STATUS_SEAL_PENDING = false ∧
    (labLedger.updLed fun l => { l with tmpLog := [⟨5, 0, true, 0⟩] }).led.tmpLog ≠ [] ∧
    (getB lab Reg.AO_TMP_STATE_TERM_OPEN = false ∧ getB lab Reg.AO_TMP_STATE_COVER_OPEN = false ∧ lab.led.tmpLog.length < 63 ∧
      63 ≤ (lab.updLed fun l => { l with tmpLog := List.replicate 63 ⟨5, 0, true, 0⟩ }).led.tmpLog.length) ∧
    domainOn 7 lab = true ∧ ServesCall 0x001 (callOf 0x001 []) (calling 0x001 [] lab) ∧
    ServesCall 0x002 (callOf 0x002 [3, 4]) (calling 0x002 [3, 4] lab) ∧ storeWorn lab = false ∧
    ServesCall 0x002 (callOf 0x002 [3, 4]) (calling 0x002 [3, 4] (wornOut lab)) ∧ storeWorn (wornOut lab) = true :=
  by
  and_intros
  all_goals first
    | exact serves_of (by decide +kernel)
    | exact serves_call _ _ _ rfl rfl
    | exact sealKey_lab
    | exact sealKey_cut
    | decide +kernel

/-- A calendar image but for its CRC: one season, one week, one day of tariff 1, no price. -/
def calendarBody (c : BitVec 32) : List Byte :=
  [0x54, 0x43, 0x41, 0x4C, 1, 0, 156, 0, 7] ++ zeros 7 ++ [1, 1, 1] ++ zeros 5 ++ [1, 0, 0, 0] ++ leBytes c.toNat 4 ++
    [1, 1, 0, 0] ++ List.replicate 8 0 ++ [0, 0, 1, 0] ++ List.replicate 44 0xFF ++ List.replicate 64 0

theorem calendarBody_same (c : BitVec 32) :
    calendarCounts (calendarBody c) = calendarCounts (calendarBody 0) ∧ calendarOf (calendarBody c) = calendarOf (calendarBody 0) := by
  have b0 : byteOf (calendarBody c) 0x10 = byteOf (calendarBody 0) 0x10 := rfl
  have b1 : byteOf (calendarBody c) 0x11 = byteOf (calendarBody 0) 0x11 := rfl
  have b2 : byteOf (calendarBody c) 0x12 = byteOf (calendarBody 0) 0x12 := rfl
  have b3 : byteOf (calendarBody c) 0x13 = byteOf (calendarBody 0) 0x13 := rfl
  have b8 : byteOf (calendarBody c) 0x18 = byteOf (calendarBody 0) 0x18 := rfl
  have f4 : fieldOf (calendarBody c) 0x14 2 = fieldOf (calendarBody 0) 0x14 2 := rfl
  have f6 : fieldOf (calendarBody c) 0x16 2 = fieldOf (calendarBody 0) 0x16 2 := rfl
  have g8 : fieldOf (calendarBody c) 8 4 = fieldOf (calendarBody 0) 8 4 := rfl
  have gc : fieldOf (calendarBody c) 12 4 = fieldOf (calendarBody 0) 12 4 := rfl
  have d : (calendarBody c).drop 32 = (calendarBody 0).drop 32 := rfl
  constructor
  · unfold calendarCounts; rw [b0, b1, b2, b3, b8, f4, f6]
  · unfold calendarOf; rw [b0, b1, b2, b3, b8, f4, f6, g8, gc, d]

theorem calendarBody_good : calendarResult 156 (calendarBody (crc32 (calendarBody 0))) = 1 := by
  generalize hc : crc32 (calendarBody 0) = c
  have hz : (calendarBody c).take 0x1C ++ [0, 0, 0, 0] ++ (calendarBody c).drop 0x20 = calendarBody 0 := rfl
  have hf : fieldOf (calendarBody c) 0x1C 4 = c.toNat := leNat_leBytes4 c.toNat c.isLt
  have hs : calendarSize (calendarBody c) = 156 := rfl
  unfold calendarResult
  simp only [hz, hc, hf, hs, (calendarBody_same c).1, (calendarBody_same c).2]
  rw [if_neg (by
    rintro (h | h | h | h | ⟨-, h⟩)
    · exact h rfl
    · exact h rfl
    · exact h rfl
    · exact absurd h (by decide)
    · exact h rfl), if_neg (fun h => h rfl)]
  decide +kernel

/-- A calendar's length is written. -/
def labLen : State := put [(Reg.LED_CAL_SRC_LEN, 156)] lab

/-- The image with the CRC `c` stands at the start of the shared window. -/
def labCalendar (c : BitVec 32) : State := labLen.updCap fun x => { x with shared := putBytes 0 [] 0 (calendarBody c) }

theorem calendarBody_length (c : BitVec 32) : (calendarBody c).length = 156 := by
  simp [calendarBody, zeros, leBytes]

theorem labCalendar_good : ∃ c, calendarResult 156 (bytesAt 0 (labCalendar c).cap.shared 0 156) = 1 := by
  have go : ∀ c, calendarResult 156 (calendarBody c) = 1 → calendarResult 156 (bytesAt 0 (labCalendar c).cap.shared 0 156) = 1 := by
    intro c h
    have b := bytesAt_putBytes 0 (m := []) rfl 0 (calendarBody c)
    rw [calendarBody_length] at b
    have e : (labCalendar c).cap.shared = putBytes 0 [] 0 (calendarBody c) := by simp only [labCalendar, State.updCap_cap]
    rw [e, b]; exact h
  exact ⟨_, go _ calendarBody_good⟩

theorem labCalendar_serves (c : BitVec 32) : HostServes Reg.LED_CAL_CTRL_LOAD.addr (labCalendar c) ∧
    (labCalendar c).sys.role ≠ .head ∧ migrating (labCalendar c) = false ∧
    getF (labCalendar c) Reg.LED_CAL_SRC_OFFSET = 0 ∧ getF (labCalendar c) Reg.LED_CAL_SRC_LEN = 156 := by
  have h : ∀ f, hostServes Reg.LED_CAL_CTRL_LOAD.addr (labLen.updCap f) = true ∧ (labLen.updCap f).sys.role ≠ .head ∧
      migrating (labLen.updCap f) = false ∧ getF (labLen.updCap f) Reg.LED_CAL_SRC_OFFSET = 0 ∧
      getF (labLen.updCap f) Reg.LED_CAL_SRC_LEN = 156 := fun f =>
    show hostServes Reg.LED_CAL_CTRL_LOAD.addr labLen = true ∧ labLen.sys.role ≠ .head ∧ migrating labLen = false ∧
      getF labLen Reg.LED_CAL_SRC_OFFSET = 0 ∧ getF labLen Reg.LED_CAL_SRC_LEN = 156 by decide +kernel
  exact ⟨serves_of (h _).1, (h _).2⟩

theorem test_meets_LedgerSessionsAndAccounts :
    Memory.wf lab = true ∧ risingFrom 0 (led lab).accounts = true ∧
    ServesCall 0x600 (callOf 0x600 [0, 4, 5]) (calling 0x600 [0, 4, 5] labFree) ∧ Memory.wf labFree = true ∧
    (labFree.led.opened = none ∧ (callOf 0x600 [0, 4, 5]).arg 0 = ownChannel labFree ∧ maySession labFree = true ∧
      storeWorn labFree = false) ∧
    (maySession lab = false ∧ maySession (wornOut labFree) = true ∧ storeWorn (wornOut labFree) = true) ∧
    ((inSession lab).led.opened.isSome = true ∧ (callOf 0x600 [1]).arg 0 ≠ ownChannel lab ∧ storeWorn (wornOut lab) = true) ∧
    ServesCall 0x601 (callOf 0x601 [1]) (calling 0x601 [1] (inSession lab)) ∧
    (∃ x, (led (inSession lab)).sess = some x ∧ x.number = (callOf 0x601 [1]).arg 0) ∧
    storeWorn (inSession lab) = false ∧ (inSession lab).led.backlog = [] ∧ (led lab).sess = none ∧
    ServesFree 0x602 (callOf 0x602 [0]) (calling 0x602 [0] lab) ∧ (callOf 0x602 [0]).arg 0 = 0 ∧ emergencyOk 0 lab = false ∧
    emergencyOk 0 (put [(Reg.LED_EMERG_AMT_VALUE, 500), (Reg.LED_EMERG_LEVEL_VALUE, 1)] lab) = true ∧
    ServesCall 0x603 (callOf 0x603 [2]) (calling 0x603 [2] lab) ∧ (callOf 0x603 [2]).arg 0 = (2 : Fin 3).val ∧
    30 < (callOf 0x603 [31]).arg 0 ∧
    HostServes Reg.LED_TOPUP_CMD_GO.addr lab ∧ lab.sys.role = .standalone ∧
    (let s := put [(Reg.LED_TOPUP_AMT_VALUE, 10000000)] (lab.updShadow fun m => mapSet 0 m Reg.LED_CFG_PREPAY_EN.key 1)
     inForce s Reg.LED_CFG_PREPAY_EN ≠ 0 ∧ 0 < getF s Reg.LED_TOPUP_AMT_VALUE ∧ getF s Reg.LED_TOPUP_AMT_VALUE = 10000000) ∧
    10000000 < getF (put [(Reg.LED_TOPUP_AMT_VALUE, 10000001)] lab) Reg.LED_TOPUP_AMT_VALUE ∧
    getF lab Reg.LED_TOPUP_AMT_VALUE = 0 ∧ inForce lab Reg.LED_CFG_PREPAY_EN = 0 ∧
    HostServes Reg.LED_CLEAR_CLEAR.addr labMetro ∧ HostServes Reg.LED_CLEAR_CLEAR.addr lab ∧ metrologist labMetro = true ∧
    sessionActive labMetro = false ∧ sessionActive (inSession labMetro) = true ∧ metrologist lab = false ∧
    HostServes Reg.LED_BILL_CLOSE.addr lab ∧
    (∀ c, HostServes Reg.LED_CAL_CTRL_LOAD.addr (labCalendar c) ∧ (labCalendar c).sys.role ≠ .head ∧ migrating (labCalendar c) = false ∧
      getF (labCalendar c) Reg.LED_CAL_SRC_OFFSET = 0 ∧ getF (labCalendar c) Reg.LED_CAL_SRC_LEN = 156) ∧
    (∃ c, calendarResult 156 (bytesAt 0 (labCalendar c).cap.shared 0 156) = 1) ∧
    calendarResult 0 (bytesAt 0 lab.cap.shared (getF lab Reg.LED_CAL_SRC_OFFSET / 4 * 4) (getF lab Reg.LED_CAL_SRC_LEN)) ≠ 1 ∧
    HostServes Reg.LED_CAL_CTRL_LOAD.addr (labAs .head) ∧ HostServes Reg.LED_CAL_CTRL_DROP_PASSIVE.addr lab ∧
    HostServes Reg.LED_EXP_ACK_OFFSET.addr lab ∧
    (let s := lab.updLed fun l => { l with head := 100 }
     s.led.tail ≤ 100 ∧ 100 ≤ s.led.head ∧ s.led.head - 100 < ringBlocks * 0x10000) ∧ (0x7FFFF#32).toNat < ringBase := by
  repeat' apply And.intro
  all_goals first
    | exact labCalendar_good
    | exact labCalendar_serves
    | exact ⟨_, rfl, by decide +kernel⟩
    | exact serves_call _ _ _ rfl rfl
    | exact serves_free _ _ _ rfl rfl (by decide +kernel)
    | exact serves_of (by decide +kernel)
    | decide +kernel

/-! ## The hypotheses of the statements: site link, allocation, reader and directory -/

/-- A poll of round `n` to the node of channel 0, with no tag. -/
def pollOf (n : BitVec 32) : PollFrame :=
  { round := n, retry := false, hops := 1, route := [0], modulation := 0, zc := none, clock16 := 0, grantImp := 160, grantExp := 0
    ack := 0, fallback := 60, var := 0, replyKind := 0, replyValue := 0, duty := 0, coSend := false, joinOpen := false, tag := 0 }

/-- The link key's working key, and a node that holds it in slot 5. -/
def linkWork : WorkKey := { parent := 3, epoch := 0, lineage := [3, 0], label := [1], engine := engAes1, wide := false, key := 77 }
def labLinked : State := modSlot 5 (fun x => { x with work := some linkWork }) (labHead.updLink fun l => { l with linkSlot := some 5 })

/-- The poll of round `n` as its hub seals it. -/
def sealedPoll (n : BitVec 32) : PollFrame := { pollOf n with tag := pollTagUnder (beBytes linkWork.key 16) (pollOf n) }

theorem sealedPoll_verifies (n : BitVec 32) : pollVerifies (sealedPoll n) labLinked = true := by
  have k : ownLinkKey labLinked = some (beBytes linkWork.key 16) := by
    have w : (slotAt labLinked 5).work = some linkWork := congrArg Slot.work (slotAt_modSlot 5 _ _ (by decide))
    show ((some 5).bind fun i => (slotAt labLinked i).work).map _ = _
    simp only [Option.bind_some, w, Option.map_some]
  simp only [pollVerifies, k]
  exact beq_iff_eq.mpr rfl

theorem add_one_ne (x : BitVec 32) : x + 1 ≠ x := by bv_omega

/-- A chunk frame of the hub, whose CRC is `crc` off. -/
def frameOf (kind : BitVec 8) (chunk : BitVec 16) (body : ChunkBody) (crc : BitVec 32) : ChunkFrame :=
  let f : ChunkFrame := ⟨kind, true, 0, 5, chunk, 3, 0, body, []⟩
  { f with crc := crc32 (chunkData (frameData f)) + crc }

theorem frameOf_good (kind : BitVec 8) (chunk : BitVec 16) (body : ChunkBody) :
    (frameOf kind chunk body 0).crc = crc32 (chunkData (frameData (frameOf kind chunk body 0))) := by
  simp [frameOf, frameData]

theorem frameOf_bad (kind : BitVec 8) (chunk : BitVec 16) (body : ChunkBody) :
    (frameOf kind chunk body 1).crc ≠ crc32 (chunkData (frameData (frameOf kind chunk body 1))) := add_one_ne _

/-- Delivery 5, of a calendar. -/
def delivery : Delivery := { id := 5, kind := 3, chunks := 3, next := 1, length := 1100 }

theorem test_meets_NodesFollowTheHub_polls :
    (Memory.wf labLinked = true ∧ isNode labLinked = true ∧ domainOn 4 labLinked = true ∧ labLinked.sys.role = .head ∧
      labLinked.sys.mode ≠ .inert ∧ labLinked.sys.pause = false) ∧
    (let f := pollOf 0
     addressed f.route f.hops.toNat = ownChannel labLinked ∧ f.retry = false ∧ f.round.toNat ≤ labLinked.link.roundCtr ∧
     addressed [9] 1 ≠ ownChannel labLinked) ∧
    (labHead.link.roundCtr < (pollOf 1).round.toNat ∧ pollVerifies (pollOf 1) labHead = false ∧ isNode labHead = true) ∧
    (∀ n, pollVerifies (sealedPoll n) labLinked = true) ∧ labLinked.link.roundCtr < (sealedPoll 1).round.toNat ∧
    (sealedPoll 16384).round.toNat = labLinked.link.roundCtr + 16384 ∧
    -- a relayed answer on its last hop, and a relayed poll with its ZC
    (let s := put [(Reg.MET_FREQ_W_FREQ, 50000)] (labHead.updLink fun l => { l with chan := 7 })
     let msg : List Byte := [9, 7, 3] ++ zeros 20
     isNode s = true ∧ fieldOf msg 0 1 % 8 = 1 ∧ fieldOf msg 0 1 / 8 % 8 + 1 = 2 ∧ fieldOf msg 1 1 = s.link.chan ∧
     fieldOf (zeros 20) 1 1 ≠ s.link.chan ∧
     (let msg : List Byte := [8, 7, 3] ++ zeros 8 ++ [0x80, 0]
      fieldOf msg 0 1 / 8 % 8 + 1 = 2 ∧ fieldOf msg 1 1 = s.link.chan ∧ 32768 ≤ fieldOf msg 10 2 ∧
      getF s Reg.MET_FREQ_W_FREQ ≠ 0)) := by
  and_intros
  all_goals first
    | exact sealedPoll_verifies
    | decide +kernel

theorem test_meets_NodesFollowTheHub_chunks :
    (let f := frameOf 3 1 (.data [1, 2, 3]) 0
     let s := labHead.updLink fun l => { l with deliv := some delivery }
     f.crc = crc32 (chunkData (frameData f)) ∧ s.link.deliv = some delivery ∧ delivery.id = f.delivery.toNat ∧
     f.chunk.toNat = delivery.next ∧ delivery.whole = false ∧ fromParent f delivery.parent delivery.parentHub = true ∧
     delivery.kind = 3) ∧
    (let f := frameOf 3 2 (.data [1]) 1
     f.chunk.toNat ≠ delivery.next ∧ f.crc ≠ crc32 (chunkData (frameData f))) ∧
    (let f := frameOf 4 0 (.notice [[1]] (zeros 64) false) 0
     f.crc = crc32 (chunkData (frameData f)) ∧ f.body = .notice [[1]] (zeros 64) false ∧ f.kind = 4 ∧
     labHead.link.noticeId ≠ f.delivery.toNat) ∧
    (let d := { delivery with whole := true, member := false, sha := Config.sha256 [] }
     let s := labHead.updLink fun l => { l with deliv := some d }
     isNode s = true ∧ s.link.deliv = some d ∧ d.whole = true ∧ migrating s = false ∧ heldObject d s = [] ∧ d.member = false) ∧
    (∃ x : BitVec 256, Config.sha256 [] ≠ x) ∧ labHead.sys.paired = true ∧ labHead.link.inFallback = false := by
  and_intros
  all_goals first
    | exact frameOf_good _ _ _
    | exact frameOf_bad _ _ _
    | exact ⟨Config.sha256 [] + 1, by bv_omega⟩
    | rfl
    | decide +kernel

theorem test_meets_NodesFollowTheHub_services :
    ServesFree 0x703 (callOf 0x703 [0, 64]) (calling 0x703 [0, 64] lab) ∧
    (let s := withStrand str (labAs .hub)
     ServesFree 0x703 (callOf 0x703 [0, 64]) (calling 0x703 [0, 64] s) ∧ s.sys.role = .hub ∧
     (callOf 0x703 [0, 64]).arg 1 = 64 ∧ outsideWindow str ((callOf 0x703 [0, 64]).arg 0) ((callOf 0x703 [0, 64]).arg 1) = false ∧
     s.link.notices.length < 14) ∧
    (let s := withStrand str labHead
     ServesFree 0x703 (callOf 0x703 [0, 64]) (calling 0x703 [0, 64] s) ∧ s.sys.role ≠ .hub ∧ linkLost s = false) ∧
    (let s := withStrand str (labAs .head)
     ServesFree 0x703 (callOf 0x703 [0, 64]) (calling 0x703 [0, 64] s) ∧ linkLost s = true) ∧
    ServesFree 0x700 (callOf 0x700 [9]) (calling 0x700 [9] (labAs .repeater)) ∧
    ServesFree 0x700 (callOf 0x700 [9]) (calling 0x700 [9] (labAs .head)) ∧
    ServesFree 0x700 (callOf 0x700 [9]) (calling 0x700 [9] lab) ∧ dirAt ((callOf 0x700 [9]).arg 0) lab = none := by
  and_intros
  all_goals first
    | exact serves_free _ _ _ rfl rfl (by decide +kernel)
    | decide +kernel

theorem test_meets_HubPollsTheRound :
    (Memory.wf labHub = true ∧ hubRuns labHub = true ∧ labHub.link.todo = [] ∧ labHub.link.ran = true) ∧
    (let s := labHub.updLink fun l => { l with todo := [255, 3] }
     hubRuns s = true ∧ s.link.todo = 255 :: [3] ∧ 255 < 256 ∧ s.link.retrying = false) ∧
    (let s := labHub.updLink fun l => { l with todo := [3], retrying := true }
     s.link.retrying = true ∧ s.link.todo = 3 :: []) ∧
    (labHub.updLink fun l => { l with ran := false }).link.ran = false := by decide +kernel

/-- An answer of the node on channel 0, as it seals it for the poll `f`. -/
def answerTo (f : PollFrame) (s : State) : AnswerFrame :=
  let a : AnswerFrame :=
    { hops := 1, route := f.route, round := f.round.truncate 14, lqSnr := 0, lqUsable := 0, lqBlanked := 0, tones := 0, neigh := []
      state := 0, amps := #v[0, 0, 0], exporting := 0, evReq := 0, phase := 0, req := [], cost := 0, delivNext := 0, delivId := 0
      slotCtrl := 0, slot := [], tag := 0 }
  { a with tag := answerTagUnder (hubLinkKey 0 s) f.round.toNat f.retry a }

theorem test_meets_HubPollsTheRound_answer :
    let s := labHub.updLink fun l => { l with todo := [255, 3], poll := some (pollOf 1) }
    Memory.wf s = true ∧ hubRuns s = true ∧ s.link.todo = 255 :: [3] ∧ s.link.poll = some (pollOf 1) ∧
    answerFails (pollOf 1) (answerTo (pollOf 1) s) s = none := by
  refine ⟨by decide +kernel, by decide +kernel, rfl, rfl, ?_⟩
  unfold answerFails
  rw [if_neg (fun h => h rfl), if_neg (by rintro (h | h) <;> exact absurd h (by decide))]

theorem test_meets_SiteAllocation :
    (let s := labHub.updLink fun l => { l with ran := false }
     Memory.wf s = true ∧ hubRuns s = true ∧ s.link.todo = [] ∧ s.link.ran = false) ∧ labHub.link.ran = true ∧
    domainOn 4 lab = true ∧ (Memory.wf labHub = true ∧ domainOn 4 labHub = true ∧ labHub.sys.role = .hub) ∧ getF lab Reg.ALLOC_SA_DEF_SA_TMO = 0 ∧
    getF (put [(Reg.ALLOC_SA_DEF_SA_TMO, 1)] lab) Reg.ALLOC_SA_DEF_SA_TMO ≠ 0 ∧ lab.alloc.released = false ∧
    HostServes Reg.ALLOC_SA_IMPORT.addr lab ∧
    ServesFree 0x701 (callOf 0x701 [60, 7, 1]) (calling 0x701 [60, 7, 1] lab) ∧ requestOk 60 7 1 = true ∧ requestOk 800 1 0 = true ∧
    requestOk 59 7 1 = false ∧ requestOk 801 7 1 = false ∧ requestOk 60 8 1 = false ∧ requestOk 60 7 2 = false ∧
    ServesFree 0x701 (callOf 0x701 [60, 7, 1]) (calling 0x701 [60, 7, 1] (labAs .repeater)) ∧
    ServesFree 0x701 (callOf 0x701 [60, 7, 1]) (calling 0x701 [60, 7, 1] (labAs .head)) ∧ linkLost (labAs .head) = true ∧
    (let s := put [(Reg.LNK_CFG_OUTLET_0, 1)] labHub
     ServesFree 0x701 (callOf 0x701 [60, 7, 1]) (calling 0x701 [60, 7, 1] s) ∧ hubOutlet s = true ∧ s.alloc.ownReq = none) ∧
    ServesFree 0x702 (callOf 0x702 []) (calling 0x702 [] lab) ∧ ServesFree 0x702 (callOf 0x702 []) (calling 0x702 [] labHub) ∧
    ServesFree 0x702 (callOf 0x702 []) (calling 0x702 [] labHead) ∧ labHead.sys.paired = true ∧ labHead.link.reqs = [] ∧
    ServesFree 0x702 (callOf 0x702 []) (calling 0x702 [] (labAs .repeater)) := by
  and_intros
  all_goals first
    | exact serves_free _ _ _ rfl rfl (by decide +kernel)
    | exact serves_of (by decide +kernel)
    | decide +kernel

/-- A pairing runs on channel 255. -/
def pairingOf (slot : Option Nat) : Pairing := { channel := 255, ident := 9, repeater := false, eph := 5, slot, sponsor := 0, snr := 40 }

/-- An unpaired head with the installer at it. -/
def labJoin : State := put [(Reg.AO_PRES_STAT_INSTALLER, 1)] (labAs .head)

theorem labFull_none : channelOf 9 labFull = none ∧ freeChannel labFull = none := by
  constructor
  · unfold channelOf
    rw [List.find?_eq_none]; intro c hc
    have lt : c < 256 := List.mem_range.mp (List.mem_filter.mp hc).1
    rw [nodeAt_all (s := labFull) rfl lt]; decide
  · unfold freeChannel
    rw [List.find?_eq_none]; intro c hc
    rw [nodeAt_all (s := labFull) rfl (List.mem_range.mp hc)]; simp

theorem labHub_free : channelOf 9 labHub = none ∧ freeChannel labHub = some 1 := by
  constructor
  · unfold channelOf registered
    rw [List.find?_eq_none]; intro c hc
    have h := List.mem_filter.mp hc
    rw [nodeAt_all (s := labHub) rfl (List.mem_range.mp h.1)] at h
    exact absurd h.2 (by decide)
  · unfold freeChannel
    rw [show List.range 256 = 0 :: 1 :: (List.range 254).map (· + 2) by decide +kernel]
    rw [List.find?_cons_of_neg (by decide +kernel), List.find?_cons_of_pos (by decide +kernel)]

theorem test_meets_JoiningAndPairing :
    HostServes Reg.LNK_JOIN_OPEN.addr labHub ∧ domainOn 4 labHub = true ∧
    (Memory.wf labHub = true ∧ hubRuns labHub = true ∧ labHub.link.pairing = none) ∧
    (channelOf 9 labHub = none ∧ freeChannel labHub = some 1) ∧
    hubRuns labFull = true ∧ (channelOf 9 labFull = none ∧ freeChannel labFull = none) ∧
    (Memory.wf labJoin = true ∧ domainOn 4 labJoin = true ∧ labJoin.sys.role = .head ∧ labJoin.sys.paired = false ∧
      installer labJoin = true ∧ labJoin.link.joinBarred = false ∧ labJoin.sys.mode ≠ .inert) ∧
    (labJoin.updLink fun l => { l with joinTried := true }).link.joinTried = true ∧ labHead.sys.paired = true ∧
    (let s := labHub.updLink fun l => { l with pairing := some (pairingOf none) }
     hubRuns s = true ∧ s.link.pairing = some (pairingOf none) ∧
     ∀ key, (∃ i u, place (pairWork key) s = (some i, u)) ∧ ∃ u, place (pairWork key) (wornKeys s) = (none, u)) ∧
    (let s := put [(Reg.KEY_PAIR_PENDING, 1)] (labHub.updLink fun l => { l with pairing := some (pairingOf (some 3)) })
     HostServes Reg.KEY_PAIR_OK.addr s ∧ s.sys.role = .hub ∧ s.link.pairing = some (pairingOf (some 3)) ∧
     (pairingOf (some 3)).slot = some 3 ∧ (pairingOf (some 3)).channel < 256 ∧ getB s Reg.KEY_PAIR_PENDING = true) ∧
    HostServes Reg.LNK_REMOVE_GO.addr lab ∧ HostServes Reg.LNK_REMOVE_GO.addr labHub ∧
    (nodeAt (5#8).toNat labFull).reg = true ∧
    HostServes Reg.LNK_UNPAIR_LEAVE.addr labHub ∧ HostServes Reg.LNK_UNPAIR_LEAVE.addr labJoin ∧
    HostServes Reg.LNK_UNPAIR_LEAVE.addr (labAs .head) ∧ installer (labAs .head) = false := by
  refine ⟨serves_of (by decide +kernel), by decide +kernel, by decide +kernel, labHub_free, by decide +kernel, labFull_none,
    by decide +kernel, rfl, rfl,
    ⟨by decide +kernel, rfl, fun key => ⟨?_, ?_⟩⟩, ⟨serves_of (by decide +kernel), rfl, rfl, rfl, by decide, by decide +kernel⟩,
    serves_of (by decide +kernel), serves_of (by decide +kernel), by rw [nodeAt_all (s := labFull) rfl (by decide)],
    serves_of (by decide +kernel), serves_of (by decide +kernel), serves_of (by decide +kernel), by decide +kernel⟩
  · obtain ⟨i, u, e, -⟩ := place_finds (pairWork key) (labHub.updLink fun l => { l with pairing := some (pairingOf none) })
      (show engineUse engAes1 (labHub.updLink fun l => { l with pairing := some (pairingOf none) }) < 8 by decide +kernel)
      (by decide +kernel)
    exact ⟨i, u, e⟩
  · refine ⟨_, place_full (pairWork key) (wornKeys (labHub.updLink fun l => { l with pairing := some (pairingOf none) })) (fun i => ?_)
      (by decide +kernel)⟩
    unfold slotAt; split <;> simp [labHub, labAs, wornKeys, State.updKey, State.updLink, State.updSys, State.reset, Vector.get]

/-- Type A card 01020304 lies in the field, as last found. -/
def labCard : State := (lab.updRd fun r => { r with poll := true, cards := [⟨[1, 2, 3, 4], false⟩] })

/-- The entry of that card. -/
def cardBody : DirEntry :=
  { len := 4, uid := [1, 2, 3, 4, 0, 0, 0], flags := 0, account := 1, gen := 0, validFrom := 0, validTo := 0, ref := 0, group := 0, check := 0 }
def cardEntry : DirEntry := { cardBody with check := (crc32 cardBody.body).toNat }

/-- It stands in the first slot of the stash. -/
def inDirectory (s : State) : State := s.updRd fun r => { r with dir := [(stashBase, cardEntry)] }

theorem cardEntry_valid : cardEntry.valid = true := by decide +kernel

theorem dirAt_inDirectory (k : Nat) (s : State) : dirAt k (inDirectory s) = if k = stashBase then some cardEntry else none := by
  simp only [dirAt, inDirectory, State.updRd, mapGet?]
  by_cases h : k = stashBase
  · simp [h]
  · simp [h]

theorem lookup_none (uid : List Byte) (s : State) (h : s.rd.dir = []) : lookup uid s = (none, s) := by
  have n : ∀ k, dirAt k s = none := fun k => by simp [dirAt, h, mapGet?]
  have d : dropBad (searchSlots uid s) s = s := by
    unfold dropBad
    rw [show (searchSlots uid s).filter (fun k => ((dirAt k s).map (!·.valid)).getD false) = [] by
      rw [List.filter_eq_nil_iff]; intro k _; simp [n]]
    rfl
  have f : findUid uid s = none := by
    unfold findUid; rw [List.find?_eq_none]; intro k _; simp [n]
  unfold lookup; simp only [d, f]

theorem lookup_found (s : State) : ∃ j, lookup cardEntry.uidBytes (inDirectory s) = (some j, inDirectory s) ∧
    dirAt j (inDirectory s) = some cardEntry := by
  have d : dropBad (searchSlots cardEntry.uidBytes (inDirectory s)) (inDirectory s) = inDirectory s := by
    unfold dropBad
    rw [show (searchSlots cardEntry.uidBytes (inDirectory s)).filter
        (fun k => ((dirAt k (inDirectory s)).map (!·.valid)).getD false) = [] by
      rw [List.filter_eq_nil_iff]; intro k _
      rw [dirAt_inDirectory]; split <;> simp [cardEntry_valid]]
    rfl
  have m : stashBase ∈ searchSlots cardEntry.uidBytes (inDirectory s) := by
    unfold searchSlots inStash
    simp [inDirectory, State.updRd]
  have good : (cardEntry.valid && cardEntry.len == cardEntry.uidBytes.length && cardEntry.uidBytes == cardEntry.uidBytes) = true := by
    decide +kernel
  cases e : findUid cardEntry.uidBytes (inDirectory s) with
  | none =>
    unfold findUid at e
    have := List.find?_eq_none.mp e _ m
    rw [dirAt_inDirectory, if_pos rfl] at this
    exact absurd good this
  | some j =>
    refine ⟨j, by unfold lookup; simp only [d, e], ?_⟩
    unfold findUid at e
    have := List.find?_some e
    rw [dirAt_inDirectory] at this ⊢
    split at this
    · rename_i x hx; exact hx.symm ▸ by split at hx <;> simp_all
    · exact absurd this (by simp)

/-- An erased store: each of the 16 profiles is 96 bytes of 0xFF. -/
theorem profiles_erased (s : State) (h : s.store.cells = []) : profiles s = List.replicate 16 (List.replicate 96 0xFF) := by
  have e : ∀ a, nvBytes a 96 s = List.replicate 96 0xFF := fun a => by
    simp only [nvBytes, h, bytesAt_eq]
    exact List.ext_getElem (by simp) fun i _ _ => by simp [byteAt, mapGet, mapGet?]
  unfold profiles; simp only [e]; decide +kernel

theorem test_meets_ReaderCommands :
    (Memory.wf labCard = true ∧ readerFree labCard = true ∧ labCard.sys.mode ≠ .standby ∧
      sameUids ((foundCards (getF labCard Reg.RD_CFG_TYPES) [⟨false, .four 0x04030201#32⟩]).take 7) labCard.rd.cards = true ∧
      sameUids ((foundCards (getF labCard Reg.RD_CFG_TYPES) [⟨true, .seven 5#56⟩]).take 7) labCard.rd.cards = false) ∧
    readerFree lab = false ∧
    (let s := labCard.updSys fun y => { y with mode := .standby }
     Memory.wf s = true ∧ readerFree s = true ∧ s.sys.mode = .standby ∧
     ∃ n, n = clamp 1 50 (getF s Reg.RD_CFG_DET_TH) ∧ n < (255#8).toNat ∧ (0#8).toNat ≤ n) ∧
    (ServesCall 0x801 (callOf 0x801 [0]) (calling 0x801 [0] labCard) ∧ (callOf 0x801 [0]).pres = labCard.rd.pres ∧
      labCard.rd.cards[(callOf 0x801 [0]).arg 0]? = some ⟨[1, 2, 3, 4], false⟩) ∧
    (callOf 0x801 [0]).pres ≠ (labCard.updRd fun r => { r with pres := 1 }).rd.pres ∧
    (ServesCall 0x802 (callOf 0x802 [0, 3, 16]) (calling 0x802 [0, 3, 16] labCard) ∧ 15 < (callOf 0x802 [0, 3, 16]).arg 2) ∧
    (let w : WorkKey := { parent := 2, epoch := 0, lineage := [2, 0], label := [1], engine := engReader, wide := false, key := 7 }
     let s := calling 0x802 [0, 3, 15] (labCard.updKey fun k =>
       { k with slots := k.slots.set 3 { work := some w }, holds := [⟨0, 3, false⟩] })
     ServesCall 0x802 (callOf 0x802 [0, 3, 15]) s ∧ authRefused (callOf 0x802 [0, 3, 15]) s = none ∧
     s.rd.cards[(callOf 0x802 [0, 3, 15]).arg 0]? = some ⟨[1, 2, 3, 4], false⟩) ∧
    (let k := callOf 0x800 [0x04030201#32, 0x04000000#32]
     let uid := (leBytes (k.arg 0) 4 ++ leBytes (k.arg 1) 3).take (bits (k.arg 1) 24 4)
     let present (s : State) : Bool := s.rd.cards.any fun x => x.uid.length == uid.length && x.uid.take 7 == uid
     ServesCall 0x800 k (calling 0x800 k.args labCard) ∧ present labCard = true ∧ bits (k.arg 1) 24 4 = 4 ∧
     (labCard.updRd fun r => { r with tooMany := true }).rd.tooMany = true ∧ present lab = false ∧ uid.length = 4 ∧
     uid = cardEntry.uidBytes) ∧
    (profileOf 0 labCard = none ∧ profileOf (BitVec.allOnes 64) labCard = some (List.replicate 96 0xFF) ∧
      ∀ uid sig, genuine (List.replicate 96 0xFF) uid sig = true ∨ genuine (List.replicate 96 0xFF) uid sig = false) ∧
    ((callOf 0x802 [0, 3, 15]).pres = labCard.rd.pres) ∧
    (∃ u, lookup cardEntry.uidBytes lab = (none, u)) ∧
    (∃ j u e, lookup cardEntry.uidBytes (inDirectory lab) = (some j, u) ∧ dirAt j u = some e) := by
  and_intros
  all_goals first
    | exact serves_call _ _ _ rfl rfl
    | exact ⟨_, lookup_none _ _ rfl⟩
    | exact fun _ _ => by cases genuine _ _ _ <;> simp
    | exact let ⟨j, h, e⟩ := lookup_found lab; ⟨j, _, _, h, e⟩
    | exact ⟨_, rfl, by decide +kernel, by decide +kernel⟩
    | (unfold profileOf; rw [profiles_erased _ rfl]; decide +kernel)
    | decide +kernel

/-- The card's entry answers HUB_CONFIRM too. -/
theorem test_meets_NodesFollowTheHub_confirm :
    ServesFree 0x700 (callOf 0x700 [BitVec.ofNat 32 stashBase, 3]) (calling 0x700 [BitVec.ofNat 32 stashBase, 3] (inDirectory lab)) ∧
    dirAt ((callOf 0x700 [BitVec.ofNat 32 stashBase, 3]).arg 0) (inDirectory lab) = some cardEntry ∧ cardEntry.valid = true ∧
    (callOf 0x700 [BitVec.ofNat 32 stashBase, 3]).arg 1 = 3 :=
  ⟨serves_free _ _ _ rfl rfl (by decide +kernel), by decide +kernel, cardEntry_valid, rfl⟩

/-- The 32 bytes of the entry stand in the shared window. -/
def withEntry (s : State) : State := s.updCap fun c => { c with shared := putBytes 0 [] 0 cardEntry.bytes }

/-- A delta of no effect: one operation of an undefined kind, from sequence `b`, with the CRC `c`. -/
def deltaBody (b : Nat) (c : BitVec 32) : List Byte :=
  [0x44, 0x44, 0x4C, 0x54, 1, 0, 0, 0, 1, 0, 0, 0] ++ leBytes b 4 ++ [2, 0, 0, 0, 1, 0, 1, 0] ++ leBytes c.toNat 4 ++ [0, 0, 0, 0] ++
    List.replicate 36 0

/-- It stands in the delta area. -/
def withDelta (b : Nat) (c : BitVec 32) (s : State) : State :=
  s.updStore fun x => { x with cells := putBytes 0xFF [] 0x3F70000 (deltaBody b c) }

theorem nvBytes_withDelta (b : Nat) (c : BitVec 32) (s : State) : nvBytes 0x3F70000 68 (withDelta b c s) = deltaBody b c := by
  have h := bytesAt_putBytes 0xFF (m := []) rfl 0x3F70000 (deltaBody b c)
  rw [show (deltaBody b c).length = 68 by simp [deltaBody, leBytes]] at h
  simpa only [nvBytes, withDelta, State.updStore_store] using h

theorem delta_image (b : Nat) (c : BitVec 32) (s : State) :
    nvBytes 0x3F70000 (32 + 36 * min 14562 (fieldOf (nvBytes 0x3F70000 32 (withDelta b c s)) 8 4)) (withDelta b c s) = deltaBody b c := by
  have t : nvBytes 0x3F70000 32 (withDelta b c s) = (deltaBody b c).take 32 := by
    rw [← nvBytes_withDelta b c s]
    simp only [nvBytes, bytesAt_eq, ← List.map_take]; rfl
  rw [t, show fieldOf ((deltaBody b c).take 32) 8 4 = 1 from rfl]
  exact nvBytes_withDelta b c s

theorem delta_good : ∃ c, deltaCrcOk ((deltaBody 0 c).take (32 + 36 * 1)) = true := by
  refine ⟨crc32 (deltaBody 0 0), ?_⟩
  generalize hc : crc32 (deltaBody 0 0) = c
  have hz : ((deltaBody 0 c).take 68).take 24 ++ [0, 0, 0, 0] ++ ((deltaBody 0 c).take 68).drop 28 = deltaBody 0 0 := rfl
  have hf : leNat ((((deltaBody 0 c).take 68).drop 24).take 4) = c.toNat := leNat_leBytes4 c.toNat c.isLt
  unfold deltaCrcOk
  rw [hz, hc, hf]; simp

theorem deltaHead_take (bs : List Byte) : deltaHead (bs.take 24) = deltaHead bs := by
  have f : ∀ o k, o + k ≤ 24 → ((bs.take 24).drop o).take k = (bs.drop o).take k := fun o k h => by
    rw [List.drop_take, List.take_take, Nat.min_eq_left (by omega)]
  simp (disch := decide) only [deltaHead, f, List.take_take, Nat.min_eq_left]

theorem delta_heads (c : BitVec 32) : (deltaHead (deltaBody 0 c)).map (fun h => (h.full, h.nOps, h.baseSeq)) = some (false, 1, 0) ∧
    (deltaHead (deltaBody 5 c)).map (fun h => (h.full, h.nOps, h.baseSeq)) = some (false, 1, 5) := by
  rw [← deltaHead_take (deltaBody 0 c), ← deltaHead_take (deltaBody 5 c),
    show (deltaBody 0 c).take 24 = [0x44, 0x44, 0x4C, 0x54, 1, 0, 0, 0, 1, 0, 0, 0] ++ leBytes 0 4 ++ [2, 0, 0, 0, 1, 0, 1, 0] from rfl,
    show (deltaBody 5 c).take 24 = [0x44, 0x44, 0x4C, 0x54, 1, 0, 0, 0, 1, 0, 0, 0] ++ leBytes 5 4 ++ [2, 0, 0, 0, 1, 0, 1, 0] from rfl]
  decide +kernel

theorem test_meets_DirectoryCommands :
    Memory.wf (withEntry lab) = true ∧ risingFrom 0 lab.rd.dir = true ∧ HostServes Reg.DIR_CMD_OP.addr (withEntry lab) ∧
    HostServes Reg.DIR_CMD_OP.addr (labAs .head) ∧ dirOpen (labAs .head) = false ∧ dirOpen (withEntry lab) = true ∧
    (withEntry lab).rd.cmdLater = none ∧ (lab.updRd fun r => { r with cmdLater := some ⟨1, 0, []⟩ }).rd.cmdLater.isSome = true ∧
    dirWaits (lab.updSys fun y => { y with pause := true }) = true ∧ dirWaits (withEntry lab) = false ∧
    DirEntry.ofBytes (bytesAt 0 (withEntry lab).cap.shared 0 32) = cardEntry ∧ (withEntry lab).sys.pause = false ∧
    (withEntry lab).sys.takeover = false ∧ cardEntry.len = 4 ∧
    (DirEntry.ofBytes (bytesAt 0 lab.cap.shared 0 32)).len ≠ 4 ∧ (DirEntry.ofBytes (bytesAt 0 lab.cap.shared 0 32)).len ≠ 7 ∧
    (∀ s, ∃ j u x, lookup cardEntry.uidBytes (inDirectory s) = (some j, u) ∧ dirAt j u = some x) ∧
    (∃ u, lookup cardEntry.uidBytes (withEntry lab) = (none, u)) ∧ labHub.rd.ops.length + 1 < 14562 ∧
    HostServes Reg.DIR_DELTA_CTRL_APPLY.addr lab ∧ HostServes Reg.DIR_DELTA_CTRL_APPLY.addr (labAs .head) ∧ lab.rd.deltaLater = false ∧
    (lab.updRd fun r => { r with deltaLater := true }).rd.deltaLater = true ∧
    (∀ b c, nvBytes 0x3F70000 (32 + 36 * min 14562 (fieldOf (nvBytes 0x3F70000 32 (withDelta b c lab)) 8 4)) (withDelta b c lab) =
      deltaBody b c) ∧
    (∀ c, (deltaHead (deltaBody 0 c)).map (fun h => (h.full, h.nOps, h.baseSeq)) = some (false, 1, 0) ∧
      (deltaHead (deltaBody 5 c)).map (fun h => (h.full, h.nOps, h.baseSeq)) = some (false, 1, 5)) ∧
    (∃ c, deltaCrcOk ((deltaBody 0 c).take (32 + 36 * 1)) = true) ∧ lab.rd.seq = 0 ∧ lab.rd.series = none ∧
    (deltaHead (nvBytes 0x3F70000 32 lab)).isNone = true ∧
    (let s := labHub.updRd fun r => { r with ops := [⟨true, cardEntry⟩] }
     inService s.sys.mode = true ∧ s.sys.role = .hub ∧ s.rd.ops ≠ [] ∧ dirWaits s = false) ∧ dirHeads labFull ≠ [] ∧
    lab.rd.ops = [] := by
  repeat' apply And.intro
  all_goals first
    | exact serves_of (by decide +kernel)
    | exact ⟨_, lookup_none _ _ rfl⟩
    | exact fun b c => delta_image b c lab
    | exact delta_heads
    | exact delta_good
    | exact fun s => let ⟨j, h, e⟩ := lookup_found s; ⟨j, _, _, h, e⟩
    | decide +kernel

theorem leBytes_split (m : Nat) : ∀ n v, leBytes v (n + m) = leBytes v n ++ leBytes (v / 256 ^ n) m
  | 0, v => by simp [leBytes]
  | n + 1, v => by
    rw [show n + 1 + m = (n + m) + 1 by omega, leBytes, leBytes, leBytes_split m n (v / 256)]
    simp [Nat.div_div_eq_div_mul, Nat.pow_succ, Nat.mul_comm]

theorem leNat_leBytes : ∀ n v, leNat (leBytes v n) = v % 256 ^ n
  | 0, v => by simp [leBytes, leNat, Nat.mod_one]
  | n + 1, v => by
    rw [leBytes, leNat, leNat_leBytes n, BitVec.toNat_ofNat, show 256 ^ (n + 1) = 256 * 256 ^ n by rw [Nat.pow_succ, Nat.mul_comm], Nat.mod_mul]

theorem knock_proof (x y key : BitVec 128) :
    ∃ proof : BitVec 64, knockMac key 0x50 x y = beBytes proof.toNat 8 ∧ knockMac key 0x50 x y ≠ beBytes (proof + 1).toNat 8 := by
  unfold knockMac
  generalize Config.cmac key _ = v
  refine ⟨BitVec.ofNat 64 (v.toNat / 256 ^ 8), ?_, ?_⟩
  · unfold beBytes
    rw [leBytes_split 8 8, List.reverse_append, List.take_append_of_le_length (by simp [leBytes]), List.take_of_length_le (by simp [leBytes])]
    rw [BitVec.toNat_ofNat, Nat.mod_eq_of_lt (by have := v.isLt; omega)]
  · unfold beBytes
    rw [leBytes_split 8 8, List.reverse_append, List.take_append_of_le_length (by simp [leBytes]), List.take_of_length_le (by simp [leBytes])]
    intro h
    have e := congrArg leNat (List.reverse_inj.mp h)
    have lt := v.isLt
    rw [leNat_leBytes, leNat_leBytes] at e
    rw [BitVec.toNat_add, BitVec.toNat_ofNat, show (1 : BitVec 64).toNat = 1 from rfl, show 256 ^ 8 = 2 ^ 64 from rfl] at e
    omega

/-- The commissioning knot is imported, and a field transaction runs. -/
def commKnot : Knot :=
  { parent := 4, depth := 2, state := .imported, mask := 0x20, cutClass := 0, label := [0x43, 0x4D, 0x53, 0x4E] }
def tagKeyed : State := (tagIn id).updKey fun k => { k with knots := mapPut k.knots 9 commKnot }

theorem tagKeyed_key : ∃ key, tagKey tagKeyed = some key := by
  have e : knotNamed 4 [0x43, 0x4D, 0x53, 0x4E] tagKeyed = some (9, commKnot) := by decide +kernel
  exact ⟨_, by unfold tagKey; rw [e]; exact if_neg (by decide)⟩

theorem test_meets_TagTransactions :
    (Memory.wf lab = true ∧ domainOn 1 lab = true ∧ tagEnabled lab = true ∧ lab.tag.quiet = false ∧ muted lab = false ∧ lab.tag.inTx = false) ∧
    muted (tagIn id) = false ∧ muted (lab.updRd fun r => { r with offAt := some 0 }) = true ∧
    tagEnabled (put [(Reg.TAG_CFG_EN, 0)] lab) = false ∧
    (tagIn fun t => { t with quiet := true }).tag.quiet = true ∧ (tagIn id).tag.inTx = true ∧
    ([0x00, 0xA4, 0x04, 0x00] : List Byte) ≠ selectNdef ∧ fileOfId (0xE103#16).toNat = some .cc ∧ fileOfId (0xE106#16).toNat = some .comm ∧
    (tagIn fun t => { t with appSel := true }).tag.appSel = true ∧ (tagIn id).tag.appSel = false ∧
    (let s := tagIn fun t => { t with file := some .ndef }
     s.tag.file = some .ndef ∧ (0xF0A#16).toNat + (246#8).toNat = (fileAt .ndef s).2 ∧
     (fileAt .ndef s).2 < (0xF0B#16).toNat + (246#8).toNat) ∧
    (tagIn fun t => { t with file := some .comm }).tag.auth = false ∧ (tagIn fun t => { t with auth := true }).tag.auth = true ∧
    246 < (247#8).toNat ∧ (∃ key, tagKey tagKeyed = some key) ∧ tagKeyed.tag.inTx = true ∧ muted tagKeyed = false ∧
    (∀ x y key, ∃ proof : BitVec 64, knockMac key 0x50 x y = beBytes proof.toNat 8 ∧ knockMac key 0x50 x y ≠ beBytes (proof + 1).toNat 8) := by
  and_intros
  all_goals first
    | exact fun x y key => knock_proof x y key
    | exact tagKeyed_key
    | decide +kernel

/-! ## The hypotheses of the statements: tag, keys, display -/

/-- The commissioning application is authenticated, and the installer is present. -/
def tagAuth : State := labInstaller.updTag fun t => { t with inTx := true, auth := true, file := some .comm }

/-- The shortest record that COMMIT accepts stands in the inactive commissioning copy. -/
def tagRecord : State :=
  tagAuth.updTag fun t => { t with mem := putBytes 0 t.mem (commBase 1) [0x43, 0x4D, 0x53, 0x4E, 0, 0, 12, 0, 0x22, 0xD2, 0x45, 0x12] }

/-- A SESSION record with SEQ 7, and a SEAL with SEQ 8 after it. -/
def sessionRec : Record := { pos := 0, bytes := [2, 0, 0, 0, 7, 0, 0, 0] }
def sealRec : Record := { pos := 8, bytes := [0x0F, 0, 0, 0, 8, 0, 0, 0] }
def labReceipt (l : List Record) : State := lab.updLed fun x => { x with records := l }

theorem test_meets_TagWritesAndReceipts :
    (Memory.wf tagAuth = true ∧ tagAuth.tag.inTx = true ∧ muted tagAuth = false ∧ muted tagRecord = false ∧ tagAuth.tag.file = some .comm ∧ writeRights tagAuth = true ∧
      (0x3FF#16).toNat + [(5 : Byte)].length ≤ 0x400 ∧ tagAuth.tag.wrMode ≠ 0 ∧ tagVmin tagAuth ≤ (33#8).toNat ∧
      (17#8).toNat < tagVmin tagAuth ∧ (tagAuth.tag.wrMode ≠ 2 ∨ tagVmin tagAuth ≤ (33#8).toNat)) ∧
    (tagAuth.updTag fun t => { t with wrMode := 0 }).tag.wrMode = 0 ∧
    ((tagIn id).tag.file ≠ some .comm ∧ writeRights (tagIn id) = false) ∧
    (recordOk (tagBytes (commBase (writeCopy tagRecord)) 0x400 tagRecord) = true ∧ mayCommission tagRecord = true ∧
      tagRecord.sys.booted = true) ∧
    recordOk (tagBytes (commBase (writeCopy tagAuth)) 0x400 tagAuth) = false ∧
    ServesCall 0x900 (callOf 0x900 [7]) (calling 0x900 [7] lab) ∧ lab.tag.inTx = false ∧
    ServesCall 0x900 (callOf 0x900 [7]) (calling 0x900 [7] tagAuth) ∧
    ownRecord 0x02 ((callOf 0x900 [7]).arg 0) lab = none ∧
    ServesCall 0x900 (callOf 0x900 [7]) (calling 0x900 [7] (labReceipt [sealRec, sessionRec])) ∧
    ownRecord 0x02 7 (labReceipt [sealRec, sessionRec]) = some sessionRec.bytes ∧
    (sealAfter 7 (labReceipt [sealRec, sessionRec])).isSome = true ∧ sealAfter 7 (labReceipt [sessionRec]) = none ∧
    ownRecord 0x02 7 (labReceipt [sessionRec]) = some sessionRec.bytes ∧
    receiptsFull 1 (labReceipt [sealRec, sessionRec]) = false ∧ (labReceipt [sealRec, sessionRec]).sys.pfwLow = false ∧
    (let s := put [(Reg.TAG_CFG_KEEP, 1), (Reg.TAG_CFG_RCPT_N, 1)] ((labReceipt [sealRec, sessionRec]).updTag fun t =>
      { t with receipts := [(3, false)] })
     receiptsFull (clamp 1 8 (getF s Reg.TAG_CFG_RCPT_N)) s = true ∧ ownRecord 0x02 7 s = some sessionRec.bytes ∧ s.tag.inTx = false) ∧
    (let s := lab.updSys fun y => { y with mode := .backup }
     s.sys.mode = .noPower ∨ s.sys.mode = .backup) ∧ lab.sys.mode ≠ .noPower ∧ lab.sys.mode ≠ .backup ∧ lab.sys.mode ≠ .tagOnly ∧
    (lab.updSys fun y => { y with mode := .tagOnly }).sys.mode = .tagOnly := by
  repeat' apply And.intro
  all_goals first
    | exact serves_call _ _ _ rfl rfl
    | decide +kernel

/-- The root is derived, and a label of one byte stands at the start of the shared window. -/
def labKeys (s : State) : State :=
  (s.updKey fun k => { k with derived := true }).updCap fun c => { c with shared := [(0, 65)] }

/-- A working key under knot 2 for an engine. -/
def workOf (engine : Nat) : WorkKey := { parent := 2, epoch := 0, lineage := [2, 0], label := [65], engine, wide := false, key := 7 }

/-- Slot 3 holds a key. -/
def inSlot (engine : Nat) (host : Bool) (hs : List KeyHold) (s : State) : State :=
  s.updKey fun k => { k with slots := k.slots.set 3 { work := some (workOf engine), host }, holds := hs }

theorem place_labKeys (w : WorkKey) (he : w.engine < 8) : ∃ i u, place w (labKeys lab) = (some i, u) :=
  have ⟨i, u, h, _⟩ := place_finds w (labKeys lab) (by
      have : ∀ n < 8, engineUse n (labKeys lab) < 8 := by decide +kernel
      exact this _ he) (by decide +kernel)
  ⟨i, u, h⟩

theorem place_worn (w : WorkKey) : ∃ u, place w (wornKeys (labKeys lab)) = (none, u) :=
  ⟨_, place_full w _ (by
    intro i
    unfold slotAt
    split
    · simp [wornKeys, labKeys, State.updKey, State.updCap, lab, State.updSys, State.reset, Vector.get]
    · rfl) (by decide +kernel)⟩

/-- What the import of a knot below knot 4 asks, with the installer there. -/
def labImport : Prop :=
  let s := labKeys labInstaller
  getB s Reg.KEY_RESULT_BUSY = false ∧ (∃ p, knotAt (4#12).toNat s = some p ∧ p.state ≠ .cut ∧ p.depth < 8 ∧ (0x20#8) &&& ~~~p.mask = 0) ∧
  keyLabel (bits (0x81#8).toNat 0 5) s = [65] ∧ knotNamed (4#12).toNat [65] s = none ∧ 7 ∈ freeKnots s ∧ s.key.secrets.length < 256

theorem labImport_holds : labImport :=
  ⟨by decide +kernel, ⟨_, rfl, by decide +kernel⟩, by decide +kernel⟩

theorem test_meets_KeyTreeCommands :
    Memory.wf (labKeys lab) = true ∧ risingFrom 0 (labKeys lab).key.knots = true ∧
    HostServes Reg.KEY_CMD_OP.addr (labKeys lab) ∧ getB (put [(Reg.KEY_RESULT_BUSY, 1)] (labKeys lab)) Reg.KEY_RESULT_BUSY = true ∧
    HostServes Reg.KEY_CMD_OP.addr (put [(Reg.KEY_RESULT_BUSY, 1)] (labKeys lab)) ∧
    getB (labKeys lab) Reg.KEY_RESULT_BUSY = false ∧ keysOfMaster (labAs .head) = true ∧ HostServes Reg.KEY_CMD_OP.addr (labAs .head) ∧
    (keysOfMaster (labKeys lab) = false ∧
      (∃ p, knotAt (6#12).toNat (labKeys lab) = some p ∧ p.state ≠ .cut ∧ p.depth < 8 ∧ (0x55#8) &&& ~~~p.mask = 0) ∧
      keyLabel (bits (0x81#8).toNat 0 5) (labKeys lab) = [65] ∧ knotNamed (6#12).toNat [65] (labKeys lab) = none ∧
      7 ∈ freeKnots (labKeys lab)) ∧
    (subtreeOf (2#12).toNat (labKeys lab) = some 2 ∧ keyLabel (1#8).toNat (labKeys lab) = [65] ∧
      deriveRefused (2#12).toNat [65] (bits (2#8).toNat 0 3) (labKeys lab) = none ∧ keyLabel (1#8).toNat (wornKeys (labKeys lab)) = [65] ∧
      deriveRefused (2#12).toNat [65] (bits (2#8).toNat 0 3) (wornKeys (labKeys lab)) = none) ∧
    (∀ w : WorkKey, w.engine < 8 → ∃ i u, place w (labKeys lab) = (some i, u)) ∧
    (∀ w, ∃ u, place w (wornKeys (labKeys lab)) = (none, u)) ∧
    HostServes Reg.KEY_CMD_OP.addr (wornKeys (labKeys lab)) ∧
    subtreeOf (1#12).toNat (labKeys lab) = some 1 ∧
    (let s := inSlot engHmac true [] (labKeys lab)
     HostServes Reg.KEY_CMD_OP.addr s ∧ (slotAt s (3#12).toNat).host = true ∧ (slotAt s (3#12).toNat).firmware = false ∧
     strandHolds (3#12).toNat s = false ∧ (slotAt s (3#12).toNat).work = some (workOf engHmac) ∧ isEcc engHmac = false) ∧
    (slotAt (labKeys lab) (3#12).toNat).host = false ∧ (slotAt (inSlot engEcc0 true [] (labKeys lab)) (3#12).toNat).work = some (workOf engEcc0) ∧
    isEcc engEcc0 = true ∧
    (cutRefused (6#12).toNat (labKeys lab) = none ∧ (labKeys lab).sys.pause = false ∧
      (let s := (labKeys lab).updSys fun y => { y with pause := true }
       cutRefused (6#12).toNat s = none ∧ s.sys.pause = true ∧ HostServes Reg.KEY_CMD_OP.addr s) ∧
      cutRefused (3#12).toNat (labKeys lab) = some 0x0A) ∧
    (installer (labKeys lab) = false ∧ installer (labKeys labInstaller) = true ∧ keysOfMaster (labKeys labInstaller) = false ∧
      HostServes Reg.KEY_CMD_OP.addr (labKeys labInstaller) ∧ labImport ∧ (4#12 = 4#12 ∨ 4#12 = 6#12) ∧ 5#12 ≠ 4#12 ∧ 5#12 ≠ 6#12) ∧
    (let k := callOf 0xA00 [2, 0, 64, 4]
     let s := labStrand (labKeys lab)
     ServesCall 0xA00 k (calling 0xA00 k.args s) ∧ subtreeOf (k.arg 0) s = some 2 ∧ 0 < k.arg 2 ∧ k.arg 2 ≤ 64 ∧
     outsideWindow (getS s k.strand) (k.arg 1) (k.arg 2) = false ∧ (k.arg 3).testBit 8 = false ∧ heldSlots k.strand s = [] ∧
     (∀ l, l.length = 64 → deriveRefused (k.arg 0) l (bits (k.arg 3) 0 3) s = none) ∧
     (∀ l, l.length = 64 → deriveRefused (k.arg 0) l (bits 1 0 3) s = some rcKeyDest)) ∧
    (let k := callOf 0xA00 [1, 0, 4, 4]
     ServesCall 0xA00 k (calling 0xA00 k.args (labKeys lab)) ∧ subtreeOf (k.arg 0) (labKeys lab) = some 1) ∧
    (let k := callOf 0xA01 [6]
     ServesCall 0xA01 k (calling 0xA01 k.args (labKeys lab)) ∧ cutRefused (k.arg 0) (labKeys lab) = none ∧
     cutRefused 5 (labKeys lab) = some rcArg) ∧
    (let k := callOf 0xA02 [3, 0, 16]
     let h : KeyHold := ⟨0, 3, false⟩
     let s := inSlot engHmac false [h] (labStrand (labKeys lab))
     ServesCall 0xA02 k (calling 0xA02 k.args s) ∧ (heldSlots k.strand s).find? (·.slot = k.arg 0) = some h ∧ h.cut = false ∧
     (slotAt s h.slot).work = some (workOf engHmac) ∧ (workOf engHmac).engine = engHmac ∧
     outsideWindow (getS s k.strand) (k.arg 1) (k.arg 2) = false) ∧
    (let h : KeyHold := ⟨0, 3, true⟩
     (heldSlots 0 (inSlot engHmac false [h] (labKeys lab))).find? (·.slot = 3) = some h) := by
  and_intros
  all_goals first
    | exact serves_call _ _ _ rfl rfl
    | exact serves_of (by decide +kernel)
    | exact ⟨_, rfl, by decide +kernel⟩
    | exact fun w h => place_labKeys w h
    | exact place_worn
    | exact labImport_holds
    | (intro l hl
       have h0 : ¬(l.length = 0 ∨ 64 < l.length) := by omega
       have e : knotAt 2 (labStrand (labKeys lab)) = some ⟨0, 1, .live, 0x15, 0, [0x56, 0x45, 0x48, 0x49, 0x43, 0x4C, 0x45], 0⟩ := by decide +kernel
       unfold deriveRefused
       rw [show (callOf 0xA00 [2, 0, 64, 4]).arg 0 = 2 from rfl, e]
       dsimp only
       rw [if_neg (by decide), if_neg h0]
       decide +kernel)
    | decide +kernel

theorem test_meets_PresenceWindows :
    Memory.wf lab = true ∧ domainOn 0 lab = true ∧ domainOn 0 labOff = false ∧ HostServes Reg.AO_PRES_CTRL_CLOSE.addr labMetro ∧
    presBits labMetro ≠ 0 ∧ domainOn 7 labMetro = true ∧ 2 ≤ presBits labMetro ∧ getB labMetro Reg.MET_CAL_CMD_COMMIT = false ∧
    lab.sys.mode ≠ .commission ∧ (labMetro.updSys fun y => { y with mode := .commission }).sys.mode = .commission := by
  repeat' apply And.intro
  all_goals first
    | exact serves_of (by decide +kernel)
    | decide +kernel

theorem test_meets_DisplayRequests :
    Memory.wf lab = true ∧ platenOn lab = true ∧ speculative lab 0 = false ∧
    (let s := withStrand spec lab
     Memory.wf s = true ∧ platenOn s = true ∧ speculative s 0 = true ∧ entryFree 0 s = true) ∧ platenOn (lab.updSys fun y => { y with mode := .inert }) = false ∧
    ((0x00200000#32).toNat / 65536 % 256 = 0 ∨ 31 < (0x00200000#32).toNat / 65536 % 256) ∧
    ((0xFFFF#32).toNat / 65536 % 256 = 0) ∧ HostServes Reg.PL_CMD_MODE.addr lab ∧ HostServes Reg.PL_CMD_MODE.addr (labAs .head) ∧
    (labAs .repeater).sys.role = .repeater ∧ lab.sys.role = .standalone ∧ 3 < (4#3).toNat ∧ (3#3).toNat ≤ 3 ∧ (31#5) ≠ 0 ∧
    getB lab Reg.PL_CMD_SRC_USE = false := by
  repeat' apply And.intro
  all_goals first
    | exact serves_of (by decide +kernel)
    | decide +kernel

/-- A commit of white in region 1. -/
def whiteUpd : Upd := { region := 1, kind := .commit, mode := 1, image := ⟨0, 0, [], true, false⟩ }

/-- It waits, in the compatible format. -/
def labWait (s : State) : State := put [(Reg.PL_CFG_WFMT, 1)] (s.updPlt fun p => { p with waiting := [whiteUpd] })

/-- An update that drives no pixel runs. -/
def labRuns (u : Upd) : State := lab.updPlt fun p => { p with upds := [u], panelOn := true }

theorem waveOk_compat (m b : Nat) (s : State) (h : compatFmt s = true) : waveOk m b s = waveSound true (waveOf s) := by
  simp [waveOk, h]

/-- A clearing update of the compatible format has frames to come after its first. -/
def clearingUpd : Upd := { whiteUpd with clearing := true, keys := [1280] }
def labClearing : State := put [(Reg.PL_CFG_WFMT, 1)] (labRuns clearingUpd)

theorem clearing_goes_on : (pixelStep clearingUpd 1280 labClearing).done = false := by
  have h : compatFmt labClearing = true := by decide +kernel
  simp only [pixelStep, h, if_true, compatStep, compatFrames, show clearingUpd.clearing = true from rfl, show clearingUpd.frame = 0 from rfl]
  split <;> simp; omega

theorem clearing_all : (clearingUpd.keys.all fun k => (pixelStep clearingUpd k labClearing).done) = false := by
  rw [show clearingUpd.keys = [1280] from rfl, List.all_cons, clearing_goes_on]; rfl

/-- What an asset or a waveform file says is open: the state given is one where that alone decides which clause applies. -/
theorem test_meets_UpdatesAndPanelPower :
    Memory.wf (labWait lab) = true ∧ risingFrom 0 lab.plt.cur = true ∧ platenOn (labWait lab) = true ∧ nextUpd lab = none ∧
    nextUpd (labWait lab) = some whiteUpd ∧ whiteUpd.image.sound (labWait lab) = true ∧
    waveOk 1 (getF (labWait lab) Reg.PL_STATUS_BAND) (labWait lab) = waveSound true (waveOf (labWait lab)) ∧
    (let u := { whiteUpd with image := ⟨9, 0, [], false, false⟩ }
     let s := lab.updPlt fun p => { p with waiting := [u] }
     nextUpd s = some u ∧ u.image.sound s = Config.assetSound (assetCells s) 9) ∧
    (labWait lab).plt.panelOn = false ∧ whiteUpd.kind = .commit ∧
    (Memory.wf (labRuns whiteUpd) = true ∧ (labRuns whiteUpd).plt.upds = [whiteUpd] ∧ whiteUpd.stop = false ∧
      (whiteUpd.keys.all fun k => (pixelStep whiteUpd k (labRuns whiteUpd)).done) = true ∧ whiteUpd.clearing = false) ∧
    (Memory.wf labClearing = true ∧ labClearing.plt.upds = [clearingUpd] ∧ clearingUpd.stop = false ∧
      (clearingUpd.keys.all fun k => (pixelStep clearingUpd k labClearing).done) = false) ∧
    ({ whiteUpd with mismatches := 2 } : Upd).mismatches = 2 ∧ lab.plt.upds = [] ∧
    (let s := put [(Reg.PL_FAULT_CRACK, 1), (Reg.PL_FAULT_READBACK, 1)] lab
     getB s Reg.PL_FAULT_CRACK = true ∧ s.plt.crackOk = 0 ∧ getB s Reg.PL_FAULT_READBACK = true ∧
     (s.updPlt fun p => { p with crackOk := 1 }).plt.crackOk = 1 ∧ s.plt.rbDue = [] ∧ s.plt.pwrDue = []) ∧
    getB lab Reg.PL_FAULT_CRACK = false ∧ lab.plt.proof = [] ∧
    (labRuns whiteUpd).plt.panelOn = true ∧ (labRuns whiteUpd).plt.upds ≠ [] := by
  repeat' apply And.intro
  all_goals first
    | exact waveOk_compat _ _ _ (by decide +kernel)
    | exact clearing_all
    | decide +kernel
    | rfl

/-! ## The hypotheses of the statements: host port, store, modes -/

/-- A mode of the module in service. -/
def labIn (m : Mode) : State := lab.updSys fun y => { y with mode := m }

/-- No domain answers the host. -/
def labDown : State := lab.updSys fun y => { y with resetLow := true }

theorem test_meets_HostTransactions :
    Memory.wf lab = true ∧ hostUp labDown = false ∧ hostUp lab = true ∧ hostIrq lab = 0 ∧
    ((0#16 = 0 ∨ 256 < (0#16).toNat) ∧ (([] : List Word) = [] ∨ 256 < ([] : List Word).length)) ∧ 256 < (257#16).toNat ∧
    (1#16 ≠ hostCrc 0x02 0x1100000 [5] ∧ 1#16 ≠ hostCrc 0x42 0x10000000 [5] ∧ 1#16 ≠ hostCrc 0x31 3 [5]) ∧
    ([5#32].length ≤ 256 ∧ (256#16).toNat ≤ 256 ∧ burstOk false (0x11FFFFFE#32).toNat 1 = false ∧ burstOk true (0x1100000#32).toNat 1 = false ∧
      burstOk false (0x10000000#32).toNat 256 = false ∧ burstOk true (0x14000000#32).toNat 256 = false) ∧
    (HostServes 0x1100000 lab ∧ HostServes 0x1200000 lab ∧ 0xFFFF + [5#32].length ≤ 0x10000) ∧
    (HostServes 0x1000000 lab ∧ HostServes 0x1000000 (labIn .commission) ∧ HostServes 0x1000000 (labIn .factory) ∧
      (labIn .commission).sys.mode = .commission ∧ lab.sys.mode ≠ .factory ∧ lab.sys.mode ≠ .commission) ∧
    (let s := (labIn .boot).updSys fun y => { y with refHeld := true }
     hostUp s = true ∧ s.sys.mode = .boot ∧ s.sys.mode ≠ .standby) ∧
    (swriteTarget 0x3F70000 lab = true ∧ needsBlock 0x3F70000 4 lab = false ∧ swriteTarget 0 lab = false ∧ lab.sys.pause = false) ∧
    (((partOf 0xA00000).map (·.1.encrypted)).getD true = true ∧ ((partOf 0x3F70000).map (·.1.encrypted)).getD true = false) ∧
    (∀ k : Fin 8, HostServes (Reg.MB_OUT_EN_EN k.val).addr lab) ∧
    (burstOk false (0x800FC#32).toNat 1 = true ∧ undefinedAt (0x800FC#32).toNat = true ∧
      burstOk false (0x60000#32).toNat 1 = true ∧ undefinedAt (0x60000#32).toNat = false ∧
      portStop (0x60000#32).toNat (labIn .boot) = some errBusy ∧ portStop (0x60000#32).toNat (labIn .inert) = some errDomainOff ∧
      undefinedAt (0x70000#32).toNat = false ∧ portStop (0x70000#32).toNat (labIn .inert) = some errMode ∧
      undefinedAt (0x10600#32).toNat = false ∧ portStop (0x10600#32).toNat (labIn .standby) = some errDomainOff) := by
  repeat' apply And.intro
  all_goals first
    | exact serves_of (by decide +kernel)
    | exact fun k => serves_of (by revert k; decide +kernel)
    | decide +kernel

/-- The queue shows the host as its producer and consumer, is enabled, and has room for 64 items. -/
def labQ (q : Fin 64) (s : State) : State :=
  put [(Reg.Q_CTRL_PROD q.val, 1), (Reg.Q_CTRL_CONS q.val, 1), (Reg.Q_CTRL_EN q.val, 1), (Reg.Q_ALLOC_SIZE q.val, 1)] s

theorem test_meets_QueuesAndDoorbells :
    Memory.wf lab = true ∧ hostUp lab = true ∧ lab.sys.mode ≠ .standby ∧ lab.sys.mode ≠ .boot ∧
    (64 ≤ (64#32).toNat ∧ [0x3000_0000#32] ≠ [] ∧ [0x3000_0000#32].length ≤ 256 ∧ (256#16) ≠ 0 ∧ (256#16).toNat ≤ 256) ∧
    (shown 63 (Reg.Q_CTRL_PROD 63) lab ≠ 1 ∧ shown 63 (Reg.Q_CTRL_CONS 63) lab ≠ 1) ∧
    (let s := labQ 63 lab
     shown 63 (Reg.Q_CTRL_PROD 63) s = 1 ∧ shown 63 (Reg.Q_CTRL_CONS 63) s = 1 ∧
     ([0x3000_0000#32].filter fun w => itemType w != 0xF).length ≤ qRoom s 63 ∧ (∃ w ∈ [0x3000_0000#32], itemType w = 3 ∨ itemType w = 4) ∧
     (getQ s 63).items = [] ∧ (getQ s 63).taker = none) ∧
    (let s := put [(Reg.Q_CTRL_EN 63, 0)] (labQ 63 lab)
     shown 63 (Reg.Q_CTRL_PROD 63) s = 1 ∧ qRoom s 63 < ([5#32].filter fun w => itemType w != 0xF).length) ∧
    (let s := modQ 63 (fun x => { x with items := [5], taker := some 0, taken := 1, staleArmed := true }) (labQ 63 lab)
     shown 63 (Reg.Q_CTRL_CONS 63) s = 1 ∧ (getQ s 63).taker.isSome = true ∧ (getQ s 63).staleArmed = true ∧ (getQ s 63).items ≠ []) ∧
    (∀ q : Fin 64, HostServes (Reg.Q_FLUSH_FLUSH q.val).addr lab) ∧ ((getQ lab 0).staleArmed = false ∨ (getQ lab 0).items = []) ∧
    (let s := put [(Reg.Q_CTRL_PKT_EN 63, 1), (Reg.Q_CTRL_TO_HOST 63, 1)] (labQ 63 lab)
     getB s (Reg.Q_CTRL_PKT_EN 63) = true ∧ getB s (Reg.Q_CTRL_TO_HOST 63) = true) ∧
    (∀ k : Fin 8, HostServes (Reg.MB_IN_RING_RING k.val).addr lab) ∧ getF lab (Reg.MB_IN_PEND_PEND 7) = 0 ∧
    (lab.updSys fun y => { y with pause := true }).sys.pause = true ∧ (0x80000000#32).toNat = 2 ^ 31 ∧
    ((5 : Fin 8).val = coreMailbox lab.store.coreB ∧ (6 : Fin 8).val ≠ coreMailbox lab.store.coreB) ∧
    (lab.updStore fun x => { x with act := some { slot := 1 } }).store.act = some { slot := 1 } := by
  repeat' apply And.intro
  all_goals first
    | exact fun q => serves_of (by revert q; decide +kernel)
    | exact ⟨_, List.mem_singleton.mpr rfl, by decide⟩
    | decide +kernel

/-- The inactive slot as given, and the standby core ready. -/
def labSlot (x : FwSlot) (s : State) : State :=
  (modFw 1 (fun _ => x) s).updSys fun y => { y with standbyReady := true }

/-- A header of an image of 256 bytes stands in slot B. -/
def imageHead : List Byte :=
  [0x53, 0x59, 0x46, 0x57, 1, 0, 0, 0, 0, 0, 0, 0, 0, 1, 0, 0] ++ List.replicate 20 0 ++ (List.replicate 12 [1, 0]).flatten
def imageIn (s : State) : State :=
  (labSlot { state := .receiving } s).updStore fun t => { t with cells := putBytes 0xFF [] 0x400000 imageHead }
def labImage : State := imageIn lab

/-- The module waits for an image, INERT. -/
def inertImage : State := put [(Reg.SYS_INERT_REASON_REASON, 1)] (imageIn (modFw 0 (fun _ => { state := .rejected }) (labIn .inert)))

theorem sound_if_signed : (readSlot 1 labImage).sound =
    Config.imageSigned ((nvBytes 0x400000 256 labImage).take 0xA0 ++ []) ((nvBytes 0x400000 256 labImage).drop 0xA0) := by
  have h : ((nvBytes 0x400000 256 labImage).take 4 == [0x53, 0x59, 0x46, 0x57] && fieldOf (nvBytes 0x400000 256 labImage) 4 2 == 1 &&
    decide (256 ≤ fieldOf (nvBytes 0x400000 256 labImage) 0x0C 4) && decide (fieldOf (nvBytes 0x400000 256 labImage) 0x0C 4 ≤ 0x400000)) = true := by
    decide +kernel
  have l : fieldOf (nvBytes 0x400000 256 labImage) 0x0C 4 = 256 := by decide +kernel
  unfold readSlot
  simp only [show slotBase 1 = 0x400000 from rfl, l] at h ⊢
  simp only [h, Bool.true_and, Nat.sub_self]
  rfl

/-- A forme of no words and no entries stands in the inactive copy, and waits. -/
def labForme : State :=
  put [(Reg.VI_PILOT_STATE, 0xA)] ((lab.updCap fun c => { c with formePending := true }).updStore fun t =>
    { t with cells := putBytes 0xFF [] 0x980000 [0x53, 0x59, 0x46, 0x4D, 1, 0, 2, 0, 0, 0, 0, 0, 0, 0, 0, 0] })

theorem forme_if_signed : Config.formeSigned (nvBytes 0x980000 64 labForme) (nvBytes 0x980040 64 labForme) (nvBytes 0x3D40000 0x80000 labForme) = true →
    ∃ f, formeSound (inactiveForme labForme) labForme = some f := by
  intro h
  have k : inactiveForme labForme = 1 := rfl
  have r : ∃ f, readForme 1 labForme = some f ∧ f.words = 0 ∧ f.entries = [] := by
    have m : ¬((nvBytes 0x980000 64 labForme).take 4 ≠ [0x53, 0x59, 0x46, 0x4D] ∨ fieldOf (nvBytes 0x980000 64 labForme) 4 2 ≠ 1 ∨
        131072 < fieldOf (nvBytes 0x980000 64 labForme) 10 4 ∨ 320 < fieldOf (nvBytes 0x980000 64 labForme) 14 2) := by decide +kernel
    have w : fieldOf (nvBytes 0x980000 64 labForme) 10 4 = 0 := by decide +kernel
    have n : fieldOf (nvBytes 0x980000 64 labForme) 14 2 = 0 := by decide +kernel
    unfold readForme
    simp only [show formeBase 1 = 0x980000 from rfl]
    rw [if_neg m]
    exact ⟨_, rfl, w, by simp only [n]; rfl⟩
  obtain ⟨f, hf, hw, he⟩ := r
  refine ⟨f, ?_⟩
  unfold formeSound
  simp only [k, hf, hw, he, show formeBase 1 = 0x980000 from rfl, List.length_nil, Nat.mul_zero, Nat.add_zero]
  exact if_pos ⟨h, by simp⟩

theorem forme_idle : idleForForme labForme = true := by
  have g : ∀ n, getS labForme n = Strand.reset := fun n => by
    have v : labForme.cap.strands = Vector.replicate 320 Strand.reset := rfl
    simp [getS, Cap.strand, v, Vector.get]
  have a : allStrands.all (fun n => (getS labForme n).galley.isNone) = true := by
    rw [List.all_eq_true]; intro n _; rw [g]; rfl
  have r : (!sessionActive labForme && (!(labForme.sys.role != .repeater && (labForme.sys.role != .hub || hubOutlet labForme)) ||
      getF labForme Reg.VI_PILOT_STATE == 0xA)) = true := by decide +kernel
  unfold idleForForme
  simp only [a, Bool.and_true]
  exact r

/-- Signatures are open: the two states with an image and a forme are ones where the signature alone decides. -/
theorem test_meets_SlotsAndFormes :
    Memory.wf labImage = true ∧ labImage.store.runs < 2 ∧ HostServes Reg.UPD_CMD_OP.addr lab ∧
    openable (fwSlot (inactiveSlot lab) lab) = true ∧ openable (fwSlot (inactiveSlot labImage) labImage) = false ∧
    ((fwSlot (inactiveSlot labImage) labImage).state = .receiving ∧ inactiveSlot labImage = 1) ∧
    ((readSlot 1 labImage).sound =
      Config.imageSigned ((nvBytes 0x400000 256 labImage).take 0xA0 ++ []) ((nvBytes 0x400000 256 labImage).drop 0xA0)) ∧
    (fwSlot (inactiveSlot lab) lab).state ≠ .receiving ∧
    ((fwSlot 1 (labSlot { state := .staged, sound := true } lab)).state = .staged ∧
      (fwSlot 1 (labSlot { state := .previous, fmtOld := true } lab)).state = .previous ∧
      (fwSlot 1 (labSlot { state := .previous, fmtOld := true } lab)).fmtOld = true) ∧
    HostServes Reg.UPD_ACT_GO.addr lab ∧ installer lab = false ∧ installer labInstaller = true ∧
    (let s := labSlot { state := .staged, sound := true } labInstaller
     HostServes Reg.UPD_ACT_GO.addr s ∧ installer s = true ∧ (fwSlot 1 s).state = .staged ∧ legalWaits (fwSlot 1 s) s = false ∧
     s.sys.mode = roleMode s.sys.role ∧ s.sys.coreRetired = false ∧ s.sys.standbyReady = true ∧ s.store.act = none ∧
     (migrates (fwSlot 1 s) s = true → migrationBlocks (fwSlot 1 s) s + 75 ≤ storeFree s) ∧ bootCheck 1 s = true ∧
     getB (put [(Reg.SYS_HEALTH_CORE_NO_SPARE, 0)] s) Reg.SYS_HEALTH_CORE_NO_SPARE = false) ∧
    (let s := labSlot { state := .staged } labInstaller
     legalWaits (fwSlot 1 s) s = false ∧ bootCheck 1 s = false) ∧
    (let s := labSlot { state := .staged, sound := true, legalMin := 1, legal := some 1 } labInstaller
     legalWaits (fwSlot 1 s) s = true) ∧
    (let s := (labSlot { state := .staged, sound := true, fmts := [2, 1, 1, 1, 1, 1] } labInstaller).updStore fun t =>
       { t with dies := t.dies.map fun d => { d with free := 45 } }
     legalWaits (fwSlot 1 s) s = false ∧ migrates (fwSlot 1 s) s = true ∧ storeFree s < migrationBlocks (fwSlot 1 s) s + 75) ∧
    (inService lab.sys.mode = true ∧ lab.store.wait = none ∧ autoDue lab = false) ∧
    (let s := put [(Reg.UPD_CFG_AUTO, 1)] (labSlot { state := .staged, sound := true } lab)
     s.store.wait = none ∧ autoDue s = true ∧ legalWaits (fwSlot 1 s) s = false ∧ bootCheck 1 s = true) ∧
    (let s := (labSlot { state := .staged, sound := true } lab).updStore fun t => { t with wait := some { slot := 1 } }
     s.store.wait = some { slot := 1 } ∧ (fwSlot 1 s).state = .staged ∧ legalWaits (fwSlot 1 s) s = false ∧ bootCheck 1 s = true) ∧
    (domainOn 7 labForme = true ∧ labForme.sys.mode ≠ .boot ∧ labForme.sys.mode ≠ .inert ∧ labForme.sys.pause = false ∧
      labForme.sys.takeover = false ∧ formeWaits labForme = true ∧ idleForForme labForme = true ∧ labForme.store.formeAct < 2) ∧
    (Config.formeSigned (nvBytes 0x980000 64 labForme) (nvBytes 0x980040 64 labForme) (nvBytes 0x3D40000 0x80000 labForme) = true →
      ∃ f, formeSound (inactiveForme labForme) labForme = some f) ∧
    (readForme 1 lab).isNone = true ∧ formeWaits lab = false := by
  and_intros
  all_goals first
    | with_reducible exact sound_if_signed
    | with_reducible exact forme_if_signed
    | with_reducible exact forme_idle
    | exact serves_of (by decide +kernel)
    | decide +kernel

theorem test_meets_HandoversAndUpkeep :
    Memory.wf lab = true ∧
    (let a : Activation := { slot := 1 }
     let s := (labSlot { state := .trying, sound := true } lab).updStore fun t => { t with act := some a }
     s.store.act = some a ∧ a.slot < 2 ∧ s.sys.takeover = false ∧ s.sys.mode = roleMode s.sys.role ∧ s.sys.pause = false ∧
     midRound s = false ∧ a.same = false ∧ (fwSlot (1 - a.slot) s).state = .active ∧ a.legal = none) ∧
    ({ slot := 0, same := true, legal := some 2 } : Activation).legal = some 2 ∧
    ((labIn .handover).updSys fun y => { y with pause := true }).sys.pause = true ∧
    midRound (labHub.updLink fun l => { l with todo := [1] }) = true ∧ labHub.sys.mode = roleMode labHub.sys.role ∧ lab.store.act = none ∧
    (domainOn 2 lab = true ∧ lab.sys.coreRetired = false ∧ clamp 10 255 (getF lab Reg.UPD_CFG_CE_LIM) < (256#16).toNat ∧
      ¬(clamp 10 255 (getF lab Reg.UPD_CFG_CE_LIM) < (0#16).toNat ∨ false = true) ∧ true ≠ lab.store.coreB ∧ false = lab.store.coreB ∧
      (labSlot {} lab).sys.standbyReady = true ∧ migrates (fwSlot lab.store.runs lab) lab = false ∧ domainOn 7 lab = true) ∧
    (let k := callOf 0xD00 [0x3F30000, 0, 64]
     let s := labStrand lab
     ServesCall 0xD00 k (calling 0xD00 k.args s) ∧ migrating s = false ∧ 0 < k.arg 2 ∧ k.arg 2 ≤ 4096 ∧ 0x3F30000 ≤ k.arg 0 ∧
     k.arg 0 + k.arg 2 ≤ 0x3F70000 ∧ outsideWindow (getS s k.strand) (k.arg 1) (k.arg 2) = false ∧
     ((blocksOf (k.arg 0) (k.arg 2)).any fun l => blockWorn l s) = false ∧
     outsideWindow (getS s k.strand) ((callOf 0xD00 [0x3F30000, 4095, 64]).arg 1) (k.arg 2) = true) ∧
    (let s := wornOut (labStrand (lab.updStore fun t => { t with cells := [(0x3F30000, 0)] }))
     ((blocksOf 0x3F30000 64).any fun l => blockWorn l s) = true ∧ needsBlock 0x3F30000 64 s = true ∧ needsBlock 0x3F30040 64 s = false) ∧
    ¬(0x3F30000 ≤ (callOf 0xD00 [0, 0, 64]).arg 0) ∧
    (let e := (dieOf 0 lab).entry 0 (160#10).toNat
     e.inUse = true ∧ encryptedBlock e.logical = true ∧ mirroredBlock e.logical = false) ∧ ((dieOf 0 lab).entry 0 (1#10).toNat).inUse = false := by
  repeat' apply And.intro
  all_goals first
    | exact serves_call _ _ _ rfl rfl
    | decide +kernel

theorem image_boots : (readSlot 1 inertImage).sound = true → bootCheck 1 (verifySlot inertImage) = true := by
  intro h
  have st : (fwSlot (inactiveSlot inertImage) inertImage).state = .receiving := by decide +kernel
  have k : inactiveSlot inertImage = 1 := rfl
  unfold verifySlot
  simp only [k] at st ⊢
  rw [if_neg (by rw [st]; decide), if_pos h]
  have e : ∀ x, fwSlot 1 (modFw 1 (fun _ => x) inertImage) = x := fun x => rfl
  unfold bootCheck
  simp only [e]
  have f : ∀ x : FwSlot, x.fmts = (readSlot 1 inertImage).fmts → x.oldest = (readSlot 1 inertImage).oldest →
      formatsOk x (modFw 1 (fun _ => x) inertImage) = true := by
    intro x h1 h2
    have : formatsOk (readSlot 1 inertImage) inertImage = true := by decide +kernel
    simp only [formatsOk, h1, h2] at this ⊢
    exact this
  have l : ∀ x : FwSlot, x.legalMin = (readSlot 1 inertImage).legalMin → needsLegal x (modFw 1 (fun _ => x) inertImage) = false := by
    intro x h1
    have : needsLegal (readSlot 1 inertImage) inertImage = false := by decide +kernel
    simp only [needsLegal, h1] at this ⊢
    exact this
  rw [f { readSlot 1 inertImage with state := .staged, result := 0 } rfl rfl, l { readSlot 1 inertImage with state := .staged, result := 0 } rfl]
  simp [h]

theorem test_meets_StartUps :
    Memory.wf labOff = true ∧ labOff.store.runs < 2 ∧ labOff.sys.mode = .noPower ∧ labOff.sys.resetLow = false ∧
    labOff.sys.refHeld = false ∧ labOff.sys.factoryDone = true ∧
    ((fwSlot labOff.store.runs labOff).state = .active ∧ bootCheck labOff.store.runs labOff = true ∧ installer labOff = false) ∧
    (labOff.updSys fun y => { y with factoryDone := false }).sys.factoryDone = false ∧
    (let s := put [(Reg.AO_PRES_STAT_METRO, 1)] labOff
     metrologist s = true ∧ installer s = false) ∧ metrologist labOff = false ∧
    (∀ j : Fin 2, bootCheck j.val (modFw 0 (fun _ => {}) labOff) = false) ∧
    (labOff.updSys fun y => { y with resetLow := true }).sys.resetLow = true ∧ inService lab.sys.mode = true ∧
    labOff.pilot.bolt = false ∧ (labOff.updPilot fun x => { x with bolt := true }).pilot.bolt = true ∧
    (labOff.updSys fun y => { y with mode := .boot, booted := false }).sys.booted = false ∧
    (let s := (labIn .boot).updSys fun y => { y with resetLow := true, booted := false }
     s.sys.resetLow = true ∧ s.sys.mainGood = true ∧ s.sys.refHeld = false ∧ s.sys.factoryDone = true ∧ (fwSlot s.store.runs s).state = .active ∧
     bootCheck s.store.runs s = true ∧ installer s = false) ∧
    (let s := (labIn .boot).updSys fun y => { y with refHeld := true, booted := false }
     s.sys.refHeld = true ∧ s.sys.mainGood = true ∧ s.sys.resetLow = false) ∧
    (let s := lab.updSys fun y => { y with pfwConfirmed := true }
     s.sys.pfwConfirmed = true ∧ powered s = true ∧ s.sys.resetLow = false ∧ s.sys.refHeld = false) ∧
    (lab.sys.pfwConfirmed = false ∨ powered lab = false) ∧ (labIn .factory).sys.mode = .factory ∧
    (let s := put [(Reg.SYS_INERT_REASON_REASON, 1)] (labIn .inert)
     s.sys.mode = .inert ∧ getF s Reg.SYS_INERT_REASON_REASON = 1 ∧
     (fwSlot (1 - s.store.runs) (modFw 1 (fun _ => { state := .receiving }) s)).state = .receiving ∧
     (readSlot 1 (modFw 1 (fun _ => { state := .receiving }) s)).sound = false ∧
     (fwSlot s.store.runs (modFw 1 (fun _ => { state := .receiving }) s)).state ≠ .staged) ∧
    (inertImage.sys.mode = .inert ∧ getF inertImage Reg.SYS_INERT_REASON_REASON = 1 ∧ (fwSlot 1 inertImage).state = .receiving ∧
      (fwSlot 0 inertImage).state = .rejected ∧ inertImage.store.runs = 0 ∧
      ((readSlot 1 inertImage).sound = true → bootCheck 1 (verifySlot inertImage) = true) ∧ inertImage.sys.mainGood = true ∧
      inertImage.sys.resetLow = false ∧ inertImage.sys.refHeld = false ∧ inertImage.sys.factoryDone = true ∧ installer inertImage = false) ∧
    lab.sys.booted = true ∧ lab.sys.mode ≠ .inert ∧ lab.sys.coreRetired = false ∧ lab.store.act = none ∧
    domainOn (standbyDomain lab) lab = true ∧ domainOn 7 lab = true ∧ lab.sys.standbyReady = false ∧
    getB lab Reg.SYS_HEALTH_CORE_NO_SPARE = false ∧ (lab.updSys fun y => { y with coreRetired := true }).sys.coreRetired = true := by
  and_intros
  all_goals first
    | with_reducible exact image_boots
    | decide +kernel

theorem test_meets_ResetsAndFailures :
    Memory.wf lab = true ∧ powered lab = true ∧ powered labOff = false ∧ lab.sys.mainGood = true ∧ lab.sys.rfField = false ∧
    lab.sys.vbackOk = true ∧ (lab.updSys fun y => { y with vbackOk := false }).sys.vbackOk = false ∧ labOff.sys.mainGood = false ∧
    lab.sys.refHeld = false ∧ (lab.updSys fun y => { y with pfwLow := true }).sys.pfwLow = true ∧ lab.sys.pfwConfirmed = false ∧
    inService lab.sys.mode = true ∧ lab.sys.pause = false ∧
    (let s := (lab.updSys fun y => { y with pfwConfirmed := true }).updSw fun w => { w with k1 := true }
     s.sys.pfwConfirmed = true ∧ coilOn s = true) ∧
    (hostUp lab = true ∧ sessionActive lab = false ∧ lab.sys.factoryDone = true ∧ lab.store.runs < 2 ∧
      (fwSlot lab.store.runs lab).state = .active ∧ bootCheck lab.store.runs lab = true ∧ installer lab = false) ∧
    HostServes Reg.SYS_RESET_SOFT.addr (inSession lab) ∧ sessionActive (inSession lab) = true ∧ HostServes Reg.SYS_RESET_CAP.addr lab ∧
    (domainOn 7 lab = true ∧ fCap lab ≠ 0 ∧ fCap (labIn .inert) = 0) ∧
    (let s := modS 1 (fun t => { t with st := .ready }) (withStrand str lab)
     (getS s 0).fbEn = false ∧ (getS s 1).fbEn = false ∧ (getS s 0).st = .running ∧ (getS s 1).st = .ready) ∧
    (domainOn 2 lab = true ∧ lab.sys.mode ≠ .boot ∧ lab.sys.takeover = false ∧ lab.store.act = none) ∧
    (let s := lab.updSys fun y => { y with mainGood := true, resetLow := true, mode := .tagOnly, vbackOk := true }
     domainOn 2 s = false) ∧ labOff.sys.refHeld = false ∧ lab.led.on = false ∧ (lab.updLed fun l => { l with on := true }).led.on = true ∧
    (let s := lab.updSys fun y => { y with takeover := true, standbyReady := true }
     s.sys.takeover = true ∧ s.sys.standbyReady = true ∧ s.sys.ctrlStop = false ∧ s.sw.stage = .opened ∧ coilOn s = false ∧
     (s.updSw fun w => { w with stage := .closed }).sw.stage = .closed) := by
  repeat' apply And.intro
  all_goals first
    | exact serves_of (by decide +kernel)
    | decide +kernel

theorem test_meets_ModesAndSupervision :
    Memory.wf lab = true ∧ HostServes Reg.SYS_CTRL_REQ_COMMISSION.addr lab ∧ lab.sys.mode = roleMode lab.sys.role ∧
    sessionActive lab = false ∧ installer labInstaller = true ∧ installer lab = false ∧ coilOn labInstaller = false ∧
    HostServes Reg.SYS_CTRL_REQ_COMMISSION.addr (inSession lab) ∧ sessionActive (inSession lab) = true ∧
    HostServes Reg.SYS_CTRL_REQ_COMMISSION.addr (labIn .commission) ∧ (labIn .commission).sys.mode = .commission ∧
    HostServes Reg.SYS_CTRL_REQ_COMMISSION.addr (labIn .inert) ∧ (labIn .inert).sys.mode = .inert ∧
    (let s := (labIn .commission).updSys fun y => { y with staged := [⟨0x100, [65]⟩] }
     s.sys.staged = [⟨0x100, [65]⟩] ∧ s.sys.mode = .commission ∧ coilOn s = false ∧
     ((labIn .commission).updSys fun y => { y with staged := [⟨9, []⟩] }).sys.staged = [⟨9, []⟩]) ∧
    (let s := put [(Reg.VI_PILOT_STATE, 0xA), (Reg.SYS_CTRL_STBY_EN, 1)] lab
     s.sys.role ≠ .repeater ∧ getF s Reg.VI_PILOT_STATE = 0xA ∧ sessionActive s = false ∧ deliveryPending s = false ∧
     getB s Reg.SYS_CTRL_STBY_EN = true ∧ getB (put [(Reg.SYS_CTRL_STBY_EN, 0)] s) Reg.SYS_CTRL_STBY_EN = false) ∧
    deliveryPending (lab.updStore fun t => { t with act := some { slot := 1 } }) = true ∧ (labIn .standby).sys.mode = .standby ∧
    lab.sys.mode ≠ .standby ∧ lab.sys.mode ≠ .commission ∧
    domainOn 0 lab = true ∧ domainOn 0 labOff = false ∧ lab.led.on = false ∧ (lab.updLed fun l => { l with on := true }).led.on = true ∧
    domainOn 7 lab = true ∧ domainOn 7 labOff = false := by
  repeat' apply And.intro
  all_goals first
    | exact serves_of (by decide +kernel)
    | decide +kernel

theorem test_meets_DarkDomainsAreNotServed :
    let s := labIn .inert
    Memory.wf s = true ∧ hostUp s = true ∧ s.sys.mode ≠ .boot ∧ s.sys.mode ≠ .standby ∧
    burstOk false (0x60000#32).toNat 1 = true ∧ domainOn (domainOf (0x60000#32).toNat) s = false := by decide +kernel

theorem test_meets_IdleStepIsAMicrosecond : lab.pending = [] := rfl

theorem test_meets_StepRunsTheFirstCommand : ({ lab with pending := [.status] } : State).pending = .status :: [] := rfl

theorem test_meets_MemoriesStayCanonical : Memory.wf lab = true ∧ ∃ t, step lab = .next t := ⟨by decide +kernel, _, rfl⟩

/-! ## Steps with the result that a worked case of the manual gives -/

/-- What a field of the state after a step reads; none where the step does not complete. -/
def after {α : Type} (o : Out) (f : State → α) : Option α :=
  match o with
  | .next t => some (f t)
  | _ => none

/-- 04: `(p1) addi w3, w2, -5` is 0x4132_3FFB; with w2 = 60, w3 becomes 55. -/
theorem test_addi_worked_case :
    after (exec (.addi 0 (BitVec.ofNat 26 0x41323FFB)) (onEngine { str with p := 3 } lab)) (fun t => getW (getS t 0) 3) = some 55 := by
  decide +kernel

/-- 04: a branch at word 0x0128 back to 0x0120 is 0xA001_FFF8. -/
theorem test_branch_worked_case :
    after (exec (.br 0 (BitVec.ofNat 26 0xA001FFF8)) (onEngine { str with pc := 0x128 } (lab.updCap fun c => c) |>.updCap fun c =>
      { c with formeWords := 0x200 })) (fun t => (getS t 0).pc) = some 0x120 := by decide +kernel

/-- 14 R307: card X, 04 A2 19 6C 3B 80 91, is found before card Y, 04 A2 19 6C 3B 80 11. -/
theorem test_inventory_worked_case :
    (foundCards 1 [⟨false, .seven 0x11803B6C19A204⟩, ⟨false, .seven 0x91803B6C19A204⟩]).map (·.uid) =
      [[0x04, 0xA2, 0x19, 0x6C, 0x3B, 0x80, 0x91], [0x04, 0xA2, 0x19, 0x6C, 0x3B, 0x80, 0x11]] := by decide +kernel

/-- 17: 23 °C at EP_TS is band 8. -/
theorem test_panel_temp_worked_case : after (exec (.panelTempRead 230) lab) (fun t => getF t Reg.PL_STATUS_BAND) = some 8 := by
  decide +kernel

/-- A channel of the allocation worked case. -/
def ask (c : Nat) (phases : List Nat) (k grant want m : Nat) (answered : Bool) (held : Nat) : Ask :=
  { c, phases, k, flow := { grant := grant, held := 0 }, answered, want, probe := none, reserved := held, committed := max grant m
    recent := false, prio := 0, waited := ofBool (grant = 0), barred := false }

/-- 13: the worked case of the chapter: targets, then the grants published, of channels 1 to 12; the committed use is 181.5. -/
theorem test_allocation_worked_case :
    let r := runFlow [ask 1 [0, 1, 2] 3 160 160 158 true 0, ask 2 [0, 1, 2] 3 105 105 96 true 0, ask 3 [0] 1 140 320 139 true 0,
      ask 4 [0] 1 140 160 138 true 0, ask 5 [1] 1 100 320 99 true 0, ask 6 [1] 1 100 200 98 true 0, ask 7 [1] 1 100 130 97 true 0,
      ask 8 [2] 1 200 320 196 true 0, ask 9 [2] 1 160 160 159 true 0, ask 10 [0, 1, 2] 1 0 160 0 true 0, ask 11 [0] 1 0 0 0 true 0,
      ask 12 [0] 1 80 160 0 false 80] [] ⟨[660, 580, 700], 1800⟩
    r.grants.map (·.1.c) = [10, 11, 1, 2, 3, 4, 5, 6, 7, 8, 9, 12] ∧
    r.grants.map (·.1.target) = [96, 0, 96, 96, 146, 146, 96, 96, 96, 252, 160, 0] ∧
    r.grants.map (·.2) = [0, 0, 96, 96, 140, 140, 96, 96, 96, 200, 160, 80] ∧
    r.used.foldl (fun n u => n + u.2.1 * u.2.2) 0 = 1815 ∧ r.deficit = false := by decide +kernel

/-- 16: the host cuts knot 0x041, of epoch 3, with knot 0x042 beneath it. -/
theorem test_cut_worked_case :
    after (exec (.cut 0x041) ((labKeys lab).updKey fun k =>
      { k with knots := k.knots ++ [(0x041, ⟨6, 2, .live, 0x55, 0, [0x46, 0x4C, 0x45, 0x45, 0x54], 3⟩),
                                    (0x042, ⟨0x041, 3, .live, 0x55, 0, [65], 0⟩)] }))
      (fun t => ((knotAt 0x041 t).map fun k => (k.state, k.epoch), (knotAt 0x042 t).isNone, getF t Reg.KEY_RESULT_CODE)) =
      some (some (.cut, 4), true, 0) := by decide +kernel

/-- 11: account 17 with B = −2.000 and E = 2.000 is topped up by 10.000: B = 8.000 and E = 0. -/
theorem test_topup_worked_case :
    after (exec .ledTopup (put [(Reg.LED_TOPUP_AMT_VALUE, 10000), (Reg.LED_TOPUP_ACCT_ACCOUNT, 17)]
      (modAccount 17 (fun _ => { b := -2000, e := 2000 }) (lab.updShadow fun m => mapSet 0 m Reg.LED_CFG_PREPAY_EN.key 1)))) (fun t => ((accountAt 17 t).b, (accountAt 17 t).e)) =
      some (8000, 0) := by decide +kernel

/-- 18 R397, 14 R319: the host reads HOST_IRQ with STATUS: no mailbox rings in the state given. -/
theorem test_status_returns_host_irq : after (exec .status lab) (fun t => (t.hp.out, getF t Reg.HOST_STAT_CMD)) = some ([0], 5) := by
  decide +kernel

/-- 18 R387: the value that CRC-16 with polynomial 0x1021 and initial value 0xFFFF gives over the nine digits "123456789". -/
theorem test_crc16_check_value : crc16 [0x31, 0x32, 0x33, 0x34, 0x35, 0x36, 0x37, 0x38, 0x39] = 0x29B1 := by
  decide +kernel

end Sys2Proof.Tests
end

section
/-! SUPPORT. Every command completes, and its next state keeps the queue, the canonical memories and the fuse: the laws
`Keeps` of the operations, put together row by row. -/
namespace Sys2Proof.Machine

/-- A command completes, and its next state keeps what `Keeps` names of `a`. -/
def OutKeeps (a : State) (o : Out) : Prop := ∃ t, o = .next t ∧ Keeps a t

theorem OutKeeps.next {a t : State} (h : Keeps a t) : OutKeeps a (.next t) := ⟨t, rfl, h⟩

theorem ite_keeps {a s t : State} {p : Prop} [Decidable p] (hs : Keeps a s) (ht : Keeps a t) :
    Keeps a (if p then s else t) := by
  split
  · exact hs
  · exact ht

/-- What the supervisor does acts on the state or not at all (09 R171). -/
theorem OutKeeps.supervised {a s : State} {f : State → State} (h : Keeps a s) (hf : ∀ b, Keeps a b → Keeps a (f b)) :
    OutKeeps a (supervised f s) := .next (ite_keeps (hf s h) h)

/-- A register write that is always taken. -/
theorem OutKeeps.taken {a s : State} {addr : Nat} {f : State → State} (h : Keeps a s)
    (hf : ∀ b, Keeps a b → Keeps a (f b)) : OutKeeps a (.next (hostTo addr (fun s => (statusOk, f s)) s)) :=
  .next (hostTo_keeps _ _ _ hf h)

/-- An instruction that issues, when its effect keeps. -/
theorem OutKeeps.issued {a s : State} {n : Fin 320} {i : Issue} (h : Keeps a s)
    (hi : ∀ b, Keeps a b → Keeps a (i.effect b)) : OutKeeps a (.next (i.run n s)) := .next (Issue.run_keeps _ _ _ hi h)

/-! ## The rows that are more than one operation -/

section
variable {a s : State} (h : Keeps a s)
include h

/-! ### Modes, resets and supplies (02, 20) -/

theorem execVbackRise_keeps : OutKeeps a (execVbackRise s) :=
  have hu := State.updSys_keeps (f := fun y => { y with vbackOk := true }) h fun _ w => w
  .next (ite_keeps (enterMode_keeps _ _ hu) hu)

theorem execAoLoss_keeps : OutKeeps a (execAoLoss s) :=
  have hu := State.updSys_keeps (f := fun y => { y with vbackOk := false }) h fun _ w => w
  .next (ite_keeps hu (aoGone_keeps _ hu))

theorem execFactoryDoneBlown_keeps : OutKeeps a (execFactoryDoneBlown s) :=
  .next (ite_keeps (resetAndBoot_keeps _ _ _ (State.updSys_keeps h fun _ _ => rfl)) h)

theorem execStandbyEntry_keeps : OutKeeps a (execStandbyEntry s) :=
  .next (ite_keeps (settle_keeps _ (enterMode_keeps _ _ (State.updSys_keeps (clearRegs_keeps _ _ h) fun _ w => w))) h)

theorem execPfwContactorOpen_keeps : OutKeeps a (execPfwContactorOpen s) :=
  .next (ite_keeps (State.updSw_keeps (setCoil_keeps _ _ _ (setCoil_keeps _ _ _ (clearArm_keeps _ h))) _) h)

theorem execResetNAssert_keeps : OutKeeps a (execResetNAssert s) :=
  have hu := State.updSys_keeps (f := fun y => { y with resetLow := true }) h fun _ w => w
  .next (ite_keeps (defaultF_keeps _ _ (enterMode_keeps _ _ (cause_keeps _ _ (clearPower_keeps _ _ hu)))) hu)

theorem execResetNRelease_keeps (msel : Role) : OutKeeps a (execResetNRelease msel s) :=
  have hu := State.updSys_keeps (f := fun y => { y with resetLow := false }) (sampleMsel_keeps msel s h) fun _ w => w
  .next (ite_keeps h (ite_keeps hu (ite_keeps (resetAndBoot_keeps _ _ _ hu) (boot_keeps _ hu))))

theorem execSoftReset_keeps : OutKeeps a (execSoftReset s) :=
  .next (ite_keeps (softReset_keeps _ h) (hostTo_keeps _ _ _ softReset_keeps h))

theorem execCapstanDoubleFault_keeps (faulted : List (Fin 320)) : OutKeeps a (execCapstanDoubleFault faulted s) :=
  .next (ite_keeps (capstanReset_keeps _ (foldl_keeps h faultInOrder_keeps)) h)

theorem execCoreTakeover_keeps : OutKeeps a (execCoreTakeover s) :=
  have hu := State.updSys_keeps (f := fun y => { y with takeover := false, standbyReady := false }) h fun _ w => w
  .next (ite_keeps (dirResume_keeps _ (raisePaused_keeps _
    (State.updStore_keeps (f := fun t => { t with coreB := !t.coreB }) hu fun _ w => w))) h)

theorem execHoldTExpiry_keeps : OutKeeps a (execHoldTExpiry s) :=
  .next (ite_keeps (stopDone_keeps _ (settle_keeps _ (startDisc_keeps _ _ (supervisorStop_keeps _
    (State.updSys_keeps h fun _ w => w))))) h)

theorem execRefClockFail_keeps : OutKeeps a (execRefClockFail s) :=
  .next (ite_keeps (defaultF_keeps _ _ (enterMode_keeps _ _ (setF_keeps _ _ _
    (State.updSys_keeps (clearPower_keeps _ _ h) fun _ w => w)))) h)

theorem execRefClockRestored_keeps (msel : Role) : OutKeeps a (execRefClockRestored msel s) :=
  have hu := setF_keeps Reg.PWR_STATUS_XTAL_FAIL 0 _
    (State.updSys_keeps (f := fun y => { y with refHeld := false }) (sampleMsel_keeps msel s h) fun _ w => w)
  .next (ite_keeps (ite_keeps (logEvent_keeps _ _ _ _ (boot_keeps _ hu)) hu) h)

theorem execInertImageReceived_keeps : OutKeeps a (execInertImageReceived s) :=
  have hv := verifySlot_keeps s h
  .next (ite_keeps (ite_keeps (resetAndBoot_keeps _ _ _ hv) hv) h)

theorem execDieHot_keeps (hot135 : Bool) : OutKeeps a (execDieHot hot135 s) :=
  have hl := logEvent_keeps 0 2 (ofBool hot135) _ (setF_keeps Reg.PWR_STATUS_HOT 1 s h)
  .next (ite_keeps h (ite_keeps (settle_keeps _ (setF_keeps _ _ _ hl)) hl))

theorem execDieCool_keeps : OutKeeps a (execDieCool s) := .next (ite_keeps (settle_keeps _ (setF_keeps _ _ _ h)) h)

/-! ### The Capstan and its services (03, 04, 06) -/

theorem execCapHmaxExceeded_keeps : ∀ e : StrandError, OutKeeps a (execCapHmaxExceeded e s)
  | .hmax n => .next (capHmaxExceeded_keeps n s h)
  | .context n => .next (contextFault_keeps n s h)

theorem execLogEvent_keeps : OutKeeps a (execLogEvent s) :=
  .next (serve_keeps _ _ _ (fun _ _ hb => ite_keeps (finishCode_keeps _ _ _ _ hb)
    (finishCode_keeps _ _ _ _ (logEvent_keeps _ _ _ _ hb))) h)

theorem serveReply_keeps {num : Nat} {serves : Nat → Bool} {send : Call → State → State}
    (hs : ∀ c b, Keeps a b → Keeps a (send c b)) : Keeps a (serve num (replyService serves send) s) :=
  serve_keeps _ _ _ (fun _ _ hb => replyService_keeps _ _ _ _ hs hb) h

theorem execHlcContractCheck_keeps (verdict : ContractVerdict) : OutKeeps a (execHlcContractCheck verdict s) :=
  .next (serve_keeps _ _ _ (fun c b hb => match verdict with
    | .valid ref expiry => finishCode_keeps c.id 0 [ref, expiry] b hb
    | .invalid => finishCode_keeps c.id 0x64 [] b hb
    | .revoked => finishCode_keeps c.id 0x23 [] b hb) h)

theorem execStoreWrite_keeps : OutKeeps a (execStoreWrite s) := .next (ite_keeps h (serve_keeps _ _ _ storeWrite_keeps h))

/-! ### The pilot and the vehicle (07) -/

theorem execPilotStateChange_keeps (first : PilotSample) (samples : List PilotSample) :
    OutKeeps a (execPilotStateChange first samples s) := .supervised h fun _ hb => foldl_keeps hb pilotSample_keeps

theorem execPilotAnomaly_keeps (samples : List PilotSample) (duties : List (BitVec 11)) :
    OutKeeps a (execPilotAnomaly samples duties s) :=
  .supervised h fun _ hb => settle_keeps _ (foldl_keeps (foldl_keeps hb pilotSample_keeps) periodDuty_keeps)

theorem execPilotTripHoldEnd_keeps : OutKeeps a (execPilotTripHoldEnd s) :=
  .supervised h fun _ hb => ite_keeps (settle_keeps _ (State.updSup_keeps hb _)) hb

theorem execPilotShortClear_keeps : OutKeeps a (execPilotShortClear s) :=
  .supervised h fun _ hb => ite_keeps (release_keeps _ _ hb) hb

theorem execPpChange_keeps (readings : List (BitVec 32)) : OutKeeps a (execPpChange readings s) :=
  .supervised h fun _ hb => foldl_keeps hb fun b r => ppReading_keeps b r.toNat

theorem execLockFeedbackCheck_keeps (level : Bool) : OutKeeps a (execLockFeedbackCheck level s) :=
  .supervised h fun b hb => by
    split
    · exact hb
    · have hs := seeBolt_keeps level _ (lockPulseEnd_keeps b hb)
      exact ite_keeps hb (ite_keeps (lockMoved_keeps _ _ hs) (ite_keeps hs (State.updPilot_keeps hs _)))

theorem execLockRetry_keeps (level : Bool) : OutKeeps a (execLockRetry level s) :=
  .supervised h fun b hb => by
    split
    · exact hb
    · next lock _ =>
      have hs := seeBolt_keeps level _ (lockPulseEnd_keeps _ (lockPulseStart_keeps lock b hb))
      exact ite_keeps hb (ite_keeps (lockMoved_keeps _ _ hs) (raiseHw_keeps _ _ _ (lastingBegins_keeps _ _ _
        (setF_keeps _ _ _ (State.updPilot_keeps hs _)))))

theorem execCertAnswerTimeout_keeps : OutKeeps a (execCertAnswerTimeout s) :=
  .next (ite_keeps (say_keeps _ _ _ _ (State.updHlc_keeps h _)) h)

theorem execHlcIdleTimeout_keeps : OutKeeps a (execHlcIdleTimeout s) :=
  .next (ite_keeps (hlcEnd_keeps _ _ (violation_keeps _ _ _ (raiseFw_keeps _ _ _ h))) h)

/-! ### Contactors and outputs (08) -/

theorem execWearMirror_keeps (ia ib ic : BitVec 16) : OutKeeps a (execWearMirror ia ib ic s) :=
  have hr := readCurrents_keeps ia ib ic s h
  .next (ite_keeps (State.updSw_keeps hr _) hr)

theorem execOutputOverload_keeps (n : Fin 12) : OutKeeps a (execOutputOverload n s) :=
  .supervised h fun _ hb => ite_keeps (raiseHw_keeps _ _ _ (latchOff_keeps _ _ _ hb)) hb

theorem execThermalShutdown_keeps (n : Fin 12) : OutKeeps a (execThermalShutdown n s) :=
  have ht := boundary_keeps Reg.OUT_TIMING_THERM_RETRY s h
  .next (ite_keeps h (raiseHw_keeps _ _ _ (ite_keeps (latchOff_keeps _ _ _ ht)
    (setCause_keeps _ _ _ (switchOut_keeps _ _ _ (clampEnergy_keeps _ _ ht))))))

theorem execThermalRestart_keeps (n : Fin 12) : OutKeeps a (execThermalRestart n s) :=
  have ho := switchOut_keeps n (fun o => { o with hot := false, restarts := s.sys.usec :: recentRestarts n s }) s h
  .next (ite_keeps (ite_keeps (setCause_keeps _ _ _ ho) ho) h)

/-! ### The ledger (11) -/

theorem execLedBillClose_keeps : OutKeeps a (execLedBillClose s) :=
  .taken h fun _ hb => State.updLed_keeps hb _

theorem execLedCalDropPassive_keeps : OutKeeps a (execLedCalDropPassive s) :=
  .taken h fun _ hb => State.updLed_keeps hb _

/-! ### The supervisor (09) -/

theorem execRcmUpdate_keeps (dc : BitVec 15) (backward : Bool) (ac : BitVec 16) :
    OutKeeps a (execRcmUpdate dc backward ac s) :=
  .supervised h fun b hb => by
    -- the reading is shown, then the counters are set, then a DC trip comes or not
    have hm := boundary_keeps Reg.SAFE_RCM_CFG_WARN_PCT _ (setF_keeps Reg.SAFE_RCM_MEAS_AC ac.toNat _
      (setB_keeps Reg.SAFE_RCM_MEAS_SIGN backward _ (setF_keeps Reg.SAFE_RCM_MEAS_DC dc.toNat b hb)))
    have hu := State.updSup_keeps hm
    have hd (p : Prop) [Decidable p] (f g) :=
      ite_keeps (p := p) (trip_keeps 0 dc.toNat _ (State.updSup_keeps (hu f) g)) (hu f)
    exact ite_keeps (ite_keeps (State.updSup_keeps (hu _) _) (hu _))
      (ite_keeps (trip_keeps _ _ _ (State.updSup_keeps (hd _ _ _) _)) (hd _ _ _))

theorem execRcmWarn_keeps : OutKeeps a (execRcmWarn s) :=
  .supervised h fun _ hb => ite_keeps hb (raiseHw_keeps _ _ _ (State.updSup_keeps hb _))

theorem execRcmSelftest_keeps (dc : BitVec 15) (backward : Bool) (ac : BitVec 16) (symmetric peaks inRange : Bool) :
    OutKeeps a (execRcmSelftest dc backward ac symmetric peaks inRange s) :=
  .supervised h fun _ hb => by
    split
    · exact hb
    · exact testStep_keeps _ _ _ _ _ _ hb

theorem execRcmSelftestResult_keeps (returnDc : BitVec 16) (healthy : Bool) :
    OutKeeps a (execRcmSelftestResult returnDc healthy s) :=
  .supervised h fun _ hb => by
    split
    · exact ite_keeps (endTest_keeps _ _ hb) hb
    · exact hb

theorem execRcmSelftestRepeat_keeps : OutKeeps a (execRcmSelftestRepeat s) :=
  .supervised h fun _ hb => by
    split
    · exact askTest_keeps _ _ _ _ hb
    · exact hb

theorem execRcmChainUnhealthy_keeps : OutKeeps a (execRcmChainUnhealthy s) :=
  .supervised h fun _ hb =>
    have hu := State.updSup_keeps hb fun u => { u with chainOk := false }
    have he := ite_keeps (endTest_keeps 6 _ hu) hu
    ite_keeps he (trip_keeps _ _ _ he)

theorem execPenTrip_keeps (volts : BitVec 16) : OutKeeps a (execPenTrip volts s) :=
  .supervised h fun b hb =>
    have hm := setF_keeps Reg.SAFE_PEN_MEAS_VOLTS volts.toNat b hb
    ite_keeps (trip_keeps _ _ _ hm) hm

theorem execPenClear_keeps (volts : BitVec 16) : OutKeeps a (execPenClear volts s) :=
  .supervised h fun b hb =>
    have hm := setF_keeps Reg.SAFE_PEN_MEAS_VOLTS volts.toNat b hb
    ite_keeps (release_keeps _ _ hm) hm

theorem execTempWarn_keeps (i : Fin 2) (t : BitVec 16) : OutKeeps a (execTempWarn i t s) :=
  .supervised h fun b hb =>
    have hm := readTemp_keeps i t.toInt b hb
    ite_keeps (raiseHw_keeps _ _ _ (State.updSup_keeps hm _)) hm

theorem execTempTrip_keeps (i : Fin 2) (t : BitVec 16) : OutKeeps a (execTempTrip i t s) :=
  .supervised h fun b hb =>
    have hm := readTemp_keeps i t.toInt b hb
    ite_keeps (trip_keeps _ _ _ hm) hm

theorem execTempClear_keeps (i : Fin 2) (t : BitVec 16) : OutKeeps a (execTempClear i t s) :=
  .supervised h fun b hb =>
    have hm := readTemp_keeps i t.toInt b hb
    ite_keeps (release_keeps _ _ hm) hm

theorem execSupplyTrip_keeps (va vb vc freq : BitVec 16) : OutKeeps a (execSupplyTrip va vb vc freq s) :=
  .supervised h fun b hb => by
    have hm := feedbackChanged_keeps _ (seeSupply_keeps (liveMask va.toNat vb.toNat vc.toNat) b hb)
    refine ite_keeps (trip_keeps _ _ _ ?_) ?_
    all_goals
      split
      · exact ite_keeps hm (trip_keeps _ _ _ hm)
      · exact hm

theorem execSupplyClear_keeps (va vb vc freq : BitVec 16) : OutKeeps a (execSupplyClear va vb vc freq s) :=
  .supervised h fun b hb =>
    have hm := feedbackChanged_keeps _ (seeSupply_keeps (liveMask va.toNat vb.toNat vc.toNat) b hb)
    have hv := ite_keeps hm (release_keeps 11 _ hm)
    ite_keeps hv (release_keeps _ _ hv)

theorem execOcGraceMidpoint_keeps (ia ib ic : BitVec 16) : OutKeeps a (execOcGraceMidpoint ia ib ic s) :=
  .supervised h fun b hb => by
    have hm := readCurrents_keeps ia ib ic b hb
    refine ite_keeps ?_ hm
    split
    · exact raiseHw_keeps _ _ _ (State.updSup_keeps hm _)
    · exact hm

theorem execOvercurrentTrip_keeps (ia ib ic : BitVec 16) : OutKeeps a (execOvercurrentTrip ia ib ic s) :=
  .supervised h fun b hb =>
    have hm := readCurrents_keeps ia ib ic b hb
    ite_keeps (trip_keeps _ _ _ hm) hm

theorem execRecloseTimer_keeps (bit : Fin 16) : OutKeeps a (execRecloseTimer bit s) :=
  .supervised h fun _ hb => ite_keeps (ite_keeps (askTest_keeps _ _ _ _ hb)
    (ite_keeps (incF_keeps _ _ (release_keeps _ _ hb)) hb)) hb

theorem execMeasLost_keeps : OutKeeps a (execMeasLost s) := .supervised h fun _ hb => ite_keeps (trip_keeps _ _ _ hb) hb

theorem execHostTrip_keeps : OutKeeps a (execHostTrip s) := .taken h (trip_keeps 15 0)

/-! ### The site link and the pairing (12, 13) -/

theorem execChunk_keeps : ∀ heard : Option ChunkFrame, OutKeeps a (execChunk heard s)
  | some f => .next (ite_keeps h (ite_keeps (hearChunk_keeps f s h) h))
  | none => .next (ite_keeps h (ite_keeps (ownWindow_keeps s h) (ite_keeps (hubWindow_keeps s h) h)))

theorem execSaTimeout_keeps : OutKeeps a (execSaTimeout s) :=
  .next (ite_keeps (lowerToGrant_keeps _ (setF_keeps _ _ _ h)) h)

theorem execLnkJoinOpen_keeps (win : BitVec 16) : OutKeeps a (execLnkJoinOpen win s) :=
  .taken h fun _ hb => setF_keeps _ _ _ (setF_keeps _ _ _ hb)

theorem execPairingReply_keeps (eph ledgerKey : List (BitVec 8)) (ident : Received (BitVec 64)) :
    OutKeeps a (execPairingReply eph ledgerKey ident s) :=
  .next (ite_keeps (pairingReply_keeps _ _ _ _ (receive_keeps _ _ h)) h)

/-! ### The panel (17) -/

theorem execPanelPowerRetry_keeps : OutKeeps a (execPanelPowerRetry s) :=
  .next (ite_keeps (updPl_keeps _ _ (recoverAll_keeps _ _ h)) h)

/-! ### The host port (18, 19) -/

theorem execRead_keeps (addr : BitVec 32) (len : BitVec 16) : OutKeeps a (execRead addr len s) :=
  .next (transaction_keeps _ _ _ (fun _ hb => ite_keeps
    (endRead_keeps _ _ (readWords_keeps _ _ _ _ wordRead_keeps hb)) (answerAs_keeps _ _ _ hb)) h)

theorem execSread_keeps (addr : BitVec 32) (len : BitVec 16) : OutKeeps a (execSread addr len s) :=
  .next (transaction_keeps _ _ _ (fun _ hb => ite_keeps
    (endRead_keeps _ _ (readWords_keeps _ _ _ _ storeReadHost_keeps hb)) (answerAs_keeps _ _ _ hb)) h)

theorem execSwrite_keeps (addr : BitVec 32) (words : List (BitVec 32)) (frame : Framing) :
    OutKeeps a (execSwrite addr words frame s) :=
  .next (transaction_keeps _ _ _ (fun b hb =>
    have he := endWrite_keeps 0x42 _ (writeWords_keeps _ addr.toNat words b storeWriteWord_keeps hb)
    ite_keeps (ite_keeps (logViolation_keeps _ _ _ _ (incF_keeps _ _ he)) he) (answerAs_keeps _ _ _ hb)) h)

theorem execQpush_keeps (addr : BitVec 32) (items : List (BitVec 32)) (frame : Framing) :
    OutKeeps a (execQpush addr items frame s) :=
  .next (transaction_keeps _ _ _ (fun _ hb => answerAs_keeps _ _ _ (onQueue_keeps _ _ _ (hostPush_keeps items) hb)) h)

theorem execQpop_keeps (addr : BitVec 32) (len : BitVec 16) : OutKeeps a (execQpop addr len s) :=
  .next (transaction_keeps _ _ _ (fun _ hb => answerAs_keeps _ _ _ (onQueue_keeps _ _ _ (hostPop_keeps len.toNat) hb)) h)

theorem execHostAbort_keeps (pause : Bool) : OutKeeps a (execHostAbort pause s) :=
  .next (ite_keeps (setF_keeps _ _ _ (hostViolation_keeps _ _ h)) h)

end

/-! ## Every row -/

/-- Every command completes and keeps what `Keeps` names: the rows in the order of `exec`, each by the law of the operation
that is its meaning. -/
theorem exec_keeps {a s : State} (h : Keeps a s) (i : Instr) : OutKeeps a (exec i s) := by
  cases i with
  | vbackRise => exact execVbackRise_keeps h
  | rfFieldAppear => exact .next (fieldAppear_keeps _ h)
  | fieldLost => exact .next (fieldLost_keeps _ h)
  | suppliesGood _ => exact .next (suppliesGood_keeps _ _ h)
  | standbyReady => exact .next (ite_keeps (State.updSys_keeps h fun _ w => w) h)
  | standbyReadyTimeout => exact .next (ite_keeps (setHealth_keeps _ _ h) h)
  | factoryDoneBlown => exact execFactoryDoneBlown_keeps h
  | reqCommission => exact .next (hostTo_keeps _ _ _ (requestCommission_keeps _) h)
  | commissionCommit _ => exact .next (commissionCommit_keeps _ _ h)
  | standbyEntry => exact execStandbyEntry_keeps h
  | standbyExit => exact .next (ite_keeps (settle_keeps _ (standbyExit_keeps _ h)) h)
  | pfwNFall => exact .next (ite_keeps (State.updSys_keeps h fun _ w => w) h)
  | pfwConfirm _ => exact .next (pfwConfirm_keeps _ _ h)
  | pfwContactorOpen => exact execPfwContactorOpen_keeps h
  | pfwReturnReset _ => exact .next (ite_keeps (resetAndBoot_keeps _ _ _ (sampleMsel_keeps _ _ h)) h)
  | resetNAssert => exact execResetNAssert_keeps h
  | resetNRelease msel => exact execResetNRelease_keeps h msel
  | vauxLoss => exact .next (vauxLoss_keeps _ h)
  | aoLoss => exact execAoLoss_keeps h
  | softReset => exact execSoftReset_keeps h
  | capstanReset => exact .taken h capstanReset_keeps
  | capstanDoubleFault faulted => exact execCapstanDoubleFault_keeps h faulted
  | coreFailure => exact .next (coreFailure_keeps _ h)
  | coreTakeover => exact execCoreTakeover_keeps h
  | holdTExpiry => exact execHoldTExpiry_keeps h
  | refClockFail => exact execRefClockFail_keeps h
  | refClockRestored msel => exact execRefClockRestored_keeps h msel
  | x32Fail => exact .next (ite_keeps (timeUnsure_keeps _ (setX32_keeps _ _ h)) h)
  | x32Retry _ => exact .next (ite_keeps (setX32_keeps _ _ h) h)
  | inertImageReceived => exact execInertImageReceived_keeps h
  | nop _ _ => exact .issued h (opNop_keeps _ _ _)
  | add _ _ => exact .issued h (opAdd_keeps _ _)
  | sub _ _ => exact .issued h (opSub_keeps _ _)
  | and _ _ => exact .issued h (opAnd_keeps _ _)
  | or _ _ => exact .issued h (opOr_keeps _ _)
  | xor _ _ => exact .issued h (opXor_keeps _ _)
  | shl _ _ => exact .issued h (opShl_keeps _ _)
  | shr _ _ => exact .issued h (opShr_keeps _ _)
  | sar _ _ => exact .issued h (opSar_keeps _ _)
  | mul _ _ => exact .issued h (opMul_keeps _ _)
  | mulu64 _ _ => exact .issued h (opMulu64_keeps _ _)
  | minu _ _ => exact .issued h (opMinu_keeps _ _)
  | maxu _ _ => exact .issued h (opMaxu_keeps _ _)
  | cmp _ _ => exact .issued h (opCmp_keeps _ _)
  | plog _ _ => exact .issued h (opPlog_keeps _ _)
  | addi _ _ => exact .issued h (opAddi_keeps _ _)
  | andi _ _ => exact .issued h (opAndi_keeps _ _)
  | ori _ _ => exact .issued h (opOri_keeps _ _)
  | xori _ _ => exact .issued h (opXori_keeps _ _)
  | shli _ _ => exact .issued h (opShli_keeps _ _)
  | shri _ _ => exact .issued h (opShri_keeps _ _)
  | sari _ _ => exact .issued h (opSari_keeps _ _)
  | cmpi _ _ => exact .issued h (opCmpi_keeps _ _)
  | ext _ _ => exact .issued h (opExt_keeps _ _)
  | ins _ _ => exact .issued h (opIns_keeps _ _)
  | ldi _ _ _ => exact .issued h (opLdi_keeps _ _ _)
  | ld _ _ => exact .issued h (opLoad_keeps _ _ _)
  | ldh _ _ => exact .issued h (opLoad_keeps _ _ _)
  | ldb _ _ => exact .issued h (opLoad_keeps _ _ _)
  | st _ _ => exact .issued h (opStore_keeps _ _ _)
  | sth _ _ => exact .issued h (opStore_keeps _ _ _)
  | stb _ _ => exact .issued h (opStore_keeps _ _ _)
  | ld64 _ _ => exact .issued h (opLd64_keeps _ _)
  | st64 _ _ => exact .issued h (opSt64_keeps _ _)
  | add64 _ _ => exact .issued h (opAdd64_keeps _ _)
  | sub64 _ _ => exact .issued h (opSub64_keeps _ _)
  | cmp64 _ _ => exact .issued h (opCmp64_keeps _ _)
  | shr64i _ _ => exact .issued h (opShr64i_keeps _ _)
  | acc _ _ => exact .issued h (opAcc_keeps _ _)
  | br _ _ => exact .issued h (opBr_keeps _ _)
  | jr _ _ => exact .issued h (opJr_keeps _ _)
  | get _ _ => exact .issued h (opGet_keeps _ _)
  | put _ _ => exact .issued h (opPut_keeps _ _)
  | puts _ _ => exact .issued h (opPuts_keeps _ _)
  | enq _ _ => exact .issued h (opEnq_keeps _ _)
  | enqw _ _ => exact .issued h (opEnqw_keeps _ _)
  | deq _ _ => exact .issued h (opDeq_keeps _ _)
  | deqw _ _ => exact .issued h (opDeqw_keeps _ _)
  | svc _ _ => exact .issued h (opSvc_keeps _ _)
  | svca _ _ => exact .issued h (opSvca_keeps _ _)
  | wait _ _ => exact .issued h (opWait_keeps _ _)
  | yield _ _ => exact .issued h (opYield_keeps _ _)
  | sig _ _ => exact .issued h (opSig_keeps _ _)
  | gset _ _ _ => exact .issued h (opGset_keeps _ _ _)
  | capHmaxExceeded e => exact execCapHmaxExceeded_keeps h e
  | turnEnd _ => exact .next (turnEnd_keeps _ _ h)
  | strandTimerExpiry _ => exact .next (strandTimerExpiry_keeps _ _ h)
  | svcComplete _ => exact .next (svcComplete_keeps _ _ h)
  | svcaComplete _ => exact .next (svcaComplete_keeps _ _ h)
  | queueWaitComplete _ => exact .next (queueWaitComplete_keeps _ _ h)
  | storeReadComplete _ => exact .next (storeReadComplete_keeps _ _ h)
  | galleyEntryFreed => exact .next (galleyEntryFreed_keeps _ h)
  | galleyResolve _ _ => exact .next (galleyResolve_keeps _ _ _ h)
  | galleyTimeout _ => exact .next (galleyTimeout_keeps _ _ h)
  | lockUp _ => exact .next (performWhen_keeps _ _ _ h)
  | pie _ => exact .next (performWhen_keeps _ _ _ h)
  | enable _ => exact .next (hostTo_keeps _ _ _ (hostStrand_keeps _ _) h)
  | disable _ => exact .next (hostTo_keeps _ _ _ (hostStrand_keeps _ _) h)
  | restart _ => exact .next (hostTo_keeps _ _ _ (hostStrand_keeps _ _) h)
  | halt _ => exact .next (hostTo_keeps _ _ _ (fun _ hb => debugCommand_keeps _ _ _ _ _ haltStrand_keeps hb) h)
  | step _ => exact .next (hostTo_keeps _ _ _ (fun _ hb => debugCommand_keeps _ _ _ _ _ stepStrand_keeps hb) h)
  | resume _ => exact .next (hostTo_keeps _ _ _ (fun _ hb => debugCommand_keeps _ _ _ _ _ resumeStrand_keeps hb) h)
  | breakpointHit _ => exact .next (breakpointHit_keeps _ _ h)
  | strTimer _ _ => exact .next (portRow_keeps _ _ _ _ _ h)
  | strCtrl _ _ => exact .next (portRow_keeps _ _ _ _ _ h)
  | safeTrip _ _ => exact .next (portRow_keeps _ _ _ _ _ h)
  | safeReclose _ _ => exact .next (portRow_keeps _ _ _ _ _ h)
  | safeLimit _ _ _ => exact .next (portRow_keeps _ _ _ _ _ h)
  | safeSelftest _ _ => exact .next (portRow_keeps _ _ _ _ _ h)
  | pilotPwm _ _ => exact .next (portRow_keeps _ _ _ _ _ h)
  | pilotStop _ _ => exact .next (portRow_keeps _ _ _ _ _ h)
  | pilotF _ _ => exact .next (portRow_keeps _ _ _ _ _ h)
  | pilotRelease _ _ => exact .next (portRow_keeps _ _ _ _ _ h)
  | pilotHlc _ _ => exact .next (portRow_keeps _ _ _ _ _ h)
  | lockCmd _ _ => exact .next (portRow_keeps _ _ _ _ _ h)
  | allocCurrent _ _ => exact .next (portRow_keeps _ _ _ _ _ h)
  | hlcOffer _ _ => exact .next (portRow_keeps _ _ _ _ _ h)
  | contCloseReq _ _ => exact .next (portRow_keeps _ _ _ _ _ h)
  | contOpen _ _ => exact .next (portRow_keeps _ _ _ _ _ h)
  | outOn _ _ => exact .next (portRow_keeps _ _ _ _ _ h)
  | outOff _ _ => exact .next (portRow_keeps _ _ _ _ _ h)
  | allocCeil _ _ _ => exact .next (portRow_keeps _ _ _ _ _ h)
  | allocPause _ _ _ => exact .next (portRow_keeps _ _ _ _ _ h)
  | rdPoll _ _ => exact .next (portRow_keeps _ _ _ _ _ h)
  | platenProof _ _ _ => exact .next (portRow_keeps _ _ _ _ _ h)
  | platenCommit _ _ _ => exact .next (portRow_keeps _ _ _ _ _ h)
  | platenClear _ _ => exact .next (portRow_keeps _ _ _ _ _ h)
  | svcTime => exact .next (serve_keeps _ _ _ (fun _ _ hb => finishCode_keeps _ _ _ _ hb) h)
  | logEvent => exact execLogEvent_keeps h
  | hlcStart => exact .next (serve_keeps _ _ _ hlcStart_keeps h)
  | hlcReplyAuth => exact .next (serveReply_keeps h fun _ _ hb => replyWith_keeps _ _ _ _ hb)
  | hlcReplyCpd => exact .next (serveReply_keeps h fun _ _ hb => replyWith_keeps _ _ _ _ hb)
  | hlcReply => exact .next (serveReply_keeps h fun _ _ hb => replyWith_keeps _ _ _ _ hb)
  | hlcFailed => exact .next (serveReply_keeps h fun _ _ hb => replyWith_keeps _ _ _ _ hb)
  | hlcContractCheck verdict => exact execHlcContractCheck_keeps h verdict
  | ledgerOpen => exact .next (serve_keeps _ _ _ ledgerOpen_keeps h)
  | ledgerClose => exact .next (serve_keeps _ _ _ ledgerClose_keeps h)
  | ledgerEmergency => exact .next (serveFree_keeps _ _ _ ledgerEmergency_keeps h)
  | ledgerRead => exact .next (serve_keeps _ _ _ ledgerRead_keeps h)
  | hubConfirm => exact .next (serveFree_keeps _ _ _ hubConfirm_keeps h)
  | allocRequest => exact .next (serveFree_keeps _ _ _ allocRequest_keeps h)
  | allocRelease => exact .next (serveFree_keeps _ _ _ allocRelease_keeps h)
  | siteSend => exact .next (serveFree_keeps _ _ _ siteSend_keeps h)
  | dirLookup => exact .next (serve_keeps _ _ _ dirLookup_keeps h)
  | readerCheck _ => exact .next (serve_keeps _ _ _ (readerCheck_keeps _) h)
  | cardAuth _ => exact .next (serve_keeps _ _ _ (cardAuth_keeps _) h)
  | tagReceipt => exact .next (serve_keeps _ _ _ tagReceipt_keeps h)
  | keyDerive => exact .next (serve_keeps _ _ _ svcDerive_keeps h)
  | keyCut => exact .next (serve_keeps _ _ _ svcCut_keeps h)
  | cryptoMac => exact .next (serve_keeps _ _ _ svcMac_keeps h)
  | storeWrite => exact execStoreWrite_keeps h
  | pilotStateChange first samples => exact execPilotStateChange_keeps h first samples
  | pilotAnomaly samples duties => exact execPilotAnomaly_keeps h samples duties
  | pilotTripHoldEnd => exact execPilotTripHoldEnd_keeps h
  | diodeTestPulse _ => exact .supervised h (diodePulse_keeps _)
  | ppChange readings => exact execPpChange_keeps h readings
  | lockFeedbackCheck level => exact execLockFeedbackCheck_keeps h level
  | lockRetry level => exact execLockRetry_keeps h level
  | slacParmReq => exact .next (ite_keeps (State.updHlc_keeps h _) h)
  | slacMatch => exact .next (slacMatch_keeps _ h)
  | slacTimeout => exact .next (slacTimeout_keeps _ h)
  | tlsHandshake _ _ _ => exact .next (tlsHandshake_keeps _ _ _ _ h)
  | supportedAppProtocol _ _ => exact .next (supportedApp_keeps _ _ _ h)
  | hlcRequest _ _ _ _ _ => exact .next (hlcRequest_keeps _ _ _ _ _ _ h)
  | meteringReceipt _ _ => exact .next (meteringReceipt_keeps _ _ _ h)
  | certificateInstallation _ _ => exact .next (certRequest_keeps _ _ _ _ h)
  | certAnswer => exact .next (certAnswer_keeps _ h)
  | certAnswerTimeout => exact execCertAnswerTimeout_keeps h
  | hlcDeadline => exact .next (hlcDeadline_keeps _ h)
  | hlcIdleTimeout => exact execHlcIdleTimeout_keeps h
  | closeStart => exact .next (closeStart_keeps _ h)
  | dutyCoilOn => exact .next (dutyCoilOn_keeps _ h)
  | closeTimeout _ => exact .next (closeTimeout_keeps _ _ h)
  | mirrorChange _ _ _ => exact .next (stopDone_keeps _ (mirrorChange_keeps _ _ _ _ h))
  | loadSideChange _ _ _ => exact .next (stopDone_keeps _ (loadSideChange_keeps _ _ _ _ h))
  | discCurrentWaitEnd _ _ _ => exact .next (currentWaitEnd_keeps _ _ _ _ h)
  | dutyCoilOff _ => exact .next (ite_keeps (breakDuty_keeps _ _ h) h)
  | otherCoilOff => exact .next (otherCoilOff_keeps _ h)
  | disconnectFeedback _ => exact .next (stopDone_keeps _ (disconnectFeedback_keeps _ _ h))
  | openDelayLearn _ _ => exact .next (openDelayLearn_keeps _ _ _ h)
  | wearMirror ia ib ic => exact execWearMirror_keeps h ia ib ic
  | inrushEnd _ => exact .next (modOut_keeps _ _ _ h)
  | outputOverload n => exact execOutputOverload_keeps h n
  | thermalShutdown n => exact execThermalShutdown_keeps h n
  | thermalRestart n => exact execThermalRestart_keeps h n
  | vsysUndervolt => exact .supervised h undervolt_keeps
  | vsysRecovered => exact .supervised h vsysRecovered_keeps
  | openLoad _ _ => exact .supervised h (openLoad_keeps _ _)
  | governorAct => exact .next (governorAct_keeps _ h)
  | rcmUpdate dc backward ac => exact execRcmUpdate_keeps h dc backward ac
  | rcmWarn => exact execRcmWarn_keeps h
  | tripPilotRelease => exact .supervised h fun _ hb => settle_keeps _ (State.updSup_keeps hb _)
  | rcmSelftest dc backward ac symmetric peaks inRange => exact execRcmSelftest_keeps h dc backward ac symmetric peaks inRange
  | rcmSelftestResult returnDc healthy => exact execRcmSelftestResult_keeps h returnDc healthy
  | rcmSelftestRepeat => exact execRcmSelftestRepeat_keeps h
  | rcmSelftestDaily => exact .supervised h fun _ hb => ite_keeps hb (askTest_keeps _ _ _ _ hb)
  | rcmChainUnhealthy => exact execRcmChainUnhealthy_keeps h
  | rcmChainHealthy => exact .supervised h fun _ hb => State.updSup_keeps hb _
  | penTrip volts => exact execPenTrip_keeps h volts
  | penClear volts => exact execPenClear_keeps h volts
  | tempWarn k t => exact execTempWarn_keeps h k t
  | tempTrip k t => exact execTempTrip_keeps h k t
  | tempClear k t => exact execTempClear_keeps h k t
  | supplyTrip va vb vc freq => exact execSupplyTrip_keeps h va vb vc freq
  | supplyClear va vb vc freq => exact execSupplyClear_keeps h va vb vc freq
  | measLost => exact execMeasLost_keeps h
  | measRestored => exact .supervised h fun _ hb => ite_keeps hb (release_keeps _ _ hb)
  | ocGraceMidpoint ia ib ic => exact execOcGraceMidpoint_keeps h ia ib ic
  | ocGraceEnd => exact .supervised h fun _ hb => State.updSup_keeps hb _
  | overcurrentTrip ia ib ic => exact execOvercurrentTrip_keeps h ia ib ic
  | recloseTimer bit => exact execRecloseTimer_keeps h bit
  | safeClear _ => exact .taken h (safeClear_keeps _)
  | safeClearPWeld => exact .next (hostTo_keeps _ _ _ (safeClearP_keeps _ _) h)
  | safeClearPContactor => exact .next (hostTo_keeps _ _ _ (safeClearP_keeps _ _) h)
  | safeCtrlSelftest => exact .taken h (askTest_keeps _ _ _)
  | hostTrip => exact execHostTrip_keeps h
  | metroBlockEnd _ _ => exact .next (ite_keeps (blockBoundary_keeps _ (blockEnd_keeps _ _ _ h)) h)
  | rotationStep => exact .next (rotationStep_keeps _ h)
  | rotationHandover _ => exact .next (ite_keeps (rotationHandover_keeps _ _ h) h)
  | chainReferenceSwitch _ => exact .next (ite_keeps (referenceSwitch_keeps _ _ h) h)
  | chainJudgement _ => exact .next (ite_keeps (judgeChain_keeps _ _ h) h)
  | chainHardFail _ => exact .next (ite_keeps (hardFail_keeps _ _ h) h)
  | freqBandExit _ => exact .next (ite_keeps (measureFreq_keeps _ _ h) h)
  | metCalStage _ => exact .next (hostTo_keeps _ _ _ (calStage_keeps _) h)
  | metCalCommit => exact .next (hostTo_keeps _ _ _ calCommit_keeps h)
  | metCalDiscard => exact .next (hostTo_keeps _ _ _ calDiscard_keeps h)
  | rtcSecond => exact .next (rtcRollover_keeps _ h)
  | aoRtcSet _ => exact .next (hostTo_keeps _ _ _ (rtcSet_keeps _) h)
  | boundaryClose => exact .next (ite_keeps (boundaryClose_keeps _ h) h)
  | ledBillClose => exact execLedBillClose_keeps h
  | ledCalLoad => exact .next (hostTo_keeps _ _ _ calLoad_keeps h)
  | ledCalDropPassive => exact execLedCalDropPassive_keeps h
  | registerImage => exact .next (ite_keeps (State.updLed_keeps h _) h)
  | ledTopup => exact .next (hostTo_keeps _ _ _ topup_keeps h)
  | ledClear _ => exact .next (hostTo_keeps _ _ _ (ledClear_keeps _) h)
  | ledExpAck _ => exact .next (hostTo_keeps _ _ _ (expAck_keeps _) h)
  | sealTimer => exact .next (ite_keeps (writeSeal_keeps _ h) h)
  | sealRetry => exact .next (ite_keeps (writeSeal_keeps _ h) h)
  | tamperChange _ _ => exact .next (tamperChange_keeps _ _ _ h)
  | tamperCopy => exact .next (ite_keeps (tamperCopy_keeps _ h) h)
  | vbackTest _ => exact .next (ite_keeps (setHealth_keeps _ _ h) h)
  | roundStart => exact .next (ite_keeps (roundStart_keeps _ h) h)
  | poll _ _ => exact .next (poll_keeps _ _ _ h)
  | answer _ _ => exact .next (ite_keeps (answerTaken_keeps _ _ _ h) h)
  | relayForward _ _ _ _ _ => exact .next (relayForward_keeps _ _ _ _ _ _ h)
  | exchangeFail _ => exact .next (ite_keeps (exchangeFail_keeps _ _ h) h)
  | chunk heard => exact execChunk_keeps h heard
  | objectVerify => exact .next (ite_keeps (objectVerify_keeps _ h) h)
  | fallbackEntry => exact .next (ite_keeps (enterFallback_keeps _ h) h)
  | allocationRun => exact .next (ite_keeps (allocRun_keeps _ h) h)
  | inputStale => exact .next (ite_keeps (setF_keeps _ _ _ h) h)
  | saTimeout => exact execSaTimeout_keeps h
  | allocSa _ _ => exact .taken h (writeSa_keeps _ _)
  | removeReserveEnd _ => exact .next (ite_keeps (modChan_keeps _ _ _ h) h)
  | lnkJoinOpen win => exact execLnkJoinOpen_keeps h win
  | joinWindowClose => exact .next (ite_keeps (setF_keeps _ _ _ h) h)
  | joinRequest _ _ _ _ => exact .next (joinRequest_keeps _ _ _ _ _ _ h)
  | joinFrame _ => exact .next (joinFrame_keeps _ _ h)
  | keyPairOk => exact .taken h keyPairOk_keeps
  | pairingTimeout => exact .next (ite_keeps (endPairing_keeps _ h) h)
  | lnkRemove _ => exact .next (hostTo_keeps _ _ _ (lnkRemove_keeps _) h)
  | lnkUnpair => exact .next (hostTo_keeps _ _ _ lnkUnpair_keeps h)
  | inventory _ _ => exact .next (ite_keeps (inventory_keeps _ _ _ h) h)
  | detectionPulse _ => exact .next (detectionPulse_keeps _ _ h)
  | dirCmdPut _ => exact .next (hostTo_keeps _ _ _ (dirCommand_keeps _ _) h)
  | dirCmdDelete _ => exact .next (hostTo_keeps _ _ _ (dirCommand_keeps _ _) h)
  | dirCmdLookup _ => exact .next (hostTo_keeps _ _ _ (dirCommand_keeps _ _) h)
  | dirDeltaApply => exact .next (hostTo_keeps _ _ _ deltaApply_keeps h)
  | dirPublish => exact .next (ite_keeps (dirPublish_keeps _ h) h)
  | tagTransactionStart => exact .next (txStart_keeps _ h)
  | selectApplication _ => exact .next (tagCommand_keeps _ _ (selectApp_keeps _) h)
  | selectFile _ => exact .next (tagCommand_keeps _ _ (selectFile_keeps _) h)
  | readBinary _ _ => exact .next (tagCommand_keeps _ _ (readBinary_keeps _ _) h)
  | updateBinary _ _ _ => exact .next (tagCommand_keeps _ _ (updateBinary_keeps _ _ _) h)
  | getOrigin => exact .next (tagCommand_keeps _ _ (respond_keeps _ _) h)
  | knock _ => exact .next (tagCommand_keeps _ _ (knock_keeps _) h)
  | knockProof _ => exact .next (tagCommand_keeps _ _ (knockProof_keeps _) h)
  | tagCommit _ => exact .next (tagCommand_keeps _ _ (tagCommit_keeps _) h)
  | deselect => exact .next (txEnd_keeps _ h)
  | hlta => exact .next (txEnd_keeps _ h)
  | tagIdleTimeout => exact .next (txEnd_keeps _ h)
  | quietHoldEnd => exact .next (State.updTag_keeps h fun _ w => w)
  | create _ _ _ => exact .next (keyCommand_keeps _ _ (keyCreate_keeps _ _ _) h)
  | derive _ _ _ => exact .next (keyCommand_keeps _ _ (keyDerive_keeps _ _ _) h)
  | release _ _ => exact .next (keyCommand_keeps _ _ (keyRelease_keeps _ _) h)
  | cut _ => exact .next (keyCommand_keeps _ _ (keyCut_keeps _) h)
  | importKnot _ _ _ => exact .next (keyCommand_keeps _ _ (keyImport_keeps _ _ _) h)
  | readPublic _ => exact .next (keyCommand_keeps _ _ (readPublic_keeps _) h)
  | sealBtnPress _ => exact .next (sealPress_keeps _ _ h)
  | presenceWindowClose _ => exact .next (ite_keeps (closePresence_keeps _ _ h) h)
  | aoPresClose => exact .taken h (closePresence_keeps _)
  | plCmd _ _ _ => exact .next (hostTo_keeps _ _ _ (plCmd_keeps _ _ _) h)
  | updateStart _ _ => exact .next (updateStart_keeps _ _ _ h)
  | panelFrame _ _ _ => exact .next (panelFrame_keeps _ _ _ _ h)
  | crackFail => exact .next (ite_keeps (crackFail_keeps _ h) h)
  | crackTestIdle _ => exact .next (crackTestIdle_keeps _ _ h)
  | recoverRetry => exact .next (ite_keeps (recoverAll_keeps _ _ h) h)
  | panelPowerFail => exact .next (ite_keeps (powerFail_keeps _ _ h) h)
  | panelPowerOff => exact .next (ite_keeps (panelOff_keeps _ h) h)
  | panelTempRead _ => exact .next (ite_keeps (takeTemp_keeps _ _ h) h)
  | write _ _ _ => exact .next (hostWrite_keeps _ _ _ _ h)
  | read addr len => exact execRead_keeps h addr len
  | status => exact .next (ite_keeps (endRead_keeps _ _ h) h)
  | qpush addr items frame => exact execQpush_keeps h addr items frame
  | qpop addr len => exact execQpop_keeps h addr len
  | swrite addr words frame => exact execSwrite_keeps h addr words frame
  | sread addr len => exact execSread_keeps h addr len
  | hostAbort pause => exact execHostAbort_keeps h pause
  | registerWrite _ _ => exact .next (hostWrite_keeps _ _ _ _ h)
  | qFlush _ => exact .taken h (qFlush_keeps _)
  | queueStale _ => exact .next (queueStale_keeps _ _ h)
  | mbInRing _ _ => exact .next (hostTo_keeps _ _ _ (mbRing_keeps _ _) h)
  | updOpen => exact .taken h openSlot_keeps
  | updVerify => exact .taken h verifySlot_keeps
  | updDiscard => exact .taken h discardSlot_keeps
  | updAct => exact .next (hostTo_keeps _ _ _ updAct_keeps h)
  | autoActivation => exact .next (ite_keeps (autoActivation_keeps _ h) h)
  | handoverReady => exact .next (handoverReady_keeps _ h)
  | handoverTExpiry => exact .next (ite_keeps h (failAct_keeps _ _ _ h))
  | takeoverComplete => exact .next (takeoverComplete_keeps _ h)
  | handoverAbort => exact .next (handoverAbort_keeps _ h)
  | formeLoad => exact .next (formeLoad_keeps _ h)
  | scrub _ _ _ _ _ => exact .next (ite_keeps (scrub_keeps _ _ h) h)
  | coreRetire _ _ _ => exact .next (ite_keeps (coreRetire_keeps _ _ _ _ h) h)
  | dieHot hot135 => exact execDieHot_keeps h hot135
  | dieCool => exact execDieCool_keeps h
  | tlsClosed => exact .next (ite_keeps (hlcEnd_keeps _ _ h) h)
  | pilotShortClear => exact execPilotShortClear_keeps h
  | pairingReply ephemeral ledgerKey ident => exact execPairingReply_keeps h ephemeral ledgerKey ident
  | panelPowerRetry => exact execPanelPowerRetry_keeps h

/-! ## One step -/

theorem step_of_idle {s : State} (hp : s.pending = []) : step s = .next (tick s) := by
  unfold step
  rw [hp]

theorem step_of_pending {s : State} {c : Instr} {rest : List Instr} (hp : s.pending = c :: rest) :
    step s = exec c { s with pending := rest } := by
  unfold step
  rw [hp]

theorem tick_wf {s : State} (h : Memory.wf s = true) : Memory.wf (tick s) = true :=
  (tick_keeps s (Keeps.refl s)).wf h

/-- The queue of waiting commands is no part of a memory. -/
theorem Memory.wf_pending (s : State) (cs : List Instr) : Memory.wf { s with pending := cs } = Memory.wf s := rfl

theorem exec_wf {i : Instr} {s t : State} (h : Memory.wf s = true) (e : exec i s = .next t) : Memory.wf t = true := by
  obtain ⟨u, hu, hk⟩ := exec_keeps (Keeps.refl s) i
  cases e.symm.trans hu
  exact hk.wf h

end Sys2Proof.Machine

open Sys2Proof Sys2Proof.Machine

/-- Settles O59: a step is the microsecond that passes, or the first command run on the state without it, and both keep the
memories. -/
theorem memoriesStayCanonical : Obligations.MemoriesStayCanonical := by
  intro s t hwf hstep
  cases hp : s.pending with
  | nil =>
    rw [step_of_idle hp] at hstep
    cases hstep
    exact tick_wf hwf
  | cons c rest =>
    rw [step_of_pending hp] at hstep
    exact exec_wf ((Memory.wf_pending s rest).trans hwf) hstep

end

section
/-! SUPPORT. What a field reads after a register field is written, and what a transaction of the host port leaves. -/
namespace Sys2Proof.Machine

/-! ## Register fields -/

/-- Fields of two registers have two homes (R4). -/
theorem Field.key_ne {f g : Field} (ha : f.addr ≠ g.addr) (hf : f.lo < 32) (hg : g.lo < 32) : f.key ≠ g.key := by
  unfold Field.key; omega

theorem regs_rising {s : State} (h : Memory.wf s = true) : risingFrom 0 s.regs = true := by
  simp only [Memory.wf, Bool.and_eq_true] at h
  obtain ⟨⟨-, hregs⟩, -⟩ := h
  exact hregs

theorem setF_regs_rising {s : State} (h : risingFrom 0 s.regs = true) (f : Field) (v : Nat) :
    risingFrom 0 (setF f v s).regs = true := risingFrom_mapSet (Nat.zero_le _) _ _ h

/-- A field reads what was written, cut to its width. -/
theorem getF_setF_same {s : State} (h : risingFrom 0 s.regs = true) (f : Field) (v : Nat) :
    getF (setF f v s) f = v % 2 ^ f.width := mapGet_mapSet_same h _ _ _

/-- A field with another home reads what it read before. -/
theorem getF_setF_other {s : State} (h : risingFrom 0 s.regs = true) {f g : Field} (hk : g.key ≠ f.key) (v : Nat) :
    getF (setF f v s) g = getF s g := mapGet_mapSet_other h _ _ hk _

/-! ## How a transaction ends: its status byte, its DONE, and no field outside HOST_STAT changed (18 R388) -/

section
variable {s : State} (h : risingFrom 0 s.regs = true) (cmd done code : Nat)
include h

theorem answerAs_last : getF (answerAs cmd done (code, s)) Reg.HOST_STAT_LAST = code % 2 ^ 8 := by
  have h1 := setF_regs_rising h Reg.HOST_STAT_LAST code
  have h2 := setF_regs_rising h1 Reg.HOST_STAT_CMD cmd
  rw [answerAs, getF_setF_other h2 (by decide), getF_setF_other h1 (by decide), getF_setF_same h]
  rfl

theorem answerAs_done : getF (answerAs cmd done (code, s)) Reg.HOST_STAT_DONE = done % 2 ^ 9 :=
  getF_setF_same (setF_regs_rising (setF_regs_rising h Reg.HOST_STAT_LAST code) Reg.HOST_STAT_CMD cmd) _ _

theorem answerAs_other {f : Field} (ha : f.addr ≠ Reg.HOST_STAT_LAST.addr) (hf : f.lo < 32) :
    getF (answerAs cmd done (code, s)) f = getF s f := by
  have h1 := setF_regs_rising h Reg.HOST_STAT_LAST code
  have h2 := setF_regs_rising h1 Reg.HOST_STAT_CMD cmd
  have key (g : Field) (hg : g.addr = Reg.HOST_STAT_LAST.addr) (hl : g.lo < 32) : f.key ≠ g.key :=
    Field.key_ne (hg ▸ ha) hf hl
  rw [answerAs, getF_setF_other h2 (key Reg.HOST_STAT_DONE rfl (by decide)),
    getF_setF_other h1 (key Reg.HOST_STAT_CMD rfl (by decide)), getF_setF_other h (key Reg.HOST_STAT_LAST rfl (by decide))]

end

/-! ## A register in a power domain that is off (R8) -/

section
variable {a : Nat} {s : State} (hboot : s.sys.mode ≠ .boot) (hstby : s.sys.mode ≠ .standby)
  (hdef : undefinedAt a = false) (hoff : domainOn (domainOf a) s = false)

include hboot hoff in
theorem portStop_dark : portStop a s = some errDomainOff := by simp [portStop, hboot, hoff]

include hstby in
theorem portWake_awake : portWake a s = s := by simp [portWake, standbyExit, hstby]

include hboot hstby hdef hoff

theorem wordWrite_dark (w : Nat) : wordWrite a w s = (errDomainOff, s) := by
  simp [wordWrite, portWord, hdef, portStop_dark hboot hoff, portWake_awake hstby]

theorem wordRead_dark : wordRead a s = (errDomainOff, 0, s) := by
  simp [wordRead, hdef, portStop_dark hboot hoff, portWake_awake hstby]

end

/-- A write of one word that its block refuses applies nothing. -/
theorem writeWords_refused {f : Nat → Nat → State → Nat × State} {a c : Nat} {w : BitVec 32} {s : State}
    (hf : f a w.toNat s = (c, s)) (hc : c ≠ statusOk) : writeWords f a [w] s = (0, c, false, s) := by
  simp [writeWords, goodWords, applyWords, hf, hc]

/-- A read of one word that fails. -/
theorem readWords_failed {f : Nat → State → Nat × Nat × State} {a c v : Nat} {s : State} (hf : f a s = (c, v, s))
    (hc : c ≠ statusOk) : readWords f a 1 s = (c, [BitVec.ofNat 32 v], s) := by
  simp [readWords, hf, hc]

section
variable {a v : BitVec 32} {s : State} (hup : hostUp s = true) (hboot : s.sys.mode ≠ .boot) (hstby : s.sys.mode ≠ .standby)
  (hburst : burstOk false a.toNat 1 = true) (hdef : undefinedAt a.toNat = false) (hoff : domainOn (domainOf a.toNat) s = false)
include hup hboot hstby hburst hdef hoff

theorem hostWrite_dark :
    hostWrite a [v] (.crc (hostCrc 0x02 a [v])) s = answerAs 0x02 0 (errDomainOff, returned [] s) := by
  have hword : wordWrite a.toNat v.toNat (returned [] s) = (errDomainOff, returned [] s) :=
    wordWrite_dark (s := returned [] s) hboot hstby hdef hoff v.toNat
  have hbad : malformed 0x02 a [v] (.crc (hostCrc 0x02 a [v])) = none := by simp [malformed, badLen]
  simp [hostWrite, transaction, hup, hbad, hburst, endWrite, writeWords_refused hword (by decide)]

theorem execRead_dark :
    execRead a 1 s = .next (answerAs 0x0B 0 (errDomainOff, returned [0] (returned [] s))) := by
  have hword : wordRead a.toNat (returned [] s) = (errDomainOff, 0, returned [] s) :=
    wordRead_dark (s := returned [] s) hboot hstby hdef hoff
  simp [execRead, transaction, hup, badLen, hburst, endRead, readWords_failed hword (by decide)]

end

end Sys2Proof.Machine

open Sys2Proof Sys2Proof.Machine

/-- Settles O55: the port turns the access away before the block sees it, so only HOST_STAT and what the transaction
returned change. -/
theorem darkDomainsAreNotServed : Obligations.DarkDomainsAreNotServed := by
  intro a v s hwf hup hboot hstby hburst hdef hoff
  have hr := regs_rising hwf
  have hw := hostWrite_dark (v := v) hup hboot hstby hburst hdef hoff
  have hread := execRead_dark hup hboot hstby hburst hdef hoff
  refine ⟨?_, ?_, ⟨_, hread, answerAs_last hr _ _ _, rfl, rfl, fun f => answerAs_other hr _ _ _⟩⟩
  -- the register row and the row of a WRITE are one transaction
  all_goals exact ⟨_, congrArg Host.Outcome.next hw, answerAs_last hr _ _ _, answerAs_done hr _ _ _, rfl,
    fun f => answerAs_other hr _ _ _⟩

/-- Settles O56: both halves are the equation of `step` for a queue that is not empty. -/
theorem stepRunsTheFirstCommand : Obligations.StepRunsTheFirstCommand :=
  fun _ _ => ⟨step_of_pending rfl, fun _ hp => step_of_pending hp⟩

end

section
/-! SUPPORT. What the state after reset reads as. -/
namespace Sys2Proof.Machine

/-- Every strand is as PD7 leaves it at reset. -/
@[simp] theorem getS_reset (n : Fin 320) : getS State.reset n = Strand.reset := Vector.get_replicate _ _ _

@[simp] theorem getW_reset (i : Fin 16) : getW Strand.reset i = 0 := by
  unfold getW
  split
  · rfl
  · exact Vector.get_replicate _ _ _

@[simp] theorem getQ_reset (q : Fin 64) : getQ State.reset q = {} := Vector.get_replicate _ _ _

@[simp] theorem outCh_reset (n : Fin 12) : outCh n State.reset = {} := Vector.get_replicate _ _ _

@[simp] theorem getF_reset (f : Field) : getF State.reset f = f.reset := rfl

@[simp] theorem inForce_reset (f : Field) : inForce State.reset f = f.reset := rfl

end Sys2Proof.Machine

open Sys2Proof Sys2Proof.Machine

/-- Settles O58: no field, byte or queue item is listed at reset, and every strand is `Strand.reset`. -/
theorem resetStateIsAsTabled : Obligations.ResetStateIsAsTabled := by
  refine ⟨rfl, rfl, fun f => ⟨getF_reset f, inForce_reset f⟩, rfl, rfl, rfl, rfl, fun n => ?_, rfl, rfl, rfl, rfl, rfl,
    fun a => ⟨rfl, rfl⟩, fun q => ?_, fun n => ?_⟩
  · rw [outCh_reset]
  · rw [getQ_reset]; exact ⟨rfl, rfl⟩
  · rw [getS_reset]; exact ⟨rfl, rfl, rfl, rfl, rfl, getW_reset⟩

end

section
/-! SUPPORT. Nodes and channels after a change of one, and the operations of the key pool, the ledger, the directory and the
queues, which leave the site link and the allocation alone. -/
namespace Sys2Proof.Machine

/-! ## Nodes and channels after a change of one -/

theorem nodeAt_modNode_same {c : Nat} (hc : c < 256) (f : Node → Node) (s : State) :
    nodeAt c (modNode c f s) = f (nodeAt c s) := by
  simp only [nodeAt, modNode, hc, dite_true, State.updLink_link]
  exact vector_get_set_same _ ⟨c, hc⟩ _

theorem nodeAt_modNode_other {c d : Nat} (h : d ≠ c) (f : Node → Node) (s : State) :
    nodeAt d (modNode c f s) = nodeAt d s := by
  unfold nodeAt modNode
  split
  · next hd =>
    split
    · next hc => exact vector_get_set_other _ (i := ⟨c, hc⟩) (j := ⟨d, hd⟩) (by simpa using h) _
    · rfl
  · rfl

theorem chanAt_modChan_same {c : Nat} (hc : c < 256) (f : Chan → Chan) (s : State) :
    chanAt c (modChan c f s) = f (chanAt c s) := by
  simp only [chanAt, modChan, hc, dite_true, State.updAlloc_alloc]
  exact vector_get_set_same _ ⟨c, hc⟩ _

theorem chanAt_modChan_other {c d : Nat} (h : d ≠ c) (f : Chan → Chan) (s : State) :
    chanAt d (modChan c f s) = chanAt d s := by
  unfold chanAt modChan
  split
  · next hd =>
    split
    · next hc => exact vector_get_set_other _ (i := ⟨c, hc⟩) (j := ⟨d, hd⟩) (by simpa using h) _
    · rfl
  · rfl

@[simp] theorem modNode_regs (c : Nat) (f : Node → Node) (s : State) : (modNode c f s).regs = s.regs := by
  unfold modNode; split <;> rfl

@[simp] theorem modNode_alloc (c : Nat) (f : Node → Node) (s : State) : (modNode c f s).alloc = s.alloc := by
  unfold modNode; split <;> rfl

@[simp] theorem modNode_todo (c : Nat) (f : Node → Node) (s : State) : (modNode c f s).link.todo = s.link.todo := by
  unfold modNode; split <;> rfl

@[simp] theorem modNode_roundCtr (c : Nat) (f : Node → Node) (s : State) :
    (modNode c f s).link.roundCtr = s.link.roundCtr := by
  unfold modNode; split <;> rfl

@[simp] theorem modNode_roundAt (c : Nat) (f : Node → Node) (s : State) :
    (modNode c f s).link.roundAt = s.link.roundAt := by
  unfold modNode; split <;> rfl

@[simp] theorem modChan_link (c : Nat) (f : Chan → Chan) (s : State) : (modChan c f s).link = s.link := by
  unfold modChan; split <;> rfl

/-! ## Operations that touch neither the site link nor the allocation -/

/-- What the site link and the allocation hold is as it was. -/
structure SiteKept (s t : State) : Prop where
  link : t.link = s.link
  alloc : t.alloc = s.alloc

namespace SiteKept

theorem refl (s : State) : SiteKept s s := ⟨rfl, rfl⟩

theorem trans {s t u : State} (h : SiteKept s t) (k : SiteKept t u) : SiteKept s u :=
  ⟨k.link.trans h.link, k.alloc.trans h.alloc⟩

theorem ite {s t u : State} {p : Prop} [Decidable p] (ht : SiteKept s t) (hu : SiteKept s u) :
    SiteKept s (if p then t else u) := by
  split
  · exact ht
  · exact hu

theorem foldl {β : Type} {g : State → β → State} (hg : ∀ s x, SiteKept s (g s x)) (l : List β) (s : State) :
    SiteKept s (l.foldl g s) := by
  induction l generalizing s with
  | nil => exact refl s
  | cons x l ih => exact (hg s x).trans (ih _)

/-- The state of a result that carries it. -/
theorem result {α : Type} {s t : State} {p : α × State} {v : α} (h : SiteKept s p.2) (e : p = (v, t)) : SiteKept s t := by
  rwa [e] at h

end SiteKept

/-! ### The pool of key slots (16 R345), which writes no register field but SYS_HEALTH and the doorbell of mailbox 0 -/

/-- Neither the health bit that a retired slot sets nor the doorbell that goes with it (R15, R16). -/
def Field.outsideHealth (f : Field) : Prop :=
  f.key ≠ (⟨0x00000080, 4, 1, 0⟩ : Field).key ∧ f.key ≠ (Reg.MB_OUT_PEND_PEND 0).key

/-- The fields outside of health read as they did. -/
structure CountsKept (s t : State) : Prop where
  rising : risingFrom 0 s.regs = true → risingFrom 0 t.regs = true
  reads : risingFrom 0 s.regs = true → ∀ f : Field, f.outsideHealth → getF t f = getF s f

namespace CountsKept

theorem of_regs {s t : State} (h : t.regs = s.regs) : CountsKept s t :=
  ⟨fun hr => h ▸ hr, fun _ f _ => by unfold getF; rw [h]⟩

theorem trans {s t u : State} (h : CountsKept s t) (k : CountsKept t u) : CountsKept s u :=
  ⟨fun hr => k.rising (h.rising hr), fun hr f hf => (k.reads (h.rising hr) f hf).trans (h.reads hr f hf)⟩

theorem foldl {β : Type} {g : State → β → State} (hg : ∀ s x, CountsKept s (g s x)) (l : List β) (s : State) :
    CountsKept s (l.foldl g s) := by
  induction l generalizing s with
  | nil => exact of_regs rfl
  | cons x l ih => exact (hg s x).trans (ih _)

end CountsKept

theorem setHealth_counts (s : State) : CountsKept s (setHealth 4 s) := by
  unfold setHealth
  dsimp only
  split
  · exact .of_regs rfl
  · have hset (s : State) : CountsKept s (setF ⟨0x00000080, 4, 1, 0⟩ 1 s) :=
      ⟨fun hr => setF_regs_rising hr _ _, fun hr _ hf => getF_setF_other hr hf.1 _⟩
    have hring (s : State) : CountsKept s (ringOut 0 1 s) :=
      ⟨fun hr => setF_regs_rising hr _ _, fun hr _ hf => getF_setF_other hr hf.2 _⟩
    exact ((hset s).trans (hring _)).trans (.of_regs (raiseFw_regs _ _ _))

/-- Work on the pool of key slots leaves the site and the counters alone. -/
structure PoolKept (s t : State) : Prop where
  site : SiteKept s t
  counts : CountsKept s t

namespace PoolKept

theorem refl (s : State) : PoolKept s s := ⟨.refl s, .of_regs rfl⟩

theorem trans {s t u : State} (h : PoolKept s t) (k : PoolKept t u) : PoolKept s u :=
  ⟨h.site.trans k.site, h.counts.trans k.counts⟩

theorem updKey (s : State) (f) : PoolKept s (s.updKey f) := ⟨⟨rfl, rfl⟩, .of_regs rfl⟩

end PoolKept

theorem setHealth_pool (s : State) : PoolKept s (setHealth 4 s) :=
  ⟨⟨setHealth_link _ _, setHealth_alloc _ _⟩, setHealth_counts s⟩

theorem modSlot_pool (i : Nat) (f : Slot → Slot) (s : State) : PoolKept s (modSlot i f s) := by
  unfold modSlot
  split
  · exact .updKey s _
  · exact .refl s

theorem freeBelow_pool (n : Nat) (s : State) : PoolKept s (freeBelow n s).2 := ⟨⟨rfl, rfl⟩, .of_regs rfl⟩

theorem pickOne_pool (l : List Nat) (s : State) : PoolKept s (pickOne l s).2 := freeBelow_pool l.length s

theorem wipeSlot_pool (fails : Bool) (i : Nat) (s : State) : PoolKept s (wipeSlot fails i s) := by
  refine (modSlot_pool i (fun _ => {}) s).trans ?_
  dsimp only [wipeSlot]
  split
  · split
    · exact .trans (.updKey _ _) (setHealth_pool _)
    · exact .updKey _ _
  · exact .refl _

theorem settleSlot_pool (fails : Option Bool) (i : Nat) (s : State) : PoolKept s (settleSlot fails i s) := by
  dsimp only [settleSlot]
  split
  · exact .refl s
  · cases fails with
    | some f => exact wipeSlot_pool f i s
    | none => exact (freeBelow_pool 2 s).trans (wipeSlot_pool _ i _)

theorem firmwareLetsGo_pool (i : Nat) (s : State) : PoolKept s (firmwareLetsGo i s) :=
  (modSlot_pool i _ s).trans (settleSlot_pool none i _)

theorem place_pool (w : WorkKey) (s : State) : PoolKept s (place w s).2 := by
  unfold place
  split
  · exact .refl s
  · split
    · exact .refl s
    · dsimp only
      exact (pickOne_pool _ s).trans (modSlot_pool _ _ _)

/-- The slot of an exchange let go of: of the link, LINK_SLOT alone. -/
theorem dropLinkSlot_link (s : State) : (dropLinkSlot s).link = { s.link with linkSlot := none } := by
  unfold dropLinkSlot
  split
  · exact (firmwareLetsGo_pool _ _).site.link
  · next h => rw [← h]

theorem dropLinkSlot_alloc (s : State) : (dropLinkSlot s).alloc = s.alloc := by
  unfold dropLinkSlot
  split
  · exact (firmwareLetsGo_pool _ _).site.alloc
  · rfl

theorem dropLinkSlot_counts (s : State) : CountsKept s (dropLinkSlot s) := by
  unfold dropLinkSlot
  split
  · refine .trans ?_ (firmwareLetsGo_pool _ _).counts
    exact .of_regs rfl
  · exact .of_regs rfl

/-- Taking a slot for the next exchange: of the link, LINK_SLOT alone. -/
theorem takeLinkSlot_link (c : Nat) (s : State) :
    ∃ i, (takeLinkSlot c s).link = { s.link with linkSlot := i } := by
  have hp := (place_pool (linkWork c s) (dropLinkSlot s)).site
  unfold takeLinkSlot
  split
  · next i t e =>
    have ht : t.link = { s.link with linkSlot := none } := ((hp.result e).link).trans (dropLinkSlot_link s)
    exact ⟨some i, by simp [(modSlot_pool i _ t).site.link, ht]⟩
  · next t e => exact ⟨none, ((hp.result e).link).trans (dropLinkSlot_link s)⟩

theorem takeLinkSlot_alloc (c : Nat) (s : State) : (takeLinkSlot c s).alloc = s.alloc := by
  have hp := (place_pool (linkWork c s) (dropLinkSlot s)).site
  unfold takeLinkSlot
  split
  · next i t e =>
    exact (modSlot_pool i _ t).site.alloc.trans ((hp.result e).alloc.trans (dropLinkSlot_alloc s))
  · next t e => exact (hp.result e).alloc.trans (dropLinkSlot_alloc s)

theorem takeLinkSlot_counts (c : Nat) (s : State) : CountsKept s (takeLinkSlot c s) := by
  have hp := (dropLinkSlot_counts s).trans (place_pool (linkWork c s) (dropLinkSlot s)).counts
  unfold takeLinkSlot
  split
  · next i t e =>
    rw [e] at hp
    exact (hp.trans (modSlot_pool i _ t).counts).trans (.of_regs rfl)
  · next t e => rwa [e] at hp

/-! ### The ledger, the directory and the queues -/

theorem updDie_site (d : Nat) (f : Die → Die) (s : State) : SiteKept s (updDie d f s) := ⟨rfl, rfl⟩

theorem copyOnWrite_site (tag) (ls : List Nat) (s : State) : SiteKept s (copyOnWrite tag ls s) :=
  .foldl (fun s d => updDie_site d _ s) _ s

theorem incF_site (f : Field) (s : State) : SiteKept s (incF f s) := ⟨rfl, rfl⟩

theorem setF_site (f : Field) (v : Nat) (s : State) : SiteKept s (setF f v s) := ⟨rfl, rfl⟩

theorem updLed_site (f : Led → Led) (s : State) : SiteKept s (s.updLed f) := ⟨rfl, rfl⟩

theorem logViolationAs_site (a k x v : Nat) (s : State) : SiteKept s (logViolationAs a k x v s) := ⟨by simp, by simp⟩

theorem ringPut_site (bytes : List Byte) (s : State) : SiteKept s (ringPut bytes s).2 := by
  dsimp only [ringPut]
  exact .trans (.ite (copyOnWrite_site _ _ s) (.refl s)) (updLed_site _ _)

theorem putRecord_site (d : RecDraft) (s : State) : SiteKept s (putRecord d s).2 :=
  (ringPut_site _ s).trans (updLed_site _ _)

theorem recordsLost_site (lost : Nat) (s : State) : SiteKept s (recordsLost lost s) :=
  .ite (.refl s) (.trans (setF_site Reg.LED_STATUS_RECORDS_LOST 1 s) (putRecord_site _ _))

theorem writeNow_site (d : RecDraft) (s : State) : SiteKept s (writeNow d s) :=
  (putRecord_site d s).trans (recordsLost_site _ _)

theorem firmwareDerives_site (k : Nat) (label : List Byte) (engine : Nat) (wide : Bool) (s : State) :
    SiteKept s (firmwareDerives k label engine wide s).2.2 := by
  have hp := (place_pool (workingKey k label engine wide s) s).site
  unfold firmwareDerives
  split
  · exact .refl s
  · split
    · next i t e =>
      dsimp only
      exact (hp.result e).trans (modSlot_pool i _ t).site
    · next t e => exact hp.result e

theorem sealKey_site (s : State) : SiteKept s (sealKey s).2 := by
  have h := firmwareDerives_site 1 [0x53, 0x45, 0x41, 0x4C] engEcc1 false s
  unfold sealKey
  split
  all_goals
    next e => rwa [e] at h

theorem writeSeal_site (s : State) : SiteKept s (writeSeal s) := by
  have hk := sealKey_site s
  unfold writeSeal
  split
  · exact setF_site _ _ s
  · split
    · next t e => exact (hk.result e).trans (setF_site _ _ t)
    · next k t e =>
      refine (hk.result e).trans (.trans ?_ (setF_site _ _ _))
      refine .trans (.trans ?_ (writeNow_site _ _)) (updLed_site _ _)
      exact ⟨rfl, rfl⟩

theorem writeDraft_site (d : RecDraft) (s : State) : SiteKept s (writeDraft d s) :=
  .ite (updLed_site _ s) ((writeNow_site d s).trans (.ite (writeSeal_site _) (.refl _)))

theorem writeEvent_site (code arg a b c : Nat) (s : State) : SiteKept s (writeEvent code arg a b c s) :=
  writeDraft_site _ s

theorem modAccount_site (k : Nat) (f : Account → Account) (s : State) : SiteKept s (modAccount k f s) := ⟨rfl, rfl⟩

theorem grantEmergency_site (k : Nat) (s : State) : SiteKept s (grantEmergency k s).2.2 := by
  unfold grantEmergency
  split
  · exact (modAccount_site k _ s).trans (writeEvent_site _ _ _ _ _ _)
  · exact .refl s

theorem foreignRecord_site (bs : List Byte) (s : State) : SiteKept s (foreignRecord bs s) := by
  refine .trans ?_ (.ite (writeSeal_site _) (.refl _))
  exact ((ringPut_site _ s).trans (updLed_site _ _)).trans (recordsLost_site _ _)

theorem lookup_site (uid : List Byte) (s : State) : SiteKept s (lookup uid s).2 := by
  refine .foldl (fun s k => ?_) _ s
  exact ⟨by simp, by simp⟩

theorem raiseHw_site (ev w : Nat) (s : State) : SiteKept s (raiseHw ev w s) := ⟨by simp, by simp⟩

theorem qNotice_site (q : Fin 64) (s : State) : SiteKept s (qNotice q s) := by
  refine .trans (.ite (raiseHw_site _ _ s) (.refl s)) (.ite ?_ (.refl _))
  exact ⟨rfl, rfl⟩

theorem qHit_site (hit enable : Nat → Field) (q : Fin 64) (s : State) : SiteKept s (qHit hit enable q s) :=
  (setF_site (hit q.val) 1 s).trans (.ite (qNotice_site q _) (.refl _))

theorem qLevelMoved_site (old : Nat) (q : Fin 64) (s : State) : SiteKept s (qLevelMoved old q s) :=
  .ite (qHit_site _ _ q s) (.ite (setF_site _ _ s) (.refl s))

theorem qAppend_site (q : Fin 64) (item : Word) (s : State) : SiteKept s (qAppend q item s) := by
  refine .trans (.trans (.trans ?_ (.ite (t := qArmStale q _) ?_ (.refl _))) (qLevelMoved_site _ q _))
    (.ite (qHit_site _ _ q _) (.refl _))
  · exact ⟨rfl, rfl⟩
  · exact ⟨rfl, rfl⟩

theorem qEnqueue_site (q : Fin 64) (item : Word) (s : State) : SiteKept s (qEnqueue q item s).2 := by
  unfold qEnqueue
  split
  · exact .refl s
  · split
    · exact qAppend_site q item s
    · exact incF_site _ s

theorem siteRecord_site (c kind : Nat) (bs : List Byte) (s : State) : SiteKept s (siteRecord c kind bs s) :=
  .foldl (fun s w => qEnqueue_site 3 w s) _ s

theorem linkViolation_site (k c value : Nat) (s : State) : SiteKept s (linkViolation k c value s) :=
  (incF_site _ s).trans (logViolationAs_site _ _ _ _ _)

theorem allocViolation_site (k c value : Nat) (s : State) : SiteKept s (allocViolation k c value s) :=
  (incF_site _ s).trans (logViolationAs_site _ _ _ _ _)

theorem receive_site (input : List (BitVec 16)) (s : State) : SiteKept s (receive input s) := setF_site _ _ s

end Sys2Proof.Machine
end

section
/-! SUPPORT. The hub's round (12 R257 to R268): what each row of it does to the nodes still to poll, to what is noted of a
node, and to what a channel has reported. -/
namespace Sys2Proof.Machine

/-! ## What the round keeps of nodes and channels -/

/-- What the rounds have noted of a node: missed, rounds missed in a row, last round answered, INERT (12 R265). -/
def Node.noted (n : Node) : Bool × Nat × Nat × Bool := (n.missed, n.missRun, n.seen, n.inert)

/-- What a channel's answer has told of this round: it came, EVREQ, the contactors (13 R284). -/
def Chan.told (x : Chan) : Bool × Nat × Bool := (x.answered, x.evReq, x.closed)

/-- The round stands as it stood: its number, its start, the nodes to poll, what is noted of nodes and told by channels. -/
structure RoundKept (s t : State) : Prop where
  todo : t.link.todo = s.link.todo
  ctr : t.link.roundCtr = s.link.roundCtr
  start : t.link.roundAt = s.link.roundAt
  noted : ∀ c, (nodeAt c t).noted = (nodeAt c s).noted
  told : ∀ c, (chanAt c t).told = (chanAt c s).told

namespace RoundKept

theorem of_parts {s t : State} (htodo : t.link.todo = s.link.todo) (hctr : t.link.roundCtr = s.link.roundCtr)
    (hstart : t.link.roundAt = s.link.roundAt) (hnodes : t.link.nodes = s.link.nodes) (hch : t.alloc.ch = s.alloc.ch) :
    RoundKept s t :=
  ⟨htodo, hctr, hstart, fun c => by unfold nodeAt; rw [hnodes], fun c => by unfold chanAt; rw [hch]⟩

theorem refl (s : State) : RoundKept s s := .of_parts rfl rfl rfl rfl rfl

theorem trans {s t u : State} (h : RoundKept s t) (k : RoundKept t u) : RoundKept s u :=
  ⟨k.todo.trans h.todo, k.ctr.trans h.ctr, k.start.trans h.start, fun c => (k.noted c).trans (h.noted c),
    fun c => (k.told c).trans (h.told c)⟩

theorem ite {s t u : State} {p : Prop} [Decidable p] (ht : RoundKept s t) (hu : RoundKept s u) :
    RoundKept s (if p then t else u) := by
  split
  · exact ht
  · exact hu

theorem foldl {β : Type} {g : State → β → State} (hg : ∀ s x, RoundKept s (g s x)) (l : List β) (s : State) :
    RoundKept s (l.foldl g s) := by
  induction l generalizing s with
  | nil => exact refl s
  | cons x l ih => exact (hg s x).trans (ih _)

end RoundKept

theorem SiteKept.round {s t : State} (h : SiteKept s t) : RoundKept s t := by
  apply RoundKept.of_parts <;> simp only [h.link, h.alloc]

/-- A change of a node that leaves what is noted of it. -/
theorem modNode_round (c : Nat) {f : Node → Node} (s : State) (hf : ∀ n, (f n).noted = n.noted := by intro _; rfl) :
    RoundKept s (modNode c f s) := by
  refine ⟨modNode_todo c f s, modNode_roundCtr c f s, modNode_roundAt c f s, fun d => ?_,
    fun d => by simp only [chanAt, modNode_alloc]⟩
  by_cases hd : d = c
  · subst hd
    by_cases hlt : d < 256
    · rw [nodeAt_modNode_same hlt, hf]
    · simp only [nodeAt, hlt, dite_false]
  · rw [nodeAt_modNode_other hd]

/-- A change of a channel that leaves what it told. -/
theorem modChan_round (c : Nat) {f : Chan → Chan} (s : State) (hf : ∀ x, (f x).told = x.told := by intro _; rfl) :
    RoundKept s (modChan c f s) := by
  have hlink := modChan_link c f s
  refine ⟨by rw [hlink], by rw [hlink], by rw [hlink], fun d => by simp only [nodeAt, hlink], fun d => ?_⟩
  by_cases hd : d = c
  · subst hd
    by_cases hlt : d < 256
    · rw [chanAt_modChan_same hlt, hf]
    · simp only [chanAt, hlt, dite_false]
  · rw [chanAt_modChan_other hd]

/-! ## Leads, hops and published objects -/

theorem chooseLead_round (c : Nat) (s : State) : RoundKept s (chooseLead c s) := by
  unfold chooseLead
  dsimp only
  split
  · exact .refl s
  · exact .ite (modNode_round c s) (.refl s)

theorem mendLeads_round (s : State) : RoundKept s (mendLeads s) :=
  .foldl (fun s c => .ite (chooseLead_round c s) (.refl s)) _ s

theorem learnHop_round (h : Hop) (s : State) : RoundKept s (learnHop h s) := by
  have hl : (learnHop h s).link = { s.link with table := (learnHop h s).link.table } := by
    unfold learnHop
    rw [State.updLink_link]
    split
    · split <;> rfl
    · rfl
  apply RoundKept.of_parts
  case hch => rfl
  all_goals rw [hl]

theorem publish_round (kind : Nat) (bytes : List Byte) (members : List Nat) (front : Bool) (s : State) :
    RoundKept s (publish kind bytes members front s) := by
  unfold publish
  exact .ite (.refl s) (.of_parts rfl rfl rfl rfl rfl)

theorem publishNotice_round (s : State) : RoundKept s (publishNotice s) := by
  unfold publishNotice
  exact .ite (.refl s) (.trans (publish_round _ _ _ _ s) (.of_parts rfl rfl rfl rfl rfl))

theorem publishSeries_round (c : Nat) (s : State) : RoundKept s (publishSeries c s) :=
  .trans (.ite (.refl s) (setF_site _ _ s).round) (.foldl (fun s b => publish_round 2 b [c] false s) _ _)

/-! ## Polls -/

theorem dropLinkSlot_round (s : State) : RoundKept s (dropLinkSlot s) := by
  apply RoundKept.of_parts <;> simp only [dropLinkSlot_link, dropLinkSlot_alloc]

theorem takeLinkSlot_round (c : Nat) (s : State) : RoundKept s (takeLinkSlot c s) := by
  obtain ⟨i, h⟩ := takeLinkSlot_link c s
  apply RoundKept.of_parts <;> simp only [h, takeLinkSlot_alloc]

/-- What a poll finds done for it: a retry nothing, else the leads mended and the link key in its slot. -/
def pollReady (retry : Bool) (c : Nat) (s : State) : State := if retry then s else s |> mendLeads |> takeLinkSlot c

/-- The poll of the exchange with `c` goes out. -/
def pollSent (retry : Bool) (c : Nat) (s : State) : State :=
  let duty := if retry then 0 else pollDuty c s
  let f := pollFor c retry duty s
  (s.updLink fun l => { l with
    poll := some f, retrying := retry, passDuty := duty, passLeft := if duty = 0 then l.passLeft else l.passLeft - 1 })
    |> transmit (pollTx c f s)

theorem sendPoll_cons {s : State} {c : Nat} {rest : List Nat} (retry : Bool) (h : s.link.todo = c :: rest) :
    sendPoll retry s = pollSent retry c (pollReady retry c s) := by
  unfold sendPoll
  rw [h]
  rfl

theorem sendPoll_nil {s : State} (retry : Bool) (h : s.link.todo = []) :
    sendPoll retry s = (dropLinkSlot s).updLink fun l => { l with poll := none, ran := false } := by
  unfold sendPoll
  rw [h]

theorem sendPoll_round (retry : Bool) (s : State) : RoundKept s (sendPoll retry s) := by
  cases h : s.link.todo with
  | nil =>
    rw [sendPoll_nil retry h]
    exact (dropLinkSlot_round s).trans (.of_parts rfl rfl rfl rfl rfl)
  | cons c rest =>
    rw [sendPoll_cons retry h]
    have hready : RoundKept s (pollReady retry c s) :=
      .ite (.refl s) ((mendLeads_round s).trans (takeLinkSlot_round c _))
    exact hready.trans (.of_parts rfl rfl rfl rfl rfl)

theorem chooseLead_regs (c : Nat) (s : State) : (chooseLead c s).regs = s.regs := by
  unfold chooseLead
  dsimp only
  split
  · rfl
  · exact (apply_ite State.regs _ _ _).trans (by rw [modNode_regs, ite_self])

theorem mendLeads_counts (s : State) : CountsKept s (mendLeads s) := by
  refine .foldl (fun s c => .of_regs ?_) _ s
  split
  · exact chooseLead_regs c s
  · rfl

theorem sendPoll_counts (retry : Bool) (s : State) : CountsKept s (sendPoll retry s) := by
  cases h : s.link.todo with
  | nil =>
    rw [sendPoll_nil retry h]
    exact (dropLinkSlot_counts s).trans (.of_regs rfl)
  | cons c rest =>
    rw [sendPoll_cons retry h]
    have hready : CountsKept s (pollReady retry c s) := by
      unfold pollReady
      split
      · exact .of_regs rfl
      · exact (mendLeads_counts s).trans (takeLinkSlot_counts c _)
    exact hready.trans (.of_regs rfl)

/-- A poll is under way exactly when a node is left to poll. -/
theorem sendPoll_poll (retry : Bool) (s : State) : (sendPoll retry s).link.poll.isSome = !s.link.todo.isEmpty := by
  cases h : s.link.todo with
  | nil => rw [sendPoll_nil retry h]; rfl
  | cons c rest => rw [sendPoll_cons retry h]; rfl

theorem sendPoll_retrying {s : State} (retry : Bool) (h : s.link.todo ≠ []) : (sendPoll retry s).link.retrying = retry := by
  obtain ⟨c, rest, h⟩ := List.exists_cons_of_ne_nil h
  rw [sendPoll_cons retry h]
  rfl

/-- The exchange that is over, taken out of the round. -/
def exchangeOver (s : State) : State := s.updLink fun l => { l with todo := l.todo.tail, retrying := false }

theorem nextExchange_round (s : State) : RoundKept (exchangeOver s) (nextExchange s) := sendPoll_round false (exchangeOver s)

theorem nextExchange_todo (s : State) : (nextExchange s).link.todo = s.link.todo.tail := (nextExchange_round s).todo

theorem nextExchange_noted (c : Nat) (s : State) : (nodeAt c (nextExchange s)).noted = (nodeAt c s).noted :=
  (nextExchange_round s).noted c

theorem nextExchange_told (c : Nat) (s : State) : (chanAt c (nextExchange s)).told = (chanAt c s).told :=
  (nextExchange_round s).told c

theorem nextExchange_counts (s : State) : CountsKept s (nextExchange s) :=
  have h : CountsKept s (exchangeOver s) := .of_regs rfl
  h.trans (sendPoll_counts false _)

/-- After the last exchange the allocation run is due, and no poll is under way (01 R14). -/
theorem nextExchange_last {s : State} (h : s.link.todo.tail = []) :
    (nextExchange s).link.ran = false ∧ (nextExchange s).link.poll = none := by
  show (sendPoll false (exchangeOver s)).link.ran = false ∧ (sendPoll false (exchangeOver s)).link.poll = none
  rw [sendPoll_nil false (s := exchangeOver s) h]
  exact ⟨rfl, rfl⟩

theorem nextExchange_retrying (s : State) : (nextExchange s).link.retrying = false := by
  show (sendPoll false (exchangeOver s)).link.retrying = false
  by_cases h : s.link.todo.tail = []
  · rw [sendPoll_nil false (s := exchangeOver s) h]
    show (dropLinkSlot (exchangeOver s)).link.retrying = false
    rw [dropLinkSlot_link]
    rfl
  · exact sendPoll_retrying (s := exchangeOver s) false h

/-! ## The start of a round (01 R13, 12 R265) -/

/-- The new round before its leads are chosen: its number, its start, its order, and no channel answered yet. -/
def roundOpened (s : State) : State :=
  let ctr := (s.link.roundCtr + 1) % 2 ^ 32
  let now := s.sys.usec
  let ms := (s.link.roundAt.map fun t => min 0xFFFF ((now - t) / 1000)).getD 0
  let s := boundary Reg.LNK_PASS_N_PASS s
  let order := roundOrder ctr s
  let hawser := order.filter fun c => (nodeAt c s).missed
  let s := s.updLink fun l => { l with
    roundCtr := ctr, roundAt := some now, passLeft := inForce s Reg.LNK_PASS_N_PASS, suspect := [], todo := order
    hawser := hawser, nodes := l.nodes.mapIdx fun c n => { n with missed := n.missed && order.contains c }
    table := l.table.filter fun h => ctr ≤ h.round + 64 }
  let s := setF Reg.LNK_RTIME_MS ms s
  s.updAlloc fun a => { a with ch := a.ch.map fun x => { x with answered := false } }

/-- The leads of the new round, and the health bit where one of them is short of carriers. -/
def leadsChosen (s : State) : State :=
  let s := (registered s).foldl (fun s c => chooseLead c s) s
  if carrierLow s then setHealth 5 s else s

theorem roundStart_eq (s : State) : roundStart s = sendPoll false (publishNotice (leadsChosen (roundOpened s))) := rfl

theorem leadsChosen_round (s : State) : RoundKept s (leadsChosen s) := by
  refine .trans (.foldl (fun s c => chooseLead_round c s) _ s) (.ite ?_ (.refl _))
  exact SiteKept.round ⟨setHealth_link _ _, setHealth_alloc _ _⟩

theorem roundStart_round (s : State) : RoundKept (roundOpened s) (roundStart s) := by
  rw [roundStart_eq]
  exact ((leadsChosen_round _).trans (publishNotice_round _)).trans (sendPoll_round false _)

theorem roundOpened_answered {c : Nat} (hc : c < 256) (s : State) : (chanAt c (roundOpened s)).answered = false := by
  unfold chanAt
  rw [dif_pos hc]
  show (Vector.map (fun x : Chan => { x with answered := false }) s.alloc.ch)[c].answered = false
  rw [Vector.getElem_map]

/-- A poll is under way exactly when the new round has a node to poll. -/
theorem roundStart_poll (s : State) : (roundStart s).link.poll.isSome = !(roundStart s).link.todo.isEmpty := by
  have htodo : (publishNotice (leadsChosen (roundOpened s))).link.todo = (roundStart s).link.todo :=
    ((leadsChosen_round _).trans (publishNotice_round _)).todo.trans (roundStart_round s).todo.symm
  rw [← htodo, roundStart_eq, sendPoll_poll]

/-! ## A failed exchange (01 R13, 12 R263) -/

/-- A counter that is counted up reads one more, up to its width. -/
theorem getF_incF_same {s : State} (h : risingFrom 0 s.regs = true) (f : Field) :
    getF (incF f s) f = satInc (2 ^ f.width - 1) (getF s f) := by
  have hpos : 0 < 2 ^ f.width := Nat.two_pow_pos _
  have hlt : satInc (2 ^ f.width - 1) (getF s f) < 2 ^ f.width := by unfold satInc; split <;> omega
  rw [incF, getF_setF_same h, Nat.mod_eq_of_lt hlt]

theorem retries_outsideHealth : Reg.LNK_COUNT_RETRIES.outsideHealth := ⟨by decide, by decide⟩

theorem misses_outsideHealth : Reg.LNK_COUNT_MISSES.outsideHealth := ⟨by decide, by decide⟩

theorem exchangeFail_first {s : State} {c : Nat} {rest : List Nat} (h : s.link.todo = c :: rest)
    (hr : s.link.retrying = false) : exchangeFail .silent s = sendPoll true (incF Reg.LNK_COUNT_RETRIES s) := by
  simp [exchangeFail, h, hr]

theorem exchangeFail_again {s : State} {c : Nat} {rest : List Nat} (h : s.link.todo = c :: rest)
    (hr : s.link.retrying = true) : exchangeFail .silent s = nextExchange (markMissed c s) := by
  simp [exchangeFail, h, hr]

theorem exchangeFail_idle {s : State} (h : s.link.todo = []) (why : FailCause) : exchangeFail why s = s := by
  simp [exchangeFail, h]

theorem markMissed_todo (c : Nat) (s : State) : (markMissed c s).link.todo = s.link.todo := modNode_todo c _ s

theorem markMissed_noted {c : Nat} (hc : c < 256) (s : State) :
    (nodeAt c (markMissed c s)).noted = (true, satInc 255 (nodeAt c s).missRun, (nodeAt c s).seen, (nodeAt c s).inert) :=
  congrArg Node.noted (nodeAt_modNode_same hc _ s)

theorem markMissed_rising {s : State} (h : risingFrom 0 s.regs = true) (c : Nat) :
    risingFrom 0 (markMissed c s).regs = true :=
  setF_regs_rising (s := modNode c _ s) (by rwa [modNode_regs]) _ _

theorem markMissed_misses {s : State} (h : risingFrom 0 s.regs = true) (c : Nat) :
    getF (markMissed c s) Reg.LNK_COUNT_MISSES = satInc 0xFFFF (getF s Reg.LNK_COUNT_MISSES) := by
  have hregs (f : Node → Node) : (modNode c f s).regs = s.regs := modNode_regs c f s
  refine (getF_incF_same (s := modNode c _ s) (by rwa [hregs]) Reg.LNK_COUNT_MISSES).trans ?_
  unfold getF
  rw [hregs]
  rfl

/-! ## An answer (12 R259, R266) -/

theorem secretOf_congr {s t : State} (h : t.key = s.key) (fuel k : Nat) : secretOf t fuel k = secretOf s fuel k := by
  induction fuel generalizing k with
  | zero => rfl
  | succ fuel ih => simp only [secretOf, h, ih]

theorem hubLinkKey_congr {s t : State} (hkey : t.key = s.key) (hlink : t.link = s.link) (c : Nat) :
    hubLinkKey c t = hubLinkKey c s := by
  simp only [hubLinkKey, nodeSecret, knotSecret, secretOf_congr hkey, knotAt, nodeAt, hkey, hlink]

/-- Counting its blanked symbols changes nothing that an answer is checked against. -/
theorem answerFails_receive (f : PollFrame) (a : AnswerFrame) (input : List (BitVec 16)) (s : State) :
    answerFails f a (receive input s) = answerFails f a s := by
  have hkey (c : Nat) : hubLinkKey c (receive input s) = hubLinkKey c s := hubLinkKey_congr rfl rfl c
  unfold answerFails
  dsimp only
  rw [hkey]

theorem answerTaken_passes {f : PollFrame} {a : AnswerFrame} {s : State} (hpoll : s.link.poll = some f)
    (hok : answerFails f a s = none) (r : Reception) : answerTaken a r s = answerHeard a r (receive r.input s) := by
  simp only [answerTaken, hpoll, answerFails_receive, hok]

/-- What an answer of `c` tells of hops, of the node and of its channel. -/
def answerLearned (c : Nat) (a : AnswerFrame) (r : Reception) (s : State) : State :=
  s |> learnAnswer c a r |> learnState c a
    |> chanAnswer c (a.amps.map (·.toNat)) a.exporting a.evReq.toNat (a.state.getLsbD 3)

/-- What the hub does for the answer of `c`: nothing but DELIV for an INERT node (12 R277). -/
def answerServed (c : Nat) (a : AnswerFrame) (s : State) : State :=
  (if a.state.getLsbD 4 then s
    else s |> takeCost c (a.state.getLsbD 6) a.cost.toInt |> takeSlot c a.slotCtrl.toNat (a.slot.take 32)
      |> takeRequests a.req c)
    |> takeDeliv c a.delivId.toNat a.delivNext.toNat

theorem answerHeard_cons {s : State} {c : Nat} {rest : List Nat} (h : s.link.todo = c :: rest) (a : AnswerFrame)
    (r : Reception) : answerHeard a r s = nextExchange (answerServed c a (answerLearned c a r s)) := by
  unfold answerHeard
  rw [h]
  rfl

theorem learnAnswer_round (c : Nat) (a : AnswerFrame) (r : Reception) (s : State) : RoundKept s (learnAnswer c a r s) := by
  unfold learnAnswer
  refine .trans (.trans (.trans (learnHop_round _ s) (learnHop_round _ _)) (.ite ?_ (.refl _)))
    (.foldl (fun s x => learnHop_round _ s) _ _)
  exact .of_parts rfl rfl rfl rfl rfl

theorem learnState_todo (c : Nat) (a : AnswerFrame) (s : State) : (learnState c a s).link.todo = s.link.todo := by
  unfold learnState
  dsimp only
  split
  · exact modNode_todo _ _ _
  · rw [modNode_todo, modNode_todo]

theorem learnState_noted {c : Nat} (hc : c < 256) (a : AnswerFrame) (s : State) :
    (nodeAt c (learnState c a s)).noted = (false, 0, s.link.roundCtr, a.state.getLsbD 4) := by
  unfold learnState
  dsimp only
  split
  · rw [nodeAt_modNode_same hc]; rfl
  · rw [nodeAt_modNode_same hc, nodeAt_modNode_same hc]; rfl

theorem unlearn_told (x : Chan) : x.unlearn.told = x.told := rfl

theorem probeStep_told (x : Chan) : (probeStep x).told = x.told := by
  unfold probeStep
  split
  · rfl
  · split
    · rfl
    · split <;> rfl

theorem watchStep_told (gap n now : Nat) (x : Chan) : (watchStep gap n now x).told = x.told := by
  unfold watchStep
  dsimp only
  split
  · rfl
  · split
    · rfl
    · split <;> rfl

theorem chanAnswer_link (c : Nat) (amps : Vector Nat 3) (exporting : BitVec 3) (evReq : Nat) (closed : Bool) (s : State) :
    (chanAnswer c amps exporting evReq closed s).link = s.link := by
  unfold chanAnswer
  refine (SiteKept.ite (allocViolation_site _ _ _ _) (.refl _)).link.trans ?_
  refine (SiteKept.ite (allocViolation_site _ _ _ _) (.refl _)).link.trans ?_
  exact modChan_link _ _ _

theorem chanAnswer_told {c : Nat} (hc : c < 256) (amps : Vector Nat 3) (exporting : BitVec 3) (evReq : Nat) (closed : Bool)
    (s : State) : (chanAt c (chanAnswer c amps exporting evReq closed s)).told = (true, evReq, closed) := by
  unfold chanAnswer
  refine ((SiteKept.ite (allocViolation_site _ _ _ _) (.refl _)).round.told c).trans ?_
  refine ((SiteKept.ite (allocViolation_site _ _ _ _) (.refl _)).round.told c).trans ?_
  rw [chanAt_modChan_same hc]
  show Chan.told (if _ then watchStep _ _ _ (probeStep (heldClears (if _ then Chan.unlearn _ else _))) else _) = _
  rw [apply_ite Chan.told, watchStep_told, ite_self, probeStep_told]
  show Chan.told (if _ then Chan.unlearn _ else _) = _
  rw [apply_ite Chan.told, unlearn_told, ite_self]
  rfl

/-! ### What the hub does for an answer -/

theorem foreignSeal_round (c : Nat) (bs : List Byte) (s : State) : RoundKept s (foreignSeal c bs s) := by
  have hrecs : RoundKept s ((nodeAt c s).recs.foldl (fun s r => foreignRecord r s)
      (modNode c (fun n => { n with recs := [] }) s)) :=
    (modNode_round c s).trans (.foldl (fun s r => (foreignRecord_site r s).round) _ _)
  refine .ite hrecs (hrecs.trans (SiteKept.round ?_))
  exact ((setF_site _ _ _).trans (writeEvent_site _ _ _ _ _ _)).trans (logViolationAs_site _ _ _ _ _)

/-- A join request of a module that is registered already is a violation (12 R280). -/
def joinNoted (ident : BitVec 64) (s : State) : State :=
  match channelOf ident s with | some c => linkViolation 8 c c s | none => s

theorem joinNoted_site (ident : BitVec 64) (s : State) : SiteKept s (joinNoted ident s) := by
  unfold joinNoted
  split
  · exact linkViolation_site _ _ _ s
  · exact .refl s

/-- A join request that no pairing stands in the way of, with the channel it is offered (12 R280). -/
def joinTaken (ident : BitVec 64) (repeater : Bool) (snr sponsor : Nat) (ch : Option Nat) (again : Bool) (s : State) : State :=
  let s := s |> raiseFw 0x27 (ch.getD 0x3FFF) |> ringOut 4 1
  let req : JoinReq := { ident := ident, repeater := repeater, snr := snr, sponsor := sponsor, channel := ch, again := again }
  match ch with
  | none => (s.updLink fun l => { l with joinReq := some req }) |> sendJoin ident [.full (BitVec.ofNat 14 (siteFallback s))]
  | some c =>
    let (e, s) := freeWide s
    let eph := e.toNat % (orderP256 - 1) + 1
    let p : Pairing := { channel := c, ident := ident, repeater := repeater, eph := eph, sponsor := sponsor, snr := snr }
    (s.updLink fun l => { l with joinReq := some req, pairing := some p }) |> sendJoin ident
      [.joined (BitVec.ofNat 8 c) (BitVec.ofNat 14 (siteFallback s)), .hubKey (Config.publicKey false eph) (sitePublic s) true]

theorem joinHeard_eq (ident : BitVec 64) (repeater : Bool) (snr sponsor : Nat) (s : State) :
    joinHeard ident repeater snr sponsor s =
      if s.link.pairing.isSome then s
      else joinTaken ident repeater snr sponsor ((channelOf ident s).or (freeChannel (joinNoted ident s)))
        (channelOf ident s).isSome (joinNoted ident s) := rfl

theorem joinTaken_round (ident : BitVec 64) (repeater : Bool) (snr sponsor : Nat) (ch : Option Nat) (again : Bool) (s : State) :
    RoundKept s (joinTaken ident repeater snr sponsor ch again s) := by
  have hraise : SiteKept s (s |> raiseFw 0x27 (ch.getD 0x3FFF) |> ringOut 4 1) := ⟨by simp, by simp⟩
  refine hraise.round.trans ?_
  cases ch with
  | none => exact .of_parts rfl rfl rfl rfl rfl
  | some c => exact .of_parts rfl rfl rfl rfl rfl

theorem joinHeard_round (ident : BitVec 64) (repeater : Bool) (snr sponsor : Nat) (s : State) :
    RoundKept s (joinHeard ident repeater snr sponsor s) := by
  rw [joinHeard_eq]
  exact .ite (.refl s) ((joinNoted_site ident s).round.trans (joinTaken_round _ _ _ _ _ _ _))

theorem upComplete_round (c kind : Nat) (bs : List Byte) (s : State) : RoundKept s (upComplete c kind bs s) := by
  unfold upComplete
  exact .ite (.ite (foreignSeal_round c bs s) (modNode_round c s))
    (.ite (siteRecord_site c 0 bs s).round (joinHeard_round _ _ _ _ s))

theorem takeSlot_round (c ctrl : Nat) (bs : List Byte) (s : State) : RoundKept s (takeSlot c ctrl bs s) := by
  exact .ite (.refl s) (.trans (modNode_round c s) (.ite (upComplete_round _ _ _ _) (.refl _)))

theorem takeCost_round (c : Nat) (prepay : Bool) (cost : Int) (s : State) : RoundKept s (takeCost c prepay cost s) := by
  unfold takeCost
  dsimp only
  refine .trans (modNode_round c (f := fun n => { n with prepay := prepay, cost := if prepay then cost else 0 }) s)
    (.ite (.refl _) (.ite ?_ ?_))
  · exact (linkViolation_site _ _ _ _).round.trans (modNode_round c _)
  · cases (nodeAt c s).account with
    | some k => exact (modAccount_site k _ _).round
    | none => exact .refl _

theorem addReply_round (kind value c : Nat) (s : State) : RoundKept s (addReply kind value c s) :=
  modNode_round c s

theorem badRequest_round (kind c : Nat) (s : State) : RoundKept s (badRequest kind c s) :=
  (linkViolation_site _ _ _ s).round.trans (addReply_round _ _ _ _)

theorem takeConfirm_round (req : List Byte) (c : Nat) (s : State) : RoundKept s (takeConfirm req c s) := by
  have hlook := lookup_site ((req.drop 2).take (fieldOf req 1 1)) s
  unfold takeConfirm
  dsimp only
  refine .ite (.refl s) (.ite (badRequest_round 1 c s) ?_)
  split
  · next t e => exact (hlook.result e).round.trans (addReply_round _ _ _ _)
  · next k t e =>
    refine (hlook.result e).round.trans ?_
    split
    · exact addReply_round _ _ _ _
    · exact (addReply_round _ _ c t).trans (.ite (modNode_round c _) (.refl _))

theorem newRequest_round (cur mask dir c : Nat) (s : State) : RoundKept s (newRequest cur mask dir c s) :=
  modChan_round c s fun x => by split <;> rfl

theorem releaseChannel_round (c now : Nat) (s : State) : RoundKept s (releaseChannel c now s) := by
  unfold releaseChannel
  exact modChan_round c s

theorem takeAlloc_round (req : List Byte) (c : Nat) (s : State) : RoundKept s (takeAlloc req c s) := by
  unfold takeAlloc
  dsimp only
  refine .ite (.ite (.refl s) ?_) (.ite (.refl s) (.ite (badRequest_round 2 c s) ?_))
  · exact (releaseChannel_round c _ s).trans (modNode_round c _)
  · exact .trans (.trans (.ite (allocViolation_site _ _ _ s).round (.refl s)) (newRequest_round _ _ _ _ _)) (modNode_round c _)

theorem takeEmergency_round (c : Nat) (s : State) : RoundKept s (takeEmergency c s) := by
  unfold takeEmergency
  refine .ite (.refl s) ?_
  split
  · exact addReply_round _ _ _ s
  · next k _ => exact (grantEmergency_site k s).round.trans (addReply_round _ _ _ _)

theorem takePlace_round (req : List Byte) (c : Nat) (s : State) : RoundKept s (takePlace req c s) := by
  unfold takePlace
  split
  · exact .refl s
  · exact takeAlloc_round req c s
  · exact takeEmergency_round c s
  · exact badRequest_round _ c s

theorem takeRequests_round (req : List Byte) (c : Nat) (s : State) : RoundKept s (takeRequests req c s) :=
  .ite (takeConfirm_round req c s) ((takePlace_round _ c s).trans (takePlace_round _ c _))

/-- Pointers that go back to the start change nothing that is noted. -/
theorem pointersBack_round (s : State) (ps : List Pub) :
    RoundKept s (s.updLink fun l => { l with pubs := ps, nodes := l.nodes.map fun n => { n with ptr := -1 } }) := by
  refine ⟨rfl, rfl, rfl, fun c => ?_, fun c => rfl⟩
  unfold nodeAt
  split
  · next hc =>
    show (Vector.map (fun n : Node => { n with ptr := -1 }) s.link.nodes)[c].noted = _
    rw [Vector.getElem_map]
    rfl
  · rfl

theorem endDelivery_round (s : State) : RoundKept s (endDelivery s) := by
  unfold endDelivery
  dsimp only
  split
  · exact .refl s
  · next p ps _ =>
    refine .ite (.trans (pointersBack_round s ps) ?_) (.refl s)
    split
    · exact .ite (setF_site _ _ _).round (.refl _)
    · exact .refl _

theorem takeDeliv_round (c id next : Nat) (s : State) : RoundKept s (takeDeliv c id next s) := by
  unfold takeDeliv
  dsimp only
  refine .trans (modNode_round c (f := fun n => { n with delivId := id, delivNext := next }) s) ?_
  split
  · exact .refl _
  · refine .ite (.refl _) (.ite ?_ (.refl _))
    refine .trans (.trans ?_ (.ite (publishSeries_round _ _) (.refl _))) (endDelivery_round _)
    exact .of_parts rfl rfl rfl rfl rfl

theorem answerServed_round (c : Nat) (a : AnswerFrame) (s : State) : RoundKept s (answerServed c a s) := by
  refine .trans (.ite (.refl s) ?_) (takeDeliv_round c _ _ _)
  exact ((takeCost_round c _ _ s).trans (takeSlot_round c _ _ _)).trans (takeRequests_round _ c _)

/-- An answer that passes its check ends its exchange with the next one (12 R259). -/
theorem answerTaken_cons {f : PollFrame} {a : AnswerFrame} {s : State} {c : Nat} {rest : List Nat}
    (hpoll : s.link.poll = some f) (hok : answerFails f a s = none) (h : s.link.todo = c :: rest) (r : Reception) :
    answerTaken a r s = nextExchange (answerServed c a (answerLearned c a r (receive r.input s))) :=
  (answerTaken_passes hpoll hok r).trans (answerHeard_cons (s := receive r.input s) h a r)

theorem answerLearned_todo (c : Nat) (a : AnswerFrame) (r : Reception) (s : State) :
    (answerLearned c a r s).link.todo = s.link.todo := by
  unfold answerLearned
  rw [chanAnswer_link, learnState_todo, (learnAnswer_round c a r s).todo]

theorem answerLearned_noted {c : Nat} (hc : c < 256) (a : AnswerFrame) (r : Reception) (s : State) :
    (nodeAt c (answerLearned c a r s)).noted = (false, 0, s.link.roundCtr, a.state.getLsbD 4) := by
  have hlink := chanAnswer_link c (a.amps.map (·.toNat)) a.exporting a.evReq.toNat (a.state.getLsbD 3)
    (learnState c a (learnAnswer c a r s))
  unfold answerLearned nodeAt
  rw [hlink, ← (learnAnswer_round c a r s).ctr]
  exact learnState_noted hc a _

theorem answerLearned_told {c : Nat} (hc : c < 256) (a : AnswerFrame) (r : Reception) (s : State) :
    (chanAt c (answerLearned c a r s)).told = (true, a.evReq.toNat, a.state.getLsbD 3) := chanAnswer_told hc _ _ _ _ _

/-! ## What the rows of the round give -/

/-- An answer that passes its check: the node is polled, what its answer told is noted, and the next exchange begins. -/
theorem answer_gives {f : PollFrame} {a : AnswerFrame} {s : State} {c : Nat} {rest : List Nat} (hrun : hubRuns s = true)
    (hpoll : s.link.poll = some f) (hok : answerFails f a s = none) (h : s.link.todo = c :: rest) (hc : c < 256)
    (r : Reception) : Gives (.answer a r) s fun t => t.link.todo = rest ∧
      (nodeAt c t).noted = (false, 0, s.link.roundCtr, a.state.getLsbD 4) ∧
      (chanAt c t).told = (true, a.evReq.toNat, a.state.getLsbD 3) ∧ t.link.retrying = false := by
  refine ⟨answerTaken a r s, congrArg Host.Outcome.next (if_pos hrun), ?_⟩
  rw [answerTaken_cons hpoll hok h]
  have hserved := answerServed_round c a (answerLearned c a r (receive r.input s))
  refine ⟨?_, ?_, ?_, nextExchange_retrying _⟩
  · rw [nextExchange_todo, hserved.todo, answerLearned_todo, (receive_site r.input s).link, h]
    rfl
  · rw [nextExchange_noted, hserved.noted, answerLearned_noted hc, (receive_site r.input s).link]
  · rw [nextExchange_told, hserved.told, answerLearned_told hc]

/-- The first failure of an exchange: the same node again, as a retry (01 R13). -/
theorem exchangeFail_retries {s : State} {c : Nat} {rest : List Nat} (hwf : Memory.wf s = true) (hrun : hubRuns s = true)
    (h : s.link.todo = c :: rest) (hr : s.link.retrying = false) :
    Gives (.exchangeFail .silent) s fun t => t.link.todo = s.link.todo ∧ t.link.retrying = true ∧
      getF t Reg.LNK_COUNT_RETRIES = satInc 0xFFFF (getF s Reg.LNK_COUNT_RETRIES) := by
  have hrise := regs_rising hwf
  have hinc : risingFrom 0 (incF Reg.LNK_COUNT_RETRIES s).regs = true := setF_regs_rising hrise _ _
  refine ⟨exchangeFail .silent s, congrArg Host.Outcome.next (if_pos hrun), ?_⟩
  rw [exchangeFail_first h hr]
  refine ⟨(sendPoll_round true _).todo, ?_, ?_⟩
  · exact sendPoll_retrying (s := incF _ s) true (by rw [incF_link, h]; exact List.cons_ne_nil c rest)
  · rw [(sendPoll_counts true _).reads hinc _ retries_outsideHealth, getF_incF_same hrise]
    rfl

/-- The second failure: the node is missed, and the next exchange begins (01 R13, 12 R265). -/
theorem exchangeFail_misses {s : State} {c : Nat} {rest : List Nat} (hwf : Memory.wf s = true) (hrun : hubRuns s = true)
    (h : s.link.todo = c :: rest) (hc : c < 256) (hr : s.link.retrying = true) :
    Gives (.exchangeFail .silent) s fun t => t.link.todo = rest ∧ t.link.retrying = false ∧
      (nodeAt c t).missed = true ∧ (nodeAt c t).missRun = satInc 255 (nodeAt c s).missRun ∧
      getF t Reg.LNK_COUNT_MISSES = satInc 0xFFFF (getF s Reg.LNK_COUNT_MISSES) ∧
      (rest = [] → t.link.ran = false ∧ t.link.poll = none) := by
  have hrise := regs_rising hwf
  have htail : (markMissed c s).link.todo.tail = rest := by rw [markMissed_todo, h]; rfl
  have hnoted := (nextExchange_noted c (markMissed c s)).trans (markMissed_noted hc s)
  simp only [Node.noted, Prod.mk.injEq] at hnoted
  obtain ⟨hmissed, hrun', -, -⟩ := hnoted
  refine ⟨exchangeFail .silent s, congrArg Host.Outcome.next (if_pos hrun), ?_⟩
  rw [exchangeFail_again h hr]
  refine ⟨(nextExchange_todo _).trans htail, nextExchange_retrying _, hmissed, hrun', ?_, ?_⟩
  · rw [(nextExchange_counts _).reads (markMissed_rising hrise c) _ misses_outsideHealth, markMissed_misses hrise]
  · rintro rfl
    exact nextExchange_last htail

/-- A round begins: its number, the nodes in their order, and no channel answered (01 R13). -/
theorem roundStart_gives {s : State} (hrun : hubRuns s = true) (h : s.link.todo = []) (hran : s.link.ran = true) :
    Gives .roundStart s fun t => t.link.roundCtr = (s.link.roundCtr + 1) % 2 ^ 32 ∧
      t.link.todo = roundOrder ((s.link.roundCtr + 1) % 2 ^ 32) s ∧ t.link.roundAt = some s.sys.usec ∧
      t.link.poll.isSome = !t.link.todo.isEmpty ∧ ∀ c, c < 256 → (chanAt c t).answered = false := by
  have hround := roundStart_round s
  refine ⟨roundStart s, congrArg Host.Outcome.next (if_pos ⟨hrun, h, hran⟩), hround.ctr, hround.todo, hround.start,
    roundStart_poll s, fun c hc => ?_⟩
  exact (congrArg Prod.fst (hround.told c)).trans (roundOpened_answered hc s)

end Sys2Proof.Machine

open Sys2Proof Sys2Proof.Machine

/-- Settles O37: what follows the new number, an answer or a failure in the same row keeps the order, the notes and the
reports (`RoundKept`), so they are read off right after they are written. -/
theorem hubPollsTheRound : Obligations.HubPollsTheRound := by
  intro s hwf hrun
  refine ⟨roundStart_gives hrun, fun hnot => ?_, fun c rest h hc => ⟨fun f a r hpoll hok => ?_,
    exchangeFail_retries hwf hrun h, exchangeFail_misses hwf hrun h hc⟩, fun h why => ?_⟩
  · refine ⟨s, congrArg Host.Outcome.next (if_neg ?_), rfl⟩
    rintro ⟨-, htodo, hran⟩
    rcases hnot with hne | hno
    · exact hne htodo
    · rw [hran] at hno
      exact absurd hno (by decide)
  · obtain ⟨t, ht, htodo, hnoted, htold, hretry⟩ := answer_gives hrun hpoll hok h hc r
    simp only [Node.noted, Chan.told, Prod.mk.injEq] at hnoted htold
    obtain ⟨hmissed, hmissRun, hseen, hinert⟩ := hnoted
    obtain ⟨hanswered, hevReq, hclosed⟩ := htold
    exact ⟨t, ht, htodo, hmissed, hmissRun, hseen, hinert, hanswered, hevReq, hclosed, hretry⟩
  · exact ⟨s, congrArg Host.Outcome.next ((if_pos hrun).trans (exchangeFail_idle h why)), rfl⟩

end

section
/-! SUPPORT. Runs of the queue. -/
namespace Sys2Proof.Machine

/-- A step is a microsecond that passes or a command, and both answer a next state. -/
theorem step_answers (s : State) : ∃ t, step s = .next t := by
  cases hp : s.pending with
  | nil => exact ⟨tick s, step_of_idle hp⟩
  | cons c rest =>
    obtain ⟨t, ht, -⟩ := exec_keeps (Keeps.refl { s with pending := rest }) c
    exact ⟨t, (step_of_pending hp).trans ht⟩

theorem safeFor_all (n : Nat) (s : State) : SafeFor n s := by
  induction n generalizing s with
  | zero => trivial
  | succ n ih =>
    obtain ⟨t, ht⟩ := step_answers s
    exact ⟨t, ht, ih t⟩

end Sys2Proof.Machine

open Sys2Proof Sys2Proof.Machine

/-- Settles O60: the row of every command answers a next state that keeps what `Keeps` says, and so does a step, so that a run
of any length goes on. -/
theorem everyCommandCompletes : Obligations.EveryCommandCompletes := by
  refine ⟨fun c s => ?_, safeFor_all⟩
  obtain ⟨t, ht, hk⟩ := exec_keeps (Keeps.refl s) c
  exact ⟨t, ht, hk.pending, hk.fuse⟩

end

section
/-! SUPPORT. A confirmed power fail when no slot for the power-fail image is erased (11 R230). -/
namespace Sys2Proof.Machine

/-- A powered module, held in BOOT, whose ledger is on and whose 16 slots for the power-fail image are all written. -/
def slotsWritten : State :=
  { State.reset with led := { State.reset.led with on := true }, store := { State.reset.store with gaspUsed := 16 } }

/-- A block without samples; nothing is metered in BOOT, so no block is closed. -/
def noBlock : BlockData :=
  { frames := [], first := 0, samples := 0, moved := 0, crossings := .replicate 6 [], padAng := .replicate 3 0 }

/-- The power fail is confirmed, and the ledger freezes without a snapshot. -/
theorem slotsWritten_noSnapshot : (pfwConfirm noBlock slotsWritten).led.snapshot.isSome = false := by decide +kernel

end Sys2Proof.Machine

open Sys2Proof Sys2Proof.Machine

/-- Refutes O53: the ledger of a powered module is on, but every slot for the power-fail image is written, so the confirmed power
fail takes no snapshot (11 R230). -/
theorem not_resetsAndFailures : ¬ Obligations.ResetsAndFailures := by
  intro h
  obtain ⟨-, -, -, -, -, -, -, -, -, -, -, hconfirm, -⟩ := h slotsWritten rfl
  obtain ⟨t, ht, -, -, -, -, hsnap, -⟩ := hconfirm noBlock rfl rfl
  cases ht
  exact absurd (slotsWritten_noSnapshot.symm.trans (hsnap rfl)) (by decide)

end

section
/-! SUPPORT. What the energy path, the key pool and the logs leave alone, whatever they have to do: the mode and what a boot rests
on, the outputs that are off and the contactors that are open, the strands with no galley, and the registers of modes and
presence. -/
namespace Sys2Proof.Machine

/-! ## The relation -/

/-- What a boot rests on and what its end is told by, apart from the registers. -/
structure Footing where
  mode : Mode
  role : Role
  mainGood : Bool
  booted : Bool
  factoryDone : Bool
  resetLow : Bool
  refHeld : Bool
  pfwConfirmed : Bool
  settings : List SettingItem
  staged : List SettingItem
  standbyReady : Bool

/-- The footing that system control holds. -/
def Sys.footing (y : Sys) : Footing :=
  { mode := y.mode, role := y.role, mainGood := y.mainGood, booted := y.booted, factoryDone := y.factoryDone
    resetLow := y.resetLow, refHeld := y.refHeld, pfwConfirmed := y.pfwConfirmed, settings := y.settings, staged := y.staged
    standbyReady := y.standbyReady }

/-- What the store tells the boot ROM: the slots, which one runs, and the versions that an image must fit. -/
structure Images where
  slots : Vector FwSlot 2
  runs : Nat
  formats : List Nat
  legalVer : Nat

/-- The images of a store. -/
def Store.images (t : Store) : Images := { slots := t.slots, runs := t.runs, formats := t.formats, legalVer := t.legalVer }

/-- The lock as it reads and as it is driven. -/
def Pilot.lock (p : Pilot) : Bool × Option Bool := (p.bolt, p.lockDir)

/-- What switches power: the coils and the outputs. -/
def Sw.switches (w : Sw) : Bool × Bool × Vector OutCh 12 := (w.k1, w.k2, w.outs)

/-- The registers that the energy path leaves alone: SYS_INERT_REASON, SYS_STATUS, PWR_STATUS, the inbound doorbells of mailbox 0,
OUT_TEST, VI_LOCK, STORE_VIOL1 and AO_PRES_STAT. -/
def quiet : List Nat := [0x18, 0x20, 0xAC, 0x10004, 0x50054, 0x9001C, 0xD0018, 0xE0028]

/-- A field of none of the registers `A`, nor of the outbound doorbells of mailbox 0. -/
def Field.apart (A : List Nat) (f : Field) : Bool := decide (f.lo < 32) && !A.contains f.addr && f.addr != 0x10008

/-- From `s` to `t` the footing, the images, the lock and the registers `A` stay; outputs and contactors only turn off, galleys only
close, Platen's panel only powers down, and a doorbell that rings in mailbox 0 goes on ringing. -/
structure Calm (A : List Nat) (s t : State) : Prop where
  footing : t.sys.footing = s.sys.footing
  images : t.store.images = s.store.images
  lock : t.pilot.lock = s.pilot.lock
  commPend : t.tag.commPend = s.tag.commPend
  k1 : s.sw.k1 = false → t.sw.k1 = false
  k2 : s.sw.k2 = false → t.sw.k2 = false
  outs : ∀ n, (outCh n s).on = false → (outCh n t).on = false
  galleys : ∀ n, (getS s n).galley = none → (getS t n).galley = none
  panel : s.plt.panelOn = false → t.plt.panelOn = false
  rising : risingFrom 0 s.regs = true → risingFrom 0 t.regs = true
  reads : risingFrom 0 s.regs = true → ∀ f : Field, f.addr ∈ A → f.lo < 32 → getF t f = getF s f
  rings : risingFrom 0 s.regs = true → ∀ j < 32, (getF s (Reg.MB_OUT_PEND_PEND 0)).testBit j = true →
    (getF t (Reg.MB_OUT_PEND_PEND 0)).testBit j = true

namespace Calm
variable {A : List Nat} {s t u : State}

theorem refl (s : State) : Calm A s s where
  footing := rfl
  images := rfl
  lock := rfl
  commPend := rfl
  k1 := id
  k2 := id
  outs _ := id
  galleys _ := id
  panel := id
  rising := id
  reads _ _ _ _ := rfl
  rings _ _ _ := id

theorem trans (h : Calm A s t) (k : Calm A t u) : Calm A s u where
  footing := k.footing.trans h.footing
  images := k.images.trans h.images
  lock := k.lock.trans h.lock
  commPend := k.commPend.trans h.commPend
  k1 := k.k1 ∘ h.k1
  k2 := k.k2 ∘ h.k2
  outs n := k.outs n ∘ h.outs n
  galleys n := k.galleys n ∘ h.galleys n
  panel := k.panel ∘ h.panel
  rising := k.rising ∘ h.rising
  reads hr f hf hl := (k.reads (h.rising hr) f hf hl).trans (h.reads hr f hf hl)
  rings hr j hj := k.rings (h.rising hr) j hj ∘ h.rings hr j hj

theorem ite {p : Prop} [Decidable p] (ht : Calm A s t) (hu : Calm A s u) : Calm A s (if p then t else u) := by
  split
  · exact ht
  · exact hu

/-- A step that is taken or left out. -/
theorem when {p : Prop} [Decidable p] (ht : Calm A s t) (hu : Calm A s t → Calm A s u) : Calm A s (if p then u else t) :=
  ite (hu ht) ht

/-- A step that is left out or taken. -/
theorem skip {p : Prop} [Decidable p] (ht : Calm A s t) (hu : Calm A s t → Calm A s u) : Calm A s (if p then t else u) :=
  ite ht (hu ht)

theorem foldl {β : Type} {g : State → β → State} (hg : ∀ t x, Calm A s t → Calm A s (g t x)) {l : List β} (h : Calm A s t) :
    Calm A s (l.foldl g t) := by
  induction l generalizing t with
  | nil => exact h
  | cons x l ih => exact ih (hg t x h)

/-- The state of a result that carries it. -/
theorem result {α : Type} {p : α × State} {v : α} (h : Calm A s p.2) (e : p = (v, t)) : Calm A s t := by
  rwa [e] at h

end Calm

/-! ## Changes of one part -/

section
variable {A : List Nat} {a s : State} (h : Calm A a s)
include h

theorem updHlc_calm {f} : Calm A a (s.updHlc f) := h.trans { Calm.refl s with }
theorem updSup_calm {f} : Calm A a (s.updSup f) := h.trans { Calm.refl s with }
theorem updKey_calm {f} : Calm A a (s.updKey f) := h.trans { Calm.refl s with }
theorem updMet_calm {f} : Calm A a (s.updMet f) := h.trans { Calm.refl s with }
theorem updLed_calm {f} : Calm A a (s.updLed f) := h.trans { Calm.refl s with }
theorem updLink_calm {f} : Calm A a (s.updLink f) := h.trans { Calm.refl s with }
theorem updAlloc_calm {f} : Calm A a (s.updAlloc f) := h.trans { Calm.refl s with }
theorem updShadow_calm {f} : Calm A a (s.updShadow f) := h.trans { Calm.refl s with }

theorem updSys_calm {f : Sys → Sys} (hf : (f s.sys).footing = s.sys.footing) : Calm A a (s.updSys f) :=
  h.trans { Calm.refl s with footing := hf }

theorem updStore_calm {f : Store → Store} (hf : ∀ t, (f t).images = t.images) : Calm A a (s.updStore f) :=
  h.trans { Calm.refl s with images := hf s.store }

theorem updPilot_calm {f : Pilot → Pilot} (hf : (f s.pilot).lock = s.pilot.lock) : Calm A a (s.updPilot f) :=
  h.trans { Calm.refl s with lock := hf }

theorem updTag_calm {f : Tag → Tag} (hf : (f s.tag).commPend = s.tag.commPend) : Calm A a (s.updTag f) :=
  h.trans { Calm.refl s with commPend := hf }

theorem updPlt_calm {f : Plt → Plt} (hf : s.plt.panelOn = false → (f s.plt).panelOn = false) : Calm A a (s.updPlt f) :=
  h.trans { Calm.refl s with panel := hf }

/-- A change of the switching block that leaves the coils and the outputs as they are. -/
theorem updSw_calm {f : Sw → Sw} (hf : (f s.sw).switches = s.sw.switches) : Calm A a (s.updSw f) := by
  simp only [Sw.switches, Prod.mk.injEq] at hf
  obtain ⟨hk1, hk2, houts⟩ := hf
  exact h.trans { Calm.refl s with
    k1 := hk1.trans, k2 := hk2.trans, outs := fun n hn => by unfold outCh; rw [State.updSw_sw, houts]; exact hn }

/-- A change of the Capstan that opens no galley. -/
theorem updCap_calm {f : Cap → Cap} (hf : ∀ n, (s.cap.strand n).galley = none → ((f s.cap).strand n).galley = none) :
    Calm A a (s.updCap f) := h.trans { Calm.refl s with galleys := hf }

end

/-! ## Register fields, logs and doorbells -/

theorem Field.apart_key {A : List Nat} {f g : Field} (h : f.apart A = true) (hg : g.addr ∈ A ∨ g.addr = 0x10008)
    (hl : g.lo < 32) : g.key ≠ f.key := by
  simp only [Field.apart, Bool.and_eq_true, decide_eq_true_eq, Bool.not_eq_true', List.contains_eq_mem, decide_eq_false_iff_not,
    bne_iff_ne] at h
  obtain ⟨⟨hlo, hmem⟩, hbell⟩ := h
  refine Field.key_ne (fun e => ?_) hl hlo
  rcases hg with hg | hg
  · exact hmem (e ▸ hg)
  · exact hbell (e ▸ hg)

section
variable {A : List Nat} {a s : State}

theorem setF_calm {f : Field} {v : Nat} (hf : f.apart A = true) (h : Calm A a s) : Calm A a (setF f v s) := by
  have hbell : (Reg.MB_OUT_PEND_PEND 0).key ≠ f.key := Field.apart_key hf (.inr rfl) (show (0 : Nat) < 32 by decide)
  exact h.trans { Calm.refl (A := A) s with
    rising := fun hr => setF_regs_rising hr f v
    reads := fun hr g hg hl => getF_setF_other hr (Field.apart_key hf (.inl hg) hl) v
    rings := fun hr j _ hj => by rwa [getF_setF_other hr hbell] }

theorem setB_calm {f : Field} {b : Bool} (hf : f.apart A = true) (h : Calm A a s) : Calm A a (setB f b s) := setF_calm hf h

theorem incF_calm {f : Field} (hf : f.apart A = true) (h : Calm A a s) : Calm A a (incF f s) := setF_calm hf h

theorem boundary_calm {f : Field} (h : Calm A a s) : Calm A a (boundary f s) := updShadow_calm h

theorem boundaries_calm {fs : List Field} (h : Calm A a s) : Calm A a (boundaries fs s) :=
  .foldl (fun _ _ => boundary_calm) h

theorem logEvent_calm {source code value : Nat} (h : Calm A a s) : Calm A a (logEvent source code value s) :=
  .ite h (updStore_calm (updSys_calm h rfl) fun _ => rfl)

theorem logViolationAs_calm {source k who value : Nat} (h : Calm A a s) : Calm A a (logViolationAs source k who value s) :=
  .ite h (updStore_calm (updSys_calm h rfl) fun _ => rfl)

theorem logViolation_calm {source k value : Nat} (h : Calm A a s) : Calm A a (logViolation source k value s) :=
  logViolationAs_calm h

theorem freeBelow_calm {n : Nat} (h : Calm A a s) : Calm A a (freeBelow n s).2 :=
  updSys_calm (f := fun y => { y with freeCtr := y.freeCtr + 1 }) h rfl

/-- A doorbell of mailbox 0 rings: those that rang go on. -/
theorem ringOut_calm {d : Nat} (hA : 0x10008 ∉ A) (h : Calm A a s) : Calm A a (ringOut 0 d s) := by
  refine h.trans { Calm.refl (A := A) s with
    rising := fun hr => setF_regs_rising hr _ _
    reads := fun hr f hf hl => ?_
    rings := fun hr j hj hon => ?_ }
  · have hne : f.addr ≠ 0x10008 := fun e => hA (e ▸ hf)
    exact getF_setF_other hr (Field.key_ne hne hl (show (0 : Nat) < 32 by decide)) _
  · have hj' : j < (Reg.MB_OUT_PEND_PEND 0).width := hj
    unfold ringOut
    rw [getF_setF_same hr, Nat.testBit_mod_two_pow, Nat.testBit_or, hon]
    simp [hj']

/-- A doorbell of mailbox 0 rings: its bit is set. -/
theorem ringOut_rings (hr : risingFrom 0 s.regs = true) {d : Nat} (hd : d < 32) :
    (getF (ringOut 0 d s) (Reg.MB_OUT_PEND_PEND 0)).testBit d = true := by
  have hd' : d < (Reg.MB_OUT_PEND_PEND 0).width := hd
  unfold ringOut
  rw [getF_setF_same hr, Nat.testBit_mod_two_pow, Nat.testBit_or, Nat.testBit_two_pow_self]
  simp [hd']

theorem ringOther_calm {k d : Nat} (hk : (Reg.MB_OUT_PEND_PEND k).apart A = true) (h : Calm A a s) : Calm A a (ringOut k d s) :=
  setF_calm hk h

/-! ## Events and fences -/

theorem EventStrand.galley_none {x y : Strand} (h : EventStrand x y) (hx : x.galley = none) : y.galley = none := by
  have hheld := h.held
  rw [hx] at hheld
  exact Option.map_eq_none_iff.mp hheld

theorem raiseHw_calm {ev w : Nat} (h : Calm A a s) : Calm A a (raiseHw ev w s) :=
  updCap_calm h fun n => ((Cap.raise_event _ _ _ _ _ s.cap).strands n).galley_none

theorem raiseFw_calm {ev w : Nat} (h : Calm A a s) : Calm A a (raiseFw ev w s) := .ite (updSys_calm h rfl) (raiseHw_calm h)

theorem mapHeldOfOthers_calm {by_ : Option (Fin 320)} {f : Held → Held} (h : Calm A a s) :
    Calm A a (mapHeldOfOthers by_ f s) := by
  unfold mapHeldOfOthers
  refine updCap_calm h fun n hn => ?_
  have hn' : s.cap.strands[n.val].galley = none := hn
  dsimp only [Cap.strand, Vector.get_eq_getElem]
  rw [Vector.getElem_mapFinIdx]
  split
  · exact hn'
  · simp [Strand.mapHeld, hn']

theorem fence_calm {port : Nat} {arg : Option Word} {by_ : Option (Fin 320)} (h : Calm A a s) :
    Calm A a (fence port arg by_ s) := mapHeldOfOthers_calm h

/-! ## Outputs and contactors -/

theorem outCh_modOut_same (n : Fin 12) (f : OutCh → OutCh) (s : State) : outCh n (modOut n f s) = f (outCh n s) :=
  vector_get_set_same _ n _

theorem outCh_modOut_other {n m : Fin 12} (h : m ≠ n) (f : OutCh → OutCh) (s : State) : outCh m (modOut n f s) = outCh m s :=
  vector_get_set_other _ h _

theorem modOut_calm {n : Fin 12} {f : OutCh → OutCh} (hf : ∀ o, o.on = false → (f o).on = false) (h : Calm A a s) :
    Calm A a (modOut n f s) := by
  refine h.trans { Calm.refl s with outs := fun m hm => ?_ }
  by_cases e : m = n
  · subst e; rw [outCh_modOut_same]; exact hf _ hm
  · rwa [outCh_modOut_other e]

@[simp] theorem OutCh.drive_on (o : OutCh) (p : Option OutCh) : (o.drive p).on = o.on := by
  cases p <;> rfl

/-- The cells of an output follow its command and its partner's, and no output turns on or off. -/
theorem drive_calm {n : Fin 12} {p : Option OutCh} (h : Calm A a s) : Calm A a (modOut n (fun o => o.drive p) s) :=
  modOut_calm (fun o ho => (OutCh.drive_on o p).trans ho) h

theorem switchOut_calm {n : Fin 12} {f : OutCh → OutCh} (hf : ∀ o, o.on = false → (f o).on = false) (h : Calm A a s) :
    Calm A a (switchOut n f s) := by
  unfold switchOut
  dsimp only
  split
  · exact drive_calm (modOut_calm hf h)
  · exact drive_calm (drive_calm (modOut_calm hf h))

theorem clampEnergy_calm {n : Fin 12} (h : Calm A a s) : Calm A a (clampEnergy n s) :=
  .ite h (updSw_calm h (by split <;> rfl))

theorem outOff_calm {n : Fin 12} (h : Calm A a s) : Calm A a (outOff n s) :=
  .ite (switchOut_calm (fun _ _ => rfl) (boundary_calm (.ite h (clampEnergy_calm h)))) h

/-- A coil is switched off with its output. -/
theorem setCoil_calm {second : Bool} (h : Calm A a s) : Calm A a (setCoil second false s) := by
  have hout : Calm A a (match coilOutput second s with | some n => outOff n s | none => s) := by
    split
    · exact outOff_calm h
    · exact h
  refine hout.trans ?_
  cases second
  · exact { Calm.refl _ with k1 := fun _ => rfl }
  · exact { Calm.refl _ with k2 := fun _ => rfl }

end

/-! ## The energy path -/

section
variable {a s : State} (h : Calm quiet a s)
include h

theorem setHealth_calm {b : Nat} (hb : b < 32) : Calm quiet a (setHealth b s) := by
  have hbit : (⟨0x80, b, 1, 0⟩ : Field).apart quiet = true := by simp [Field.apart, quiet, hb]
  exact .ite h (raiseFw_calm (ringOut_calm (by decide) (setF_calm hbit h)))

theorem driveSteady_calm {l : Line} : Calm quiet a (driveSteady l s) :=
  setF_calm (by decide) (setB_calm (by decide) (setB_calm (by decide) (updPilot_calm h rfl)))

theorem driveLine_calm : Calm quiet a (driveLine s) := by
  unfold driveLine
  split
  · exact .ite h (driveSteady_calm h)
  · exact driveSteady_calm h

theorem stopPwm_calm : Calm quiet a (stopPwm s) := driveLine_calm (updPilot_calm h rfl)

theorem supervisorStop_calm : Calm quiet a (supervisorStop s) := fence_calm (stopPwm_calm h)

theorem clearArm_calm : Calm quiet a (clearArm s) := fence_calm (setF_calm (by decide) h)

theorem openingBoundary_calm : Calm quiet a (openingBoundary s) := boundaries_calm h

theorem wornCheck_calm : Calm quiet a (wornCheck s) := .ite (setHealth_calm h (by decide)) h

theorem countBreak_calm {second : Bool} {i : Nat} : Calm quiet a (countBreak second i s) := by
  cases second
  · exact wornCheck_calm (setF_calm (by decide) (updSw_calm h rfl))
  · exact wornCheck_calm (setF_calm (by decide) (updSw_calm h rfl))

theorem openNow_calm {first second : Bool} : Calm quiet a (openNow first second s) := by
  have hhead := clearArm_calm (openingBoundary_calm h)
  exact .ite h (updSw_calm (.when (.when hhead fun h => setCoil_calm (countBreak_calm h))
    fun h => setCoil_calm (countBreak_calm h)) rfl)

theorem beginDisc_calm {k : DiscKind} : Calm quiet a (beginDisc k s) := by
  have hhead : Calm quiet a ((clearArm (boundary Reg.CONT_CFG_ARC_LEAD (openingBoundary s))).updSw fun w =>
      { w with reported := false }) :=
    updSw_calm (clearArm_calm (boundary_calm (openingBoundary_calm h))) rfl
  exact .ite (updSw_calm hhead rfl) (updSw_calm (.when (boundaries_calm hhead) stopPwm_calm) rfl)

theorem startDisc_calm {k : DiscKind} : Calm quiet a (startDisc k s) := by
  unfold startDisc
  split
  · exact beginDisc_calm h
  · exact beginDisc_calm h
  · exact openNow_calm (.when h stopPwm_calm)
  · exact updSw_calm h rfl
  · exact .ite (updSw_calm h rfl) h
  · exact h
  · exact h
  · exact h
  · exact .ite (stopPwm_calm (clearArm_calm h)) h

/-! ## The pool of key slots -/

theorem modSlot_calm {i : Nat} {f : Slot → Slot} : Calm quiet a (modSlot i f s) := by
  unfold modSlot
  split
  · exact updKey_calm h
  · exact h

theorem wipeSlot_calm {fails : Bool} {i : Nat} : Calm quiet a (wipeSlot fails i s) := by
  have hwiped := modSlot_calm h (i := i) (f := fun _ => {})
  exact .ite (.ite (setHealth_calm (updKey_calm hwiped) (by decide)) (updKey_calm hwiped)) hwiped

theorem settleSlot_calm {fails : Option Bool} {i : Nat} : Calm quiet a (settleSlot fails i s) := by
  refine .ite h ?_
  cases fails with
  | some f => exact wipeSlot_calm h
  | none => exact wipeSlot_calm (freeBelow_calm h)

theorem firmwareLetsGo_calm {i : Nat} : Calm quiet a (firmwareLetsGo i s) := settleSlot_calm (modSlot_calm h)

/-! ## The end of an HLC session, trips and the report -/

theorem hlcMove_calm {st : Nat} : Calm quiet a (hlcMove st s) := raiseFw_calm (updHlc_calm h)

theorem dropTls_calm : Calm quiet a (dropTls s) := by
  unfold dropTls
  split
  · exact firmwareLetsGo_calm (updHlc_calm h)
  · exact updHlc_calm h

theorem hlcEnd_calm {reason : Nat} : Calm quiet a (hlcEnd reason s) := by
  refine .ite h ?_
  exact .when (hlcMove_calm (setF_calm (by decide) (updHlc_calm (.when h dropTls_calm)))) fun h =>
    startDisc_calm (.skip h raiseFw_calm)

omit h in
theorem tripcnt_apart {bit : Nat} (hbit : bit < 16) : (Reg.SAFE_TRIPCNT_COUNT bit).apart quiet = true := by
  revert bit
  decide

theorem tripCore_calm {bit value : Nat} (hbit : bit < 16) : Calm quiet a (tripCore bit value s) := by
  refine .when ?_ logViolation_calm
  refine incF_calm (tripcnt_apart hbit) (logEvent_calm (ringOther_calm (by decide) (raiseHw_calm (driveLine_calm ?_))))
  refine openNow_calm (supervisorStop_calm (updSup_calm (clearArm_calm (setF_calm (by decide) ?_))))
  exact setF_calm (by decide) (setF_calm (by decide) h)

theorem report_calm {st : Nat} : Calm quiet a (report st s) := by
  refine .when (.when (raiseHw_calm (setF_calm (by decide) h)) fun h => hlcEnd_calm (clearArm_calm h)) fun h => ?_
  exact setF_calm (by decide) (updHlc_calm h)

theorem reportActs_calm {was st : Nat} : Calm quiet a (reportActs was st s) :=
  .ite (.ite (startDisc_calm h) (.ite h (.ite h (tripCore_calm (updSup_calm h) (by decide))))) h

theorem settleLine_calm : Calm quiet a (settleLine s) :=
  .when (driveLine_calm h) fun h => driveLine_calm (reportActs_calm (report_calm h))

/-! ## The lasting pilot conditions, and settling -/

omit h in
theorem violCount_apart {k : Nat} (hk : k < 16) : (Reg.VI_VIOL_COUNT k).apart quiet = true := by
  revert k
  decide

theorem violation_calm {k value : Nat} (hk : k < 16) : Calm quiet a (violation k value s) :=
  logViolation_calm (incF_calm (violCount_apart hk) h)

theorem lastingBegins_calm {k value : Nat} (hk : k < 16) : Calm quiet a (lastingBegins k value s) :=
  .ite h (violation_calm (updPilot_calm h rfl) hk)

theorem showAnom_calm {k : Nat} : Calm quiet a (showAnom k s) := .ite h (setF_calm (by decide) h)

theorem settleLasting_calm {k : Nat} (hk : k < 16) : Calm quiet a (settleLasting k s) := by
  refine .ite (.when (raiseHw_calm (showAnom_calm (lastingBegins_calm h hk))) fun h => startDisc_calm h) (.ite ?_ h)
  exact .when (updPilot_calm h rfl) (setF_calm (by decide))

theorem settle_calm : Calm quiet a (settle s) :=
  settleLine_calm (settleLasting_calm (settleLasting_calm (settleLine_calm h) (by decide)) (by decide))

end

end Sys2Proof.Machine
end

section
/-! SUPPORT. Modes and outputs after the rows that change them, and what the records of the ledger leave alone. -/
namespace Sys2Proof.Machine

/-! ## Entering a mode -/

section
variable {A : List Nat} {a s : State}

/-- The module in mode `m`, all else as it is. -/
def State.inMode (m : Mode) (s : State) : State := s.updSys fun y => { y with mode := m }

theorem enterMode_same {m : Mode} (hm : s.sys.mode = m) : enterMode m s = s.inMode m := by
  subst hm
  exact if_pos rfl

theorem enterMode_other {m : Mode} (hm : s.sys.mode ≠ m) : enterMode m s = ringOut 0 0 (s.inMode m) := if_neg hm

/-- To enter a mode is to be in it, but for the doorbell. -/
theorem enterMode_calm {m : Mode} (hA : 0x10008 ∉ A) : Calm A (s.inMode m) (enterMode m s) := by
  by_cases hm : s.sys.mode = m
  · rw [enterMode_same hm]; exact .refl _
  · rw [enterMode_other hm]; exact ringOut_calm hA (.refl _)

/-- Entering another mode rings DB0 of mailbox 0 (R400). -/
theorem enterMode_rings {m : Mode} (hr : risingFrom 0 s.regs = true) (hm : s.sys.mode ≠ m) :
    (getF (enterMode m s) (Reg.MB_OUT_PEND_PEND 0)).testBit 0 = true := by
  rw [enterMode_other hm]
  exact ringOut_rings (s := s.inMode m) hr (by decide)

theorem roleMode_ne_standby (r : Role) : roleMode r ≠ .standby := by cases r <;> nofun

theorem roleMode_ne_commission (r : Role) : roleMode r ≠ .commission := by cases r <;> nofun

/-! ## What `Calm` says of single parts -/

section
variable (h : Calm A a s)
include h

theorem Calm.mode : s.sys.mode = a.sys.mode := congrArg Footing.mode h.footing
theorem Calm.role : s.sys.role = a.sys.role := congrArg Footing.role h.footing
theorem Calm.settings : s.sys.settings = a.sys.settings := congrArg Footing.settings h.footing
theorem Calm.staged : s.sys.staged = a.sys.staged := congrArg Footing.staged h.footing
theorem Calm.standbyReady : s.sys.standbyReady = a.sys.standbyReady := congrArg Footing.standbyReady h.footing

theorem Calm.allOff (hoff : ∀ n, (outCh n a).on = false) : ∀ n, (outCh n s).on = false := fun n => h.outs n (hoff n)

end

/-! ## All outputs off -/

/-- The outputs turn off, one after the other. -/
def outputsOff (s : State) : State := (List.finRange 12).foldl (fun s n => outOff n s) s

theorem outputsOff_calm (h : Calm A a s) : Calm A a (outputsOff s) := .foldl (fun _ _ => outOff_calm) h

/-- An output that is commanded off is off, whatever its partner's cells do. -/
theorem switchOut_off {n : Fin 12} {f : OutCh → OutCh} (hf : ∀ o, (f o).on = false) : (outCh n (switchOut n f s)).on = false := by
  have hcmd : (outCh n (modOut n f s)).on = false := by rw [outCh_modOut_same]; exact hf _
  unfold switchOut
  dsimp only
  split
  · exact (drive_calm (A := []) (.refl _)).outs n hcmd
  · exact (drive_calm (A := []) (drive_calm (.refl _))).outs n hcmd

theorem outOff_off (n : Fin 12) (s : State) : (outCh n (outOff n s)).on = false := by
  unfold outOff
  split
  · exact switchOut_off fun _ => rfl
  · next h => simpa using h

theorem outputsOff_off (s : State) (n : Fin 12) : (outCh n (outputsOff s)).on = false := by
  suffices h : ∀ l : List (Fin 12), n ∈ l → ∀ s : State, (outCh n (l.foldl (fun s n => outOff n s) s)).on = false from
    h _ (List.mem_finRange n) s
  intro l
  induction l with
  | nil => nofun
  | cons m l ih =>
    intro hn s
    rcases List.mem_cons.mp hn with rfl | hl
    · have hrest : Calm [] (outOff n s) (l.foldl (fun s n => outOff n s) (outOff n s)) := .foldl (fun _ _ => outOff_calm) (.refl _)
      exact hrest.outs n (outOff_off n s)
    · exact ih hl _

/-! ## State F -/

theorem driveLine_minus12 (h : pilotLine s = .minus12) : (driveLine s).pilot.line = .minus12 := by
  unfold driveLine
  rw [h]
  rfl

theorem pilotLine_commission (hm : s.sys.mode = .commission) : pilotLine s = .minus12 := by
  unfold pilotLine
  rw [hm]

/-- In COMMISSION the pilot line ends at -12 V, whatever the report of state F started. -/
theorem settleLine_commission (hm : s.sys.mode = .commission) : (settleLine s).pilot.line = .minus12 := by
  unfold settleLine
  dsimp only
  split
  · refine driveLine_minus12 (pilotLine_commission ?_)
    exact (reportActs_calm (report_calm (driveLine_calm (.refl s)))).mode.trans hm
  · exact driveLine_minus12 (pilotLine_commission hm)

theorem settle_commission (hm : s.sys.mode = .commission) : (settle s).pilot.line = .minus12 := by
  refine settleLine_commission ?_
  exact (settleLasting_calm (settleLasting_calm (settleLine_calm (.refl s)) (by decide)) (by decide)).mode.trans hm

/-! ## The host's writes -/

/-- A write that the port serves reaches its block. -/
theorem hostTo_served {addr : Nat} {f : State → Nat × State} (h : HostServes addr s) : hostTo addr f s = answer (f s) := by
  obtain ⟨hup, hawake, hopen⟩ := h
  simp [hostTo, hup, portWord, hopen, portWake_awake hawake]

theorem answer_answered {c : Nat} (hc : c < 256) (hr : risingFrom 0 s.regs = true) : Answered c (answer (c, s)) :=
  (answerAs_last hr _ _ _).trans (Nat.mod_eq_of_lt hc)

end

/-! ## A mode is entered, and the energy path settles -/

section
variable (m : Mode) (s : State)

theorem settleIn_calm : Calm quiet (s.inMode m) (settle (enterMode m s)) := settle_calm (enterMode_calm (by decide))

theorem settleIn_mode : (settle (enterMode m s)).sys.mode = m := (settleIn_calm m s).mode

theorem settleIn_staged : (settle (enterMode m s)).sys.staged = s.sys.staged := (settleIn_calm m s).staged

theorem settleIn_settings : (settle (enterMode m s)).sys.settings = s.sys.settings := (settleIn_calm m s).settings

theorem settleIn_standbyReady : (settle (enterMode m s)).sys.standbyReady = s.sys.standbyReady := (settleIn_calm m s).standbyReady

variable {m s}

theorem settleIn_off (hoff : ∀ n, (outCh n s).on = false) : ∀ n, (outCh n (settle (enterMode m s))).on = false :=
  (settleIn_calm m s).allOff hoff

section
variable (hr : risingFrom 0 s.regs = true)
include hr

theorem settleIn_rising : risingFrom 0 (settle (enterMode m s)).regs = true := (settleIn_calm m s).rising hr

theorem settleIn_reads {f : Field} (hf : f.addr ∈ quiet) (hl : f.lo < 32) : getF (settle (enterMode m s)) f = getF s f :=
  (settleIn_calm m s).reads hr f hf hl

theorem settleIn_rings (hm : s.sys.mode ≠ m) : (getF (settle (enterMode m s)) (Reg.MB_OUT_PEND_PEND 0)).testBit 0 = true := by
  have hrise : risingFrom 0 (enterMode m s).regs = true := (enterMode_calm (A := quiet) (by decide)).rising (s := s.inMode m) hr
  exact (settle_calm (.refl _)).rings hrise 0 (by decide) (enterMode_rings hr hm)

end

theorem settleIn_commission : (settle (enterMode .commission s)).pilot.line = .minus12 :=
  settle_commission (enterMode_calm (A := quiet) (by decide)).mode

end

/-! ## COMMISSION is entered -/

section
variable {s : State}

theorem fenceOutputs_calm {A : List Nat} {a : State} {mask : BitVec 12} {by_ : Option (Fin 320)} (h : Calm A a s) :
    Calm A a (fenceOutputs mask by_ s) := mapHeldOfOthers_calm h

/-- The module with its uncommitted settings and its outputs off, about to enter COMMISSION. -/
def commissionCleared (items : List SettingItem) (s : State) : State :=
  fenceOutputs 0xFFF none (outputsOff (s.updSys fun y => { y with staged := items }))

theorem enterCommission_eq (items : List SettingItem) (s : State) :
    enterCommission items s = settle (enterMode .commission (commissionCleared items s)) := rfl

theorem commissionCleared_calm (items : List SettingItem) (s : State) :
    Calm quiet (s.updSys fun y => { y with staged := items }) (commissionCleared items s) :=
  fenceOutputs_calm (outputsOff_calm (.refl _))

theorem commissionCleared_off (items : List SettingItem) (s : State) : ∀ n, (outCh n (commissionCleared items s)).on = false :=
  (fenceOutputs_calm (A := quiet) (.refl _)).allOff (outputsOff_off _)

/-! What COMMISSION begins with. -/

section
variable (items : List SettingItem)

theorem enterCommission_mode (s : State) : (enterCommission items s).sys.mode = .commission := by
  rw [enterCommission_eq]; exact settleIn_mode _ _

theorem enterCommission_staged (s : State) : (enterCommission items s).sys.staged = items := by
  rw [enterCommission_eq]; exact (settleIn_staged _ _).trans (commissionCleared_calm items s).staged

theorem enterCommission_off (s : State) : ∀ n, (outCh n (enterCommission items s)).on = false := by
  rw [enterCommission_eq]; exact settleIn_off (commissionCleared_off items s)

theorem enterCommission_line (s : State) : (enterCommission items s).pilot.line = .minus12 := by
  rw [enterCommission_eq]; exact settleIn_commission

theorem enterCommission_rising (hr : risingFrom 0 s.regs = true) : risingFrom 0 (enterCommission items s).regs = true := by
  rw [enterCommission_eq]; exact settleIn_rising ((commissionCleared_calm items s).rising hr)

theorem enterCommission_rings (hr : risingFrom 0 s.regs = true) (hm : s.sys.mode ≠ .commission) :
    (getF (enterCommission items s) (Reg.MB_OUT_PEND_PEND 0)).testBit 0 = true := by
  have hmode : (commissionCleared items s).sys.mode = s.sys.mode := (commissionCleared_calm items s).mode
  rw [enterCommission_eq]
  exact settleIn_rings ((commissionCleared_calm items s).rising hr) (hmode.trans_ne hm)

end

/-- REQ_COMMISSION in the role mode, with the installer window open and no session. -/
theorem requestCommission_enters (hm : s.sys.mode = roleMode s.sys.role) (hs : sessionActive s = false) (hi : installer s = true) :
    requestCommission true s = (statusOk, enterCommission [] s) := by
  simp [requestCommission, hm, roleMode_ne_commission, hs, hi]

theorem requestCommission_session (hm : s.sys.mode = roleMode s.sys.role) (hs : sessionActive s = true) :
    requestCommission true s = (errMode, s) := by
  simp [requestCommission, hm, roleMode_ne_commission, hs]

theorem requestCommission_absent (hm : s.sys.mode = roleMode s.sys.role) (hs : sessionActive s = false)
    (hi : installer s = false) : requestCommission true s = (errPresence, s) := by
  simp [requestCommission, hm, roleMode_ne_commission, hs, hi]

theorem requestCommission_held (hm : s.sys.mode = .commission) : requestCommission true s = (statusOk, s) := by
  simp [requestCommission, hm]

theorem requestCommission_unready (hm : s.sys.mode = .factory ∨ s.sys.mode = .inert) : requestCommission true s = (errMode, s) := by
  have hne : s.sys.mode ≠ .commission := by rcases hm with hm | hm <;> rw [hm] <;> nofun
  have hrole : s.sys.mode ≠ roleMode s.sys.role := by rcases hm with hm | hm <;> rw [hm] <;> cases s.sys.role <;> nofun
  simp [requestCommission, hne, hrole]

theorem reqCommission_gives {r : Nat × State} {P : State → Prop} (hp : HostServes Reg.SYS_CTRL_REQ_COMMISSION.addr s)
    (hreq : requestCommission true s = r) (h : P (answer r)) : Gives .reqCommission s P :=
  ⟨answer r, congrArg Host.Outcome.next ((hostTo_served hp).trans (congrArg answer hreq)), h⟩

/-! ## The settings are committed -/

theorem updDie_calm {A : List Nat} {a : State} {d : Nat} {f : Die → Die} (h : Calm A a s) : Calm A a (updDie d f s) :=
  updStore_calm h fun _ => rfl

theorem copyOnWrite_calm {A : List Nat} {a : State} {tag} {ls : List Nat} (h : Calm A a s) : Calm A a (copyOnWrite tag ls s) :=
  .foldl (fun _ _ => updDie_calm) h

theorem noteCommissioned_calm {A : List Nat} {a : State} (hA : Reg.SYS_STATUS_UNCOMMISSIONED.apart A = true) (h : Calm A a s) :
    Calm A a (noteCommissioned s) := setB_calm hA h

/-- A setting with a known ID takes the place of the one it renews. -/
def settingsWith (x : SettingItem) (ys : List SettingItem) : List SettingItem := ys.filter (fun y => !renews y x) ++ [x]

/-- The items of 19 R411. -/
def knownItems : List Nat := [1, 2, 3, 4, 0x100, 0x101, 0x102]

theorem storeItem_known {x : SettingItem} (hx : x.item ∈ knownItems) :
    storeItem s x = s.updSys fun y => { y with settings := settingsWith x y.settings } :=
  if_pos (List.contains_iff_mem.mpr hx)

theorem storeItem_unknown {x : SettingItem} (hx : x.item ∉ knownItems) :
    storeItem s x = logViolation 13 1 x.item (incF (Reg.STORE_VIOL_COUNT 1) s) :=
  if_neg fun h => hx (List.contains_iff_mem.mp h)

/-- An item of 19 R411 that is not a register takes the place of the one with its ID. -/
theorem mem_settingsWith {x y : SettingItem} {ys : List SettingItem} (hx : x.item ≠ 0x101) :
    y ∈ settingsWith x ys ↔ (y ∈ ys ∧ y.item ≠ x.item) ∨ y = x := by
  have hrenews : renews y x = false ↔ y.item ≠ x.item := by
    unfold renews
    by_cases h : y.item = x.item
    · simp [h, hx]
    · simp [h]
  simp [settingsWith, hrenews]

/-- The settings are stored and the outputs off: what is left is to note them and to leave COMMISSION. -/
def settingsStored (x : SettingItem) (s : State) : State :=
  outputsOff (setF Reg.OUT_TEST_MASK 0
    (copyOnWrite noTag [if x.item < 0x100 then 0x3E0 else 0x3DE] ((storeItem s x).updSys fun y => { y with staged := [] })))

/-- The commit of one setting that is not a register (R28). -/
theorem commissionCommit_one {x : SettingItem} (hm : s.sys.mode = .commission) (hs : s.sys.staged = [x]) (hx : x.item ≠ 0x101) :
    commissionCommit true s =
      settle (enterMode (roleMode (settingsStored x s).sys.role) (noteCommissioned (settingsStored x s))) := by
  have hdedup (n : Nat) : [n].dedup = [n] := rfl
  unfold commissionCommit settingsStored outputsOff
  simp [hm, hs, hx, hdedup]

/-- What a commit of one setting leaves of the state with that setting stored. -/
theorem settingsStored_calm (x : SettingItem) {t : State} (ht : storeItem s x = t) :
    Calm (quiet.erase 0x50054) (t.updSys fun y => { y with staged := [] }) (settingsStored x s) := by
  subst ht
  exact outputsOff_calm (setF_calm (by decide) (copyOnWrite_calm (.refl _)))

/-- OUT_TEST and the outputs are as COMMISSION is left. -/
theorem settingsStored_off (x : SettingItem) (s : State) : ∀ n, (outCh n (settingsStored x s)).on = false := outputsOff_off _

theorem settingsStored_testMask {x : SettingItem} (hr : risingFrom 0 (storeItem s x).regs = true) :
    getF (settingsStored x s) Reg.OUT_TEST_MASK = 0 := by
  unfold settingsStored
  refine ((outputsOff_calm (A := quiet) (.refl _)).reads ?_ _ (by decide) (by decide)).trans (getF_setF_same ?_ _ _)
  · exact setF_regs_rising hr _ _
  · exact hr

section
variable (hr : risingFrom 0 s.regs = true)
include hr

theorem noteCommissioned_reads : getB (noteCommissioned s) Reg.SYS_STATUS_UNCOMMISSIONED = !commissioned s := by
  unfold noteCommissioned setB getB
  rw [getF_setF_same hr]
  cases commissioned s <;> rfl

theorem storeItem_rising (x : SettingItem) : risingFrom 0 (storeItem s x).regs = true := by
  by_cases hx : x.item ∈ knownItems
  · rw [storeItem_known hx]; exact hr
  · rw [storeItem_unknown hx, logViolation_regs]; exact setF_regs_rising hr _ _

/-- A known setting is committed: COMMISSION ends with it stored, the test mask and the outputs off (R28, 19 R411). -/
theorem commissionCommit_known {x : SettingItem} (hm : s.sys.mode = .commission) (hs : s.sys.staged = [x])
    (hx : x.item ∈ knownItems) (hreg : x.item ≠ 0x101) :
    Gives (.commissionCommit true) s fun t => t.sys.mode = roleMode s.sys.role ∧ t.sys.staged = [] ∧
      t.sys.settings = settingsWith x s.sys.settings ∧ getF t Reg.OUT_TEST_MASK = 0 ∧ (∀ n, (outCh n t).on = false) ∧
      getB t Reg.SYS_STATUS_UNCOMMISSIONED = !(t.sys.settings.any fun i => i.item == 0x100) := by
  have hstored := settingsStored_calm x (s := s) (storeItem_known hx)
  have hstep := storeItem_rising hr x
  have hrise := hstored.rising (storeItem_known (s := s) hx ▸ hstep)
  have hnoted : Calm (quiet.erase 0x20) (settingsStored x s) (noteCommissioned (settingsStored x s)) :=
    noteCommissioned_calm (by decide) (.refl _)
  have hset : (settingsStored x s).sys.settings = settingsWith x s.sys.settings := hstored.settings
  refine ⟨_, congrArg Host.Outcome.next (commissionCommit_one hm hs hreg), ?_, ?_, ?_, ?_, settleIn_off ?_, ?_⟩
  · exact (settleIn_mode _ _).trans (congrArg roleMode hstored.role)
  · exact (settleIn_staged _ _).trans (hnoted.staged.trans hstored.staged)
  · exact (settleIn_settings _ _).trans (hnoted.settings.trans hset)
  · rw [settleIn_reads (hnoted.rising hrise) (by decide) (by decide), hnoted.reads hrise _ (by decide) (by decide)]
    exact settingsStored_testMask hstep
  · exact hnoted.allOff (settingsStored_off x s)
  · refine Eq.trans ?_ ((noteCommissioned_reads hrise).trans ?_)
    · exact congrArg (fun v => decide (v ≠ 0)) (settleIn_reads (hnoted.rising hrise) (by decide) (by decide))
    · rw [settleIn_settings, hnoted.settings]; rfl

/-- A setting with an unknown ID is skipped and counted (19 R411). -/
theorem commissionCommit_unknown {x : SettingItem} (hm : s.sys.mode = .commission) (hs : s.sys.staged = [x])
    (hx : x.item ∉ knownItems) :
    Gives (.commissionCommit true) s fun t => t.sys.mode = roleMode s.sys.role ∧ t.sys.settings = s.sys.settings ∧
      getF t (Reg.STORE_VIOL_COUNT 1) = satInc 65535 (getF s (Reg.STORE_VIOL_COUNT 1)) := by
  have hstored := settingsStored_calm x (s := s) (storeItem_unknown hx)
  have hstep := storeItem_rising hr x
  have hrise' : risingFrom 0 ((logViolation 13 1 x.item (incF (Reg.STORE_VIOL_COUNT 1) s)).updSys
      fun y => { y with staged := [] }).regs = true := storeItem_unknown (s := s) hx ▸ hstep
  have hrise := hstored.rising hrise'
  have hlogged : Calm quiet (incF (Reg.STORE_VIOL_COUNT 1) s) (logViolation 13 1 x.item (incF (Reg.STORE_VIOL_COUNT 1) s)) :=
    logViolation_calm (.refl _)
  have hnoted : Calm (quiet.erase 0x20) (settingsStored x s) (noteCommissioned (settingsStored x s)) :=
    noteCommissioned_calm (by decide) (.refl _)
  have hreg : x.item ≠ 0x101 := fun e => hx (by rw [e]; decide)
  refine ⟨_, congrArg Host.Outcome.next (commissionCommit_one hm hs hreg), ?_, ?_, ?_⟩
  · exact (settleIn_mode _ _).trans (congrArg roleMode (hstored.role.trans hlogged.role))
  · exact (settleIn_settings _ _).trans (hnoted.settings.trans (hstored.settings.trans hlogged.settings))
  · rw [settleIn_reads (hnoted.rising hrise) (by decide) (by decide), hnoted.reads hrise _ (by decide) (by decide),
      hstored.reads hrise' _ (by decide) (by decide)]
    exact (hlogged.reads (setF_regs_rising hr _ _) _ (by decide) (by decide)).trans (getF_incF_same hr _)

end

end

end Sys2Proof.Machine
end

section
/-! SUPPORT. The records of the ledger: what they leave alone, and the references of 20 R432. -/
namespace Sys2Proof.Machine

/-! ## The records of the ledger leave the footing alone -/

section
variable {a s : State} (h : Calm quiet a s)
include h

theorem ringPut_calm {bytes : List Byte} : Calm quiet a (ringPut bytes s).2 := by
  unfold ringPut
  dsimp only
  exact updLed_calm (.when h fun h => copyOnWrite_calm h)

theorem putRecord_calm {d : RecDraft} : Calm quiet a (putRecord d s).2 := updLed_calm (ringPut_calm h)

theorem recordsLost_calm {lost : Nat} : Calm quiet a (recordsLost lost s) := .ite h (putRecord_calm (setF_calm (by decide) h))

theorem writeNow_calm {d : RecDraft} : Calm quiet a (writeNow d s) := recordsLost_calm (putRecord_calm h)

theorem pickOne_calm {l : List Nat} : Calm quiet a (pickOne l s).2 := freeBelow_calm (n := l.length) h

theorem place_calm {w : WorkKey} : Calm quiet a (place w s).2 := by
  unfold place
  split
  · exact h
  · split
    · exact h
    · dsimp only
      exact modSlot_calm (pickOne_calm h)

theorem firmwareDerives_calm {k : Nat} {label : List Byte} {engine : Nat} {wide : Bool} :
    Calm quiet a (firmwareDerives k label engine wide s).2.2 := by
  have hplace := place_calm h (w := workingKey k label engine wide s)
  unfold firmwareDerives
  split
  · exact h
  · split
    · next e =>
      dsimp only
      exact modSlot_calm (hplace.result e)
    · next e => exact hplace.result e

theorem sealKey_calm : Calm quiet a (sealKey s).2 := by
  have hkey := firmwareDerives_calm h (k := 1) (label := [0x53, 0x45, 0x41, 0x4C]) (engine := engEcc1) (wide := false)
  unfold sealKey
  split
  all_goals
    next e => rwa [e] at hkey

theorem writeSeal_calm : Calm quiet a (writeSeal s) := by
  have hkey := sealKey_calm h
  unfold writeSeal
  split
  · exact setF_calm (by decide) h
  · split
    · next e => exact setF_calm (by decide) (hkey.result e)
    · next e =>
      dsimp only
      exact setF_calm (by decide) (updLed_calm (writeNow_calm (updSys_calm (hkey.result e) rfl)))

theorem writeDraft_calm {d : RecDraft} : Calm quiet a (writeDraft d s) :=
  .ite (updLed_calm h) (.when (writeNow_calm h) writeSeal_calm)

theorem writeRec_calm {type flags : Nat} {body : List Byte} : Calm quiet a (writeRec type flags body s) := writeDraft_calm h

theorem writeEvent_calm {code arg x y z : Nat} : Calm quiet a (writeEvent code arg x y z s) := writeRec_calm h

end

/-! ## They leave the clocks and the registers of the ledger alone -/

/-- The source of the RTC, the wall clock and ledger time, and the registers of the ledger. -/
def State.clock (s : State) : Bool × Nat × Nat × LedRegs := (s.led.x32Sub, s.led.w, s.sys.ltime, s.led.cur)

theorem ringPut_clock (bytes : List Byte) (s : State) : (ringPut bytes s).2.clock = s.clock := by
  unfold ringPut
  dsimp only
  split <;> rfl

theorem putRecord_clock (d : RecDraft) (s : State) : (putRecord d s).2.clock = s.clock := ringPut_clock (d.bytes s.led.seq) s

theorem recordsLost_clock (lost : Nat) (s : State) : (recordsLost lost s).clock = s.clock := by
  unfold recordsLost
  split
  · rfl
  · exact putRecord_clock _ (setF Reg.LED_STATUS_RECORDS_LOST 1 s)

theorem writeNow_clock (d : RecDraft) (s : State) : (writeNow d s).clock = s.clock :=
  (recordsLost_clock _ _).trans (putRecord_clock d s)

theorem modSlot_clock (i : Nat) (f : Slot → Slot) (s : State) : (modSlot i f s).clock = s.clock := by
  unfold modSlot
  split <;> rfl

theorem place_clock (w : WorkKey) (s : State) : (place w s).2.clock = s.clock := by
  unfold place
  split
  · rfl
  · split
    · rfl
    · exact modSlot_clock _ _ _

theorem firmwareDerives_clock (k : Nat) (label : List Byte) (engine : Nat) (wide : Bool) (s : State) :
    (firmwareDerives k label engine wide s).2.2.clock = s.clock := by
  have hplace := place_clock (workingKey k label engine wide s) s
  unfold firmwareDerives
  split
  · rfl
  · split
    · next e => rw [e] at hplace; exact (modSlot_clock _ _ _).trans hplace
    · next e => rwa [e] at hplace

theorem sealKey_clock (s : State) : (sealKey s).2.clock = s.clock := by
  have hkey := firmwareDerives_clock 1 [0x53, 0x45, 0x41, 0x4C] engEcc1 false s
  unfold sealKey
  split
  all_goals
    next e => rwa [e] at hkey

theorem writeSeal_clock (s : State) : (writeSeal s).clock = s.clock := by
  have hkey := sealKey_clock s
  unfold writeSeal
  split
  · rfl
  · split
    · next e => rw [e] at hkey; exact hkey
    · next e =>
      rw [e] at hkey
      refine Eq.trans ?_ hkey
      exact writeNow_clock _ (State.updSys _ _)

theorem writeDraft_clock (d : RecDraft) (s : State) : (writeDraft d s).clock = s.clock := by
  unfold writeDraft
  split
  · rfl
  · dsimp only
    split
    · exact (writeSeal_clock _).trans (writeNow_clock d s)
    · exact writeNow_clock d s

theorem writeEvent_clock (code arg x y z : Nat) (s : State) : (writeEvent code arg x y z s).clock = s.clock := writeDraft_clock _ s

/-! ## The references (20 R432, 11 R219) -/

section
variable {s : State} (hr : risingFrom 0 s.regs = true)

/-- Time is unsure in the registers of a ledger that runs, or in the copies that a restart takes. -/
theorem timeUnsure_on (hon : s.led.on = true) : (led (timeUnsure s)).unsure = true := by
  unfold timeUnsure
  rw [if_pos hon]
  split
  · next hu => exact hu
  · exact congrArg (fun c : Bool × Nat × Nat × LedRegs => c.2.2.2.unsure)
      (writeEvent_clock 0x05 0 s.sys.ltime 0 0 (updCur (fun r => { r with unsure := true }) s))

theorem timeUnsure_off (hon : s.led.on = false) :
    (∀ c, (timeUnsure s).led.snapshot = some c → c.unsure = true) ∧ ∀ c, (timeUnsure s).led.image = some c → c.unsure = true := by
  have hmark (o : Option LedRegs) (c : LedRegs) (h : o.map (fun r => { r with unsure := true }) = some c) : c.unsure = true := by
    obtain ⟨r, -, rfl⟩ := Option.map_eq_some_iff.mp h
    rfl
  unfold timeUnsure
  rw [if_neg (by simp [hon])]
  exact ⟨hmark _, hmark _⟩

theorem timeUnsure_clock : (timeUnsure s).led.x32Sub = s.led.x32Sub ∧ (timeUnsure s).led.w = s.led.w ∧
    (timeUnsure s).sys.ltime = s.sys.ltime := by
  have hclock := writeEvent_clock 0x05 0 s.sys.ltime 0 0 (updCur (fun r => { r with unsure := true }) s)
  simp only [State.clock, Prod.mk.injEq] at hclock
  obtain ⟨hx, hw, hl, -⟩ := hclock
  unfold timeUnsure
  split
  · split
    · exact ⟨rfl, rfl, rfl⟩
    · exact ⟨hx, hw, hl⟩
  · exact ⟨rfl, rfl, rfl⟩

theorem timeUnsure_calm {a : State} (h : Calm quiet a s) : Calm quiet a (timeUnsure s) :=
  .ite (.ite h (writeEvent_calm (updLed_calm h))) (updLed_calm h)

/-- PD0 is on wherever PD7 is (R21). -/
theorem domainOn_zero (h7 : domainOn 7 s = true) : domainOn 0 s = true := by
  unfold domainOn at h7 ⊢
  split at h7 <;> simp_all [standbyDomain]
  all_goals split <;> decide

theorem setX32_led (sub : Bool) (s : State) : (setX32 sub s).led = { s.led with x32Sub := sub } := by
  unfold setX32
  dsimp only
  split <;> rfl

theorem setX32_sys (sub : Bool) (s : State) : (setX32 sub s).sys = s.sys := by
  unfold setX32
  dsimp only
  split <;> rfl

include hr

theorem setX32_rising (sub : Bool) : risingFrom 0 (setX32 sub s).regs = true := by
  unfold setX32
  dsimp only
  split
  · exact setF_regs_rising hr _ _
  · exact hr

theorem setX32_status {sub : Bool} (h7 : domainOn 7 s = true) : getF (setX32 sub s) Reg.PWR_STATUS_X32_FAIL = ofBool sub := by
  have h7' : domainOn 7 (s.updLed fun l => { l with x32Sub := sub }) = true := h7
  unfold setX32
  dsimp only
  rw [if_pos h7']
  refine (getF_setF_same (s := s.updLed _) hr _ _).trans ?_
  cases sub <;> rfl

/-- The crystal runs again. -/
theorem x32Retry_gives (h7 : domainOn 7 s = true) :
    Gives (.x32Retry true) s fun t => getF t Reg.PWR_STATUS_X32_FAIL = 0 ∧ t.led = { s.led with x32Sub := false } :=
  ⟨setX32 false s, congrArg Host.Outcome.next (if_pos (domainOn_zero h7)), setX32_status hr h7, setX32_led false s⟩

/-- The crystal fails: the RTC goes on from its substitute, and ledger time is unsure. -/
theorem x32Fail_gives (h0 : domainOn 0 s = true) : Gives .x32Fail s fun t =>
    (domainOn 7 s = true → getF t Reg.PWR_STATUS_X32_FAIL = 1) ∧ t.led.x32Sub = true ∧
      (s.led.on = true → (led t).unsure = true) ∧
      (s.led.on = false → (∀ c, t.led.snapshot = some c → c.unsure = true) ∧ ∀ c, t.led.image = some c → c.unsure = true) ∧
      t.led.w = s.led.w ∧ t.sys.ltime = s.sys.ltime := by
  have hled := setX32_led true s
  have hon : (setX32 true s).led.on = s.led.on := by rw [hled]
  obtain ⟨hx, hw, hl⟩ := timeUnsure_clock (s := setX32 true s)
  refine ⟨timeUnsure (setX32 true s), congrArg Host.Outcome.next (if_pos h0), fun h7 => ?_, ?_, fun h => ?_, fun h => ?_, ?_, ?_⟩
  · rw [(timeUnsure_calm (.refl _)).reads (setX32_rising hr true) _ (by decide) (by decide), setX32_status hr h7]
    rfl
  · rw [hx, hled]
  · exact timeUnsure_on (hon.trans h)
  · exact timeUnsure_off (hon.trans h)
  · rw [hw, hled]
  · rw [hl, setX32_sys]

end

/-! ## The dies (20 R437) -/

section
variable {s : State} (hr : risingFrom 0 s.regs = true) (h7 : domainOn 7 s = true)
include hr h7

theorem dieHot_gives : Gives (.dieHot false) s fun t => getF t Reg.PWR_STATUS_HOT = 1 ∧
    getF t Reg.PWR_STATUS_HOT_HELD = getF s Reg.PWR_STATUS_HOT_HELD ∧ t.sw = s.sw := by
  refine ⟨logEvent 0 2 0 (setF Reg.PWR_STATUS_HOT 1 s), ?_, ?_, ?_, logEvent_sw _ _ _ _⟩
  · show execDieHot false s = _
    unfold execDieHot
    rw [if_neg (by simp [h7])]
    rfl
  all_goals unfold getF; rw [logEvent_regs]
  · exact getF_setF_same hr _ _
  · exact getF_setF_other hr (by decide) _

/-- At 135 °C the outlet is held (R26). -/
theorem dieHot135_gives : Gives (.dieHot true) s fun t => getF t Reg.PWR_STATUS_HOT = 1 ∧ outletHeld t = true := by
  have hcalm (t : State) : Calm quiet t (settle t) := settle_calm (.refl t)
  have hlog : risingFrom 0 (logEvent 0 2 1 (setF Reg.PWR_STATUS_HOT 1 s)).regs = true := by
    rw [logEvent_regs]; exact setF_regs_rising hr _ _
  have hheld := setF_regs_rising hlog Reg.PWR_STATUS_HOT_HELD 1
  refine ⟨settle (setF Reg.PWR_STATUS_HOT_HELD 1 (logEvent 0 2 1 (setF Reg.PWR_STATUS_HOT 1 s))), ?_, ?_, ?_⟩
  · show execDieHot true s = _
    unfold execDieHot
    rw [if_neg (by simp [h7])]
    rfl
  · rw [(hcalm _).reads hheld _ (by decide) (by decide), getF_setF_other hlog (by decide)]
    unfold getF
    rw [logEvent_regs]
    exact getF_setF_same hr _ _
  · have hbit : getB (settle (setF Reg.PWR_STATUS_HOT_HELD 1 (logEvent 0 2 1 (setF Reg.PWR_STATUS_HOT 1 s))))
        Reg.PWR_STATUS_HOT_HELD = true := by
      unfold getB
      rw [(hcalm _).reads hheld _ (by decide) (by decide), getF_setF_same hlog]
      rfl
    unfold outletHeld
    rw [hbit, Bool.or_true]

theorem dieCool_gives : Gives .dieCool s fun t => getF t Reg.PWR_STATUS_HOT_HELD = 0 := by
  refine ⟨settle (setF Reg.PWR_STATUS_HOT_HELD 0 s), congrArg Host.Outcome.next (if_pos h7), ?_⟩
  exact ((settle_calm (.refl _)).reads (setF_regs_rising hr _ _) _ (by decide) (by decide)).trans (getF_setF_same hr _ _)

end

/-! ## REQ_COMMISSION and STANDBY (R28) -/

section
variable {s : State}

/-- REQ_COMMISSION: the module is in COMMISSION, its outputs off and its pilot in state F (R28). -/
theorem reqCommission_enters (hr : risingFrom 0 s.regs = true) (hp : HostServes Reg.SYS_CTRL_REQ_COMMISSION.addr s)
    (hm : s.sys.mode = roleMode s.sys.role) (hs : sessionActive s = false) (hi : installer s = true) :
    Gives .reqCommission s fun t => Answered 0 t ∧ t.sys.mode = .commission ∧ (∀ n, (outCh n t).on = false) ∧
      t.pilot.line = .minus12 ∧ t.sys.staged = [] ∧ (getF t (Reg.MB_OUT_PEND_PEND 0)).testBit 0 = true := by
  have hne : s.sys.mode ≠ .commission := hm ▸ roleMode_ne_commission _
  have hreq := requestCommission_enters hm hs hi
  have hmode := enterCommission_mode [] s
  have hoff := enterCommission_off [] s
  have hline := enterCommission_line [] s
  have hstaged := enterCommission_staged [] s
  have hrise := enterCommission_rising [] hr
  have hrang := enterCommission_rings [] hr hne
  generalize enterCommission [] s = t at *
  refine reqCommission_gives hp hreq ⟨answer_answered (by decide) hrise, hmode, hoff, hline, hstaged, ?_⟩
  rw [answer, answerAs_other hrise _ _ _ (by decide) (by decide)]
  exact hrang

/-- The state in which the standby core's domain is off and the module is about to enter STANDBY. -/
def standbyReadied (s : State) : State := (clearRegs [standbyDomain s] s).updSys fun y => { y with standbyReady := false }

theorem standbyEntry_gives (hm : s.sys.mode = roleMode s.sys.role) (hrole : s.sys.role ≠ .repeater)
    (hA : getF s Reg.VI_PILOT_STATE = 0xA) (hs : sessionActive s = false) (hd : deliveryPending s = false)
    (hen : getB s Reg.SYS_CTRL_STBY_EN = true) :
    Gives .standbyEntry s fun t => t.sys.mode = .standby ∧ t.sys.standbyReady = false := by
  refine ⟨settle (enterMode .standby (standbyReadied s)), ?_, settleIn_mode _ _, settleIn_standbyReady _ _⟩
  exact congrArg Host.Outcome.next (if_pos ⟨hm, hrole, hen, hA, by simp [hs], by simp [hd]⟩)

/-- STBY_IDLE passes without effect where STANDBY is not allowed. -/
theorem standbyEntry_none (h : s.sys.role = .repeater ∨ sessionActive s = true ∨ deliveryPending s = true ∨
    getF s Reg.VI_PILOT_STATE ≠ 0xA ∨ getB s Reg.SYS_CTRL_STBY_EN = false) : Gives .standbyEntry s fun t => t = s := by
  refine ⟨s, congrArg Host.Outcome.next (if_neg ?_), rfl⟩
  rintro ⟨-, hrole, hen, hA, hs, hd⟩
  rcases h with h | h | h | h | h
  · exact hrole h
  · simp [h] at hs
  · simp [h] at hd
  · exact h hA
  · simp [h] at hen

theorem standbyExit_gives (hr : risingFrom 0 s.regs = true) (hm : s.sys.mode = .standby) :
    Gives .standbyExit s fun t => t.sys.mode = roleMode s.sys.role ∧ t.sys.standbyReady = false ∧
      (getF t (Reg.MB_OUT_PEND_PEND 0)).testBit 0 = true := by
  refine ⟨settle (enterMode (roleMode s.sys.role) (s.updSys fun y => { y with standbyReady := false })), ?_,
    settleIn_mode _ _, settleIn_standbyReady _ _, settleIn_rings hr ?_⟩
  · refine congrArg Host.Outcome.next ((if_pos hm).trans (congrArg settle ?_))
    exact if_pos hm
  · show s.sys.mode ≠ _
    rw [hm]
    exact (roleMode_ne_standby _).symm

end

end Sys2Proof.Machine

open Sys2Proof Sys2Proof.Machine

/-- Settles O54: what follows the entry of a mode is the settling of the energy path, which is `Calm`; so the mode, the settings,
the outputs that are off and the registers of the mode read as they were left before it. -/
theorem modesAndSupervision : Obligations.ModesAndSupervision := by
  intro s hwf
  have hr := regs_rising hwf
  refine ⟨fun hp => ⟨fun hm hs hi _ => ?_, fun hm hs => ?_, fun hm hs hi => ?_, fun hm => ?_, fun hm => ?_⟩,
    fun hm => ⟨fun x hs hreg hx _ => ?_, fun x hs hx => ?_, ?_⟩, fun hm v => ?_, fun hm hrole hA hs hd => ⟨?_, fun hen => ?_⟩,
    fun h => ?_, standbyExit_gives hr, fun hm => ?_, x32Fail_gives hr, fun h0 => ?_, fun h7 => ?_, ?_,
    fun h7 => ⟨dieHot_gives hr h7, dieHot135_gives hr h7, dieCool_gives hr h7⟩, fun h7 h => ⟨?_, ?_⟩⟩
  · exact reqCommission_enters hr hp hm hs hi
  · exact reqCommission_gives hp (requestCommission_session hm hs) rfl
  · exact reqCommission_gives hp (requestCommission_absent hm hs hi) rfl
  · exact reqCommission_gives hp (requestCommission_held hm) rfl
  · exact reqCommission_gives hp (requestCommission_unready hm) rfl
  · obtain ⟨t, ht, hmode, hstaged, hset, hmask, hoff, hnoted⟩ := commissionCommit_known hr hm hs
      (show x.item ∈ knownItems by simp only [knownItems, List.mem_cons, List.not_mem_nil] at hx ⊢; tauto) hreg
    refine ⟨t, ht, hmode, hstaged, ?_, ?_, ?_, hmask, hoff, hnoted⟩
    all_goals rw [hset]
    · exact (mem_settingsWith hreg).mpr (.inr rfl)
    · exact fun y hy he => ((mem_settingsWith hreg).mp hy).resolve_left fun h => h.2 he
    · exact fun y hy hne => (mem_settingsWith hreg).mpr (.inl ⟨hy, hne⟩)
  · exact commissionCommit_unknown hr hm hs hx
  · exact ⟨s, congrArg Host.Outcome.next (if_pos (.inr rfl)), rfl⟩
  · exact ⟨s, congrArg Host.Outcome.next (if_pos (.inl hm)), rfl⟩
  · exact standbyEntry_gives hm hrole hA hs hd
  · exact standbyEntry_none (.inr (.inr (.inr (.inr hen))))
  · exact standbyEntry_none (by tauto)
  · exact ⟨s, congrArg Host.Outcome.next (if_neg hm), rfl⟩
  · exact ⟨s, congrArg Host.Outcome.next (if_neg (by simp [h0])), rfl⟩
  · exact x32Retry_gives hr h7
  · exact ⟨s, rfl, rfl⟩
  · exact ⟨s, congrArg Host.Outcome.next (if_pos (by simp [h7])), rfl⟩
  · exact ⟨s, congrArg Host.Outcome.next (if_neg (by simp [h7])), rfl⟩

end

section
/-! SUPPORT. The steps of a boot that leave the footing alone: the ledger's restart, the forme and its strands, the link, Platen,
the health bits. -/
namespace Sys2Proof.Machine

/-! ## The ledger restarts -/

section
variable {a s : State} (h : Calm quiet a s)
include h

theorem countLostBreak_calm : Calm quiet a (countLostBreak s) :=
  .ite (updSw_calm (countBreak_calm (countBreak_calm h)) rfl) h

theorem updCur_calm {f} : Calm quiet a (updCur f s) := updLed_calm h

theorem scanned_calm {c : Scan} : Calm quiet a (scanned c s) := .when (updCur_calm (updLed_calm h)) boundary_calm

theorem closeInterval_calm {i : Interval} {endTime : Nat} {flags : BitVec 8} : Calm quiet a (closeInterval i endTime flags s) :=
  raiseFw_calm (.when (writeRec_calm (.when h fun h => writeEvent_calm h)) fun h => updCur_calm h)

theorem closeBilling_calm {t : Nat} {g : BillRegs} : Calm quiet a (closeBilling t g s) :=
  writeSeal_calm (updCur_calm (writeRec_calm h))

/-- A calendar that a boundary activates is recorded and announced. -/
theorem activates_calm {o : Option (Nat × Nat)} : Calm quiet a
    (match o with | some x => raiseFw 0x35 0 (writeEvent 0x0B 1 x.1 x.2 0 s) | none => s) := by
  cases o with
  | some x => exact raiseFw_calm (writeEvent_calm h)
  | none => exact h

theorem closeBoundary_calm {b : Boundary} : Calm quiet a (closeBoundary b s) := by
  have hends : Calm quiet a (match b.ends with | some fl => closeInterval (led s).intv b.time fl s | none => s) := by
    split
    · exact closeInterval_calm h
    · exact h
  have hopens {t : State} (ht : Calm quiet a t) :
      Calm quiet a (match b.opens with | some i => updCur (fun r => { r with intv := i }) t | none => t) := by
    split
    · exact updCur_calm ht
    · exact ht
  refine writeRec_calm (.when ?_ fun h => raiseFw_calm (.skip h fun h => setF_calm (by decide) h))
  exact activates_calm (.when (hopens hends) fun h => closeBilling_calm h)

theorem restartOutage_calm {l0 l1 : Nat} : Calm quiet a (restartOutage l0 l1 s) := by
  unfold restartOutage
  dsimp only
  have hbills {t : State} {bs : List Hit} (ht : Calm quiet a t) :
      Calm quiet a (bs.foldl (fun s h => closeBilling h.time (regsNow s) s) t) := .foldl (fun _ _ h => closeBilling_calm h) ht
  split
  · exact hbills (scanned_calm (.ite (updCur_calm (closeInterval_calm h)) (updCur_calm h)))
  · refine writeRec_calm (activates_calm (hbills (scanned_calm ?_)))
    exact .ite (updCur_calm (closeInterval_calm h)) (updCur_calm h)

theorem writeBacklog_calm : Calm quiet a (writeBacklog s) := .ite h (.foldl (fun _ _ h => writeDraft_calm h) (updLed_calm h))

theorem endSession_calm {reason : Nat} {flags : BitVec 8} : Calm quiet a (endSession reason flags s).2 := by
  unfold endSession
  split
  · exact h
  · dsimp only
    exact setF_calm (by decide) (updCur_calm (updLed_calm (writeSeal_calm (writeRec_calm (writeBacklog_calm h)))))

theorem restartSession_calm {r : LedRegs} : Calm quiet a (restartSession r s) := by
  unfold restartSession
  split
  · exact updCur_calm h
  · exact endSession_calm (updCur_calm h)

theorem unsureAfter_calm {lost : Bool} : Calm quiet a (unsureAfter lost s) := .ite (writeEvent_calm (updCur_calm h)) h

theorem restartFrom_calm {r : LedRegs} {gap : Bool} : Calm quiet a (restartFrom r gap s) := by
  refine writeSeal_calm (unsureAfter_calm (restartSession_calm ?_))
  have hrun := restartOutage_calm (l0 := r.ltime) (l1 := restartTime r s)
    (Calm.foldl (l := r.pend) (fun _ b h => closeBoundary_calm (b := { b with kinds := b.kinds ||| 0x10 }) h)
      (updSys_calm (f := fun y => { y with ltime := restartTime r s }) (updCur_calm (f := fun _ => { r with pend := [] }) h) rfl))
  exact .ite (writeEvent_calm hrun) (writeEvent_calm hrun)

theorem renewGasp_calm : Calm quiet a (renewGasp s) :=
  .ite h (updStore_calm (.foldl (fun _ _ h => updDie_calm h) h) fun _ => rfl)

theorem tamperCopy_calm : Calm quiet a (tamperCopy s) := by
  unfold tamperCopy
  dsimp only
  refine updLed_calm (setF_calm (by decide) ?_)
  exact .skip (.foldl (fun _ _ h => writeEvent_calm h) h) fun h => writeEvent_calm h

theorem blockStarts_calm : Calm quiet a (blockStarts s) := boundaries_calm (updLed_calm (updCur_calm h))

theorem ledgerRestore_calm : Calm quiet a (ledgerRestore s) := by
  unfold ledgerRestore
  refine blockStarts_calm (tamperCopy_calm (setF_calm (by decide) (renewGasp_calm (updLed_calm ?_))))
  split
  · exact restartFrom_calm (updLed_calm h)
  · exact restartFrom_calm (updLed_calm h)
  · exact .ite (restartFrom_calm (updLed_calm h)) (unsureAfter_calm (updCur_calm (updSys_calm (updLed_calm h) rfl)))

/-! ## Strands stop, and a forme is loaded -/

theorem updHp_calm {f} : Calm quiet a (s.updHp f) := h.trans { Calm.refl s with }

theorem modS_calm {n : Fin 320} {f : Strand → Strand} (hf : ∀ t, t.galley = none → (f t).galley = none) :
    Calm quiet a (modS n f s) := by
  refine updCap_calm h fun m hm => ?_
  by_cases e : m = n
  · subst e; rw [Cap.strand_modStrand_same]; exact hf _ hm
  · rwa [Cap.strand_modStrand_other e]

theorem updPl_calm {f : Plt → Plt} (hf : (f s.plt).panelOn = s.plt.panelOn) : Calm quiet a (updPl f s) :=
  updPlt_calm h fun hp => hf.trans hp

theorem plRequest_calm {u : Upd} : Calm quiet a (plRequest u s) := updPl_calm h rfl

theorem proofPie_calm {n : Fin 320} : Calm quiet a (proofPie n s) :=
  .foldl (fun _ _ h => .skip h fun h => plRequest_calm h) (updPl_calm h rfl)

theorem discardGalley_calm {n : Fin 320} : Calm quiet a (discardGalley n s) :=
  .ite h (proofPie_calm (modS_calm (updHp_calm h) fun _ _ => rfl))

theorem abandonCalls_calm {n : Fin 320} : Calm quiet a (abandonCalls n s) := by
  unfold abandonCalls
  exact updCap_calm h fun _ hm => hm

theorem keysLetGo_calm {n : Fin 320} : Calm quiet a (keysLetGo n s) :=
  .foldl (fun _ _ h => settleSlot_calm h) (updKey_calm h)

theorem stopStrands_calm : Calm quiet a (stopStrands s) :=
  .foldl (fun _ _ h => keysLetGo_calm (abandonCalls_calm (discardGalley_calm h))) h

omit h in
/-- A strand that becomes READY keeps its galley, and so do the others. -/
theorem Cap.makeReady_galley (hm : Nat) (fresh : Bool) (n m : Fin 320) (c : Cap) :
    ((c.makeReady hm fresh n).strand m).galley = (c.strand m).galley := by
  have hjoin (c : Cap) : (c.join n).strand m = c.strand m := by
    unfold Cap.join
    split <;> rfl
  unfold Cap.makeReady
  rw [hjoin]
  by_cases e : m = n
  · subst e; rw [Cap.strand_modStrand_same]; rfl
  · rw [Cap.strand_modStrand_other e]; rfl

theorem enableStrand_calm {n : Fin 320} : Calm quiet a (enableStrand n s).2 := by
  unfold enableStrand
  dsimp only
  split
  · exact h
  · split
    · exact setF_calm (by decide) h
    · dsimp only
      refine updCap_calm (modS_calm (keysLetGo_calm (abandonCalls_calm h)) ?_) fun m hm => ?_
      · exact fun _ ht => ht
      · rwa [Cap.makeReady_galley]

/-- The strand table is written, with no galley open. -/
theorem putStrands_calm {f : Cap → Cap} (hf : ∀ n, ((f s.cap).strands.get n).galley = none) : Calm quiet a (s.updCap f) :=
  updCap_calm h fun n _ => hf n

theorem loadForme_calm {k : Nat} {f : Forme} : Calm quiet a (loadForme k f s) := by
  have hstopped := stopStrands_calm h
  unfold loadForme
  generalize stopStrands s = t at hstopped
  refine .foldl (fun _ _ h => enableStrand_calm h) (updStore_calm (putStrands_calm hstopped fun n => ?_) fun _ => rfl)
  simp only [Vector.get_ofFn]
  split <;> rfl

theorem bootForme_calm : Calm quiet a (bootForme s) := by
  unfold bootForme
  split
  · exact loadForme_calm h
  · exact setF_calm (by decide) h

/-! ## Held causes, self-test, keys, health -/

theorem assertSaved_calm : Calm quiet a (assertSaved s) := by
  have hhold (bit : Nat) {t : State} (ht : Calm quiet a t) : Calm quiet a (setF Reg.SAFE_STATUS_SEEN
      (getF t Reg.SAFE_STATUS_SEEN ||| 2 ^ bit) (setF Reg.SAFE_STATUS_HELD (held t ||| 2 ^ bit) t)) :=
    setF_calm (by decide) (setF_calm (by decide) ht)
  unfold assertSaved
  dsimp only
  exact .when (.skip h fun h => hhold 7 (updSw_calm h rfl)) fun h => hhold 8 (updSw_calm h rfl)

theorem loadTrims_calm : Calm quiet a (loadTrims s) := updPl_calm h rfl

theorem askTest_calm {plugIn again : Bool} {ask : Option TestAsk} : Calm quiet a (askTest plugIn again ask s) :=
  .when (updSup_calm h) (setF_calm (by decide))

theorem deriveRoot_calm : Calm quiet a (deriveRoot s) := firmwareDerives_calm (firmwareDerives_calm (updKey_calm h))

theorem placeLinkKey_calm : Calm quiet a (placeLinkKey s) := by
  unfold placeLinkKey
  split
  · exact h
  · exact updLink_calm (firmwareDerives_calm h)

theorem healthCheck_calm : Calm quiet a (healthCheck s) :=
  wornCheck_calm (.when (.when (.when (.when (.when h (setHealth_calm · (by decide))) (setHealth_calm · (by decide)))
    (setHealth_calm · (by decide))) (setHealth_calm · (by decide))) (setHealth_calm · (by decide)))

/-! ## Platen and the link start -/

theorem recoverAll_calm {ks : List Nat} : Calm quiet a (recoverAll ks s) := .foldl (fun _ _ h => plRequest_calm h) h

theorem platenStart_calm : Calm quiet a (platenStart s) :=
  .foldl (fun _ _ h => updPl_calm h rfl) (recoverAll_calm (updPl_calm h rfl))

theorem allocate_calm {v : Nat} : Calm quiet a (allocate v s) := by
  have halloc := updPilot_calm (f := fun p => { p with alloc := v }) (boundaries_calm
    (fs := [Reg.SAFE_OC_CFG_OC_T, Reg.SAFE_OC_CFG_OC_GRACE, Reg.SAFE_OC_CFG_OC_ADD, Reg.SAFE_OC_CFG_OC_PCT]) h) rfl
  exact settle_calm (.ite (updSup_calm halloc) (.ite (updSup_calm halloc) halloc))

theorem lowerToGrant_calm : Calm quiet a (lowerToGrant s) := .ite (fence_calm (allocate_calm h)) h

theorem finishCall_calm {id : Nat} {word : Word} {rets : List Word} : Calm quiet a (finishCall id word rets s) := by
  unfold finishCall
  exact updCap_calm h fun _ hm => hm

theorem finishCode_calm {id code : Nat} {rets : List Word} : Calm quiet a (finishCode id code rets s) := finishCall_calm h

theorem finishReq_calm {r : SiteReq} {code : Nat} {rets : List Word} : Calm quiet a (finishReq r code rets s) := by
  unfold finishReq
  split
  · exact finishCode_calm h
  · exact h

theorem finishAlloc_calm {call : Option Nat} {word : Word} : Calm quiet a (finishAlloc call word s) := by
  unfold finishAlloc
  split
  · exact finishCall_calm h
  · exact h

theorem loseRequests_calm : Calm quiet a (loseRequests s) := by
  unfold loseRequests
  refine .foldl (fun t i ht => ?_) (.foldl (fun t r ht => ?_) (updLink_calm h))
  · split
    · exact finishCode_calm ht
    · exact ht
  · split
    · exact finishAlloc_calm ht
    · exact finishReq_calm ht
    · exact finishReq_calm ht

theorem enterFallback_calm : Calm quiet a (enterFallback s) :=
  lowerToGrant_calm (ringOther_calm (by decide) (raiseFw_calm (loseRequests_calm (updLink_calm h))))

theorem modNode_calm {c : Nat} {f : Node → Node} : Calm quiet a (modNode c f s) := by
  unfold modNode
  split
  · exact updLink_calm h
  · exact h

theorem chooseLead_calm {c : Nat} : Calm quiet a (chooseLead c s) := by
  unfold chooseLead
  dsimp only
  split
  · exact h
  · exact .ite (modNode_calm h) h

theorem publish_calm {kind : Nat} {bytes : List Byte} {members : List Nat} {front : Bool} :
    Calm quiet a (publish kind bytes members front s) := .ite h (updLink_calm h)

theorem publishNotice_calm : Calm quiet a (publishNotice s) := .ite h (updLink_calm (publish_calm h))

theorem transmit_calm {f : TxFrame} : Calm quiet a (transmit f s) := updLink_calm (boundary_calm h)

theorem mendLeads_calm : Calm quiet a (mendLeads s) := .foldl (fun _ _ h => .ite (chooseLead_calm h) h) h

theorem dropLinkSlot_calm : Calm quiet a (dropLinkSlot s) := by
  unfold dropLinkSlot
  split
  · exact firmwareLetsGo_calm (updLink_calm h)
  · exact h

theorem takeLinkSlot_calm {c : Nat} : Calm quiet a (takeLinkSlot c s) := by
  have hplace := place_calm (w := linkWork c s) (dropLinkSlot_calm h)
  unfold takeLinkSlot
  split
  · next e => exact updLink_calm (modSlot_calm (hplace.result e))
  · next e => exact hplace.result e

theorem sendPoll_calm {retry : Bool} : Calm quiet a (sendPoll retry s) := by
  unfold sendPoll
  split
  · exact updLink_calm (dropLinkSlot_calm h)
  · exact transmit_calm (updLink_calm (.skip h fun h => takeLinkSlot_calm (mendLeads_calm h)))

theorem roundStart_calm : Calm quiet a (roundStart s) := by
  refine sendPoll_calm (publishNotice_calm (.when (.foldl (fun _ _ h => chooseLead_calm h) (updAlloc_calm ?_))
    (setHealth_calm · (by decide))))
  exact setF_calm (by decide) (updLink_calm (boundary_calm h))

theorem linkStart_calm : Calm quiet a (linkStart s) := by
  unfold linkStart
  split
  · exact .ite (updLink_calm (enterFallback_calm h)) h
  · exact .ite (updLink_calm h) h
  · exact roundStart_calm h
  · exact h

end

end Sys2Proof.Machine
end

section
/-! SUPPORT. A boot restores its configuration: what the writes of its registers leave alone. -/
namespace Sys2Proof.Machine

/-! ## The relation of a boot -/

/-- No coil is on and no output, no galley is open and the panel has no power. -/
structure Idle (s : State) : Prop where
  k1 : s.sw.k1 = false
  k2 : s.sw.k2 = false
  outs : ∀ n, (outCh n s).on = false
  galleys : ∀ n, (getS s n).galley = none
  panel : s.plt.panelOn = false

/-- The registers that a whole boot leaves alone: PWR_STATUS and AO_PRES_STAT. -/
def booting : List Nat := [0xAC, 0xE0028]

/-- What `Calm` keeps, but that the configuration may name coils: an idle module stays idle. -/
structure Booting (s t : State) : Prop where
  footing : t.sys.footing = s.sys.footing
  images : t.store.images = s.store.images
  lock : t.pilot.lock = s.pilot.lock
  commPend : t.tag.commPend = s.tag.commPend
  idle : Idle s → Idle t
  rising : risingFrom 0 s.regs = true → risingFrom 0 t.regs = true
  reads : risingFrom 0 s.regs = true → ∀ f : Field, f.addr ∈ booting → f.lo < 32 → getF t f = getF s f

theorem Calm.idle {A : List Nat} {s t : State} (h : Calm A s t) (hs : Idle s) : Idle t :=
  ⟨h.k1 hs.k1, h.k2 hs.k2, h.allOff hs.outs, fun n => h.galleys n (hs.galleys n), h.panel hs.panel⟩

namespace Booting
variable {s t u : State}

theorem of_calm {A : List Nat} (h : Calm A s t) (hA : ∀ a ∈ booting, a ∈ A) : Booting s t :=
  ⟨h.footing, h.images, h.lock, h.commPend, h.idle, h.rising, fun hr f hf hl => h.reads hr f (hA _ hf) hl⟩

theorem refl (s : State) : Booting s s := of_calm (A := booting) (.refl s) fun _ => id

theorem trans (h : Booting s t) (k : Booting t u) : Booting s u where
  footing := k.footing.trans h.footing
  images := k.images.trans h.images
  lock := k.lock.trans h.lock
  commPend := k.commPend.trans h.commPend
  idle := k.idle ∘ h.idle
  rising := k.rising ∘ h.rising
  reads hr f hf hl := (k.reads (h.rising hr) f hf hl).trans (h.reads hr f hf hl)

/-- A step of the energy path, or of anything else that is calm. -/
theorem calm (h : Booting s t) (k : Calm quiet t u) : Booting s u := h.trans (of_calm k (by decide))

theorem mode (h : Booting s t) : t.sys.mode = s.sys.mode := congrArg Footing.mode h.footing

end Booting

/-! ## The fields of the configuration's registers -/

/-- A field of the regions 4 to 12. -/
def Field.inBlocks (f : Field) : Bool := decide (0x40000 ≤ f.addr) && decide (f.addr < 0xD0000) && decide (f.lo < 32)

theorem Field.inBlocks_apart {f : Field} (h : f.inBlocks = true) : f.apart booting = true := by
  simp only [Field.inBlocks, Bool.and_eq_true, decide_eq_true_eq] at h
  obtain ⟨⟨hlow, hhigh⟩, hlo⟩ := h
  simp only [Field.apart, booting, Bool.and_eq_true, decide_eq_true_eq, Bool.not_eq_true', List.contains_eq_mem,
    decide_eq_false_iff_not, List.mem_cons, List.not_mem_nil, or_false, bne_iff_ne]
  omega

/-- The rows of the register table of regions 4 to 12. -/
def blockRows : List RegRow := regsSafe ++ regsSw ++ regsMet ++ regsLed ++ regsLink ++ regsVi ++ regsRd ++ regsKey ++ regsPl

/-- All fields of the first registers of a row lie in regions 4 to 12. -/
def RegRow.inBlocks (r : RegRow) : Bool :=
  (List.range (r.first + r.count)).all fun k => (r.fields k).all fun x => x.field.inBlocks

theorem blockRows_inBlocks : blockRows.all RegRow.inBlocks = true := by decide +kernel

theorem regionRegs_blockRows {addr : Nat} (hlow : 0x40000 ≤ addr) (hhigh : addr < 0xD0000) {r : RegRow}
    (hr : r ∈ regionRegs addr) : r ∈ blockRows := by
  have hpage : 4 ≤ addr / 0x10000 ∧ addr / 0x10000 ≤ 12 := by omega
  simp only [blockRows, List.mem_append]
  unfold regionRegs at hr
  generalize addr / 0x10000 = p at *
  obtain ⟨h4, h12⟩ := hpage
  interval_cases p <;> simp_all

/-- A register of regions 4 to 12 has its fields there. -/
theorem regAt_inBlocks {addr k : Nat} {xs : List RegField} (hlow : 0x40000 ≤ addr) (hhigh : addr < 0xD0000)
    (h : regAt addr = some (k, xs)) : ∀ x ∈ xs, x.field.inBlocks = true := by
  simp only [regAt, findReg, Option.map_eq_some_iff, Prod.mk.injEq, Prod.exists] at h
  obtain ⟨j, ys, hfind, rfl, rfl⟩ := h
  obtain ⟨r, hr, hnum⟩ := List.exists_of_findSome?_eq_some hfind
  simp only [Option.map_eq_some_iff, Prod.mk.injEq] at hnum
  obtain ⟨i, hi, rfl, rfl⟩ := hnum
  have hlt : i < r.first + r.count := by
    unfold RegRow.numberOf at hi
    dsimp only at hi
    split at hi
    · next hin => obtain ⟨-, -, hlt, -⟩ := hin; cases hi; exact hlt
    · nomatch hi
  have hrow := List.all_eq_true.mp blockRows_inBlocks r (regionRegs_blockRows hlow hhigh hr)
  have hfields := List.all_eq_true.mp (List.all_eq_true.mp hrow i (List.mem_range.mpr hlt))
  intro x hx
  obtain ⟨y, hy, rfl⟩ := List.mem_map.mp hx
  have hsame : (RegField.actual i y).field = y.field := by
    unfold RegField.actual
    split
    · rfl
    · split
      · rfl
      · split <;> rfl
  rw [hsame]
  exact hfields y hy

/-- OUT_TEST takes no write outside COMMISSION (08, OUT_TEST). -/
theorem restoreRegister_outTest {w : Nat} {s : State} (hm : s.sys.mode ≠ .commission) :
    restoreRegister Reg.OUT_TEST_MASK.addr w s = s := by
  have hnum : (regAt Reg.OUT_TEST_MASK.addr).map Prod.fst = some 0 := by decide +kernel
  have href : (regRefuses Reg.OUT_TEST_MASK.addr 0 w s).isSome = true := by
    simp [regRefuses, Reg.OUT_TEST_MASK, Reg.CAP_BP_CTL_EN, Reg.CONT_CFG_EN, hm]
  unfold restoreRegister
  split
  · rfl
  · next k xs e =>
    rw [e] at hnum
    cases hnum
    simp [href]

/-! ## The writes of the configuration -/

section
variable {a s : State}

theorem setF_booting {f : Field} {v : Nat} (hf : f.apart booting = true) (h : Booting a s) : Booting a (setF f v s) :=
  h.trans (.of_calm (setF_calm hf (.refl s)) fun _ => id)

/-- A field of regions 4 to 12 takes what is written. -/
theorem RegField.write_booting {k w : Nat} {x : RegField} (hx : x.field.inBlocks = true) (h : Booting a s) :
    Booting a (RegField.write k w s x) := by
  have hapart := Field.inBlocks_apart hx
  have hput (v : Nat) : Booting a (putField k x.field v s) := by
    have hpage : ¬(x.field.addr / 0x10000 = 3 ∧ 0x31000 ≤ x.field.addr) := by
      simp only [Field.inBlocks, Bool.and_eq_true, decide_eq_true_eq] at hx
      omega
    unfold putField
    rw [if_neg hpage]
    exact setF_booting hapart h
  unfold RegField.write
  split
  · exact h
  · exact h
  · exact setF_booting hapart h
  · exact hput _

theorem writeAll_booting {k w : Nat} {xs : List RegField} (hxs : ∀ x ∈ xs, x.field.inBlocks = true) (h : Booting a s) :
    Booting a (xs.foldl (RegField.write k w) s) := by
  induction xs generalizing s with
  | nil => exact h
  | cons x xs ih =>
    exact ih (fun y hy => hxs y (.tail _ hy)) (RegField.write_booting (hxs x (.head _)) h)

theorem hostFence_calm {addr k : Nat} {was : State} (h : Calm quiet a s) : Calm quiet a (hostFence addr k was s) :=
  .ite (.ite (fence_calm h) h) (.ite (.foldl (fun _ _ h => .ite (fence_calm h) h) h) h)

theorem putWear_calm {k v : Nat} (h : Calm quiet a s) : Calm quiet a (putWear k v s) :=
  wornCheck_calm (logEvent_calm (updSw_calm h (by split <;> rfl)))

theorem lowerToCeiling_calm (h : Calm quiet a s) : Calm quiet a (lowerToCeiling s) := .ite (fence_calm (allocate_calm h)) h

/-- With all outputs off no coil is on by its new name (08 R147). -/
theorem nameCoils_off (hoff : ∀ n, (outCh n s).on = false) : nameCoils s = s := by
  have hon (n : Nat) : (s.sw.outs.toList.map (·.on)).getD n false = false := by
    by_cases hn : n < 12
    · have := hoff ⟨n, hn⟩
      simpa [outCh, Vector.get_eq_getElem, List.getD_eq_getElem?_getD, hn] using this
    · simp [List.getD_eq_getElem?_getD, hn]
  unfold nameCoils
  simp only [hon, Bool.and_false, Bool.or_false]
  rfl

/-- Naming the coils switches coils on, where an output is on. -/
theorem nameCoils_booting (h : Booting a s) : Booting a (nameCoils s) := by
  have hstep : nameCoils s = s ∨ ∃ f, nameCoils s = s.updSw f := by
    unfold nameCoils
    dsimp only
    split
    · exact .inr ⟨_, rfl⟩
    · exact .inl rfl
  have hidle (hi : Idle s) : Idle (nameCoils s) := by rw [nameCoils_off hi.outs]; exact hi
  rcases hstep with e | ⟨f, e⟩
  · rw [e]; exact h
  · rw [e] at hidle ⊢
    exact h.trans { Booting.refl s with idle := hidle }

/-- What a write of the configuration does beside, but for OUT_TEST. -/
theorem afterWrite_booting {addr k w : Nat} (ht : addr ≠ Reg.OUT_TEST_MASK.addr) (h : Booting a s) :
    Booting a (afterWrite addr k w s) := by
  have hcalm {t : State} (ht : Calm quiet s t) : Booting a t := h.calm ht
  have hs : Calm quiet s s := .refl s
  unfold afterWrite
  split
  · exact hcalm (lowerToCeiling_calm hs)
  split
  · exact hcalm (putWear_calm hs)
  split
  · exact hcalm (wornCheck_calm hs)
  split
  · exact nameCoils_booting h
  split
  · exact hcalm (setF_calm (by decide) hs)
  split
  · exact hcalm (updAlloc_calm hs)
  split
  · exact hcalm (lowerToGrant_calm hs)
  split
  · exact hcalm (loadTrims_calm hs)
  split
  · exact hcalm (updTag_calm hs rfl)
  · exact h

theorem writeFields_booting {addr k w : Nat} {xs : List RegField} (ht : addr ≠ Reg.OUT_TEST_MASK.addr)
    (hxs : ∀ x ∈ xs, x.field.inBlocks = true) (h : Booting a s) : Booting a (writeFields addr k w xs s) :=
  (afterWrite_booting ht ((writeAll_booting hxs h).calm (hostFence_calm (.refl _)))).calm (settle_calm (.refl _))

/-- An item of the configuration is restored outside COMMISSION. -/
theorem restoreRegister_booting {addr w : Nat} (hlow : 0x40000 ≤ addr) (hhigh : addr < 0xD0000) (hm : s.sys.mode ≠ .commission)
    (h : Booting a s) : Booting a (restoreRegister addr w s) := by
  by_cases ht : addr = Reg.OUT_TEST_MASK.addr
  · rw [ht, restoreRegister_outTest hm]; exact h
  · unfold restoreRegister
    split
    · exact h
    · next k xs e =>
      dsimp only
      split
      · exact h
      · have hxs := regAt_inBlocks hlow hhigh e
        exact writeFields_booting ht (fun x hx => hxs x (List.mem_of_mem_filter hx)) h

/-- The configuration is restored outside COMMISSION. -/
theorem restoreItems_booting {p : Nat → Bool} (hm : s.sys.mode ≠ .commission) : Booting s (restoreItems p s) := by
  have hfold (items : List SettingItem) {t : State} (h : Booting s t) :
      Booting s (items.foldl (fun s i =>
        let a := fieldOf i.value 0 4
        if p a && 0x40000 ≤ a && a < 0xD0000 && a % 4 == 0 then restoreRegister a (fieldOf i.value 4 4) s else s) t) := by
    induction items generalizing t with
    | nil => exact h
    | cons i items ih =>
      refine ih ?_
      dsimp only
      split
      · next hc =>
        simp only [Bool.and_eq_true, decide_eq_true_eq] at hc
        obtain ⟨⟨⟨-, hlow⟩, hhigh⟩, -⟩ := hc
        exact restoreRegister_booting hlow hhigh (h.mode ▸ hm) h
      · exact h
  exact hfold _ (.refl s)

end

end Sys2Proof.Machine
end

section
/-! SUPPORT. What a reset clears and keeps, and which slot boots. -/
namespace Sys2Proof.Machine

/-! ## The registers that a reset keeps -/

theorem mapGet?_filter {α : Type} {p : Nat × α → Bool} {k lo : Nat} (hp : ∀ v, p (k, v) = true) :
    ∀ {m : NMap α}, risingFrom lo m = true → mapGet? (m.filter p) k = mapGet? m k := by
  intro m
  induction m generalizing lo with
  | nil => intro _; rfl
  | cons e m ih =>
    obtain ⟨j, v⟩ := e
    intro hm
    simp only [risingFrom, Bool.and_eq_true, decide_eq_true_eq] at hm
    have hrest := ih hm.2
    rw [List.filter_cons]
    by_cases hkj : k = j
    · subst hkj; simp [hp, mapGet?]
    · split
      · simp only [mapGet?, hkj, hrest]
      · rw [hrest]
        simp only [mapGet?, hkj, if_false]
        split
        · exact mapGet?_of_lt (by omega) hm.2
        · rfl

/-- A register outside the domains `ds` reads what it read. -/
theorem getF_clearRegs {ds : List Nat} {s : State} (hr : risingFrom 0 s.regs = true) {f : Field} (hl : f.lo < 32)
    (hd : domainOf f.addr ∉ ds) : getF (clearRegs ds s) f = getF s f := by
  have haddr : f.key / 32 = f.addr := by unfold Field.key; omega
  exact congrArg (fun o => Option.getD o f.reset) (mapGet?_filter (fun v => by simp [haddr, hd]) hr)

theorem clearRegs_calm {A : List Nat} {ds : List Nat} {a s : State} (hA : ∀ x ∈ 0x10008 :: A, domainOf x ∉ ds)
    (h : Calm A a s) : Calm A a (clearRegs ds s) :=
  h.trans { Calm.refl (A := A) s with
    rising := risingFrom_filter _
    reads := fun hr _ hf hl => getF_clearRegs hr hl (hA _ (.tail _ hf))
    rings := fun hr _ _ hj => by rwa [getF_clearRegs hr (by decide) (hA _ (.head _))] }

/-! ## A reset -/

/-- The registers of a reset: the domains cleared, SYS_HEALTH and PWR_STATUS as they are after it. -/
def clearedRegs (powerOn : Bool) (s : State) : State :=
  (((List.range 8).filter fun b => !powerOn && getB s ⟨0x80, b, 1, 0⟩).foldl (fun s b => setF ⟨0x80, b, 1, 0⟩ 1 s)
    (clearRegs (if powerOn then [1, 2, 3, 4, 5, 6, 7] else [2, 3, 4, 5, 6, 7]) s))
    |> fun s => setB Reg.PWR_STATUS_X32_FAIL s.led.x32Sub (setB Reg.PWR_STATUS_XTAL_FAIL s.sys.refHeld s)

section
variable (powerOn : Bool) (s : State)

/-- AO_PRES_STAT and the doorbells of mailbox 0 stand in PD0, which no reset clears. -/
theorem clearedRegs_calm : Calm [0xE0028] s (clearedRegs powerOn s) := by
  unfold clearedRegs
  refine setB_calm (by decide) (setB_calm (by decide) ?_)
  have hclear : Calm [0xE0028] s (clearRegs (if powerOn then [1, 2, 3, 4, 5, 6, 7] else [2, 3, 4, 5, 6, 7]) s) :=
    clearRegs_calm (by cases powerOn <;> decide) (.refl s)
  have hbits (bs : List Nat) (hbs : ∀ b ∈ bs, b < 32) {t : State} (h : Calm [0xE0028] s t) :
      Calm [0xE0028] s (bs.foldl (fun s b => setF ⟨0x80, b, 1, 0⟩ 1 s) t) := by
    induction bs generalizing t with
    | nil => exact h
    | cons b bs ih =>
      have hb := hbs b (.head _)
      exact ih (fun c hc => hbs c (.tail _ hc)) (setF_calm (by simp [Field.apart, hb]) h)
  refine hbits _ (fun b hb => ?_) hclear
  have := List.mem_range.mp (List.mem_of_mem_filter hb)
  omega

theorem clearPower_sys : (clearPower powerOn s).sys = (clearedRegs powerOn s).sys.afterReset := rfl

theorem clearPower_pilot : (clearPower powerOn s).pilot = { bolt := (clearedRegs powerOn s).pilot.bolt } := rfl

theorem clearPower_store : (clearPower powerOn s).store =
    (clearedRegs powerOn s).store.afterReset (clearedRegs powerOn s).sys.coreRetired := rfl

/-- After a reset nothing is on. -/
theorem clearPower_idle : Idle (clearPower powerOn s) where
  k1 := rfl
  k2 := rfl
  outs n := congrArg OutCh.on (Vector.get_replicate 12 ({} : OutCh) n)
  galleys n := congrArg Strand.galley (Vector.get_replicate 320 Strand.reset n)
  panel := rfl

/-- The footing after a reset. -/
def Footing.afterReset (y : Footing) : Footing :=
  { y with booted := false, pfwConfirmed := false, staged := [], standbyReady := false }

theorem Sys.afterReset_footing (y : Sys) : y.afterReset.footing = y.footing.afterReset := rfl

theorem clearPower_footing : (clearPower powerOn s).sys.footing = s.sys.footing.afterReset := by
  rw [clearPower_sys, Sys.afterReset_footing, (clearedRegs_calm powerOn s).footing]

theorem clearPower_lock : (clearPower powerOn s).pilot.lock = (s.pilot.bolt, none) := by
  have h := congrArg Prod.fst (clearedRegs_calm powerOn s).lock
  rw [clearPower_pilot]
  exact congrArg (·, none) h

section
variable {powerOn s}

theorem clearPower_rising (hr : risingFrom 0 s.regs = true) : risingFrom 0 (clearPower powerOn s).regs = true :=
  (clearedRegs_calm powerOn s).rising hr

/-- The presence windows are PD0's. -/
theorem clearPower_presence (hr : risingFrom 0 s.regs = true) {f : Field} (ha : f.addr = 0xE0028) (hl : f.lo < 32) :
    getF (clearPower powerOn s) f = getF s f :=
  (clearedRegs_calm powerOn s).reads hr f (by simp [ha]) hl

end

/-! ## The images after a reset -/

/-- A slot after a reset: an activation under way waits again. -/
def FwSlot.afterReset (x : FwSlot) : FwSlot := if x.state = .trying then { x with state := .staged } else x

/-- The images after a reset. -/
def Images.afterReset (m : Images) : Images := { m with slots := m.slots.map FwSlot.afterReset }

theorem Store.afterReset_images (retired : Bool) (t : Store) : (t.afterReset retired).images = t.images.afterReset := rfl

theorem clearPower_images : (clearPower powerOn s).store.images = s.store.images.afterReset := by
  rw [clearPower_store, Store.afterReset_images, (clearedRegs_calm powerOn s).images]

end

/-! ## The slot that boots -/

section
variable {s t : State}

theorem runs_congr (h : t.store.images = s.store.images) : t.store.runs = s.store.runs := congrArg Images.runs h

theorem fwSlot_congr (h : t.store.images = s.store.images) (k : Nat) : fwSlot k t = fwSlot k s :=
  congrArg (fun m => m.slots.get (Fin.ofNat 2 k)) h

/-- What an image says of itself. -/
def FwSlot.claims (x : FwSlot) : Bool × List Nat × List Nat × Nat × Option Nat :=
  (x.sound, x.fmts, x.oldest, x.legalMin, x.legal)

/-- The boot check asks what an image says and what is stored, not the slot's state (R412). -/
theorem bootCheck_congr {k : Nat} (hclaims : (fwSlot k t).claims = (fwSlot k s).claims)
    (hformats : t.store.formats = s.store.formats) (hver : t.store.legalVer = s.store.legalVer) : bootCheck k t = bootCheck k s := by
  simp only [FwSlot.claims, Prod.mk.injEq] at hclaims
  obtain ⟨hsound, hfmts, holdest, hmin, hlegal⟩ := hclaims
  unfold bootCheck formatsOk needsLegal
  dsimp only
  rw [hsound, hfmts, holdest, hmin, hlegal, hformats, hver]

theorem bootCheck_images (h : t.store.images = s.store.images) (k : Nat) : bootCheck k t = bootCheck k s :=
  bootCheck_congr (congrArg FwSlot.claims (fwSlot_congr h k)) (congrArg Images.formats h) (congrArg Images.legalVer h)

theorem FwSlot.afterReset_claims (x : FwSlot) : x.afterReset.claims = x.claims := by
  unfold FwSlot.afterReset
  split <;> rfl

theorem FwSlot.afterReset_of_ne {x : FwSlot} (h : x.state ≠ .trying) : x.afterReset = x := if_neg h

theorem fwSlot_clearPower (powerOn : Bool) (k : Nat) (s : State) : fwSlot k (clearPower powerOn s) = (fwSlot k s).afterReset := by
  have hslots : (clearPower powerOn s).store.slots = s.store.slots.map FwSlot.afterReset :=
    congrArg Images.slots (clearPower_images powerOn s)
  unfold fwSlot
  rw [hslots]
  exact Vector.getElem_map ..

theorem bootCheck_clearPower (powerOn : Bool) (k : Nat) (s : State) : bootCheck k (clearPower powerOn s) = bootCheck k s := by
  have himages := clearPower_images powerOn s
  refine bootCheck_congr ?_ (congrArg Images.formats himages) (congrArg Images.legalVer himages)
  rw [fwSlot_clearPower, FwSlot.afterReset_claims]

theorem bootCheck_modFw {f : FwSlot → FwSlot} (hf : ∀ x, (f x).claims = x.claims) (j k : Nat) (s : State) :
    bootCheck j (modFw k f s) = bootCheck j s := by
  refine bootCheck_congr ?_ rfl rfl
  unfold fwSlot modFw
  by_cases e : Fin.ofNat 2 j = Fin.ofNat 2 k
  · rw [e]; exact (congrArg FwSlot.claims (vector_get_set_same _ _ _)).trans (hf _)
  · exact congrArg FwSlot.claims (vector_get_set_other _ e _)

/-- No image is sound. -/
def NoneSound (s : State) : Prop := ∀ j < 2, bootCheck j s = false

/-- With no sound image no slot boots, and only the store has changed. -/
theorem firstSound_none (hnone : NoneSound s) {ks : List Nat} (hks : ∀ k ∈ ks, k < 2) :
    ∃ c, firstSound ks s = (none, s.updStore fun _ => c) ∧ NoneSound (s.updStore fun _ => c) := by
  induction ks generalizing s with
  | nil => exact ⟨s.store, rfl, hnone⟩
  | cons k ks ih =>
    have hnext : NoneSound (modFw k (fun x => { x with state := .rejected, result := imageRejected }) s) := fun j hj =>
      (bootCheck_modFw (f := fun x => { x with state := .rejected, result := imageRejected }) (fun _ => rfl) j k s).trans
        (hnone j hj)
    obtain ⟨c, hrest, hstill⟩ := ih hnext fun j hj => hks j (.tail _ hj)
    refine ⟨c, ?_, hstill⟩
    unfold firstSound
    rw [if_neg (by simp [hnone k (hks k (.head _))])]
    exact hrest

theorem bootOrder_lt (hruns : s.store.runs < 2) : ∀ k ∈ bootOrder s, k < 2 := by
  intro k hk
  simp only [bootOrder, List.mem_append] at hk
  rcases hk with hk | hk
  · split at hk
    · rw [List.mem_singleton.mp hk]; exact hruns
    · nomatch hk
  · split at hk
    · rw [List.mem_singleton.mp hk]; omega
    · nomatch hk

theorem bootSlot_none (hruns : s.store.runs < 2) (hnone : NoneSound s) : ∃ c, bootSlot s = (none, s.updStore fun _ => c) := by
  obtain ⟨c, hfirst, hstill⟩ := firstSound_none hnone (bootOrder_lt hruns)
  have hstaged : ∀ k ∈ (List.range 2).filter fun k => (fwSlot k (s.updStore fun _ => c)).state == .staged, k < 2 :=
    fun k hk => List.mem_range.mp (List.mem_of_mem_filter hk)
  obtain ⟨d, hsecond, -⟩ := firstSound_none hstill hstaged
  refine ⟨d, ?_⟩
  unfold bootSlot
  rw [hfirst]
  exact hsecond

theorem bootSlot_active (hactive : (fwSlot s.store.runs s).state = .active) (hsound : bootCheck s.store.runs s = true) :
    bootSlot s = (some s.store.runs, s) := by
  simp [bootSlot, bootOrder, hactive, firstSound, hsound]

/-- Beside a REJECTED image, a STAGED one boots (19 R417). -/
theorem bootSlot_staged (hruns : s.store.runs < 2) (hrejected : (fwSlot s.store.runs s).state = .rejected)
    (hstaged : (fwSlot (1 - s.store.runs) s).state = .staged) (hsound : bootCheck (1 - s.store.runs) s = true) :
    bootSlot s = (some (1 - s.store.runs), s) := by
  have hfilter : (List.range 2).filter (fun k => (fwSlot k s).state == .staged) = [1 - s.store.runs] := by
    generalize s.store.runs = k at *
    interval_cases k
    · simp_all [List.range_succ]
    · simp_all [List.range_succ]
  simp [bootSlot, bootOrder, hrejected, hstaged, firstSound, hfilter, hsound]

end

end Sys2Proof.Machine
end

section
/-! SUPPORT. What the power-up sequence ends in: the role mode, FACTORY or INERT. -/
namespace Sys2Proof.Machine

/-! ## Boot steps 5 to 14 -/

/-- The module with the firmware of slot `k` up to boot step 14. -/
def firmwareUp (k : Nat) (s : State) : State :=
  s |> bootImage k |> countLostBreak |> ledgerRestore |> bootForme |> restoreItems (fun _ => true) |> noteCommissioned
    |> assertSaved |> loadTrims |> askTest false false none |> deriveRoot |> placeLinkKey |> healthCheck

/-- The firmware runs. -/
def started (s : State) : State := s.updSys fun y => { y with booted := true }

theorem bootFirmware_done {k : Nat} {s : State} (h : (firmwareUp k s).sys.factoryDone = true) :
    bootFirmware k s = ready (started (firmwareUp k s)) := if_pos h

theorem bootFirmware_factory {k : Nat} {s : State} (h : (firmwareUp k s).sys.factoryDone = false)
    (hm : metrologist (firmwareUp k s) = true) :
    bootFirmware k s = linkStart (enterMode .factory (started (firmwareUp k s))) :=
  (if_neg (Bool.eq_false_iff.mp h)).trans (if_pos hm)

theorem bootFirmware_inert {k : Nat} {s : State} (h : (firmwareUp k s).sys.factoryDone = false)
    (hm : metrologist (firmwareUp k s) = false) : bootFirmware k s = enterInert 2 (linkStart (firmwareUp k s)) :=
  (if_neg (Bool.eq_false_iff.mp h)).trans (if_neg (Bool.eq_false_iff.mp hm))

section
variable {s : State} {k : Nat}

/-- The image that boots is ACTIVE, and the rest of the module as it was but for a migration that waits. -/
theorem bootImage_store (k : Nat) (s : State) : ∃ c, bootImage k s = s.updStore fun _ => c := by
  unfold bootImage
  dsimp only
  split <;> exact ⟨_, rfl⟩

theorem bootImage_runs (k : Nat) (s : State) : (bootImage k s).store.runs = k := by
  unfold bootImage
  dsimp only
  split <;> rfl

theorem bootImage_active (k : Nat) (s : State) : (fwSlot k (bootImage k s)).state = .active := by
  have hset :
      (fwSlot k ((modFw k (fun x => { x with state := .active }) s).updStore fun t => { t with runs := k })).state = .active :=
    congrArg FwSlot.state (vector_get_set_same _ (Fin.ofNat 2 k) _)
  unfold bootImage
  dsimp only
  split <;> exact hset

/-- The boot steps after the image's choice leave what a boot rests on alone. -/
theorem firmwareUp_booting (hm : s.sys.mode ≠ .commission) : Booting (bootImage k s) (firmwareUp k s) := by
  have hmode : (bootImage k s).sys.mode = s.sys.mode := by
    obtain ⟨c, e⟩ := bootImage_store k s
    rw [e]; rfl
  unfold firmwareUp
  generalize bootImage k s = b at *
  have hforme : Booting b (bootForme (ledgerRestore (countLostBreak b))) :=
    (Booting.refl b).calm (bootForme_calm (ledgerRestore_calm (countLostBreak_calm (.refl b))))
  generalize bootForme (ledgerRestore (countLostBreak b)) = f at *
  have hitems : Booting b (restoreItems (fun _ => true) f) :=
    hforme.trans (restoreItems_booting (by rw [hforme.mode, hmode]; exact hm))
  generalize restoreItems (fun _ => true) f = r at *
  have hnoted : Booting b (noteCommissioned r) :=
    hitems.trans (.of_calm (A := booting) (noteCommissioned_calm (by decide) (.refl r)) fun _ => id)
  have hkeys : Calm quiet (noteCommissioned r) (deriveRoot (askTest false false none (loadTrims (assertSaved (noteCommissioned r))))) :=
    deriveRoot_calm (askTest_calm (loadTrims_calm (assertSaved_calm (.refl _))))
  exact hnoted.calm (healthCheck_calm (placeLinkKey_calm hkeys))

/-! ## Step 16 -/

/-- To be idle is a matter of the outputs, the strands and Platen alone. -/
theorem Idle.of_parts {t : State} (h : Idle s) (hsw : t.sw = s.sw) (hcap : t.cap = s.cap) (hplt : t.plt = s.plt) : Idle t where
  k1 := hsw ▸ h.k1
  k2 := hsw ▸ h.k2
  outs n := by
    have := h.outs n
    unfold outCh at *
    rwa [hsw]
  galleys n := by
    have := h.galleys n
    unfold getS at *
    rwa [hcap]
  panel := hplt ▸ h.panel


/-- The module is up in its role mode: Platen and the link have started. -/
def linked (s : State) : State := linkStart (enterMode (roleMode s.sys.role) (platenStart s))

/-- Step 16: DB0 of inbound mailbox 0 is pending. -/
def belled (s : State) : State := setF (Reg.MB_IN_PEND_PEND 0) (getF s (Reg.MB_IN_PEND_PEND 0) ||| 1) (linked s)

/-- With no installer window a commissioning record does not wait. -/
theorem ready_closed (h : installer (belled s) = false) :
    ready s = settle ((belled s).updTag fun t => { t with commPend := false }) := by
  have hpend (u : State) : (settle (u.updTag fun t => { t with commPend := false })).tag.commPend = false :=
    (settle_calm (.refl _)).commPend
  unfold ready
  unfold belled linked at *
  dsimp only
  rw [h, if_neg Bool.false_ne_true]
  unfold takeRecord
  rw [hpend, Bool.false_and, if_neg Bool.false_ne_true]

theorem linked_calm (s : State) : Calm quiet (s.inMode (roleMode s.sys.role)) (linked s) := by
  have hstart := platenStart_calm (.refl s)
  unfold linked
  generalize platenStart s = p at *
  have hin : Calm quiet (s.inMode (roleMode s.sys.role)) (p.inMode (roleMode s.sys.role)) :=
    { hstart with footing := congrArg (fun y => { y with mode := roleMode s.sys.role }) hstart.footing }
  exact linkStart_calm (hin.trans (enterMode_calm (by decide)))

theorem linked_rings (hr : risingFrom 0 s.regs = true) (hm : s.sys.mode ≠ roleMode s.sys.role) :
    (getF (linked s) (Reg.MB_OUT_PEND_PEND 0)).testBit 0 = true := by
  have hstart := platenStart_calm (.refl s)
  unfold linked
  generalize platenStart s = p at *
  have hrise := hstart.rising hr
  have henter : risingFrom 0 (enterMode (roleMode s.sys.role) p).regs = true :=
    (enterMode_calm (A := quiet) (by decide)).rising (s := p.inMode (roleMode s.sys.role)) hrise
  exact (linkStart_calm (.refl _)).rings henter 0 (by decide) (enterMode_rings hrise (hstart.mode.trans_ne hm))

theorem belled_calm (s : State) : Calm (quiet.erase 0x10004) (linked s) (belled s) := setF_calm (by decide) (.refl _)

theorem belled_pending (hr : risingFrom 0 s.regs = true) : (getF (belled s) (Reg.MB_IN_PEND_PEND 0)).testBit 0 = true := by
  have hwidth : (Reg.MB_IN_PEND_PEND 0).width = 32 := rfl
  unfold belled
  rw [getF_setF_same ((linked_calm s).rising hr), hwidth, Nat.testBit_mod_two_pow, Nat.testBit_or]
  simp

/-- The module came up: from `s`, in BOOT, with the firmware it boots, to `t`, in its role mode. -/
structure Readied (s t : State) : Prop where
  footing : t.sys.footing = { s.sys.footing with mode := roleMode s.sys.role }
  images : t.store.images = s.store.images
  idle : Idle s → Idle t
  pending : (getF t (Reg.MB_IN_PEND_PEND 0)).testBit 0 = true
  rings : (getF t (Reg.MB_OUT_PEND_PEND 0)).testBit 0 = true
  rising : risingFrom 0 t.regs = true
  reads : ∀ f : Field, f.addr = 0xAC → f.lo < 32 → getF t f = getF s f

theorem ready_readied (hr : risingFrom 0 s.regs = true) (hm : s.sys.mode ≠ roleMode s.sys.role) (hi : installer s = false) :
    Readied s (ready s) := by
  have hlinked := linked_calm s
  have hrise : risingFrom 0 (linked s).regs = true := hlinked.rising hr
  have hrings := linked_rings hr hm
  have hread {f : Field} (hf : f.addr ∈ quiet) (hl : f.lo < 32) : getF (linked s) f = getF s f := hlinked.reads hr f hf hl
  have hbell := belled_calm s
  have hpending := belled_pending hr
  have hclosed := ready_closed (s := s)
  generalize linked s = l at *
  have hopen : installer (belled s) = false := by
    have : getF (belled s) Reg.AO_PRES_STAT_INSTALLER = getF s Reg.AO_PRES_STAT_INSTALLER :=
      (hbell.reads hrise _ (by decide) (by decide)).trans (hread (by decide) (by decide))
    unfold installer getB at *
    rwa [this]
  rw [hclosed hopen]
  generalize belled s = n at *
  have hrise' := hbell.rising hrise
  have hsettle : Calm quiet (n.updTag fun t => { t with commPend := false })
      (settle (n.updTag fun t => { t with commPend := false })) := settle_calm (.refl _)
  generalize settle (n.updTag fun t => { t with commPend := false }) = t at *
  exact {
    footing := hsettle.footing.trans (hbell.footing.trans hlinked.footing)
    images := hsettle.images.trans (hbell.images.trans hlinked.images)
    idle := fun h => hsettle.idle (hbell.idle (hlinked.idle (h.of_parts rfl rfl rfl)) |>.of_parts rfl rfl rfl)
    pending := (congrArg (·.testBit 0) (hsettle.reads hrise' _ (by decide) (by decide))).trans hpending
    rings := hsettle.rings hrise' 0 (by decide) (hbell.rings hrise 0 (by decide) hrings)
    rising := hsettle.rising hrise'
    reads := fun f hf hl => by
      have hout := hsettle.reads hrise' f (by simp [hf, quiet]) hl
      have hmid := hbell.reads hrise f (by simp [hf, quiet]) hl
      exact (hout.trans hmid).trans (hread (by simp [hf, quiet]) hl) }

end

/-! ## The lock's pulse of INERT -/

/-- From `s` to `t` the contactors stay open and the lock is as it is driven; outputs may turn on. -/
structure Steady (s t : State) : Prop where
  lock : t.pilot.lock = s.pilot.lock
  k1 : s.sw.k1 = false → t.sw.k1 = false
  k2 : s.sw.k2 = false → t.sw.k2 = false
  galleys : ∀ n, (getS s n).galley = none → (getS t n).galley = none
  panel : s.plt.panelOn = false → t.plt.panelOn = false
  rising : risingFrom 0 s.regs = true → risingFrom 0 t.regs = true

section
variable {a s : State}

theorem Steady.of_calm {A : List Nat} (h : Calm A a s) : Steady a s := ⟨h.lock, h.k1, h.k2, h.galleys, h.panel, h.rising⟩

theorem Steady.trans {t : State} (h : Steady a s) (k : Steady s t) : Steady a t :=
  ⟨k.lock.trans h.lock, k.k1 ∘ h.k1, k.k2 ∘ h.k2, fun n => k.galleys n ∘ h.galleys n, k.panel ∘ h.panel, k.rising ∘ h.rising⟩

theorem modOut_steady {n : Fin 12} {f : OutCh → OutCh} (h : Steady a s) : Steady a (modOut n f s) :=
  h.trans ⟨rfl, id, id, fun _ => id, id, id⟩

theorem switchOut_steady {n : Fin 12} {f : OutCh → OutCh} (h : Steady a s) : Steady a (switchOut n f s) := by
  unfold switchOut
  dsimp only
  split
  · exact modOut_steady (modOut_steady h)
  · exact modOut_steady (modOut_steady (modOut_steady h))

/-- An output that turns on closes no contactor of itself. -/
theorem outOn_steady {n : Fin 12} : Steady s (outOn n s) := by
  have hswap {p : Prop} [Decidable p] {f : Sw → Sw} (hf : (f s.sw).switches = s.sw.switches) :
      Calm quiet s (if p then setHealth 2 (raiseHw 0x14 n.val (s.updSw f)) else s) :=
    .ite (setHealth_calm (raiseHw_calm (updSw_calm (.refl s) hf)) (by decide)) (.refl s)
  unfold outOn
  split
  · exact .of_calm (A := []) (.refl s)
  · exact switchOut_steady (.of_calm (boundaries_calm (hswap rfl)))

/-- The lock is driven as commanded, all else as it is. -/
def State.locking (lock : Bool) (s : State) : State := s.updPilot fun p => { p with lockDir := some lock, lockRetry := false }

/-- A lock command drives the lock. -/
theorem lockStart_steady (lock : Bool) (s : State) : Steady (s.locking lock) (lockStart lock s) := by
  have hhead : Calm [] (s.locking lock)
      (lastingEnds 12 (setF Reg.VI_LOCK_STATE 2 (s.locking lock))) :=
    updPilot_calm (setF_calm (by decide) (.refl _)) rfl
  have hpulse {p : Fin 12 × Fin 12} {t : State} (h : Calm [] (s.locking lock) t) : Calm [] (s.locking lock)
        ((outOff p.2 (outOff p.1 t)).updPilot fun p => { p with lockPulse := none }) :=
    updPilot_calm (outOff_calm (outOff_calm h)) rfl
  have hend {t : State} (h : Steady (s.locking lock) t) {v} :
      Steady (s.locking lock)
        (t.updPilot fun p => { p with lockPulse := v }) :=
    h.trans (.of_calm (A := []) (updPilot_calm (.refl t) rfl))
  unfold lockStart lockPulseStart lockPulseEnd
  dsimp only
  refine hend ?_
  split
  · exact .of_calm (hpulse hhead)
  · exact (Steady.of_calm (hpulse hhead)).trans outOn_steady

end

/-! ## INERT -/

/-- What INERT is entered with, where the lock read `bolt` (R35, R36). -/
def InertAs (bolt : Bool) (why : Nat) (t : State) : Prop :=
  t.sys.mode = .inert ∧ getF t Reg.SYS_INERT_REASON_REASON = why ∧ (t.sw.k1 = false ∧ t.sw.k2 = false) ∧
    (∀ n : Fin 320, (getS t n).galley = none) ∧ t.plt.panelOn = false ∧ (bolt = false → ∀ n, (outCh n t).on = false) ∧
    (bolt = true → getB t Reg.VI_LOCK_EN = true → t.pilot.lockDir = some false)

section
variable {s : State}

theorem Calm.bolt {A : List Nat} {t : State} (h : Calm A s t) : t.pilot.bolt = s.pilot.bolt := congrArg Prod.fst h.lock

/-- The module is stopped for INERT: the Capstan and Platen, and PD3 off. -/
def stoppedInert (s : State) : State :=
  (s |> stopStrands |> stopAll |> panelOff |> clearRegs [3]).updMet fun m => m.afterReset

theorem stoppedInert_calm (s : State) : Calm quiet s (stoppedInert s) := by
  have hstop (t : State) : Calm quiet t (stopAll t) := by
    unfold stopAll
    exact updPl_calm (.refl t) rfl
  have hdark (t : State) : Calm quiet t (panelOff t) := by
    unfold panelOff updPl
    exact updPlt_calm (.refl t) fun _ => rfl
  exact updMet_calm (clearRegs_calm (by decide) (((stopStrands_calm (.refl s)).trans (hstop _)).trans (hdark _)))

/-- The contactors open and the outputs off, for INERT. -/
def openedInert (s : State) : State := outputsOff (openNow true true s)

theorem openedInert_calm (s : State) : Calm quiet s (openedInert s) := outputsOff_calm (openNow_calm (.refl s))

theorem enterInert_eq (reason : Nat) (s : State) : enterInert reason s =
    settle (enterMode .inert (setF Reg.SYS_INERT_REASON_REASON reason (stoppedInert (inertUnlock (openedInert s))))) := by
  unfold enterInert stoppedInert openedInert outputsOff
  rfl

/-- VI_LOCK as it is restored for the unlock pulse of INERT. -/
def lockRestored (s : State) : State := restoreItems (· == Reg.VI_LOCK_EN.addr) s

theorem inertUnlock_eq (s : State) : inertUnlock s =
    if getB (lockRestored s) Reg.VI_LOCK_EN && (lockRestored s).pilot.bolt then lockStart false (lockRestored s)
    else lockRestored s := rfl

/-- The module after the unlock pulse, where the lock read `bolt`. -/
structure Unlocked (bolt : Bool) (t : State) : Prop where
  k1 : t.sw.k1 = false
  k2 : t.sw.k2 = false
  galleys : ∀ n, (getS t n).galley = none
  panel : t.plt.panelOn = false
  outs : bolt = false → ∀ n, (outCh n t).on = false
  lock : bolt = true → getB t Reg.VI_LOCK_EN = true → t.pilot.lockDir = some false
  rising : risingFrom 0 t.regs = true

theorem Unlocked.calm {A : List Nat} {bolt : Bool} {t : State} (h : Unlocked bolt s) (k : Calm A s t) (hA : 0x9001C ∈ A) :
    Unlocked bolt t where
  k1 := k.k1 h.k1
  k2 := k.k2 h.k2
  galleys n := k.galleys n (h.galleys n)
  panel := k.panel h.panel
  outs hb := k.allOff (h.outs hb)
  lock hb hen := by
    have hread : getB t Reg.VI_LOCK_EN = getB s Reg.VI_LOCK_EN :=
      congrArg (fun v => decide (v ≠ 0)) (k.reads h.rising Reg.VI_LOCK_EN hA (by decide))
    exact (congrArg Prod.snd k.lock).trans (h.lock hb (hread ▸ hen))
  rising := k.rising h.rising

theorem inertUnlock_unlocked (hi : Idle s) (hr : risingFrom 0 s.regs = true) (hm : s.sys.mode ≠ .commission) :
    Unlocked s.pilot.bolt (inertUnlock s) := by
  have hrestored : Booting s (lockRestored s) := restoreItems_booting hm
  rw [inertUnlock_eq]
  generalize lockRestored s = r at *
  obtain ⟨hk1, hk2, houts, hgalleys, hpanel⟩ := hrestored.idle hi
  have hrise := hrestored.rising hr
  have hbolt : r.pilot.bolt = s.pilot.bolt := congrArg Prod.fst hrestored.lock
  by_cases hpulse : (getB r Reg.VI_LOCK_EN && r.pilot.bolt) = true
  · have hsteady := lockStart_steady false r
    rw [if_pos hpulse]
    rw [hbolt, Bool.and_eq_true] at hpulse
    generalize lockStart false r = u at *
    exact {
      k1 := hsteady.k1 hk1, k2 := hsteady.k2 hk2, galleys := fun n => hsteady.galleys n (hgalleys n)
      panel := hsteady.panel hpanel, rising := hsteady.rising hrise
      outs := fun hb => absurd hpulse.2 (Bool.eq_false_iff.mp hb)
      lock := fun _ _ => congrArg Prod.snd hsteady.lock }
  · rw [if_neg hpulse]
    rw [hbolt, Bool.and_eq_true] at hpulse
    exact {
      k1 := hk1, k2 := hk2, galleys := hgalleys, panel := hpanel, rising := hrise
      outs := fun _ => houts
      lock := fun hb hen => absurd ⟨hen, hb⟩ hpulse }

/-- The module is in INERT for `why`, once the lock has its pulse and everything is stopped. -/
theorem settleIn_inertAs {bolt : Bool} (h : Unlocked bolt s) {why : Nat} (hw : getF s Reg.SYS_INERT_REASON_REASON = why) :
    InertAs bolt why (settle (enterMode .inert s)) := by
  have hin : Unlocked bolt (s.inMode .inert) := { h with k1 := h.k1 }
  have hend := hin.calm (settleIn_calm .inert s) (by decide)
  have hreason : getF (settle (enterMode .inert s)) Reg.SYS_INERT_REASON_REASON = getF s Reg.SYS_INERT_REASON_REASON :=
    settleIn_reads h.rising (by decide) (by decide)
  exact ⟨settleIn_mode _ _, hreason.trans hw, ⟨hend.k1, hend.k2⟩, hend.galleys, hend.panel, hend.outs, hend.lock⟩

/-- The reason of INERT is shown. -/
theorem showReason_unlocked {bolt : Bool} (h : Unlocked bolt s) {why : Nat} (hw : why < 4) :
    Unlocked bolt (setF Reg.SYS_INERT_REASON_REASON why s) ∧
      getF (setF Reg.SYS_INERT_REASON_REASON why s) Reg.SYS_INERT_REASON_REASON = why :=
  ⟨h.calm (A := quiet.erase 0x18) (setF_calm (by decide) (.refl s)) (by decide),
    (getF_setF_same h.rising _ _).trans (Nat.mod_eq_of_lt hw)⟩

/-- An idle module enters INERT. -/
theorem enterInert_inertAs (hi : Idle s) (hr : risingFrom 0 s.regs = true) (hm : s.sys.mode ≠ .commission) {why : Nat}
    (hw : why < 4) : InertAs s.pilot.bolt why (enterInert why s) := by
  have hopened := openedInert_calm s
  have hunlocked := inertUnlock_unlocked (hopened.idle hi) (hopened.rising hr) (hopened.mode.trans_ne hm)
  rw [hopened.bolt] at hunlocked
  obtain ⟨hshown, hreason⟩ := showReason_unlocked (hunlocked.calm (stoppedInert_calm _) (by decide)) hw
  rw [enterInert_eq]
  exact settleIn_inertAs hshown hreason

end

end Sys2Proof.Machine
end

section
/-! SUPPORT. A boot as a whole: what it needs, and what it ends in. -/
namespace Sys2Proof.Machine

/-! ## BOOT begins -/

/-- BOOT from step 1 to step 3: the pumps run, and the pilot is in state F. -/
def bootStart (s : State) : State := settle (enterMode .boot (s.updPilot fun p => { p with pumps := true }))

theorem bootStart_calm (s : State) : Calm quiet (s.inMode .boot) (bootStart s) := by
  have hpumps : Calm quiet (s.inMode .boot) ((s.updPilot fun p => { p with pumps := true }).inMode .boot) := by
    have h := updPilot_calm (f := fun p => { p with pumps := true }) (Calm.refl (A := quiet) (s.inMode .boot)) rfl
    exact h
  exact hpumps.trans (settleIn_calm .boot _)

/-- The supplies are good, and nothing holds BOOT. -/
structure CanBoot (s : State) : Prop where
  main : s.sys.mainGood = true
  pad : s.sys.resetLow = false
  ref : s.sys.refHeld = false
  rising : risingFrom 0 s.regs = true

section
variable {s : State} {k : Nat}

theorem bootStart_goes (h : CanBoot s) :
    ((bootStart s).sys.resetLow || (bootStart s).sys.refHeld || !(bootStart s).sys.mainGood) = false := by
  have hf := (bootStart_calm s).footing
  generalize bootStart s = b at *
  have hpad : b.sys.resetLow = s.sys.resetLow := congrArg Footing.resetLow hf
  have href : b.sys.refHeld = s.sys.refHeld := congrArg Footing.refHeld hf
  have hmain : b.sys.mainGood = s.sys.mainGood := congrArg Footing.mainGood hf
  rw [hpad, href, hmain, h.pad, h.ref, h.main]
  rfl

/-- BOOT from step 5, with the slot that was found. -/
def bootFrom : Option Nat × State → State
  | (some k, s) => bootFirmware k s
  | (none, s) => s |> deriveRoot |> placeLinkKey |> healthCheck |> enterInert 1

theorem boot_eq (h : CanBoot s) : boot s = bootFrom (bootSlot (bootStart s)) := by
  have hgo := bootStart_goes h
  unfold boot
  unfold bootStart at *
  dsimp only
  generalize settle (enterMode .boot (s.updPilot fun p => { p with pumps := true })) = b at *
  rw [hgo, if_neg Bool.false_ne_true]
  rfl

theorem boot_some (h : CanBoot s) (hslot : bootSlot (bootStart s) = (some k, bootStart s)) :
    boot s = bootFirmware k (bootStart s) := by
  rw [boot_eq h, hslot, bootFrom]

theorem boot_none (h : CanBoot s) {t : State} (hslot : bootSlot (bootStart s) = (none, t)) :
    boot s = enterInert 1 (healthCheck (placeLinkKey (deriveRoot t))) := by
  rw [boot_eq h, hslot, bootFrom]

/-! ## The firmware is up -/

/-- The firmware of slot `k` is up in `t`, booted from `s`. -/
structure FirmwareUp (k : Nat) (s t : State) : Prop where
  footing : t.sys.footing = { s.sys.footing with mode := .boot }
  lock : t.pilot.lock = s.pilot.lock
  runs : t.store.runs = k
  active : (fwSlot k t).state = .active
  idle : Idle s → Idle t
  rising : risingFrom 0 t.regs = true
  reads : ∀ f : Field, f.addr ∈ booting → f.lo < 32 → getF t f = getF s f

theorem firmwareUp_up (hr : risingFrom 0 s.regs = true) (k : Nat) : FirmwareUp k s (firmwareUp k (bootStart s)) := by
  have hstart := bootStart_calm s
  have hidle (h : Idle s) : Idle (bootStart s) := hstart.idle ⟨h.k1, h.k2, h.outs, h.galleys, h.panel⟩
  generalize bootStart s = b at *
  have hmode : b.sys.mode ≠ .commission := hstart.mode.trans_ne nofun
  have hup := firmwareUp_booting (k := k) hmode
  have hruns := bootImage_runs k b
  have hactive := bootImage_active k b
  obtain ⟨c, himage⟩ := bootImage_store k b
  rw [himage] at hup hruns hactive
  generalize firmwareUp k b = f at *
  have hrise := hstart.rising hr
  exact {
    footing := hup.footing.trans hstart.footing
    lock := hup.lock.trans hstart.lock
    runs := (runs_congr hup.images).trans hruns
    active := (congrArg FwSlot.state (fwSlot_congr hup.images k)).trans hactive
    idle := fun h => hup.idle ((hidle h).of_parts rfl rfl rfl)
    rising := hup.rising hrise
    reads := fun g hg hl => (hup.reads hrise g hg hl).trans (hstart.reads hr g (by revert hg; simp [booting, quiet]; omega) hl) }

/-! ## The role mode -/

/-- The module came up from `s`, in its role mode, with the firmware of slot `k`. -/
structure CameUp (k : Nat) (s t : State) : Prop where
  footing : t.sys.footing = { s.sys.footing with mode := roleMode s.sys.role, booted := true }
  runs : t.store.runs = k
  active : (fwSlot k t).state = .active
  idle : Idle s → Idle t
  pending : (getF t (Reg.MB_IN_PEND_PEND 0)).testBit 0 = true
  rings : (getF t (Reg.MB_OUT_PEND_PEND 0)).testBit 0 = true
  rising : risingFrom 0 t.regs = true
  reads : ∀ f : Field, f.addr = 0xAC → f.lo < 32 → getF t f = getF s f

theorem installer_congr {s t : State} (h : getF t Reg.AO_PRES_STAT_INSTALLER = getF s Reg.AO_PRES_STAT_INSTALLER) :
    installer t = installer s := congrArg (fun v => decide (v ≠ 0)) h

theorem metrologist_congr {s t : State} (h : getF t Reg.AO_PRES_STAT_METRO = getF s Reg.AO_PRES_STAT_METRO) :
    metrologist t = metrologist s := congrArg (fun v => decide (v ≠ 0)) h

theorem ready_cameUp {t : State} (hup : FirmwareUp k s t) (hi : installer s = false) : CameUp k s (ready (started t)) := by
  have hmode : (started t).sys.mode ≠ roleMode (started t).sys.role := by
    have hboot : (started t).sys.mode = .boot := congrArg Footing.mode hup.footing
    rw [hboot]
    cases (started t).sys.role <;> nofun
  have hclosed : installer (started t) = false := (installer_congr (hup.reads _ (by decide) (by decide))).trans hi
  have hready := ready_readied (s := started t) hup.rising hmode hclosed
  have hfoot : (started t).sys.footing = { s.sys.footing with mode := .boot, booted := true } :=
    congrArg (fun y => { y with booted := true }) hup.footing
  have hrole : (started t).sys.role = s.sys.role := congrArg Footing.role hfoot
  generalize ready (started t) = u at *
  exact {
    footing := by rw [hready.footing, hrole, hfoot]
    runs := (runs_congr hready.images).trans hup.runs
    active := (congrArg FwSlot.state (fwSlot_congr hready.images k)).trans hup.active
    idle := fun hs => hready.idle ((hup.idle hs).of_parts rfl rfl rfl)
    pending := hready.pending
    rings := hready.rings
    rising := hready.rising
    reads := fun g hg hl => (hready.reads g hg hl).trans (hup.reads g (by simp [hg, booting]) hl) }

theorem boot_cameUp (h : CanBoot s) (hdone : s.sys.factoryDone = true) (hi : installer s = false)
    (hslot : bootSlot (bootStart s) = (some k, bootStart s)) : CameUp k s (boot s) := by
  have hup := firmwareUp_up h.rising k
  have hdone' : (firmwareUp k (bootStart s)).sys.factoryDone = true := (congrArg Footing.factoryDone hup.footing).trans hdone
  rw [boot_some h hslot, bootFirmware_done hdone']
  exact ready_cameUp hup hi

/-! ## FACTORY and INERT -/

/-- With no FACTORY_DONE fuse blown and the metrologist window open, FACTORY is entered (R28). -/
theorem boot_factory (h : CanBoot s) (hdone : s.sys.factoryDone = false) (hm : metrologist s = true)
    (hslot : bootSlot (bootStart s) = (some k, bootStart s)) : (boot s).sys.mode = .factory ∧ (Idle s → Idle (boot s)) := by
  have hup := firmwareUp_up h.rising k
  rw [boot_some h hslot]
  generalize bootStart s = b at *
  have hfactory := bootFirmware_factory (k := k) (s := b)
  generalize firmwareUp k b = f at *
  rw [hfactory ((congrArg Footing.factoryDone hup.footing).trans hdone)
    ((metrologist_congr (hup.reads _ (by decide) (by decide))).trans hm)]
  have hend : Calm quiet ((started f).inMode .factory) (linkStart (enterMode .factory (started f))) :=
    linkStart_calm (enterMode_calm (by decide))
  exact ⟨hend.mode, fun hs => hend.idle ((hup.idle hs).of_parts rfl rfl rfl)⟩

/-- With no FACTORY_DONE fuse blown and no metrologist window open, INERT is entered (R28). -/
theorem boot_incomplete (h : CanBoot s) (hs : Idle s) (hdone : s.sys.factoryDone = false) (hm : metrologist s = false)
    (hslot : bootSlot (bootStart s) = (some k, bootStart s)) : InertAs s.pilot.bolt 2 (boot s) := by
  have hup := firmwareUp_up h.rising k
  rw [boot_some h hslot]
  generalize bootStart s = b at *
  have hinert := bootFirmware_inert (k := k) (s := b)
  generalize firmwareUp k b = f at *
  rw [hinert ((congrArg Footing.factoryDone hup.footing).trans hdone)
    ((metrologist_congr (hup.reads _ (by decide) (by decide))).trans hm)]
  have hlink := linkStart_calm (.refl f)
  generalize linkStart f = l at *
  have hmode : l.sys.mode = .boot := hlink.mode.trans (congrArg Footing.mode hup.footing)
  have hbolt : l.pilot.bolt = s.pilot.bolt := hlink.bolt.trans (congrArg Prod.fst hup.lock)
  rw [← hbolt]
  exact enterInert_inertAs (hlink.idle (hup.idle hs)) (hlink.rising hup.rising) (by rw [hmode]; nofun) (by decide)

/-- With no slot to boot, INERT is entered (R35). -/
theorem boot_imageless (h : CanBoot s) (hs : Idle s) {c : Store}
    (hslot : bootSlot (bootStart s) = (none, (bootStart s).updStore fun _ => c)) : InertAs s.pilot.bolt 1 (boot s) := by
  have hstart := bootStart_calm s
  rw [boot_none h hslot]
  generalize bootStart s = b at *
  have hidle : Idle (b.updStore fun _ => c) := (hstart.idle (hs.of_parts rfl rfl rfl)).of_parts rfl rfl rfl
  have hmode : (b.updStore fun _ => c).sys.mode = .boot := hstart.mode
  have hbolt : (b.updStore fun _ => c).pilot.bolt = s.pilot.bolt := hstart.bolt
  have hrise : risingFrom 0 (b.updStore fun _ => c).regs = true := hstart.rising h.rising
  generalize b.updStore (fun _ => c) = t at *
  have hkeys : Calm quiet t (healthCheck (placeLinkKey (deriveRoot t))) :=
    healthCheck_calm (placeLinkKey_calm (deriveRoot_calm (.refl t)))
  generalize healthCheck (placeLinkKey (deriveRoot t)) = u at *
  rw [← hbolt, ← hkeys.bolt]
  exact enterInert_inertAs (hkeys.idle hidle) (hkeys.rising hrise) (by rw [hkeys.mode, hmode]; nofun) (by decide)

/-! ## The slot that BOOT finds -/

theorem bootStart_images (s : State) : (bootStart s).store.images = s.store.images := (bootStart_calm s).images

theorem bootStart_active (hactive : (fwSlot s.store.runs s).state = .active) (hsound : bootCheck s.store.runs s = true) :
    bootSlot (bootStart s) = (some s.store.runs, bootStart s) := by
  have himages := bootStart_images s
  generalize bootStart s = b at *
  rw [← runs_congr himages] at hactive hsound ⊢
  rw [← fwSlot_congr himages] at hactive
  rw [← bootCheck_images himages] at hsound
  exact bootSlot_active hactive hsound

theorem bootStart_staged (hruns : s.store.runs < 2) (hrejected : (fwSlot s.store.runs s).state = .rejected)
    (hstaged : (fwSlot (1 - s.store.runs) s).state = .staged) (hsound : bootCheck (1 - s.store.runs) s = true) :
    bootSlot (bootStart s) = (some (1 - s.store.runs), bootStart s) := by
  have himages := bootStart_images s
  generalize bootStart s = b at *
  rw [← runs_congr himages] at hruns hrejected hstaged hsound ⊢
  rw [← fwSlot_congr himages] at hrejected hstaged
  rw [← bootCheck_images himages] at hsound
  exact bootSlot_staged hruns hrejected hstaged hsound

theorem bootStart_none (hruns : s.store.runs < 2) (hnone : NoneSound s) :
    ∃ c, bootSlot (bootStart s) = (none, (bootStart s).updStore fun _ => c) := by
  have himages := bootStart_images s
  generalize bootStart s = b at *
  rw [← runs_congr himages] at hruns
  exact bootSlot_none hruns fun j hj => (bootCheck_images himages j).trans (hnone j hj)

/-! ## A reset that boots -/

variable {powerOn : Bool}

theorem resetAndBoot_eq (powerOn : Bool) (s : State) : resetAndBoot powerOn none s = boot (clearPower powerOn s) := rfl

theorem CanBoot.reset (h : CanBoot s) : CanBoot (clearPower powerOn s) where
  main := (congrArg Footing.mainGood (clearPower_footing powerOn s)).trans h.main
  pad := (congrArg Footing.resetLow (clearPower_footing powerOn s)).trans h.pad
  ref := (congrArg Footing.refHeld (clearPower_footing powerOn s)).trans h.ref
  rising := clearPower_rising h.rising

/-- The active image is sound, and no installer is there. -/
structure ActiveSound (s : State) : Prop where
  active : (fwSlot s.store.runs s).state = .active
  sound : bootCheck s.store.runs s = true
  closed : installer s = false

theorem clearPower_runs (powerOn : Bool) (s : State) : (clearPower powerOn s).store.runs = s.store.runs :=
  congrArg Images.runs (clearPower_images powerOn s)

theorem ActiveSound.reset (h : ActiveSound s) (hr : risingFrom 0 s.regs = true) : ActiveSound (clearPower powerOn s) where
  active := by
    rw [clearPower_runs, fwSlot_clearPower, FwSlot.afterReset_of_ne (by rw [h.active]; nofun)]
    exact h.active
  sound := by rw [clearPower_runs, bootCheck_clearPower]; exact h.sound
  closed := (installer_congr (clearPower_presence hr rfl (by decide))).trans h.closed

end

end Sys2Proof.Machine
end

section
/-! SUPPORT. The rows of a start-up, each taken to the boot it runs. -/
namespace Sys2Proof.Machine

/-! ## A boot that comes up -/

section
variable {s t u : State} {k : Nat}

/-- The module runs slot `k` in the mode of role `r`, and the host is told so. -/
def Up (k : Nat) (r : Role) (t : State) : Prop :=
  t.sys.mode = roleMode r ∧ t.sys.role = r ∧ t.sys.booted = true ∧ t.store.runs = k ∧ (fwSlot k t).state = .active ∧
    (getF t (Reg.MB_IN_PEND_PEND 0)).testBit 0 = true ∧ (getF t (Reg.MB_OUT_PEND_PEND 0)).testBit 0 = true

theorem CameUp.up (h : CameUp k s t) {r : Role} (hr : s.sys.role = r) : Up k r t :=
  ⟨(congrArg Footing.mode h.footing).trans (congrArg roleMode hr), (congrArg Footing.role h.footing).trans hr,
    congrArg Footing.booted h.footing, h.runs, h.active, h.pending, h.rings⟩

theorem CameUp.resetLow (h : CameUp k s t) : t.sys.resetLow = s.sys.resetLow := congrArg Footing.resetLow h.footing
theorem CameUp.refHeld (h : CameUp k s t) : t.sys.refHeld = s.sys.refHeld := congrArg Footing.refHeld h.footing
theorem CameUp.pfwConfirmed (h : CameUp k s t) : t.sys.pfwConfirmed = s.sys.pfwConfirmed := congrArg Footing.pfwConfirmed h.footing
theorem CameUp.factoryDone (h : CameUp k s t) : t.sys.factoryDone = s.sys.factoryDone := congrArg Footing.factoryDone h.footing

theorem CameUp.calm (h : CameUp k s t) (hu : Calm quiet t u) : CameUp k s u where
  footing := hu.footing.trans h.footing
  runs := (runs_congr hu.images).trans h.runs
  active := (congrArg FwSlot.state (fwSlot_congr hu.images k)).trans h.active
  idle := hu.idle ∘ h.idle
  pending := (congrArg (·.testBit 0) (hu.reads h.rising _ (by decide) (by decide))).trans h.pending
  rings := hu.rings h.rising 0 (by decide) h.rings
  rising := hu.rising h.rising
  reads f hf hl := (hu.reads h.rising f (by simp [hf, quiet]) hl).trans (h.reads f hf hl)

theorem boot_up (h : CanBoot s) (hdone : s.sys.factoryDone = true) (hsound : ActiveSound s) : CameUp s.store.runs s (boot s) :=
  boot_cameUp h hdone hsound.closed (bootStart_active hsound.active hsound.sound)

theorem clearPower_role (powerOn : Bool) (s : State) : (clearPower powerOn s).sys.role = s.sys.role :=
  congrArg Footing.role (clearPower_footing powerOn s)

theorem clearPower_factoryDone (powerOn : Bool) (s : State) : (clearPower powerOn s).sys.factoryDone = s.sys.factoryDone :=
  congrArg Footing.factoryDone (clearPower_footing powerOn s)

theorem clearPower_bolt (powerOn : Bool) (s : State) : (clearPower powerOn s).pilot.bolt = s.pilot.bolt :=
  congrArg Prod.fst (clearPower_lock powerOn s)

theorem resetAndBoot_up (powerOn : Bool) (h : CanBoot s) (hdone : s.sys.factoryDone = true) (hsound : ActiveSound s) :
    CameUp s.store.runs (clearPower powerOn s) (resetAndBoot powerOn none s) := by
  rw [resetAndBoot_eq]
  have hreset := hsound.reset (powerOn := powerOn) h.rising
  have hdone' := (clearPower_factoryDone powerOn s).trans hdone
  have hruns := clearPower_runs powerOn s
  have hcan := h.reset (powerOn := powerOn)
  generalize clearPower powerOn s = c at *
  rw [← hruns]
  exact boot_up hcan hdone' hreset

/-- After a reset the contactors are open. -/
theorem resetAndBoot_open {powerOn : Bool} (h : CameUp k (clearPower powerOn s) t) : t.sw.k1 = false ∧ t.sw.k2 = false :=
  have hidle := h.idle (clearPower_idle powerOn s)
  ⟨hidle.k1, hidle.k2⟩

/-- The active image is not done with its tests, at a power-on with the metrologist window open. -/
theorem resetAndBoot_factory (powerOn : Bool) (h : CanBoot s) (hdone : s.sys.factoryDone = false) (hsound : ActiveSound s)
    (hm : metrologist s = true) : (resetAndBoot powerOn none s).sys.mode = .factory ∧
      ((resetAndBoot powerOn none s).sw.k1 = false ∧ (resetAndBoot powerOn none s).sw.k2 = false) := by
  rw [resetAndBoot_eq]
  have hreset := hsound.reset (powerOn := powerOn) h.rising
  have hend := boot_factory (h.reset (powerOn := powerOn)) ((clearPower_factoryDone powerOn s).trans hdone)
    ((metrologist_congr (clearPower_presence h.rising rfl (by decide))).trans hm) (bootStart_active hreset.active hreset.sound)
  have hidle := hend.2 (clearPower_idle powerOn s)
  exact ⟨hend.1, hidle.k1, hidle.k2⟩

theorem resetAndBoot_incomplete (powerOn : Bool) (h : CanBoot s) (hdone : s.sys.factoryDone = false) (hsound : ActiveSound s)
    (hm : metrologist s = false) : InertAs s.pilot.bolt 2 (resetAndBoot powerOn none s) := by
  rw [resetAndBoot_eq, ← clearPower_bolt powerOn s]
  have hreset := hsound.reset (powerOn := powerOn) h.rising
  exact boot_incomplete (h.reset (powerOn := powerOn)) (clearPower_idle powerOn s) ((clearPower_factoryDone powerOn s).trans hdone)
    ((metrologist_congr (clearPower_presence h.rising rfl (by decide))).trans hm) (bootStart_active hreset.active hreset.sound)

theorem resetAndBoot_imageless (powerOn : Bool) (h : CanBoot s) (hruns : s.store.runs < 2) (hnone : NoneSound s) :
    InertAs s.pilot.bolt 1 (resetAndBoot powerOn none s) := by
  rw [resetAndBoot_eq, ← clearPower_bolt powerOn s]
  have hnone' : NoneSound (clearPower powerOn s) := fun j hj => (bootCheck_clearPower powerOn j s).trans (hnone j hj)
  obtain ⟨c, hslot⟩ := bootStart_none ((clearPower_runs powerOn s).symm ▸ hruns) hnone'
  exact boot_imageless h.reset (clearPower_idle powerOn s) hslot

/-- Beside a REJECTED image, a STAGED one boots (19 R417). -/
theorem resetAndBoot_staged (powerOn : Bool) (h : CanBoot s) (hdone : s.sys.factoryDone = true) (hi : installer s = false)
    (hruns : s.store.runs < 2) (hold : (fwSlot s.store.runs s).state = .rejected)
    (hnew : (fwSlot (1 - s.store.runs) s).state = .staged) (hcheck : bootCheck (1 - s.store.runs) s = true) :
    CameUp (1 - s.store.runs) (clearPower powerOn s) (resetAndBoot powerOn none s) := by
  rw [resetAndBoot_eq]
  rw [← FwSlot.afterReset_of_ne (x := fwSlot s.store.runs s) (by rw [hold]; nofun), ← fwSlot_clearPower powerOn] at hold
  rw [← FwSlot.afterReset_of_ne (x := fwSlot (1 - s.store.runs) s) (by rw [hnew]; nofun), ← fwSlot_clearPower powerOn] at hnew
  rw [← bootCheck_clearPower powerOn] at hcheck
  have hi' := (installer_congr (clearPower_presence (powerOn := powerOn) h.rising rfl (by decide))).trans hi
  have hdone' := (clearPower_factoryDone powerOn s).trans hdone
  have hcan := h.reset (powerOn := powerOn)
  have hsame := clearPower_runs powerOn s
  generalize clearPower powerOn s = c at *
  rw [← hsame] at hruns hold hnew hcheck ⊢
  exact boot_cameUp hcan hdone' hi' (bootStart_staged hruns hold hnew hcheck)

/-- A boot check and its slot's state ask nothing of system control. -/
theorem ActiveSound.ofParts (h : ActiveSound s) (hstore : t.store = s.store) (hregs : t.regs = s.regs) : ActiveSound t where
  active := by
    have := h.active
    unfold fwSlot at *
    rwa [hstore]
  sound := (bootCheck_images (congrArg Store.images hstore) _).trans (by rw [hstore]; exact h.sound)
  closed := (installer_congr (congrArg (fun m => mapGet _ m _) hregs)).trans h.closed

theorem installer_of_regs (h : t.regs = s.regs) : installer t = installer s :=
  installer_congr (congrArg (fun m => mapGet _ m _) h)

theorem metrologist_of_regs (h : t.regs = s.regs) : metrologist t = metrologist s :=
  metrologist_congr (congrArg (fun m => mapGet _ m _) h)

end

/-! ## The supplies -/

section
variable {r : Role} {s : State}

/-- The supplies are good, and MSEL is sampled. -/
def supplied (r : Role) (s : State) : State := sampleMsel r (s.updSys fun y => { y with mainGood := true })

/-- The supplies were not there, or the module waits for nothing but them. -/
def Unsupplied (s : State) : Prop := s.sys.mode = .noPower ∨ s.sys.mode = .backup ∨ s.sys.mode = .tagOnly ∨
  (s.sys.mode = .boot ∧ s.sys.booted = false ∧ s.sys.refHeld = false ∧ s.sys.resetLow = false)

theorem unsupplied_iff : Unsupplied s ↔
    (unpowered s || (s.sys.mode == .boot && !s.sys.booted && !s.sys.refHeld && !s.sys.resetLow)) = true := by
  unfold Unsupplied unpowered
  cases s.sys.mode <;> simp [and_assoc]

theorem suppliesGood_boots (hoff : Unsupplied s) (hpad : s.sys.resetLow = false) :
    suppliesGood r s = resetAndBoot true none (supplied r s) := by
  have hoff' := unsupplied_iff.mp hoff
  unfold suppliesGood
  dsimp only
  rw [hoff', Bool.not_true, if_neg Bool.false_ne_true]
  exact if_neg (Bool.eq_false_iff.mp hpad)

theorem suppliesGood_held (hoff : Unsupplied s) (hpad : s.sys.resetLow = true) :
    suppliesGood r s = s.updSys fun y => { y with mainGood := true } := by
  have hoff' := unsupplied_iff.mp hoff
  unfold suppliesGood
  dsimp only
  rw [hoff', Bool.not_true, if_neg Bool.false_ne_true]
  exact if_pos hpad

theorem suppliesGood_inService (h : inService s.sys.mode = true) : suppliesGood r s = s := by
  have hon : ¬Unsupplied s := by
    unfold Unsupplied
    rintro (e | e | e | ⟨e, -⟩) <;> rw [e] at h <;> nomatch h
  rw [unsupplied_iff, Bool.not_eq_true] at hon
  unfold suppliesGood
  simp only [hon, Bool.not_false, if_true]

theorem supplied_canBoot (hr : risingFrom 0 s.regs = true) (hpad : s.sys.resetLow = false) (href : s.sys.refHeld = false) :
    CanBoot (supplied r s) := ⟨rfl, hpad, href, hr⟩

end

end Sys2Proof.Machine
end

section
/-! SUPPORT. What each row of a start-up gives. -/
namespace Sys2Proof.Machine

section
variable {r : Role} {s : State}

/-! ## SUPPLIES_GOOD -/

section
variable (hr : risingFrom 0 s.regs = true) (hoff : Unsupplied s) (hpad : s.sys.resetLow = false)
include hr hoff hpad

theorem suppliesGood_gives {P : State → Prop} (h : CanBoot (supplied r s) → P (resetAndBoot true none (supplied r s)))
    (href : s.sys.refHeld = false) : Gives (.suppliesGood r) s P :=
  ⟨_, congrArg Host.Outcome.next (suppliesGood_boots hoff hpad), h (supplied_canBoot hr hpad href)⟩

variable (href : s.sys.refHeld = false)
include href

theorem suppliesGood_up (hdone : s.sys.factoryDone = true) (hsound : ActiveSound s) :
    Gives (.suppliesGood r) s fun t => Up s.store.runs r t ∧ (t.sw.k1 = false ∧ t.sw.k2 = false) := by
  refine suppliesGood_gives hr hoff hpad (fun hcan => ?_) href
  have hup := resetAndBoot_up true hcan hdone (hsound.ofParts rfl rfl)
  exact ⟨hup.up (clearPower_role _ _), resetAndBoot_open hup⟩

theorem suppliesGood_factory (hdone : s.sys.factoryDone = false) (hsound : ActiveSound s) (hm : metrologist s = true) :
    Gives (.suppliesGood r) s fun t => t.sys.mode = .factory ∧ (t.sw.k1 = false ∧ t.sw.k2 = false) := by
  refine suppliesGood_gives hr hoff hpad (fun hcan => ?_) href
  have hm' : metrologist (supplied r s) = true := (metrologist_of_regs rfl).trans hm
  have hend := resetAndBoot_factory true hcan hdone (hsound.ofParts rfl rfl) hm'
  exact hend

theorem suppliesGood_incomplete (hdone : s.sys.factoryDone = false) (hsound : ActiveSound s) (hm : metrologist s = false) :
    Gives (.suppliesGood r) s (InertAs s.pilot.bolt 2) := by
  refine suppliesGood_gives hr hoff hpad (fun hcan => ?_) href
  have hm' : metrologist (supplied r s) = false := (metrologist_of_regs rfl).trans hm
  have hend := resetAndBoot_incomplete true hcan hdone (hsound.ofParts rfl rfl) hm'
  exact hend

theorem suppliesGood_imageless (hruns : s.store.runs < 2) (hnone : NoneSound s) :
    Gives (.suppliesGood r) s (InertAs s.pilot.bolt 1) := by
  refine suppliesGood_gives hr hoff hpad (fun hcan => ?_) href
  have hnone' : NoneSound (supplied r s) := fun j hj => (bootCheck_images rfl j).trans (hnone j hj)
  have hend := resetAndBoot_imageless true hcan hruns hnone'
  exact hend

end

/-! ## RESET_N, the reference, a power fail that passed, the fuse -/

/-- RESET_N is high, and MSEL is sampled. -/
def released (r : Role) (s : State) : State := (sampleMsel r s).updSys fun y => { y with resetLow := false }

/-- The reference runs again, and MSEL is sampled. -/
def referenced (r : Role) (s : State) : State :=
  setF Reg.PWR_STATUS_XTAL_FAIL 0 ((sampleMsel r s).updSys fun y => { y with refHeld := false })

section
variable (hr : risingFrom 0 s.regs = true) (hmain : s.sys.mainGood = true) (hsound : ActiveSound s)
include hr hmain hsound

theorem resetNRelease_up (hpad : s.sys.resetLow = true) (href : s.sys.refHeld = false) (hdone : s.sys.factoryDone = true) :
    Gives (.resetNRelease r) s fun t => Up s.store.runs r t ∧ t.sys.resetLow = false := by
  have hcan : CanBoot (released r s) := ⟨hmain, rfl, href, hr⟩
  have hsound' : ActiveSound (released r s) := hsound.ofParts rfl rfl
  have hgoes : (!(released r s).sys.mainGood || (released r s).sys.refHeld) = false := by rw [hcan.main, hcan.ref]; rfl
  have hout : execResetNRelease r s =
      .next (if unpowered (released r s) then resetAndBoot true none (released r s) else boot (released r s)) := by
    have hlow : (!s.sys.resetLow) = false := by rw [hpad]; rfl
    unfold execResetNRelease
    unfold released at hgoes ⊢
    dsimp only
    rw [hlow, if_neg Bool.false_ne_true, hgoes, if_neg Bool.false_ne_true]
  refine ⟨_, hout, ?_⟩
  have hrole : (released r s).sys.role = r := rfl
  have hdone' : (released r s).sys.factoryDone = true := hdone
  have hruns : (released r s).store.runs = s.store.runs := rfl
  rw [← hruns]
  generalize released r s = c at *
  split
  · have hup := resetAndBoot_up true hcan hdone' hsound'
    have hlow : (clearPower true c).sys.resetLow = c.sys.resetLow := congrArg Footing.resetLow (clearPower_footing true c)
    exact ⟨hup.up ((clearPower_role true c).trans hrole), hup.resetLow.trans (hlow.trans hcan.pad)⟩
  · have hup := boot_up hcan hdone' hsound'
    exact ⟨hup.up hrole, hup.resetLow.trans hcan.pad⟩

theorem refClockRestored_up (hheld : s.sys.refHeld = true) (hpad : s.sys.resetLow = false) (hdone : s.sys.factoryDone = true) :
    Gives (.refClockRestored r) s fun t =>
      Up s.store.runs r t ∧ t.sys.refHeld = false ∧ getF t Reg.PWR_STATUS_XTAL_FAIL = 0 := by
  have hread {f : Field} (hf : f.key ≠ Reg.PWR_STATUS_XTAL_FAIL.key) : getF (referenced r s) f = getF s f :=
    getF_setF_other (s := (sampleMsel r s).updSys fun y => { y with refHeld := false }) hr hf 0
  have hshown : getF (referenced r s) Reg.PWR_STATUS_XTAL_FAIL = 0 :=
    getF_setF_same (s := (sampleMsel r s).updSys fun y => { y with refHeld := false }) hr _ 0
  have hcan : CanBoot (referenced r s) := ⟨hmain, hpad, rfl, setF_regs_rising hr _ _⟩
  have hsound' : ActiveSound (referenced r s) := {
    active := hsound.active
    sound := (bootCheck_images rfl _).trans hsound.sound
    closed := (installer_congr (hread (by decide))).trans hsound.closed }
  have hgoes : ((referenced r s).sys.mainGood && !(referenced r s).sys.resetLow) = true := by rw [hcan.main, hcan.pad]; rfl
  have hout : execRefClockRestored r s = .next (logEvent 0 1 0 (boot (referenced r s))) := by
    unfold execRefClockRestored
    unfold referenced at hgoes ⊢
    dsimp only
    rw [hheld, if_pos rfl, hgoes, if_pos rfl]
  refine ⟨_, hout, ?_⟩
  have hrole : (referenced r s).sys.role = r := rfl
  have hdone' : (referenced r s).sys.factoryDone = true := hdone
  have hruns : (referenced r s).store.runs = s.store.runs := rfl
  rw [← hruns]
  generalize referenced r s = c at *
  have hup := (boot_up hcan hdone' hsound').calm (logEvent_calm (source := 0) (code := 1) (value := 0) (.refl _))
  exact ⟨hup.up hrole, hup.refHeld.trans hcan.ref, (hup.reads _ rfl (by decide)).trans hshown⟩

theorem pfwReturnReset_up (hpfw : s.sys.pfwConfirmed = true) (hpow : powered s = true) (hpad : s.sys.resetLow = false)
    (href : s.sys.refHeld = false) (hdone : s.sys.factoryDone = true) :
    Gives (.pfwReturnReset r) s fun t =>
      Up s.store.runs r t ∧ (t.sw.k1 = false ∧ t.sw.k2 = false) ∧ t.sys.pfwConfirmed = false := by
  have hcan : CanBoot (sampleMsel r s) := ⟨hmain, hpad, href, hr⟩
  have hup := resetAndBoot_up true hcan hdone (hsound.ofParts rfl rfl)
  have hout : execPfwReturnReset r s = .next (resetAndBoot true none (sampleMsel r s)) :=
    congrArg Host.Outcome.next (if_pos (by rw [hpfw, hpow]; rfl))
  refine ⟨_, hout, hup.up (clearPower_role _ _), resetAndBoot_open hup, ?_⟩
  exact hup.pfwConfirmed.trans (congrArg Footing.pfwConfirmed (clearPower_footing true (sampleMsel r s)))

theorem factoryDoneBlown_up (hm : s.sys.mode = .factory) (hpad : s.sys.resetLow = false) (href : s.sys.refHeld = false) :
    Gives .factoryDoneBlown s fun t =>
      Up s.store.runs s.sys.role t ∧ (t.sw.k1 = false ∧ t.sw.k2 = false) ∧ t.sys.factoryDone = true := by
  have hcan : CanBoot (s.updSys fun y => { y with factoryDone := true }) := ⟨hmain, hpad, href, hr⟩
  have hup := resetAndBoot_up false hcan rfl (hsound.ofParts rfl rfl)
  refine ⟨_, congrArg Host.Outcome.next (if_pos hm), hup.up (clearPower_role _ _), resetAndBoot_open hup, ?_⟩
  exact hup.factoryDone.trans (clearPower_factoryDone _ _)

end

/-! ## An image received in INERT -/

theorem fwSlot_modFw_same {k : Nat} {f : FwSlot → FwSlot} : fwSlot k (modFw k f s) = f (fwSlot k s) := vector_get_set_same _ _ _

theorem fwSlot_modFw_other {j k : Nat} {f : FwSlot → FwSlot} (h : Fin.ofNat 2 j ≠ Fin.ofNat 2 k) :
    fwSlot j (modFw k f s) = fwSlot j s := vector_get_set_other _ h _

theorem otherSlot_ne {k : Nat} (h : k < 2) : Fin.ofNat 2 k ≠ Fin.ofNat 2 (1 - k) := by
  interval_cases k <;> decide

/-- A received image is staged, or rejected (R415). -/
theorem verifySlot_receiving (h : (fwSlot (inactiveSlot s) s).state = .receiving) :
    verifySlot s = modFw (inactiveSlot s) (fun _ =>
      let x := readSlot (inactiveSlot s) s
      if x.sound then { x with state := .staged, result := 0 } else { x with state := .rejected, result := imageRejected }) s :=
  if_neg (by rw [h]; exact not_not_intro rfl)

section
variable (hruns : s.store.runs < 2) (hrecv : (fwSlot (1 - s.store.runs) s).state = .receiving)
include hruns hrecv

theorem verifySlot_runsSlot : fwSlot s.store.runs (verifySlot s) = fwSlot s.store.runs s := by
  rw [verifySlot_receiving hrecv]
  exact fwSlot_modFw_other (otherSlot_ne hruns)

omit hruns in
theorem verifySlot_sound (hsound : (readSlot (1 - s.store.runs) s).sound = true) :
    fwSlot (1 - s.store.runs) (verifySlot s) = { readSlot (1 - s.store.runs) s with state := .staged, result := 0 } := by
  rw [verifySlot_receiving hrecv]
  exact fwSlot_modFw_same.trans (if_pos hsound)

omit hruns in
theorem verifySlot_unsound (hsound : (readSlot (1 - s.store.runs) s).sound = false) :
    fwSlot (1 - s.store.runs) (verifySlot s) = { readSlot (1 - s.store.runs) s with state := .rejected, result := imageRejected } := by
  rw [verifySlot_receiving hrecv]
  exact fwSlot_modFw_same.trans (if_neg (Bool.eq_false_iff.mp hsound))

end

/-- A slot waits with a sound image. -/
def stagedSound (s : State) : Bool := (List.range 2).any fun k => (fwSlot k s).state == .staged && (fwSlot k s).sound

theorem stagedSound_iff : stagedSound s = true ↔ ∃ k < 2, (fwSlot k s).state = .staged ∧ (fwSlot k s).sound = true := by
  simp [stagedSound]

theorem execInertImageReceived_eq (hm : s.sys.mode = .inert) (hwhy : getF s Reg.SYS_INERT_REASON_REASON = 1) :
    execInertImageReceived s =
      .next (if stagedSound (verifySlot s) then resetAndBoot false none (verifySlot s) else verifySlot s) :=
  congrArg Host.Outcome.next (if_pos ⟨hm, hwhy⟩)

theorem verifySlot_parts (s : State) :
    (verifySlot s).sys = s.sys ∧ (verifySlot s).regs = s.regs ∧ (verifySlot s).store.runs = s.store.runs := by
  unfold verifySlot
  dsimp only
  split
  · exact ⟨rfl, rfl, rfl⟩
  · exact ⟨rfl, rfl, rfl⟩

section
variable (hruns : s.store.runs < 2) (hm : s.sys.mode = .inert) (hwhy : getF s Reg.SYS_INERT_REASON_REASON = 1)
  (hrecv : (fwSlot (1 - s.store.runs) s).state = .receiving)
include hruns hm hwhy hrecv

/-- A sound image boots at once, beside a REJECTED one. -/
theorem inertImageReceived_boots (hsound : (readSlot (1 - s.store.runs) s).sound = true)
    (hrejected : (fwSlot s.store.runs s).state = .rejected) (hcheck : bootCheck (1 - s.store.runs) (verifySlot s) = true)
    (hcan : CanBoot s) (hdone : s.sys.factoryDone = true) (hi : installer s = false) :
    Gives .inertImageReceived s fun t => t.sys.mode = roleMode s.sys.role ∧ t.store.runs = 1 - s.store.runs ∧
      (fwSlot (1 - s.store.runs) t).state = .active := by
  have hout := execInertImageReceived_eq hm hwhy
  have hold := verifySlot_runsSlot hruns hrecv
  have hnew := verifySlot_sound hrecv hsound
  obtain ⟨hsys, hregs, hruns'⟩ := verifySlot_parts s
  generalize verifySlot s = v at *
  have hany : stagedSound v = true := stagedSound_iff.mpr ⟨1 - s.store.runs, by omega, by rw [hnew], by rw [hnew]; exact hsound⟩
  rw [if_pos hany] at hout
  have hcan' : CanBoot v := ⟨by rw [hsys]; exact hcan.main, by rw [hsys]; exact hcan.pad, by rw [hsys]; exact hcan.ref,
    by rw [hregs]; exact hcan.rising⟩
  have hdone' : v.sys.factoryDone = true := by rw [hsys]; exact hdone
  have hi' : installer v = false := (installer_of_regs hregs).trans hi
  have hrejected' : (fwSlot s.store.runs v).state = .rejected := by rw [hold]; exact hrejected
  have hstaged : (fwSlot (1 - s.store.runs) v).state = .staged := by rw [hnew]
  have hrole : (clearPower false v).sys.role = s.sys.role := by rw [clearPower_role, hsys]
  rw [← hruns'] at hruns hrejected' hstaged hcheck ⊢
  have hup := resetAndBoot_staged false hcan' hdone' hi' hruns hrejected' hstaged hcheck
  exact ⟨_, hout, (hup.up hrole).1, hup.runs, hup.active⟩

/-- An unsound image is rejected, and INERT goes on. -/
theorem inertImageReceived_rejects (hsound : (readSlot (1 - s.store.runs) s).sound = false)
    (hother : (fwSlot s.store.runs s).state ≠ .staged) :
    Gives .inertImageReceived s fun t => t.sys.mode = .inert ∧ (fwSlot (1 - s.store.runs) t).state = .rejected ∧
      (fwSlot (1 - s.store.runs) t).result = 0x60 := by
  have hout := execInertImageReceived_eq hm hwhy
  have hold := verifySlot_runsSlot hruns hrecv
  have hnew := verifySlot_unsound hrecv hsound
  obtain ⟨hsys, -, -⟩ := verifySlot_parts s
  generalize verifySlot s = v at *
  have hnone : ¬stagedSound v = true := by
    rw [stagedSound_iff]
    rintro ⟨k, hk, hstaged, -⟩
    have hcase : k = s.store.runs ∨ k = 1 - s.store.runs := by omega
    rcases hcase with rfl | rfl
    · rw [hold] at hstaged; exact hother hstaged
    · rw [hnew] at hstaged; nomatch hstaged
  rw [if_neg hnone] at hout
  exact ⟨_, hout, (congrArg Sys.mode hsys).trans hm, by rw [hnew], by rw [hnew]; rfl⟩

end

/-! ## VBACK, and the standby core -/

theorem vbackRise_backup (hm : s.sys.mode = .noPower) :
    Gives .vbackRise s fun t => t.sys.mode = .backup ∧ t.sys.vbackOk = true ∧ t.led = s.led := by
  have hother : (s.updSys fun y => { y with vbackOk := true }).sys.mode ≠ .backup := by rw [State.updSys_sys, hm]; nofun
  refine ⟨_, congrArg Host.Outcome.next (if_pos hm), ?_⟩
  rw [enterMode_other hother]
  exact ⟨rfl, rfl, rfl⟩

theorem standbyReady_ready (hbooted : s.sys.booted = true) (hm : s.sys.mode ≠ .inert) (hcore : s.sys.coreRetired = false)
    (hact : s.store.act = none) (hon : domainOn (standbyDomain s) s = true) :
    Gives .standbyReady s fun t => t = s.updSys fun y => { y with standbyReady := true } := by
  have hgoes : (s.sys.booted && !s.sys.coreRetired && s.store.act.isNone && domainOn (standbyDomain s) s &&
      s.sys.mode != .inert) = true := by simp [hbooted, hcore, hact, hon, hm]
  exact ⟨_, congrArg Host.Outcome.next (if_pos hgoes), rfl⟩

theorem standbyReady_retired (hcore : s.sys.coreRetired = true) : Gives .standbyReady s fun t => t = s := by
  have hstays : ¬(s.sys.booted && !s.sys.coreRetired && s.store.act.isNone && domainOn (standbyDomain s) s &&
      s.sys.mode != .inert) = true := by simp [hcore]
  exact ⟨_, congrArg Host.Outcome.next (if_neg hstays), rfl⟩

/-- A bit of SYS_HEALTH is set, and DB1 of mailbox 0 rings when it was not. -/
theorem setHealth_coreNoSpare (hr : risingFrom 0 s.regs = true) : getB (setHealth 0 s) Reg.SYS_HEALTH_CORE_NO_SPARE = true ∧
    (getB s Reg.SYS_HEALTH_CORE_NO_SPARE = false → (getF (setHealth 0 s) (Reg.MB_OUT_PEND_PEND 0)).testBit 1 = true) := by
  by_cases hset : getB s Reg.SYS_HEALTH_CORE_NO_SPARE = true
  · have hkept : setHealth 0 s = s := if_pos hset
    rw [hkept]
    exact ⟨hset, fun h => absurd hset (Bool.eq_false_iff.mp h)⟩
  · have hnew : setHealth 0 s = raiseFw 0x2C 0 (ringOut 0 1 (setF Reg.SYS_HEALTH_CORE_NO_SPARE 1 s)) := if_neg hset
    have hbit : getF (setF Reg.SYS_HEALTH_CORE_NO_SPARE 1 s) Reg.SYS_HEALTH_CORE_NO_SPARE = 1 := getF_setF_same hr _ _
    have hrise := setF_regs_rising hr Reg.SYS_HEALTH_CORE_NO_SPARE 1
    rw [hnew]
    generalize setF Reg.SYS_HEALTH_CORE_NO_SPARE 1 s = t at *
    have hring : Calm [0x80] t (ringOut 0 1 t) := ringOut_calm (by decide) (.refl t)
    have hrings := ringOut_rings hrise (d := 1) (by decide)
    have hrise' := hring.rising hrise
    have hread := hring.reads hrise Reg.SYS_HEALTH_CORE_NO_SPARE (by decide) (by decide)
    generalize ringOut 0 1 t = u at *
    have hevent : Calm [0x80] u (raiseFw 0x2C 0 u) := raiseFw_calm (.refl u)
    refine ⟨?_, fun _ => hevent.rings hrise' 1 (by decide) hrings⟩
    unfold getB
    rw [hevent.reads hrise' Reg.SYS_HEALTH_CORE_NO_SPARE (by decide) (by decide), hread, hbit]
    rfl

theorem standbyReadyTimeout_notes (hr : risingFrom 0 s.regs = true) (hbooted : s.sys.booted = true) (hm : s.sys.mode ≠ .inert)
    (hon : domainOn 7 s = true) (hnot : s.sys.standbyReady = false) :
    Gives .standbyReadyTimeout s fun t => getB t Reg.SYS_HEALTH_CORE_NO_SPARE = true ∧
      (getB s Reg.SYS_HEALTH_CORE_NO_SPARE = false → (getF t (Reg.MB_OUT_PEND_PEND 0)).testBit 1 = true) := by
  have hgoes : (s.sys.booted && domainOn 7 s && !s.sys.standbyReady && s.sys.mode != .inert) = true := by
    simp [hbooted, hon, hnot, hm]
  exact ⟨_, congrArg Host.Outcome.next (if_pos hgoes), setHealth_coreNoSpare hr⟩

theorem standbyReadyTimeout_ready (hready : s.sys.standbyReady = true) : Gives .standbyReadyTimeout s fun t => t = s := by
  have hstays : ¬(s.sys.booted && domainOn 7 s && !s.sys.standbyReady && s.sys.mode != .inert) = true := by simp [hready]
  exact ⟨_, congrArg Host.Outcome.next (if_neg hstays), rfl⟩

end

end Sys2Proof.Machine

open Sys2Proof Sys2Proof.Machine

/-- Settles O52: a start-up clears what it clears and boots; each boot step leaves alone what the boot rests on (the footing, the
images, the presence windows, what is off), though the configuration's own registers are written, and the mode follows from the
image, the fuse and the windows. That the lock's reading outlives a reset, and so decides the unlock pulse of INERT, is the model's
choice (assumption logs 9 and 27). -/
theorem startUps : Obligations.StartUps := by
  unfold Obligations.StartUps
  intro r s hwf hruns
  have hr := regs_rising hwf
  dsimp only
  refine ⟨?_, ?_, ?_, ?_, ?_, ?_, ?_, ?_, ?_, ?_, ?_, ?_, ?_, ?_, ?_, ?_⟩
  · intro hoff hpad href
    refine ⟨fun hdone ⟨ha, hb, hi⟩ => suppliesGood_up hr hoff hpad href hdone ⟨ha, hb, hi⟩, fun hdone ⟨ha, hb, hi⟩ => ⟨?_, ?_⟩, ?_⟩
    · exact fun hm => suppliesGood_factory hr hoff hpad href hdone ⟨ha, hb, hi⟩ hm
    · exact fun hm => suppliesGood_incomplete hr hoff hpad href hdone ⟨ha, hb, hi⟩ hm
    · exact fun hnone => suppliesGood_imageless hr hoff hpad href hruns hnone
  · exact fun hoff hpad => ⟨_, congrArg Host.Outcome.next (suppliesGood_held hoff hpad), rfl⟩
  · exact fun hm => ⟨_, congrArg Host.Outcome.next (suppliesGood_inService hm), rfl⟩
  · exact fun hpad hmain href hdone ⟨ha, hb, hi⟩ => resetNRelease_up hr hmain ⟨ha, hb, hi⟩ hpad href hdone
  · exact fun hpad => ⟨s, congrArg Host.Outcome.next (if_pos (by rw [hpad]; rfl)), rfl⟩
  · exact fun hheld hmain hpad hdone ⟨ha, hb, hi⟩ => refClockRestored_up hr hmain ⟨ha, hb, hi⟩ hheld hpad hdone
  · exact fun hheld => ⟨s, congrArg Host.Outcome.next (if_neg (Bool.eq_false_iff.mp hheld)), rfl⟩
  · intro hpfw hpow hpad href hdone ⟨ha, hb, hi⟩
    have hmain : s.sys.mainGood = true := by
      unfold powered at hpow
      exact (Bool.and_eq_true_iff.mp hpow).1
    exact pfwReturnReset_up hr hmain ⟨ha, hb, hi⟩ hpfw hpow hpad href hdone
  · intro hnone
    have hstays : ¬(s.sys.pfwConfirmed && powered s) = true := by rcases hnone with h | h <;> simp [h]
    exact ⟨s, congrArg Host.Outcome.next (if_neg hstays), rfl⟩
  · exact fun hm hmain hpad href ⟨ha, hb, hi⟩ => factoryDoneBlown_up hr hmain ⟨ha, hb, hi⟩ hm hpad href
  · exact fun hm => ⟨s, congrArg Host.Outcome.next (if_neg hm), rfl⟩
  · intro hm hwhy hrecv
    refine ⟨fun hsound hrejected hcheck hmain hpad href hdone hi => ?_, fun hsound hother => ?_⟩
    · exact inertImageReceived_boots hruns hm hwhy hrecv hsound hrejected hcheck ⟨hmain, hpad, href, hr⟩ hdone hi
    · exact inertImageReceived_rejects hruns hm hwhy hrecv hsound hother
  · exact fun hnot => ⟨s, congrArg Host.Outcome.next (if_neg (by tauto)), rfl⟩
  · exact vbackRise_backup
  · exact fun hm => ⟨_, congrArg Host.Outcome.next (if_neg hm), rfl⟩
  · intro hbooted hm
    refine ⟨fun hcore hact hon => ?_, standbyReady_retired, fun hon hnot => ?_, standbyReadyTimeout_ready⟩
    · exact standbyReady_ready hbooted hm hcore hact hon
    · exact standbyReadyTimeout_notes hr hbooted hm hon hnot

end

section
/-! SUPPORT. The scheduler's operations: what becomes of the strand they name, that they leave the other strands as they are, and
that none of them gives the engine to a strand by the way. -/
namespace Sys2Proof.Machine

@[simp] theorem getS_updCap (s : State) (f : Cap → Cap) (m : Fin 320) : getS (s.updCap f) m = (f s.cap).strand m := rfl

/-! ## Strands that leave the engine, join a queue or become READY (03 R42, R48) -/

section
variable {n m : Fin 320} {c : Cap}

@[simp] theorem Cap.strand_join : (c.join n).strand m = c.strand m := by
  unfold Cap.join
  split <;> rfl

@[simp] theorem Cap.running_join : (c.join n).running = c.running := by
  unfold Cap.join
  split <;> rfl

theorem Cap.strand_makeReady_same (hm : Nat) (fresh : Bool) :
    (c.makeReady hm fresh n).strand n = { (c.strand n).activation hm fresh with st := .ready } := by
  unfold Cap.makeReady
  rw [Cap.strand_join, Cap.strand_modStrand_same]
  rfl

theorem Cap.strand_makeReady_other (h : m ≠ n) (hm : Nat) (fresh : Bool) : (c.makeReady hm fresh n).strand m = c.strand m := by
  unfold Cap.makeReady
  rw [Cap.strand_join, Cap.strand_modStrand_other h]
  rfl

@[simp] theorem Cap.caseMem_makeReady (hm : Nat) (fresh : Bool) : (c.makeReady hm fresh n).caseMem = c.caseMem := by
  unfold Cap.makeReady Cap.join
  split <;> rfl

theorem Cap.strand_stopIn_same (st : StrandState) : (c.stopIn st n).strand n = { c.strand n with st := st } :=
  Cap.strand_modStrand_same n _ _

theorem Cap.strand_stopIn_other (h : m ≠ n) (st : StrandState) : (c.stopIn st n).strand m = c.strand m :=
  Cap.strand_modStrand_other h _ _

theorem Cap.strand_tryWake_other (h : m ≠ n) (hm : Nat) : (c.tryWake hm n).strand m = c.strand m := by
  unfold Cap.tryWake
  dsimp only
  split
  · split
    · exact Cap.strand_makeReady_other h hm true
    · rfl
  · rfl

/-- A strand that leaves the engine leaves it empty. -/
theorem Cap.running_stopIn (st : StrandState) (h : c.running = some n ∨ c.running = none) : (c.stopIn st n).running = none := by
  show (if c.running = some n then none else c.running) = none
  rcases h with h | h <;> simp [h]

end

/-! ## The lowest selected slot (03 R44) -/

/-- Slot `i`, 8 for the timer, is selected and pending. -/
def slotReady (mask : BitVec 9) (pending : BitVec 8) (timer : Bool) (i : Nat) : Bool :=
  mask.getLsbD i && (if i = 8 then timer else pending.getLsbD i)

section
variable {mask : BitVec 9} {pending : BitVec 8} {timer : Bool} {i : Nat}

/-- The slots and then the timer are one search over nine numbers. -/
theorem lowestSelected_eq_find (mask : BitVec 9) (pending : BitVec 8) (timer : Bool) :
    lowestSelected mask pending timer = (List.range 9).find? (slotReady mask pending timer) := by
  have hslots : (List.range 8).find? (fun i => mask.getLsbD i && pending.getLsbD i) =
      (List.range 8).find? (slotReady mask pending timer) := by
    refine List.find?_congr fun j hj => ?_
    have hj8 : j ≠ 8 := (List.mem_range.mp hj).ne
    simp [slotReady, hj8]
  rw [List.range_succ, List.find?_append, lowestSelected, hslots]
  cases hfind : (List.range 8).find? (slotReady mask pending timer) with
  | some j => rfl
  | none => rw [Option.none_or, List.find?_singleton]; rfl

theorem lowestSelected_eq_some (hi : i ≤ 8) (hready : slotReady mask pending timer i = true)
    (hlow : ∀ j, j < i → slotReady mask pending timer j = false) : lowestSelected mask pending timer = some i := by
  rw [lowestSelected_eq_find, List.find?_range_eq_some]
  exact ⟨hready, List.mem_range.mpr (by omega), fun j hj => by simp [hlow j hj]⟩

theorem lowestSelected_eq_none (h : ∀ i, i ≤ 8 → slotReady mask pending timer i = false) :
    lowestSelected mask pending timer = none := by
  rw [lowestSelected_eq_find, List.find?_eq_none]
  intro i hi
  simp [h i (Nat.lt_succ_iff.mp (List.mem_range.mp hi))]

theorem lowestSelected_isSome (hi : i ≤ 8) (hready : slotReady mask pending timer i = true) :
    (lowestSelected mask pending timer).isSome = true := by
  rw [lowestSelected_eq_find, List.find?_isSome]
  exact ⟨i, List.mem_range.mpr (by omega), hready⟩

end

/-- A WAITING strand with a selected slot pending wakes (03 R42). -/
theorem Cap.strand_tryWake_ready {n : Fin 320} {c : Cap} {k : BitVec 9} {i hm : Nat} (hst : (c.strand n).st = .waiting)
    (hmask : (c.strand n).waitMask = some k) (hi : i ≤ 8)
    (hready : slotReady k (c.strand n).pending (c.strand n).timerFired i = true) : ((c.tryWake hm n).strand n).st = .ready := by
  have hsome := lowestSelected_isSome hi hready
  unfold Cap.tryWake
  simp only [hst, hmask, hsome, if_true, Cap.strand_makeReady_same]

end Sys2Proof.Machine
end

section
/-! SUPPORT. Whom the scheduler gives the engine (03 R42 to R48). -/
namespace Sys2Proof.Machine

section
variable {n r : Fin 320} {s u : State} {c : Cap} {turn : Nat} {ws : Vector Nat 3} {rest : List (Fin 320)}

/-- The strand that is granted the engine has it. -/
theorem grant_running (h : grant n s = some u) : u.cap.running = some n := by
  unfold grant at h
  dsimp only at h
  split at h
  · exact nomatch h
  · split at h
    · next hrun => cases h; exact hrun
    · exact nomatch h

/-- With a clock, the grant is what the schedule decides. -/
theorem grant_eq (hclock : fCap s ≠ 0) (n : Fin 320) :
    grant n s = if (s.cap.schedule (turnLen s) (weightsNow s)).running = some n then
      some (s.updCap (Cap.schedule (turnLen s) (weightsNow s))) else none := if_neg hclock

theorem grant_of_schedule (hclock : fCap s ≠ 0) {d : Cap} (hd : s.cap.schedule (turnLen s) (weightsNow s) = d)
    (hrun : d.running = some n) : grant n s = some (s.updCap fun _ => d) := by
  rw [grant_eq hclock, hd, if_pos hrun, ← hd]
  rfl

/-! ## The strand that is started -/

theorem Cap.strand_start_same :
    (c.start turn n).strand n = { (c.strand n).takeWake with st := .running, turnLeft := turn } :=
  Cap.strand_modStrand_same n _ _

theorem Cap.strand_start_other (h : r ≠ n) : (c.start turn n).strand r = c.strand r := Cap.strand_modStrand_other h _ _

/-! ## Turns that are not due -/

theorem Cap.dueTurnEnd_idle (h : c.running = none) : c.dueTurnEnd = c := by simp [Cap.dueTurnEnd, h]

theorem Cap.dueTurnEnd_classZero (h : c.running = some r) (hcls : (c.strand r).cls = 0) : c.dueTurnEnd = c := by
  simp [Cap.dueTurnEnd, h, hcls]

theorem Cap.dueTurnEnd_turnLeft (h : c.running = some r) (hleft : (c.strand r).turnLeft ≠ 0) : c.dueTurnEnd = c := by
  simp [Cap.dueTurnEnd, h, hleft]

/-! ## The four rules of class 0 -/

/-- With no strand on the engine the first one woken starts. -/
theorem Cap.schedule_first (hq : c.q0 = n :: rest) (hrun : c.running = none) :
    c.schedule turn ws = ({ c with q0 := rest } : Cap).start turn n := by
  simp [Cap.schedule, Cap.dueTurnEnd_idle hrun, hq, hrun]

/-- Class 0 cuts in on a strand of classes 1 to 3, which is kept. -/
theorem Cap.schedule_cutIn (hq : c.q0 = n :: rest) (hrun : c.running = some r) (hcls : (c.strand r).cls ≠ 0)
    (hleft : (c.strand r).turnLeft ≠ 0) :
    c.schedule turn ws = ({ c with q0 := rest, interrupted := some r } : Cap).start turn n := by
  simp [Cap.schedule, Cap.dueTurnEnd_turnLeft hrun hleft, hq, hrun, hcls]

/-- A running class-0 strand keeps the engine. -/
theorem Cap.schedule_classZero (hrun : c.running = some r) (hcls : (c.strand r).cls = 0) : c.schedule turn ws = c := by
  simp [Cap.schedule, Cap.dueTurnEnd_classZero hrun hcls, hrun, hcls]

/-- With no class-0 strand READY the interrupted strand has the engine again. -/
theorem Cap.schedule_resumes (hq : c.q0 = []) (hrun : c.running = none) (hint : c.interrupted = some n) :
    c.schedule turn ws = { c with running := some n, interrupted := none } := by
  simp [Cap.schedule, Cap.dueTurnEnd_idle hrun, hq, hrun, hint]

end

end Sys2Proof.Machine

open Sys2Proof Sys2Proof.Machine

/-- Settles O17: each clause is one rule of the schedule, read off the strand it starts or keeps. -/
theorem classZeroGoesFirst : Obligations.ClassZeroGoesFirst := by
  unfold Obligations.ClassZeroGoesFirst
  intro n s hclock
  refine ⟨fun rest hq hrun => ?_, fun rest r hq hrun hcls hleft => ?_, fun r hrun hcls => ?_, fun hrun hq hint => ?_⟩
  · exact ⟨_, grant_of_schedule hclock (Cap.schedule_first hq hrun) rfl, rfl, congrArg Strand.st Cap.strand_start_same, rfl⟩
  · have hcut := Cap.schedule_cutIn (turn := turnLen s) (ws := weightsNow s) hq hrun hcls hleft
    refine ⟨⟨_, grant_of_schedule hclock hcut rfl, rfl, congrArg Strand.st Cap.strand_start_same, rfl,
      fun hr => Cap.strand_start_other hr⟩, fun hr => ?_⟩
    exact (grant_eq hclock r).trans (if_neg fun h => hr (Option.some.inj ((congrArg Cap.running hcut).symm.trans h)).symm)
  · rw [grant_eq hclock, Cap.schedule_classZero hrun hcls, hrun]
    by_cases h : n = r
    · simp [h]
    · simp [h, Ne.symm h]
  · exact ⟨_, grant_of_schedule hclock (Cap.schedule_resumes hq hrun hint) rfl, rfl, rfl, rfl⟩

end

section
/-! SUPPORT. WAIT: the slot it takes, or the strand it stops (03 R42, R44, 04 R86). -/
namespace Sys2Proof.Machine

/-! ## Changes of one strand, one after the other -/

theorem modS_modS (n : Fin 320) (f g : Strand → Strand) (s : State) : modS n f (modS n g s) = modS n (f ∘ g) s := by
  simp only [modS, State.updCap, Cap.modStrand, Cap.setStrand, Cap.strand, vector_get_set_same, Vector.set_set, Function.comp]

theorem modS_congr {n : Fin 320} {f g : Strand → Strand} {s : State} (h : f (getS s n) = g (getS s n)) :
    modS n f s = modS n g s := by
  show s.updCap (fun c => c.setStrand n (f (c.strand n))) = s.updCap fun c => c.setStrand n (g (c.strand n))
  exact congrArg (fun t => s.updCap fun c => c.setStrand n t) h

/-! ## A slot is taken -/

/-- The strand finds the number `i` of the slot in w1, and that slot is no longer pending (03 R44). -/
def Strand.takeSlot (i : Nat) (t : Strand) : Strand :=
  if i = 8 then { setW 1 8 t with timerFired := false }
  else { setW 1 (BitVec.ofNat 32 i) t with pending := t.pending &&& ~~~(BitVec.ofNat 8 (2 ^ i)) }

section
variable (i : Nat) (t : Strand)

/-- What a taken slot leaves of the strand. -/
theorem Strand.takeSlot_frame : t.takeSlot i =
    { t with w := (t.takeSlot i).w, pending := (t.takeSlot i).pending, timerFired := (t.takeSlot i).timerFired } := by
  unfold Strand.takeSlot setW
  split <;> rfl

theorem Strand.getW_takeSlot (j : Fin 16) : getW (t.takeSlot i) j = if j = 1 then BitVec.ofNat 32 i else getW t j := by
  have hset (v : Word) : getW (setW 1 v t) j = if j = 1 then v else getW t j := by
    rw [getW_setW]
    exact if_congr (and_iff_left_of_imp fun h => h ▸ by decide) rfl rfl
  unfold Strand.takeSlot
  split
  · next h => subst h; exact hset _
  · exact hset _

theorem Strand.pending_takeSlot {j : Nat} (hj : j < 8) :
    (t.takeSlot i).pending.getLsbD j = (t.pending.getLsbD j && decide (j ≠ i)) := by
  unfold Strand.takeSlot
  split
  · next h => subst h; simp [setW, hj.ne]
  · rw [BitVec.getLsbD_and, BitVec.getLsbD_not, BitVec.getLsbD_ofNat, Nat.testBit_two_pow]
    simp [hj, eq_comm]

theorem Strand.timerFired_takeSlot : (t.takeSlot i).timerFired = (t.timerFired && decide (i ≠ 8)) := by
  unfold Strand.takeSlot
  split
  · next h => simp [h]
  · next h => simp [setW, h]

variable {i t}

/-- The strand whose WAIT selects a pending slot takes the lowest one as it issues again. -/
theorem Strand.takeWake_slot {k : BitVec 9} (hres : t.galley.bind (·.resolved) = none) (hmask : t.waitMask = some k)
    (hlow : lowestSelected k t.pending t.timerFired = some i) :
    t.takeWake = ({ t with waitMask := none } : Strand).takeSlot i := by
  unfold Strand.takeWake Strand.takeSlot
  simp only [hres, hmask, hlow, Option.isSome_none, Bool.false_eq_true, if_false]
  split
  · next h => subst h; rfl
  · simp only [setW]; rfl

end

/-! ## The two outcomes of a WAIT -/

section
variable {n : Fin 320} {mask : BitVec 9} {i : Nat} {u : State}

/-- The strand past its WAIT, with the subscriptions in force that it had written (03 R43). -/
def Strand.pastWait (t : Strand) : Strand := (t.advance 1 1).waitBoundary

/-- What the WAIT itself leaves of the strand: the subscriptions come into force and its issue is charged. -/
theorem Strand.pastWait_frame (t : Strand) : t.pastWait =
    { t with subOn := t.sub, enOn := t.en, pc := t.pc + 1, used := t.pastWait.used, hwm := t.pastWait.hwm
             turnLeft := t.pastWait.turnLeft, bpPass := false, reserved := false } := by
  unfold Strand.pastWait Strand.waitBoundary Strand.advance Strand.charge
  split <;> rfl

theorem getS_modS_pastWait : getS (modS n (fun t => (t.advance 1 1).waitBoundary) u) n = (getS u n).pastWait :=
  getS_modS_same n _ u

/-- The strand that issues past its WAIT with slot `i`. -/
def Strand.waitTaken (i : Nat) (t : Strand) : Strand := ({ t.pastWait with waitMask := none } : Strand).takeSlot i

/-- A pending slot is taken; a class-0 strand goes on in a new activation (03 R50). -/
theorem waitEffect_takes (hres : (getS u n).galley.bind (·.resolved) = none)
    (hlow : lowestSelected mask (getS u n).pending (getS u n).timerFired = some i) :
    waitEffect n mask u = if (getS u n).cls = 0 then (modS n (Strand.waitTaken i) u).updCap (Cap.makeReady (hmaxNow u) true n)
      else modS n (Strand.waitTaken i) u := by
  have hpast : lowestSelected mask (getS u n).pastWait.pending (getS u n).pastWait.timerFired = some i := by
    rw [Strand.pastWait_frame]; exact hlow
  have hcls : (getS u n).pastWait.cls = (getS u n).cls := by rw [Strand.pastWait_frame]
  have hwake : Strand.takeWake { (getS u n).pastWait with waitMask := some mask } = (getS u n).waitTaken i := by
    refine Strand.takeWake_slot ?_ rfl hpast
    rw [Strand.pastWait_frame]; exact hres
  have hmod : modS n (fun t => Strand.takeWake { t with waitMask := some mask }) (modS n Strand.pastWait u) =
      modS n (Strand.waitTaken i) u := by rw [modS_modS, modS_congr hwake]
  rw [← hmod, ← hcls, waitEffect]
  simp only [getS_modS_pastWait, hpast]
  rfl

/-- With none pending the strand leaves the engine WAITING. -/
theorem waitEffect_stops (hnone : lowestSelected mask (getS u n).pending (getS u n).timerFired = none) :
    waitEffect n mask u = (modS n Strand.pastWait u).updCap fun c =>
      (c.stopIn .waiting n).modStrand n fun t => { t with waitMask := some mask } := by
  have hpast : lowestSelected mask (getS u n).pastWait.pending (getS u n).pastWait.timerFired = none := by
    rw [Strand.pastWait_frame]; exact hnone
  rw [waitEffect]
  simp only [getS_modS_pastWait, hpast]
  rfl

/-- The strand that its WAIT does not stop; in class 0 it is READY, in a new activation. -/
theorem getS_waitEffect_takes (hres : (getS u n).galley.bind (·.resolved) = none)
    (hlow : lowestSelected mask (getS u n).pending (getS u n).timerFired = some i) :
    getS (waitEffect n mask u) n = if (getS u n).cls = 0 then
      { ((getS u n).waitTaken i).activation (hmaxNow u) true with st := .ready } else (getS u n).waitTaken i := by
  rw [waitEffect_takes hres hlow]
  split
  · rw [getS_updCap, Cap.strand_makeReady_same, ← getS_modS_same n (Strand.waitTaken i) u]
    rfl
  · exact getS_modS_same n _ u

section
variable (hnone : lowestSelected mask (getS u n).pending (getS u n).timerFired = none)
include hnone

theorem getS_waitEffect_stops :
    getS (waitEffect n mask u) n = { (getS u n).pastWait with st := .waiting, waitMask := some mask } := by
  rw [waitEffect_stops hnone, getS_updCap, Cap.strand_modStrand_same, Cap.strand_stopIn_same,
    ← getS_modS_same n Strand.pastWait u]
  rfl

theorem waitEffect_stops_running (hrun : u.cap.running = some n) : (waitEffect n mask u).cap.running = none := by
  rw [waitEffect_stops hnone]
  exact Cap.running_stopIn .waiting (.inl hrun)

theorem waitEffect_stops_other {m : Fin 320} (hm : m ≠ n) : getS (waitEffect n mask u) m = getS u m := by
  rw [waitEffect_stops hnone, getS_updCap, Cap.strand_modStrand_other hm, Cap.strand_stopIn_other hm]
  exact getS_modS_other hm _ _

end

end

/-! ## What a WAIT leaves -/

section
variable {n : Fin 320} {i : Nat} {t : Strand}

theorem Strand.waitTaken_frame : t.waitTaken i =
    { t.pastWait with waitMask := none, w := (t.waitTaken i).w, pending := (t.waitTaken i).pending
                      timerFired := (t.waitTaken i).timerFired } := Strand.takeSlot_frame i _

theorem Strand.getW_waitTaken (j : Fin 16) : getW (t.waitTaken i) j = if j = 1 then BitVec.ofNat 32 i else getW t j := by
  rw [Strand.waitTaken, Strand.getW_takeSlot, ← getW_advance 1 1 t]
  rfl

theorem Strand.pending_waitTaken {j : Nat} (hj : j < 8) :
    (t.waitTaken i).pending.getLsbD j = (t.pending.getLsbD j && decide (j ≠ i)) := by
  rw [Strand.waitTaken, Strand.pending_takeSlot i _ hj, Strand.pastWait_frame]

theorem Strand.timerFired_waitTaken : (t.waitTaken i).timerFired = (t.timerFired && decide (i ≠ 8)) := by
  rw [Strand.waitTaken, Strand.timerFired_takeSlot, Strand.pastWait_frame]

/-- What a WAIT leaves in the strand it does not stop, whether or not it begins a new activation. -/
theorem Strand.waitTaken_reads {x : Strand} (hx : x = { t.waitTaken i with st := x.st, used := x.used, hmax := x.hmax }) :
    getW x 1 = BitVec.ofNat 32 i ∧ (∀ j : Fin 16, j ≠ 1 → getW x j = getW t j) ∧
    (∀ j, j < 8 → x.pending.getLsbD j = (t.pending.getLsbD j && decide (j ≠ i))) ∧
    x.timerFired = (t.timerFired && decide (i ≠ 8)) ∧ x.pc = t.pc + 1 ∧ x.subOn = t.sub ∧ x.enOn = t.en := by
  have hw (j : Fin 16) : getW x j = if j = 1 then BitVec.ofNat 32 i else getW t j := by
    rw [← Strand.getW_waitTaken, hx]; rfl
  refine ⟨hw 1, fun j hj => (hw j).trans (if_neg hj), fun j hj => ?_, ?_, ?_, ?_, ?_⟩
  · rw [← Strand.pending_waitTaken hj, hx]
  · rw [← Strand.timerFired_waitTaken, hx]
  all_goals rw [hx, Strand.waitTaken_frame, Strand.pastWait_frame]

theorem waitTaken_or_activated {hm : Nat} {p : Prop} [Decidable p] {x : Strand}
    (hx : x = if p then { (t.waitTaken i).activation hm true with st := .ready } else t.waitTaken i) :
    x = { t.waitTaken i with st := x.st, used := x.used, hmax := x.hmax } := by
  rw [hx]
  split <;> rfl

/-- A WAIT with its reserved bits 0 and a slot selected is legal, so that with a true guard it has its effect. -/
theorem wait_runs {b : BitVec 26} {s u : State} (h : Issues n 1 1 s u) (hguard : getP (getS u n) (fieldG b) = true)
    (hbits : bits b.toNat 9 15 = 0) (hmask : fieldMask b ≠ 0) :
    exec (.wait n b) s = .next (waitEffect n (fieldMask b) u) := by
  have hmask' : ¬fieldMask b = 0#9 := hmask
  have hearly : (opWait n b).early = none := by simp [opWait, firstFault, hbits, hmask']
  exact congrArg Host.Outcome.next
    (Issue.run_effect h.granted h.unresolved h.noBreak h.budget h.inForme hearly hguard rfl)

end

end Sys2Proof.Machine

open Sys2Proof Sys2Proof.Machine

/-- Settles O10: a WAIT takes the lowest selected slot that is pending, or stops the strand. That the timer's slot stays pending
until a WAIT takes it is the model's reading (assumption log 19). -/
theorem waitTakesTheLowestSlot : Obligations.WaitTakesTheLowestSlot := by
  unfold Obligations.WaitTakesTheLowestSlot
  intro n b s u hissues hguard hbits hmask
  have hrun := wait_runs hissues hguard hbits hmask
  refine ⟨fun i hi hready hlower => ⟨_, hrun, ?_⟩, fun hnone => ⟨_, hrun, ?_⟩⟩
  · have hn := getS_waitEffect_takes hissues.unresolved (lowestSelected_eq_some hi hready hlower)
    obtain ⟨hw1, hw, hpend, htimer, hpc, hsub, hen⟩ := Strand.waitTaken_reads (waitTaken_or_activated hn)
    refine ⟨hw1, hw, hpend, htimer, hpc, hsub, hen, fun hcls => ?_⟩
    rw [hn, if_pos hcls]
    exact ⟨rfl, rfl⟩
  · have hstop := lowestSelected_eq_none hnone
    have hn := getS_waitEffect_stops (n := n) hstop
    have hst : (getS (waitEffect n (fieldMask b) u) n).st = .waiting := by rw [hn]
    have hwait : (getS (waitEffect n (fieldMask b) u) n).waitMask = some (fieldMask b) := by rw [hn]
    have hpc : (getS (waitEffect n (fieldMask b) u) n).pc = (getS u n).pc + 1 := by rw [hn, Strand.pastWait_frame]
    have hw (j : Fin 16) : getW (getS (waitEffect n (fieldMask b) u) n) j = getW (getS u n) j := by
      rw [hn, ← getW_advance 1 1 (getS u n)]; rfl
    exact ⟨hst, hwait, hpc, hw, waitEffect_stops_running hstop (grant_running hissues.granted),
      fun m hm => waitEffect_stops_other hstop hm⟩

end

section
/-! SUPPORT. What an event does to each strand, one strand at a time: the pending bits it sets, whom it wakes, the galleys it
resolves (03 R43, R44, 04 R88). -/
namespace Sys2Proof.Machine

section
variable {hm : Nat} {ev : BitVec 8} {w : Word} {n m : Fin 320} {c : Cap} {r : Resolution} {call : Option Nat} {spent : Bool}

/-! ## An event that reaches one strand leaves the others -/

theorem Cap.strand_notify_other (h : m ≠ n) : (c.notify hm ev n).strand m = c.strand m := by
  unfold Cap.notify
  dsimp only
  split
  · rfl
  · split
    · rfl
    · rw [Cap.strand_tryWake_other h, Cap.strand_modStrand_other h]

theorem Cap.strand_resolve_other (h : m ≠ n) : (c.resolve hm r n).strand m = c.strand m := by
  have hmod (f : Strand → Strand) (d : Cap) := Cap.strand_modStrand_other h f d
  unfold Cap.resolve
  dsimp only
  split
  · rfl
  · split
    · rfl
    · split
      · exact hmod _ _
      · exact (hmod _ _).trans (hmod _ _)
      · exact hmod _ _
      · exact hmod _ _
      · exact (Cap.strand_makeReady_other h _ _).trans (hmod _ _)

theorem Cap.strand_reach_other (h : m ≠ n) : (c.reach hm ev w call spent n).strand m = c.strand m := by
  unfold Cap.reach
  rw [Cap.strand_notify_other h]
  split
  · rfl
  · unfold Cap.resolveOn
    split
    · rfl
    · split
      · exact Cap.strand_resolve_other h
      · rfl

/-! ## Every strand is reached once -/

/-- What holds of a strand however the Capstan about it stands when the event reaches it, holds of it after the event. -/
theorem Cap.strand_raise {P : Strand → Prop}
    (h : ∀ d : Cap, d.strand m = c.strand m → P ((d.reach hm ev w call spent m).strand m)) :
    P ((c.raise hm ev w call spent).strand m) := by
  have hskip (l : List (Fin 320)) (hl : m ∉ l) (d : Cap) :
      (l.foldl (fun c n => c.reach hm ev w call spent n) d).strand m = d.strand m := by
    induction l generalizing d with
    | nil => rfl
    | cons n l ih =>
      rw [List.mem_cons, not_or] at hl
      exact (ih hl.2 _).trans (Cap.strand_reach_other hl.1)
  obtain ⟨before, after, hsplit⟩ := List.append_of_mem (List.mem_finRange m)
  have hnodup := List.nodup_finRange 320
  rw [hsplit, List.nodup_append] at hnodup
  obtain ⟨-, hafter, hdisjoint⟩ := hnodup
  unfold Cap.raise allStrands
  rw [hsplit, List.foldl_append, List.foldl_cons, hskip after (List.nodup_cons.mp hafter).1]
  exact h _ (hskip before (fun hin => hdisjoint m hin m List.mem_cons_self rfl) c)

/-! ## The pending bits (03 R43) -/

/-- The slots that an event hits are those enabled that name it. -/
theorem hitMask_getLsbD (t : Strand) (i : Fin 8) :
    (hitMask ev t).getLsbD i = (t.enOn.getLsbD i && t.subOn.get i == ev) := by
  have hbit (j : Fin 8) : (BitVec.ofNat 8 (2 ^ j.val)).getLsbD i.val = decide (i = j) := by
    rw [BitVec.getLsbD_ofNat, Nat.testBit_two_pow]
    simp [Fin.ext_iff, eq_comm]
  have hfold (l : List (Fin 8)) (p : BitVec 8) :
      (l.foldl (fun (p : BitVec 8) j =>
        if t.enOn.getLsbD j.val && t.subOn.get j == ev then p ||| BitVec.ofNat 8 (2 ^ j.val) else p) p).getLsbD i =
      (p.getLsbD i || (decide (i ∈ l) && (t.enOn.getLsbD i && t.subOn.get i == ev))) := by
    induction l generalizing p with
    | nil => simp
    | cons j l ih =>
      rw [List.foldl_cons, ih]
      by_cases hij : i = j
      · subst hij
        cases hhit : t.enOn.getLsbD i.val && t.subOn.get i == ev
        · simp
        · simp only [if_true, BitVec.getLsbD_or, hbit]
          simp
      · split
        · rw [BitVec.getLsbD_or, hbit]; simp [hij]
        · simp [hij]
  have h := hfold (List.finRange 8) 0#8
  rw [BitVec.getLsbD_zero, Bool.false_or, decide_eq_true (List.mem_finRange i), Bool.true_and] at h
  exact h

theorem Cap.strand_tryWake : ∃ st used hmax, (c.tryWake hm n).strand n =
    { c.strand n with st := st, used := used, hmax := hmax } ∧ (st = (c.strand n).st ∨ st = .ready) := by
  unfold Cap.tryWake
  dsimp only
  split
  · split
    · exact ⟨_, _, _, Cap.strand_makeReady_same _ _, .inr rfl⟩
    · exact ⟨_, _, _, rfl, .inl rfl⟩
  · exact ⟨_, _, _, rfl, .inl rfl⟩

/-- The event sets the pending bits of the slots it hits, and leaves of the rest all but what a wake changes. -/
theorem Cap.strand_notify (hst : (c.strand n).st ≠ .disabled) : ∃ st used hmax, (c.notify hm ev n).strand n =
    { c.strand n with pending := (c.strand n).pending ||| hitMask ev (c.strand n), st := st, used := used, hmax := hmax } ∧
    (st = (c.strand n).st ∨ st = .ready) := by
  unfold Cap.notify
  dsimp only
  rw [if_neg hst]
  split
  · next h => exact ⟨_, _, _, by rw [h, show (c.strand n).pending ||| 0 = _ from BitVec.or_zero], .inl rfl⟩
  · obtain ⟨st, used, hmax, heq, hor⟩ := Cap.strand_tryWake (hm := hm) (n := n) (c := c.modStrand n fun t =>
      { t with pending := t.pending ||| hitMask ev (c.strand n) })
    rw [Cap.strand_modStrand_same] at heq hor
    exact ⟨st, used, hmax, heq, hor⟩

theorem Cap.notify_disabled (hst : (c.strand n).st = .disabled) : c.notify hm ev n = c := if_pos hst

/-- A WAITING strand wakes whose WAIT selects a slot that the event hits. -/
theorem Cap.strand_notify_wakes {k : BitVec 9} {i : Fin 8} (hst : (c.strand n).st = .waiting)
    (hmask : (c.strand n).waitMask = some k) (hk : k.getLsbD i = true) (hhit : (hitMask ev (c.strand n)).getLsbD i = true) :
    ((c.notify hm ev n).strand n).st = .ready := by
  have hhits : hitMask ev (c.strand n) ≠ 0 := fun h => by rw [h] at hhit; simp at hhit
  unfold Cap.notify
  dsimp only
  rw [if_neg (by rw [hst]; nofun), if_neg hhits]
  refine Cap.strand_tryWake_ready (k := k) (i := i) ?_ ?_ i.isLt.le ?_
  · rw [Cap.strand_modStrand_same]; exact hst
  · rw [Cap.strand_modStrand_same]; exact hmask
  · rw [Cap.strand_modStrand_same]
    simp [slotReady, i.isLt.ne, hk, hhit]

/-! ## The galley (04 R88) -/

/-- A galley that is open resolves, and of its strand nothing else changes but what a wake changes. -/
theorem Cap.strand_resolve {g : Galley} (hg : (c.strand n).galley = some g) (hopen : g.resolved = none) :
    ∃ st used hmax, (c.resolve hm r n).strand n =
      { c.strand n with galley := some { g with resolved := some r, back := (c.strand n).st }
                        st := st, used := used, hmax := hmax } ∧
      (st = (c.strand n).st ∨ st = .ready) := by
  have hmod (f : Strand → Strand) (d : Cap) := Cap.strand_modStrand_same n f d
  unfold Cap.resolve
  dsimp only
  split
  · next h => rw [hg] at h; exact nomatch h
  · next g' h =>
    rw [hg] at h
    cases h
    rw [if_neg (by rw [hopen]; nofun)]
    split
    · exact ⟨_, _, _, hmod _ _, .inl rfl⟩
    · exact ⟨_, _, _, by rw [hmod, hmod]; rfl, .inl rfl⟩
    · exact ⟨_, _, _, hmod _ _, .inl rfl⟩
    · exact ⟨_, _, _, hmod _ _, .inl rfl⟩
    · exact ⟨_, _, _, by rw [Cap.strand_makeReady_same, hmod]; rfl, .inr rfl⟩

theorem Cap.resolve_of_resolved {g : Galley} (hg : (c.strand n).galley = some g) (hdone : g.resolved ≠ none) :
    c.resolve hm r n = c := by
  unfold Cap.resolve
  dsimp only
  split
  · rfl
  · next g' h =>
    rw [hg] at h
    cases h
    exact if_pos (Option.isSome_iff_ne_none.mpr hdone)

/-- What the resolving event makes of an open galley: a lock-up when the low 14 bits of its outcome word equal EXP, else a pie. -/
def Galley.resolvedBy (w : Word) (st : StrandState) (g : Galley) : Galley :=
  { g with resolved := some (outcomeOf g.exp w), back := st }

/-- An event resolves the open galley that waits for it, and no other. -/
theorem Cap.strand_resolveOn : ∃ st used hmax galley, (c.resolveOn hm ev w none n).strand n =
      { c.strand n with galley := galley, st := st, used := used, hmax := hmax } ∧
    (st = (c.strand n).st ∨ st = .ready) ∧
    ∀ g, (c.strand n).galley = some g → g.resolved = none → g.call = none →
      galley = some (if g.ev = ev then g.resolvedBy w (c.strand n).st else g) := by
  unfold Cap.resolveOn
  split
  · next hnone => exact ⟨_, _, _, _, rfl, .inl rfl, fun g hg => by rw [hnone] at hg; exact nomatch hg⟩
  · next g hg =>
    split
    · next hwaits =>
      by_cases hopen : g.resolved = none
      · obtain ⟨st, used, hmax, heq, hor⟩ := Cap.strand_resolve (hm := hm) (r := outcomeOf g.exp w) hg hopen
        refine ⟨st, used, hmax, _, heq, hor, fun g' hg' _ _ => ?_⟩
        rw [hg] at hg'
        cases hg'
        rw [if_pos hwaits.1, Galley.resolvedBy]
      · rw [Cap.resolve_of_resolved hg hopen]
        refine ⟨_, _, _, _, rfl, .inl rfl, fun g' hg' hopen' => ?_⟩
        rw [hg] at hg'
        cases hg'
        exact absurd hopen' hopen
    · next hother =>
      refine ⟨_, _, _, _, rfl, .inl rfl, fun g' hg' _ hcall => ?_⟩
      rw [hg] at hg'
      cases hg'
      rw [if_neg fun hev => hother ⟨hev, .inl hcall⟩]
      exact hg

end

/-! ## What an event leaves of a strand -/

/-- From strand `a` to strand `b` the event `ev` with outcome `w` has come. -/
structure Strand.Reached (ev : BitVec 8) (w : Word) (a b : Strand) : Prop where
  hits : a.st ≠ .disabled → ∀ i : Fin 8,
    b.pending.getLsbD i = (a.pending.getLsbD i || (a.enOn.getLsbD i && a.subOn.get i == ev))
  disabled : a.st = .disabled → b.pending = a.pending
  wakes : ∀ k : BitVec 9, a.st = .waiting → a.waitMask = some k →
    (∃ i : Fin 8, k.getLsbD i = true ∧ a.enOn.getLsbD i = true ∧ a.subOn.get i = ev) → b.st = .ready
  galley : ∀ g, a.galley = some g → g.resolved = none → g.call = none →
    b.galley = some (if g.ev = ev then g.resolvedBy w a.st else g)

section
variable {hm : Nat} {ev : BitVec 8} {w : Word} {n : Fin 320} {c : Cap}

theorem Cap.strand_reach : Strand.Reached ev w (c.strand n) ((c.reach hm ev w none false n).strand n) := by
  obtain ⟨st, used, hmax, galley, heq, hor, hgalley⟩ := Cap.strand_resolveOn (hm := hm) (ev := ev) (w := w) (n := n) (c := c)
  have hdead := ((Cap.resolveOn_event hm ev w none n c).strands n).dead.1
  have hreach : c.reach hm ev w none false n = (c.resolveOn hm ev w none n).notify hm ev n := rfl
  rw [hreach]
  by_cases hst : (c.strand n).st = .disabled
  · rw [Cap.notify_disabled (hdead.mp hst), heq]
    exact ⟨fun h => absurd hst h, fun _ => rfl, fun k h => (by rw [hst] at h; exact nomatch h), hgalley⟩
  · obtain ⟨st', used', hmax', heq', hor'⟩ := Cap.strand_notify (hm := hm) (ev := ev) fun h => hst (hdead.mpr h)
    have hmask : hitMask ev ((c.resolveOn hm ev w none n).strand n) = hitMask ev (c.strand n) := by rw [heq]; rfl
    refine ⟨fun _ i => ?_, fun h => absurd h hst, fun k hwait hk hslot => ?_, ?_⟩
    · rw [heq', hmask, heq, BitVec.getLsbD_or, hitMask_getLsbD]
    · obtain ⟨i, hki, hen, hsub⟩ := hslot
      rcases hor with hor | hor
      · refine Cap.strand_notify_wakes (k := k) (i := i) ?_ ?_ hki ?_
        · rw [heq]; exact hor.trans hwait
        · rw [heq]; exact hk
        · rw [hmask, hitMask_getLsbD, hen, hsub]; simp
      · rw [heq']
        rcases hor' with hor' | hor'
        · rw [heq] at hor'; exact hor'.trans hor
        · exact hor'
    · rw [heq', heq]; exact hgalley

theorem State.updCap_only (s : State) (f : Cap → Cap) : s.updCap f = s.updCap fun _ => (s.updCap f).cap := rfl

theorem raiseHw_only (ev w : Nat) (s : State) : raiseHw ev w s = s.updCap fun _ => (raiseHw ev w s).cap :=
  State.updCap_only s _

/-- Every strand that a hardware event finds is reached by it. -/
theorem raiseHw_reached (ev : BitVec 8) (w : Word) (s : State) (m : Fin 320) :
    Strand.Reached ev w (getS s m) (getS (raiseHw ev.toNat w.toNat s) m) := by
  have hraise : raiseHw ev.toNat w.toNat s = s.updCap (Cap.raise (hmaxNow s) ev w none false) := by
    rw [raiseHw, BitVec.ofNat_toNat, BitVec.setWidth_eq, BitVec.ofNat_toNat, BitVec.setWidth_eq]
  rw [hraise, getS_updCap]
  refine Cap.strand_raise (P := Strand.Reached ev w (getS s m)) fun d hd => ?_
  have h := Cap.strand_reach (hm := hmaxNow s) (ev := ev) (w := w) (n := m) (c := d)
  rwa [hd] at h

end

/-! ## The command (06 R112) -/

section
variable {ev : BitVec 8} {word : Word} {s : State}

theorem galleyResolve_unlisted (h : listedEvent ev.toNat = false) : galleyResolve ev.toNat word.toNat s = s := by
  simp [galleyResolve, h]

theorem listedEvent_of_firmware {ev : Nat} (h : firmwareEvent ev = true) : listedEvent ev = true := by simp [listedEvent, h]

theorem galleyResolve_paused (hfw : firmwareEvent ev.toNat = true) (hpause : s.sys.pause = true) :
    galleyResolve ev.toNat word.toNat s = s.updSys fun y => { y with pausedEvents := y.pausedEvents ++ [(ev, word)] } := by
  simp [galleyResolve, listedEvent_of_firmware hfw, hfw, raiseFw, hpause]

theorem galleyResolve_raises (hlisted : listedEvent ev.toNat = true)
    (hnow : firmwareEvent ev.toNat = false ∨ s.sys.pause = false) :
    galleyResolve ev.toNat word.toNat s = raiseHw ev.toNat word.toNat s := by
  rcases hnow with h | h <;> simp [galleyResolve, hlisted, raiseFw, h]

end

end Sys2Proof.Machine

open Sys2Proof Sys2Proof.Machine

/-- Settles O11: the strands are reached one by one, each as it stood, and each by what resolves its galley and then by what
sets its pending bits. -/
theorem eventsReachStrands : Obligations.EventsReachStrands := by
  unfold Obligations.EventsReachStrands
  intro ev word s
  refine ⟨fun h => ⟨_, rfl, galleyResolve_unlisted h⟩, fun hfw hpause => ⟨_, rfl, galleyResolve_paused hfw hpause⟩,
    fun hlisted hnow => ⟨raiseHw ev.toNat word.toNat s, congrArg Host.Outcome.next (galleyResolve_raises hlisted hnow),
      raiseHw_only _ _ s, raiseHw_event _ _ s, fun m => ?_⟩⟩
  have h := raiseHw_reached ev word s m
  refine ⟨h.hits, h.disabled, h.wakes, fun g hg hopen hcall => ⟨fun hev => ?_, fun hev => ?_⟩⟩
  · rw [h.galley g hg hopen hcall, if_neg hev]
  · rw [h.galley g hg hopen hcall, if_pos hev]
    rfl

end

section
/-! SUPPORT. A strand fault (03 R57): what it leaves of the strand, of the engine and of CAP_FAULT. -/
namespace Sys2Proof.Machine

/-! ## What a fault leaves of its strand -/

/-- From strand `a` to strand `b` the registers, the predicates, the program counter, the timer and the strand's entry of the
strand table stay. -/
def Strand.ContextKept (a b : Strand) : Prop :=
  b = { a with pending := b.pending, st := b.st, waitMask := b.waitMask, block := b.block, galley := b.galley
               lastGal := b.lastGal, used := b.used, hmax := b.hmax, fault := b.fault, restarts := b.restarts }

namespace Strand.ContextKept
variable {a b c : Strand}

theorem refl (a : Strand) : ContextKept a a := rfl

theorem trans (h : ContextKept a b) (k : ContextKept b c) : ContextKept a c := by
  unfold ContextKept at *
  rw [k, h]

theorem of_event (h : EventStrand a b) : ContextKept a b := by
  unfold ContextKept
  rw [h.rest]

section
variable (h : ContextKept a b)
include h
theorem w : b.w = a.w := by rw [h]
theorem p : b.p = a.p := by rw [h]
theorem pc : b.pc = a.pc := by rw [h]
theorem fbEn : b.fbEn = a.fbEn := by rw [h]
theorem fbPort : b.fbPort = a.fbPort := by rw [h]
theorem fbValue : b.fbValue = a.fbValue := by rw [h]
end

end Strand.ContextKept

/-! ## The engine is given up, never taken -/

/-- From Capstan `c` to `d` the engine stays with its strand or becomes free. -/
def Cap.NoGrant (c d : Cap) : Prop := d.running = c.running ∨ d.running = none

namespace Cap.NoGrant
variable {c d e : Cap}

theorem refl (c : Cap) : NoGrant c c := .inl rfl

theorem trans (h : NoGrant c d) (k : NoGrant d e) : NoGrant c e := by
  rcases k with k | k
  · rcases h with h | h
    · exact .inl (k.trans h)
    · exact .inr (k.trans h)
  · exact .inr k

theorem idle (h : NoGrant c d) (hc : c.running = none) : d.running = none := by
  rcases h with h | h
  · exact h.trans hc
  · exact h

theorem foldl {β : Type} {g : Cap → β → Cap} (hg : ∀ c x, NoGrant c (g c x)) (l : List β) (c : Cap) :
    NoGrant c (l.foldl g c) := by
  induction l generalizing c with
  | nil => exact refl c
  | cons x l ih => exact (hg c x).trans (ih _)

theorem ite {p : Prop} [Decidable p] (hd : NoGrant c d) (he : NoGrant c e) : NoGrant c (if p then d else e) := by
  split
  · exact hd
  · exact he

theorem leave (n : Fin 320) (c : Cap) : NoGrant c (c.leave n) := by
  by_cases h : c.running = some n
  · exact .inr (if_pos h)
  · exact .inl (if_neg h)

theorem makeReady (hm : Nat) (fresh : Bool) (n : Fin 320) (c : Cap) : NoGrant c (c.makeReady hm fresh n) :=
  (leave n c).trans (.inl (Cap.running_join ..))

theorem tryWake (hm : Nat) (n : Fin 320) (c : Cap) : NoGrant c (c.tryWake hm n) := by
  unfold Cap.tryWake
  dsimp only
  split
  · exact .ite (makeReady ..) (refl c)
  · exact refl c

theorem notify (hm : Nat) (ev : BitVec 8) (n : Fin 320) (c : Cap) : NoGrant c (c.notify hm ev n) :=
  .ite (refl c) (.ite (refl c) (.trans (.inl rfl) (tryWake hm n _)))

theorem resolve (hm : Nat) (r : Resolution) (n : Fin 320) (c : Cap) : NoGrant c (c.resolve hm r n) := by
  unfold Cap.resolve
  dsimp only
  split
  · exact refl c
  · refine .ite (refl c) ?_
    split
    · exact .inl rfl
    · exact .inl rfl
    · exact .inl rfl
    · exact .inl rfl
    · exact .trans (.inl rfl) (makeReady ..)

theorem resolveOn (hm : Nat) (ev : BitVec 8) (w : Word) (call : Option Nat) (n : Fin 320) (c : Cap) :
    NoGrant c (c.resolveOn hm ev w call n) := by
  unfold Cap.resolveOn
  split
  · exact refl c
  · exact .ite (resolve ..) (refl c)

theorem raise (hm : Nat) (ev : BitVec 8) (w : Word) (call : Option Nat) (spent : Bool) (c : Cap) :
    NoGrant c (c.raise hm ev w call spent) :=
  foldl (fun c n => .trans (.ite (refl c) (resolveOn hm ev w call n c)) (notify hm ev n _)) _ _

end Cap.NoGrant

/-! ## The key slots of a strand that stops (16 R345) -/

/-- From state `s` to `t` the Capstan changes by events alone, and none of them gives the engine away. -/
structure EventsOnly (s t : State) : Prop where
  event : EventCap s.cap t.cap
  engine : Cap.NoGrant s.cap t.cap

namespace EventsOnly
variable {s t u : State}

theorem of_cap (h : t.cap = s.cap) : EventsOnly s t := by
  constructor
  · rw [h]; exact .refl _
  · rw [h]; exact .refl _

theorem trans (h : EventsOnly s t) (k : EventsOnly t u) : EventsOnly s u := ⟨h.event.trans k.event, h.engine.trans k.engine⟩

/-- What another part of the state does first changes nothing of the Capstan. -/
theorem after (k : EventsOnly t u) (h : t.cap = s.cap) : EventsOnly s u := (of_cap h).trans k

theorem ite {p : Prop} [Decidable p] (ht : EventsOnly s t) (hu : EventsOnly s u) : EventsOnly s (if p then t else u) := by
  split
  · exact ht
  · exact hu

theorem foldl {β : Type} {g : State → β → State} (hg : ∀ s x, EventsOnly s (g s x)) (l : List β) (s : State) :
    EventsOnly s (l.foldl g s) := by
  induction l generalizing s with
  | nil => exact of_cap rfl
  | cons x l ih => exact (hg s x).trans (ih _)

theorem raiseHw (ev w : Nat) (s : State) : EventsOnly s (raiseHw ev w s) := by
  refine ⟨raiseHw_event ev w s, ?_⟩
  rw [Machine.raiseHw, State.updCap_cap]
  exact .raise ..

theorem raiseFw (ev w : Nat) (s : State) : EventsOnly s (raiseFw ev w s) := .ite (of_cap rfl) (raiseHw ev w s)

theorem setHealth (b : Nat) (s : State) : EventsOnly s (setHealth b s) :=
  .ite (of_cap rfl) ((raiseFw 0x2C b _).after rfl)

theorem modSlot (i : Nat) (f : Slot → Slot) (s : State) : EventsOnly s (modSlot i f s) := by
  unfold Machine.modSlot
  split <;> exact of_cap rfl

theorem wipeSlot (fails : Bool) (i : Nat) (s : State) : EventsOnly s (wipeSlot fails i s) := by
  have hkey (u : State) (f : Key → Key) : EventsOnly u (u.updKey f) := of_cap rfl
  exact (modSlot i (fun _ => {}) s).trans (.ite (.ite ((hkey _ _).trans (setHealth 4 _)) (hkey _ _)) (of_cap rfl))

theorem settleSlot (fails : Option Bool) (i : Nat) (s : State) : EventsOnly s (settleSlot fails i s) := by
  refine .ite (of_cap rfl) ?_
  cases fails with
  | some f => exact wipeSlot f i s
  | none => exact (wipeSlot ((freeBelow 2 s).1 == 1) i (freeBelow 2 s).2).after rfl

theorem keysLetGo (n : Fin 320) (s : State) : EventsOnly s (keysLetGo n s) :=
  (foldl (fun s (h : KeyHold) => settleSlot none h.slot s) _ _).after rfl

end EventsOnly

/-! ## The steps of a strand fault (03 R57) -/

theorem foldl_cap {β : Type} {g : State → β → State} (hg : ∀ s x, (g s x).cap = s.cap) (l : List β) (s : State) :
    (l.foldl g s).cap = s.cap := by
  induction l generalizing s with
  | nil => rfl
  | cons x l ih => exact (ih _).trans (hg s x)

/-- What Platen does for a galley that is pied is no matter of the Capstan. -/
theorem proofPie_cap (n : Fin 320) (s : State) : (proofPie n s).cap = s.cap := by
  unfold proofPie
  refine (foldl_cap (fun s k => ?_) _ _).trans rfl
  split <;> rfl

section
variable {n : Fin 320} {code : Nat} {s t u : State}

theorem discardGalley_cap : (discardGalley n s).cap = if (getS s n).galley.isNone then s.cap else
    s.cap.modStrand n fun t => { t with galley := none, lastGal := 0 } := by
  unfold discardGalley
  split
  · rfl
  · exact proofPie_cap ..

/-- From `s` to `t` strand `n` has stopped with fault `code`: FAULTED, its galley gone, its context kept, the engine free of it,
and case memory as it was. -/
structure FaultStopped (n : Fin 320) (code : Nat) (s t : State) : Prop where
  context : (getS s n).ContextKept (getS t n)
  st : (getS t n).st = .faulted
  fault : (getS t n).fault = code
  galley : (getS t n).galley = none
  caseMem : t.cap.caseMem = s.cap.caseMem
  engine : s.cap.running = some n ∨ s.cap.running = none → t.cap.running = none

/-- The events that follow leave the strand as it stopped. -/
theorem FaultStopped.events (h : FaultStopped n code s t) (k : EventsOnly t u) : FaultStopped n code s u := by
  have hn : EventStrand (getS t n) (getS u n) := k.event.strands n
  obtain ⟨-, hfaulted, -⟩ := hn.dead
  refine ⟨h.context.trans (.of_event hn), hfaulted.mp h.st, ?_, hn.galley_none h.galley, ?_,
    fun hr => k.engine.idle (h.engine hr)⟩
  · rw [hn.rest]; exact h.fault
  · rw [k.event.rest]; exact h.caseMem

/-- A galley that is discarded leaves all but the galley of its strand. -/
theorem getS_discardGalley : ∃ l, getS (discardGalley n s) n = { getS s n with galley := none, lastGal := l } := by
  unfold getS
  rw [discardGalley_cap]
  split
  · next h => exact ⟨_, by rw [← Option.isNone_iff_eq_none.mp h]; rfl⟩
  · exact ⟨_, Cap.strand_modStrand_same ..⟩

theorem getS_discardGalley_other {m : Fin 320} (h : m ≠ n) : getS (discardGalley n s) m = getS s m := by
  unfold getS
  rw [discardGalley_cap]
  split
  · rfl
  · exact Cap.strand_modStrand_other h _ _

theorem discardGalley_rest : (discardGalley n s).cap = { s.cap with strands := (discardGalley n s).cap.strands } := by
  rw [discardGalley_cap]
  split <;> rfl

/-- The first two steps: the galley pied, the key slots let go, the strand FAULTED. -/
theorem faultStop_stops : FaultStopped n code s (faultStop n code s) := by
  have hkeys := EventsOnly.keysLetGo n (discardGalley n s)
  have hkept : EventStrand (getS (discardGalley n s) n) (getS (keysLetGo n (discardGalley n s)) n) := hkeys.event.strands n
  obtain ⟨l, hdiscard⟩ := getS_discardGalley (n := n) (s := s)
  have hn : getS (faultStop n code s) n = { getS (keysLetGo n (discardGalley n s)) n with
      st := .faulted, fault := code, waitMask := none, block := none } := by
    rw [faultStop, getS_modS_same, getS_updCap, Cap.strand_stopIn_same]
    rfl
  have hrunning : (faultStop n code s).cap.running =
      ((keysLetGo n (discardGalley n s)).cap.stopIn .faulted n).running := rfl
  refine ⟨?_, by rw [hn], by rw [hn], ?_, ?_, fun hr => ?_⟩
  · rw [hn, Strand.ContextKept, hkept.rest, hdiscard]
  · rw [hn]; exact hkept.galley_none (by rw [hdiscard])
  · show (keysLetGo n (discardGalley n s)).cap.caseMem = _
    rw [hkeys.event.rest, discardGalley_rest]
  · rw [hrunning]
    refine Cap.running_stopIn .faulted ?_
    have hsame : (discardGalley n s).cap.running = s.cap.running := by rw [discardGalley_rest]
    rcases hkeys.engine with h | h
    · rwa [h, hsame]
    · exact .inr h

theorem faultReport_events : EventsOnly s (faultReport n code s) := by
  unfold faultReport
  dsimp only
  refine EventsOnly.trans ((EventsOnly.raiseHw 0x2D (n.val * 256 + code) _).after ?_) (.of_cap (ringOut_cap ..))
  split <;> rfl

/-- The fault is counted and named in CAP_FAULT. -/
def nameFault (n : Fin 320) (code : Nat) (s : State) : State :=
  setF Reg.CAP_FAULT_LAST_CODE code (setF Reg.CAP_FAULT_LAST_STRAND n.val (incF Reg.CAP_FAULT_COUNT s))

section
variable (hr : risingFrom 0 s.regs = true)
include hr

theorem nameFault_rising : risingFrom 0 (nameFault n code s).regs = true :=
  setF_regs_rising (setF_regs_rising (setF_regs_rising hr ..) ..) ..

/-- After it is named, the report writes CAP_STATUS and the doorbells of mailbox 7 alone. -/
theorem faultReport_reads {f : Field} (hstatus : f.key ≠ Reg.CAP_STATUS_HMAX_FAULT.key)
    (hring : f.key ≠ (Reg.MB_OUT_PEND_PEND 7).key) : getF (faultReport n code s) f = getF (nameFault n code s) f := by
  have hflag (t : State) (ht : risingFrom 0 t.regs = true) :
      risingFrom 0 (if code = 0xA0 then setF Reg.CAP_STATUS_HMAX_FAULT 1 t else t).regs = true ∧
      getF (if code = 0xA0 then setF Reg.CAP_STATUS_HMAX_FAULT 1 t else t) f = getF t f := by
    split
    · exact ⟨setF_regs_rising ht .., getF_setF_other ht hstatus _⟩
    · exact ⟨ht, rfl⟩
  obtain ⟨hrise, hread⟩ := hflag (nameFault n code s) (nameFault_rising hr)
  rw [← hread, faultReport, ringOut, getF_setF_other (by rw [raiseHw_regs]; exact hrise) hring, getF, raiseHw_regs]
  rfl

/-- The report names the strand and the code in CAP_FAULT. -/
theorem faultReport_named (hcode : code < 256) :
    getF (faultReport n code s) Reg.CAP_FAULT_LAST_STRAND = n.val ∧
    getF (faultReport n code s) Reg.CAP_FAULT_LAST_CODE = code := by
  have hcounted : risingFrom 0 (incF Reg.CAP_FAULT_COUNT s).regs = true := setF_regs_rising hr ..
  have hstrand := setF_regs_rising hcounted Reg.CAP_FAULT_LAST_STRAND n.val
  have hfits : n.val % 2 ^ 9 = n.val := Nat.mod_eq_of_lt (by omega)
  constructor
  · rw [faultReport_reads hr (by decide) (by decide), nameFault, getF_setF_other hstrand (by decide), getF_setF_same hcounted]
    exact hfits
  · rw [faultReport_reads hr (by decide) (by decide), nameFault, getF_setF_same hstrand]
    exact Nat.mod_eq_of_lt hcode

end

theorem spendRestarts_cap : ∃ l, (spendRestarts n t).cap = t.cap.modStrand n fun x => { x with restarts := l } := by
  unfold spendRestarts
  dsimp only
  split <;> exact ⟨_, rfl⟩

/-- The restarts that are counted leave the strand as it stopped. -/
theorem FaultStopped.spendRestarts (h : FaultStopped n code s t) : FaultStopped n code s (spendRestarts n t) := by
  obtain ⟨l, hcap⟩ := spendRestarts_cap (n := n) (t := t)
  have hn : getS (Machine.spendRestarts n t) n = { getS t n with restarts := l } := by
    rw [getS, hcap, Cap.strand_modStrand_same]
    rfl
  refine ⟨?_, by rw [hn]; exact h.st, by rw [hn]; exact h.fault, by rw [hn]; exact h.galley, ?_, fun hr => ?_⟩
  · rw [hn]
    exact h.context.trans rfl
  · rw [hcap]; exact h.caseMem
  · rw [hcap]; exact h.engine hr

section
variable (hdis : (getS s n).st ≠ .disabled) (hfault : (getS s n).st ≠ .faulted)
include hdis hfault

theorem capFault_eq : capFault n code s = spendRestarts n (faultReport n code (fallbackPut n (faultStop n code s))) :=
  if_neg (not_or.mpr ⟨hdis, hfault⟩)

/-- A strand with no FALLBACK_PUT stops and is reported. -/
theorem capFault_stops (hfb : (getS s n).fbEn = false) : FaultStopped n code s (capFault n code s) := by
  have hstop := faultStop_stops (n := n) (code := code) (s := s)
  have hnone : fallbackPut n (faultStop n code s) = faultStop n code s :=
    if_neg (by rw [hstop.context.fbEn, hfb]; exact Bool.false_ne_true)
  rw [capFault_eq hdis hfault, hnone]
  exact (hstop.events faultReport_events).spendRestarts

/-- With FB_EN = 1 the FALLBACK_PUT comes between the stop and the report. -/
theorem capFault_fallback (hfb : (getS s n).fbEn = true) : capFault n code s =
    spendRestarts n (faultReport n code (putNow n (getS s n).fbPort 0
      (portLimit (getS s n).fbPort 0 (BitVec.ofNat 32 (getS s n).fbValue) (faultStop n code s)) (faultStop n code s))) := by
  have hstop := faultStop_stops (n := n) (code := code) (s := s)
  rw [capFault_eq hdis hfault, fallbackPut, hstop.context.fbEn, hstop.context.fbPort, hstop.context.fbValue]
  exact congrArg (fun r => spendRestarts n (faultReport n code r)) (if_pos hfb)

/-- CAP_FAULT names the strand and the code. -/
theorem capFault_named (hwf : Memory.wf s = true) (hcode : code < 256) :
    getF (capFault n code s) Reg.CAP_FAULT_LAST_STRAND = n.val ∧ getF (capFault n code s) Reg.CAP_FAULT_LAST_CODE = code := by
  have hkept : Keeps s (fallbackPut n (faultStop n code s)) := fallbackPut_keeps n _ (faultStop_keeps n code s (.refl s))
  have hr := regs_rising (hkept.wf hwf)
  have hregs (t : State) : (spendRestarts n t).regs = t.regs := by
    unfold spendRestarts
    dsimp only
    split <;> rfl
  have hspent (t : State) (f : Field) : getF (spendRestarts n t) f = getF t f := by unfold getF; rw [hregs]
  rw [capFault_eq hdis hfault, hspent, hspent]
  exact faultReport_named hr hcode

end

end

end Sys2Proof.Machine
end

section
/-! SUPPORT. Instructions that meet a fault (04 R68, R89). -/
namespace Sys2Proof.Machine

section
variable {n : Fin 320} {i : Issue} {b : BitVec 26} {code : Nat} {s u : State}

/-- An encoding that is a fault stops the strand whatever its guard says. -/
theorem Issue.run_early (h : Issues n i.words i.cycles s u) (he : i.early = some code) : i.run n s = capFault n code u := by
  unfold Issue.run Issue.core
  simp only [h.granted, h.unresolved, h.noBreak, h.budget, Nat.not_lt.mpr h.inForme, he, Option.isSome_none, Bool.or_self,
    Bool.false_eq_true, if_false]

/-- A fault that an instruction meets as it acts stops the strand. -/
theorem Issue.run_late (h : Issues n i.words i.cycles s u) (he : i.early = none) (hguard : getP (getS u n) i.guard = true)
    (hl : i.late u = some code) : i.run n s = capFault n code u := by
  unfold Issue.run Issue.core
  simp only [h.granted, h.unresolved, h.noBreak, h.budget, Nat.not_lt.mpr h.inForme, he, hguard, hl, Option.isSome_none,
    Bool.or_self, Bool.false_eq_true, if_false, Bool.not_true]

/-- An access outside the window is a CAP_WINDOW fault (04 R71). -/
theorem memFault_outside {size : Nat} (h : windowBytes (getS u n) < memOffset u n b size + size) :
    memFault n b size u = some 0xA4 := by
  simp [memFault, outsideWindow, h]

/-- A branch out of the loaded forme is a CAP_PC fault (04 R78). -/
theorem badTarget_outside {target : BitVec 17} (h : u.cap.formeWords ≤ target.toNat) : badTarget target u = some 0xA5 := if_pos h

end

end Sys2Proof.Machine

open Sys2Proof Sys2Proof.Machine

/-- Settles O16: each instruction that meets a fault is one strand fault, and what a strand fault leaves is said once. -/
theorem strandFaultsStopTheStrand : Obligations.StrandFaultsStopTheStrand := by
  unfold Obligations.StrandFaultsStopTheStrand
  intro n b s u hissues hwf hdis hfaulted t faults
  have hfault (code : Nat) (hcode : code < 256) : faults code (capFault n code u) := by
    refine ⟨capFault_fallback hdis hfaulted, fun hfb => ?_⟩
    have hstop := capFault_stops (code := code) hdis hfaulted hfb
    have hnamed := capFault_named hdis hfaulted hwf hcode
    exact ⟨hstop.st, hstop.fault, hstop.context.w, hstop.context.p, hstop.context.pc, hstop.galley,
      hstop.engine (.inl (grant_running hissues.granted)), hstop.caseMem, hnamed.1, hnamed.2⟩
  have hgives {c : Instr} {i : Issue} {code : Nat} (hc : exec c s = .next (i.run n s)) (hcode : code < 256)
      (hrun : i.run n s = capFault n code u) : Gives c s (faults code) :=
    ⟨_, hc.trans (congrArg Host.Outcome.next hrun), hfault code hcode⟩
  refine ⟨fun hill => ⟨?add, ?add64⟩, fun hill hodd => ?mulu64, fun hm hpd hget => ?get, fun hbits hnone => ?svc,
    fun hguard => ⟨fun hbits hout => ?br, fun hm hout => ⟨?ld, ?st⟩, fun w1 hopen htmo hwords => ?gset⟩⟩
  case add =>
    have hearly : (opAdd n b).early = some 0xA2 := by simp [opAdd, alu3, firstFault, hill]
    exact hgives rfl (by decide) (Issue.run_early hissues hearly)
  case add64 =>
    have hearly : (opAdd64 n b).early = some 0xA2 := by simp [opAdd64, pair3, firstFault, hill]
    exact hgives rfl (by decide) (Issue.run_early hissues hearly)
  case mulu64 =>
    have hearly : (opMulu64 n b).early = some 0xA6 := by simp [opMulu64, firstFault, hill, oddPair, hodd]
    exact hgives rfl (by decide) (Issue.run_early hissues hearly)
  case get =>
    have hearly : (opGet n b).early = some 0xA3 := by simp [opGet, firstFault, hm, hpd, hget]
    exact hgives rfl (by decide) (Issue.run_early hissues hearly)
  case svc =>
    have hearly : (opSvc n b).early = some 0xA7 := by simp [opSvc, firstFault, hbits, badService, hnone]
    exact hgives rfl (by decide) (Issue.run_early hissues hearly)
  case br =>
    have hlegal : (opBr n b).early = none := by simp [opBr, firstFault, hbits]
    exact hgives rfl (by decide) (Issue.run_late hissues hlegal hguard (badTarget_outside hout))
  case ld =>
    have hlegal : (opLoad 4 n b).early = none := by simp [opLoad, firstFault, illI, hm]
    exact hgives rfl (by decide) (Issue.run_late hissues hlegal hguard (memFault_outside hout))
  case st =>
    have hlegal : (opStore 4 n b).early = none := by simp [opStore, firstFault, illI, hm]
    exact hgives rfl (by decide) (Issue.run_late hissues hlegal hguard (memFault_outside hout))
  case gset =>
    have hlegal : (opGset n b w1).early = none := by simp [opGset, firstFault, htmo]
    exact hgives rfl (by decide) (Issue.run_late { hissues with inForme := hwords } hlegal hguard (if_pos hopen))

end

section
/-! SUPPORT. The rows of the scheduler: the budget, an error of the strand's own storage, the end of a turn, a timer, a
breakpoint (03 R44 to R50, R56, R65). -/
namespace Sys2Proof.Machine

section
variable {n m : Fin 320} {s u : State} {c : Cap}

/-! ## The budget and the strand's own storage -/

theorem capHmaxExceeded_faults (hg : grant n s = some u) (hcls : (getS u n).cls = 0)
    (hover : (getS u n).hmax < (getS u n).used + cyclesOf (opcodeOf (mapGet 0 u.cap.prog (getS u n).pc.toNat))) :
    capHmaxExceeded n s = capFault n 0xA0 u := by
  unfold capHmaxExceeded
  rw [hg]
  exact if_pos ⟨hcls, hover⟩

theorem contextFault_faults (hon : domainOn 7 s = true) : contextFault n s = capFault n 0xA8 s := if_pos hon

/-! ## The end of a turn (03 R46) -/

theorem turnEnd_due (hrun : s.cap.running = some n) (hcls : (getS s n).cls ≠ 0) (hleft : (getS s n).turnLeft = 0) :
    turnEnd n s = s.updCap (Cap.endTurn n) := by
  have hdue : s.cap.dueTurnEnd = s.cap.endTurn n := by
    unfold Cap.dueTurnEnd
    rw [hrun]
    exact if_pos ⟨hcls, hleft⟩
  rw [turnEnd, if_pos hrun, State.updCap, hdue]
  rfl

theorem Cap.strand_endTurn_same : (c.endTurn n).strand n = { c.strand n with st := .ready } := by
  unfold Cap.endTurn
  rw [Cap.strand_join, Cap.strand_modStrand_same]
  rfl

theorem Cap.strand_endTurn_other (h : m ≠ n) : (c.endTurn n).strand m = c.strand m := by
  unfold Cap.endTurn
  rw [Cap.strand_join, Cap.strand_modStrand_other h]
  rfl

theorem Cap.running_endTurn (h : c.running = some n) : (c.endTurn n).running = none := by
  unfold Cap.endTurn
  rw [Cap.running_join]
  exact if_pos h

/-- The queue `q` of class `k` when a turn of strand `n`, of class `cls`, has ended: it stands at the tail of its class queue, and
in no other. -/
def queueAfterTurn (n : Fin 320) (cls k : Fin 4) (q : List (Fin 320)) : List (Fin 320) :=
  if cls = k then q.filter (· ≠ n) ++ [n] else q.filter (· ≠ n)

theorem Cap.endTurn_queues : (c.endTurn n).q0 = queueAfterTurn n (c.strand n).cls 0 c.q0 ∧
    (c.endTurn n).q1 = queueAfterTurn n (c.strand n).cls 1 c.q1 ∧
    (c.endTurn n).q2 = queueAfterTurn n (c.strand n).cls 2 c.q2 ∧
    (c.endTurn n).q3 = queueAfterTurn n (c.strand n).cls 3 c.q3 := by
  have hcls : (((c.leave n).modStrand n fun t => { t with st := .ready }).strand n).cls = (c.strand n).cls := by
    rw [Cap.strand_modStrand_same]; rfl
  unfold Cap.endTurn Cap.join
  rw [hcls]
  split <;> next h => rw [h]; exact ⟨rfl, rfl, rfl, rfl⟩

/-! ## A timer (03 R44) -/

theorem strandTimerExpiry_fires (h : (getS s n).timerEnd.isSome = true) : strandTimerExpiry n s =
    (modS n (fun t => { t with timerEnd := none, timerFired := true }) s).updCap (Cap.tryWake (hmaxNow s) n) := if_pos h

/-! ## A strand that halts (03 R42, R65) -/

/-- A state that HALT leaves for HALTED. -/
def StrandState.canHalt : StrandState → Bool
  | .disabled | .faulted | .halted => false
  | .ready | .running | .waiting | .blocked | .stalled => true

theorem haltStrand_stops {st : StrandState} (hst : (getS s n).st = st) (hlive : st.canHalt = true) :
    haltStrand n s = s.updCap fun c =>
      (c.stopKeeping .halted n).modStrand n fun t => { t with prev := st } := by
  unfold haltStrand
  dsimp only
  rw [hst]
  cases st with
  | disabled | faulted | halted => exact nomatch hlive
  | ready | running | waiting | blocked | stalled => rfl

section
variable {st : StrandState} (hst : (getS s n).st = st) (hlive : st.canHalt = true)
include hst hlive

theorem getS_haltStrand_same : getS (haltStrand n s) n = { getS s n with st := .halted, prev := st } := by
  rw [haltStrand_stops hst hlive, getS_updCap, Cap.strand_modStrand_same]
  exact congrArg (fun t : Strand => { t with prev := st }) (Cap.strand_stopIn_same .halted)

theorem getS_haltStrand_other (h : m ≠ n) : getS (haltStrand n s) m = getS s m := by
  rw [haltStrand_stops hst hlive, getS_updCap, Cap.strand_modStrand_other h]
  exact Cap.strand_stopIn_other h .halted

theorem haltStrand_running (hrun : s.cap.running = some n) : (haltStrand n s).cap.running = none := by
  rw [haltStrand_stops hst hlive]
  exact Cap.running_stopIn .halted (.inl hrun)

end

end

end Sys2Proof.Machine

open Sys2Proof Sys2Proof.Machine

/-- Settles O18: the budget fault and the storage error are strand faults, a turn ends in its class queue, a timer is noted and may
wake its strand, a breakpoint halts. That a timer that has fired stays noted until a WAIT takes it (assumption log 19), that
a storage error is met in any state and that CAP_HMAX comes before the other faults (assumption log 57) are the model's
choices. -/
theorem schedulerCommands : Obligations.SchedulerCommands := by
  unfold Obligations.SchedulerCommands
  intro n s
  refine ⟨fun u hg hcls hst hfb hover => ?budget, fun hon hdis hfaulted hfb => ?storage, fun hrun hcls hleft => ?turn,
    fun htimer => ?timer, fun u hg hbreak hst => ?breakpoint⟩
  case budget =>
    refine ⟨_, congrArg Host.Outcome.next (capHmaxExceeded_faults hg hcls hover), ?_⟩
    have hstop := capFault_stops (code := 0xA0) (s := u) (n := n) (by rw [hst]; nofun) (by rw [hst]; nofun) hfb
    exact ⟨hstop.st, hstop.fault, hstop.context.w, hstop.context.pc, hstop.engine (.inl (grant_running hg))⟩
  case storage =>
    refine ⟨_, congrArg Host.Outcome.next (contextFault_faults hon), ?_⟩
    have hstop := capFault_stops (code := 0xA8) hdis hfaulted hfb
    exact ⟨hstop.st, hstop.fault, hstop.context.w, hstop.context.pc⟩
  case turn =>
    refine ⟨_, congrArg Host.Outcome.next (turnEnd_due hrun hcls hleft), ?_⟩
    obtain ⟨hq0, hq1, hq2, hq3⟩ := Cap.endTurn_queues (n := n) (c := s.cap)
    exact ⟨congrArg Strand.st Cap.strand_endTurn_same, Cap.running_endTurn hrun, hq0.trans (if_neg hcls),
      fun h => hq1.trans (if_pos h), fun h => hq2.trans (if_pos h), fun h => hq3.trans (if_pos h),
      fun m hm => Cap.strand_endTurn_other hm⟩
  case timer =>
    have hnoted := Cap.strand_modStrand_same n (fun t => { t with timerEnd := none, timerFired := true }) s.cap
    refine ⟨_, congrArg Host.Outcome.next (strandTimerExpiry_fires htimer), ?_⟩
    obtain ⟨st, used, hmax, heq, -⟩ := Cap.strand_tryWake (hm := hmaxNow s) (n := n)
      (c := s.cap.modStrand n fun t => { t with timerEnd := none, timerFired := true })
    rw [hnoted] at heq
    refine ⟨congrArg Strand.timerEnd heq, congrArg Strand.timerFired heq, fun m hm => ?_, fun k hwait hmask hk => ?_⟩
    · exact (Cap.strand_tryWake_other hm _).trans (Cap.strand_modStrand_other hm _ _)
    · refine Cap.strand_tryWake_ready (k := k) (i := 8) ?_ ?_ (by decide) ?_
      · exact (congrArg Strand.st hnoted).trans hwait
      · exact (congrArg Strand.waitMask hnoted).trans hmask
      · exact Bool.and_eq_true_iff.mpr ⟨hk, congrArg Strand.timerFired hnoted⟩
  case breakpoint =>
    have hhit : breakpointHit n s = haltStrand n u := by
      unfold breakpointHit
      rw [hg]
      exact if_pos hbreak
    have hn := getS_haltStrand_same hst rfl
    exact ⟨_, congrArg Host.Outcome.next hhit, by rw [hn], by rw [hn], by rw [hn], by rw [hn],
      haltStrand_running hst rfl (grant_running hg)⟩

end

section
/-! SUPPORT. The strand commands of the host and the debug port (03 R42, R49, R63, R65), each with what it leaves of the strand it
names and of the others: those of the debug port, and the refusals. -/
namespace Sys2Proof.Machine

/-- A command of the host that its port serves, by what its block answers: the status byte, and the Capstan as the block left it. -/
theorem served_gives {c : Instr} {addr code : Nat} {f : State → Nat × State} {s r : State} {P : State → Prop}
    (hexec : exec c s = .next (hostTo addr f s)) (hserves : HostServes addr s) (hf : f s = (code, r)) (hcode : code < 256)
    (hr : risingFrom 0 r.regs = true) (hP : ∀ t, Answered code t → t.cap = r.cap → P t) : Gives c s P := by
  refine ⟨answer (code, r), hexec.trans (congrArg Host.Outcome.next ?_), hP _ (answer_answered hcode hr) rfl⟩
  rw [hostTo_served hserves, hf]

/-- The strand that a command names by its number. -/
theorem strandNumber_toNat (n : Fin 320) : (BitVec.ofNat 9 n.val).toNat = n.val := by
  rw [BitVec.toNat_ofNat]
  exact Nat.mod_eq_of_lt (by omega)

section
variable {n m : Fin 320} {s : State}

/-! ## HALT, RESUME and STEP on the strand -/

@[simp] theorem setW_st (i : Fin 16) (v : Word) (t : Strand) : (setW i v t).st = t.st := by unfold setW; split <;> rfl

@[simp] theorem advance_st (a k : Nat) (t : Strand) : (t.advance a k).st = t.st := by
  unfold Strand.advance Strand.charge
  split <;> rfl

/-- RESUME of a strand that was READY and has no galley (R42). -/
theorem resumeStrand_ready (hst : (getS s n).st = .halted) (hprev : (getS s n).prev = .ready) (hgal : (getS s n).galley = none) :
    resumeStrand n s = (modS n (fun t => { t.backFrom with bpPass := true }) s).updCap (Cap.makeReady (getS s n).hmax false n) := by
  unfold resumeStrand
  simp [hst, hprev, hgal]

/-- An instruction with its cycles and words to hand, a legal encoding, a true guard and no fault has its effect. -/
theorem Issue.core_effect {i : Issue} (hb : ¬((getS s n).cls = 0 ∧ (getS s n).hmax < (getS s n).used + i.cycles))
    (hf : (getS s n).pc.toNat + i.words ≤ s.cap.formeWords) (he : i.early = none) (hp : getP (getS s n) i.guard = true)
    (hl : i.late s = none) : i.core n s = i.effect s := by
  unfold Issue.core
  simp only [hb, Nat.not_lt.mpr hf, he, hp, hl, Bool.false_eq_true, if_false, Bool.not_true]

/-- The word at the program counter spells the instruction that issues. -/
theorem issueFetched_add {b : BitVec 26} (hop : opcodeOf (fetchWord n s).1 = 0x02) (hbody : bodyOf (fetchWord n s).1 = b) :
    issueFetched n s = (opAdd n b).core n s := by
  have hi : issueOf n (fetchWord n s).1 (fetchWord n s).2 = some (opAdd n b) := by
    unfold issueOf
    rw [hop, hbody]
    rfl
  unfold issueFetched
  simp only [hi, Option.getD_some]

/-- A strand that has issued under a STEP is HALTED again. -/
theorem getS_backToHalted {was : StrandState} (hst : (getS s n).st = .running) :
    ∃ prev, getS (backToHalted n was s) n = { getS s n with st := .halted, prev := prev } := by
  unfold backToHalted
  rw [hst]
  refine ⟨if was = .running then .running else .ready, ?_⟩
  dsimp only
  rw [getS_updCap, Cap.strand_modStrand_same, if_neg (show ¬StrandState.running = .stalled by decide), Cap.strand_stopIn_same]
  rfl

/-- STEP of an ADD (R65): the strand is HALTED again, past the instruction, with its result. -/
theorem stepStrand_add {b : BitVec 26} (hcls : (getS s n).cls ≠ 0) (hst : (getS s n).st = .halted)
    (hgal : (getS s n).galley = none) (hmask : (getS s n).waitMask = none)
    (hop : opcodeOf (mapGet 0 s.cap.prog (getS s n).pc.toNat) = 0x02)
    (hbody : bodyOf (mapGet 0 s.cap.prog (getS s n).pc.toNat) = b) (hill : illA b = false)
    (hguard : getP (getS s n) (fieldG b) = true) (hforme : (getS s n).pc.toNat + 1 ≤ s.cap.formeWords) :
    (getS (stepStrand n s) n).st = .halted ∧ (getS (stepStrand n s) n).pc = (getS s n).pc + 1 ∧
    ∀ i, getW (getS (stepStrand n s) n) i =
      regAfter (getS s n) (fieldRD b) (getW (getS s n) (fieldRA b) + getW (getS s n) (fieldRB b)) i := by
  obtain ⟨u, hu⟩ : ∃ u, u = modS n (fun t => { t.stepOut with st := .running }) s := ⟨_, rfl⟩
  have hn : getS u n = { getS s n with block := none, st := .running } := by
    rw [hu, getS_modS_same]
    simp [Strand.stepOut, Strand.takeWake, hgal, hmask]
  have hword : (fetchWord n u).1 = mapGet 0 s.cap.prog (getS s n).pc.toNat := by
    unfold fetchWord
    rw [hn, hu]
    rfl
  have hissue : issueFetched n u = (opAdd n b).effect u := by
    rw [issueFetched_add (hword ▸ hop) (hword ▸ hbody)]
    have hearly : (opAdd n b).early = none := by simp [opAdd, alu3, firstFault, hill]
    refine Issue.core_effect ?_ ?_ hearly ?_ rfl
    · rw [hn]; exact fun h => hcls h.1
    · rw [hn, hu]; exact hforme
    · rw [hn]; exact hguard
  have hadd : getS (issueFetched n u) n = setW (fieldRD b) (getW (getS u n) (fieldRA b) + getW (getS u n) (fieldRB b))
      ((getS u n).advance 1 1) := by
    rw [hissue]
    refine (getS_modS_same n _ u).trans ?_
    dsimp only
    rw [getW_advance, getW_advance]
  have hrunning : (getS (issueFetched n u) n).st = .running := by
    rw [hadd, setW_st, advance_st, hn]
  obtain ⟨prev, hback⟩ := getS_backToHalted (was := (getS s n).prev) hrunning
  have hstep : stepStrand n s = backToHalted n (getS s n).prev (issueFetched n u) := by
    unfold stepStrand
    simp only [hst, hgal, hu]
    rfl
  refine ⟨by rw [hstep, hback], ?_, fun i => ?_⟩
  · rw [hstep, hback]
    show (getS (issueFetched n u) n).pc = _
    rw [hadd, setW_pc, advance_pc, hn]
    rfl
  · rw [hstep, hback]
    show getW (getS (issueFetched n u) n) i = _
    rw [hadd, getW_setW, getW_advance, hn]
    rfl

/-! ## The commands of the debug port (R65) -/

/-- Without installer presence a debug command is refused. -/
theorem debugCommand_noInstaller {cmd k : Nat} {cls0 : Bool} {f : Fin 320 → State → State} (h : installer s = false) :
    debugCommand cmd cls0 k f s = (errPresence, s) := by
  simp [debugCommand, debugRefused, h]

/-- On a strand of classes 1 to 3 the installer's debug command acts. -/
theorem debugCommand_acts {cmd : Nat} {cls0 : Bool} {f : Fin 320 → State → State} (h : installer s = true)
    (hcls : (getS s n).cls ≠ 0) : debugCommand cmd cls0 n.val f s = (statusOk, f n (keepDebug cmd n.val s)) := by
  simp [debugCommand, debugRefused, h, hcls]

section
variable (hwf : Memory.wf s = true) (hserves : HostServes Reg.CAP_DBG_CMD_CMD.addr s)
include hwf hserves

theorem halt_refused (hinst : installer s = false) :
    Gives (.halt (BitVec.ofNat 9 n.val)) s fun t => Answered 4 t ∧ t.cap = s.cap :=
  served_gives rfl hserves (debugCommand_noInstaller hinst) (by decide : 4 < 256) (regs_rising hwf) fun _ hans hcap => ⟨hans, hcap⟩

variable (hinst : installer s = true) (hcls : (getS s n).cls ≠ 0)
include hinst hcls

omit hwf hserves in
theorem debugCommand_served (cmd : Nat) (cls0 : Bool) (f : Fin 320 → State → State) :
    debugCommand cmd cls0 (BitVec.ofNat 9 n.val).toNat f s = (statusOk, f n (keepDebug cmd n.val s)) := by
  rw [strandNumber_toNat, debugCommand_acts hinst hcls]

theorem halt_waiting (hst : (getS s n).st = .waiting) : Gives (.halt (BitVec.ofNat 9 n.val)) s fun t => Answered 0 t ∧
    (getS t n).st = .halted ∧ (getS t n).prev = .waiting ∧ (getS t n).w = (getS s n).w ∧ ∀ m, m ≠ n → getS t m = getS s m := by
  have hst' : (getS (keepDebug 1 n.val s) n).st = .waiting := hst
  have hkept := haltStrand_keeps n _ (keepDebug_keeps 1 n.val s (.refl s))
  have hcommand := debugCommand_served hinst hcls 1 true haltStrand
  refine served_gives rfl hserves hcommand (by decide) (regs_rising (hkept.wf hwf)) fun t hans ht => ?_
  have hS (m : Fin 320) : getS t m = getS (haltStrand n (keepDebug 1 n.val s)) m := congrArg (fun c => c.strand m) ht
  have hn := (hS n).trans (getS_haltStrand_same hst' rfl)
  exact ⟨hans, by rw [hn], by rw [hn], by rw [hn]; rfl, fun m hm => (hS m).trans (getS_haltStrand_other hst' rfl hm)⟩

variable (hst : (getS s n).st = .halted) (hgal : (getS s n).galley = none)
include hst hgal

theorem resume_ready (hprev : (getS s n).prev = .ready) : Gives (.resume (BitVec.ofNat 9 n.val)) s fun t => Answered 0 t ∧
    (getS t n).st = .ready ∧ (getS t n).w = (getS s n).w ∧ (getS t n).pc = (getS s n).pc ∧ ∀ m, m ≠ n → getS t m = getS s m := by
  have hkept := resumeStrand_keeps n _ (keepDebug_keeps 3 n.val s (.refl s))
  have hcommand := debugCommand_served hinst hcls 3 false resumeStrand
  have heq := resumeStrand_ready (s := keepDebug 3 n.val s) hst hprev hgal
  refine served_gives rfl hserves hcommand (by decide) (regs_rising (hkept.wf hwf)) fun t hans ht => ?_
  have hn : getS t n = { ({ (getS s n).backFrom with bpPass := true } : Strand).activation (getS s n).hmax false with
      st := .ready } := by
    rw [getS, ht, heq, State.updCap_cap, Cap.strand_makeReady_same]
    exact congrArg (fun x : Strand => { x.activation (getS s n).hmax false with st := .ready }) (getS_modS_same n _ _)
  refine ⟨hans, by rw [hn], by rw [hn]; rfl, by rw [hn]; rfl, fun m hm => ?_⟩
  rw [getS, ht, heq, State.updCap_cap, Cap.strand_makeReady_other hm]
  exact getS_modS_other hm _ _

theorem step_add {b : BitVec 26} (hmask : (getS s n).waitMask = none)
    (hop : opcodeOf (mapGet 0 s.cap.prog (getS s n).pc.toNat) = 0x02)
    (hbody : bodyOf (mapGet 0 s.cap.prog (getS s n).pc.toNat) = b) (hill : illA b = false)
    (hguard : getP (getS s n) (fieldG b) = true) (hforme : (getS s n).pc.toNat + 1 ≤ s.cap.formeWords) :
    Gives (.step (BitVec.ofNat 9 n.val)) s fun t => Answered 0 t ∧ (getS t n).st = .halted ∧
      (getS t n).pc = (getS s n).pc + 1 ∧ ∀ i, getW (getS t n) i =
        regAfter (getS s n) (fieldRD b) (getW (getS s n) (fieldRA b) + getW (getS s n) (fieldRB b)) i := by
  have hkept := stepStrand_keeps n _ (keepDebug_keeps 2 n.val s (.refl s))
  have hcommand := debugCommand_served hinst hcls 2 true stepStrand
  obtain ⟨hhalted, hpc, hw⟩ := stepStrand_add (s := keepDebug 2 n.val s) hcls hst hgal hmask hop hbody hill hguard hforme
  refine served_gives rfl hserves hcommand (by decide) (regs_rising (hkept.wf hwf)) fun t hans ht => ?_
  have hn : getS t n = getS (stepStrand n (keepDebug 2 n.val s)) n := congrArg (fun c => c.strand n) ht
  rw [hn]
  exact ⟨hans, hhalted, hpc, hw⟩

end

end

end Sys2Proof.Machine
end

section
/-! SUPPORT. What the strand commands of the host rest on, and why O21 is left unsettled. A strand that starts or stops lets go of
its key slots, and each is scrubbed. Whether the verify of that scrub fails is a free value (01 R15, 16 R345, assumption log 2), and
one that fails may raise EV_HEALTH (01 R16), which reaches the other strands; the statement says that they stay as they are. -/
namespace Sys2Proof.Machine

/-- No scrub fails its verify where the command that causes it does not say. -/
def ScrubsVerify : Prop := ∀ c, Config.freeNat c % 2 = 0

section
variable {n m : Fin 320} {s : State}

/-! ## Scrubs that verify leave the Capstan alone -/

theorem settleSlot_cap (h : ScrubsVerify) (i : Nat) (s : State) : (settleSlot none i s).cap = s.cap := by
  have hmod (t : State) : (modSlot i (fun _ => {}) t).cap = t.cap := by
    unfold modSlot
    split <;> rfl
  have hzero : ((freeBelow 2 s).1 == 1) = false := by
    show (Config.freeNat s.sys.freeCtr % 2 == 1) = false
    rw [h]
    rfl
  unfold settleSlot
  dsimp only
  split
  · rfl
  · rw [hzero, wipeSlot]
    exact hmod (freeBelow 2 s).2

theorem keysLetGo_cap (h : ScrubsVerify) (n : Fin 320) (s : State) : (keysLetGo n s).cap = s.cap :=
  (foldl_cap (fun s _ => settleSlot_cap h _ s) _ _).trans rfl

/-! ## ENABLE, RESTART and DISABLE (03 R42) -/

theorem hostStrand_eq (hrole : s.sys.role = .standalone ∨ s.sys.role = .hub) (cmd k : Nat) :
    hostStrand cmd k s = strandCommand cmd k s := by
  rcases hrole with h | h <;> simp [hostStrand, h]

/-- A strand as ENABLE and RESTART leave it, before it joins its queue. -/
def Strand.restarted (t : Strand) : Strand := { t.fresh with fault := 0, hwm := 0, armed := t.fbEn }

/-- A strand as DISABLE leaves it. -/
def Strand.shut (t : Strand) : Strand := { t with pending := 0, waitMask := none, block := none, armed := false, fault := 0 }

/-- ENABLE and RESTART: what is left of the calls and the key slots apart, the strand alone starts. -/
theorem enableStrand_eq (hverify : ScrubsVerify) (hst : (getS s n).st = .disabled ∨ (getS s n).st = .faulted)
    (hfb : (getS s n).cls = 0 → (getS s n).fbEn = true) : ∃ r hm calls, enableStrand n s = (statusOk, r) ∧
      r.cap = (({ s.cap with calls := calls } : Cap).modStrand n Strand.restarted).makeReady hm true n := by
  have hstopped : ¬((getS s n).st ≠ .disabled ∧ (getS s n).st ≠ .faulted) := by tauto
  have hallowed : ¬((getS s n).cls = 0 ∧ (!(getS s n).fbEn) = true) := fun ⟨hcls, hoff⟩ => by
    rw [hfb hcls] at hoff
    exact nomatch hoff
  refine ⟨_, hmaxNow (keysLetGo n (abandonCalls n s)), (abandonCalls n s).cap.calls,
    (if_neg hstopped).trans (if_neg hallowed), ?_⟩
  show ((keysLetGo n (abandonCalls n s)).cap.modStrand n Strand.restarted).makeReady _ true n = _
  rw [keysLetGo_cap hverify]
  rfl

/-- DISABLE, where it is not refused: the galley apart, the strand alone stops. -/
theorem disableStrand_eq (hverify : ScrubsVerify) (hst : (getS s n).st ≠ .disabled)
    (hsession : (getS s n).cls = 0 → sessionActive s = false) : ∃ r calls, disableStrand n s = (statusOk, r) ∧
      r.cap = (({ (discardGalley n s).cap with calls := calls } : Cap).stopIn .disabled n).modStrand n Strand.shut := by
  have hallowed : ¬((getS s n).cls = 0 ∧ sessionActive s = true) := fun ⟨hcls, hon⟩ => by
    rw [hsession hcls] at hon
    exact nomatch hon
  refine ⟨_, (abandonCalls n (discardGalley n s)).cap.calls, (if_neg hallowed).trans (if_neg hst), ?_⟩
  show ((keysLetGo n (abandonCalls n (discardGalley n s))).cap.stopIn .disabled n).modStrand n Strand.shut = _
  rw [keysLetGo_cap hverify]
  rfl

theorem strandCommand_enable (n : Fin 320) (s : State) :
    strandCommand 1 n.val s = enableStrand n s ∧ strandCommand 3 n.val s = enableStrand n s := by
  simp [strandCommand]

theorem strandCommand_disable (n : Fin 320) (s : State) : strandCommand 2 n.val s = disableStrand n s := by
  simp [strandCommand]

section
variable (hwf : Memory.wf s = true) (hrole : s.sys.role = .standalone ∨ s.sys.role = .hub)
  (hserves : HostServes Reg.CAP_STRAND_CMD_CMD.addr s)
include hwf hrole hserves

/-- DISABLE of class 0 is refused while a session is active (R63). -/
theorem disable_refused (hcls : (getS s n).cls = 0) (hsession : sessionActive s = true) :
    Gives (.disable (BitVec.ofNat 9 n.val)) s fun t => Answered 5 t ∧ t.cap = s.cap := by
  refine served_gives rfl hserves ?_ (by decide : 5 < 256) (regs_rising hwf) fun _ hans hcap => ⟨hans, hcap⟩
  rw [hostStrand_eq hrole, strandNumber_toNat, strandCommand_disable]
  exact if_pos ⟨hcls, hsession⟩

variable (hverify : ScrubsVerify)
include hverify

theorem disable_stops (hst : (getS s n).st ≠ .disabled) (hsession : (getS s n).cls = 0 → sessionActive s = false) :
    Gives (.disable (BitVec.ofNat 9 n.val)) s fun t => Answered 0 t ∧ (getS t n).st = .disabled ∧ (getS t n).pending = 0 ∧
      (getS t n).galley = none ∧ t.cap.caseMem = s.cap.caseMem ∧ ∀ m, m ≠ n → getS t m = getS s m := by
  obtain ⟨r, calls, heq, hcap⟩ := disableStrand_eq hverify hst hsession
  have hkept := disableStrand_keeps' heq (.refl s)
  have hcommand : hostStrand 2 (BitVec.ofNat 9 n.val).toNat s = (statusOk, r) := by
    rw [hostStrand_eq hrole, strandNumber_toNat, strandCommand_disable, heq]
  refine served_gives rfl hserves hcommand (by decide) (regs_rising (hkept.wf hwf)) fun t hans ht => ?_
  obtain ⟨l, hdiscard⟩ := getS_discardGalley (n := n) (s := s)
  have hn : getS t n = ({ getS s n with galley := none, lastGal := l, st := .disabled } : Strand).shut := by
    rw [getS, ht, hcap, Cap.strand_modStrand_same, Cap.strand_stopIn_same]
    exact congrArg (fun x : Strand => ({ x with st := .disabled } : Strand).shut) hdiscard
  refine ⟨hans, by rw [hn]; rfl, by rw [hn]; rfl, by rw [hn]; rfl, ?_, fun m hm => ?_⟩
  · rw [ht, hcap]
    show (discardGalley n s).cap.caseMem = _
    rw [discardGalley_rest]
  · rw [getS, ht, hcap, Cap.strand_modStrand_other hm, Cap.strand_stopIn_other hm]
    exact getS_discardGalley_other hm

/-- ENABLE and RESTART, which are one command (R42). -/
theorem enable_starts {c : Instr} {cmd : Nat} (hst : (getS s n).st = .disabled ∨ (getS s n).st = .faulted)
    (hfb : (getS s n).cls = 0 → (getS s n).fbEn = true) (hcmd : strandCommand cmd n.val s = enableStrand n s)
    (hexec : exec c s = .next (hostTo Reg.CAP_STRAND_CMD_CMD.addr (hostStrand cmd (BitVec.ofNat 9 n.val).toNat) s)) :
    Gives c s fun t => Answered 0 t ∧ (getS t n).st = .ready ∧ (∀ i, getW (getS t n) i = 0) ∧ (getS t n).p = 1 ∧
      (getS t n).pc = (getS s n).entry ∧ (getS t n).pending = 0 ∧ (getS t n).fault = 0 ∧ t.cap.caseMem = s.cap.caseMem ∧
      ∀ m, m ≠ n → getS t m = getS s m := by
  obtain ⟨r, hm, calls, heq, hcap⟩ := enableStrand_eq hverify hst hfb
  have hkept := enableStrand_keeps' heq (.refl s)
  have hcommand : hostStrand cmd (BitVec.ofNat 9 n.val).toNat s = (statusOk, r) := by
    rw [hostStrand_eq hrole, strandNumber_toNat, hcmd, heq]
  refine served_gives hexec hserves hcommand (by decide) (regs_rising (hkept.wf hwf)) fun t hans ht => ?_
  have hn : getS t n = { (getS s n).restarted.activation hm true with st := .ready } := by
    rw [getS, ht, hcap, Cap.strand_makeReady_same, Cap.strand_modStrand_same]
    rfl
  refine ⟨hans, by rw [hn], fun i => ?_, by rw [hn]; rfl, by rw [hn]; rfl, by rw [hn]; rfl, by rw [hn]; rfl, ?_, fun m hm => ?_⟩
  · rw [hn]
    exact getW_reset i
  · rw [ht, hcap, Cap.caseMem_makeReady]
    rfl
  · rw [getS, ht, hcap, Cap.strand_makeReady_other hm, Cap.strand_modStrand_other hm]
    rfl

end

end

/-! ## Where a verify fails -/

/-- Strand 0 is DISABLED and holds slot 0, which is in use; 8 further slots are retired; strand 1 subscribes to EV_HEALTH. -/
def healthWatched (c : Nat) : State :=
  let key : Key := { retired := 0x1FE#64, holds := [{ strand := 0, slot := 0 }]
                     slots := (Vector.replicate 64 {}).set 0 { work := some ⟨0, 0, [0], [], 0, false, 0⟩ } }
  let watcher : Strand := { st := .ready, enOn := 1, subOn := (Vector.replicate 8 0).set 0 0x2C }
  ((State.reset.updSys fun y => { y with mode := .standalone, freeCtr := c }).updKey fun _ => key) |> modS 1 fun _ => watcher

section
variable {c : Nat}

/-- The slot in use is scrubbed as strand 0 lets go of it. -/
theorem keysLetGo_healthWatched : keysLetGo 0 (abandonCalls 0 (healthWatched c)) =
    settleSlot none 0 ((healthWatched c).updKey fun u => { u with holds := [] }) := rfl

/-- A verify that fails with 55 slots left raises EV_HEALTH (01 R15, R16). -/
theorem wipeSlot_raises {i : Nat} {u : State}
    (hfew : ((List.range 64).filter fun j => !(u.key.retired ||| BitVec.ofNat 64 (2 ^ i)).getLsbD j).length < 56)
    (hregs : u.regs = []) (hpause : u.sys.pause = false) :
    ∃ v, v.cap = u.cap ∧ wipeSlot true i u = raiseHw 0x2C 4 v := by
  have hmod : (modSlot i (fun _ => {}) u).regs = u.regs ∧ (modSlot i (fun _ => {}) u).sys = u.sys ∧
      (modSlot i (fun _ => {}) u).cap = u.cap ∧ (modSlot i (fun _ => {}) u).key.retired = u.key.retired := by
    unfold modSlot
    split <;> exact ⟨rfl, rfl, rfl, rfl⟩
  obtain ⟨hsame, hsys, hcap, hretired⟩ := hmod
  have husable : usableSlots ((modSlot i (fun _ => {}) u).updKey fun k =>
      { k with retired := k.retired ||| BitVec.ofNat 64 (2 ^ i) }) < 56 := by
    rw [← hretired] at hfew
    exact hfew
  have hhealth (f : Key → Key) : getF ((modSlot i (fun _ => {}) u).updKey f) ⟨0x00000080, 4, 1, 0⟩ = 0 := by
    rw [getF, State.updKey_regs, hsame, hregs]
    rfl
  unfold wipeSlot
  dsimp only
  rw [if_pos rfl, if_pos husable, setHealth, if_neg (by rw [getB, hhealth]; decide), raiseFw, if_neg]
  · refine ⟨_, ?_, rfl⟩
    exact hcap
  · rw [ringOut_sys, setF_sys, State.updKey_sys, hsys, hpause]
    exact Bool.false_ne_true

/-- ENABLE of strand 0 reaches strand 1 when the verify fails. -/
theorem enable_healthWatched (h : Config.freeNat c % 2 = 1) :
    getS (enableStrand 0 (healthWatched c)).2 1 ≠ getS (healthWatched c) 1 := by
  have hsettle : settleSlot none 0 ((healthWatched c).updKey fun u => { u with holds := [] }) =
      wipeSlot true 0 (freeBelow 2 ((healthWatched c).updKey fun u => { u with holds := [] })).2 := by
    have hfails : ((freeBelow 2 ((healthWatched c).updKey fun u => { u with holds := [] })).1 == 1) = true := by
      show (Config.freeNat c % 2 == 1) = true
      rw [h]
      rfl
    rw [← hfails]
    rfl
  obtain ⟨v, hcap, hwipe⟩ := wipeSlot_raises (i := 0)
    (u := (freeBelow 2 ((healthWatched c).updKey fun u => { u with holds := [] })).2) (by
      show ((List.range 64).filter fun j => !(0x1FE#64 ||| BitVec.ofNat 64 (2 ^ 0)).getLsbD j).length < 56
      decide) rfl rfl
  have hreached : Strand.Reached 0x2C 4 (getS v 1) (getS (raiseHw 0x2C 4 v) 1) := raiseHw_reached 0x2C 4 v 1
  have hother : getS (enableStrand 0 (healthWatched c)).2 1 = getS (raiseHw 0x2C 4 v) 1 := by
    rw [← hwipe, ← hsettle, ← keysLetGo_healthWatched]
    exact (Cap.strand_makeReady_other (by decide) _ _).trans (getS_modS_other (by decide) _ _)
  have hv : getS v 1 = getS (healthWatched c) 1 := by rw [getS, hcap]; rfl
  have hstrand : (getS (healthWatched c) 1).pending = 0 ∧ (getS (healthWatched c) 1).st = .ready ∧
      (getS (healthWatched c) 1).enOn = 1 ∧ (getS (healthWatched c) 1).subOn.get 0 = 0x2C := by
    rw [healthWatched, getS_modS_same]
    decide
  obtain ⟨hpending, hst, hen, hsub⟩ := hstrand
  have hbit := hreached.hits (by rw [hv, hst]; nofun) 0
  rw [hv, hpending, hen, hsub] at hbit
  intro hsame
  rw [← hother, hsame, hpending] at hbit
  exact absurd hbit (by decide)

end

end Sys2Proof.Machine

open Sys2Proof Sys2Proof.Machine

/-- If the strand commands leave every other strand alone, no free scrub fails its verify. -/
theorem scrubsVerify_of_strandCommands (h : Obligations.StrandCommands) : ScrubsVerify := by
  intro c
  rcases Nat.mod_two_eq_zero_or_one (Config.freeNat c) with hc | hc
  · exact hc
  · obtain ⟨hstrand, -⟩ := h 0 (healthWatched c) (by rfl) (.inl rfl)
    obtain ⟨hstart, -, -⟩ := hstrand ⟨rfl, nofun, rfl⟩
    obtain ⟨⟨t, ht, -, -, -, -, -, -, -, -, hother⟩, -⟩ := hstart (.inl rfl) nofun
    have hcap : t.cap = (enableStrand 0 (healthWatched c)).2.cap := by
      cases ht
      rfl
    exact absurd (hother 1 (by decide)) (by rw [getS, hcap]; exact enable_healthWatched hc)

/-- If no free scrub fails its verify, the strand commands are as stated. -/
theorem strandCommands_of_scrubsVerify (hverify : ScrubsVerify) : Obligations.StrandCommands := by
  unfold Obligations.StrandCommands
  intro n s hwf hrole k
  refine ⟨fun hserves => ⟨fun hst hfb => ?start, disable_stops hwf hrole hserves hverify, disable_refused hwf hrole hserves⟩,
    fun hserves => ⟨halt_refused hwf hserves, fun hinst hcls => ⟨halt_waiting hwf hserves hinst hcls, fun hst hprev hgal => ?go⟩⟩⟩
  case start =>
    obtain ⟨henable, hrestart⟩ := strandCommand_enable n s
    exact ⟨enable_starts hwf hrole hserves hverify hst hfb henable rfl,
      enable_starts hwf hrole hserves hverify hst hfb hrestart rfl⟩
  case go =>
    exact ⟨resume_ready hwf hserves hinst hcls hst hgal hprev, fun b => step_add hwf hserves hinst hcls hst hgal⟩

/-- What `StrandCommands` says holds exactly if no free scrub fails its verify. The opaque constant leaves that open, so that the
statement can be neither proved nor refuted. -/
theorem strandCommands_iff_scrubsVerify : Obligations.StrandCommands ↔ ScrubsVerify :=
  ⟨scrubsVerify_of_strandCommands, strandCommands_of_scrubsVerify⟩

end

section
/-! SUPPORT. What an instruction that issues gives, and what the changes of its own strand leave: one lemma for a write of a
register, of a pair and of a predicate (04 R66 to R70). -/
namespace Sys2Proof.Machine

section
variable {n : Fin 320} {i : Issue} {c : Instr} {s u : State} {P : State → Prop}

/-- An instruction that the engine issues, with a true guard and no fault, has its effect. -/
theorem Issue.gives (h : Issues n i.words i.cycles s u) (hguard : getP (getS u n) i.guard = true)
    (hc : exec c s = .next (i.run n s)) (he : i.early = none) (hl : i.late u = none) (hP : P (i.effect u)) : Gives c s P :=
  ⟨_, hc.trans (congrArg Host.Outcome.next
    (Issue.run_effect h.granted h.unresolved h.noBreak h.budget h.inForme he hguard hl)), hP⟩

end

/-! ## One register, one pair or one predicate is written -/

section
variable {n : Fin 320} {words : Nat} {u : State}

theorem ownStep_advance (k : Nat) :
    OwnStep n words k (getW (getS u n)) (getP (getS u n)) u (modS n (Strand.advance words k) u) :=
  ownStep_modS (f := id) (fun _ => rfl) (fun _ => getW_advance ..) fun _ => getP_advance ..

theorem ownStep_setW {rd : Fin 16} {v : Strand → Word} {x : Word} (hv : v ((getS u n).advance words 1) = x) :
    OwnStep n words 1 (regAfter (getS u n) rd x) (getP (getS u n)) u (regOnly n (fun t => setW rd (v t) t) words u) := by
  refine ownStep_modS (f := fun t => setW rd (v t) t) (setW_shape rd v) (fun i => ?_) fun i => ?_
  · rw [getW_setW, getW_advance, hv]; rfl
  · rw [getP_setW, getP_advance]

theorem ownStep_setP {pd : Fin 4} {v : Strand → Bool} {x : Bool} (hv : v ((getS u n).advance words 1) = x) :
    OwnStep n words 1 (getW (getS u n)) (predAfter (getS u n) pd x) u (regOnly n (fun t => setP pd (v t) t) words u) := by
  refine ownStep_modS (f := fun t => setP pd (v t) t) (setP_shape pd v) (fun i => ?_) fun i => ?_
  · rw [getW_setP, getW_advance]
  · rw [getP_setP, getP_advance, hv]; rfl

/-- A register after a write of the pair at the even register `rd`. -/
theorem getW_setX {rd : Fin 16} (heven : rd.val % 2 = 0) (v : BitVec 64) (t : Strand) (i : Fin 16) :
    getW (setX rd v t) i = pairAfter t rd v i := by
  have hhigh : BitVec.ofNat 32 (v.toNat / 2 ^ 32) = (v >>> 32).truncate 32 := by
    apply BitVec.eq_of_toNat_eq
    simp [Nat.shiftRight_eq_div_pow]
  have hsucc : rd + 1 ≠ 0 ∧ rd ≠ rd + 1 := by revert heven; revert rd; decide
  rw [setX, getW_setW, getW_setW, hhigh, pairAfter]
  by_cases hi : i = rd
  · subst hi; simp [hsucc.2]
  · by_cases hi' : i = rd + 1
    · subst hi'; simp [hsucc.1, hsucc.2.symm]
    · simp [hi, hi']

@[simp] theorem getP_setX (rd : Fin 16) (v : BitVec 64) (t : Strand) (i : Fin 4) : getP (setX rd v t) i = getP t i := by
  rw [setX, getP_setW, getP_setW]

theorem ownStep_setX {rd : Fin 16} (heven : rd.val % 2 = 0) {v : Strand → BitVec 64} {x : BitVec 64}
    (hv : v ((getS u n).advance words 1) = x) :
    OwnStep n words 1 (pairAfter (getS u n) rd x) (getP (getS u n)) u (regOnly n (fun t => setX rd (v t) t) words u) := by
  refine ownStep_modS (f := fun t => setX rd (v t) t) (setX_shape rd v) (fun i => ?_) fun i => ?_
  · rw [getW_setX heven, hv, pairAfter, getW_advance]; rfl
  · rw [getP_setX, getP_advance]

end

end Sys2Proof.Machine
end

section
/-! SUPPORT. Arithmetic and logic on registers and with an immediate (04 R74). -/
namespace Sys2Proof.Machine

section
variable {n : Fin 320} {b : BitVec 26} {c : Instr} {s u : State} (h : Issues n 1 1 s u)
  (hguard : getP (getS u n) (fieldG b) = true)
include h hguard

theorem alu3_gives {f : Word → Word → Word} {v : Word} (hill : illA b = false)
    (hc : exec c s = .next ((alu3 n b f).run n s)) (hv : f (getW (getS u n) (fieldRA b)) (getW (getS u n) (fieldRB b)) = v) :
    Gives c s (OwnStep n 1 1 (regAfter (getS u n) (fieldRD b) v) (getP (getS u n)) u) := by
  refine Issue.gives (i := alu3 n b f) h hguard hc (by simp [alu3, firstFault, hill]) rfl
    (ownStep_setW (words := 1) (v := fun t => f (getW t (fieldRA b)) (getW t (fieldRB b))) ?_)
  rw [getW_advance, getW_advance, hv]

theorem aluI_gives {f : Word → Word} {ill : Bool} {v : Word} (hill : ill = false)
    (hc : exec c s = .next ((aluI n b ill f).run n s)) (hv : f (getW (getS u n) (fieldRA b)) = v) :
    Gives c s (OwnStep n 1 1 (regAfter (getS u n) (fieldRD b) v) (getP (getS u n)) u) := by
  refine Issue.gives (i := aluI n b ill f) h hguard hc (by simp [aluI, firstFault, hill]) rfl
    (ownStep_setW (words := 1) (v := fun t => f (getW t (fieldRA b))) ?_)
  rw [getW_advance, hv]

end

/-! ## The immediate -/

theorem ofNat_fieldImm (b : BitVec 26) : BitVec.ofNat 32 (fieldImm b) = (b.truncate 14).setWidth 32 := by
  apply BitVec.eq_of_toNat_eq
  simp [fieldImm, bits]

theorem illI_eq_false {b : BitVec 26} (hm : fieldM b = 0) : illI b = false := by simp [illI, hm]

theorem illShift_eq_false {b : BitVec 26} (hm : fieldM b = 0) (himm : fieldImm b < 32) : illShift b = false := by
  simp [illShift, hm, himm]

/-- The fields RA, M and IMM are the low 20 bits. -/
theorem low20_eq_zero {b : BitVec 26} (hra : fieldRA b = 0) (hm : fieldM b = 0) (himm : fieldImm b = 0) :
    bits b.toNat 0 20 = 0 := by
  have hra' := congrArg Fin.val hra
  simp only [fieldRA, fieldM, fieldImm, bits, Fin.ofNat, Fin.val_zero] at hra' hm himm ⊢
  omega

end Sys2Proof.Machine

open Sys2Proof Sys2Proof.Machine

/-- Settles O1: each of them writes the result of its own operation to RD, and nothing else of the strand but what its issue
charges. -/
theorem threeRegisterArithmetic : Obligations.ThreeRegisterArithmetic := by
  unfold Obligations.ThreeRegisterArithmetic
  intro n b s u h hguard hill x y writes
  have hgives {c : Instr} {f : Word → Word → Word} {v : Word} (hc : exec c s = .next ((alu3 n b f).run n s))
      (hv : f x y = v) : Gives c s (writes v) := alu3_gives h hguard hill hc hv
  have hult : x.ult y = decide (x.toNat < y.toNat) := rfl
  exact ⟨hgives rfl rfl, hgives rfl rfl, hgives rfl rfl, hgives rfl rfl, hgives rfl rfl, hgives rfl rfl, hgives rfl rfl,
    hgives rfl rfl, hgives rfl rfl, hgives rfl (by simp [hult]), hgives rfl (by simp [hult])⟩

/-- Settles O2: the immediate is the low 14 bits, sign-extended for ADDI alone; a legal shift amount is below 32. -/
theorem immediateArithmetic : Obligations.ImmediateArithmetic := by
  unfold Obligations.ImmediateArithmetic
  intro n b s u h hguard hm x writes
  have hill := illI_eq_false hm
  rw [← ofNat_fieldImm]
  refine ⟨aluI_gives h hguard hill rfl rfl, aluI_gives h hguard hill rfl rfl, aluI_gives h hguard hill rfl rfl,
    aluI_gives h hguard hill rfl rfl, fun himm => ?shifts, fun w1 himm hra hwords => ?ldi⟩
  case shifts =>
    have hlegal := illShift_eq_false hm himm
    have hmod : fieldImm b % 32 = fieldImm b := Nat.mod_eq_of_lt himm
    rw [← hmod]
    exact ⟨aluI_gives h hguard hlegal rfl rfl, aluI_gives h hguard hlegal rfl rfl, aluI_gives h hguard hlegal rfl rfl⟩
  case ldi =>
    have hearly : (opLdi n b w1).early = none := by simp [opLdi, firstFault, low20_eq_zero hra hm himm]
    exact Issue.gives (i := opLdi n b w1) { h with inForme := hwords } hguard rfl hearly rfl
      (ownStep_setW (words := 2) (v := fun _ => w1) rfl)

end

section
/-! SUPPORT. Bit fields, bit by bit, and the pairs (04 R74, R77). -/
namespace Sys2Proof.Machine

section
variable {b : BitVec 26} {x d : Word} {pos len j : Nat} (hj : j < 32)

theorem fieldLen_le (b : BitVec 26) : fieldLen b ≤ 32 := Nat.mod_lt _ (by decide)

theorem fieldLen_pos (b : BitVec 26) : 0 < fieldLen b := Nat.succ_pos _

include hj

theorem getLsbD_extractU : (extractU x pos len).getLsbD j = (decide (j < len) && x.getLsbD (pos + j)) := by
  rw [extractU, BitVec.getLsbD_ofNat, Nat.testBit_mod_two_pow, Nat.testBit_div_two_pow, BitVec.testBit_toNat, Nat.add_comm j,
    decide_eq_true hj, Bool.true_and]

/-- Shifted up to bit 31 and back, the field's top bit fills what stands above it. -/
theorem getLsbD_extractS (hpos : 0 < len) (hlen : len ≤ 32) :
    (extractS x pos len).getLsbD j = x.getLsbD (pos + min j (len - 1)) := by
  rw [extractS, BitVec.getLsbD_sshiftRight, BitVec.msb_shiftLeft, BitVec.getMsbD_eq_getLsbD, BitVec.getLsbD_shiftLeft,
    getLsbD_extractU (by omega), getLsbD_extractU (by omega)]
  by_cases hin : j < len
  · have hmin : min j (len - 1) = j := by omega
    have hback : 32 - len + j - (32 - len) = j := by omega
    simp [hmin, hback, hin, show 32 - len + j < 32 by omega, hj]
  · have hmin : min j (len - 1) = len - 1 := by omega
    have htop : 32 - 1 - (32 - len) = len - 1 := by omega
    simp [hmin, htop, show ¬(32 - len + j < 32) by omega, hj, hpos, show 32 - len < 32 by omega]

/-- The mask of a field has the field's bits. -/
theorem getLsbD_fieldMask : (BitVec.ofNat 32 ((2 ^ len - 1) * 2 ^ pos)).getLsbD j = decide (pos ≤ j ∧ j < pos + len) := by
  rw [BitVec.getLsbD_ofNat, Nat.testBit_mul_two_pow, Nat.testBit_two_pow_sub_one, decide_eq_true hj, Bool.true_and,
    ← Bool.decide_and]
  exact decide_eq_decide.mpr ⟨fun h => by omega, fun h => by omega⟩

theorem getLsbD_insertField : (insertField d x pos len).getLsbD j =
    if pos ≤ j ∧ j < pos + len then x.getLsbD (j - pos) else d.getLsbD j := by
  rw [insertField, BitVec.getLsbD_or, BitVec.getLsbD_and, BitVec.getLsbD_and, BitVec.getLsbD_not, getLsbD_fieldMask hj,
    BitVec.getLsbD_shiftLeft, decide_eq_true hj]
  by_cases hin : pos ≤ j ∧ j < pos + len
  · simp [hin]
  · simp [hin]

end

theorem oddPair_eq_false {r : Fin 16} (heven : r.val % 2 = 0) : oddPair r = false := by simp [oddPair, heven]

section
variable {n : Fin 320} {b : BitVec 26} {c : Instr} {s u : State} (h : Issues n 1 1 s u)
  (hguard : getP (getS u n) (fieldG b) = true)
include h hguard

theorem ext_gives (hbits : bits b.toNat 10 4 = 0) (hm : fieldM b ≤ 1) : Gives (.ext n b) s (OwnStep n 1 1
    (regAfter (getS u n) (fieldRD b) (if fieldM b = 0 then extractU (getW (getS u n) (fieldRA b)) (fieldPos b) (fieldLen b)
      else extractS (getW (getS u n) (fieldRA b)) (fieldPos b) (fieldLen b))) (getP (getS u n)) u) :=
  aluI_gives h hguard (by simp [hbits, hm]) rfl rfl

theorem ins_gives (hbits : bits b.toNat 10 4 = 0) (hm : fieldM b = 0) : Gives (.ins n b) s (OwnStep n 1 1
    (regAfter (getS u n) (fieldRD b) (insertField (getW (getS u n) (fieldRD b)) (getW (getS u n) (fieldRA b)) (fieldPos b)
      (fieldLen b))) (getP (getS u n)) u) := by
  refine Issue.gives (i := opIns n b) h hguard rfl (by simp [opIns, firstFault, illI_eq_false hm, hbits]) rfl (ownStep_setW
    (words := 1) (v := fun t => insertField (getW t (fieldRD b)) (getW t (fieldRA b)) (fieldPos b) (fieldLen b)) ?_)
  rw [getW_advance, getW_advance]

/-- Two pairs make a third. -/
theorem pair3_gives {f : BitVec 64 → BitVec 64 → BitVec 64} (hill : illA b = false) (hrd : (fieldRD b).val % 2 = 0)
    (hra : (fieldRA b).val % 2 = 0) (hrb : (fieldRB b).val % 2 = 0) (hc : exec c s = .next ((pair3 n b f).run n s)) :
    Gives c s (OwnStep n 1 1 (pairAfter (getS u n) (fieldRD b) (f (getX (getS u n) (fieldRA b)) (getX (getS u n) (fieldRB b))))
      (getP (getS u n)) u) := by
  refine Issue.gives (i := pair3 n b f) h hguard hc ?legal rfl
    (ownStep_setX hrd (words := 1) (v := fun t => f (getX t (fieldRA b)) (getX t (fieldRB b))) ?value)
  case legal =>
    simp [pair3, firstFault, hill, oddPair_eq_false hrd, oddPair_eq_false hra, oddPair_eq_false hrb]
  case value => rw [getX_advance, getX_advance]

end

end Sys2Proof.Machine

open Sys2Proof Sys2Proof.Machine

/-- Settles O3: EXT and INS are read bit by bit, and every other result goes to an even pair. -/
theorem bitFieldsAndPairs : Obligations.BitFieldsAndPairs := by
  unfold Obligations.BitFieldsAndPairs
  intro n b s u h hguard t x writes pair
  refine ⟨fun hbits => ⟨fun hm => ⟨_, ext_gives h hguard hbits (by omega), fun j hj => ?extU⟩,
      fun hm => ⟨_, ext_gives h hguard hbits (by omega), fun j hj => ?extS⟩,
      fun hm => ⟨_, ins_gives h hguard hbits hm, fun j hj => getLsbD_insertField hj⟩⟩,
    fun hrd hill => ⟨?mulu64, fun hra hrb =>
      ⟨pair3_gives h hguard hill hrd hra hrb rfl, pair3_gives h hguard hill hrd hra hrb rfl⟩⟩,
    fun hrd hra hm himm => ?shr64i⟩
  case extU =>
    rw [if_pos hm]
    exact getLsbD_extractU hj
  case extS =>
    rw [if_neg (by omega)]
    exact getLsbD_extractS hj (fieldLen_pos b) (fieldLen_le b)
  case mulu64 =>
    have hearly : (opMulu64 n b).early = none := by simp [opMulu64, firstFault, hill, oddPair_eq_false hrd]
    refine Issue.gives (i := opMulu64 n b) h hguard rfl hearly rfl (ownStep_setX hrd (words := 1)
      (v := fun t => (getW t (fieldRA b)).setWidth 64 * (getW t (fieldRB b)).setWidth 64) ?_)
    rw [getW_advance, getW_advance]
  case shr64i =>
    have hearly : (opShr64i n b).early = none := by
      simp [opShr64i, firstFault, illI_eq_false hm, Nat.not_le.mpr himm, oddPair_eq_false hrd, oddPair_eq_false hra]
    refine Issue.gives (i := opShr64i n b) h hguard rfl hearly rfl (ownStep_setX hrd (words := 1)
      (v := fun t => getX t (fieldRA b) >>> fieldImm b) ?_)
    rw [getX_advance]

end

section
/-! SUPPORT. Compares and predicate logic (04 R73, R75). -/
namespace Sys2Proof.Machine

/-- The conditions of R73, each as the manual words it. -/
theorem condHolds_cases (x y : Word) : condHolds 0 x y = (x == y) ∧ condHolds 1 x y = (x != y) ∧
    condHolds 2 x y = decide (x.toInt < y.toInt) ∧ condHolds 3 x y = decide (y.toInt ≤ x.toInt) ∧
    condHolds 4 x y = decide (x.toNat < y.toNat) ∧ condHolds 5 x y = decide (y.toNat ≤ x.toNat) ∧
    condHolds 6 x y = decide (x.toInt ≤ y.toInt) ∧ condHolds 7 x y = decide (y.toInt < x.toInt) ∧
    condHolds 8 x y = decide (x.toNat ≤ y.toNat) ∧ condHolds 9 x y = decide (y.toNat < x.toNat) ∧
    condHolds 10 x y = ((x &&& y) != 0) ∧ condHolds 11 x y = ((x &&& y) == 0) := by
  have hlt (p q : Int) : (!decide (p < q)) = decide (q ≤ p) := by simp only [← decide_not, Int.not_lt]
  have hle (p q : Int) : (!decide (p ≤ q)) = decide (q < p) := by simp only [← decide_not, Int.not_le]
  have hult (p q : Nat) : (!decide (p < q)) = decide (q ≤ p) := by simp only [← decide_not, Nat.not_lt]
  have hule (p q : Nat) : (!decide (p ≤ q)) = decide (q < p) := by simp only [← decide_not, Nat.not_le]
  exact ⟨rfl, rfl, rfl, hlt _ _, rfl, hult _ _, rfl, hle _ _, rfl, hule _ _, rfl, rfl⟩

theorem plogBit_eq (tt : Nat) (pa pb : Bool) : plogBit tt pa pb = tt.testBit (2 * pa.toNat + pb.toNat) := by
  cases pa <;> cases pb <;> rfl

theorem illCond_eq_false {cc : Nat} (hcc : cc < 12) : illCond cc = false := by simp [illCond, hcc]

end Sys2Proof.Machine

open Sys2Proof Sys2Proof.Machine

/-- Settles O4: each of them writes one predicate, with what it finds in registers or predicates that its own issue leaves. -/
theorem comparesWritePredicates : Obligations.ComparesWritePredicates := by
  unfold Obligations.ComparesWritePredicates
  intro n b s u h hguard t sets
  refine ⟨fun hlow hbits hf => ⟨?cmp, fun hra hrb => ?cmp64⟩, fun hrd => ?cmpi, fun hlow hbits ha hb => ?plog,
    condHolds_cases⟩
  case cmp =>
    have hearly : (opCmp n b).early = none := by simp [opCmp, firstFault, hlow, hbits, illCond_eq_false hf]
    refine Issue.gives (i := opCmp n b) h hguard rfl hearly rfl
      (ownStep_setP (words := 1) (v := fun t => condHolds (fieldF b) (getW t (fieldRA b)) (getW t (fieldRB b))) ?_)
    rw [getW_advance, getW_advance]
  case cmp64 =>
    have hearly : (opCmp64 n b).early = none := by
      simp [opCmp64, firstFault, hlow, hbits, illCond_eq_false hf, oddPair_eq_false hra, oddPair_eq_false hrb]
    refine Issue.gives (i := opCmp64 n b) h hguard rfl hearly rfl
      (ownStep_setP (words := 1) (v := fun t => condHolds (fieldF b) (getX t (fieldRA b)) (getX t (fieldRB b))) ?_)
    rw [getX_advance, getX_advance]
  case cmpi =>
    have hearly : (opCmpi n b).early = none := by simp [opCmpi, firstFault, illCond_eq_false hrd]
    refine Issue.gives (i := opCmpi n b) h hguard rfl hearly rfl
      (ownStep_setP (words := 1) (v := fun t => condHolds (fieldRD b).val (getW t (fieldRA b)) (fieldSimm b)) ?_)
    rw [getW_advance]
    rfl
  case plog =>
    have hearly : (opPlog n b).early = none := by simp [opPlog, firstFault, hlow, hbits, ha, hb]
    refine Issue.gives (i := opPlog n b) h hguard rfl hearly rfl
      (ownStep_setP (words := 1) (v := fun t => plogBit (fieldF b) (getP t (fieldPA b)) (getP t (fieldPB b))) ?_)
    rw [getP_advance, getP_advance, plogBit_eq]

end

section
/-! SUPPORT. Every instruction as it issues, and what it does when its guard is false or its activation has no cycles left
(03 R50, 04 R67). -/
namespace Sys2Proof.Machine

section
variable {n : Fin 320} {i : Issue} {s u : State}

/-- The command `f` is an instruction of strand `n` with the guard that `b` names: it stands beside its words, its issue cycles
and the fault of its encoding. -/
def IsIssue (n : Fin 320) (b : BitVec 26) (f : Instr × Nat × Nat × Option Nat) : Prop :=
  ∃ i : Issue, (∀ s, exec f.1 s = .next (i.run n s)) ∧ i.words = f.2.1 ∧ i.cycles = f.2.2.1 ∧ i.early = f.2.2.2 ∧
    i.guard = fieldG b

/-- A NOP word is the opcode 0x01 before its body (04 R72). -/
theorem exec_nop (b : BitVec 26) (s : State) : exec (.nop n (1#6 ++ b)) s = .next ((opNop n 0x01 b).run n s) := by
  have hb := b.isLt
  have hword : (1#6 ++ b).toNat = 2 ^ 26 + b.toNat := by
    rw [BitVec.toNat_append, ← Nat.shiftLeft_add_eq_or_of_lt hb]
    rfl
  have hop : opcodeOf (1#6 ++ b) = 0x01 := by
    rw [opcodeOf, bits, hword]
    omega
  have hbody : (1#6 ++ b).truncate 26 = b := by
    apply BitVec.eq_of_toNat_eq
    rw [BitVec.truncate_eq_setWidth, BitVec.toNat_setWidth, hword]
    omega
  show Host.Outcome.next ((opNop n (opcodeOf (1#6 ++ b)) ((1#6 ++ b).truncate 26)).run n s) = _
  rw [hop, hbody]

/-- A false guard leaves the strand but for the issue (04 R67). -/
theorem Issue.run_skip_ownStep (h : Issues n i.words i.cycles s u) (he : i.early = none)
    (hguard : getP (getS u n) i.guard = false) :
    OwnStep n i.words i.cycles (getW (getS u n)) (getP (getS u n)) u (i.run n s) := by
  rw [Issue.run_skip h.granted h.unresolved h.noBreak h.budget h.inForme he hguard]
  exact ownStep_advance _

/-- An activation without the cycles of the instruction left is a CAP_HMAX fault, whatever the instruction is (03 R50). -/
theorem Issue.run_over (hg : grant n s = some u) (hgal : (getS u n).galley = none) (hb : atBreakpoint n u = false)
    (hcls : (getS u n).cls = 0) (hover : (getS u n).hmax < (getS u n).used + i.cycles) : i.run n s = capFault n 0xA0 u := by
  unfold Issue.run Issue.core
  simp [hg, hgal, hb, hcls, hover]

end

end Sys2Proof.Machine

open Sys2Proof Sys2Proof.Machine

/-- Settles O5: every instruction is an issue, and every issue treats its guard and its cycles alike. That CAP_HMAX comes before
the other faults is the model's choice (assumption log 57). -/
theorem falseGuardHasNoEffect : Obligations.FalseGuardHasNoEffect := by
  unfold Obligations.FalseGuardHasNoEffect
  intro n b w1 s u forms
  have hforms : ∀ f ∈ forms, IsIssue n b f := by
    refine List.forall_mem_cons.mpr ⟨⟨opNop n 0x01 b, exec_nop b, rfl, rfl, rfl, rfl⟩, ?_⟩
    repeat
      refine List.forall_mem_cons.mpr ⟨⟨_, fun _ => rfl, rfl, rfl, rfl, rfl⟩, ?_⟩
    exact List.forall_mem_nil _
  refine ⟨rfl, fun f hf h he hguard => ?skips, fun f hf hg hgal hb hcls hst hover hfb => ?budget⟩
  case skips =>
    obtain ⟨i, hc, hwords, hcycles, hearly, hi⟩ := hforms f hf
    rw [← hwords, ← hcycles] at h ⊢
    exact ⟨_, hc s, Issue.run_skip_ownStep h (hearly.trans he) (by rwa [hi])⟩
  case budget =>
    obtain ⟨i, hc, -, hcycles, -, -⟩ := hforms f hf
    rw [← hcycles] at hover
    have hstop := capFault_stops (code := 0xA0) (by rw [hst]; nofun) (by rw [hst]; nofun) hfb
    exact ⟨_, (hc s).trans (congrArg Host.Outcome.next (Issue.run_over hg hgal hb hcls hover)), hstop.st, hstop.fault⟩

end

section
/-! SUPPORT. Loads: the bytes of the window as the strand reads them (04 R71, R76). -/
namespace Sys2Proof.Machine

/-! ## Little-endian bytes -/

theorem ofNat_leNat_cons (w : Nat) (b : Byte) (bs : List Byte) :
    BitVec.ofNat (w + 8) (leNat (b :: bs)) = BitVec.ofNat w (leNat bs) ++ b := by
  apply BitVec.eq_of_toNat_eq
  have hb := b.isLt
  have hsplit : 2 ^ (w + 8) = 256 * 2 ^ w := by rw [pow_add, Nat.mul_comm]; rfl
  have hlow : (b.toNat + 256 * leNat bs) % 256 = b.toNat := by omega
  have hhigh : (b.toNat + 256 * leNat bs) / 256 = leNat bs := by omega
  rw [BitVec.toNat_append, BitVec.toNat_ofNat, BitVec.toNat_ofNat, leNat, ← Nat.shiftLeft_add_eq_or_of_lt hb,
    Nat.shiftLeft_eq, hsplit, Nat.mod_mul, hlow, hhigh]
  omega

theorem ofNat_leNat_one (a : Byte) : BitVec.ofNat 8 (leNat [a]) = a := by simp [leNat]

theorem ofNat_leNat_two (a b : Byte) : BitVec.ofNat 16 (leNat [a, b]) = b ++ a := by
  rw [ofNat_leNat_cons 8, ofNat_leNat_one]

theorem ofNat_leNat_four (a b c d : Byte) : BitVec.ofNat 32 (leNat [a, b, c, d]) = d ++ c ++ b ++ a := by
  rw [ofNat_leNat_cons 24, ofNat_leNat_cons 16, ofNat_leNat_two]

theorem ofNat_leNat_eight (a b c d e f g h : Byte) :
    BitVec.ofNat 64 (leNat [a, b, c, d, e, f, g, h]) = h ++ g ++ f ++ e ++ d ++ c ++ b ++ a := by
  rw [ofNat_leNat_cons 56, ofNat_leNat_cons 48, ofNat_leNat_cons 40, ofNat_leNat_cons 32, ofNat_leNat_four]

theorem leNat_lt (bs : List Byte) : leNat bs < 2 ^ (8 * bs.length) := by
  induction bs with
  | nil => decide
  | cons b bs ih =>
    have hb := b.isLt
    rw [leNat, List.length_cons, Nat.mul_succ, pow_add]
    omega

/-- A number that fits into `w` bits is zero-extended to 32. -/
theorem ofNat_eq_setWidth {w v : Nat} (h : v < 2 ^ w) : BitVec.ofNat 32 v = (BitVec.ofNat w v).setWidth 32 := by
  apply BitVec.eq_of_toNat_eq
  rw [BitVec.toNat_setWidth, BitVec.toNat_ofNat, BitVec.toNat_ofNat, Nat.mod_eq_of_lt h]

/-! ## A load -/

section
variable {n : Fin 320} {b : BitVec 26} {c : Instr} {s u : State} {size : Nat}

/-- An access inside the window is no fault. -/
theorem memFault_inside (hin : memOffset u n b size + size ≤ windowBytes (getS u n)) : memFault n b size u = none := by
  simp [memFault, outsideWindow, hin]

/-- With no galley open the window shows case memory. -/
theorem windowByte_closed {t : Strand} (h : t.galley = none) (i : Nat) :
    windowByte u t i = byteAt 0 u.cap.caseMem (64 * t.winBase + i) := by
  rw [windowByte, h, windowStart, Nat.mul_comm]

theorem load_gives {v : Word} (h : Issues n 1 1 s u) (hguard : getP (getS u n) (fieldG b) = true) (hm : fieldM b = 0)
    (hin : memOffset u n b size + size ≤ windowBytes (getS u n)) (hc : exec c s = .next ((opLoad size n b).run n s))
    (hv : BitVec.ofNat 32 (memLoad u n b size) = v) :
    Gives c s (OwnStep n 1 1 (regAfter (getS u n) (fieldRD b) v) (getP (getS u n)) u) :=
  Issue.gives (i := opLoad size n b) h hguard hc (by simp [opLoad, firstFault, illI_eq_false hm]) (memFault_inside hin)
    (ownStep_setW (words := 1) (v := fun _ => BitVec.ofNat 32 (memLoad u n b size)) hv)

end

end Sys2Proof.Machine

open Sys2Proof Sys2Proof.Machine

/-- Settles O6: a load spells its register out of the bytes of the window from its offset up, the lowest first. -/
theorem loadsReadTheWindow : Obligations.LoadsReadTheWindow := by
  unfold Obligations.LoadsReadTheWindow
  intro n b s u h hguard hm t o byteOf writes
  refine ⟨fun hin => load_gives h hguard hm hin rfl (ofNat_leNat_four ..), fun hin => load_gives h hguard hm hin rfl ?half,
    fun hin => load_gives h hguard hm hin rfl ?byte, fun hin hrd => ?double, fun hgal i => windowByte_closed hgal i⟩
  case half =>
    show BitVec.ofNat 32 (leNat [byteOf (o 2), byteOf (o 2 + 1)]) = _
    rw [ofNat_eq_setWidth (w := 16) (leNat_lt _), ofNat_leNat_two]
  case byte =>
    show BitVec.ofNat 32 (leNat [byteOf (o 1)]) = _
    rw [ofNat_eq_setWidth (w := 8) (leNat_lt _), ofNat_leNat_one]
  case double =>
    have hearly : (opLd64 n b).early = none := by simp [opLd64, firstFault, illI_eq_false hm, oddPair_eq_false hrd]
    exact Issue.gives (i := opLd64 n b) h hguard rfl hearly (memFault_inside hin)
      (ownStep_setX hrd (words := 1) (v := fun _ => BitVec.ofNat 64 (memLoad u n b 8)) (ofNat_leNat_eight ..))

end

section
/-! SUPPORT. Stores: the bytes they write, at once or into the galley (04 R71, R76, R87, 05 R93). -/
namespace Sys2Proof.Machine

/-! ## Little-endian bytes -/

@[simp] theorem length_leBytes (v k : Nat) : (leBytes v k).length = k := by
  induction k generalizing v with
  | zero => rfl
  | succ k ih => rw [leBytes, List.length_cons, ih]

theorem getElem?_leBytes {v k i : Nat} (h : i < k) : (leBytes v k)[i]? = some (BitVec.ofNat 8 (v / 256 ^ i)) := by
  induction k generalizing v i with
  | zero => exact absurd h (Nat.not_lt_zero i)
  | succ k ih =>
    cases i with
    | zero => simp [leBytes]
    | succ i =>
      rw [leBytes, List.getElem?_cons_succ, ih (Nat.lt_of_succ_lt_succ h), Nat.div_div_eq_div_mul, pow_succ, Nat.mul_comm]

/-- The bytes of a number written to a memory are read back, and every other byte as it was. -/
theorem byteAt_putBytes_leBytes (d : Byte) {m : NMap Byte} (hm : mapWf d m = true) (a v k x : Nat) :
    byteAt d (putBytes d m a (leBytes v k)) x =
      if a ≤ x ∧ x < a + k then BitVec.ofNat 8 (v / 256 ^ (x - a)) else byteAt d m x := by
  split
  · next hin =>
    have hlt : x - a < (leBytes v k).length := by rw [length_leBytes]; omega
    have hread := byteAt_putBytes_same d hm a (leBytes v k) hlt
    rw [show a + (x - a) = x by omega] at hread
    rw [hread]
    exact Option.some.inj ((List.getElem?_eq_getElem hlt).symm.trans (getElem?_leBytes (by rwa [length_leBytes] at hlt)))
  · next hout => exact byteAt_putBytes_other d hm a _ (by rw [length_leBytes]; omega)

theorem caseMem_wf {s : State} (h : Memory.wf s = true) : mapWf 0 s.cap.caseMem = true := by
  simp only [Memory.wf, Cap.memWf, Bool.and_eq_true] at h
  obtain ⟨⟨⟨⟨⟨⟨-, hcase⟩, -⟩, -⟩, -⟩, -⟩, -⟩ := h
  exact hcase

/-! ## A store as an instruction -/

section
variable {n : Fin 320} {b : BitVec 26} {c : Instr} {s u : State} {size : Nat} {P : State → Prop} (h : Issues n 1 1 s u)
  (hguard : getP (getS u n) (fieldG b) = true) (hm : fieldM b = 0)
include h hguard hm

theorem store_gives (hin : memOffset u n b size + size ≤ windowBytes (getS u n))
    (hc : exec c s = .next ((opStore size n b).run n s))
    (hP : P (storeBytes n (memOffset u n b size) (leBytes (getW (getS u n) (fieldRD b)).toNat size) u)) : Gives c s P :=
  Issue.gives (i := opStore size n b) h hguard hc (by simp [opStore, firstFault, illI_eq_false hm]) (memFault_inside hin) hP

theorem st64_gives (hrd : (fieldRD b).val % 2 = 0) (hin : memOffset u n b 8 + 8 ≤ windowBytes (getS u n))
    (hP : P (storeBytes n (memOffset u n b 8) (leBytes (getX (getS u n) (fieldRD b)).toNat 8) u)) : Gives (.st64 n b) s P :=
  Issue.gives (i := opSt64 n b) h hguard rfl
    (by simp [opSt64, firstFault, illI_eq_false hm, oddPair_eq_false hrd]) (memFault_inside hin) hP

end

section
variable {n : Fin 320} {u : State}

theorem speculative_closed (h : (getS u n).galley = none) : speculative u n = false := by rw [speculative, h]

theorem storeBytes_now (hnow : speculative u n = false) (o : Nat) (bs : List Byte) : storeBytes n o bs u =
    (modS n (Strand.advance 1 1) u).updCap fun c => { c with caseMem := putBytes 0 c.caseMem (caseAddr u n o) bs } := by
  rw [storeBytes, hnow]
  rfl

end

end Sys2Proof.Machine

open Sys2Proof Sys2Proof.Machine

/-- Settles O7: outside a galley every store is one write of bytes to case memory after the strand's own issue. -/
theorem storesWriteCaseMemory : Obligations.StoresWriteCaseMemory := by
  unfold Obligations.StoresWriteCaseMemory
  intro n b s u h hguard hm hwf hgal t o stores
  have hstores (size v : Nat) : stores size v (storeBytes n (o size) (leBytes v size) u) := by
    have hissue := ownStep_advance (n := n) (words := 1) (u := u) 1
    rw [storeBytes_now (speculative_closed hgal)]
    refine ⟨fun x => ?_, hissue.strand, hissue.frame.others, rfl⟩
    rw [show 64 * t.winBase + o size = caseAddr u n (o size) from congrArg (· + o size) (Nat.mul_comm ..)]
    exact byteAt_putBytes_leBytes 0 (caseMem_wf hwf) _ v size x
  exact ⟨fun hin => store_gives h hguard hm hin rfl (hstores 4 _), fun hin => store_gives h hguard hm hin rfl (hstores 2 _),
    fun hin => store_gives h hguard hm hin rfl (hstores 1 _), fun hin hrd => st64_gives h hguard hm hrd hin (hstores 8 _)⟩

end

section
/-! SUPPORT. What a galley holds of the window's units, and the strand's window before and after a held store (04 R87, 05 R93). -/
namespace Sys2Proof.Machine

/-! ## A change of one strand -/

section
variable {n : Fin 320} {u : State}

/-- A change of one strand's record is a change of that strand alone. -/
theorem onlyStrand_modS (f : Strand → Strand) : OnlyStrand n u (modS n f u) := ⟨rfl, fun _ h => getS_modS_other h f u⟩

/-- The galley of a speculative strand. -/
theorem speculative_galley (h : speculative u n = true) : ∃ g, (getS u n).galley = some g ∧ g.resolved = none := by
  unfold speculative at h
  split at h
  · next g hg => exact ⟨g, hg, Option.isNone_iff_eq_none.mp h⟩
  · exact nomatch h

theorem heldOf_eq {g : Galley} (h : (getS u n).galley = some g) : heldOf u n = g.held := by rw [heldOf, h]; rfl

end

/-! ## An instruction whose effect the galley holds (04 R87) -/

/-- The strand past an instruction of one word, its galley holding what `f` makes of the entries held before. -/
def Strand.holding (cycles : Nat) (f : List Held → List Held) (t : Strand) : Strand :=
  { t.advance 1 cycles with galley := t.galley.map fun g => { g with held := f g.held } }

section
variable {n : Fin 320} {u : State} {t : Strand} {cycles : Nat} {f : List Held → List Held}

@[simp] theorem getW_holding (i : Fin 16) : getW (t.holding cycles f) i = getW t i := getW_advance 1 cycles t i

@[simp] theorem holding_pc : (t.holding cycles f).pc = t.pc + 1 := rfl

@[simp] theorem holding_winBase : (t.holding cycles f).winBase = t.winBase := by
  unfold Strand.holding Strand.advance Strand.charge
  split <;> rfl

theorem holding_galley {g : Galley} (hg : t.galley = some g) :
    (t.holding cycles f).galley = some { g with held := f g.held } := congrArg (Option.map _) hg

theorem modHeld_advance : modHeld n f (modS n (Strand.advance 1 cycles) u) = modS n (Strand.holding cycles f) u := by
  refine (modS_modS ..).trans (modS_congr ?_)
  simp only [Function.comp, Strand.holding, advance_galley]

theorem addHeld_advance (k : HeldKind) : addHeld n k (modS n (Strand.advance 1 cycles) u) =
    modS n (Strand.holding cycles (· ++ [{ kind := k }])) u := by
  refine (modS_modS ..).trans (modS_congr ?_)
  simp only [Function.comp, Strand.holding, advance_galley]
  rfl

theorem heldOf_holding (hg : (getS u n).galley.isSome = true) :
    heldOf (modS n (Strand.holding cycles f) u) n = f (heldOf u n) := by
  obtain ⟨g, hg⟩ := Option.isSome_iff_exists.mp hg
  rw [heldOf_eq hg, heldOf_eq (g := { g with held := f g.held })]
  rw [getS_modS_same, holding_galley hg]

end

/-! ## The unit of the window that holds a byte -/

section
variable {k j o : Nat} {bs : List Byte} {hs : List Held}

theorem mapGet?_putUnit (m : NMap Byte) (o : Nat) (bs : List Byte) (j : Nat) :
    mapGet? (putUnit m o bs) j = if o ≤ j ∧ j < o + bs.length then bs[j - o]? else mapGet? m j := by
  induction bs generalizing m o with
  | nil =>
    rw [if_neg (by simp)]
    rfl
  | cons b bs ih =>
    rw [putUnit, ih, List.length_cons]
    by_cases hj : j = o
    · subst hj
      rw [if_neg (by omega), if_pos (by omega), mapGet?_mapPut_same, Nat.sub_self, List.getElem?_cons_zero]
    · rw [mapGet?_mapPut_other m hj]
      by_cases hin : o + 1 ≤ j ∧ j < o + 1 + bs.length
      · rw [if_pos hin, if_pos (by omega), show j - o = j - (o + 1) + 1 by omega, List.getElem?_cons_succ]
      · rw [if_neg hin, if_neg (by omega)]

/-- The bytes of unit `k` and of no other change. -/
theorem heldUnit_updateUnit (hs : List Held) : heldUnit j (updateUnit k o bs hs) =
    if j = k then (heldUnit k hs).map (putUnit · o bs) else heldUnit j hs := by
  induction hs with
  | nil => simp [updateUnit, heldUnit]
  | cons e hs ih =>
    rcases e with ⟨kind, fenced, cut⟩
    cases kind with
    | unit k' m =>
      by_cases hk : k' = k
      · subst hk
        by_cases hj : j = k'
        · subst hj; simp [updateUnit, heldUnit]
        · simp [updateUnit, heldUnit, hj, Ne.symm hj]
      · by_cases hj : j = k
        · subst hj; simp [updateUnit, heldUnit, hk, ih]
        · simp [updateUnit, heldUnit, hk, ih, hj]
    | acc | port | enq | take | svc | svca | sig => simpa [updateUnit, heldUnit] using ih

/-- A new unit stands behind those that the galley holds. -/
theorem heldUnit_append_unit (hs : List Held) (m : NMap Byte) : heldUnit j (hs ++ [{ kind := .unit k m }]) =
    (heldUnit j hs).or (if k = j then some m else none) := by
  induction hs with
  | nil => simp [heldUnit]
  | cons e hs ih =>
    rcases e with ⟨kind, fenced, cut⟩
    cases kind with
    | unit k' m' =>
      by_cases hk : k' = j
      · simp [heldUnit, hk]
      · simpa [heldUnit, hk] using ih
    | acc | port | enq | take | svc | svca | sig => simpa [heldUnit] using ih

end

/-! ## The window of a strand with a galley -/

/-- Between the held entries `hs` and `hs'` the bytes `bs` have been written into unit `k` from its byte `o` up, and every other
unit is held as before. -/
def UnitWritten (k o : Nat) (bs : List Byte) (hs hs' : List Held) : Prop :=
  ∀ j, heldUnit j hs' = if j = k then some (putUnit ((heldUnit k hs).getD []) o bs) else heldUnit j hs

section
variable {k o : Nat} {bs : List Byte} {hs hs' : List Held}

theorem unitWritten_updateUnit (h : (heldUnit k hs).isSome = true) : UnitWritten k o bs hs (updateUnit k o bs hs) := by
  obtain ⟨m, hm⟩ := Option.isSome_iff_exists.mp h
  intro j
  rw [heldUnit_updateUnit, hm]
  rfl

theorem unitWritten_append (h : (heldUnit k hs).isSome = false) :
    UnitWritten k o bs hs (hs ++ [{ kind := .unit k (putUnit [] o bs) }]) := by
  have hnone : heldUnit k hs = none := Option.isSome_eq_false_iff.mp h |> Option.isNone_iff_eq_none.mp
  intro j
  rw [heldUnit_append_unit]
  by_cases hj : j = k
  · subst hj; simp [hnone]
  · simp [hj, Ne.symm hj]

/-- The byte `x` of the window: the galley's own, else that of case memory. -/
theorem windowByte_open {s : State} {t : Strand} {g : Galley} (hg : t.galley = some g) (x : Nat) : windowByte s t x =
    mapGet (byteAt 0 s.cap.caseMem (windowStart t + x)) ((heldUnit (x / 64) g.held).getD []) (x % 64) := by
  rw [windowByte, hg]
  dsimp only
  cases heldUnit (x / 64) g.held with
  | none => rfl
  | some m => rfl

/-- After bytes have been written into one unit of its galley, the strand reads them back in its window, and every other byte as
before. -/
theorem windowByte_unitWritten {u r : State} {t t' : Strand} {g g' : Galley} {a : Nat} (hg : t.galley = some g)
    (hg' : t'.galley = some g') (hmem : r.cap.caseMem = u.cap.caseMem) (hbase : t'.winBase = t.winBase)
    (hwritten : UnitWritten (a / 64) (a % 64) bs g.held g'.held) (hfits : a % 64 + bs.length ≤ 64) (x : Nat) :
    windowByte r t' x = if a ≤ x ∧ x < a + bs.length then bs[x - a]?.getD 0 else windowByte u t x := by
  rw [windowByte_open hg', windowByte_open hg, hmem, windowStart, hbase, ← windowStart, hwritten]
  by_cases hunit : x / 64 = a / 64
  · rw [if_pos hunit, hunit, Option.getD_some, mapGet, mapGet?_putUnit]
    by_cases hin : a ≤ x ∧ x < a + bs.length
    · have hoff : x % 64 - a % 64 = x - a := by omega
      have hsome : bs[x - a]? = some bs[x - a] := List.getElem?_eq_getElem (by omega)
      rw [if_pos hin, if_pos (by omega), hoff, hsome, Option.getD_some, Option.getD_some]
    · rw [if_neg hin, if_neg (by omega), mapGet]
  · rw [if_neg hunit, if_neg (by omega)]

end

/-! ## A store into the galley -/

section
variable {n : Fin 320} {u : State} {o : Nat} {bs : List Byte}

/-- A store that finds its unit's entry, or a free one, changes the galley of its strand alone. -/
theorem storeBytes_held (hspec : speculative u n = true)
    (hroom : (heldUnit (o / 64) (heldOf u n)).isSome = true ∨ entryFree n u = true) : ∃ f : List Held → List Held,
      storeBytes n o bs u = modS n (Strand.holding 1 f) u ∧ UnitWritten (o / 64) (o % 64) bs (heldOf u n) (f (heldOf u n)) := by
  by_cases hunit : (heldUnit (o / 64) (heldOf u n)).isSome = true
  · refine ⟨updateUnit (o / 64) (o % 64) bs, ?_, unitWritten_updateUnit hunit⟩
    rw [storeBytes, hspec, if_pos hunit]
    exact modHeld_advance
  · refine ⟨(· ++ [{ kind := .unit (o / 64) (putUnit [] (o % 64) bs) }]), ?_, unitWritten_append (by simpa using hunit)⟩
    rw [storeBytes, hspec, if_neg hunit, if_pos (hroom.resolve_left hunit)]
    exact addHeld_advance _

end

end Sys2Proof.Machine

open Sys2Proof Sys2Proof.Machine

/-- Settles O8: the store goes into one unit that the galley holds, and the strand reads its window through the galley. -/
theorem speculativeStoresAreHeld : Obligations.SpeculativeStoresAreHeld := by
  unfold Obligations.SpeculativeStoresAreHeld
  intro n b s u h hguard hm hspec t o holds room
  obtain ⟨g, hg, -⟩ := speculative_galley hspec
  have hholds (size v : Nat) (hfits : o size % 64 + size ≤ 64) (hroom : room size) :
      holds size v (storeBytes n (o size) (leBytes v size) u) := by
    obtain ⟨f, hstore, hwritten⟩ := storeBytes_held (bs := leBytes v size) hspec hroom
    rw [heldOf_eq hg] at hwritten
    rw [hstore]
    refine ⟨onlyStrand_modS _, fun i => ?_, ?_, fun x => ?_⟩
    · rw [getS_modS_same, getW_holding]
    · rw [getS_modS_same, holding_pc]
    · rw [getS_modS_same, windowByte_unitWritten (u := u) hg (holding_galley hg) (modS_caseMem ..) holding_winBase hwritten
        (by rwa [length_leBytes]), length_leBytes]
      split
      · next hin => rw [getElem?_leBytes (by omega), Option.getD_some]
      · rfl
  have hfits4 : o 4 % 64 + 4 ≤ 64 := by simp only [o]; omega
  have hfits2 : o 2 % 64 + 2 ≤ 64 := by simp only [o]; omega
  have hfits1 : o 1 % 64 + 1 ≤ 64 := by simp only [o]; omega
  have hfits8 : o 8 % 64 + 8 ≤ 64 := by simp only [o]; omega
  exact ⟨fun hin hroom => store_gives h hguard hm hin rfl (hholds 4 _ hfits4 hroom),
    fun hin hroom => store_gives h hguard hm hin rfl (hholds 2 _ hfits2 hroom),
    fun hin hroom => store_gives h hguard hm hin rfl (hholds 1 _ hfits1 hroom),
    fun hin hroom hrd => st64_gives h hguard hm hrd hin (hholds 8 _ hfits8 hroom)⟩

end

section
/-! SUPPORT. A branch issued by a strand for which a galley entry is kept (05 R96): the entry stays kept, where every instruction
that does not branch lets go of it. -/
namespace Sys2Proof.Machine

/-- A class-0 strand on the engine, with an entry kept for it. -/
def entryKept : Strand := { st := .running, cls := 0, reserved := true }

/-- The module in service in STANDALONE, with that strand about to issue from a forme of one word. -/
def branching : State :=
  modS 0 (fun _ => entryKept)
    ((State.reset.updSys fun y => { y with mode := .standalone }).updCap fun c => { c with running := some 0, formeWords := 1 })

theorem getS_branching : getS branching 0 = entryKept := getS_modS_same ..

theorem branching_issues : Issues 0 1 1 branching branching := by
  have hstrand : branching.cap.strand 0 = entryKept := getS_branching
  have hschedule := Cap.schedule_classZero (turn := turnLen branching) (ws := weightsNow branching)
    (show branching.cap.running = some 0 from rfl) (by rw [hstrand]; rfl)
  refine ⟨grant_of_schedule (by decide) hschedule rfl, ?_, ?_, ?_, ?_⟩
  · rw [getS_branching]; rfl
  · rw [atBreakpoint, getS_branching]; rfl
  · rw [getS_branching]; decide
  · rw [getS_branching]; exact Nat.le_refl 1

theorem exec_branching : exec (.br 0 0) branching = .next (branchTo 0 0 0 branching) := by
  refine congrArg Host.Outcome.next (Issue.run_effect (i := opBr 0 0) branching_issues.granted branching_issues.unresolved
    branching_issues.noBreak branching_issues.budget branching_issues.inForme rfl rfl ?_)
  show badTarget ((getS branching 0).pc + fieldDisp 0) branching = none
  rw [getS_branching]
  rfl

/-- The branch leaves the entry kept. -/
theorem branchTo_reserved : (getS (branchTo 0 0 0 branching) 0).reserved = true := by
  rw [branchTo, getS_modS_same, getS_branching]
  rfl

end Sys2Proof.Machine

open Sys2Proof Sys2Proof.Machine

/-- Refutes O9: a galley entry that is kept for the strand (05 R96) is still kept after its BR, and the statement says of a branch,
as of every instruction, that none is. -/
theorem not_branchesAndYield : ¬ Obligations.BranchesAndYield := by
  intro h
  obtain ⟨hbr, -⟩ := h 0 0 branching branching branching_issues (by rw [getS_branching]; rfl)
  obtain ⟨r, hr, hissued, -⟩ := hbr rfl (by rw [getS_branching]; decide)
  rw [exec_branching] at hr
  cases hr
  have hfree := congrArg Strand.reserved hissued.rest
  exact absurd (branchTo_reserved.symm.trans hfree) (by decide)

end

section
/-! SUPPORT. A strand that an instruction leaves BLOCKED (03 R42). -/
namespace Sys2Proof.Machine

section
variable {n m : Fin 320} {s : State} {why : Block}

@[simp] theorem getS_blockOn_same : getS (blockOn why n s) n = { getS s n with st := .blocked, block := some why } := by
  rw [blockOn, getS_updCap, Cap.strand_modStrand_same, Cap.strand_stopIn_same]
  rfl

theorem getS_blockOn_other (h : m ≠ n) : getS (blockOn why n s) m = getS s m := by
  rw [blockOn, getS_updCap, Cap.strand_modStrand_other h, Cap.strand_stopIn_other h]
  rfl

theorem running_blockOn (h : s.cap.running = some n) : (blockOn why n s).cap.running = none := Cap.running_stopIn .blocked (.inl h)

@[simp] theorem blockOn_calls : (blockOn why n s).cap.calls = s.cap.calls := rfl

end

end Sys2Proof.Machine
end

section
/-! SUPPORT. GET, PUT and PUTS (04 R79 to R81, R87). -/
namespace Sys2Proof.Machine

section
variable {n : Fin 320} {b : BitVec 26} {s u : State} {v : Nat}

/-! ## GET -/

theorem opGet_effect_value (hport : fieldPort b ≠ 0xD00)
    (hget : portGet n (fieldPort b) (getW (getS u n) (fieldRA b)) u = some v) :
    (opGet n b).effect u = modS n (fun t => setW (fieldRD b) (BitVec.ofNat 32 v) (t.advance 1 1)) u := by
  simp only [opGet, hport, hget, if_false]

/-- A port whose value the manual leaves open gives a free value. -/
theorem opGet_effect_free (hport : fieldPort b ≠ 0xD00)
    (hget : portGet n (fieldPort b) (getW (getS u n) (fieldRA b)) u = none) : ∃ (w : Word) (bound : Nat),
    (opGet n b).effect u = modS n (fun t => setW (fieldRD b) w (t.advance 1 1)) (freeBelow bound u).2 := by
  simp only [opGet, hport, hget, if_false]
  exact ⟨_, _, rfl⟩

theorem getS_freeBelow (bound : Nat) : getS (freeBelow bound u).2 n = getS u n := rfl

theorem opGet_effect_store (hport : fieldPort b = 0xD00) : (opGet n b).effect u =
    blockOn (.storeRead (fieldRD b).val (getW (getS u n) (fieldRA b))) n (modS n (Strand.advance 1 1) u) := by
  simp only [opGet, hport, if_true]

/-! ## Which writes are held (04 R79, R81) -/

variable {p : Nat} {arg : Word}

/-- A held write is one of a speculative strand to an Outward port, or to one by rule with a value that PUTS would not apply. -/
theorem putHeld_speaks (h : putHeld n p arg v u = true) : speculative u n = true ∧ ∃ i, portInfo p = some i ∧
    (i.cls = .outward ∨ i.cls = .byRule ∧ v ≠ putsValue n p arg v u) := by
  unfold putHeld putIsSafe at h
  cases hinfo : portInfo p with
  | none => simp [hinfo] at h
  | some i =>
    cases hcls : i.cls with
    | inward | safe => simp [hinfo, hcls] at h
    | outward => exact ⟨by simpa [hinfo, hcls] using h, i, rfl, .inl hcls⟩
    | byRule =>
      simp only [hinfo, hcls] at h
      obtain ⟨hspec, hvalue⟩ : speculative u n = true ∧ v ≠ putsValue n p arg v u := by simpa using h
      exact ⟨hspec, i, rfl, .inr ⟨hcls, hvalue⟩⟩

theorem putsValue_lower (h : ∃ i, portInfo p = some i ∧ i.puts = .lower) :
    putsValue n p arg v u = min (portRead n p arg u) v := by
  obtain ⟨i, hinfo, hrule⟩ := h
  unfold putsValue
  simp [hinfo, hrule]

/-! ## PUT and PUTS -/

theorem putEarly_eq_none (hm : fieldMp b ≤ 1) (hpd : fieldPDp b = 0) (hport : putFaults (fieldPort b) = false) :
    putEarly b = none := by
  simp [putEarly, firstFault, hm, hpd, hport]

/-- A strand that may add an entry has a galley. -/
theorem galley_of_entryFree (h : entryFree n u = true) : (getS u n).galley.isSome = true := by
  unfold entryFree Strand.belowLimit at h
  cases hg : (getS u n).galley with
  | none => simp [hg] at h
  | some g => rfl

end

end Sys2Proof.Machine

open Sys2Proof Sys2Proof.Machine

/-- Settles O12: each of the three is one effect after its issue. That the value is held as the port's range limits it is the model's
choice (assumption log 23). -/
theorem portInstructions : Obligations.PortInstructions := by
  unfold Obligations.PortInstructions
  intro n b s u h hguard hpd t p
  refine ⟨fun hm hfault => ?get, fun hbudget hm hfault => ?put, fun arg v hheld => putHeld_speaks hheld,
    fun arg v hrule => putsValue_lower hrule⟩
  case get =>
    have hearly : (opGet n b).early = none := by simp [opGet, firstFault, hm, hpd, show getFaults (fieldPort b) = false from hfault]
    have hgives {P : State → Prop} (hP : P ((opGet n b).effect u)) : Gives (.get n b) s P :=
      Issue.gives (i := opGet n b) h hguard rfl hearly rfl hP
    refine ⟨fun v hport hget => hgives ?_, fun hport hget => hgives ?_, fun hport => hgives ?_⟩
    · rw [opGet_effect_value hport hget]
      exact ownStep_setW (words := 1) (v := fun _ => BitVec.ofNat 32 v) rfl
    · obtain ⟨w, bound, heffect⟩ := opGet_effect_free hport hget
      rw [heffect, getS_modS_same, getS_freeBelow]
      refine ⟨by rw [setW_pc]; rfl, fun j hj => ?_⟩
      rw [getW_setW, if_neg fun hrd => hj hrd.1, getW_advance]
    · rw [opGet_effect_store hport, getS_blockOn_same, getS_modS_same]
      have hrun : (modS n (Strand.advance 1 1) u).cap.running = some n :=
        (modS_running ..).trans (grant_running h.granted)
      exact ⟨rfl, rfl, rfl, running_blockOn hrun⟩
  case put =>
    intro x v
    have hearly := putEarly_eq_none hm hpd hfault
    have hissues : Issues n 1 2 s u := { h with budget := hbudget }
    have hgives {P : State → Prop} (hP : P ((opPut n b).effect u)) : Gives (.put n b) s P :=
      Issue.gives (i := opPut n b) hissues hguard rfl hearly rfl hP
    have heffect : (opPut n b).effect u = if putHeld n p x.2 v u then
        if entryFree n u then addHeld n (.port p x.2 (BitVec.ofNat 32 v)) (modS n (Strand.advance 1 2) u) else stall n u
      else putNow n p x.2 v (modS n (Strand.advance 1 2) u) := rfl
    refine ⟨fun hnow => hgives ?_, fun hheld hfree => hgives ?_,
      Issue.gives (i := opPuts n b) hissues hguard rfl hearly rfl rfl⟩
    · rw [heffect, hnow]
      rfl
    · rw [heffect, if_pos hheld, if_pos hfree, addHeld_advance]
      refine ⟨onlyStrand_modS _, ?_, fun i => ?_, heldOf_holding (galley_of_entryFree hfree)⟩
      · rw [getS_modS_same, holding_pc]
      · rw [getS_modS_same, getW_holding]

end

section
/-! SUPPORT. SVC, SVCA and SIG (04 R84 to R87). -/
namespace Sys2Proof.Machine

section
variable {n m : Fin 320} {b : BitVec 26} {s u : State} {k : HeldKind} {num : Nat} {args : List Word}
  {async : Option (BitVec 8 × Nat)}

/-! ## A call is issued, or held -/

@[simp] theorem getS_issueCall : getS (issueCall n num args async s) m = getS s m := rfl

theorem issueCall_calls : ∃ k : Call,
    (issueCall n num args async s).cap.calls = s.cap.calls ++ [k] ∧ k.id = s.cap.nextCall ∧
    k.strand = n ∧ k.num = num ∧ k.args = args ∧ k.async = async ∧ k.done = none := ⟨_, rfl, rfl, rfl, rfl, rfl, rfl, rfl⟩

@[simp] theorem issueCall_nextCall : (issueCall n num args async s).cap.nextCall = s.cap.nextCall + 1 := rfl

@[simp] theorem heldOf_blockOn {why : Block} : heldOf (blockOn why n s) n = heldOf s n := by
  rw [heldOf, getS_blockOn_same]
  rfl

/-! ## Legal encodings -/

theorem badService_eq_false (hsvc : (serviceClass (fieldImm b)).isSome = true) : badService b = false := by
  rw [badService, ← Option.not_isSome, hsvc]
  rfl

theorem svc_legal (hrd : fieldRD b = 0) (hra : fieldRA b = 0) (hm : fieldM b = 0)
    (hsvc : (serviceClass (fieldImm b)).isSome = true) : (opSvc n b).early = none := by
  have hrd' := congrArg Fin.val hrd
  have hra' := congrArg Fin.val hra
  have hbits : bits b.toNat 14 10 = 0 := by
    simp only [fieldRD, fieldRA, fieldM, bits, Fin.ofNat, Fin.val_zero] at hrd' hra' hm ⊢
    omega
  simp [opSvc, firstFault, hbits, badService_eq_false hsvc]

theorem svca_legal (hm : fieldM b = 0) (hlow : 0x80 ≤ (fieldEvSvca b).toNat) (hhigh : (fieldEvSvca b).toNat ≤ 0xBF)
    (hsvc : (serviceClass (fieldImm b)).isSome = true) : (opSvca n b).early = none := by
  have hlow' : 0x80#8 ≤ fieldEvSvca b := hlow
  have hhigh' : fieldEvSvca b ≤ 0xBF#8 := hhigh
  simp [opSvca, firstFault, illI_eq_false hm, hlow', hhigh', badService_eq_false hsvc]

theorem sig_legal (hm : fieldM b = 0) (hra : fieldRA b = 0) (hbits : bits b.toNat 8 6 = 0) (hev : 0xC0 ≤ bits b.toNat 0 8) :
    (opSig n b).early = none := by
  simp [opSig, firstFault, illI_eq_false hm, hra, hbits, hev]

end

end Sys2Proof.Machine

open Sys2Proof Sys2Proof.Machine

/-- Settles O14: each of the three either has its effect after its issue, or is one entry more in the galley. -/
theorem serviceInstructions : Obligations.ServiceInstructions := by
  unfold Obligations.ServiceInstructions
  intro n b s u h hguard hm t args o holds issues
  have hholds (k : HeldKind) (hfree : entryFree n u = true) :
      holds k (modS n (Strand.holding 1 (· ++ [{ kind := k }])) u) :=
    ⟨fun m hm => getS_modS_other hm _ u, rfl, heldOf_holding (galley_of_entryFree hfree), by rw [getS_modS_same, holding_pc]⟩
  have hissued (async : Option (BitVec 8 × Nat)) : issues async
      (issueCall n (fieldImm b) args async (modS n (Strand.advance 1 1) u)) :=
    ⟨issueCall_calls, issueCall_nextCall, fun m hm => getS_modS_other hm _ u,
      fun i => by rw [getS_issueCall, getS_modS_same, getW_advance]⟩
  have hblocked {r : State} {async : Option (BitVec 8 × Nat)} (why : Block) (hr : issues async r) :
      issues async (blockOn why n r) := by
    obtain ⟨hcalls, hnext, hother, hw⟩ := hr
    refine ⟨hcalls, hnext, fun m hm => (getS_blockOn_other hm).trans (hother m hm), fun i => ?_⟩
    rw [getS_blockOn_same]
    exact hw i
  refine ⟨fun hrd hra hsvc => ?svc, fun hlow hhigh hsvc hin => ?svca, fun hra hbits hev => ?sig⟩
  case svc =>
    have heffect : (opSvc n b).effect u = if callHeld n b u then
        if entryFree n u then blockOn .svcHeld n (addHeld n (.svc (fieldImm b) args) (modS n (Strand.advance 1 1) u)) else stall n u
      else blockOn (.svc u.cap.nextCall) n (issueCall n (fieldImm b) args none (modS n (Strand.advance 1 1) u)) := rfl
    have hgives {P : State → Prop} (hP : P ((opSvc n b).effect u)) : Gives (.svc n b) s P :=
      Issue.gives (i := opSvc n b) h hguard rfl (svc_legal hrd hra hm hsvc) rfl hP
    refine ⟨fun hnow => hgives ?_, fun hheld hfree => hgives ?_⟩
    · rw [heffect, hnow]
      refine ⟨hblocked _ (hissued none), ?_⟩
      simp [t]
    · rw [heffect, if_pos hheld, if_pos hfree, addHeld_advance]
      obtain ⟨hother, hcalls, hheld, hpc⟩ := hholds (.svc (fieldImm b) args) hfree
      refine ⟨⟨fun m hm => (getS_blockOn_other hm).trans (hother m hm), hcalls, heldOf_blockOn.trans hheld, ?_⟩, ?_⟩
      · rw [getS_blockOn_same]
        exact hpc
      · rw [getS_blockOn_same]
  case svca =>
    have hblk : caseAddr u n (resultOffset t) = 64 * t.winBase + o := congrArg (· + o) (Nat.mul_comm ..)
    have heffect : (opSvca n b).effect u = if callHeld n b u then
        if entryFree n u then addHeld n (.svca (fieldImm b) args (fieldEvSvca b) (64 * t.winBase + o) o)
          (modS n (Strand.advance 1 1) u) else stall n u
      else if outstanding n u < 4 then
        issueCall n (fieldImm b) args (some (fieldEvSvca b, 64 * t.winBase + o)) (modS n (Strand.advance 1 1) u)
      else blockOn .svca n u := by rw [← hblk]; rfl
    have hwindow : outsideWindow t (resultOffset t) 16 = false := decide_eq_false (Nat.not_lt.mpr hin)
    have hinside : (opSvca n b).late u = none := if_neg (Bool.eq_false_iff.mp hwindow)
    have hgives {P : State → Prop} (hP : P ((opSvca n b).effect u)) : Gives (.svca n b) s P :=
      Issue.gives (i := opSvca n b) h hguard rfl (svca_legal hm hlow hhigh hsvc) hinside hP
    refine ⟨fun hnow hroom => hgives ?_, fun hnow hfull => hgives ?_, fun hheld hfree => hgives ?_⟩
    · rw [heffect, hnow, if_neg Bool.false_ne_true, if_pos hroom]
      refine ⟨hissued _, ?_⟩
      simp [t]
    · rw [heffect, hnow, if_neg Bool.false_ne_true, if_neg (Nat.not_lt.mpr hfull)]
      simp [t]
    · rw [heffect, if_pos hheld, if_pos hfree, addHeld_advance]
      exact hholds _ hfree
  case sig =>
    have heffect : (opSig n b).effect u = if speculative u n then
        if entryFree n u then addHeld n (.sig (BitVec.ofNat 8 (bits b.toNat 0 8)) (getW t (fieldRD b)))
          (modS n (Strand.advance 1 1) u) else stall n u
      else raiseHw (bits b.toNat 0 8) (getW t (fieldRD b)).toNat (modS n (Strand.advance 1 1) u) := rfl
    have hgives {P : State → Prop} (hP : P ((opSig n b).effect u)) : Gives (.sig n b) s P :=
      Issue.gives (i := opSig n b) h hguard rfl (sig_legal hm hra hbits hev) rfl hP
    refine ⟨fun hnow => hgives ?_, fun hspec hfree => hgives ?_⟩
    · rw [heffect, hnow]
      rfl
    · rw [heffect, if_pos hspec, if_pos hfree, addHeld_advance]
      exact hholds _ hfree

end

section
/-! SUPPORT. GSET and ACC (04 R77, R87, R88, 05 R97, 11 R220). -/
namespace Sys2Proof.Machine

section
variable {n m : Fin 320} {b : BitVec 26} {w1 : Word} {u : State}

/-! ## GSET -/

/-- The SVCA calls whose completion resolves a galley that waits for `ev` (04 R88). -/
def gsetCalls (n : Fin 320) (ev : BitVec 8) (u : State) : List Call :=
  if 0x80 ≤ ev.toNat ∧ ev.toNat ≤ 0xBF then unusedCalls n ev u else []

/-- The galley that a GSET opens: the checkpoint, its fields, its timeout, and nothing held. -/
def gsetGalley (n : Fin 320) (b : BitVec 26) (w1 : Word) (u : State) : Galley where
  ev := fieldEvGset b
  exp := fieldExp b
  pd := (fieldPDg b).val
  alt := fieldAlt w1
  tmoEnd := u.sys.usec + 1000 * fieldTmo w1
  ckW := (getS u n).w
  ckP := (getS u n).p
  limit := galleyLimit (getS u n)
  call := (gsetCalls n (fieldEvGset b) u).getLast?.map (·.id)

theorem gsetGalley_advance : gsetGalley n b w1 (modS n (Strand.advance 2 1) u) = gsetGalley n b w1 u := by
  have hlimit (t : Strand) : galleyLimit (t.advance 2 1) = galleyLimit t := by
    unfold galleyLimit Strand.advance Strand.charge
    split <;> rfl
  unfold gsetGalley
  rw [getS_modS_same, advance_w, advance_p, hlimit]
  rfl

/-- The strand past its GSET, with the galley `g` open. -/
def Strand.opened (g : Galley) (t : Strand) : Strand := { t.advance 2 1 with galley := some g }

/-- The state in which the galley stands open. -/
def gsetOpened (n : Fin 320) (b : BitVec 26) (w1 : Word) (u : State) : State :=
  modS n (Strand.opened (gsetGalley n b w1 u)) u

/-- A GSET opens its galley; where a call is tied to it, calls are used, and one that has completed resolves the galley. -/
theorem gsetEffect_cases : gsetEffect n b w1 u = gsetOpened n b w1 u ∨
    gsetCalls n (fieldEvGset b) u ≠ [] ∧ ∃ t : State, t.cap.strands = (gsetOpened n b w1 u).cap.strands ∧
      (gsetEffect n b w1 u = t ∨ ∃ hm res, gsetEffect n b w1 u = t.updCap (Cap.resolve hm res n)) := by
  have hopened : modS n (fun t => { t with galley := some (gsetGalley n b w1 (modS n (Strand.advance 2 1) u)) })
      (modS n (Strand.advance 2 1) u) = gsetOpened n b w1 u := by rw [gsetGalley_advance, modS_modS]; rfl
  have hused (id : Nat) : (useCalls n (fieldEvGset b) id (gsetOpened n b w1 u)).cap.strands =
    (gsetOpened n b w1 u).cap.strands := rfl
  rw [← hopened] at hused ⊢
  unfold gsetEffect
  dsimp only
  split
  · exact .inl rfl
  · next call hlast =>
    refine .inr ⟨fun hnil => ?_, _, hused call.id, ?_⟩
    · exact nomatch (congrArg List.getLast? hnil).symm.trans hlast
    · split
      · exact .inr ⟨_, _, rfl⟩
      · exact .inl rfl

theorem gsetEffect_noCalls (h : gsetCalls n (fieldEvGset b) u = []) : gsetEffect n b w1 u = gsetOpened n b w1 u :=
  gsetEffect_cases.resolve_right fun hused => hused.1 h

theorem getS_gsetOpened : getS (gsetOpened n b w1 u) n = (getS u n).opened (gsetGalley n b w1 u) := getS_modS_same ..

/-- The strand after a GSET: its galley is the one opened, which a call may have resolved. -/
theorem getS_gsetEffect : ∃ st used hmax res back, getS (gsetEffect n b w1 u) n =
    { (getS u n).opened (gsetGalley n b w1 u) with
        st := st, used := used, hmax := hmax, galley := some { gsetGalley n b w1 u with resolved := res, back := back } } := by
  rcases gsetEffect_cases (n := n) (b := b) (w1 := w1) (u := u) with heq | ⟨-, t, hsame, heq | ⟨hm, res, heq⟩⟩
  · rw [heq, getS_gsetOpened]
    exact ⟨_, _, _, _, _, rfl⟩
  · have hn : getS t n = getS (gsetOpened n b w1 u) n := congrArg (Vector.get · n) hsame
    rw [heq, hn, getS_gsetOpened]
    exact ⟨_, _, _, _, _, rfl⟩
  · have hn : t.cap.strand n = (getS u n).opened (gsetGalley n b w1 u) :=
      (congrArg (Vector.get · n) hsame).trans getS_gsetOpened
    obtain ⟨st, used, hmax, hresolved, -⟩ := Cap.strand_resolve (hm := hm) (r := res) (c := t.cap) (n := n)
      (g := gsetGalley n b w1 u) (by rw [hn]; rfl) rfl
    rw [heq, getS_updCap, hresolved, hn]
    exact ⟨_, _, _, _, _, rfl⟩

theorem getS_gsetEffect_other (h : m ≠ n) : getS (gsetEffect n b w1 u) m = getS u m := by
  have hopened : getS (gsetOpened n b w1 u) m = getS u m := getS_modS_other h _ u
  rcases gsetEffect_cases (n := n) (b := b) (w1 := w1) (u := u) with heq | ⟨-, t, hsame, heq | ⟨hm, res, heq⟩⟩
  · rw [heq, hopened]
  · have hm : getS t m = getS (gsetOpened n b w1 u) m := congrArg (Vector.get · m) hsame
    rw [heq, hm, hopened]
  · have hkept : t.cap.strand m = getS (gsetOpened n b w1 u) m := congrArg (Vector.get · m) hsame
    rw [heq, getS_updCap, Cap.strand_resolve_other h, hkept, hopened]

end

/-! ## ACC -/

section
variable {n : Fin 320} {b : BitVec 26} {u : State} {i : Nat} {v : BitVec 64}

theorem acc_legal (hm : fieldM b = 0) (hrd : fieldRD b = 0) (hra : (fieldRA b).val % 2 = 0) (himm : fieldImm b < 3) :
    (opAcc n b).early = none := by
  have hidx : ¬2 < fieldImm b := by omega
  simp [opAcc, firstFault, illI_eq_false hm, hrd, oddPair_eq_false hra, hidx]

/-- An accumulator that ACC names grows, modulo 2^64, and the others stay. -/
theorem ledgerAcc_acc (hi : i < 3) (j : Fin 3) : (ledgerAcc i v u).led.acc.get j =
    if j.val = i then (u.led.acc.get j + v.toNat) % 2 ^ 64 else u.led.acc.get j := by
  rw [ledgerAcc, dif_pos hi, State.updLed_led]
  by_cases hj : j.val = i
  · subst hj
    rw [if_pos rfl]
    exact vector_get_set_same u.led.acc j _
  · rw [if_neg hj]
    exact vector_get_set_other u.led.acc (i := ⟨i, hi⟩) (fun h => hj (congrArg Fin.val h)) _

theorem ledgerAcc_only (hi : i < 3) :
    ledgerAcc i v u = u.updLed fun l => { l with acc := (ledgerAcc i v u).led.acc, accSeen := true } := by
  rw [ledgerAcc, dif_pos hi]
  rfl

theorem length_addHeldAcc (i : Nat) (v : BitVec 64) (hs : List Held) : (addHeldAcc i v hs).length = hs.length := by
  induction hs with
  | nil => rfl
  | cons e hs ih =>
    unfold addHeldAcc
    split
    · split
      · rfl
      · exact congrArg (· + 1) ih
    · exact congrArg (· + 1) ih

end

end Sys2Proof.Machine

open Sys2Proof Sys2Proof.Machine

/-- Settles O15: a GSET opens its galley, which a completed call may resolve at once; ACC adds to the accumulator, or to the entry that
the galley has or is given for it. -/
theorem galleyOpensAndAccumulates : Obligations.GalleyOpensAndAccumulates := by
  unfold Obligations.GalleyOpensAndAccumulates
  intro n b s u h hguard t
  refine ⟨fun w1 hwords htmo hclosed => ?gset, fun hm hrd hra himm => ?acc⟩
  case gset =>
    intro calls
    have hearly : (opGset n b w1).early = none := by simp [opGset, firstFault, htmo]
    have hclosed' : (opGset n b w1).late u = none := if_neg (by rw [show (getS u n).galley = none from hclosed]; nofun)
    have hgives {P : State → Prop} (hP : P (gsetEffect n b w1 u)) : Gives (.gset n b w1) s P :=
      Issue.gives (i := opGset n b w1) { h with inForme := hwords } hguard rfl hearly hclosed' hP
    obtain ⟨st, used, hmax, res, back, hn⟩ := getS_gsetEffect (n := n) (b := b) (w1 := w1) (u := u)
    refine hgives ⟨?_, fun i => ?_, fun i => ?_, fun m hm => getS_gsetEffect_other hm,
      ⟨_, congrArg Strand.galley hn, rfl, rfl, rfl, rfl, rfl, rfl, rfl, rfl, rfl, rfl⟩, fun hnone => ?_⟩
    · rw [hn]
      rfl
    · rw [hn]
      exact getW_advance 2 1 t i
    · rw [hn]
      exact getP_advance 2 1 t i
    · rw [gsetEffect_noCalls hnone]
      refine ⟨onlyStrand_modS _, ?_⟩
      rw [speculative, getS_gsetOpened]
      rfl
  case acc =>
    intro x
    have heffect : (opAcc n b).effect u = if !speculative u n then ledgerAcc (fieldImm b) x (modS n (Strand.advance 1 1) u)
      else if hasAcc (fieldImm b) (heldOf u n) then modHeld n (addHeldAcc (fieldImm b) x) (modS n (Strand.advance 1 1) u)
      else if entryFree n u then addHeld n (.acc (fieldImm b) x) (modS n (Strand.advance 1 1) u) else stall n u := rfl
    have hgives {P : State → Prop} (hP : P ((opAcc n b).effect u)) : Gives (.acc n b) s P :=
      Issue.gives (i := opAcc n b) h hguard rfl (acc_legal hm hrd hra himm) rfl hP
    refine ⟨fun hnow => hgives ?_, fun hspec hnone hfree => hgives ?_, fun hspec hhas => hgives ?_⟩
    · rw [heffect, hnow]
      exact ⟨ledgerAcc_acc himm, ledgerAcc_only himm⟩
    · rw [heffect, hspec, hnone, Bool.not_true, if_neg Bool.false_ne_true, if_neg Bool.false_ne_true, if_pos hfree,
        addHeld_advance]
      exact ⟨onlyStrand_modS _, by rw [getS_modS_same, holding_pc], heldOf_holding (galley_of_entryFree hfree)⟩
    · obtain ⟨g, hg, -⟩ := speculative_galley hspec
      rw [heffect, hspec, Bool.not_true, if_neg Bool.false_ne_true, if_pos hhas, modHeld_advance]
      refine ⟨onlyStrand_modS _, by rw [getS_modS_same, holding_pc], ?_⟩
      rw [heldOf_holding (by rw [hg]; rfl), length_addHeldAcc]

end

section
/-! SUPPORT. The hardware queues (18 R393 to R397): what each operation does to the items of its queue, and that to strands it does
no more than the notices it raises. -/
namespace Sys2Proof.Machine

/-! ## Notices -/

theorem Cap.strand_reach_wakes {hm : Nat} {ev : BitVec 8} {w : Word} {n : Fin 320} {c : Cap} :
    ((c.reach hm ev w none false n).strand n).st = (c.strand n).st ∨ ((c.reach hm ev w none false n).strand n).st = .ready := by
  obtain ⟨st, used, hmax, galley, heq, hor, -⟩ := Cap.strand_resolveOn (hm := hm) (ev := ev) (w := w) (n := n) (c := c)
  have hresolved : ((c.resolveOn hm ev w none n).strand n).st = (c.strand n).st ∨
      ((c.resolveOn hm ev w none n).strand n).st = .ready := by rw [heq]; exact hor
  have hreach : c.reach hm ev w none false n = (c.resolveOn hm ev w none n).notify hm ev n := rfl
  rw [hreach]
  by_cases hst : ((c.resolveOn hm ev w none n).strand n).st = .disabled
  · rwa [Cap.notify_disabled hst]
  · obtain ⟨st', used', hmax', heq', hor'⟩ := Cap.strand_notify (hm := hm) (ev := ev) hst
    rw [heq']
    rcases hor' with hor' | hor'
    · rwa [← hor'] at hresolved
    · exact .inr hor'

/-- From `s` to `t` the Capstan changes by events alone, and each strand is in the state it was in, or READY. -/
structure Noticed (s t : State) : Prop where
  events : EventsOnly s t
  wakes : ∀ m, (getS t m).st = (getS s m).st ∨ (getS t m).st = .ready

namespace Noticed
variable {s t u : State} {q : Fin 64}

theorem of_cap (h : t.cap = s.cap) : Noticed s t := ⟨.of_cap h, fun m => .inl (by rw [getS, h]; rfl)⟩

theorem trans (h : Noticed s t) (k : Noticed t u) : Noticed s u := by
  refine ⟨h.events.trans k.events, fun m => ?_⟩
  rcases k.wakes m with hk | hk
  · rw [hk]
    exact h.wakes m
  · exact .inr hk

theorem ite {p : Prop} [Decidable p] (ht : Noticed s t) (hu : Noticed s u) : Noticed s (if p then t else u) := by
  split
  · exact ht
  · exact hu

theorem raiseHw (ev w : Nat) (s : State) : Noticed s (raiseHw ev w s) := by
  refine ⟨.raiseHw ev w s, fun m => ?_⟩
  rw [Machine.raiseHw, getS_updCap]
  refine Cap.strand_raise (P := fun x => x.st = (getS s m).st ∨ x.st = .ready) fun d hd => ?_
  have h := Cap.strand_reach_wakes (hm := hmaxNow s) (ev := BitVec.ofNat 8 ev) (w := BitVec.ofNat 32 w) (n := m) (c := d)
  rwa [hd] at h

theorem qNotice (q : Fin 64) (s : State) : Noticed s (qNotice q s) :=
  .trans (.ite (raiseHw _ _ s) (of_cap rfl)) (.ite (of_cap rfl) (of_cap rfl))

theorem qHit (hit enable : Nat → Field) (q : Fin 64) (s : State) : Noticed s (qHit hit enable q s) :=
  .trans (t := setF (hit q.val) 1 s) (of_cap rfl) (.ite (qNotice q _) (of_cap rfl))

theorem qLevelMoved (old : Nat) (q : Fin 64) (s : State) : Noticed s (qLevelMoved old q s) :=
  .ite (qHit _ _ q s) (.ite (of_cap rfl) (of_cap rfl))

theorem qAppend (q : Fin 64) (item : Word) (s : State) : Noticed s (qAppend q item s) := by
  refine .trans (.trans (.trans ?_ (.ite (t := qArmStale q _) ?_ (of_cap rfl))) (qLevelMoved _ q _))
    (.ite (qHit _ _ q _) (of_cap rfl))
  · exact of_cap rfl
  · exact of_cap rfl

theorem qRemove (q : Fin 64) (k : Nat) (s : State) : Noticed s (qRemove q k s) := by
  refine .trans (.trans (of_cap ?_) (.ite (u := qArmStale q _) (of_cap rfl) ?_)) (qLevelMoved _ q _)
  · rfl
  · exact of_cap rfl

end Noticed

/-! ## Items -/

section
variable {q q' : Fin 64} {s : State} {f : Queue → Queue}

@[simp] theorem getQ_modQ_same : getQ (modQ q f s) q = f (getQ s q) := by
  rw [getQ, modQ, State.updHp_hp, vector_get_set_same]
  rfl

theorem getQ_modQ_other (h : q' ≠ q) : getQ (modQ q f s) q' = getQ s q' := by
  rw [getQ, modQ, State.updHp_hp, vector_get_set_other _ h]
  rfl

theorem getQ_of_hp {t : State} (h : t.hp = s.hp) (q : Fin 64) : getQ t q = getQ s q := by rw [getQ, getQ, h]

/-- The half of a notice that goes to the host. -/
theorem hostNotice_hp (b : Bool) (f : Field) (v k d : Nat) : (if b then ringOut k d (setF f v s) else s).hp = s.hp := by
  cases b <;> rfl

theorem qNotice_hp : (qNotice q s).hp = s.hp := by
  unfold qNotice
  dsimp only
  rw [hostNotice_hp]
  split
  · exact raiseHw_hp ..
  · rfl

theorem qHit_hp (hit enable : Nat → Field) : (qHit hit enable q s).hp = s.hp := by
  unfold qHit
  dsimp only
  split
  · exact qNotice_hp
  · rfl

theorem qLevelMoved_hp (old : Nat) : (qLevelMoved old q s).hp = s.hp := by
  unfold qLevelMoved
  dsimp only
  split
  · exact qHit_hp _ _
  · split <;> rfl

@[simp] theorem items_qArmStale : (getQ (qArmStale q s) q).items = (getQ s q).items := by
  rw [qArmStale, getQ_modQ_same]
  rfl

theorem getQ_qArmStale_other (h : q' ≠ q) : getQ (qArmStale q s) q' = getQ s q' := getQ_modQ_other h

/-! ### Appending -/

/-- The item stands in its queue; the stale notice, the watermark and the packet notice are still to come. -/
def qAppended (q : Fin 64) (item : Word) (s : State) : State :=
  modQ q (fun x => { x with items := x.items ++ [item] }) (boundary (Reg.Q_WM_WM q.val) s)

theorem qAppend_hp (item : Word) : (qAppend q item s).hp =
    (if qLevel s q = 0 then qArmStale q (qAppended q item s) else qAppended q item s).hp := by
  unfold qAppend
  dsimp only
  split
  · exact (qHit_hp _ _).trans (qLevelMoved_hp _)
  · exact qLevelMoved_hp _

theorem items_qAppend (item : Word) : (getQ (qAppend q item s) q).items = (getQ s q).items ++ [item] := by
  have hitems : (getQ (qAppended q item s) q).items = (getQ s q).items ++ [item] := congrArg Queue.items getQ_modQ_same
  rw [getQ_of_hp (qAppend_hp item)]
  split
  · rw [items_qArmStale, hitems]
  · exact hitems

theorem getQ_qAppend_other (h : q' ≠ q) (item : Word) : getQ (qAppend q item s) q' = getQ s q' := by
  have hother : getQ (qAppended q item s) q' = getQ s q' := getQ_modQ_other h
  rw [getQ_of_hp (qAppend_hp item)]
  split
  · rw [getQ_qArmStale_other h, hother]
  · exact hother

/-! ### Removing -/

/-- The first `k` items are gone; the stale notice and the watermark are still to come. -/
def qRemoved (q : Fin 64) (k : Nat) (s : State) : State :=
  modQ q (fun x => { x with items := x.items.drop k, staleArmed := false }) (boundary (Reg.Q_WM_WM q.val) s)

theorem qRemove_hp (k : Nat) : (qRemove q k s).hp =
    (if qLevel (qRemoved q k s) q = 0 then qRemoved q k s else qArmStale q (qRemoved q k s)).hp := qLevelMoved_hp _

theorem items_qRemove (k : Nat) : (getQ (qRemove q k s) q).items = (getQ s q).items.drop k := by
  have hitems : (getQ (qRemoved q k s) q).items = (getQ s q).items.drop k := congrArg Queue.items getQ_modQ_same
  rw [getQ_of_hp (qRemove_hp k)]
  split
  · exact hitems
  · rw [items_qArmStale, hitems]

theorem getQ_qRemove_other (h : q' ≠ q) (k : Nat) : getQ (qRemove q k s) q' = getQ s q' := by
  have hother : getQ (qRemoved q k s) q' = getQ s q' := getQ_modQ_other h
  rw [getQ_of_hp (qRemove_hp k)]
  split
  · exact hother
  · rw [getQ_qArmStale_other h, hother]

/-- A queue that no galley takes from shows its items to every consumer. -/
theorem qVisible_free {n : Fin 320} (h : (getQ s q).taker = none) : qVisible s q n = (getQ s q).items := by
  unfold qVisible
  dsimp only
  rw [h]

end

end Sys2Proof.Machine
end

section
/-! SUPPORT. ENQ, ENQW, DEQ and DEQW outside a galley (04 R83). -/
namespace Sys2Proof.Machine

section
variable {n : Fin 320} {b : BitVec 26} {q : Fin 64} {s u : State}

theorem queueEarly_eq_none (hm : fieldMp b = 0) (hra : fieldRA b = 0) (hq : queuePort (fieldPort b) = some q) :
    queueEarly b = none := by
  simp [queueEarly, firstFault, hm, hra, hq]

theorem fieldQueue_eq (hq : queuePort (fieldPort b) = some q) : fieldQueue b = q := by rw [fieldQueue, hq]; rfl

/-! ## The effects -/

section
variable (hnow : speculative u n = false)
include hnow

theorem opEnq_effect : (opEnq n b).effect u =
    finishQueue n (fieldPDp b) (qEnqueue (fieldQueue b) (getW (getS u n) (fieldRD b)) u).1 none
      (qEnqueue (fieldQueue b) (getW (getS u n) (fieldRD b)) u).2 := by
  simp only [opEnq, hnow, Bool.false_eq_true, if_false]

theorem opEnqw_effect : (opEnqw n b).effect u =
    if itemType (getW (getS u n) (fieldRD b)) = 0xF then finishQueue n (fieldPDp b) true none u
    else if 0 < qRoom u (fieldQueue b) then
      finishQueue n (fieldPDp b) true none (qAppend (fieldQueue b) (getW (getS u n) (fieldRD b)) u)
    else blockOn (.enqw (fieldQueue b) (getW (getS u n) (fieldRD b)) (fieldPDp b).val) n (modS n (Strand.advance 1 1) u) := by
  simp only [opEnqw, hnow, Bool.false_eq_true, if_false]

theorem takeStalls_now (q : Fin 64) : takeStalls n q u = false := by simp [takeStalls, hnow]

theorem takeItem_now (q : Fin 64) : takeItem n q u = qRemove q 1 u := by simp [takeItem, hnow]

theorem opDeq_effect_take {x : Word} {rest : List Word} (hvisible : qVisible u (fieldQueue b) n = x :: rest) :
    (opDeq n b).effect u = finishQueue n (fieldPDp b) true (some (fieldRD b, x)) (qRemove (fieldQueue b) 1 u) := by
  simp only [opDeq, hvisible, takeStalls_now hnow, takeItem_now hnow, Bool.false_eq_true, if_false]

theorem opDeqw_effect_take {x : Word} {rest : List Word} (hvisible : qVisible u (fieldQueue b) n = x :: rest) :
    (opDeqw n b).effect u = finishQueue n (fieldPDp b) true (some (fieldRD b, x)) (qRemove (fieldQueue b) 1 u) := by
  simp only [opDeqw, hvisible, takeStalls_now hnow, takeItem_now hnow, Bool.false_eq_true, if_false]

end

theorem opDeq_effect_empty (hvisible : qVisible u (fieldQueue b) n = []) :
    (opDeq n b).effect u = finishQueue n (fieldPDp b) false (some (fieldRD b, idleItem)) u := by
  simp only [opDeq, hvisible]

theorem opDeqw_effect_empty (hvisible : qVisible u (fieldQueue b) n = []) : (opDeqw n b).effect u =
    blockOn (.deqw (fieldQueue b) (fieldRD b).val (fieldPDp b).val) n (modS n (Strand.advance 1 1) u) := by
  simp only [opDeqw, hvisible]

/-! ## What a queue instruction leaves -/

theorem EventStrand.getW {x y : Strand} (h : EventStrand x y) (i : Fin 16) : getW y i = getW x i := by
  rw [Machine.getW, Machine.getW, h.w]

theorem EventStrand.getP {x y : Strand} (h : EventStrand x y) (i : Fin 4) : getP y i = getP x i := by
  rw [Machine.getP, Machine.getP, h.p]

/-- The registers after an optional write. -/
def regsAfter (t : Strand) : Option (Fin 16 × Word) → Fin 16 → Word
  | none => getW t
  | some (rd, v) => regAfter t rd v

/-- The strand after `finishQueue`. -/
def Strand.finished (pd : Fin 4) (ok : Bool) : Option (Fin 16 × Word) → Strand → Strand
  | none, t => setP pd ok (t.advance 1 1)
  | some (rd, v), t => setW rd v (setP pd ok (t.advance 1 1))

section
variable {pd : Fin 4} {ok : Bool} {w : Option (Fin 16 × Word)} {t : Strand} {m : Fin 320}

theorem getS_finishQueue_same : getS (finishQueue n pd ok w u) n = (getS u n).finished pd ok w := by
  rw [finishQueue, getS_modS_same]
  cases w <;> rfl

theorem getS_finishQueue_other (h : m ≠ n) : getS (finishQueue n pd ok w u) m = getS u m := getS_modS_other h _ u

theorem getW_finished (i : Fin 16) : getW (t.finished pd ok w) i = regsAfter t w i := by
  cases w with
  | none => rw [Strand.finished, getW_setP, getW_advance, regsAfter]
  | some w => rw [Strand.finished, getW_setW, getW_setP, getW_advance, regsAfter, regAfter]

theorem getP_finished (i : Fin 4) : getP (t.finished pd ok w) i = predAfter t pd ok i := by
  cases w with
  | none => rw [Strand.finished, getP_setP, getP_advance, predAfter]
  | some w => rw [Strand.finished, getP_setW, getP_setP, getP_advance, predAfter]

theorem finished_pc : (t.finished pd ok w).pc = t.pc + 1 := by
  cases w with
  | none => rw [Strand.finished, setP_pc]; rfl
  | some w => rw [Strand.finished, setW_pc, setP_pc]; rfl

end

end

end Sys2Proof.Machine

open Sys2Proof Sys2Proof.Machine

/-- Settles O13: each of the four finishes after an operation on its queue that raises no more than notices, or leaves its strand
BLOCKED and the queue as it was. -/
theorem queueInstructions : Obligations.QueueInstructions := by
  unfold Obligations.QueueInstructions
  intro n b q s u h hguard hm hra hport hgal htaker t item pd frame done stops old
  have hlegal := queueEarly_eq_none hm hra hport
  have hq := fieldQueue_eq hport
  have hnow := speculative_closed hgal
  have henq {P : State → Prop} (hP : P ((opEnq n b).effect u)) : Gives (.enq n b) s P :=
    Issue.gives (i := opEnq n b) h hguard rfl hlegal rfl hP
  have henqw {P : State → Prop} (hP : P ((opEnqw n b).effect u)) : Gives (.enqw n b) s P :=
    Issue.gives (i := opEnqw n b) h hguard rfl hlegal rfl hP
  have hdeq {P : State → Prop} (hP : P ((opDeq n b).effect u)) : Gives (.deq n b) s P :=
    Issue.gives (i := opDeq n b) h hguard rfl hlegal rfl hP
  have hdeqw {P : State → Prop} (hP : P ((opDeqw n b).effect u)) : Gives (.deqw n b) s P :=
    Issue.gives (i := opDeqw n b) h hguard rfl hlegal rfl hP
  have hdone {r : State} {items : List Word} (ok : Bool) (w : Option (Fin 16 × Word)) (hnotice : Noticed u r)
      (hitems : (getQ r q).items = items) (hother : ∀ q', q' ≠ q → getQ r q' = getQ u q') :
      done ok items (regsAfter t w) (finishQueue n pd ok w r) := by
    have hstrand (m : Fin 320) : EventStrand (getS u m) (getS r m) := hnotice.events.event.strands m
    have hmem : r.cap.caseMem = u.cap.caseMem := by rw [hnotice.events.event.rest]
    refine ⟨hitems, fun i => ?_, fun i => ?_, hother, hmem, fun m hm => ?_, ?_⟩
    · rw [getS_finishQueue_same, getW_finished]
      cases w with
      | none => exact (hstrand n).getW i
      | some w => rw [regsAfter, regsAfter, regAfter, regAfter, (hstrand n).getW]
    · rw [getS_finishQueue_same, getP_finished, predAfter, predAfter, (hstrand n).getP]
    · rw [getS_finishQueue_other hm]
      exact hstrand m
    · rw [getS_finishQueue_same, finished_pc, (hstrand n).pc]
  have hrefl : Noticed u u := .of_cap rfl
  have hstops (why : Block) : stops why (blockOn why n (modS n (Strand.advance 1 1) u)) := by
    have hrun : (modS n (Strand.advance 1 1) u).cap.running = some n :=
      (modS_running ..).trans (grant_running h.granted)
    refine ⟨?_, ?_, running_blockOn hrun, rfl, fun _ _ => rfl, rfl, fun m hm => ?_, ?_⟩
    · rw [getS_blockOn_same]
    · rw [getS_blockOn_same]
    · rw [getS_blockOn_other hm, getS_modS_other hm]
      exact .refl _
    · rw [getS_blockOn_same, getS_modS_same]
      rfl
  refine ⟨fun hnull => ⟨henq ?_, henqw ?_⟩,
    fun hitem => ⟨fun hroom => ⟨henq ?_, henqw ?_⟩, fun hfull => ⟨henq ?_, henqw ?_⟩⟩,
    fun hempty => ?empty, fun x rest hcons => ?take⟩
  · rw [opEnq_effect hnow, qEnqueue, if_pos hnull]
    exact hdone true none hrefl rfl fun _ _ => rfl
  · rw [opEnqw_effect hnow, if_pos hnull]
    exact hdone true none hrefl rfl fun _ _ => rfl
  · rw [opEnq_effect hnow, qEnqueue, if_neg hitem, hq, if_pos hroom]
    exact hdone true none (.qAppend q item u) (items_qAppend item) fun q' hne => getQ_qAppend_other hne item
  · rw [opEnqw_effect hnow, if_neg hitem, hq, if_pos hroom]
    exact hdone true none (.qAppend q item u) (items_qAppend item) fun q' hne => getQ_qAppend_other hne item
  · rw [opEnq_effect hnow, qEnqueue, if_neg hitem, hq, if_neg (by omega)]
    exact hdone false none (.of_cap rfl) rfl fun _ _ => rfl
  · rw [opEnqw_effect hnow, if_neg hitem, hq, if_neg (by omega)]
    exact hstops _
  case empty =>
    have hvisible : qVisible u (fieldQueue b) n = [] := by rw [hq, qVisible_free htaker]; exact hempty
    refine ⟨hdeq ?_, hdeqw ?_⟩
    · rw [opDeq_effect_empty hvisible]
      exact hdone false (some (fieldRD b, idleItem)) hrefl hempty fun _ _ => rfl
    · rw [opDeqw_effect_empty hvisible, hq]
      exact hstops _
  case take =>
    have hvisible : qVisible u (fieldQueue b) n = x :: rest := by rw [hq, qVisible_free htaker]; exact hcons
    have hitems : (getQ (qRemove q 1 u) q).items = rest := by
      rw [items_qRemove, show (getQ u q).items = x :: rest from hcons]
      rfl
    have htaken : done true rest (regAfter t (fieldRD b) x)
        (finishQueue n (fieldPDp b) true (some (fieldRD b, x)) (qRemove q 1 u)) :=
      hdone true (some (fieldRD b, x)) (.qRemove q 1 u) hitems fun q' hne => getQ_qRemove_other hne 1
    refine ⟨hdeq ?_, hdeqw ?_⟩
    · rw [opDeq_effect_take hnow hvisible, hq]
      exact htaken
    · rw [opDeqw_effect_take hnow hvisible, hq]
      exact htaken

end

section
/-! SUPPORT. What a BLOCKED strand waited for is done (03 R42, 04 R80, R83 to R85). -/
namespace Sys2Proof.Machine

/-! ## The strand goes on -/

/-- The strand, READY and waiting for nothing. -/
def Strand.goesOn (t : Strand) : Strand := { t with st := .ready, block := none }

section
variable (t : Strand)

@[simp] theorem goesOn_st : t.goesOn.st = .ready := rfl
@[simp] theorem goesOn_block : t.goesOn.block = none := rfl
@[simp] theorem getW_goesOn (i : Fin 16) : getW t.goesOn i = getW t i := rfl
@[simp] theorem getP_goesOn (i : Fin 4) : getP t.goesOn i = getP t i := rfl

end

section
variable {n m : Fin 320} {s : State}

/-- A strand that is BLOCKED, or that an event has made READY meanwhile, is READY and waits for nothing. -/
theorem getS_unblock (h : (getS s n).st = .blocked ∨ (getS s n).st = .ready) :
    getS (unblock n s) n = (getS s n).goesOn := by
  have hst : (s.cap.strand n).st = .blocked ∨ (s.cap.strand n).st = .ready := h
  rw [unblock, getS_updCap]
  rcases hst with hst | hst
  · simp only [hst, Cap.strand_makeReady_same, Cap.strand_modStrand_same]
    rfl
  · simp only [hst, Cap.strand_modStrand_same]
    rw [Strand.goesOn, ← hst]
    rfl

/-- The same after a change of the strand that leaves its state. -/
theorem getS_unblock_modS {f : Strand → Strand} (h : (getS s n).st = .blocked ∨ (getS s n).st = .ready)
    (hf : (f (getS s n)).st = (getS s n).st) :
    getS (unblock n (modS n f s)) n = (f (getS s n)).goesOn := by
  rw [getS_unblock (by rwa [getS_modS_same, hf]), getS_modS_same]

theorem getS_unblock_other (h : m ≠ n) : getS (unblock n s) m = getS s m := by
  have hmod (f : Strand → Strand) (c : Cap) : (c.modStrand n f).strand m = c.strand m := Cap.strand_modStrand_other h f c
  rw [unblock, getS_updCap]
  dsimp only
  split
  · rw [Cap.strand_makeReady_other h, hmod]
    rfl
  · rw [hmod, hmod]
    rfl
  · exact hmod _ _

theorem unblock_pending (m : Fin 320) : (getS (unblock n s) m).pending = (getS s m).pending := by
  by_cases h : m = n
  · subst h
    rw [unblock, getS_updCap]
    dsimp only
    split
    · rw [Cap.strand_makeReady_same, Cap.strand_modStrand_same]
      rfl
    · rw [Cap.strand_modStrand_same, Cap.strand_modStrand_same]
      split <;> rfl
    · rw [Cap.strand_modStrand_same]
      rfl
  · rw [getS_unblock_other h]

@[simp] theorem unblock_caseMem : (unblock n s).cap.caseMem = s.cap.caseMem := by
  rw [unblock, State.updCap_cap]
  dsimp only
  split
  · rw [Cap.caseMem_makeReady]
    rfl
  · rfl
  · rfl

theorem Cap.calls_makeReady (hm : Nat) (fresh : Bool) (c : Cap) : (c.makeReady hm fresh n).calls = c.calls := by
  unfold Cap.makeReady Cap.join
  split <;> rfl

@[simp] theorem unblock_calls : (unblock n s).cap.calls = s.cap.calls := by
  rw [unblock, State.updCap_cap]
  dsimp only
  split
  · rw [Cap.calls_makeReady]
    rfl
  · rfl
  · rfl

@[simp] theorem getQ_modS (f : Strand → Strand) (q : Fin 64) : getQ (modS n f s) q = getQ s q := rfl

@[simp] theorem getQ_unblock (q : Fin 64) : getQ (unblock n s) q = getQ s q := rfl

end

/-! ## SVC: the results (04 R84) -/

theorem getS_updCalls (f : List Call → List Call) (s : State) (m : Fin 320) :
    getS (s.updCap fun c => { c with calls := f c.calls }) m = getS s m := rfl

section
variable {n m : Fin 320} {s : State} {vs : List Word} {i : Nat} {t : Strand}

theorem putRets_frame (vs : List Word) (i : Nat) (t : Strand) : putRets vs i t = { t with w := (putRets vs i t).w } := by
  induction vs generalizing i t with
  | nil => rfl
  | cons v vs ih =>
    rw [putRets, ih, setW]
    split <;> rfl

/-- The returned values stand in the registers from `i` up. -/
theorem getW_putRets (hi : 0 < i) (hfits : i + vs.length ≤ 16) (j : Fin 16) : getW (putRets vs i t) j =
    if i ≤ j.val ∧ j.val < i + vs.length then vs[j.val - i]?.getD 0 else getW t j := by
  induction vs generalizing i t with
  | nil =>
    rw [if_neg (by simp)]
    rfl
  | cons v vs ih =>
    rw [List.length_cons] at hfits ⊢
    rw [putRets, ih (by omega) (by omega), getW_setW]
    by_cases hj : j.val = i
    · have hji : j = Fin.ofNat 16 i := Fin.ext (by simp [Fin.ofNat]; omega)
      have hj0 : j ≠ 0 := fun h => by rw [h] at hj; simp at hj; omega
      rw [if_neg (by omega), if_pos ⟨hji, hj0⟩, if_pos (by omega), hj, Nat.sub_self]
      rfl
    · have hji : j ≠ Fin.ofNat 16 i := fun h => hj (by rw [h]; simp [Fin.ofNat]; omega)
      rw [if_neg (show ¬(j = Fin.ofNat 16 i ∧ j ≠ 0) from fun h => hji h.1)]
      by_cases hin : i + 1 ≤ j.val ∧ j.val < i + 1 + vs.length
      · rw [if_pos hin, if_pos (by omega), show j.val - i = j.val - (i + 1) + 1 by omega, List.getElem?_cons_succ]
      · rw [if_neg hin, if_neg (by omega)]

/-- The strand that finds the result word in w1 and the returned values from w2 up. -/
def Strand.answered (word : Word) (rets : List Word) (t : Strand) : Strand := putRets rets 2 (setW 1 word t)

theorem answered_frame (word : Word) (rets : List Word) (t : Strand) :
    t.answered word rets = { t with w := (t.answered word rets).w } := by
  unfold Strand.answered
  rw [putRets_frame, setW]
  split <;> rfl

theorem svcComplete_eq {id : Nat} {call : Call} {word : Word} {rets : List Word} (hpause : s.sys.pause = false)
    (hblock : (getS s n).block = some (.svc id)) (hfind : s.cap.calls.find? (·.id == id) = some call)
    (hdone : call.done = some (word, rets)) : svcComplete n s =
    (unblock n (modS n (Strand.answered word rets) s)).updCap fun c => { c with calls := c.calls.filter (·.id != id) } := by
  unfold svcComplete
  simp only [hpause, hblock, hfind, hdone, Bool.false_eq_true, if_false]
  rfl

end

/-! ## SVCA: the result block and the event (04 R84, R88) -/

section
variable {n m : Fin 320} {s : State}

theorem putCaseWords_only (a : Nat) (ws : List Word) (s : State) :
    ∃ mem, putCaseWords a ws s = s.updCap fun c => { c with caseMem := mem } := by
  induction ws generalizing a s with
  | nil => exact ⟨s.cap.caseMem, rfl⟩
  | cons w ws ih =>
    obtain ⟨mem, hmem⟩ := ih (a + 4) (s.updCap fun c => { c with caseMem := putWord 0 c.caseMem a w })
    exact ⟨mem, hmem⟩

theorem byteAt_putCaseWords_other {a x : Nat} {ws : List Word} (hwf : mapWf 0 s.cap.caseMem = true)
    (h : x < a ∨ a + 4 * ws.length ≤ x) : byteAt 0 (putCaseWords a ws s).cap.caseMem x = byteAt 0 s.cap.caseMem x := by
  induction ws generalizing a s with
  | nil => rfl
  | cons w ws ih =>
    rw [List.length_cons] at h
    rw [putCaseWords, ih (s := s.updCap fun c => { c with caseMem := putWord 0 c.caseMem a w }) (mapWf_putWord 0 a w hwf) (by omega)]
    exact byteAt_putBytes_other 0 hwf a _ (by rw [length_leBytes]; omega)

/-- The first word stands at the address itself. -/
theorem byteAt_putCaseWords_first {a i : Nat} {w : Word} {ws : List Word} (hwf : mapWf 0 s.cap.caseMem = true) (hi : i < 4) :
    byteAt 0 (putCaseWords a (w :: ws) s).cap.caseMem (a + i) = BitVec.ofNat 8 (w.toNat / 256 ^ i) := by
  rw [putCaseWords, byteAt_putCaseWords_other (s := s.updCap fun c => { c with caseMem := putWord 0 c.caseMem a w })
    (mapWf_putWord 0 a w hwf) (.inl (by omega))]
  show byteAt 0 (putBytes 0 s.cap.caseMem a (leBytes w.toNat 4)) (a + i) = _
  rw [byteAt_putBytes_leBytes 0 hwf, if_pos (by omega), Nat.add_sub_cancel_left]

theorem unblockSvca_cases (n : Fin 320) (s : State) : unblockSvca n s = unblock n s ∨ unblockSvca n s = s := by
  unfold unblockSvca
  split
  · exact .inl rfl
  · split
    · split
      · exact .inl rfl
      · exact .inr rfl
    · exact .inr rfl
  · exact .inr rfl

theorem unblockSvca_caseMem : (unblockSvca n s).cap.caseMem = s.cap.caseMem := by
  rcases unblockSvca_cases n s with h | h
  · rw [h, unblock_caseMem]
  · rw [h]

theorem unblockSvca_pending (m : Fin 320) : (getS (unblockSvca n s) m).pending = (getS s m).pending := by
  rcases unblockSvca_cases n s with h | h
  · rw [h, unblock_pending]
  · rw [h]

end

section
variable {hm : Nat} {ev : BitVec 8} {w : Word} {n : Fin 320} {c : Cap} {call : Option Nat} {spent : Bool}

/-- Whatever call completes, of its strand the resolution changes no more than the galley and what a wake changes. -/
theorem Cap.strand_resolveOn_frame : ∃ st used hmax galley, (c.resolveOn hm ev w call n).strand n =
    { c.strand n with galley := galley, st := st, used := used, hmax := hmax } := by
  unfold Cap.resolveOn
  split
  · exact ⟨_, _, _, _, rfl⟩
  · next g hg =>
    split
    · by_cases hopen : g.resolved = none
      · obtain ⟨st, used, hmax, heq, -⟩ := Cap.strand_resolve (hm := hm) (r := outcomeOf g.exp w) hg hopen
        exact ⟨st, used, hmax, _, heq⟩
      · rw [Cap.resolve_of_resolved hg hopen]
        exact ⟨_, _, _, _, rfl⟩
    · exact ⟨_, _, _, _, rfl⟩

/-- The completion of any call sets the pending bits that its event hits. -/
theorem Cap.raise_hits {i : Nat} (hst : (c.strand n).st ≠ .disabled) (hhit : (hitMask ev (c.strand n)).getLsbD i = true) :
    ((c.raise hm ev w call spent).strand n).pending.getLsbD i = true := by
  refine Cap.strand_raise (P := fun x => x.pending.getLsbD i = true) fun d hd => ?_
  rw [← hd] at hst hhit
  have hnotify (e : Cap) (he : ∃ st used hmax galley, e.strand n =
      { d.strand n with galley := galley, st := st, used := used, hmax := hmax }) (hdead : (e.strand n).st ≠ .disabled) :
      ((e.notify hm ev n).strand n).pending.getLsbD i = true := by
    obtain ⟨st, used, hmax, galley, he⟩ := he
    have hmask : hitMask ev (e.strand n) = hitMask ev (d.strand n) := by rw [he]; rfl
    obtain ⟨st', used', hmax', heq, -⟩ := Cap.strand_notify (hm := hm) (ev := ev) hdead
    rw [heq, BitVec.getLsbD_or, hmask, hhit, Bool.or_true]
  unfold Cap.reach
  split
  · exact hnotify d ⟨_, _, _, _, rfl⟩ hst
  · have hdead := ((Cap.resolveOn_event hm ev w call n d).strands n).dead.1
    exact hnotify _ Cap.strand_resolveOn_frame fun h => hst (hdead.mpr h)

end

section
variable {n m : Fin 320} {s : State}

/-- The result block of a completed call is written, its completion noted, its event raised; what waited for it goes on. -/
theorem svcaComplete_eq {call : Call} {ev : BitVec 8} {blk : Nat} {word : Word} {rets : List Word} (hpause : s.sys.pause = false)
    (hfind : s.cap.calls.find? (fun k => k.strand == n && k.async.isSome && k.done.isSome && !k.delivered) = some call)
    (hasync : call.async = some (ev, blk)) (hdone : call.done = some (word, rets)) :
    ∃ (calls : List Call) (hm : Nat), svcaComplete n s = unblockSvca n
      (((putCaseWords blk (resultBlock word rets) s).updCap fun c => { c with calls := calls }).updCap
        (Cap.raise hm ev word (some call.id) call.spent)) := by
  unfold svcaComplete
  simp only [hpause, hfind, hasync, hdone, Bool.false_eq_true, if_false]
  exact ⟨_, _, rfl⟩

/-! ## Queue waits and store reads (04 R80, R83) -/

@[simp] theorem setP_st (i : Fin 4) (b : Bool) (t : Strand) : (setP i b t).st = t.st := by unfold setP; split <;> rfl

theorem getP_setP_true (pd : Fin 4) (t : Strand) : getP (setP pd true t) pd = true := by
  rw [getP_setP]
  by_cases h : pd = 0
  · simp [h, getP]
  · simp [h]

theorem queueWaitComplete_enqw {q : Fin 64} {item : Word} {pd : Nat} (hblock : (getS s n).block = some (.enqw q item pd))
    (hroom : 0 < qRoom s q) :
    queueWaitComplete n s = unblock n (modS n (setP (Fin.ofNat 4 pd) true) (qAppend q item s)) := by
  unfold queueWaitComplete
  simp only [hblock, hroom, if_true]

theorem queueWaitComplete_deqw {q : Fin 64} {rd pd : Nat} {item : Word} {rest : List Word}
    (hblock : (getS s n).block = some (.deqw q rd pd)) (hgal : (getS s n).galley = none)
    (hvisible : qVisible s q n = item :: rest) : queueWaitComplete n s =
    unblock n (modS n (fun t => setW (Fin.ofNat 16 rd) item (setP (Fin.ofNat 4 pd) true t)) (qRemove q 1 s)) := by
  have hnow := speculative_closed hgal
  unfold queueWaitComplete
  simp only [hblock, hvisible, takeStalls_now hnow, takeItem_now hnow, hgal, Option.bind_none, Option.isSome_none, Bool.or_self,
    Bool.false_eq_true, if_false]

theorem storeReadComplete_eq {rd : Nat} {addr : Word} (hblock : (getS s n).block = some (.storeRead rd addr)) :
    storeReadComplete n s = unblock n (modS n (setW (Fin.ofNat 16 rd) (storeReadWord addr s)) s) := by
  unfold storeReadComplete
  simp only [hblock]

end

end Sys2Proof.Machine

open Sys2Proof Sys2Proof.Machine

/-- Settles O20: what is done for the strand is one change of its registers, of case memory or of a queue, and then it goes on. That
the registers beyond the returned values stay is the model's reading (assumption log 21). -/
theorem completionsWakeTheStrand : Obligations.CompletionsWakeTheStrand := by
  unfold Obligations.CompletionsWakeTheStrand
  intro n s
  refine ⟨fun id call word rets hpause hst hblock hfind hdone hlen => ?svc,
    fun call ev blk word rets hpause hwf hfind hasync hdone => ?svca,
    fun q item pd hst hblock hroom => ?enqw, fun q rd pd item rest hst hblock hgal htaker hitems hrd => ?deqw,
    fun rd addr hst hblock => ?storeRead⟩
  case svc =>
    have hready : getS (svcComplete n s) n = ((getS s n).answered word rets).goesOn := by
      rw [svcComplete_eq hpause hblock hfind hdone, getS_updCalls,
        getS_unblock_modS (.inl hst) (by rw [answered_frame])]
    have hreg (j : Fin 16) : getW (getS (svcComplete n s) n) j =
        if 2 ≤ j.val ∧ j.val < 2 + rets.length then rets[j.val - 2]?.getD 0 else getW (setW 1 word (getS s n)) j := by
      rw [hready, getW_goesOn, Strand.answered, getW_putRets (by decide) (by omega)]
    refine ⟨svcComplete n s, rfl, by rw [hready, goesOn_st], by rw [hready, goesOn_block], ?_,
      fun i v hv => ?_, fun j hj => ?_, ?_, fun m hm => ?_⟩
    · rw [hreg, if_neg (by simp), getW_setW, if_pos (by decide)]
    · obtain ⟨hi, -⟩ := List.getElem?_eq_some_iff.mp hv
      have hval : (Fin.ofNat 16 (2 + i)).val = 2 + i := Nat.mod_eq_of_lt (by omega)
      rw [hreg, hval, if_pos (by omega), Nat.add_sub_cancel_left, hv, Option.getD_some]
    · have hout : ¬(2 ≤ j.val ∧ j.val < 2 + rets.length) ∧ ¬(j = 1 ∧ j ≠ 0) := by
        rcases hj with rfl | hj
        · simp
        · exact ⟨by omega, fun h => by rw [h.1] at hj; simp at hj; omega⟩
      rw [hreg, if_neg hout.1, getW_setW, if_neg hout.2]
    · rw [svcComplete_eq hpause hblock hfind hdone]
      exact congrArg (List.filter _) unblock_calls
    · rw [svcComplete_eq hpause hblock hfind hdone, getS_updCalls, getS_unblock_other hm, getS_modS_other hm]
  case svca =>
    obtain ⟨calls, hm, heq⟩ := svcaComplete_eq hpause hfind hasync hdone
    obtain ⟨mem, hwritten⟩ := putCaseWords_only blk (resultBlock word rets) s
    have hmem : (svcaComplete n s).cap.caseMem = (putCaseWords blk (resultBlock word rets) s).cap.caseMem := by
      rw [heq, unblockSvca_caseMem, State.updCap_cap, (Cap.raise_event hm ev word (some call.id) call.spent _).rest]
      rfl
    have hlen : (resultBlock word rets).length ≤ 4 := by
      rw [resultBlock, List.length_cons]
      exact Nat.succ_le_succ (List.length_take_le ..)
    refine ⟨svcaComplete n s, rfl, fun i hi => ?_, fun x hx => ?_, fun m i hst hhit => ?_⟩
    · rw [hmem]
      exact byteAt_putCaseWords_first (caseMem_wf hwf) hi
    · rw [hmem]
      exact byteAt_putCaseWords_other (caseMem_wf hwf) (by omega)
    · rw [heq, unblockSvca_pending, getS_updCap]
      refine Cap.raise_hits ?_ ?_
      · rw [hwritten]
        exact hst
      · rw [hwritten]
        exact hhit
  case enqw =>
    have hwoken : (getS (qAppend q item s) n).st = .blocked ∨ (getS (qAppend q item s) n).st = .ready := by
      rw [← hst]
      exact (Noticed.qAppend q item s).wakes n
    have hn : getS (queueWaitComplete n s) n =
        (setP (Fin.ofNat 4 pd) true (getS (qAppend q item s) n)).goesOn := by
      rw [queueWaitComplete_enqw hblock hroom, getS_unblock_modS hwoken (setP_st ..)]
    refine ⟨queueWaitComplete n s, rfl, ?_, by rw [hn, goesOn_st], by rw [hn, getP_goesOn, getP_setP_true], fun q' hne => ?_⟩
    · rw [queueWaitComplete_enqw hblock hroom, getQ_unblock, getQ_modS, items_qAppend]
    · rw [queueWaitComplete_enqw hblock hroom, getQ_unblock, getQ_modS, getQ_qAppend_other hne]
  case deqw =>
    have hvisible : qVisible s q n = item :: rest := (qVisible_free htaker).trans hitems
    have heq := queueWaitComplete_deqw hblock hgal hvisible
    have hwoken : (getS (qRemove q 1 s) n).st = .blocked ∨ (getS (qRemove q 1 s) n).st = .ready := by
      rw [← hst]
      exact (Noticed.qRemove q 1 s).wakes n
    have hn : getS (queueWaitComplete n s) n =
        (setW (Fin.ofNat 16 rd) item (setP (Fin.ofNat 4 pd) true (getS (qRemove q 1 s) n))).goesOn := by
      rw [heq, getS_unblock_modS hwoken (by rw [setW_st, setP_st])]
    refine ⟨queueWaitComplete n s, rfl, ?_, by rw [hn, goesOn_st], ?_, ?_⟩
    · rw [heq, getQ_unblock, getQ_modS, items_qRemove, hitems]
      rfl
    · rw [hn, getW_goesOn, getW_setW, if_pos ⟨rfl, hrd⟩]
    · rw [hn, getP_goesOn, getP_setW, getP_setP_true]
  case storeRead =>
    have heq := storeReadComplete_eq hblock
    have hn : getS (storeReadComplete n s) n =
        (setW (Fin.ofNat 16 rd) (storeReadWord addr s) (getS s n)).goesOn := by
      rw [heq, getS_unblock_modS (.inl hst) (setW_st ..)]
    refine ⟨storeReadComplete n s, rfl, by rw [hn, goesOn_st], fun i => ?_, fun m hm => ?_⟩
    · rw [hn, getW_goesOn, getW_setW]
      rfl
    · rw [heq, getS_unblock_other hm, getS_modS_other hm]

end

section
/-! SUPPORT. Lock-up, pie, timeout, and the entry that is freed (05 R96, R98 to R104). -/
namespace Sys2Proof.Machine

/-! ## What is pending is performed with the engine -/

section
variable {n : Fin 320} {s u : State} {g : Galley} {w : Word}

theorem performWhen_granted {p : Resolution → Bool} {r : Resolution} (hgrant : grant n s = some u)
    (hgal : (getS u n).galley = some g) (hres : g.resolved = some r) (hp : p r = true) :
    performWhen p n s = performResolution false n u := by
  unfold performWhen
  simp only [hgrant, hgal, Option.bind_some, hres, hp, if_true]

/-- LOCK_UP performs the lock-up on the state in which the strand has the engine. -/
theorem exec_lockUp (hgrant : grant n s = some u) (hgal : (getS u n).galley = some g) (hres : g.resolved = some .lockUp) :
    exec (.lockUp n) s = .next (lockUp false n u) := by
  refine congrArg Host.Outcome.next ((performWhen_granted hgrant hgal hres rfl).trans ?_)
  unfold performResolution
  simp only [hgal, Option.bind_some, hres]

/-- PIE performs the pie on the state in which the strand has the engine. -/
theorem exec_pie (hgrant : grant n s = some u) (hgal : (getS u n).galley = some g) (hres : g.resolved = some (.pie w)) :
    exec (.pie n) s = .next (pieNow n w false u) := by
  refine congrArg Host.Outcome.next ((performWhen_granted hgrant hgal hres rfl).trans ?_)
  unfold performResolution
  simp only [hgal, Option.bind_some, hres]

end

/-! ## The bytes of a unit (R99 step 3) -/

/-- The listed bytes go to their places from `base` up; every other byte stays. -/
theorem byteAt_writeUnit {lo : Nat} {m mem : NMap Byte} (hm : risingFrom lo m = true) (hwf : mapWf 0 mem = true)
    (base x : Nat) : byteAt 0 (m.foldl (fun mem e => mapSet 0 mem (base + e.1) e.2) mem) x =
    if base ≤ x then mapGet (byteAt 0 mem x) m (x - base) else byteAt 0 mem x := by
  induction m generalizing lo mem with
  | nil => exact (ite_self _).symm
  | cons e m ih =>
    obtain ⟨k, v⟩ := e
    simp only [risingFrom, Bool.and_eq_true, decide_eq_true_eq] at hm
    obtain ⟨-, hrest⟩ := hm
    obtain ⟨hrising, -⟩ := Bool.and_eq_true_iff.mp hwf
    rw [List.foldl_cons, ih hrest (mapWf_mapSet 0 (base + k) v hwf)]
    by_cases hx : x = base + k
    · have hlater : mapGet? m (x - base) = none := mapGet?_of_lt (lo := k + 1) (by omega) hrest
      have hwritten : byteAt 0 (mapSet 0 mem (base + k) v) x = v := by rw [hx]; exact mapGet_mapSet_same hrising 0 _ v
      have hplace : x - base = k := by omega
      rw [if_pos (by omega), if_pos (by omega), mapGet, hlater, hwritten, mapGet, mapGet?, if_pos hplace]
      rfl
    · have hkept : byteAt 0 (mapSet 0 mem (base + k) v) x = byteAt 0 mem x := mapGet_mapSet_other hrising 0 0 hx v
      rw [hkept]
      by_cases hbase : base ≤ x
      · rw [if_pos hbase, if_pos hbase]
        by_cases hlow : x - base < k
        · have hnone : mapGet? m (x - base) = none := mapGet?_of_lt (lo := k + 1) (by omega) hrest
          simp only [mapGet, mapGet?, hnone, hlow, hlow.ne, if_true, if_false]
        · simp only [mapGet, mapGet?, hlow, show x - base ≠ k by omega, if_false]
      · rw [if_neg hbase, if_neg hbase]

/-! ## The commit cycle (R99 step 3) -/

/-- The galley after the commit cycle: the held operations are left. -/
def Galley.afterCommit (g : Galley) : Galley := { g with committed := true, held := g.held.filter fun h => !h.atCommit }

/-- The strand after the commit cycle of its galley, no longer BLOCKED inside the lock-up. -/
def Strand.afterCommit (g : Galley) (t : Strand) : Strand :=
  { (if t.block = some .lockUp then { t with block := none } else t).charge 1 with galley := some g.afterCommit }

/-- The commit cycle of a lock-up that begins, in which the entries `hs` become architectural. -/
def committing (n : Fin 320) (g : Galley) (hs : List Held) (u : State) : State :=
  modS n (fun t => { t.charge 1 with galley := some g.afterCommit }) (releaseTakes n
    (hs.foldl (fun s h => commitHeld n h s) (modS n (fun t => if t.block = some .lockUp then { t with block := none } else t) u)))

section
variable {n : Fin 320} {u : State} {g : Galley} {t : Strand}

theorem lockUp_uncommitted (hgal : (getS u n).galley = some g) (hopen : g.committed = false) :
    lockUp false n u = lockOps false (g.held.length + 2) n (committing n g (g.held.filter Held.atCommit) u) := by
  unfold lockUp
  simp only [hgal, hopen, Bool.false_eq_true, if_false]
  rfl

section
variable (g t)

/-- The cycle is charged to the activation of class 0, or to the turn. -/
theorem afterCommit_frame : ∃ used hwm block, t.afterCommit g =
    { t with used := used, hwm := hwm, turnLeft := (t.charge 1).turnLeft, block := block, galley := some g.afterCommit } := by
  unfold Strand.afterCommit Strand.charge
  split <;> split <;> exact ⟨_, _, _, rfl⟩

theorem afterCommit_waitMask : (t.afterCommit g).waitMask = t.waitMask := by
  obtain ⟨_, _, _, heq⟩ := afterCommit_frame g t
  rw [heq]

theorem afterCommit_turnLeft (hturn : 2 ≤ t.turnLeft) : (t.afterCommit g).turnLeft ≠ 0 := by
  obtain ⟨_, _, _, heq⟩ := afterCommit_frame g t
  rw [heq]
  unfold Strand.charge
  split
  · show t.turnLeft ≠ 0
    omega
  · show t.turnLeft - 1 ≠ 0
    omega

end

/-- Entries that leave the strand alone leave it to the cycle. -/
theorem getS_committing {hs : List Held} (hkeep : ∀ s, getS (hs.foldl (fun s h => commitHeld n h s) s) n = getS s n) :
    getS (committing n g hs u) n = (getS u n).afterCommit g := by
  have hfree (s : State) : getS (releaseTakes n s) n = getS s n := rfl
  rw [committing, getS_modS_same, hfree, hkeep, getS_modS_same]
  rfl

/-- The bytes of a unit go to the strand's window in case memory. -/
theorem committing_unit_caseMem {k : Nat} {m : NMap Byte} {f : Bool} {c : BitVec 12} :
    (committing n g [⟨.unit k m, f, c⟩] u).cap.caseMem =
      m.foldl (fun mem e => mapSet 0 mem (64 * (getS u n).winBase + 64 * k + e.1) e.2) u.cap.caseMem := by
  have hwindow : windowStart (getS (modS n (fun t => if t.block = some .lockUp then { t with block := none } else t) u) n) =
      64 * (getS u n).winBase := by
    rw [windowStart, getS_modS_same, Nat.mul_comm]
    split <;> rfl
  rw [← hwindow]
  rfl

end

/-! ## The held operations (R95, R99 step 4) -/

/-- The galley after its first held operation is dropped as fenced. -/
def Galley.firstDropped (g : Galley) : Galley := { g with held := g.held.tail, fenced := g.fenced + 1 }

section
variable {n : Fin 320} {s : State} {g : Galley} {h : Held} {rest : List Held}

theorem lockOps_done (whole : Bool) (k : Nat) (hgal : (getS s n).galley = some g) (hheld : g.held = []) :
    lockOps whole (k + 1) n s = lockDone n g s := by
  rw [lockOps]
  simp only [hgal, hheld]

/-- A dropped operation is counted and nothing else, while the turn lasts and no strand of class 0 is READY. -/
theorem lockOps_drops (whole : Bool) (k : Nat) (hgal : (getS s n).galley = some g) (hheld : g.held = h :: rest)
    (hturn : (getS s n).turnLeft ≠ 0) (hq0 : s.cap.q0 = []) (hdrop : h.dropped = true) :
    lockOps whole (k + 1) n s = lockOps whole k n (modS n (fun t => { t with galley := some g.firstDropped }) s) := by
  rw [lockOps]
  simp only [hgal, hheld, hturn, hq0, hdrop, ne_eq, not_true_eq_false, or_self, and_false, if_false, if_true,
    Galley.firstDropped, List.tail_cons]

end

/-! ## The end of a lock-up (R99 step 5) -/

/-- The strand as it goes on after its lock-up. -/
def Strand.lockedUp (g : Galley) (t : Strand) : Strand :=
  setP (Fin.ofNat 4 g.pd) true { t with galley := none, lastGal := BitVec.ofNat 10 (0x100 + min 255 g.fenced) }

section
variable {n : Fin 320} {s : State} {g : Galley} {t : Strand}

theorem lockedUp_frame (g : Galley) (t : Strand) : t.lockedUp g =
    { t with galley := none, lastGal := BitVec.ofNat 10 (0x100 + min 255 g.fenced), p := (t.lockedUp g).p } := by
  unfold Strand.lockedUp setP
  split <;> rfl

theorem getP_lockedUp (g : Galley) (t : Strand) (i : Fin 4) :
    getP (t.lockedUp g) i = predAfter t (Fin.ofNat 4 g.pd) true i := getP_setP ..

theorem takeWake_of_noWait (hgal : t.galley = none) (hmask : t.waitMask = none) : t.takeWake = t := by
  unfold Strand.takeWake
  simp only [hgal, hmask, Option.bind_none, Option.isSome_none, Bool.false_eq_true, if_false]

/-- From `s` to `t` the lock-up of galley `g` has ended: the strand goes on from `x`, and case memory, the outputs, the pilot
and the supervisor are as they were. -/
structure LockEnded (n : Fin 320) (x : Strand) (g : Galley) (s t : State) : Prop where
  strand : getS t n = x.lockedUp g
  caseMem : t.cap.caseMem = s.cap.caseMem
  sw : t.sw = s.sw
  pilot : t.pilot = s.pilot
  sup : t.sup = s.sup

theorem lockDone_ends (hback : g.back = .running) (hmask : (getS s n).waitMask = none) :
    LockEnded n (getS s n) g s (lockDone n g s) := by
  have hclosed : getS (lockDone n g s) n = ((getS s n).lockedUp g).takeWake := by
    unfold lockDone
    simp only [hback, getS_modS_same]
    exact congrArg Strand.takeWake (getS_modS_same ..)
  refine ⟨?_, ?_, ?_, ?_, ?_⟩
  · rw [hclosed, takeWake_of_noWait (by rw [lockedUp_frame]) (by rw [lockedUp_frame]; exact hmask)]
  all_goals
    unfold lockDone
    simp only [hback]
    rfl

end

/-! ## The lock-up of one entry -/

section
variable {n : Fin 320} {u : State} {g : Galley} {c : BitVec 12}

/-- The galley waits for its lock-up, which has not begun, of a strand that was RUNNING. -/
structure LocksUp (n : Fin 320) (g : Galley) (u : State) : Prop where
  galley : (getS u n).galley = some g
  uncommitted : g.committed = false
  back : g.back = .running
  noWait : (getS u n).waitMask = none

/-- A unit that is held alone goes to case memory, and the lock-up ends. -/
theorem lockUp_unit {k : Nat} {m : NMap Byte} {f : Bool} (hlock : LocksUp n g u) (hheld : g.held = [⟨.unit k m, f, c⟩]) :
    getS (lockUp false n u) n = ((getS u n).afterCommit g).lockedUp g.afterCommit ∧
    (lockUp false n u).cap.caseMem =
      m.foldl (fun mem e => mapSet 0 mem (64 * (getS u n).winBase + 64 * k + e.1) e.2) u.cap.caseMem := by
  obtain ⟨hgal, hopen, hback, hmask⟩ := hlock
  have hcommit : g.held.filter Held.atCommit = [⟨.unit k m, f, c⟩] := by rw [hheld]; rfl
  have hleft : g.afterCommit.held = [] := by rw [Galley.afterCommit, hheld]; rfl
  have hstrand : getS (committing n g [⟨.unit k m, f, c⟩] u) n = (getS u n).afterCommit g := getS_committing fun _ => rfl
  have hends : lockUp false n u = lockDone n g.afterCommit (committing n g [⟨.unit k m, f, c⟩] u) := by
    rw [lockUp_uncommitted hgal hopen, hcommit, lockOps_done _ _ (by rw [hstrand]; rfl) hleft]
  obtain ⟨hended, hmem, -⟩ := lockDone_ends (s := committing n g [⟨.unit k m, f, c⟩] u) (g := g.afterCommit) hback
    (by rw [hstrand, afterCommit_waitMask, hmask])
  rw [hends, hended, hmem, hstrand]
  exact ⟨rfl, committing_unit_caseMem⟩

/-- A fenced port write that is held alone is dropped and counted, and the lock-up ends. -/
theorem lockUp_fenced {p : Nat} {a v : Word} (hlock : LocksUp n g u) (hheld : g.held = [⟨.port p a v, true, c⟩])
    (hturn : 2 ≤ (getS u n).turnLeft) (hq0 : u.cap.q0 = []) :
    LockEnded n ((getS u n).afterCommit g) g.afterCommit.firstDropped u (lockUp false n u) := by
  obtain ⟨hgal, hopen, hback, hmask⟩ := hlock
  have hcommit : g.held.filter Held.atCommit = [] := by rw [hheld]; rfl
  have hheld' : g.afterCommit.held = [⟨.port p a v, true, c⟩] := by rw [Galley.afterCommit, hheld]; rfl
  have hleft : g.afterCommit.firstDropped.held = [] := by rw [Galley.firstDropped, hheld']; rfl
  have hstrand : getS (committing n g [] u) n = (getS u n).afterCommit g := getS_committing fun _ => rfl
  have hdrops := lockOps_drops (n := n) (s := committing n g [] u) false 2 (by rw [hstrand]; rfl) hheld'
    (by rw [hstrand]; exact afterCommit_turnLeft g _ hturn) hq0 rfl
  rw [lockUp_uncommitted hgal hopen, hcommit, hheld, List.length_singleton, hdrops,
    lockOps_done _ _ (by rw [getS_modS_same]) hleft]
  have hends := lockDone_ends (n := n) (g := g.afterCommit.firstDropped)
    (s := modS n (fun t => { t with galley := some g.afterCommit.firstDropped }) (committing n g [] u)) hback
    (by rw [getS_modS_same, hstrand]; exact (afterCommit_waitMask g _).trans hmask)
  refine ⟨?_, hends.caseMem, hends.sw, hends.pilot, hends.sup⟩
  rw [hends.strand, getS_modS_same, hstrand]
  rfl

end

/-! ## The pie (R102, R103) -/

/-- The strand as its pie leaves it: at the checkpoint, with the outcome word and PD = 0, at the alternative address. -/
def Strand.pied (g : Galley) (w : Word) (t : Strand) : Strand :=
  setW 1 w (setP (Fin.ofNat 4 g.pd) false { t.charge 1 with
    w := g.ckW, p := g.ckP, pc := g.alt, galley := none, waitMask := none, block := none, lastGal := 0 })

section
variable {n m : Fin 320} {s : State} {g : Galley} {w : Word} {t : Strand}

theorem pied_frame (g : Galley) (w : Word) (t : Strand) : (t.pied g w).galley = none ∧ (t.pied g w).pc = g.alt := by
  unfold Strand.pied setW setP
  split <;> split <;> exact ⟨rfl, rfl⟩

theorem getW_pied (g : Galley) (w : Word) (t : Strand) {i : Fin 16} (hi : i ≠ 0) :
    getW (t.pied g w) i = if i = 1 then w else g.ckW.get i := by
  rw [Strand.pied, getW_setW, getW_setP]
  simp [hi, getW]

theorem getP_pied (g : Galley) (w : Word) (t : Strand) {i : Fin 4} (hi : i ≠ 0) :
    getP (t.pied g w) i = if i = Fin.ofNat 4 g.pd then false else g.ckP.getLsbD i.val := by
  rw [Strand.pied, getP_setW, getP_setP]
  simp [hi, getP]

/-- Of the Capstan a pie changes its strand alone. -/
theorem pieNow_cap (hgal : (getS s n).galley = some g) :
    (pieNow n w false s).cap = (modS n (Strand.pied g w) s).cap := by
  unfold pieNow
  simp only [hgal, proofPie_cap]
  rfl

end

/-! ## The entry that is freed (R96) -/

section
variable {n : Fin 320} {c : Cap} {s : State} {rest : List (Fin 320)}

theorem Cap.stalled_makeReady (hm : Nat) (fresh : Bool) : (c.makeReady hm fresh n).stalled = c.stalled.filter (· ≠ n) := by
  unfold Cap.makeReady Cap.join
  split <;> rfl

/-- The strand has the entry kept for it, and is READY unless it is HALTED. -/
theorem Cap.strand_giveEntry : ∃ st prev, (c.giveEntry n).strand n =
    { (c.strand n) with reserved := true, st := st, prev := prev } ∧ ((c.strand n).st ≠ .halted → st = .ready) := by
  have hmod (f : Strand → Strand) (d : Cap) := Cap.strand_modStrand_same n f d
  unfold Cap.giveEntry
  dsimp only
  split
  · next hst =>
    rw [hmod] at hst
    exact ⟨_, _, by rw [hmod, hmod]; rfl, fun hnot => absurd hst hnot⟩
  · exact ⟨_, _, by rw [Cap.strand_makeReady_same, hmod]; rfl, fun _ => rfl⟩

theorem Cap.stalled_giveEntry : (c.giveEntry n).stalled = c.stalled.filter (· ≠ n) := by
  unfold Cap.giveEntry
  dsimp only
  split
  · rfl
  · rw [Cap.stalled_makeReady]
    exact List.filter_filter.trans (by simp only [Bool.and_self])

theorem galleyEntryFreed_first (hstalled : s.cap.stalled = n :: rest) (hfree : entryFree n s = true) :
    galleyEntryFreed s = s.updCap (Cap.giveEntry n) := by
  unfold galleyEntryFreed
  rw [hstalled, List.find?_cons_of_pos (p := fun n => entryFree n s) hfree]

end

/-! ## The timeout (R88, R98, R104) -/

section
variable {n : Fin 320} {c : Cap} {hm : Nat} {r : Resolution} {s : State} {g : Galley}

theorem Cap.caseMem_resolve : (c.resolve hm r n).caseMem = c.caseMem := by
  rw [(Cap.resolve_event hm r n c).rest]

/-- A strand that is neither HALTED, DISABLED nor FAULTED is READY to perform its resolution. -/
theorem Cap.st_resolve_ready (hgal : (c.strand n).galley = some g) (hopen : g.resolved = none)
    (hhalted : (c.strand n).st ≠ .halted) (hdisabled : (c.strand n).st ≠ .disabled) (hfaulted : (c.strand n).st ≠ .faulted) :
    ((c.resolve hm r n).strand n).st = .ready := by
  unfold Cap.resolve
  simp only [hgal, hopen, Option.isSome_none, Bool.false_eq_true, if_false]
  split
  · contradiction
  · next hready =>
    rw [Cap.strand_modStrand_same, Cap.strand_modStrand_same]
    exact hready
  · contradiction
  · contradiction
  · rw [Cap.strand_makeReady_same]

theorem galleyTimeout_open (hgal : (getS s n).galley = some g) (hopen : g.resolved = none) :
    galleyTimeout n s = s.updCap (Cap.resolve (hmaxNow s) .timeout n) := by
  unfold galleyTimeout speculative
  simp only [hgal, hopen, Option.isNone_none, if_true]

end

end Sys2Proof.Machine

open Sys2Proof Sys2Proof.Machine

/-- Settles O19: a lock-up of one entry is its commit cycle, what becomes of the entry, and its end (05 R99); a pie, a timeout and an
entry that is given each change one strand. -/
theorem galleysLockUpOrPie : Obligations.GalleysLockUpOrPie := by
  unfold Obligations.GalleysLockUpOrPie
  intro n s
  refine ⟨fun u g hgrant hgal hopen hback hmask hres hwf hturn hq0 => ?lockUp, fun u g w hgrant hgal hres => ?pie,
    fun g hgal hopen => ?timeout, fun rest hstalled hfree => ?freed⟩
  case lockUp =>
    have hruns := exec_lockUp hgrant hgal hres
    have hlock : LocksUp n g u := ⟨hgal, hopen, hback, hmask⟩
    obtain ⟨_, _, _, hafter⟩ := afterCommit_frame g (getS u n)
    constructor
    case left =>
      intro k m f c hheld hrising
      obtain ⟨hstrand, hmem⟩ := lockUp_unit hlock hheld
      refine ⟨_, hruns, ?_, ?_, ?_, fun i => ?_, fun x => ?_⟩
      · rw [hstrand, lockedUp_frame]
      · rw [hstrand, lockedUp_frame, hafter]
      · rw [hstrand, lockedUp_frame, hafter]
      · rw [hstrand, getP_lockedUp, hafter]
        rfl
      · rw [hmem, byteAt_writeUnit hrising (caseMem_wf hwf)]
    case right =>
      intro p a v c hheld hfenced
      obtain ⟨hstrand, hmem, hsw, hpilot, hsup⟩ := lockUp_fenced hlock hheld hturn hq0
      refine ⟨_, hruns, ?_, ?_, ?_, hmem, hsw, hpilot, hsup⟩
      · rw [hstrand, lockedUp_frame]
      · have hcount : g.afterCommit.firstDropped.fenced = 1 := congrArg (· + 1) hfenced
        rw [hstrand, lockedUp_frame, hcount]
        rfl
      · rw [hstrand, lockedUp_frame, hafter]
  case pie =>
    have hruns := exec_pie hgrant hgal hres
    have hcap := pieNow_cap (w := w) hgal
    have hn : getS (pieNow n w false u) n = (getS u n).pied g w := by
      rw [getS, hcap]
      exact getS_modS_same ..
    obtain ⟨hgone, hpc⟩ := pied_frame g w (getS u n)
    refine ⟨_, hruns, by rw [hn, hgone], ?_, fun i hi1 hi0 => ?_, fun i hi => by rw [hn, getP_pied g w _ hi],
      by rw [hn, hpc], by rw [hcap, modS_caseMem], fun m hm => ?_⟩
    · rw [hn, getW_pied g w _ (by decide), if_pos rfl]
    · rw [hn, getW_pied g w _ hi0, if_neg hi1]
    · rw [getS, hcap]
      exact getS_modS_other hm ..
  case timeout =>
    have heq := galleyTimeout_open hgal hopen
    have hn : getS (galleyTimeout n s) n = (s.cap.resolve (hmaxNow s) .timeout n).strand n := by rw [heq, getS_updCap]
    obtain ⟨st, used, hmax, hstrand, -⟩ := Cap.strand_resolve (hm := hmaxNow s) (r := .timeout) hgal hopen
    obtain ⟨-, -, hhalted⟩ := ((Cap.resolve_event (hmaxNow s) .timeout n s.cap).strands n).dead
    refine ⟨galleyTimeout n s, rfl, by rw [hn, hstrand]; rfl, ?_, by rw [hn, hstrand]; rfl, by rw [hn, hstrand]; rfl,
      fun hst => ?_, fun hst hdisabled hfaulted => ?_⟩
    · rw [heq, State.updCap_cap, Cap.caseMem_resolve]
    · rw [hn]
      exact hhalted.mp hst
    · rw [hn]
      exact Cap.st_resolve_ready hgal hopen hst hdisabled hfaulted
  case freed =>
    have heq := galleyEntryFreed_first hstalled hfree
    obtain ⟨st, prev, hstrand, hready⟩ := Cap.strand_giveEntry (n := n) (c := s.cap)
    have hn : getS (galleyEntryFreed s) n = { getS s n with reserved := true, st := st, prev := prev } := by
      rw [heq, getS_updCap, hstrand]
      rfl
    refine ⟨galleyEntryFreed s, rfl, fun hst => by rw [hn]; exact hready hst, by rw [hn], by rw [hn], by rw [hn], ?_⟩
    rw [heq, State.updCap_cap, Cap.stalled_giveEntry, hstalled, List.filter_cons_of_neg (by simp)]

end

section
/-! SUPPORT. What ends with the lock's pulse, and a microsecond in which no PWM period starts (07 R127, R134). -/
namespace Sys2Proof.Machine

section
variable {n : Fin 12} {s : State}

theorem switchOut_sys (f : OutCh → OutCh) : (switchOut n f s).sys = s.sys := by
  unfold switchOut
  dsimp only
  split <;> rfl

theorem clampEnergy_sys : (clampEnergy n s).sys = s.sys := by
  unfold clampEnergy
  split <;> rfl

theorem outOff_sys : (outOff n s).sys = s.sys := by
  unfold outOff
  split
  · split
    · exact switchOut_sys _
    · exact (switchOut_sys _).trans clampEnergy_sys
  · rfl

theorem lockPulseEnd_sys : (lockPulseEnd s).sys = s.sys := outOff_sys.trans outOff_sys

theorem lockPulseEnd_lockPulse : (lockPulseEnd s).pilot.lockPulse = none := rfl

/-- The time moves on by 1 µs, and nothing else. -/
def State.later (s : State) : State := s.updSys fun y => { y with usec := y.usec + 1 }

/-- The lock's pulse ends when it is due. -/
def pulseDueEnds (s : State) : State :=
  match s.pilot.lockPulse with
  | some t => if t ≤ s.sys.usec then lockPulseEnd s else s
  | none => s

theorem microsecond_eq : microsecond s =
    if (pulseDueEnds s.later).sys.usec % 1000 = 0 then pwmPeriod (pulseDueEnds s.later) else pulseDueEnds s.later := rfl

theorem pulseDueEnds_none (hpulse : ∀ u, s.pilot.lockPulse = some u → s.sys.usec < u) : pulseDueEnds s = s := by
  unfold pulseDueEnds
  split
  · next u hu => exact if_neg (Nat.not_le.mpr (hpulse u hu))
  · rfl

theorem pulseDueEnds_due {u : Nat} (hpulse : s.pilot.lockPulse = some u) (hdue : u ≤ s.sys.usec) :
    pulseDueEnds s = lockPulseEnd s := by
  unfold pulseDueEnds
  rw [hpulse]
  exact if_pos hdue

theorem pulseDueEnds_sys : (pulseDueEnds s).sys = s.sys := by
  unfold pulseDueEnds
  split
  · split
    · exact lockPulseEnd_sys
    · rfl
  · rfl

/-- A microsecond with which no PWM period starts only ends the pulse that is due. -/
theorem microsecond_within (hperiod : (s.sys.usec + 1) % 1000 ≠ 0) : microsecond s = pulseDueEnds s.later := by
  rw [microsecond_eq, if_neg]
  rw [pulseDueEnds_sys]
  exact hperiod

end

end Sys2Proof.Machine

open Sys2Proof Sys2Proof.Machine

/-- Settles O57: with nothing waiting a step is `microsecond`, in which only the end of the lock's pulse and the start of a PWM
period do more than move the time on. -/
theorem idleStepIsAMicrosecond : Obligations.IdleStepIsAMicrosecond := by
  intro s hidle later
  refine ⟨tick s, step_of_idle hidle, fun hperiod => ?_⟩
  have htick : tick s = pulseDueEnds later := microsecond_within hperiod
  refine ⟨fun hpulse => htick.trans (pulseDueEnds_none hpulse), fun u hpulse hdue => ?_⟩
  have hend : tick s = lockPulseEnd later := htick.trans (pulseDueEnds_due hpulse hdue)
  exact ⟨hend, by rw [hend]; exact lockPulseEnd_lockPulse⟩

end

section
/-! SUPPORT. The port rows: a write as it is executed at once or held, and what it does to the held writes of other strands
(04 R79 to R82, 05 R95, 06 R107 to R109). -/
namespace Sys2Proof.Machine

section
variable {n : Fin 320} {port : Nat} {arg v : Word} {s : State} {P : State → Prop} {c : Instr} {i : PortInfo} {x : Nat}

/-! ## The value as the port takes it (R108) -/

/-- A value within the port's width and range is taken as written. -/
theorem portValue_eq (hinfo : portInfo port = some i) (hwidth : v.toNat < 2 ^ i.width)
    (hmax : v.toNat ≤ i.max.getD (2 ^ i.width)) : portValue port v = v.toNat := by
  unfold portValue
  rw [hinfo]
  dsimp only
  rw [Nat.mod_eq_of_lt hwidth, Nat.min_eq_left hmax]

/-- A port with no range of its own takes a value within its width as written; SAFE_LIMIT and ALLOC_CURRENT have ranges. -/
theorem portLimit_eq (hlimit : port ≠ 0x103) (hceiling : port ≠ 0x20B) (hinfo : portInfo port = some i) (hmax : i.max = none)
    (hwidth : v.toNat < 2 ^ i.width) : portLimit port arg v s = v.toNat := by
  have hrange : v.toNat ≤ i.max.getD (2 ^ i.width) := by
    rw [hmax]
    exact Nat.le_of_lt hwidth
  simp [portLimit, hlimit, hceiling, portValue_eq hinfo hwidth hrange]

/-! ## A write that takes effect at once (R81) -/

/-- What a safe-direction write does beside its effect, it does to held writes: in the Capstan alone (R82, R95). -/
theorem safeEffects_cap : ∃ d, safeEffects n port arg x s = s.updCap fun _ => d := by
  unfold safeEffects
  cases speculative s n <;> exact ⟨_, rfl⟩

theorem putNow_eq : ∃ d, putNow n port arg x s = applyPort n port arg x (s.updCap fun _ => d) := by
  unfold putNow
  dsimp only
  split
  · obtain ⟨d, hd⟩ := safeEffects_cap (n := n) (port := port) (arg := arg) (x := x) (s := s)
    exact ⟨d, by rw [hd]⟩
  · exact ⟨s.cap, rfl⟩

/-- A PUT to an Inward or Outward port is not safe-direction (R79). -/
theorem putNow_plain (hinfo : portInfo port = some i) (hcls : i.cls = .inward ∨ i.cls = .outward) :
    putNow n port arg x s = applyPort n port arg x s := by
  have hsafe : putIsSafe n port arg x s = false := by
    unfold putIsSafe
    rw [hinfo]
    rcases hcls with hcls | hcls <;> simp [hcls]
  unfold putNow
  rw [hsafe]
  rfl

/-- A write to a port of blocks 0x0 to 0x3, STR_CTRL apart. -/
theorem applyPort_low (hhub : hubPort port = false) (hctrl : port ≠ 0x002) (hlow : port < 0x400) :
    applyPort n port arg x s = portWrite0 n port arg.toNat x s := by
  simp [applyPort, hhub, hctrl, portWrite, hlow]

section
variable (hon : domainOn 7 s = true) (hspec : speculative s n = false)
include hon hspec

theorem portRow_now : portRow n port arg v s = putNow n port arg (portLimit port arg v s) s := by
  simp [portRow, hon, putHeld, hspec]

/-- A port row of a strand that is not speculative: its effect, on a state whose Capstan alone may differ. -/
theorem portRow_gives (hexec : exec c s = .next (portRow n port arg v s))
    (h : ∀ d, P (applyPort n port arg (portLimit port arg v s) (s.updCap fun _ => d))) : Gives c s P := by
  refine ⟨_, hexec, ?_⟩
  obtain ⟨d, hd⟩ := putNow_eq (n := n) (port := port) (arg := arg) (x := portLimit port arg v s) (s := s)
  rw [portRow_now hon hspec, hd]
  exact h d

/-- The same of an Inward or Outward port: its effect, and nothing else. -/
theorem portRow_gives_plain (hexec : exec c s = .next (portRow n port arg v s)) (hinfo : portInfo port = some i)
    (hcls : i.cls = .inward ∨ i.cls = .outward) (h : P (applyPort n port arg (portLimit port arg v s) s)) : Gives c s P := by
  refine ⟨_, hexec, ?_⟩
  rw [portRow_now hon hspec, putNow_plain hinfo hcls]
  exact h

end

/-! ## A write that the galley holds (R87) -/

theorem addHeld_only (k : HeldKind) : OnlyStrand n s (addHeld n k s) ∧ (getS (addHeld n k s) n).pc = (getS s n).pc :=
  ⟨onlyStrand_modS _, by rw [addHeld, getS_modS_same]⟩

theorem heldOf_addHeld {k : HeldKind} (hgal : (getS s n).galley.isSome = true) :
    heldOf (addHeld n k s) n = heldOf s n ++ [{ kind := k }] := by
  obtain ⟨g, hg⟩ := Option.isSome_iff_exists.mp hgal
  rw [heldOf_eq hg, heldOf_eq (g := { g with held := g.held ++ [{ kind := k }] })]
  rw [addHeld, getS_modS_same, hg]
  rfl

/-- An outward write of a speculative strand goes into its galley, with the value as the port takes it. -/
theorem portRow_held (hon : domainOn 7 s = true) (hspec : speculative s n = true) (hfree : entryFree n s = true)
    (hinfo : portInfo port = some i) (hcls : i.cls = .outward) :
    portRow n port arg v s = addHeld n (.port port arg (BitVec.ofNat 32 (portLimit port arg v s))) s := by
  simp [portRow, hon, putHeld, hspec, hinfo, hcls, hfree]

theorem outward_held (hon : domainOn 7 s = true) (hspec : speculative s n = true) (hfree : entryFree n s = true)
    (hexec : exec c s = .next (portRow n port arg v s)) (hinfo : portInfo port = some i) (hcls : i.cls = .outward)
    (hvalue : BitVec.ofNat 32 (portLimit port arg v s) = v) : Gives c s fun t => OnlyStrand n s t ∧
      (getS t n).pc = (getS s n).pc ∧ heldOf t n = heldOf s n ++ [{ kind := .port port arg v }] := by
  refine ⟨_, hexec, ?_⟩
  rw [portRow_held hon hspec hfree hinfo hcls, hvalue]
  obtain ⟨honly, hpc⟩ := addHeld_only (n := n) (s := s) (.port port arg v)
  exact ⟨honly, hpc, heldOf_addHeld (galley_of_entryFree hfree)⟩

end

end Sys2Proof.Machine
end

section
/-! SUPPORT. The effects of the strand's own ports, of the limit port and of the site's ports (06 R107 to R109, 09 R193). -/
namespace Sys2Proof.Machine

section
variable {n k : Fin 320} {s : State} {v : Nat}

/-! ## STR_TIMER and STR_CTRL -/

theorem getS_putTimer : getS (putTimer n v s) n =
    { getS s n with timerEnd := if v = 0 then none else some (s.sys.usec + v), timerFired := false } := getS_modS_same ..

theorem getS_putTimer_other {m : Fin 320} (h : m ≠ n) : getS (putTimer n v s) m = getS s m := getS_modS_other h ..

/-- A strand command of a strand outside class 3 does nothing (06, port 0x002). -/
theorem putStrCtrl_none (hcls : (getS s n).cls ≠ 3) : putStrCtrl n v s = s := if_neg hcls

/-- DISABLE, where it is not refused, leaves the strand DISABLED, whatever becomes of its galley, its calls and its key
slots. -/
theorem disableStrand_disabled (hst : (getS s k).st ≠ .disabled) (hsession : (getS s k).cls = 0 → sessionActive s = false) :
    (getS (disableStrand k s).2 k).st = .disabled := by
  have hallowed : ¬((getS s k).cls = 0 ∧ sessionActive s = true) := fun ⟨hcls, hon⟩ => by
    rw [hsession hcls] at hon
    exact nomatch hon
  have heq : (disableStrand k s).2 =
      modS k Strand.shut ((keysLetGo k (abandonCalls k (discardGalley k s))).updCap (Cap.stopIn .disabled k)) :=
    congrArg Prod.snd ((if_neg hallowed).trans (if_neg hst))
  rw [heq, getS_modS_same, getS_updCap, Cap.strand_stopIn_same]
  rfl

/-- STR_CTRL with command 2 (DISABLE) for strand `k`. -/
theorem putStrCtrl_disable (hcls : (getS s n).cls = 3) (hst : (getS s k).st = .waiting)
    (hsession : (getS s k).cls = 0 → sessionActive s = false) : (getS (putStrCtrl n (0x400 + k.val) s) k).st = .disabled := by
  have hcmd : bits (0x400 + k.val) 9 2 = 2 ∧ bits (0x400 + k.val) 0 9 = k.val := by
    unfold bits
    omega
  have hcommand : putStrCtrl n (0x400 + k.val) s = noteRestart k.val s (disableStrand k s).2 := by
    unfold putStrCtrl
    rw [if_pos hcls, hcmd.1, hcmd.2, strandCommand_disable]
  have hnote : noteRestart k.val s (disableStrand k s).2 = (disableStrand k s).2 := by
    unfold noteRestart
    rw [dif_pos k.isLt, if_neg]
    rw [hst]
    exact fun h => nomatch h.1
  rw [hcommand, hnote]
  exact disableStrand_disabled (by rw [hst]; nofun) hsession

/-! ## SAFE_LIMIT for the DC threshold (R193) -/

theorem limitRange_dc (h30 : 30 ≤ v) (h100 : v ≤ 100) : limitRange 0 v = v := by
  show clamp 30 100 v = v
  unfold clamp
  omega

/-- A threshold within its range: a raise waits for the supervisor to stop. -/
theorem limitPut_dc (h30 : 30 ≤ v) (h100 : v ≤ 100) : limitPut 0 v s =
    if getF s Reg.SAFE_RCM_CFG_DC_TH < v && coilOn s then s else setF Reg.SAFE_RCM_CFG_DC_TH v s := by
  show (if getF s Reg.SAFE_RCM_CFG_DC_TH < limitRange 0 v && coilOn s then s
    else setF Reg.SAFE_RCM_CFG_DC_TH (limitRange 0 v) s) = _
  rw [limitRange_dc h30 h100]

theorem getF_limitPut_dc_taken (hrising : risingFrom 0 s.regs = true) (h30 : 30 ≤ v) (h100 : v ≤ 100)
    (hfree : v ≤ getF s Reg.SAFE_RCM_CFG_DC_TH ∨ coilOn s = false) : getF (limitPut 0 v s) Reg.SAFE_RCM_CFG_DC_TH = v := by
  have hgo : ¬((decide (getF s Reg.SAFE_RCM_CFG_DC_TH < v) && coilOn s) = true) := by
    rcases hfree with hle | hoff
    · simp [Nat.not_lt.mpr hle]
    · simp [hoff]
  rw [limitPut_dc h30 h100, if_neg hgo, getF_setF_same hrising]
  exact Nat.mod_eq_of_lt (by show v < 2 ^ 8; omega)

theorem getF_limitPut_dc_barred (h30 : 30 ≤ v) (h100 : v ≤ 100) (hraise : getF s Reg.SAFE_RCM_CFG_DC_TH < v)
    (hcoil : coilOn s = true) : getF (limitPut 0 v s) Reg.SAFE_RCM_CFG_DC_TH = getF s Reg.SAFE_RCM_CFG_DC_TH := by
  rw [limitPut_dc h30 h100, if_pos (by simp [hraise, hcoil])]

theorem portLimit_dc {v : Word} (h30 : 30 ≤ v.toNat) (h100 : v.toNat ≤ 100) : portLimit 0x103 0 v s = v.toNat := by
  show limitRange 0 (portValue 0x103 v) = v.toNat
  rw [portValue_eq (i := ⟨.both, .byRule, .lower, 16, true, none⟩) rfl (by show v.toNat < 2 ^ 16; omega)
    (by show v.toNat ≤ 2 ^ 16; omega), limitRange_dc h30 h100]

/-! ## ALLOC_CEIL and ALLOC_PAUSE -/

/-- A Hub port outside HUB has no effect (R107). -/
theorem applyPort_outsideHub {port : Nat} {arg : Word} (hport : hubPort port = true) (hrole : s.sys.role ≠ .hub) :
    applyPort n port arg v s = s := by
  simp [applyPort, hport, hrole]

theorem applyPort_inHub {port : Nat} {arg : Word} (hport : hubPort port = true) (hrole : s.sys.role = .hub) :
    applyPort n port arg v s = portWrite4 n port arg v s := by
  have hnum : port = 0x704 ∨ port = 0x705 := by simpa [hubPort] using hport
  rcases hnum with rfl | rfl <;> simp [applyPort, hrole, portWrite]

/-- ALLOC_CEIL of a channel of the hub. -/
theorem getF_portWrite4_ceil {arg : Word} (hrising : risingFrom 0 s.regs = true) (harg : arg.toNat < 256) (hv : v < 2 ^ 14) :
    getF (portWrite4 n 0x704 arg v s) (Reg.ALLOC_CH_CFG_CEIL arg.toNat) = v := by
  show getF (if arg.toNat < 256 then setF (Reg.ALLOC_CH_CFG_CEIL arg.toNat) v s else s) _ = v
  rw [if_pos harg, getF_setF_same hrising]
  exact Nat.mod_eq_of_lt hv

end

end Sys2Proof.Machine

open Sys2Proof Sys2Proof.Machine

/-- Settles O29: each port's row is one write, at once or held, and each clause is what that write does. That a write of STR_TIMER
clears the latched `timerFired` is the model's reading (assumption log 19). -/
theorem strandAndServicePorts : Obligations.StrandAndServicePorts := by
  unfold Obligations.StrandAndServicePorts
  intro n s hwf hon
  have hrising := regs_rising hwf
  refine ⟨fun hspec hfree => ?held, fun hspec => ⟨fun v hv => ?timer, ?timerOff, fun v hcls => ?noCtrl,
    fun k hk hcls hst hsession => ?disable, fun v h30 h100 hlower => ?limit, fun v h30 h100 hraise hcoil => ?limitKept,
    fun hrole a v ha hv => ?hub, fun hrole a v => ?noHub, ?poll, ?pollOff⟩⟩
  case held =>
    exact ⟨outward_held hon hspec hfree rfl rfl rfl rfl, outward_held hon hspec hfree rfl rfl rfl rfl,
      outward_held hon hspec hfree rfl rfl rfl rfl⟩
  case timer =>
    have hvalue : portLimit 0x000 0 v s = v.toNat := portLimit_eq (by decide) (by decide) rfl rfl v.isLt
    have hnonzero : v.toNat ≠ 0 := fun h => hv (BitVec.eq_of_toNat_eq h)
    have hown : getS (putTimer n v.toNat s) n =
        { getS s n with timerEnd := some (s.sys.usec + v.toNat), timerFired := false } := by
      rw [getS_putTimer, if_neg hnonzero]
    refine portRow_gives_plain hon hspec rfl (port := 0x000) rfl (.inl rfl) ?_
    rw [hvalue]
    exact ⟨congrArg Strand.timerEnd hown, congrArg Strand.timerFired hown, fun m hm => getS_putTimer_other hm⟩
  case timerOff =>
    refine portRow_gives_plain hon hspec rfl (port := 0x000) rfl (.inl rfl) ?_
    exact ⟨congrArg Strand.timerEnd (getS_putTimer (v := 0)), fun m hm => getS_putTimer_other hm⟩
  case noCtrl => exact portRow_gives_plain hon hspec rfl (port := 0x002) rfl (.inr rfl) (putStrCtrl_none hcls)
  case disable =>
    have hnat : (BitVec.ofNat 32 (0x400 + k.val)).toNat = 0x400 + k.val := by
      rw [BitVec.toNat_ofNat]
      omega
    have hvalue : portLimit 0x002 0 (BitVec.ofNat 32 (0x400 + k.val)) s = 0x400 + k.val :=
      (portLimit_eq (by decide) (by decide) rfl rfl (by rw [hnat]; show _ < 2 ^ 11; omega)).trans hnat
    refine portRow_gives_plain hon hspec rfl (port := 0x002) rfl (.inr rfl) ?_
    rw [hvalue]
    exact putStrCtrl_disable hcls hst hsession
  case limit =>
    refine portRow_gives hon hspec rfl (port := 0x103) fun d => ?_
    rw [portLimit_dc h30 h100]
    exact getF_limitPut_dc_taken (s := s.updCap fun _ => d) hrising h30 h100 hlower
  case limitKept =>
    refine portRow_gives hon hspec rfl (port := 0x103) fun d => ?_
    rw [portLimit_dc h30 h100]
    exact getF_limitPut_dc_barred (s := s.updCap fun _ => d) h30 h100 hraise hcoil
  case hub =>
    constructor
    · have hvalue : portLimit 0x704 a v s = v.toNat := portLimit_eq (by decide) (by decide) rfl rfl hv
      refine portRow_gives hon hspec rfl (port := 0x704) fun d => ?_
      rw [hvalue, applyPort_inHub (s := s.updCap fun _ => d) rfl hrole]
      exact getF_portWrite4_ceil (s := s.updCap fun _ => d) hrising ha hv
    · refine portRow_gives hon hspec rfl (port := 0x705) fun d => ?_
      rw [applyPort_inHub (s := s.updCap fun _ => d) rfl hrole]
      exact congrArg Chan.pause (chanAt_modChan_same ha _ (s.updCap fun _ => d))
  case noHub =>
    constructor
    · exact portRow_gives hon hspec rfl (port := 0x704) fun d => by
        rw [applyPort_outsideHub (s := s.updCap fun _ => d) rfl hrole]
        exact ⟨rfl, rfl⟩
    · exact portRow_gives hon hspec rfl (port := 0x705) fun d => by
        rw [applyPort_outsideHub (s := s.updCap fun _ => d) rfl hrole]
        exact ⟨rfl, rfl⟩
  case poll => exact portRow_gives_plain hon hspec rfl (port := 0x803) rfl (.inr rfl) ⟨rfl, rfl, rfl⟩
  case pollOff => exact portRow_gives_plain hon hspec rfl (port := 0x803) rfl (.inr rfl) ⟨rfl, rfl, rfl⟩

end

section
/-! SUPPORT. What the energy path leaves alone as it settles while the coils are off: what the ports have asked of the pilot, the
contactors, the supervisor, and the fields that the pilot line follows; and PWM does not start (07 R121 to R127). -/
namespace Sys2Proof.Machine

/-! ## The relation -/

/-- System control without the logs, the events that wait for a pause to end, and the count of free values. -/
def Sys.bare (y : Sys) : Sys := { y with violLog := [], pausedEvents := [], freeCtr := 0 }

/-- The pilot block without what the line carries, the monitor's counts and the violations that last. -/
def Pilot.asked (p : Pilot) : Pilot := { p with line := .hiZ, mon := {}, lasting := [] }

/-- The fields that the pilot line follows, but for the monitor's report. -/
def lineFields : List Field :=
  [Reg.SYS_STATUS_UNCOMMISSIONED, Reg.ALLOC_SA_WRITTEN, Reg.ALLOC_SA_DEF_DEFAULT, Reg.PL_CFG_LEGAL_DISPLAY_REQ,
    Reg.PL_FAULT_CRACK, Reg.PL_FAULT_READBACK, Reg.PWR_STATUS_HOT_HELD, Reg.SAFE_STATUS_HELD, Reg.LED_SESSION_NUMBER]

/-- The fields that the pilot line follows. -/
def reportFields : List Field := Reg.VI_PILOT_STATE :: lineFields

/-- A field with a home of its own beside the fields `fs`. -/
def Field.beside (fs : List Field) (f : Field) : Bool := fs.all fun g => g.key != f.key

/-- From `s` to `t` what the ports asked of the pilot, the contactors, the supervisor and the fields `fs` stay, and PWM does not
start. -/
structure Settles (fs : List Field) (s t : State) : Prop where
  sys : t.sys.bare = s.sys.bare
  pilot : t.pilot.asked = s.pilot.asked
  line : s.pilot.line ≠ .pwm → t.pilot.line ≠ .pwm
  sw : t.sw = s.sw
  sup : t.sup = s.sup
  rising : risingFrom 0 s.regs = true → risingFrom 0 t.regs = true
  reads : risingFrom 0 s.regs = true → ∀ f ∈ fs, getF t f = getF s f

namespace Settles
variable {fs : List Field} {s t u : State}

theorem refl (s : State) : Settles fs s s where
  sys := rfl
  pilot := rfl
  line := id
  sw := rfl
  sup := rfl
  rising := id
  reads _ _ _ := rfl

theorem trans (h : Settles fs s t) (k : Settles fs t u) : Settles fs s u where
  sys := k.sys.trans h.sys
  pilot := k.pilot.trans h.pilot
  line := k.line ∘ h.line
  sw := k.sw.trans h.sw
  sup := k.sup.trans h.sup
  rising := k.rising ∘ h.rising
  reads hr f hf := (k.reads (h.rising hr) f hf).trans (h.reads hr f hf)

theorem ite {p : Prop} [Decidable p] (ht : Settles fs s t) (hu : Settles fs s u) : Settles fs s (if p then t else u) := by
  split
  · exact ht
  · exact hu

/-- A step that is taken or left out. -/
theorem when {p : Prop} [Decidable p] (ht : Settles fs s t) (hu : Settles fs s t → Settles fs s u) :
    Settles fs s (if p then u else t) := ite (hu ht) ht

/-- A step that is left out, for its condition cannot hold. -/
theorem barred {p : Prop} [Decidable p] (ht : Settles fs s t) (hp : ¬p) : Settles fs s (if p then u else t) := by
  rwa [if_neg hp]

theorem weaken {f : Field} (h : Settles (f :: fs) s t) : Settles fs s t :=
  { h with reads := fun hr g hg => h.reads hr g (List.mem_cons_of_mem f hg) }

theorem coilOn (h : Settles fs s t) : Machine.coilOn t = Machine.coilOn s := by rw [Machine.coilOn, h.sw]; rfl

end Settles

/-! ## Changes of one part -/

section
variable {fs : List Field} {a s : State} (h : Settles fs a s)
include h

theorem updHlc_settles {f} : Settles fs a (s.updHlc f) := h.trans { Settles.refl s with }
theorem updKey_settles {f} : Settles fs a (s.updKey f) := h.trans { Settles.refl s with }
theorem updCap_settles {f} : Settles fs a (s.updCap f) := h.trans { Settles.refl s with }
theorem updStore_settles {f} : Settles fs a (s.updStore f) := h.trans { Settles.refl s with }

theorem updSys_settles {f : Sys → Sys} (hf : (f s.sys).bare = s.sys.bare) : Settles fs a (s.updSys f) :=
  h.trans { Settles.refl s with sys := hf }

theorem updPilot_settles {f : Pilot → Pilot} (hf : (f s.pilot).asked = s.pilot.asked)
    (hline : s.pilot.line ≠ .pwm → (f s.pilot).line ≠ .pwm) : Settles fs a (s.updPilot f) :=
  h.trans { Settles.refl s with pilot := hf, line := hline }

theorem setF_settles {f : Field} {v : Nat} (hf : f.beside fs = true) : Settles fs a (setF f v s) := by
  refine h.trans { Settles.refl (fs := fs) s with
    rising := fun hr => setF_regs_rising hr f v
    reads := fun hr g hg => getF_setF_other hr ?_ v }
  exact bne_iff_ne.mp (List.all_eq_true.mp hf g hg)

theorem setB_settles {f : Field} {b : Bool} (hf : f.beside fs = true) : Settles fs a (setB f b s) := setF_settles h hf

theorem raiseHw_settles {ev w : Nat} : Settles fs a (raiseHw ev w s) := updCap_settles h

theorem raiseFw_settles {ev w : Nat} : Settles fs a (raiseFw ev w s) := .ite (updSys_settles h rfl) (raiseHw_settles h)

theorem logViolation_settles {source k value : Nat} : Settles fs a (logViolation source k value s) :=
  .ite h (updStore_settles (updSys_settles h rfl))

theorem fence_settles {port : Nat} {arg : Option Word} {by_ : Option (Fin 320)} : Settles fs a (fence port arg by_ s) := by
  unfold fence mapHeldOfOthers
  exact updCap_settles h

theorem modSlot_settles {i : Nat} {f : Slot → Slot} : Settles fs a (modSlot i f s) := by
  unfold modSlot
  split
  · exact updKey_settles h
  · exact h

end

/-! ## The end of an HLC session, with the coils off -/

section
variable {a s : State} (h : Settles reportFields a s)
include h

theorem setHealth_settles {b : Nat} (hb : b < 32) : Settles reportFields a (setHealth b s) := by
  have hbit : (⟨0x80, b, 1, 0⟩ : Field).beside reportFields = true := by
    revert b
    decide
  exact .ite h (raiseFw_settles (setF_settles (setF_settles h hbit) (by decide)))

theorem wipeSlot_settles {fails : Bool} {i : Nat} : Settles reportFields a (wipeSlot fails i s) := by
  have hwiped := modSlot_settles h (i := i) (f := fun _ => {})
  exact .ite (.ite (setHealth_settles (updKey_settles hwiped) (by decide)) (updKey_settles hwiped)) hwiped

theorem settleSlot_settles {fails : Option Bool} {i : Nat} : Settles reportFields a (settleSlot fails i s) := by
  refine .ite h ?_
  cases fails with
  | some f => exact wipeSlot_settles h
  | none => exact wipeSlot_settles (updSys_settles (f := fun y => { y with freeCtr := y.freeCtr + 1 }) h rfl)

theorem dropTls_settles : Settles reportFields a (dropTls s) := by
  unfold dropTls
  split
  · exact settleSlot_settles (modSlot_settles (updHlc_settles h))
  · exact updHlc_settles h

theorem hlcMove_settles {st : Nat} : Settles reportFields a (hlcMove st s) := raiseFw_settles (updHlc_settles h)

theorem clearArm_settles : Settles reportFields a (clearArm s) := fence_settles (setF_settles h (by decide))

/-- With the coils off no contactor opens at the session's end. -/
theorem hlcEnd_settles {reason : Nat} (hcoil : coilOn a = false) : Settles reportFields a (hlcEnd reason s) := by
  refine .ite h ?_
  have hend : Settles reportFields a (hlcMove 5 (setF Reg.VI_HLC_REASON reason
      ((if reason = 3 ∨ reason = 4 then dropTls s else s).updHlc fun x => { x with pend := none, certPend := false }))) :=
    hlcMove_settles (setF_settles (updHlc_settles (.when h dropTls_settles)) (by decide))
  refine hend.barred fun hopens => ?_
  exact absurd (hend.coilOn.symm.trans hopens.2) (by rw [hcoil]; nofun)

end

/-! ## The line, and the report of state F -/

section
variable {s : State} {l : Line}

theorem driveSteady_settles (hl : l ≠ .pwm) : Settles reportFields s (driveSteady l s) := by
  have hline : Settles reportFields s (s.updPilot fun p => { p with line := l, mon := p.mon.onLine l }) :=
    updPilot_settles (.refl s) rfl fun _ => hl
  exact setF_settles (setB_settles (setB_settles hline (by decide)) (by decide)) (by decide)

theorem driveLine_waits (hpwm : pilotLine s = .pwm) (hline : s.pilot.line ≠ .pwm) : driveLine s = driveSteady .plus12 s := by
  unfold driveLine
  rw [hpwm]
  exact if_neg hline

theorem driveLine_steady (hpilot : pilotLine s = l) (hl : l ≠ .pwm) : driveLine s = driveSteady l s := by
  unfold driveLine
  rw [hpilot]
  cases l with
  | pwm => exact absurd rfl hl
  | hiZ | minus12 | plus12 => rfl

theorem driveLine_settles : Settles reportFields s (driveLine s) := by
  by_cases hpwm : pilotLine s = .pwm
  · by_cases hline : s.pilot.line = .pwm
    · have hstays : driveLine s = s := by
        unfold driveLine
        rw [hpwm]
        exact if_pos hline
      rw [hstays]
      exact .refl s
    · rw [driveLine_waits hpwm hline]
      exact driveSteady_settles nofun
  · rw [driveLine_steady rfl hpwm]
    exact driveSteady_settles hpwm

/-- The fields written when the report moves to F are not those of the line, but for the report itself. -/
theorem report_settles (hcoil : coilOn s = false) : Settles lineFields s (report 0xF s) := by
  have hshow : Settles lineFields s (raiseHw 0x00 0xF (setF Reg.VI_PILOT_STATE 0xF s)) :=
    raiseHw_settles (setF_settles (.refl s) (by decide))
  exact hshow.trans (hlcEnd_settles (clearArm_settles (.refl _)) (hshow.coilOn.trans hcoil)).weaken

theorem report_state (hcoil : coilOn s = false) (hr : risingFrom 0 s.regs = true) :
    getF (report 0xF s) Reg.VI_PILOT_STATE = 0xF := by
  have hshow : Settles [] s (raiseHw 0x00 0xF (setF Reg.VI_PILOT_STATE 0xF s)) :=
    raiseHw_settles (setF_settles (.refl s) (by decide))
  have hend := hlcEnd_settles (reason := 4) (clearArm_settles (.refl (raiseHw 0x00 0xF (setF Reg.VI_PILOT_STATE 0xF s))))
    (hshow.coilOn.trans hcoil)
  have hread := hend.reads (hshow.rising hr) Reg.VI_PILOT_STATE (by decide)
  have hset : getF (raiseHw 0x00 0xF (setF Reg.VI_PILOT_STATE 0xF s)) Reg.VI_PILOT_STATE = 0xF := by
    rw [getF, raiseHw_regs]
    exact getF_setF_same hr _ _
  exact hread.trans hset

theorem reportActs_off {was st : Nat} (hcoil : coilOn s = false) : reportActs was st s = s := by
  simp [reportActs, hcoil]

/-- Settling the line ends with driving it, from a state in which F is reported if F is to be driven. -/
theorem settleLine_drives (hcoil : coilOn s = false) (hr : risingFrom 0 s.regs = true) : ∃ v, Settles lineFields s v ∧
    settleLine s = driveLine v ∧ (pilotLine s = .minus12 → getF v Reg.VI_PILOT_STATE = 0xF) := by
  have hdrive : Settles reportFields s (driveLine s) := driveLine_settles
  have hcoil' : coilOn (driveLine s) = false := hdrive.coilOn.trans hcoil
  have hrep := report_settles hcoil'
  unfold settleLine
  dsimp only
  split
  · refine ⟨report 0xF (driveLine s), hdrive.weaken.trans hrep, ?_, fun _ => report_state hcoil' (hdrive.rising hr)⟩
    rw [reportActs_off (hrep.coilOn.trans hcoil')]
  · next hshown =>
    refine ⟨s, .refl s, rfl, fun hminus => ?_⟩
    have hline : (driveLine s).pilot.line = .minus12 := driveLine_minus12 hminus
    have hread := hdrive.reads hr Reg.VI_PILOT_STATE (by decide)
    by_contra hne
    exact hshown ⟨hline, by rwa [hread]⟩

theorem settleLine_settles (hcoil : coilOn s = false) (hr : risingFrom 0 s.regs = true) :
    Settles lineFields s (settleLine s) := by
  obtain ⟨v, hv, heq, -⟩ := settleLine_drives hcoil hr
  rw [heq]
  exact hv.trans driveLine_settles.weaken

/-! ## The lasting pilot conditions, with the coils off -/

theorem violCount_beside {k : Nat} (hk : k < 16) : (Reg.VI_VIOL_COUNT k).beside reportFields = true := by
  revert k
  decide

theorem lastingBegins_settles {k value : Nat} (hk : k < 16) : Settles reportFields s (lastingBegins k value s) := by
  have hbegins : Settles reportFields s (s.updPilot fun p => { p with lasting := k :: p.lasting }) :=
    updPilot_settles (.refl s) rfl id
  exact .ite (.refl s) (logViolation_settles (setF_settles hbegins (violCount_beside hk)))

theorem settleLasting_settles {k : Nat} (hk : k < 16) (hcoil : coilOn s = false) :
    Settles reportFields s (settleLasting k s) := by
  refine .ite ?_ (.ite ?_ (.refl s))
  · have hshown : Settles reportFields s
        (raiseHw 0x01 k (showAnom k (lastingBegins k (getF s Reg.VI_PLATEAU_HIGH) s))) :=
      raiseHw_settles (.ite (lastingBegins_settles hk) (setF_settles (lastingBegins_settles hk) (by decide)))
    exact hshown.barred fun hon => absurd (hshown.coilOn.symm.trans hon) (by rw [hcoil]; nofun)
  · have hends : Settles reportFields s (lastingEnds k s) := updPilot_settles (.refl s) rfl id
    exact hends.when fun h => setF_settles h (by decide)

/-! ## Settling, with the coils off -/

/-- The lasting conditions one after the other. -/
theorem lastings_settle (hcoil : coilOn s = false) : Settles reportFields s (settleLasting 9 (settleLasting 8 s)) := by
  have h8 := settleLasting_settles (k := 8) (by decide) hcoil
  exact h8.trans (settleLasting_settles (by decide) (h8.coilOn.trans hcoil))

/-- Settling ends with driving the line. -/
theorem settle_drives (hcoil : coilOn s = false) (hr : risingFrom 0 s.regs = true) : ∃ u v, Settles lineFields s u ∧
    Settles lineFields s v ∧ settle s = driveLine v ∧ (pilotLine u = .minus12 → getF v Reg.VI_PILOT_STATE = 0xF) := by
  have hfirst := settleLine_settles hcoil hr
  have hmid := hfirst.trans (lastings_settle (hfirst.coilOn.trans hcoil)).weaken
  obtain ⟨v, hv, heq, hstate⟩ := settleLine_drives (hmid.coilOn.trans hcoil) (hmid.rising hr)
  exact ⟨_, v, hmid, hmid.trans hv, heq, hstate⟩

theorem settle_settles (hcoil : coilOn s = false) (hr : risingFrom 0 s.regs = true) : Settles lineFields s (settle s) := by
  obtain ⟨-, v, -, hv, heq, -⟩ := settle_drives hcoil hr
  rw [heq]
  exact hv.trans driveLine_settles.weaken

end

end Sys2Proof.Machine
end

section
/-! SUPPORT. What the pilot line follows: with nothing of it changed it stays, and settling ends in what it is to drive
(07 R126, R127, 06 R111). -/
namespace Sys2Proof.Machine

/-! ## The line follows what `Settles` keeps -/

section
variable {fs : List Field} {s t : State} {α : Type} (h : Settles fs s t)
include h

theorem Settles.ofSys (g : Sys → α) : g t.sys.bare = g s.sys.bare := congrArg g h.sys
theorem Settles.ofPilot (g : Pilot → α) : g t.pilot.asked = g s.pilot.asked := congrArg g h.pilot

theorem Settles.mode : t.sys.mode = s.sys.mode := h.ofSys (·.mode)
theorem Settles.role : t.sys.role = s.sys.role := h.ofSys (·.role)
theorem Settles.booted : t.sys.booted = s.sys.booted := h.ofSys (·.booted)
theorem Settles.paired : t.sys.paired = s.sys.paired := h.ofSys (·.paired)
theorem Settles.vsysLow : t.sys.vsysLow = s.sys.vsysLow := h.ofSys (·.vsysLow)
theorem Settles.pfwConfirmed : t.sys.pfwConfirmed = s.sys.pfwConfirmed := h.ofSys (·.pfwConfirmed)
theorem Settles.anomHeld : t.sys.anomHeld = s.sys.anomHeld := h.ofSys (·.anomHeld)
theorem Settles.strandHeld : t.sys.strandHeld = s.sys.strandHeld := h.ofSys (·.strandHeld)
theorem Settles.pumps : t.pilot.pumps = s.pilot.pumps := h.ofPilot (·.pumps)
theorem Settles.formeF : t.pilot.formeF = s.pilot.formeF := h.ofPilot (·.formeF)
theorem Settles.pwmReq : t.pilot.pwmReq = s.pilot.pwmReq := h.ofPilot (·.pwmReq)
theorem Settles.hlcReq : t.pilot.hlcReq = s.pilot.hlcReq := h.ofPilot (·.hlcReq)
theorem Settles.alloc : t.pilot.alloc = s.pilot.alloc := h.ofPilot (·.alloc)

end

section
variable {s t : State} (h : Settles lineFields s t) (hr : risingFrom 0 s.regs = true)
include h hr

theorem Settles.held : held t = held s := h.reads hr _ (by decide)

theorem Settles.outletHeld : outletHeld t = outletHeld s := by
  have hread {f : Field} (hf : f ∈ lineFields) : getF t f = getF s f := h.reads hr f hf
  simp only [Machine.outletHeld, holds, getB, h.held hr, h.role, h.paired, h.anomHeld, h.strandHeld, h.sw,
    hread (f := Reg.SYS_STATUS_UNCOMMISSIONED) (by decide), hread (f := Reg.ALLOC_SA_WRITTEN) (by decide),
    hread (f := Reg.ALLOC_SA_DEF_DEFAULT) (by decide), hread (f := Reg.PL_CFG_LEGAL_DISPLAY_REQ) (by decide),
    hread (f := Reg.PL_FAULT_CRACK) (by decide), hread (f := Reg.PL_FAULT_READBACK) (by decide),
    hread (f := Reg.PWR_STATUS_HOT_HELD) (by decide)]

end

section
variable {s t : State} (h : Settles reportFields s t) (hr : risingFrom 0 s.regs = true)
include h hr

theorem Settles.pwmWanted : pwmWanted t = pwmWanted s := by
  have hstate : getF t Reg.VI_PILOT_STATE = getF s Reg.VI_PILOT_STATE := h.reads hr _ (by decide)
  simp only [Machine.pwmWanted, vehicleThere, hstate, h.pwmReq, h.hlcReq, h.alloc]

theorem Settles.serviceLine : serviceLine t = serviceLine s := by
  have hsession : openSession t = openSession s := h.reads hr _ (by decide)
  unfold Machine.serviceLine tripHoldsF holds
  rw [h.weaken.held hr, h.weaken.outletHeld hr, h.pwmWanted hr, h.sup, h.role, h.vsysLow, h.pfwConfirmed,
    h.mode, h.formeF, hsession]

/-- With nothing of it changed the pilot line is to drive what it was to drive. -/
theorem Settles.pilotLine : pilotLine t = pilotLine s := by
  unfold Machine.pilotLine
  rw [h.mode, h.booted, h.pumps, h.serviceLine hr]

end

/-! ## What the line is to drive -/

section
variable {s : State}

theorem serviceLine_ne_pwm (hreq : s.pilot.pwmReq = false) : serviceLine s ≠ .pwm := by
  have hunwanted : pwmWanted s = false := by simp [pwmWanted, hreq]
  unfold serviceLine
  simp only [hunwanted, Bool.false_eq_true, if_false]
  split_ifs <;> nofun

/-- With PILOT_PWM 0 no PWM runs (R126). -/
theorem pilotLine_ne_pwm (hreq : s.pilot.pwmReq = false) : pilotLine s ≠ .pwm := by
  unfold pilotLine
  split
  case h_4 => split <;> nofun
  case h_8 =>
    split
    · exact serviceLine_ne_pwm hreq
    · nofun
  all_goals nofun

/-- With no trip held, a PILOT_F drives state F in every mode in service (06 R111). -/
theorem pilotLine_formeF (hmode : inService s.sys.mode = true) (hheld : held s = 0) (hforme : s.pilot.formeF = true) :
    pilotLine s = .minus12 := by
  have hservice : serviceLine s = .minus12 := by
    unfold serviceLine
    simp [hheld, hforme]
  unfold pilotLine
  cases hm : s.sys.mode <;> simp [hm, inService, hservice] at hmode ⊢

theorem driveLine_ne_pwm (hpilot : pilotLine s ≠ .pwm) : (driveLine s).pilot.line ≠ .pwm := by
  rw [driveLine_steady rfl hpilot]
  exact hpilot

/-! ## Where settling ends -/

theorem settleLine_pwm (hpwm : pilotLine s = .pwm) : settleLine s = driveLine s := by
  have hline : (driveLine s).pilot.line ≠ .minus12 := by
    by_cases h : s.pilot.line = .pwm
    · unfold driveLine
      rw [hpwm]
      dsimp only
      rw [if_pos h, h]
      nofun
    · rw [driveLine_waits hpwm h]
      nofun
  exact if_neg fun h => hline h.1

section
variable (hcoil : coilOn s = false) (hr : risingFrom 0 s.regs = true)
include hcoil hr

/-- With PILOT_PWM 0 the line carries no PWM. -/
theorem settle_ne_pwm (hreq : s.pilot.pwmReq = false) : (settle s).pilot.line ≠ .pwm := by
  obtain ⟨-, v, -, hv, heq, -⟩ := settle_drives hcoil hr
  rw [heq]
  exact driveLine_ne_pwm (pilotLine_ne_pwm (hv.pwmReq.trans hreq))

/-- A PILOT_F ends in state F, which the monitor reports. -/
theorem settle_formeF (hmode : inService s.sys.mode = true) (hheld : held s = 0) (hforme : s.pilot.formeF = true) :
    (settle s).pilot.line = .minus12 ∧ getF (settle s) Reg.VI_PILOT_STATE = 0xF := by
  obtain ⟨u, v, hu, hv, heq, hstate⟩ := settle_drives hcoil hr
  have hminus {w : State} (hw : Settles lineFields s w) : pilotLine w = .minus12 := by
    refine pilotLine_formeF ?_ ((hw.held hr).trans hheld) (hw.formeF.trans hforme)
    rw [hw.mode]
    exact hmode
  have hdrive : Settles reportFields v (driveLine v) := driveLine_settles
  rw [heq]
  exact ⟨driveLine_minus12 (hminus hv), (hdrive.reads (hv.rising hr) _ (by decide)).trans (hstate (hminus hu))⟩

/-- Where PWM is to run, the line waits for the rising edge at +12 V (R127). -/
theorem settle_waits (hpwm : pilotLine s = .pwm) :
    pilotLine (settle s) = .pwm ∧ (s.pilot.line ≠ .pwm → (settle s).pilot.line = .plus12) := by
  have hfirst : Settles reportFields s (driveLine s) := driveLine_settles
  have hmid := hfirst.trans (lastings_settle (hfirst.coilOn.trans hcoil))
  have hmidPwm := (hmid.pilotLine hr).trans hpwm
  have heq : settle s = driveLine (settleLasting 9 (settleLasting 8 (driveLine s))) := by
    unfold settle
    rw [settleLine_pwm hpwm]
    exact settleLine_pwm hmidPwm
  rw [heq]
  refine ⟨(driveLine_settles.pilotLine (hmid.rising hr)).trans hmidPwm, fun hline => ?_⟩
  rw [driveLine_waits hmidPwm (hmid.line hline)]
  rfl

end

/-- PWM starts with the period, at the duty in force (R126, R127). -/
theorem risingEdge_starts (hr : risingFrom 0 s.regs = true) (hpwm : pilotLine s = .pwm) :
    (risingEdge s).pilot.line = .pwm ∧ getF (risingEdge s) Reg.VI_PILOT_PWM = 1 ∧
      getF (risingEdge s) Reg.VI_PILOT_DUTY = dutyNow s % 2 ^ 11 := by
  let u := s.updPilot fun p => { p with line := .pwm }
  have hedge : risingEdge s = setF Reg.VI_PILOT_DUTY (dutyNow s)
      (setF Reg.VI_PILOT_HLC (ofBool s.pilot.hlcReq) (setF Reg.VI_PILOT_PWM 1 u)) := if_pos hpwm
  have hr1 : risingFrom 0 (setF Reg.VI_PILOT_PWM 1 u).regs = true := setF_regs_rising (s := u) hr _ _
  have hr2 := setF_regs_rising hr1 Reg.VI_PILOT_HLC (ofBool s.pilot.hlcReq)
  rw [hedge]
  refine ⟨rfl, ?_, getF_setF_same hr2 _ _⟩
  rw [getF_setF_other hr2 (by decide), getF_setF_other hr1 (by decide), getF_setF_same (s := u) hr]
  rfl

end

end Sys2Proof.Machine
end

section
/-! SUPPORT. What each of the pilot's ports does (06 R111, 07 R125 to R127). -/
namespace Sys2Proof.Machine

section
variable {s : State}

/-! ## The ports and their operations -/

section
variable {n : Fin 320} {arg : Word} {v : Nat}

theorem applyPort_pwm : applyPort n 0x201 arg v s = putPwm v s := applyPort_low rfl (by decide) (by decide)
theorem applyPort_stop : applyPort n 0x202 arg v s = settle (stopPwm s) := applyPort_low rfl (by decide) (by decide)
theorem applyPort_formeF : applyPort n 0x203 arg v s = pilotF s := applyPort_low rfl (by decide) (by decide)
theorem applyPort_release : applyPort n 0x204 arg v s = pilotRelease s := applyPort_low rfl (by decide) (by decide)
theorem applyPort_hlc : applyPort n 0x205 arg v s = putHlc v s := applyPort_low rfl (by decide) (by decide)
theorem applyPort_alloc : applyPort n 0x20B arg v s = allocate (min (ceiling s) v) s :=
  applyPort_low rfl (by decide) (by decide)
theorem applyPort_offer : applyPort n 0x302 arg v s = putOffer v s := applyPort_low rfl (by decide) (by decide)

end

/-! ## What each operation settles -/

/-- PILOT_PWM is 1, all else as it is. -/
def State.askPwm (s : State) : State := s.updPilot fun p => { p with pwmReq := true }

theorem putPwm_free (hheld : held s = 0) (hdisc : s.sw.disc = none) : putPwm 1 s = settle s.askPwm := by
  simp [putPwm, hheld, hdisc, State.askPwm]

theorem putHlc_free (hfree : holds 5 s = false) (hdisc : s.sw.disc = none) (v : Nat) :
    putHlc v s = settle (s.updPilot fun p => { p with hlcReq := v != 0 }) := by
  simp [putHlc, hfree, hdisc]

theorem putPwm_stop : putPwm 0 s = settle (stopPwm s) := if_pos rfl

theorem putPwm_held (hheld : held s ≠ 0) : putPwm 1 s = s := by simp [putPwm, hheld]

theorem pilotRelease_free (hfree : holds 5 s = false) :
    pilotRelease s = settle (s.updPilot fun p => { p with formeF := false }) := by
  simp [pilotRelease, hfree]

theorem pilotRelease_held (hheld : holds 5 s = true) : pilotRelease s = s := if_pos hheld

/-! ## What each gives, with the coils off -/

section
variable (hcoil : coilOn s = false) (hr : risingFrom 0 s.regs = true)
include hcoil hr

/-- PILOT_PWM 1: PWM waits for the rising edge, and runs from there at the duty in force. -/
theorem settle_askPwm : (settle s.askPwm).pilot.pwmReq = true ∧ (pilotLine s.askPwm = .pwm →
    (s.pilot.line ≠ .pwm → (settle s.askPwm).pilot.line = .plus12) ∧ (risingEdge (settle s.askPwm)).pilot.line = .pwm ∧
      getF (risingEdge (settle s.askPwm)) Reg.VI_PILOT_PWM = 1 ∧
      getF (risingEdge (settle s.askPwm)) Reg.VI_PILOT_DUTY = dutyNow s % 2 ^ 11) := by
  have hset := settle_settles (s := s.askPwm) hcoil hr
  refine ⟨hset.pwmReq, fun hpwm => ?_⟩
  obtain ⟨hwants, hwaits⟩ := settle_waits (s := s.askPwm) hcoil hr hpwm
  obtain ⟨hline, hflag, hduty⟩ := risingEdge_starts (hset.rising hr) hwants
  have hhlc : (settle s.askPwm).pilot.hlcReq = s.pilot.hlcReq := hset.hlcReq
  have halloc : (settle s.askPwm).pilot.alloc = s.pilot.alloc := hset.alloc
  refine ⟨hwaits, hline, hflag, ?_⟩
  rw [hduty, dutyNow, hhlc, halloc]
  rfl

theorem pilotF_gives (hmode : inService s.sys.mode = true) (hheld : held s = 0) :
    (pilotF s).pilot.formeF = true ∧ (pilotF s).pilot.line = .minus12 ∧ getF (pilotF s) Reg.VI_PILOT_STATE = 0xF := by
  have hset := settle_settles (s := s.updPilot fun p => { p with formeF := true }) hcoil hr
  unfold pilotF
  exact ⟨hset.formeF, settle_formeF hcoil hr hmode hheld rfl⟩

theorem pilotRelease_gives (hfree : holds 5 s = false) : (pilotRelease s).pilot.formeF = false := by
  have hset := settle_settles (s := s.updPilot fun p => { p with formeF := false }) hcoil hr
  rw [pilotRelease_free hfree]
  exact hset.formeF

theorem putHlc_gives (hfree : holds 5 s = false) (hdisc : s.sw.disc = none) (v : Nat) :
    (putHlc v s).pilot.hlcReq = (v != 0) := by
  have hset := settle_settles (s := s.updPilot fun p => { p with hlcReq := v != 0 }) hcoil hr
  rw [putHlc_free hfree hdisc]
  exact hset.hlcReq

end

/-- PWM that stops: PILOT_PWM reads 0, and the line carries none. -/
theorem settle_stopPwm (hcoil : coilOn s = false) (hr : risingFrom 0 s.regs = true) :
    (settle (stopPwm s)).pilot.pwmReq = false ∧ (settle (stopPwm s)).pilot.line ≠ .pwm := by
  have hdrive : Settles reportFields (s.updPilot fun p => { p with pwmReq := false, deferPwm := false }) (stopPwm s) :=
    driveLine_settles
  have hreq : (stopPwm s).pilot.pwmReq = false := hdrive.pwmReq
  have hcoil' : coilOn (stopPwm s) = false := hdrive.coilOn.trans hcoil
  have hr' := hdrive.rising hr
  exact ⟨(settle_settles hcoil' hr').pwmReq.trans hreq, settle_ne_pwm hcoil' hr' hreq⟩

/-- ALLOC_CURRENT takes a value and settles; a lowering starts the grace time of the value before (R125, R184). -/
theorem allocate_gives {v : Nat} (hcoil : coilOn s = false) (hr : risingFrom 0 s.regs = true) :
    (allocate v s).pilot.alloc = v ∧
      (v < s.pilot.alloc → (allocate v s).sup.graceOn = true ∧ (allocate v s).sup.graceA = s.pilot.alloc) := by
  have hsettle : ∃ b : State, allocate v s = settle b ∧ b.regs = s.regs ∧ b.sw = s.sw ∧ b.pilot.alloc = v ∧
      (v < s.pilot.alloc → b.sup.graceOn = true ∧ b.sup.graceA = s.pilot.alloc) := by
    refine ⟨_, rfl, ?_⟩
    split_ifs with hlower hraise
    · exact ⟨rfl, rfl, rfl, fun _ => ⟨rfl, rfl⟩⟩
    · exact ⟨rfl, rfl, rfl, fun h => absurd h hlower⟩
    · exact ⟨rfl, rfl, rfl, fun h => absurd h hlower⟩
  obtain ⟨b, heq, hregs, hsw, halloc, hgrace⟩ := hsettle
  have hcoil' : coilOn b = false := by
    rw [coilOn, hsw]
    exact hcoil
  have hr' : risingFrom 0 b.regs = true := by
    rw [hregs]
    exact hr
  have hb := settle_settles hcoil' hr'
  rw [heq, hb.sup]
  exact ⟨hb.alloc.trans halloc, hgrace⟩

/-- ALLOC_CURRENT ends at the ceiling (R125). -/
theorem portLimit_alloc {v : Word} (hv : v.toNat ≤ 800) : portLimit 0x20B 0 v s = min (ceiling s) v.toNat := by
  show min (ceiling s) (portValue 0x20B v) = _
  rw [portValue_eq (i := ⟨.both, .byRule, .lower, 14, false, some 800⟩) rfl (by show v.toNat < 2 ^ 14; omega) hv]

end

end Sys2Proof.Machine

open Sys2Proof Sys2Proof.Machine

/-- Settles O26: each port's row asks one thing of the pilot, and with the coils off what was asked, the trips and the outlet
stand while the line settles, so that it ends where they put it. -/
theorem pilotPorts : Obligations.PilotPorts := by
  unfold Obligations.PilotPorts
  intro n s hwf hcoil hon hdisc hspec
  have hr := regs_rising hwf
  refine ⟨fun hheld => ?pwm, fun hheld => ?pwmHeld, ?pwmStop, ?stop, fun hheld hmode => ?formeF, fun hfree => ?release,
    fun hheld => ?releaseHeld, fun hfree => ⟨?hlcOn, ?hlcOff⟩, fun v hv => ?alloc, fun v hv => ?offer⟩
  case pwm =>
    refine portRow_gives hon hspec rfl (port := 0x201) fun d => ?_
    rw [show portLimit 0x201 0 1 s = 1 from rfl, applyPort_pwm, putPwm_free (s := s.updCap fun _ => d) hheld hdisc]
    exact settle_askPwm (s := s.updCap fun _ => d) hcoil hr
  case pwmHeld =>
    refine portRow_gives hon hspec rfl (port := 0x201) fun d => ?_
    rw [show portLimit 0x201 0 1 s = 1 from rfl, applyPort_pwm, putPwm_held (s := s.updCap fun _ => d) hheld]
    exact ⟨rfl, rfl, rfl⟩
  case pwmStop =>
    refine portRow_gives hon hspec rfl (port := 0x201) fun d => ?_
    rw [show portLimit 0x201 0 0 s = 0 from rfl, applyPort_pwm, putPwm_stop]
    exact settle_stopPwm (s := s.updCap fun _ => d) hcoil hr
  case stop =>
    refine portRow_gives hon hspec rfl (port := 0x202) fun d => ?_
    rw [applyPort_stop]
    exact settle_stopPwm (s := s.updCap fun _ => d) hcoil hr
  case formeF =>
    refine portRow_gives hon hspec rfl (port := 0x203) fun d => ?_
    rw [applyPort_formeF]
    exact pilotF_gives (s := s.updCap fun _ => d) hcoil hr hmode hheld
  case release =>
    refine portRow_gives_plain hon hspec rfl (port := 0x204) rfl (.inr rfl) ?_
    rw [applyPort_release]
    exact pilotRelease_gives hcoil hr hfree
  case releaseHeld =>
    refine portRow_gives_plain hon hspec rfl (port := 0x204) rfl (.inr rfl) ?_
    rw [applyPort_release, pilotRelease_held hheld]
    exact ⟨rfl, rfl⟩
  case hlcOn =>
    refine portRow_gives_plain hon hspec rfl (port := 0x205) rfl (.inr rfl) ?_
    rw [applyPort_hlc]
    exact putHlc_gives hcoil hr hfree hdisc 1
  case hlcOff =>
    refine portRow_gives_plain hon hspec rfl (port := 0x205) rfl (.inr rfl) ?_
    rw [applyPort_hlc]
    exact putHlc_gives hcoil hr hfree hdisc 0
  case alloc =>
    refine portRow_gives hon hspec rfl (port := 0x20B) fun d => ?_
    have hmin : min (ceiling (s.updCap fun _ => d)) (min (ceiling s) v.toNat) = min (ceiling s) v.toNat :=
      (min_assoc ..).symm.trans (congrArg (min · v.toNat) (min_self _))
    rw [portLimit_alloc hv, applyPort_alloc, hmin]
    exact allocate_gives (s := s.updCap fun _ => d) hcoil hr
  case offer =>
    have hvalue : portLimit 0x302 0 v s = v.toNat := portLimit_eq (by decide) (by decide) rfl rfl hv
    refine portRow_gives_plain hon hspec rfl (port := 0x302) rfl (.inr rfl) ?_
    rw [hvalue, applyPort_offer]
    exact ⟨rfl, rfl, rfl, rfl⟩

end

section
/-! SUPPORT. What the work of firmware leaves of the HLC session, the ledger, the calls of strands, the case memory and the
time: events, logs, the pool of key slots, the queues and the contactors (07 R136 to R145). -/
namespace Sys2Proof.Machine

/-! ## The relation -/

/-- From `s` to `t` the HLC session, the ledger, the service calls, the case memory and the time stay. -/
structure SessionKept (s t : State) : Prop where
  hlc : t.hlc = s.hlc
  led : t.led = s.led
  calls : t.cap.calls = s.cap.calls
  caseMem : t.cap.caseMem = s.cap.caseMem
  usec : t.sys.usec = s.sys.usec

namespace SessionKept
variable {s t u : State}

theorem refl (s : State) : SessionKept s s := ⟨rfl, rfl, rfl, rfl, rfl⟩

theorem trans (h : SessionKept s t) (k : SessionKept t u) : SessionKept s u :=
  ⟨k.hlc.trans h.hlc, k.led.trans h.led, k.calls.trans h.calls, k.caseMem.trans h.caseMem, k.usec.trans h.usec⟩

theorem ite {p : Prop} [Decidable p] (ht : SessionKept s t) (hu : SessionKept s u) : SessionKept s (if p then t else u) := by
  split
  · exact ht
  · exact hu

/-- A step that is taken or left out. -/
theorem when {p : Prop} [Decidable p] (ht : SessionKept s t) (hu : SessionKept s t → SessionKept s u) :
    SessionKept s (if p then u else t) := ite (hu ht) ht

theorem foldl {β : Type} {g : State → β → State} (hg : ∀ s x, SessionKept s (g s x)) (l : List β) (s : State) :
    SessionKept s (l.foldl g s) := by
  induction l generalizing s with
  | nil => exact refl s
  | cons x l ih => exact (hg s x).trans (ih _)

/-- The state of a result that carries it. -/
theorem result {α : Type} {p : α × State} {v : α} (h : SessionKept s p.2) (e : p = (v, t)) : SessionKept s t := by
  rwa [e] at h

/-- Events change neither the calls nor the case memory. -/
theorem of_events (h : EventsOnly s t) (hhlc : t.hlc = s.hlc) (hled : t.led = s.led) (husec : t.sys.usec = s.sys.usec) :
    SessionKept s t :=
  ⟨hhlc, hled, by rw [h.event.rest], by rw [h.event.rest], husec⟩

end SessionKept

/-! ## Events, fields and the pool of key slots -/

section
variable {a s : State} (h : SessionKept a s)
include h

theorem updSw_session {f} : SessionKept a (s.updSw f) := h.trans ⟨rfl, rfl, rfl, rfl, rfl⟩
theorem updPilot_session {f} : SessionKept a (s.updPilot f) := h.trans ⟨rfl, rfl, rfl, rfl, rfl⟩
theorem updKey_session {f} : SessionKept a (s.updKey f) := h.trans ⟨rfl, rfl, rfl, rfl, rfl⟩
theorem setF_session {f : Field} {v : Nat} : SessionKept a (setF f v s) := h.trans ⟨rfl, rfl, rfl, rfl, rfl⟩
theorem boundary_session {f : Field} : SessionKept a (boundary f s) := h.trans ⟨rfl, rfl, rfl, rfl, rfl⟩
theorem modQ_session {q : Fin 64} {f : Queue → Queue} : SessionKept a (modQ q f s) := h.trans ⟨rfl, rfl, rfl, rfl, rfl⟩
theorem freeBelow_session {n : Nat} : SessionKept a (freeBelow n s).2 := h.trans ⟨rfl, rfl, rfl, rfl, rfl⟩
theorem fence_session {port : Nat} {arg : Option Word} {by_ : Option (Fin 320)} : SessionKept a (fence port arg by_ s) :=
  h.trans ⟨rfl, rfl, rfl, rfl, rfl⟩

theorem boundaries_session {fs : List Field} : SessionKept a (boundaries fs s) :=
  h.trans (.foldl (fun s _ => boundary_session (.refl s)) fs s)

theorem raiseHw_session {ev w : Nat} : SessionKept a (raiseHw ev w s) :=
  h.trans (.of_events (.raiseHw ev w s) (by simp) (by simp) (by simp))

theorem raiseFw_session {ev w : Nat} : SessionKept a (raiseFw ev w s) :=
  .ite (h.trans ⟨rfl, rfl, rfl, rfl, rfl⟩) (raiseHw_session h)

theorem setHealth_session {b : Nat} : SessionKept a (setHealth b s) :=
  h.trans (.of_events (.setHealth b s) (by simp) (by simp) (by simp))

theorem modSlot_session {i : Nat} {f : Slot → Slot} : SessionKept a (modSlot i f s) := by
  unfold modSlot
  split
  · exact updKey_session h
  · exact h

theorem wipeSlot_session {fails : Bool} {i : Nat} : SessionKept a (wipeSlot fails i s) := by
  have hwiped := modSlot_session h (i := i) (f := fun _ => {})
  exact .ite (.ite (setHealth_session (updKey_session hwiped)) (updKey_session hwiped)) hwiped

theorem settleSlot_session {fails : Option Bool} {i : Nat} : SessionKept a (settleSlot fails i s) := by
  refine .ite h ?_
  cases fails with
  | some f => exact wipeSlot_session h
  | none => exact wipeSlot_session (freeBelow_session h)

theorem firmwareLetsGo_session {i : Nat} : SessionKept a (firmwareLetsGo i s) := settleSlot_session (modSlot_session h)

theorem place_session {w : WorkKey} : SessionKept a (place w s).2 := by
  unfold place
  split
  · exact h
  · split
    · exact h
    · dsimp only
      exact modSlot_session (freeBelow_session (n := (freeSlots s).length) h)

theorem firmwareDerives_session {k : Nat} {label : List Byte} {engine : Nat} {wide : Bool} :
    SessionKept a (firmwareDerives k label engine wide s).2.2 := by
  have hplace := place_session h (w := workingKey k label engine wide s)
  unfold firmwareDerives
  split
  · exact h
  · split
    · next e =>
      dsimp only
      exact modSlot_session (hplace.result e)
    · next e => exact hplace.result e

theorem sealKey_session : SessionKept a (sealKey s).2 := by
  have hderives := firmwareDerives_session h (k := 1) (label := [0x53, 0x45, 0x41, 0x4C]) (engine := engEcc1) (wide := false)
  unfold sealKey
  split
  all_goals
    next e => rwa [e] at hderives

theorem signReading_session : SessionKept a (signReading s).2 := by
  have hseal := sealKey_session h
  unfold signReading
  split
  · next e => exact hseal.result e
  · next e => exact (hseal.result e).trans ⟨rfl, rfl, rfl, rfl, rfl⟩

/-! ## Logs and queues -/

theorem logViolation_session {source k value : Nat} : SessionKept a (logViolation source k value s) :=
  .ite h (h.trans ⟨rfl, rfl, rfl, rfl, rfl⟩)

theorem violation_session {k value : Nat} : SessionKept a (violation k value s) := logViolation_session (setF_session h)

theorem qNotice_session {q : Fin 64} : SessionKept a (qNotice q s) :=
  .when (.when h fun h => raiseHw_session h) fun h => setF_session (setF_session h)

theorem qHit_session {hit enable : Nat → Field} {q : Fin 64} : SessionKept a (qHit hit enable q s) :=
  .when (setF_session h) fun h => qNotice_session h

theorem qLevelMoved_session {old : Nat} {q : Fin 64} : SessionKept a (qLevelMoved old q s) :=
  .ite (qHit_session h) (.when h fun h => setF_session h)

theorem qArmStale_session {q : Fin 64} : SessionKept a (qArmStale q s) := modQ_session (boundary_session h)

theorem qAppend_session {q : Fin 64} {item : Word} : SessionKept a (qAppend q item s) :=
  .when (qLevelMoved_session (.when (modQ_session (boundary_session h)) fun h => qArmStale_session h)) fun h => qHit_session h

theorem qEnqueue_session {q : Fin 64} {item : Word} : SessionKept a (qEnqueue q item s).2 := by
  unfold qEnqueue
  split
  · exact h
  · split
    · exact qAppend_session h
    · exact setF_session h

/-! ## The contactors -/

theorem modOut_session {n : Fin 12} {f : OutCh → OutCh} : SessionKept a (modOut n f s) := updSw_session h

theorem switchOut_session {n : Fin 12} {f : OutCh → OutCh} : SessionKept a (switchOut n f s) := by
  have hswitched := modOut_session h (n := n) (f := f)
  unfold switchOut
  dsimp only
  split
  · exact modOut_session hswitched
  · exact modOut_session (modOut_session hswitched)

theorem outOff_session {n : Fin 12} : SessionKept a (outOff n s) :=
  .ite (switchOut_session (boundary_session (.ite h (.ite h (updSw_session h))))) h

/-- A coil is switched off with its output. -/
theorem coilOff_session {second : Bool} : SessionKept a (setCoil second false s) := by
  unfold setCoil
  refine updSw_session ?_
  split
  · exact outOff_session h
  · exact h

theorem driveSteady_session {l : Line} : SessionKept a (driveSteady l s) := setF_session (setF_session (setF_session (updPilot_session h)))

theorem driveLine_session : SessionKept a (driveLine s) := by
  unfold driveLine
  split
  · exact .ite h (driveSteady_session h)
  · exact driveSteady_session h

theorem stopPwm_session : SessionKept a (stopPwm s) := driveLine_session (updPilot_session h)

theorem clearArm_session : SessionKept a (clearArm s) := fence_session (setF_session h)

theorem countBreak_session {second : Bool} {i : Nat} : SessionKept a (countBreak second i s) :=
  .when (setF_session (updSw_session h)) fun h => setHealth_session h

theorem openNow_session {first second : Bool} : SessionKept a (openNow first second s) := by
  have hhead : SessionKept a (clearArm (openingBoundary s)) := clearArm_session (boundaries_session h)
  exact .ite h (updSw_session (.when (.when hhead fun h => coilOff_session (countBreak_session h))
    fun h => coilOff_session (countBreak_session h)))

theorem beginDisc_session {k : DiscKind} : SessionKept a (beginDisc k s) := by
  have hhead : SessionKept a ((clearArm (boundary Reg.CONT_CFG_ARC_LEAD (openingBoundary s))).updSw fun w =>
      { w with reported := false }) := updSw_session (clearArm_session (boundary_session (boundaries_session h)))
  exact .ite (updSw_session hhead) (updSw_session (.when (boundaries_session hhead) stopPwm_session))

theorem startDisc_session {k : DiscKind} : SessionKept a (startDisc k s) := by
  unfold startDisc
  split
  · exact beginDisc_session h
  · exact beginDisc_session h
  · exact openNow_session (.when h stopPwm_session)
  · exact updSw_session h
  · exact .when h fun h => updSw_session h
  · exact h
  · exact h
  · exact h
  · exact .when h fun h => stopPwm_session (clearArm_session h)

end

end Sys2Proof.Machine
end

section
/-! SUPPORT. How an HLC session moves and ends: HLC_STATUS, the TLS connection, a violation, the call of a service, and the end
with its reason (07 R131, R137, R143, R144, R444). -/
namespace Sys2Proof.Machine

section
variable {s : State}

/-- A command whose next state is known under another form. -/
theorem Gives.of_eq {c : Instr} {t u : State} {P : State → Prop} (hexec : exec c s = .next u) (heq : u = t) (h : P t) :
    Gives c s P := ⟨u, hexec, heq ▸ h⟩

/-! ## HLC_STATUS -/

@[simp] theorem hlcMove_hlc (st : Nat) (s : State) : (hlcMove st s).hlc = { s.hlc with status := st } := raiseFw_hlc ..

@[simp] theorem hlcMove_regs (st : Nat) (s : State) : (hlcMove st s).regs = s.regs := raiseFw_regs ..

/-- But for HLC_STATUS, a move leaves what the work of firmware leaves. -/
theorem hlcMove_session (st : Nat) (s : State) : SessionKept (s.updHlc fun h => { h with status := st }) (hlcMove st s) :=
  raiseFw_session (.refl _)

theorem getF_hlcMove (st : Nat) (s : State) (f : Field) : getF (hlcMove st s) f = getF s f := by
  rw [getF, hlcMove_regs]
  rfl

theorem coilOn_hlcMove (st : Nat) (s : State) : coilOn (hlcMove st s) = coilOn s := by
  simp [coilOn, hlcMove]

/-! ## The TLS connection -/

/-- No TLS runs. -/
def Hlc.plain (h : Hlc) : Hlc := { h with tls := false, tlsSlot := none }

/-- A TLS connection that closes leaves what the pool of key slots leaves. -/
theorem dropTls_session (s : State) : SessionKept (s.updHlc Hlc.plain) (dropTls s) := by
  unfold dropTls
  split
  · exact firmwareLetsGo_session (.refl _)
  · next hslot =>
    have hplain : (s.updHlc fun h => { h with tls := false }) = s.updHlc Hlc.plain := by
      simp [State.updHlc, Hlc.plain, hslot]
    rw [hplain]
    exact .refl _

theorem dropTls_hlc : (dropTls s).hlc = s.hlc.plain := (dropTls_session s).hlc

theorem dropTls_calls : (dropTls s).cap.calls = s.cap.calls := (dropTls_session s).calls

theorem dropTls_counts (s : State) : CountsKept s (dropTls s) := by
  unfold dropTls
  split
  · refine .trans ?_ (firmwareLetsGo_pool _ _).counts
    exact .of_regs rfl
  · exact .of_regs rfl

theorem tlsKeys_session (suite : Nat) (s : State) : SessionKept s (tlsKeys suite s).2 := by
  unfold tlsKeys
  dsimp only
  split
  · next e =>
    dsimp only
    exact modSlot_session ((place_session (freeBelow_session (n := 1) (.refl s))).result e)
  · next e => exact (place_session (freeBelow_session (n := 1) (.refl s))).result e

/-! ## Violations -/

theorem satInc_le (m v : Nat) : satInc m v ≤ m := by
  unfold satInc
  split <;> omega

/-- A violation that begins is counted (R131). -/
theorem violation_counts (hr : risingFrom 0 s.regs = true) (k value : Nat) : getF (violation k value s) (Reg.VI_VIOL_COUNT k) =
    satInc (2 ^ (Reg.VI_VIOL_COUNT k).width - 1) (getF s (Reg.VI_VIOL_COUNT k)) := by
  have hcount : getF (violation k value s) (Reg.VI_VIOL_COUNT k) =
      getF (incF (Reg.VI_VIOL_COUNT k) s) (Reg.VI_VIOL_COUNT k) := by
    rw [getF, violation, logViolation_regs]
    rfl
  rw [hcount, incF, getF_setF_same hr, Nat.mod_eq_of_lt]
  exact Nat.lt_of_le_of_lt (satInc_le _ _) (Nat.sub_one_lt (by simp))

theorem violation_rising (hr : risingFrom 0 s.regs = true) (k value : Nat) :
    risingFrom 0 (violation k value s).regs = true := by
  rw [violation, logViolation_regs]
  exact setF_regs_rising hr _ _

theorem violation_hlc (k value : Nat) : (violation k value s).hlc = s.hlc := (violation_session (.refl s)).hlc

theorem coilOn_violation (k value : Nat) : coilOn (violation k value s) = coilOn s := by
  simp [coilOn, violation]

/-! ## The end of a session (R144) -/

/-- The session after an end with `reason`: a TLS session that ended, and a vehicle that left the line, close TLS too. -/
def Hlc.ended (reason : Nat) (h : Hlc) : Hlc :=
  { if reason = 3 ∨ reason = 4 then h.plain else h with status := 5, pend := none, certPend := false }

/-- What is written at the end of a session: REASON and, when a key slot retires, the health bit and its doorbell. -/
def Field.outsideEnd (f : Field) : Prop := f.outsideHealth ∧ f.key ≠ Reg.VI_HLC_REASON.key

/-- From `s` to `t` the HLC session ends with `reason`, and no contactor opens for it. -/
structure SessionEnds (reason : Nat) (s t : State) : Prop where
  hlc : t.hlc = s.hlc.ended reason
  calls : t.cap.calls = s.cap.calls
  rising : risingFrom 0 t.regs = true
  why : getF t Reg.VI_HLC_REASON = reason
  reads : ∀ f : Field, f.outsideEnd → getF t f = getF s f

/-- The TLS connection as the end with `reason` leaves it. -/
def tlsAtEnd (reason : Nat) (s : State) : State := if reason = 3 ∨ reason = 4 then dropTls s else s

theorem tlsAtEnd_hlc (reason : Nat) : (tlsAtEnd reason s).hlc = if reason = 3 ∨ reason = 4 then s.hlc.plain else s.hlc := by
  unfold tlsAtEnd
  split
  · exact dropTls_hlc
  · rfl

theorem tlsAtEnd_calls (reason : Nat) : (tlsAtEnd reason s).cap.calls = s.cap.calls := by
  unfold tlsAtEnd
  split
  · exact dropTls_calls
  · rfl

theorem tlsAtEnd_counts (reason : Nat) : CountsKept s (tlsAtEnd reason s) := by
  unfold tlsAtEnd
  split
  · exact dropTls_counts s
  · exact .of_regs rfl

theorem coilOn_tlsAtEnd (reason : Nat) : coilOn (tlsAtEnd reason s) = coilOn s := by
  unfold tlsAtEnd
  split
  · exact (dropTls_settles (.refl s)).coilOn
  · rfl

/-- The end of a session up to the disconnect. -/
def sessionOver (reason : Nat) (s : State) : State :=
  hlcMove 5 (setF Reg.VI_HLC_REASON reason ((tlsAtEnd reason s).updHlc fun h => { h with pend := none, certPend := false }))

/-- A session under way ends; a contactor opens for it only in status 4 with a coil on. -/
theorem hlcEnd_over {reason : Nat} (hopen : s.hlc.status ≠ 0 ∧ s.hlc.status ≠ 5)
    (hcoil : s.hlc.status = 4 → coilOn s = false) : hlcEnd reason s = sessionOver reason s := by
  have hstays : ¬(s.hlc.status = 4 ∧ coilOn (sessionOver reason s) = true) := by
    rintro ⟨hst, hon⟩
    have hsame : coilOn (sessionOver reason s) = coilOn s := (coilOn_hlcMove 5 _).trans (coilOn_tlsAtEnd reason)
    rw [hsame, hcoil hst] at hon
    exact absurd hon nofun
  exact (if_neg (not_or.mpr hopen)).trans (if_neg hstays)

theorem sessionOver_hlc (reason : Nat) : (sessionOver reason s).hlc = s.hlc.ended reason := by
  rw [sessionOver, hlcMove_hlc]
  show { (tlsAtEnd reason s).hlc with status := 5, pend := none, certPend := false } = _
  rw [tlsAtEnd_hlc]
  rfl

theorem sessionOver_ends {reason : Nat} (hr : risingFrom 0 s.regs = true) (hreason : reason < 16) :
    SessionEnds reason s (sessionOver reason s) := by
  have htls := tlsAtEnd_counts (s := s) reason
  have hrise : risingFrom 0 (tlsAtEnd reason s).regs = true := htls.rising hr
  refine ⟨sessionOver_hlc reason, ?calls, ?rising, ?why, ?reads⟩
  all_goals unfold sessionOver
  case calls => exact (hlcMove_session 5 _).calls.trans (tlsAtEnd_calls reason)
  case rising =>
    rw [hlcMove_regs]
    exact setF_regs_rising hrise _ _
  case why =>
    rw [getF_hlcMove]
    exact (getF_setF_same hrise _ _).trans (Nat.mod_eq_of_lt hreason)
  case reads =>
    intro f hf
    rw [getF_hlcMove]
    exact (getF_setF_other hrise hf.2 _).trans (htls.reads hr f hf.1)

theorem hlcEnd_ends {reason : Nat} (hr : risingFrom 0 s.regs = true) (hreason : reason < 16)
    (hopen : s.hlc.status ≠ 0 ∧ s.hlc.status ≠ 5) (hcoil : s.hlc.status = 4 → coilOn s = false) :
    SessionEnds reason s (hlcEnd reason s) := by
  rw [hlcEnd_over hopen hcoil]
  exact sessionOver_ends hr hreason

/-! ## Misbehaviour (R143) -/

/-- The session as firmware leaves it when it answers misbehaviour. -/
theorem misbehaved_ends (hr : risingFrom 0 s.regs = true) (hopen : s.hlc.status ≠ 0 ∧ s.hlc.status ≠ 5)
    (hcoil : s.hlc.status = 4 → coilOn s = false) (msg : Nat) (code : HlcCode) :
    (misbehaved msg code s).hlc = (say msg code [] s).hlc.ended 5 ∧ risingFrom 0 (misbehaved msg code s).regs = true ∧
      getF (misbehaved msg code s) Reg.VI_HLC_REASON = 5 := by
  have hhlc : (violation 15 msg (say msg code [] s)).hlc = (say msg code [] s).hlc := violation_hlc ..
  have hends : SessionEnds 5 (violation 15 msg (say msg code [] s)) (misbehaved msg code s) := by
    refine hlcEnd_ends (violation_rising (s := say msg code [] s) hr ..) (by decide) ?_ fun hst => ?_
    · rw [hhlc]
      exact hopen
    · rw [hhlc] at hst
      exact (coilOn_violation ..).trans (hcoil hst)
  exact ⟨by rw [hends.hlc, hhlc], hends.rising, hends.why⟩

/-- The same where TLS closes too. -/
theorem misbehavedTls_ends (hr : risingFrom 0 s.regs = true) (hopen : s.hlc.status ≠ 0 ∧ s.hlc.status ≠ 5)
    (hcoil : s.hlc.status = 4 → coilOn s = false) (msg : Nat) (code : HlcCode) :
    (misbehavedTls msg code s).hlc = ((say msg code [] s).hlc.ended 5).plain ∧
      getF (misbehavedTls msg code s) Reg.VI_HLC_REASON = 5 := by
  obtain ⟨hhlc, hrise, hwhy⟩ := misbehaved_ends hr hopen hcoil msg code
  unfold misbehavedTls
  refine ⟨by rw [dropTls_hlc, hhlc], ?_⟩
  rw [(dropTls_counts _).reads hrise _ (by unfold Field.outsideHealth; decide), hwhy]

end

/-! ## Services (R84, R114) -/

section
variable {num : Nat} {k : Call} {s : State}

/-- Firmware performs the call that it serves. -/
theorem serve_call (h : ServesCall num k s) (f : Call → State → State) : serve num f s = f k s := by
  obtain ⟨hpause, hcore, hcall, -⟩ := h
  have hidle : ¬(s.sys.pause || s.sys.takeover) = true := by simp [hpause, hcore]
  have hpending : pendingCall num s = some k := hcall
  unfold serve
  rw [if_neg hidle, hpending]

theorem ServesCall.mem (h : ServesCall num k s) : k ∈ s.cap.calls := List.mem_of_find?_eq_some h.call

/-- A call that its caller still wants is done when firmware finishes it. -/
theorem finishCode_done {code : Nat} {rets : List Word} (hmem : k ∈ s.cap.calls) (hlive : k.abandoned = false)
    (hcode : code < 256) : CallDone k code rets (finishCode k.id code rets s) := by
  unfold CallDone finishCode finishCall
  rw [State.updCap_cap, Nat.mod_eq_of_lt hcode]
  refine List.mem_map.mpr ⟨k, List.mem_filter.mpr ⟨hmem, by simp [hlive]⟩, by simp⟩

end

end Sys2Proof.Machine
end

section
/-! SUPPORT. The steps of an HLC session: SLAC, the TLS handshake, supportedAppProtocol, the deadline and the idle time
(07 R137, R138, R141, R143, R144, R444). -/
namespace Sys2Proof.Machine

/-- The session stands ended with `reason`, and nothing waits for an answer. -/
def EndedWith (reason : Nat) (t : State) : Prop := t.hlc.status = 5 ∧ getF t Reg.VI_HLC_REASON = reason ∧ t.hlc.pend = none

theorem SessionEnds.ended {reason : Nat} {s t : State} (h : SessionEnds reason s t) : EndedWith reason t :=
  ⟨by rw [h.hlc]; rfl, h.why, by rw [h.hlc]; rfl⟩

section
variable {s : State}

/-! ## HLC_START and SLAC -/

/-- HLC_START begins SLAC with the offer in force; no TLS is left of the session before. -/
theorem hlcStart_gives {k : Call} (h : ServesCall 0x300 k s) (hrole : s.sys.role ≠ .repeater)
    (hstatus : s.hlc.status = 0 ∨ s.hlc.status = 5) : (hlcStart k s).hlc.status = 1 ∧ (hlcStart k s).hlc.proto = 0 ∧
      CallDone k 0 [] (hlcStart k s) ∧ (hlcStart k s).hlc.offerInForce =
        if (k.args.getD 0 0) = 0 then s.hlc.offer else BitVec.ofNat 3 (k.args.getD 0 0).toNat := by
  have hidle : ¬(1 ≤ s.hlc.status ∧ s.hlc.status ≤ 4) := by omega
  have harg : k.arg 0 = 0 ↔ k.args.getD 0 0 = 0 := ⟨fun h => BitVec.eq_of_toNat_eq h, fun h => congrArg BitVec.toNat h⟩
  have hcalls : (dropTls (boundaries [Reg.VI_GP_TXATT, Reg.VI_GP_ATTEN_OFS] s)).cap.calls = s.cap.calls := dropTls_calls
  unfold hlcStart
  rw [if_neg hrole, if_neg hidle]
  refine ⟨by simp, by simp, ?_, ?_⟩
  · refine finishCode_done ?_ h.live (by decide)
    rw [(hlcMove_session 1 _).calls]
    exact hcalls ▸ h.mem
  · simp only [finishCode_hlc, hlcMove_hlc, State.updHlc_hlc, dropTls_hlc, harg]
    rfl

/-- A match of a SLAC exchange, with the attenuations that firmware reports. -/
theorem slacMatch_gives (hlistens : slacListens s = true) (hslac : s.hlc.slac = true) : (slacMatch s).hlc.status = 2 ∧
    (slacMatch s).hlc.matched = true ∧ (slacMatch s).hlc.slac = false ∧ (slacMatch s).regs = s.regs ∧
      ∃ atten : List Nat, (slacMatch s).hlc.atten = atten.map fun a => a - inForce s Reg.VI_GP_ATTEN_OFS := by
  have hruns : (slacListens s && s.hlc.slac) = true := by simp [hlistens, hslac]
  have hatten : (reportedAtten s).1 = ((List.range (Config.freeNat s.sys.freeCtr)).map fun i =>
      Config.freeNat (s.sys.freeCtr + 1 + i)).map fun a => a - inForce s Reg.VI_GP_ATTEN_OFS := by
    rw [List.map_map]
    rfl
  unfold slacMatch
  rw [if_pos hruns]
  dsimp only
  rw [hlcMove_hlc, hlcMove_regs]
  exact ⟨rfl, rfl, rfl, rfl, _, hatten⟩

theorem violCount_outsideEnd {k : Nat} (hk : k < 17) : (Reg.VI_VIOL_COUNT k).outsideEnd := by
  unfold Field.outsideEnd Field.outsideHealth
  revert k
  decide

/-- The failure of SLAC as it is counted: whether an exchange ran. -/
def slacFailed (s : State) : State := violation 13 (ofBool s.hlc.slac) (s.updHlc fun h => { h with slac := false })

theorem slacFailed_hlc : (slacFailed s).hlc = { s.hlc with slac := false } := violation_hlc ..

/-- Without a match the session ends; the failure is counted. -/
theorem slacTimeout_gives (hr : risingFrom 0 s.regs = true) (hstatus : s.hlc.status = 1) : EndedWith 1 (slacTimeout s) ∧
    (slacTimeout s).hlc.slac = false ∧ getF (slacTimeout s) (Reg.VI_VIOL_COUNT 13) =
      satInc (2 ^ (Reg.VI_VIOL_COUNT 13).width - 1) (getF s (Reg.VI_VIOL_COUNT 13)) := by
  have hrise : risingFrom 0 (slacFailed s).regs = true := violation_rising (s := s.updHlc _) hr ..
  have hfailed : (slacFailed s).hlc.status = 1 := by
    rw [slacFailed_hlc]
    exact hstatus
  have hends : SessionEnds 1 (slacFailed s) (hlcEnd 1 (slacFailed s)) := hlcEnd_ends hrise (by decide) (by omega) (by omega)
  have heq : slacTimeout s = hlcEnd 1 (slacFailed s) := if_pos hstatus
  rw [heq]
  refine ⟨hends.ended, ?_, ?_⟩
  · rw [hends.hlc, slacFailed_hlc]
    rfl
  · rw [hends.reads _ (violCount_outsideEnd (by decide))]
    exact violation_counts (s := s.updHlc _) hr ..

/-! ## TLS (R143, R348) -/

/-- A handshake that fails keeps the link, and is counted. -/
theorem tlsHandshake_fails (hr : risingFrom 0 s.regs = true) (hstatus : s.hlc.status = 2) (tls13 : Bool)
    (suites : List (BitVec 16)) : (tlsHandshake tls13 suites false s).hlc.status = 2 ∧
      (tlsHandshake tls13 suites false s).hlc.tls = s.hlc.tls ∧
      getF (tlsHandshake tls13 suites false s) (Reg.VI_VIOL_COUNT 14) =
        satInc (2 ^ (Reg.VI_VIOL_COUNT 14).width - 1) (getF s (Reg.VI_VIOL_COUNT 14)) := by
  have heq : tlsHandshake tls13 suites false s = hlcMove 2 (violation 14 suites.length (hlcMove 3 s)) := by
    unfold tlsHandshake
    rw [if_neg (not_not.mpr hstatus)]
    dsimp only
    split
    · contradiction
    · rfl
  have hr3 : risingFrom 0 (hlcMove 3 s).regs = true := by rwa [hlcMove_regs]
  rw [heq, getF_hlcMove, violation_counts hr3, getF_hlcMove, hlcMove_hlc, violation_hlc, hlcMove_hlc]
  exact ⟨rfl, rfl, rfl⟩

/-- A handshake that succeeds with the suite 0x1301 puts its keys into a slot. -/
theorem tlsHandshake_succeeds {i : Nat} {u : State} (hstatus : s.hlc.status = 2)
    (hkeys : tlsKeys 0x1301 (hlcMove 3 s) = (some i, u)) :
    let t := tlsHandshake true [0x1301#16] true s
    t.hlc.status = 3 ∧ t.hlc.tls = true ∧ t.hlc.suite = 0x1301 ∧ t.hlc.tls13 = true ∧ t.hlc.tlsSlot = some i := by
  have hsuite : ((tlsSuites true).find? fun x => [0x1301#16].any fun y => y.toNat == x) = some 0x1301 := by decide
  have hu : u.hlc = { s.hlc with status := 3 } := ((tlsKeys_session 0x1301 (hlcMove 3 s)).result hkeys).hlc.trans (hlcMove_hlc ..)
  have heq : tlsHandshake true [0x1301#16] true s =
      u.updHlc fun h => { h with tls := true, suite := 0x1301, tls13 := true, tlsSlot := some i } := by
    unfold tlsHandshake
    rw [if_neg (not_not.mpr hstatus), hsuite]
    dsimp only
    rw [hkeys]
  rw [heq]
  exact ⟨congrArg Hlc.status hu, rfl, rfl, rfl, rfl⟩

/-! ## supportedAppProtocol (R138, R143) -/

section
variable {names : BitVec 3} {first20 : Bool} (hstatus : s.hlc.status = 2 ∨ s.hlc.status = 3)
include hstatus

/-- Protocol `proto` is agreed on, and the session is in status 4 with nothing asked yet. -/
def Agreed (proto : Nat) (t : State) : Prop :=
  t.hlc.status = 4 ∧ t.hlc.proto = proto ∧ t.hlc.seq = 0 ∧ t.hlc.lastReply = some ⟨0, .ok, []⟩

/-- A protocol of the offer that counts: ISO 15118-20 where the vehicle names it and ranks it first or names no other. -/
theorem supportedApp_agrees {both : BitVec 3} (hboth : names &&& offerCounts s = both) (hsome : both ≠ 0) :
    Agreed (if (both.getLsbD 1 || both.getLsbD 2) && (first20 || !both.getLsbD 0) then 2 else 1) (supportedApp names first20 s) := by
  have houtside : ¬s.hlc.status = 4 := by omega
  have hlinked : ¬(s.hlc.status ≠ 2 ∧ s.hlc.status ≠ 3) := by omega
  have hnamed : ¬((!both.getLsbD 0 && !(both.getLsbD 1 || both.getLsbD 2)) = true) := by
    revert hsome
    clear hboth
    revert both
    decide
  unfold supportedApp
  rw [if_neg houtside, if_neg hlinked]
  dsimp only
  rw [hboth, if_neg hnamed]
  unfold Agreed
  rw [hlcMove_hlc]
  exact ⟨rfl, rfl, rfl, rfl⟩

/-- With no protocol of the offer the session and its TLS connection end. -/
theorem supportedApp_refuses (hr : risingFrom 0 s.regs = true) (hnone : names &&& offerCounts s = 0) :
    EndedWith 5 (supportedApp names first20 s) ∧ (supportedApp names first20 s).hlc.tls = false ∧
      (supportedApp names first20 s).hlc.lastReply = some ⟨0, .noNegotiation, []⟩ := by
  have houtside : ¬s.hlc.status = 4 := by omega
  have hlinked : ¬(s.hlc.status ≠ 2 ∧ s.hlc.status ≠ 3) := by omega
  have heq : supportedApp names first20 s = misbehavedTls 0 .noNegotiation s := by
    unfold supportedApp
    rw [if_neg houtside, if_neg hlinked]
    dsimp only
    rw [hnone]
    rfl
  obtain ⟨hhlc, hwhy⟩ := misbehavedTls_ends hr (by omega) (fun h => absurd h houtside) 0 .noNegotiation
  rw [heq, EndedWith, hhlc]
  exact ⟨⟨rfl, hwhy, rfl⟩, rfl, rfl⟩

end

/-! ## What ends a session (R141, R144) -/

section
variable (hr : risingFrom 0 s.regs = true)
include hr

/-- The vehicle closes TLS. -/
theorem tlsClosed_gives (hstatus : s.hlc.status = 4) (hcoil : coilOn s = false) :
    EndedWith 3 (hlcEnd 3 s) ∧ (hlcEnd 3 s).hlc.tls = false := by
  have hends : SessionEnds 3 s (hlcEnd 3 s) := hlcEnd_ends hr (by decide) (by omega) fun _ => hcoil
  exact ⟨hends.ended, by rw [hends.hlc]; rfl⟩

/-- A wait of the vehicle ran out: EV_HLC with its message, and HLC_TIMEOUT counted. -/
def timedOut (msg : Nat) (s : State) : State := violation 16 msg (raiseFw 0x32 msg s)

omit hr in
theorem timedOut_hlc (msg : Nat) : (timedOut msg s).hlc = s.hlc := (violation_session (raiseFw_session (.refl s))).hlc

theorem timedOut_rising (msg : Nat) : risingFrom 0 (timedOut msg s).regs = true := by
  refine violation_rising ?_ ..
  rwa [raiseFw_regs]

omit hr in
theorem coilOn_timedOut (msg : Nat) : coilOn (timedOut msg s) = coilOn s := by
  rw [timedOut, coilOn_violation]
  simp [coilOn]

/-- The session that a timed-out wait ends. -/
theorem timedOut_ends {reason msg : Nat} (hreason : reason < 16) (hstatus : s.hlc.status = 4) (hcoil : coilOn s = false) :
    EndedWith reason (hlcEnd reason (timedOut msg s)) := by
  have hopen : (timedOut msg s).hlc.status = 4 := by rw [timedOut_hlc, hstatus]
  exact (hlcEnd_ends (timedOut_rising hr msg) hreason (by omega) fun _ => (coilOn_timedOut msg).trans hcoil).ended

end

/-- Whatever contactor opens for it, the end of a session leaves what firmware answered. -/
theorem hlcEnd_keeps_answers (reason : Nat) : (hlcEnd reason s).hlc.late = s.hlc.late ∧
    (hlcEnd reason s).hlc.lastReply = s.hlc.lastReply ∧ (s.hlc.pend = none → (hlcEnd reason s).hlc.pend = none) := by
  have hover : (sessionOver reason s).hlc = s.hlc.ended reason := sessionOver_hlc reason
  have hended : (s.hlc.ended reason).late = s.hlc.late ∧ (s.hlc.ended reason).lastReply = s.hlc.lastReply := by
    unfold Hlc.ended
    split <;> exact ⟨rfl, rfl⟩
  have hshape : hlcEnd reason s = s ∨ SessionKept (sessionOver reason s) (hlcEnd reason s) := by
    unfold hlcEnd
    dsimp only
    split
    · exact .inl rfl
    · refine .inr (.when (.refl _) fun h => startDisc_session (.ite h (raiseFw_session h)))
  rcases hshape with h | h
  · rw [h]
    exact ⟨rfl, rfl, id⟩
  · rw [h.hlc, hover]
    exact ⟨hended.1, hended.2, fun _ => rfl⟩

/-- The request as firmware answers it at its deadline, before the timeout is noted. -/
def deadlineAnswered (r : HlcReq) (s : State) : State :=
  say r.msg (if r.processing then .ongoing else .failed) []
    (s.updHlc fun h => { h with pend := none, late := r.offset :: h.late })

theorem hlcDeadline_eq {r : HlcReq} (hpend : s.hlc.pend = some r) : hlcDeadline s =
    if r.msg = msgStop then hlcEnd 0 (timedOut r.msg (deadlineAnswered r s)) else timedOut r.msg (deadlineAnswered r s) := by
  unfold hlcDeadline
  rw [hpend]
  rfl

/-- Firmware answers at the deadline; the response to SessionStop ends the session. -/
theorem hlcDeadline_gives {r : HlcReq} (hr : risingFrom 0 s.regs = true) (hpend : s.hlc.pend = some r) :
    (hlcDeadline s).hlc.pend = none ∧ (hlcDeadline s).hlc.late = r.offset :: s.hlc.late ∧
      (hlcDeadline s).hlc.lastReply = some ⟨r.msg, if r.processing then .ongoing else .failed, []⟩ ∧
      (r.msg ≠ 0xD → (hlcDeadline s).hlc.status = s.hlc.status) ∧
      (r.msg = 0xD → s.hlc.status = 4 → coilOn s = false → EndedWith 0 (hlcDeadline s)) := by
  have hanswered := timedOut_hlc (s := deadlineAnswered r s) r.msg
  rw [hlcDeadline_eq hpend]
  split
  · next hstop =>
    obtain ⟨hlate, hreply, hnone⟩ := hlcEnd_keeps_answers (s := timedOut r.msg (deadlineAnswered r s)) 0
    rw [hlate, hreply, hanswered]
    refine ⟨hnone (by rw [hanswered]; rfl), rfl, rfl, fun hne => absurd hstop hne, fun _ hstatus hcoil => ?_⟩
    exact timedOut_ends (s := deadlineAnswered r s) hr (by decide) hstatus hcoil
  · next hother =>
    rw [hanswered]
    exact ⟨rfl, rfl, rfl, fun _ => rfl, fun hstop => absurd hstop hother⟩

end

end Sys2Proof.Machine

open Sys2Proof Sys2Proof.Machine

/-- Settles O30: each row moves HLC_STATUS by `hlcMove` or ends the session by `hlcEnd`, and the closing of TLS, the violation and
the events that go with it leave the session, REASON and the counters of the other violations as they are. -/
theorem hlcSessionStates : Obligations.HlcSessionStates := by
  unfold Obligations.HlcSessionStates
  intro s hwf
  have hr := regs_rising hwf
  refine ⟨fun k hcall hrole hstatus => ?start, fun hlistens => ?parm, fun hlistens hslac => ?slacMatch, fun hstatus => ?timeout,
    fun tls13 suites hstatus => ?tlsFails, fun i u hstatus hkeys => ?tlsRuns, fun names hstatus => ⟨?iso2, ?iso20, ?none⟩,
    fun hstatus hcoil => ⟨?closed, ?idle⟩, fun r hpend => ?deadline⟩
  case start => exact .of_eq rfl (serve_call hcall hlcStart) (hlcStart_gives hcall hrole hstatus)
  case parm => exact .of_eq rfl (if_pos hlistens) rfl
  case slacMatch => exact ⟨_, rfl, slacMatch_gives hlistens hslac⟩
  case timeout => exact ⟨_, rfl, slacTimeout_gives hr hstatus⟩
  case tlsFails => exact ⟨_, rfl, tlsHandshake_fails hr hstatus tls13 suites⟩
  case tlsRuns => exact ⟨_, rfl, tlsHandshake_succeeds hstatus hkeys⟩
  case iso2 => exact fun hone first20 => ⟨_, rfl, supportedApp_agrees hstatus hone (by decide)⟩
  case iso20 =>
    intro hsome hno2 first20
    obtain ⟨hst, hproto, -⟩ := supportedApp_agrees (first20 := first20) hstatus rfl hsome
    have hrank : ∀ (both : BitVec 3) (first20 : Bool), both ≠ 0 → both &&& 1 = 0 →
        ((both.getLsbD 1 || both.getLsbD 2) && (first20 || !both.getLsbD 0)) = true := by decide
    rw [if_pos (hrank _ first20 hsome hno2)] at hproto
    exact ⟨_, rfl, hst, hproto⟩
  case none => exact fun hnone first20 => ⟨_, rfl, supportedApp_refuses hstatus hr hnone⟩
  case closed => exact fun htls => .of_eq rfl (if_pos htls) (tlsClosed_gives hr hstatus hcoil)
  case idle => exact fun hpend => .of_eq rfl (if_pos ⟨hstatus, hpend⟩) (timedOut_ends (msg := 0) hr (by decide) hstatus hcoil)
  case deadline => exact ⟨_, rfl, hlcDeadline_gives hr hpend⟩

end

section
/-! SUPPORT. Requests, certificates and replies of an HLC session: the record of a request in the case memory, what waits for an
answer, and the answer (07 R139 to R143, R145). -/
namespace Sys2Proof.Machine

section
variable {s : State} {msg : Nat} {body : List Byte} {answered : Bool} {timeout : Nat}

/-! ## Records (R139) -/

/-- The offset of the next record. -/
def recordOffset (s : State) : Nat := getF s Reg.VI_REC_OFF * 256 + s.hlc.ring * 256

/-- The four words at the head of a record. -/
def recordHead (msg : Nat) (body : List Byte) (answered : Bool) (timeout : Nat) (s : State) : List Byte :=
  leBytes (msg + 0x10000 * s.hlc.proto + 0x40000 * ofBool answered) 4 ++ leBytes (s.hlc.seq + 1) 4 ++
    leBytes (s.sys.usec + timeout - 250000) 4 ++ leBytes (body.take 240).length 4

/-- The bytes of a record. -/
def recordBytes (msg : Nat) (body : List Byte) (answered : Bool) (timeout : Nat) (s : State) : List Byte :=
  recordHead msg body answered timeout s ++ body.take 240 ++ List.replicate (240 - (body.take 240).length) 0

/-- The record stands in the case memory; its item is still to be enqueued. -/
def recordWritten (msg : Nat) (body : List Byte) (answered : Bool) (timeout : Nat) (s : State) : State :=
  (s.updCap fun c => { c with
    caseMem := putBytes 0 c.caseMem (recordAddr s (recordOffset s)) (recordBytes msg body answered timeout s) }).updHlc fun h =>
      { h with seq := s.hlc.seq + 1, ring := (s.hlc.ring + 1) % ringSize s, late := h.late.filter (· ≠ recordOffset s) }

theorem writeRecord_session :
    SessionKept (recordWritten msg body answered timeout s) (writeRecord msg body answered timeout s).2 :=
  qEnqueue_session (.refl _)

theorem writeRecord_hlc : (writeRecord msg body answered timeout s).2.hlc = { s.hlc with
    seq := s.hlc.seq + 1, ring := (s.hlc.ring + 1) % ringSize s, late := s.hlc.late.filter (· ≠ recordOffset s) } :=
  writeRecord_session.hlc

theorem writeRecord_usec : (writeRecord msg body answered timeout s).2.sys.usec = s.sys.usec := writeRecord_session.usec

theorem writeRecord_caseMem : (writeRecord msg body answered timeout s).2.cap.caseMem =
    putBytes 0 s.cap.caseMem (recordAddr s (recordOffset s)) (recordBytes msg body answered timeout s) := by
  rw [writeRecord_session.caseMem, recordWritten, State.updHlc_cap, State.updCap_cap]

theorem length_recordHead : (recordHead msg body answered timeout s).length = 16 := by
  simp [recordHead]

theorem length_recordBytes : (recordBytes msg body answered timeout s).length = 256 := by
  simp only [recordBytes, List.length_append, length_recordHead, List.length_replicate, List.length_take]
  omega

/-- The first byte of a record is that of its message. -/
theorem recordBytes_msg : (recordBytes msg body answered timeout s)[0]? = some (BitVec.ofNat 8 msg) := by
  have hlow : BitVec.ofNat 8 (msg + 0x10000 * s.hlc.proto + 0x40000 * ofBool answered) = BitVec.ofNat 8 msg := by
    apply BitVec.eq_of_toNat_eq
    simp only [BitVec.toNat_ofNat]
    omega
  rw [← hlow]
  rfl

/-- The bytes of the body follow the head. -/
theorem recordBytes_body {i : Nat} (hi : i < min 240 body.length) :
    (recordBytes msg body answered timeout s)[16 + i]? = some (body.getD i 0) := by
  have hlt : i < (body.take 240).length := by
    rw [List.length_take]
    exact hi
  have hbody : i < body.length := Nat.lt_of_lt_of_le hi (Nat.min_le_right ..)
  rw [recordBytes, List.append_assoc, List.getElem?_append_right (by rw [length_recordHead]; omega), length_recordHead,
    Nat.add_sub_cancel_left, List.getElem?_append_left hlt, List.getElem?_take_of_lt (by omega),
    List.getElem?_eq_getElem hbody, List.getD_eq_getElem _ _ hbody]

section
variable (hwf : Memory.wf s = true)
include hwf

/-- A byte of the record is read where it was written. -/
theorem byteAt_writeRecord {i : Nat} {v : Byte} (hv : (recordBytes msg body answered timeout s)[i]? = some v) :
    byteAt 0 (writeRecord msg body answered timeout s).2.cap.caseMem (recordAddr s (recordOffset s) + i) = v := by
  obtain ⟨hi, hget⟩ := List.getElem?_eq_some_iff.mp hv
  rw [writeRecord_caseMem, byteAt_putBytes_same 0 (caseMem_wf hwf) _ _ hi, hget]

/-- The case memory outside the record is as it was. -/
theorem byteAt_writeRecord_other {x : Nat}
    (hx : x < recordAddr s (recordOffset s) ∨ recordAddr s (recordOffset s) + 256 ≤ x) :
    byteAt 0 (writeRecord msg body answered timeout s).2.cap.caseMem x = byteAt 0 s.cap.caseMem x := by
  rw [writeRecord_caseMem]
  exact byteAt_putBytes_other 0 (caseMem_wf hwf) _ _ (by rwa [length_recordBytes])

end

/-! ## Requests (R138, R139, R143) -/

/-- No request and no certificate request waits. -/
def Fresh (s : State) : Prop := s.hlc.pend = none ∧ s.hlc.certPend = false

/-- In a session in which nothing waits a request is taken up. -/
theorem request_taken (hstatus : s.hlc.status = 4) (hfresh : Fresh s) :
    ¬s.hlc.status < 2 ∧ ¬s.hlc.status ≠ 4 ∧ ¬(s.hlc.pend.isSome || s.hlc.certPend) = true := by
  obtain ⟨hpend, hcert⟩ := hfresh
  exact ⟨by omega, not_not.mpr hstatus, by simp [hpend, hcert]⟩

/-- A request that strands answer under the protocol in use does not exist in the other alone. -/
theorem onlyOther_of_strandMsg {proto : Nat} (h : strandMsg proto msg = true) : onlyOther proto msg = false := by
  unfold onlyOther
  split
  · next hproto =>
    subst hproto
    by_contra hother
    have hmsg : msg = 6 := by simpa using hother
    subst hmsg
    exact absurd h (by decide)
  · next hproto =>
    by_contra hother
    have hmsg : msg = 5 ∨ msg = 9 := by simpa [or_iff_not_imp_left] using hother
    rcases hmsg with hmsg | hmsg <;> simp [strandMsg, hmsg, hproto] at h

section
variable (hstatus : s.hlc.status = 4) (hfresh : Fresh s)
include hstatus hfresh

/-- A request for a strand: its record, and the request waits. -/
theorem hlcRequest_waits {processing : Bool} (hmsg : strandMsg s.hlc.proto msg = true) (hbpt : bptRefused msg body s = none) :
    ∃ ev, hlcRequest msg body none processing timeout s = (writeRecord msg body false timeout s).2.updHlc fun h =>
      { h with pend := some ⟨recordOffset s, msg, processing, s.sys.usec + timeout⟩, evMax := ev } := by
  obtain ⟨hlinked, hsession, hidle⟩ := request_taken hstatus hfresh
  unfold hlcRequest
  rw [if_neg hlinked, if_neg hsession, if_neg hidle]
  dsimp only
  rw [onlyOther_of_strandMsg hmsg, hmsg, hbpt, writeRecord_usec]
  exact ⟨_, rfl⟩

/-- Misbehaviour is answered with its code, and ends the session; what does not decode closes TLS. -/
theorem hlcRequest_misbehaves {bad : HlcBad} {processing : Bool} (hr : risingFrom 0 s.regs = true) (hcoil : coilOn s = false) :
    let t := hlcRequest msg body (some bad) processing timeout s
    t.hlc.lastReply = some ⟨msg, badCode bad, []⟩ ∧ t.hlc.status = 5 ∧ getF t Reg.VI_HLC_REASON = 5 ∧
      t.hlc.tls = (if bad = .undecodable then false else s.hlc.tls) := by
  obtain ⟨hlinked, hsession, hidle⟩ := request_taken hstatus hfresh
  have hopen : s.hlc.status ≠ 0 ∧ s.hlc.status ≠ 5 := by omega
  have heq : hlcRequest msg body (some bad) processing timeout s =
      if bad = .undecodable then misbehavedTls msg .failed s else misbehaved msg (badCode bad) s := by
    unfold hlcRequest
    rw [if_neg hlinked, if_neg hsession, if_neg hidle]
    cases bad <;> rfl
  dsimp only
  rw [heq]
  split
  · next hbad =>
    obtain ⟨hhlc, hwhy⟩ := misbehavedTls_ends hr hopen (fun _ => hcoil) msg .failed
    rw [hhlc, hbad]
    exact ⟨rfl, rfl, hwhy, rfl⟩
  · obtain ⟨hhlc, -, hwhy⟩ := misbehaved_ends hr hopen (fun _ => hcoil) msg (badCode bad)
    rw [hhlc]
    exact ⟨rfl, rfl, hwhy, rfl⟩

theorem meteringReceipt_eq :
    meteringReceipt body timeout s = say msgReceipt .ok [] (writeRecord msgReceipt body true timeout s).2 := by
  obtain ⟨hlinked, hsession, hidle⟩ := request_taken hstatus hfresh
  unfold meteringReceipt
  rw [if_neg hlinked, if_neg hsession, if_neg hidle]

/-! ## Certificates (R142) -/

/-- A HUB passes a certificate request on, and waits for the host. -/
theorem certRequest_hub (exi : List Byte) (hrole : s.sys.role = .hub) :
    (certRequest false exi timeout s).hlc.certPend = true ∧ (certRequest false exi timeout s).hlc.seq = s.hlc.seq + 1 := by
  obtain ⟨hlinked, hsession, hidle⟩ := request_taken hstatus hfresh
  have hpacket (items : List Word) : SessionKept (writeRecord msgCert [] false timeout s).2
      (items.foldl (fun s w => (qEnqueue 4 w s).2) (writeRecord msgCert [] false timeout s).2) :=
    .foldl (fun s _ => qEnqueue_session (.refl s)) items _
  have heq : ∃ items : List Word, certRequest false exi timeout s =
      (items.foldl (fun s w => (qEnqueue 4 w s).2) (writeRecord msgCert [] false timeout s).2).updHlc
        fun h => { h with certPend := true } := by
    unfold certRequest
    rw [if_neg hlinked, if_neg hsession, if_neg hidle, if_neg (by simp), if_pos (.inl hrole)]
    exact ⟨_, rfl⟩
  obtain ⟨items, heq⟩ := heq
  rw [heq, State.updHlc_hlc, (hpacket items).hlc, writeRecord_hlc]
  exact ⟨rfl, rfl⟩

/-- A HEAD answers a certificate request at once. -/
theorem certRequest_head (exi : List Byte) (hrole : s.sys.role = .head) : certRequest false exi timeout s =
    say msgCert .noCertificateAvailable [] (writeRecord msgCert [] true timeout s).2 := by
  obtain ⟨hlinked, hsession, hidle⟩ := request_taken hstatus hfresh
  unfold certRequest
  rw [if_neg hlinked, if_neg hsession, if_neg hidle, if_neg (by simp), if_neg (by simp [hrole])]

end

/-- The last response is not of the queues. -/
theorem getQ_say (q : Fin 64) (code : HlcCode) (fields : List Nat) (f : Hlc → Hlc) :
    getQ (say msg code fields (s.updHlc f)) q = getQ s q := rfl

/-- The host's answer of two items leaves the queue and goes to the vehicle. -/
theorem certAnswer_gives {a : Word} {rest : List Word} (hwaits : s.hlc.certPend = true)
    (hitems : (getQ s 5).items = 0x10000002#32 :: a :: rest) (htail : itemType a = 3) :
    (certAnswer s).hlc.certPend = false ∧ (getQ (certAnswer s) 5).items = rest ∧
      (certAnswer s).hlc.lastReply = some ⟨0xE, .ok, [a.toNat % 256, a.toNat / 256 % 256]⟩ := by
  have hpacket : wholePacket (getQ s 5).items = some [0x10000002#32, a] := by
    have hhead : (itemType 0x10000002#32 == 3) = false := by decide
    simp [hitems, wholePacket, List.findIdx?_cons, hhead, htail]
  have hbytes : ((packetBytes [a]).take 2).map (·.toNat) = [a.toNat % 256, a.toNat / 256 % 256] := by
    simp [packetBytes, leBytes]
  have heq : certAnswer s = say msgCert .ok (((packetBytes [a]).take 2).map (·.toNat))
      ((qRemove 5 2 s).updHlc fun h => { h with certPend := false }) := by
    have hlength : (0x10000002#32).toNat % 0x10000 = 2 := by decide
    unfold certAnswer
    rw [hwaits, hpacket, if_neg nofun]
    dsimp only
    rw [List.headD_cons, hlength]
    rfl
  have hleft : (getQ (qRemove 5 2 s) 5).items = rest := by
    rw [items_qRemove, hitems, List.drop_succ_cons, List.drop_succ_cons, List.drop_zero]
  rw [heq, hbytes]
  exact ⟨rfl, by rw [getQ_say, hleft], rfl⟩

/-! ## Replies (R140, R141, R145) -/

/-- What the vehicle is told, and how the call and the request that it answers end. -/
def Replies (k : Call) (r : HlcReq) (s : State) (code : HlcCode) (fields : List Nat) (t : State) : Prop :=
  t.hlc.lastReply = some ⟨r.msg, code, fields⟩ ∧ t.hlc.pend = none ∧ CallDone k 0 [] t ∧ t.hlc.status = 4 ∧
    ∃ x, t.hlc.lastFill = some x ∧ x.session = s.hlc.session ∧ x.meter = (led s).totals.get 0

section
variable {k : Call} {r : HlcReq} {num : Nat} {serves : Nat → Bool} {send : Call → State → State}

/-- A reply to the request that waits is not turned away. -/
theorem replyService_sends (hstatus : s.hlc.status = 4) (hpend : s.hlc.pend = some r) (hoffset : r.offset = k.arg 0)
    (hlate : s.hlc.late.contains r.offset = false) (hserves : serves r.msg = true) :
    replyService serves send k s = send k s := by
  have hnone : replyRefused (k.arg 0) serves s = none := by
    have hmatch : r.offset = k.arg 0 ∧ serves r.msg = true := ⟨hoffset, hserves⟩
    rw [hoffset] at hlate
    unfold replyRefused
    rw [if_neg (not_not.mpr hstatus), hlate, if_neg nofun, hpend]
    exact if_pos hmatch
  unfold replyService
  rw [hnone]

/-- A reply to any message but SessionStop leaves the session as it stands. -/
theorem replyWith_replies {code : HlcCode} {fields : List Nat} (hmem : k ∈ s.cap.calls) (hlive : k.abandoned = false)
    (hstatus : s.hlc.status = 4) (hpend : s.hlc.pend = some r) (hmsg : r.msg ≠ msgStop) :
    Replies k r s code fields (replyWith k code fields s) := by
  have hsign := signReading_session (.refl s)
  have hread : (s.hlc.pend.map (·.msg)).getD 0 = r.msg := by rw [hpend]; rfl
  have hled : led (signReading s).2 = led s := congrArg Led.cur hsign.led
  unfold replyWith
  dsimp only
  rw [hread, if_neg hmsg]
  refine ⟨rfl, rfl, finishCode_done ?_ hlive (by decide), ?_, _, rfl, ?_, ?_⟩
  · show k ∈ (signReading s).2.cap.calls
    rwa [hsign.calls]
  · show (signReading s).2.hlc.status = 4
    rwa [hsign.hlc]
  · exact congrArg Hlc.session hsign.hlc
  · exact congrArg (fun l : LedRegs => l.totals.get 0) hled

/-- A reply service that firmware serves for the request that waits. -/
theorem serve_replies {c : Instr} {code : HlcCode} {fields : List Nat} (hcall : ServesCall num k s)
    (hexec : exec c s = .next (serve num (replyService serves send) s)) (hstatus : s.hlc.status = 4)
    (hpend : s.hlc.pend = some r) (hoffset : r.offset = k.arg 0) (hlate : s.hlc.late.contains r.offset = false)
    (hserves : serves r.msg = true) (hmsg : r.msg ≠ msgStop) (hsend : send k s = replyWith k code fields s) :
    Gives c s (Replies k r s code fields) := by
  refine .of_eq hexec ((serve_call hcall _).trans (replyService_sends hstatus hpend hoffset hlate hserves)) ?_
  rw [hsend]
  exact replyWith_replies hcall.mem hcall.live hstatus hpend hmsg

end

end

end Sys2Proof.Machine

open Sys2Proof Sys2Proof.Machine

/-- Settles O31: a request is its record and what waits; what firmware answers by itself ends the session or leaves it; and a reply
service for the request that waits sends `replyWith`, which the signature of the reading leaves the session and the ledger for. -/
theorem hlcRequestsAndReplies : Obligations.HlcRequestsAndReplies := by
  unfold Obligations.HlcRequestsAndReplies
  intro s hwf hstatus hcoil
  have hr := regs_rising hwf
  refine ⟨fun msg body processing timeout hfresh hmsg hbpt => ?request, fun msg body bad processing timeout hfresh => ?bad,
    fun body timeout hfresh => ?receipt, fun exi timeout hfresh => ⟨fun hrole => ?hub, fun hrole => ?head⟩,
    fun a rest hwaits hitems htail => ?answer, fun hwaits => ?answerLate, fun k r hpend hoffset hlate => ?replies,
    fun k hcall hpend hlate => ?unasked, fun k hcall => ⟨fun ref expiry => ?valid, ?invalid, ?revoked⟩⟩
  case request =>
    have hoffset : 256 * getF s Reg.VI_REC_OFF + 256 * s.hlc.ring = recordOffset s := by
      unfold recordOffset
      omega
    have haddr : 64 * getF s Reg.VI_REC_BASE + recordOffset s = recordAddr s (recordOffset s) := by
      unfold recordAddr
      omega
    obtain ⟨ev, heq⟩ := hlcRequest_waits (processing := processing) (timeout := timeout.toNat) hstatus hfresh hmsg hbpt
    refine .of_eq rfl heq ?_
    rw [hoffset, haddr, State.updHlc_hlc, State.updHlc_cap, writeRecord_hlc]
    refine ⟨rfl, rfl, hstatus, byteAt_writeRecord hwf (i := 0) recordBytes_msg, fun i hi => ?_, fun x hx => ?_⟩
    · rw [Nat.add_assoc]
      exact byteAt_writeRecord hwf (recordBytes_body hi)
    · exact byteAt_writeRecord_other hwf hx
  case bad => exact ⟨_, rfl, hlcRequest_misbehaves hstatus hfresh hr hcoil⟩
  case receipt =>
    refine .of_eq rfl (meteringReceipt_eq hstatus hfresh) ?_
    unfold say
    rw [State.updHlc_hlc, writeRecord_hlc]
    exact ⟨rfl, hfresh.1, rfl⟩
  case hub => exact ⟨_, rfl, certRequest_hub hstatus hfresh exi hrole⟩
  case head =>
    refine .of_eq rfl (certRequest_head hstatus hfresh exi hrole) ?_
    unfold say
    rw [State.updHlc_hlc, writeRecord_hlc]
    exact ⟨hfresh.2, rfl, rfl⟩
  case answer => exact ⟨_, rfl, certAnswer_gives hwaits hitems htail⟩
  case answerLate => exact .of_eq rfl (if_pos hwaits) ⟨rfl, rfl⟩
  case replies =>
    have hword (i : Nat) : recordWord s (k.arg 1) i =
        (wordAt 0 s.cap.caseMem (64 * getF s Reg.VI_REC_BASE + (k.args.getD 1 0).toNat + 4 * i)).toNat := by
      unfold recordWord recordAddr
      rw [Nat.mul_comm 64]
      rfl
    simp only [← hword]
    refine ⟨fun hcall hmsg => ?auth, fun hcall hmsg => ?cpd, fun hcall hmsg => ?loop, fun hcall hmsg => ?failed⟩
    case auth =>
      have hzero : k.arg 1 = 0 ↔ k.args.getD 1 0 = 0 :=
        ⟨fun h => BitVec.eq_of_toNat_eq h, fun h => congrArg BitVec.toNat h⟩
      refine serve_replies hcall rfl hstatus hpend hoffset hlate (by rw [hmsg]; rfl) (by rw [hmsg]; decide) ?_
      simp only [hzero]
    case cpd => exact serve_replies hcall rfl hstatus hpend hoffset hlate (by rw [hmsg]; rfl) (by rw [hmsg]; decide) rfl
    case loop =>
      refine serve_replies hcall rfl hstatus hpend hoffset hlate (by rw [hmsg]; rfl) (by rw [hmsg]; decide) ?_
      simp [hpend, hmsg, msgLoop]
    case failed => exact serve_replies hcall rfl hstatus hpend hoffset hlate rfl (by rw [hmsg]; decide) rfl
  case unasked =>
    have hrefused : replyRefused (k.arg 0) (fun m => m != msgAuth && m != msgCpd) s = some 0x63 := by
      have hlate' : s.hlc.late.contains (k.arg 0) = false := hlate
      unfold replyRefused
      rw [if_neg (not_not.mpr hstatus), hlate', if_neg nofun, hpend]
    refine .of_eq rfl (serve_call hcall _) ?_
    unfold replyService
    rw [hrefused]
    exact ⟨finishCode_done hcall.mem hcall.live (by decide), rfl⟩
  case valid => exact .of_eq rfl (serve_call hcall _) (finishCode_done hcall.mem hcall.live (by decide))
  case invalid => exact .of_eq rfl (serve_call hcall _) (finishCode_done hcall.mem hcall.live (by decide))
  case revoked => exact .of_eq rfl (serve_call hcall _) (finishCode_done hcall.mem hcall.live (by decide))

end

section
/-! SUPPORT. Which fields the energy path writes while the coils are off, as the line settles and for a pilot trip; the arm is not
set and a match of SLAC stays (07 R122 to R130, 09 R186). -/
namespace Sys2Proof.Machine

/-! ## The relation -/

/-- From `s` to `t` no field is written but those of `fs`, the arm is not set, and a match of SLAC stays as it is. -/
structure Writes (fs : List Field) (s t : State) : Prop where
  rising : risingFrom 0 s.regs = true → risingFrom 0 t.regs = true
  reads : risingFrom 0 s.regs = true → ∀ f : Field, f.beside fs = true → getF t f = getF s f
  disarmed : risingFrom 0 s.regs = true → getF s Reg.CONT_STATUS_ARMED = 0 → getF t Reg.CONT_STATUS_ARMED = 0
  matched : t.hlc.matched = s.hlc.matched

namespace Writes
variable {fs gs : List Field} {s t u : State}

/-- What leaves the registers and the match alone writes nothing. -/
theorem of_regs (hregs : t.regs = s.regs) (hmatched : t.hlc.matched = s.hlc.matched) : Writes fs s t := by
  have hread (f : Field) : getF t f = getF s f := by rw [getF, hregs]; rfl
  exact ⟨fun hr => hregs ▸ hr, fun _ f _ => hread f, fun _ h => (hread _).trans h, hmatched⟩

theorem refl (s : State) : Writes fs s s := of_regs rfl rfl

theorem trans (h : Writes fs s t) (k : Writes fs t u) : Writes fs s u where
  rising := k.rising ∘ h.rising
  reads hr f hf := (k.reads (h.rising hr) f hf).trans (h.reads hr f hf)
  disarmed hr := k.disarmed (h.rising hr) ∘ h.disarmed hr
  matched := k.matched.trans h.matched

theorem ite {p : Prop} [Decidable p] (ht : Writes fs s t) (hu : Writes fs s u) : Writes fs s (if p then t else u) := by
  split
  · exact ht
  · exact hu

/-- A step that is taken or left out. -/
theorem when {p : Prop} [Decidable p] (ht : Writes fs s t) (hu : Writes fs s t → Writes fs s u) :
    Writes fs s (if p then u else t) := ite (hu ht) ht

/-- A step that is left out, for its condition cannot hold. -/
theorem barred {p : Prop} [Decidable p] (ht : Writes fs s t) (hp : ¬p) : Writes fs s (if p then u else t) := by
  rwa [if_neg hp]

/-- More fields may be written. -/
theorem mono (h : Writes fs s t) (hsub : fs ⊆ gs) : Writes gs s t :=
  { h with reads := fun hr f hf => h.reads hr f (List.all_eq_true.mpr fun g hg => List.all_eq_true.mp hf g (hsub hg)) }

end Writes

/-- The fields written as the line is driven and state F is reported. -/
def lineWrites : List Field :=
  [Reg.VI_PILOT_PWM, Reg.VI_PILOT_HLC, Reg.VI_PILOT_DUTY, Reg.VI_PILOT_STATE, Reg.VI_HLC_REASON, Reg.CONT_STATUS_ARMED,
    ⟨0x00000080, 4, 1, 0⟩, Reg.MB_OUT_PEND_PEND 0]

/-- Those and the counters of the lasting conditions. -/
def countWrites : List Field := Reg.VI_VIOL_COUNT 8 :: Reg.VI_VIOL_COUNT 9 :: lineWrites

/-- The fields written as the line settles. -/
def settleWrites : List Field := Reg.VI_PILOT_ANOM :: countWrites

/-- The fields written for a pilot trip, but for the cause held. -/
def tripWrites : List Field :=
  Reg.SAFE_STATUS_SEEN :: Reg.SAFE_LAST_CAUSE :: Reg.MB_OUT_PEND_PEND 2 :: Reg.SAFE_TRIPCNT_COUNT 5 :: lineWrites

/-! ## Single operations -/

section
variable {fs : List Field} {a s : State} (h : Writes fs a s)
include h

theorem updHlc_writes {f : Hlc → Hlc} (hf : (f s.hlc).matched = s.hlc.matched) : Writes fs a (s.updHlc f) :=
  h.trans (.of_regs rfl hf)

theorem updSup_writes {f} : Writes fs a (s.updSup f) := h.trans (.of_regs rfl rfl)
theorem updPilot_writes {f} : Writes fs a (s.updPilot f) := h.trans (.of_regs rfl rfl)
theorem fence_writes {port : Nat} {arg : Option Word} {by_ : Option (Fin 320)} : Writes fs a (fence port arg by_ s) :=
  h.trans (.of_regs rfl rfl)

theorem raiseHw_writes {ev w : Nat} : Writes fs a (raiseHw ev w s) := h.trans (.of_regs (by simp) (by simp))
theorem raiseFw_writes {ev w : Nat} : Writes fs a (raiseFw ev w s) := h.trans (.of_regs (by simp) (by simp))
theorem logEvent_writes {k c v : Nat} : Writes fs a (logEvent k c v s) := h.trans (.of_regs (by simp) (by simp))
theorem logViolation_writes {k c v : Nat} : Writes fs a (logViolation k c v s) := h.trans (.of_regs (by simp) (by simp))

theorem setF_writes {f : Field} {v : Nat} (hf : f ∈ fs) (harm : Reg.CONT_STATUS_ARMED.key ≠ f.key) :
    Writes fs a (setF f v s) := by
  refine h.trans ⟨fun hr => setF_regs_rising hr f v, fun hr g hg => getF_setF_other hr ?_ v, fun hr hzero => ?_, rfl⟩
  · exact (bne_iff_ne.mp (List.all_eq_true.mp hg f hf)).symm
  · rwa [getF_setF_other hr harm]

theorem setB_writes {f : Field} {b : Bool} (hf : f ∈ fs) (harm : Reg.CONT_STATUS_ARMED.key ≠ f.key) :
    Writes fs a (setB f b s) := setF_writes h hf harm

theorem disarm_writes (hf : Reg.CONT_STATUS_ARMED ∈ fs) : Writes fs a (setF Reg.CONT_STATUS_ARMED 0 s) := by
  refine h.trans ⟨fun hr => setF_regs_rising hr _ _, fun hr g hg => getF_setF_other hr ?_ _, fun hr _ => getF_setF_same hr _ _, rfl⟩
  exact (bne_iff_ne.mp (List.all_eq_true.mp hg _ hf)).symm

theorem clearArm_writes (hf : Reg.CONT_STATUS_ARMED ∈ fs) : Writes fs a (clearArm s) := fence_writes (disarm_writes h hf)

end

/-- After it the arm is not set. -/
theorem clearArm_armed {s : State} (hr : risingFrom 0 s.regs = true) : getF (clearArm s) Reg.CONT_STATUS_ARMED = 0 :=
  getF_setF_same (f := Reg.CONT_STATUS_ARMED) hr 0

/-! ## The line and the report of state F -/

section
variable {s : State}

theorem outsideHealth_of_beside {f : Field} (hf : f.beside lineWrites = true) : f.outsideHealth := by
  have hkeys (g : Field) (hg : g ∈ lineWrites) : f.key ≠ g.key := (bne_iff_ne.mp (List.all_eq_true.mp hf g hg)).symm
  exact ⟨hkeys _ (by decide), hkeys _ (by decide)⟩

theorem tlsAtEnd_writes (reason : Nat) : Writes lineWrites s (tlsAtEnd reason s) := by
  have hcounts := tlsAtEnd_counts (s := s) reason
  refine ⟨hcounts.rising, fun hr f hf => hcounts.reads hr f (outsideHealth_of_beside hf), fun hr hzero => ?_, ?_⟩
  · rwa [hcounts.reads hr _ (by unfold Field.outsideHealth; decide)]
  · rw [tlsAtEnd_hlc]
    split <;> rfl

theorem hlcEnd_writes {reason : Nat} (hcoil : coilOn s = false) : Writes lineWrites s (hlcEnd reason s) := by
  by_cases hover : s.hlc.status = 0 ∨ s.hlc.status = 5
  · have hsame : hlcEnd reason s = s := if_pos hover
    rw [hsame]
    exact .refl s
  · rw [hlcEnd_over (not_or.mp hover) fun _ => hcoil]
    exact raiseFw_writes (updHlc_writes (setF_writes (updHlc_writes (tlsAtEnd_writes reason) rfl) (by decide) (by decide)) rfl)

/-- The report reads `st`, and EV_PILOT is raised. -/
def reported (st : Nat) (s : State) : State := raiseHw 0x00 st (setF Reg.VI_PILOT_STATE st s)

theorem reported_writes (st : Nat) : Writes lineWrites s (reported st s) :=
  raiseHw_writes (setF_writes (.refl s) (by decide) (by decide))

theorem coilOn_reported (st : Nat) : coilOn (reported st s) = coilOn s := by simp [coilOn, reported]

theorem reported_state (hr : risingFrom 0 s.regs = true) {st : Nat} (hst : st < 16) :
    getF (reported st s) Reg.VI_PILOT_STATE = st := by
  rw [getF, reported, raiseHw_regs]
  exact (getF_setF_same hr _ _).trans (Nat.mod_eq_of_lt hst)

/-- The report of A, E or F clears the arm and ends the HLC session. -/
def disconnected (st : Nat) (s : State) : State := hlcEnd 4 (clearArm (reported st s))

theorem coilOn_clearArm : coilOn (clearArm s) = coilOn s := rfl

theorem disconnected_writes {st : Nat} (hcoil : coilOn s = false) : Writes lineWrites s (disconnected st s) := by
  refine (clearArm_writes (reported_writes st) (by decide)).trans (hlcEnd_writes ?_)
  rw [coilOn_clearArm, coilOn_reported, hcoil]

theorem driveSteady_writes {l : Line} : Writes lineWrites s (driveSteady l s) :=
  setF_writes (setB_writes (setB_writes (updPilot_writes (.refl s)) (by decide) (by decide)) (by decide) (by decide))
    (by decide) (by decide)

theorem driveLine_writes : Writes lineWrites s (driveLine s) := by
  unfold driveLine
  split
  · exact .ite (.refl s) driveSteady_writes
  · exact driveSteady_writes

theorem settleLine_writes (hcoil : coilOn s = false) : Writes lineWrites s (settleLine s) := by
  have hdrive : Writes lineWrites s (driveLine s) := driveLine_writes
  have hcoil' : coilOn (driveLine s) = false := driveLine_settles.coilOn.trans hcoil
  have hrep : Writes lineWrites (driveLine s) (report 0xF (driveLine s)) := disconnected_writes hcoil'
  refine hdrive.when fun h => ?_
  rw [reportActs_off ((report_settles hcoil').coilOn.trans hcoil')]
  exact (h.trans hrep).trans driveLine_writes

/-! ## The lasting conditions, and settling -/

/-- A lasting condition begins, and is shown and announced. -/
def lastingShown (k : Nat) (s : State) : State :=
  raiseHw 0x01 k (showAnom k (lastingBegins k (getF s Reg.VI_PLATEAU_HIGH) s))

theorem coilOn_lastingShown (k : Nat) : coilOn (lastingShown k s) = coilOn s := by
  have hsw : (lastingShown k s).sw = s.sw := by
    unfold lastingShown showAnom lastingBegins violation
    rw [raiseHw_sw]
    split_ifs <;> simp
  rw [coilOn, hsw]
  rfl

theorem lastingBegins_writes {fs : List Field} {k value : Nat} (hk : Reg.VI_VIOL_COUNT k ∈ fs)
    (harm : Reg.CONT_STATUS_ARMED.key ≠ (Reg.VI_VIOL_COUNT k).key) : Writes fs s (lastingBegins k value s) :=
  .ite (.refl s) (logViolation_writes (setF_writes (updPilot_writes (.refl s)) hk harm))

/-- A trip row holds the code that is shown (R130). -/
theorem tripAnom_iff : tripAnom s = true ↔
    holds 5 s = true ∧ 1 ≤ getF s Reg.VI_PILOT_ANOM ∧ getF s Reg.VI_PILOT_ANOM ≤ 6 := by
  simp [tripAnom, and_assoc]

theorem Writes.tripAnom {t : State} (h : Writes countWrites s t) (hr : risingFrom 0 s.regs = true) : tripAnom t = tripAnom s := by
  unfold Machine.tripAnom holds held
  rw [h.reads hr _ (by decide), h.reads hr _ (by decide)]

section
variable {k : Nat} (hk : k = 8 ∨ k = 9) (hcoil : coilOn s = false)
include hk

theorem lastingCount_mem : Reg.VI_VIOL_COUNT k ∈ countWrites ∧ Reg.CONT_STATUS_ARMED.key ≠ (Reg.VI_VIOL_COUNT k).key := by
  rcases hk with rfl | rfl <;> decide

include hcoil

theorem settleLasting_writes : Writes settleWrites s (settleLasting k s) := by
  obtain ⟨hmem, harm⟩ := lastingCount_mem hk
  have hanom : Reg.VI_PILOT_ANOM ∈ settleWrites := List.mem_cons_self ..
  have hbegins : Writes settleWrites s (lastingBegins k (getF s Reg.VI_PLATEAU_HIGH) s) :=
    lastingBegins_writes (List.mem_cons_of_mem _ hmem) harm
  have hshown : Writes settleWrites s (lastingShown k s) :=
    raiseHw_writes (.ite hbegins (setF_writes hbegins hanom (by decide)))
  have hends : Writes settleWrites s (lastingEnds k s) := updPilot_writes (.refl s)
  refine .ite (hshown.barred ?_) (.ite (hends.when fun h => setF_writes h hanom (by decide)) (.refl s))
  show ¬coilOn (lastingShown k s) = true
  rw [coilOn_lastingShown, hcoil]
  nofun

/-- While a trip row holds the code, a lasting condition leaves it. -/
theorem settleLasting_tripAnom (hr : risingFrom 0 s.regs = true) (htrip : tripAnom s = true) :
    Writes countWrites s (settleLasting k s) := by
  obtain ⟨hmem, harm⟩ := lastingCount_mem hk
  have hbegins : Writes countWrites s (lastingBegins k (getF s Reg.VI_PLATEAU_HIGH) s) := lastingBegins_writes hmem harm
  have hheld : showAnom k (lastingBegins k (getF s Reg.VI_PLATEAU_HIGH) s) = lastingBegins k (getF s Reg.VI_PLATEAU_HIGH) s :=
    if_pos ((hbegins.tripAnom hr).trans htrip)
  have hshown : Writes countWrites s (lastingShown k s) := by
    rw [lastingShown, hheld]
    exact raiseHw_writes hbegins
  have hends : Writes countWrites s (lastingEnds k s) := updPilot_writes (.refl s)
  obtain ⟨-, -, hcode⟩ := tripAnom_iff.mp htrip
  have hother : ¬getF (lastingEnds k s) Reg.VI_PILOT_ANOM = k := by
    show ¬getF s Reg.VI_PILOT_ANOM = k
    omega
  refine .ite (hshown.barred ?_) (.ite (hends.barred hother) (.refl s))
  show ¬coilOn (lastingShown k s) = true
  rw [coilOn_lastingShown, hcoil]
  nofun

end

section
variable (hcoil : coilOn s = false)
include hcoil

/-- The coils stay off from one step of settling to the next. -/
theorem settle_coils (hr : risingFrom 0 s.regs = true) : coilOn (settleLine s) = false ∧
    coilOn (settleLasting 8 (settleLine s)) = false ∧ coilOn (settleLasting 9 (settleLasting 8 (settleLine s))) = false := by
  have hline : coilOn (settleLine s) = false := (settleLine_settles hcoil hr).coilOn.trans hcoil
  have h8 := settleLasting_settles (k := 8) (by decide) hline
  have h9 := settleLasting_settles (k := 9) (by decide) (h8.coilOn.trans hline)
  exact ⟨hline, h8.coilOn.trans hline, h9.coilOn.trans (h8.coilOn.trans hline)⟩

theorem settle_writes (hr : risingFrom 0 s.regs = true) : Writes settleWrites s (settle s) := by
  have hsub : lineWrites ⊆ settleWrites := by decide
  obtain ⟨hline, h8, h9⟩ := settle_coils hcoil hr
  exact ((((settleLine_writes hcoil).mono hsub).trans (settleLasting_writes (.inl rfl) hline)).trans
    (settleLasting_writes (.inr rfl) h8)).trans ((settleLine_writes h9).mono hsub)

/-- While a trip row holds the code, settling leaves it. -/
theorem settle_tripAnom (hr : risingFrom 0 s.regs = true) (htrip : tripAnom s = true) : Writes countWrites s (settle s) := by
  have hsub : lineWrites ⊆ countWrites := by decide
  obtain ⟨hline, h8, h9⟩ := settle_coils hcoil hr
  have hw1 := (settleLine_writes hcoil).mono hsub
  have hw8 := hw1.trans (settleLasting_tripAnom (.inl rfl) hline (hw1.rising hr) ((hw1.tripAnom hr).trans htrip))
  have hw9 := hw8.trans (settleLasting_tripAnom (.inr rfl) h8 (hw8.rising hr) ((hw8.tripAnom hr).trans htrip))
  exact hw9.trans ((settleLine_writes h9).mono hsub)

/-! ## A pilot trip (R186) -/

/-- With the coils off there is no contactor to open. -/
theorem openNow_off (first second : Bool) : openNow first second s = s := by
  obtain ⟨hk1, hk2⟩ := Bool.or_eq_false_iff.mp hcoil
  simp [openNow, hk1, hk2]

omit hcoil in
/-- The trip `bit` as it is held and shown, with the arm cleared. -/
def tripMarked (bit : Nat) (s : State) : State :=
  (s |> setF Reg.SAFE_STATUS_HELD (held s ||| 2 ^ bit) |> setF Reg.SAFE_STATUS_SEEN (getF s Reg.SAFE_STATUS_SEEN ||| 2 ^ bit)
    |> setF Reg.SAFE_LAST_CAUSE bit |> clearArm).updSup fun u =>
      { u with trip3s := true, reclOff := u.reclOff &&& ~~~(BitVec.ofNat 16 (2 ^ bit)) }

omit hcoil in
theorem tripMarked_writes :
    Writes tripWrites (setF Reg.SAFE_STATUS_HELD (held s ||| 2 ^ 5) s) (tripMarked 5 s) := by
  have hseen : Writes tripWrites (setF Reg.SAFE_STATUS_HELD (held s ||| 2 ^ 5) s) (setF Reg.SAFE_STATUS_SEEN
      (getF s Reg.SAFE_STATUS_SEEN ||| 2 ^ 5) (setF Reg.SAFE_STATUS_HELD (held s ||| 2 ^ 5) s)) :=
    setF_writes (.refl _) (by decide) (by decide)
  have hlast := setF_writes (f := Reg.SAFE_LAST_CAUSE) (v := 5) hseen (by decide) (by decide)
  exact updSup_writes (clearArm_writes hlast (by decide))

omit hcoil in
theorem stopPwm_writes : Writes lineWrites s (stopPwm s) := (updPilot_writes (.refl s)).trans driveLine_writes

theorem coilOff_supervisorStop : coilOn (supervisorStop s) = false := by
  have hdrive : Settles reportFields _ (stopPwm s) := driveLine_settles
  exact hdrive.coilOn.trans hcoil

/-- A pilot trip: what it writes beside the cause held. -/
theorem tripCore_writes (value : Nat) :
    Writes tripWrites (setF Reg.SAFE_STATUS_HELD (held s ||| 2 ^ 5) s) (tripCore 5 value s) := by
  have hsub : lineWrites ⊆ tripWrites := by decide
  have hstop : Writes tripWrites (tripMarked 5 s) (supervisorStop (tripMarked 5 s)) := fence_writes (stopPwm_writes.mono hsub)
  have hopen : openNow true true (supervisorStop (tripMarked 5 s)) = supervisorStop (tripMarked 5 s) :=
    openNow_off (coilOff_supervisorStop (s := tripMarked 5 s) hcoil) ..
  have hdrive : Writes tripWrites _ (driveLine (openNow true true (supervisorStop (tripMarked 5 s)))) :=
    driveLine_writes.mono hsub
  rw [hopen] at hdrive
  refine logViolation_writes (setF_writes (logEvent_writes (setF_writes (raiseHw_writes ?_) (by decide) (by decide)))
    (by decide) (by decide))
  show Writes tripWrites _ (driveLine (openNow true true (supervisorStop (tripMarked 5 s))))
  rw [hopen]
  exact (tripMarked_writes.trans hstop).trans hdrive

theorem coilOff_tripCore (value : Nat) : coilOn (tripCore 5 value s) = false := by
  obtain ⟨hk1, hk2⟩ := Bool.or_eq_false_iff.mp hcoil
  have hcalm : Calm quiet s (tripCore 5 value s) := tripCore_calm (.refl s) (by decide)
  exact Bool.or_eq_false_iff.mpr ⟨hcalm.k1 hk1, hcalm.k2 hk2⟩

/-- The pilot trip is held, and the code of its trip row and the diode's result stand as they were. -/
theorem pilotTrip_gives {value : Nat} (hr : risingFrom 0 s.regs = true)
    (hcode : 1 ≤ getF s Reg.VI_PILOT_ANOM ∧ getF s Reg.VI_PILOT_ANOM ≤ 6) : holds 5 (trip 5 value s) = true ∧
      getF (trip 5 value s) Reg.VI_PILOT_ANOM = getF s Reg.VI_PILOT_ANOM ∧
      getF (trip 5 value s) Reg.VI_DIODE_RESULT = getF s Reg.VI_DIODE_RESULT := by
  have hcore := tripCore_writes hcoil value
  have hrheld := setF_regs_rising hr Reg.SAFE_STATUS_HELD (held s ||| 2 ^ 5)
  have hrcore := hcore.rising hrheld
  have hanom : getF (tripCore 5 value s) Reg.VI_PILOT_ANOM = getF s Reg.VI_PILOT_ANOM :=
    (hcore.reads hrheld _ (by decide)).trans (getF_setF_other hr (by decide) _)
  have hdiode : getF (tripCore 5 value s) Reg.VI_DIODE_RESULT = getF s Reg.VI_DIODE_RESULT :=
    (hcore.reads hrheld _ (by decide)).trans (getF_setF_other hr (by decide) _)
  have hheld : holds 5 (tripCore 5 value s) = true := by
    unfold holds
    rw [held, hcore.reads hrheld _ (by decide), getF_setF_same hr, Nat.testBit_mod_two_pow, Nat.testBit_or,
      Nat.testBit_two_pow_self]
    simp [Reg.SAFE_STATUS_HELD]
  have htrip : tripAnom (tripCore 5 value s) = true := tripAnom_iff.mpr ⟨hheld, by rwa [hanom]⟩
  have hsettle := settle_tripAnom (coilOff_tripCore hcoil value) hrcore htrip
  have hread {f : Field} (hf : f.beside countWrites = true) : getF (trip 5 value s) f = getF (tripCore 5 value s) f :=
    hsettle.reads hrcore f hf
  refine ⟨?_, (hread (by decide)).trans hanom, (hread (by decide)).trans hdiode⟩
  have hsame : held (trip 5 value s) = held (tripCore 5 value s) := hread (by decide)
  unfold holds
  rw [hsame]
  exact hheld

end

end

end Sys2Proof.Machine
end

section
/-! SUPPORT. Samples of the high plateau on a steady line, and the reports of A and B that they bring (07 R122, R123, R128). -/
namespace Sys2Proof.Machine

section
variable {s : State} {mv : BitVec 16}

/-! ## One sample -/

/-- The monitor as it counts a high-plateau sample in its band. -/
def Monitor.counted (mv : BitVec 16) (m : Monitor) : Monitor :=
  { m with
    band := some (plateauBand m.band mv.toInt)
    run := if m.band = some (plateauBand m.band mv.toInt) then m.run + 1 else 1 }

/-- The monitor after a high-plateau sample. -/
def Monitor.sampled (mv : BitVec 16) (m : Monitor) : Monitor := (m.counted mv).judge false

/-- The sample is counted and shown. -/
def sampledHigh (mv : BitVec 16) (s : State) : State :=
  setF Reg.VI_PLATEAU_HIGH mv.toNat (s.updPilot fun p => { p with mon := p.mon.sampled mv })

/-- On a steady line every sample is one of the high plateau (R121). -/
theorem pilotSample_steady (k : Fin 50) (hline : s.pilot.line = .plus12) :
    pilotSample s ⟨k, mv⟩ = concludeSample mv.toNat (sampledHigh mv s) := by
  have hon : ¬(!monitorOn s) = true := by simp [monitorOn, hline]
  have hlevel : levelAt k s = .high := if_pos (by rw [hline]; nofun)
  unfold pilotSample
  rw [if_neg hon, hlevel]
  rfl

/-- A or B on a line with no low plateau meets no anomaly (R130). -/
theorem meets_none {m : Monitor} (hband : m.band = some .a ∨ m.band = some .b) (hlow : m.low = none) (k : Nat) :
    meets k false m = false := by
  unfold meets
  rcases hband with hband | hband <;> (split <;> simp [hband, hlow])

theorem one_le_filt (s : State) : 1 ≤ filt s := Nat.le_max_left ..

/-- With no count no anomaly is recognised. -/
theorem recognised_none (hclear : ∀ i, s.pilot.mon.viol.get i = 0) : recognised s = none := by
  have hcounts := one_le_filt s
  have hnone : ∀ i : Fin 5, ¬(decide (filt s ≤ s.pilot.mon.viol.get i) &&
      !(holds 5 s && getF s Reg.VI_PILOT_ANOM == i.val + 1)) = true := by
    intro i
    rw [hclear i, decide_eq_false (by omega), Bool.false_and]
    nofun
  unfold recognised
  rw [List.find?_eq_none.mpr fun i _ => hnone i]
  rfl

section
variable {band : Band} (hlow : s.pilot.mon.low = none) (hband : plateauBand s.pilot.mon.band mv.toInt = band)
  (hab : band = .a ∨ band = .b)
include hband

theorem sampledHigh_band : (sampledHigh mv s).pilot.mon.band = some band := congrArg some hband

theorem sampledHigh_run : (sampledHigh mv s).pilot.mon.run =
    if s.pilot.mon.band = some band then s.pilot.mon.run + 1 else 1 := by
  subst hband
  rfl

include hlow hab

theorem sampledHigh_recognised : recognised (sampledHigh mv s) = none := by
  have hcounted : (s.pilot.mon.counted mv).band = some band := congrArg some hband
  refine recognised_none fun i => ?_
  have hnone : meets (i.val + 1) false (s.pilot.mon.counted mv) = false :=
    meets_none (m := s.pilot.mon.counted mv) (by rw [hcounted]; exact hab.imp (congrArg some) (congrArg some)) hlow _
  show (Vector.ofFn _).get i = 0
  rw [Vector.get_ofFn]
  exact if_neg (by rw [hnone]; nofun)

/-- CP_FILT samples in a row of A or B are the new state; before that nothing is reported (R123). -/
theorem concludeSample_eq {code : Nat} (hcode : bandCode band = some code) : concludeSample mv.toNat (sampledHigh mv s) =
    if filt s ≤ (if s.pilot.mon.band = some band then s.pilot.mon.run + 1 else 1) ∧
      code ≠ getF (sampledHigh mv s) Reg.VI_PILOT_STATE then newState code mv.toNat (sampledHigh mv s) else sampledHigh mv s := by
  unfold concludeSample
  rw [sampledHigh_recognised hlow hband hab, sampledHigh_band hband]
  dsimp only
  rw [Option.bind_some, hcode, sampledHigh_run hband]
  rfl

end

/-! ## The new state -/

/-- CHATTER is cleared at the next state (R130). -/
def chatterCleared (s : State) : State := if getF s Reg.VI_PILOT_ANOM = 7 then setF Reg.VI_PILOT_ANOM 0 s else s

theorem chatterCleared_writes : Writes settleWrites s (chatterCleared s) :=
  .when (.refl s) fun h => setF_writes h (by decide) (by decide)

theorem chatterCleared_settles : Settles lineFields s (chatterCleared s) :=
  .when (.refl s) fun h => setF_settles h (by decide)

/-- The vehicle is plugged in: a self-test is due and a diode test pulse goes out (R123, R128). -/
def pluggedIn (s : State) : State :=
  (askTest true false none (standbyExit (reported 0xB (chatterCleared s)))).updPilot fun p => { p with diodeDue := true }

/-- The vehicle has left: the arm is cleared, the session ends, and the plug-in is over (R123, R137, R149, R191). -/
def vehicleLeft (s : State) : State :=
  setF Reg.SAFE_RECLOSE_CFG_COUNT 0 ((disconnected 0xA (chatterCleared s)).updHlc fun h => { h with matched := false })

theorem showWaiting_cases : showWaiting s = s ∨ showWaiting s = setF Reg.SAFE_RCM_TEST_RESULT 7 s := by
  unfold showWaiting
  split
  · exact .inr rfl
  · exact .inl rfl

theorem joinTest_due {plugIn : Bool} {ts us : List SelfTest} (h : joinTest plugIn ts = some us) : us ≠ [] := by
  cases ts with
  | nil => exact absurd h nofun
  | cons t ts =>
    rw [joinTest] at h
    split at h
    · rw [← Option.some.inj h]
      nofun
    · obtain ⟨vs, -, rfl⟩ := Option.map_eq_some_iff.mp h
      nofun

/-- A self-test that comes due: a test waits, and no other part of the state changes (R176). -/
theorem askTest_due (plugIn : Bool) (s : State) : ∃ ts, ts ≠ [] ∧
    askTest plugIn false none s = showWaiting (s.updSup fun u => { u with tests := ts }) := by
  refine ⟨_, ?_, rfl⟩
  rw [if_neg (by simp)]
  cases hjoin : joinTest plugIn s.sup.tests with
  | none => simp
  | some us => exact joinTest_due hjoin

theorem coilOn_chatterCleared : coilOn (chatterCleared s) = coilOn s := chatterCleared_settles.coilOn

/-- The outlet awake at the plug-in: STANDBY has ended. -/
def awake (s : State) : State := standbyExit (reported 0xB (chatterCleared s))

theorem coilOn_awake : coilOn (awake s) = coilOn s := by
  have hsw : (awake s).sw = (reported 0xB (chatterCleared s)).sw := standbyExit_sw _
  rw [coilOn, hsw]
  exact (coilOn_reported 0xB).trans coilOn_chatterCleared

theorem chatterCleared_pilot : (chatterCleared s).pilot = s.pilot := by
  unfold chatterCleared
  split <;> rfl

theorem awake_pilot : (awake s).pilot = s.pilot := by
  rw [awake, standbyExit_pilot, reported, raiseHw_pilot, setF_pilot, chatterCleared_pilot]

/-- The plug-in's test waits, and its diode pulse awaits evaluation. -/
theorem pluggedIn_eq : ∃ ts, ts ≠ [] ∧ pluggedIn s =
    (showWaiting ((awake s).updSup fun u => { u with tests := ts })).updPilot fun p => { p with diodeDue := true } := by
  obtain ⟨ts, hdue, heq⟩ := askTest_due true (awake s)
  exact ⟨ts, hdue, congrArg (fun t => State.updPilot t fun p => { p with diodeDue := true }) heq⟩

theorem showWaiting_sw : (showWaiting s).sw = s.sw := by rcases showWaiting_cases (s := s) with h | h <;> rw [h]; rfl
theorem showWaiting_sup : (showWaiting s).sup = s.sup := by rcases showWaiting_cases (s := s) with h | h <;> rw [h]; rfl
theorem showWaiting_pilot : (showWaiting s).pilot = s.pilot := by rcases showWaiting_cases (s := s) with h | h <;> rw [h]; rfl

theorem coilOn_pluggedIn : coilOn (pluggedIn s) = coilOn s := by
  obtain ⟨ts, -, heq⟩ := pluggedIn_eq (s := s)
  have hsw : (pluggedIn s).sw = (awake s).sw := by
    rw [heq, State.updPilot_sw, showWaiting_sw, State.updSup_sw]
  rw [coilOn, hsw]
  exact coilOn_awake

/-- Only changes among B, C and D are counted for CHATTER. -/
theorem countMove_a {st value : Nat} : countMove 0xA st value s = s := if_neg (by omega)

theorem countMove_to_a {was value : Nat} : countMove was 0xA value s = s := if_neg (by omega)

/-- From A to B, with the coils off. -/
theorem newState_pluggedIn {value : Nat} (hcoil : coilOn s = false) (hline : s.pilot.line = .plus12)
    (hwas : getF s Reg.VI_PILOT_STATE = 0xA) : newState 0xB value s = settle (pluggedIn s) := by
  have hacts : reportActs 0xA 0xB (report 0xB (chatterCleared s)) = report 0xB (chatterCleared s) :=
    reportActs_off ((coilOn_reported 0xB).trans (coilOn_chatterCleared.trans hcoil))
  have hpulse : pulseDue 0xA 0xB (askTest true false none (awake s)) = true := by
    obtain ⟨ts, -, heq⟩ := askTest_due true (awake s)
    have hsame : (askTest true false none (awake s)).pilot.line = .plus12 := by
      rw [heq, showWaiting_pilot, State.updSup_pilot, awake_pilot, hline]
    simp [pulseDue, hsame]
  have hstart : newState 0xB value s = countMove 0xA 0xB value (settle
      (if pulseDue 0xA 0xB (askTest true false none (standbyExit (reportActs 0xA 0xB (report 0xB (chatterCleared s))))) then
        (askTest true false none (standbyExit (reportActs 0xA 0xB (report 0xB (chatterCleared s))))).updPilot
          fun p => { p with diodeDue := true }
       else askTest true false none (standbyExit (reportActs 0xA 0xB (report 0xB (chatterCleared s)))))) := by
    unfold newState
    dsimp only
    rw [hwas]
    rfl
  have hawake : standbyExit (report 0xB (chatterCleared s)) = awake s := rfl
  rw [hstart, hacts, hawake, if_pos hpulse, countMove_a]
  rfl

/-- With nothing of them held, an unplugged vehicle releases no cause (R186). -/
theorem unplugged_none (hheld : held s = 0) : unplugged s = s := by
  have hfree (bit : Nat) : release bit s = s := if_pos (by rw [holds, hheld, Nat.zero_testBit]; rfl)
  unfold unplugged
  rw [hfree 0, hfree 1, hfree 5, hfree 6]

theorem coilOn_vehicleLeft (hcoil : coilOn s = false) : coilOn (vehicleLeft s) = false := by
  have hdisc : Settles reportFields (clearArm (reported 0xA (chatterCleared s))) (disconnected 0xA (chatterCleared s)) :=
    hlcEnd_settles (.refl _) (by rw [coilOn_clearArm, coilOn_reported, coilOn_chatterCleared, hcoil])
  have hsame : coilOn (vehicleLeft s) = coilOn (disconnected 0xA (chatterCleared s)) := rfl
  rw [hsame, hdisc.coilOn, coilOn_clearArm, coilOn_reported, coilOn_chatterCleared, hcoil]

section
variable (hcoil : coilOn s = false) (hr : risingFrom 0 s.regs = true)
include hcoil hr

theorem vehicleLeft_rising : risingFrom 0 (vehicleLeft s).regs = true := by
  have hdisc := disconnected_writes (s := chatterCleared s) (st := 0xA) (coilOn_chatterCleared.trans hcoil)
  exact setF_regs_rising (s := (disconnected 0xA (chatterCleared s)).updHlc _)
    (hdisc.rising (chatterCleared_writes.rising hr)) _ _

/-- What the departure leaves: the arm cleared, the match gone, and no reclosure counted. -/
theorem vehicleLeft_gives : getF (vehicleLeft s) Reg.CONT_STATUS_ARMED = 0 ∧ (vehicleLeft s).hlc.matched = false ∧
    getF (vehicleLeft s) Reg.SAFE_RECLOSE_CFG_COUNT = 0 ∧ held (vehicleLeft s) = held s := by
  have hcoil' : coilOn (chatterCleared s) = false := coilOn_chatterCleared.trans hcoil
  have hr' := (chatterCleared_writes (s := s)).rising hr
  have hreported := (reported_writes (s := chatterCleared s) 0xA).rising hr'
  have hdisc := disconnected_writes (s := chatterCleared s) (st := 0xA) hcoil'
  have hrdisc : risingFrom 0 ((disconnected 0xA (chatterCleared s)).updHlc fun h => { h with matched := false }).regs = true :=
    hdisc.rising hr'
  have harmed : getF (disconnected 0xA (chatterCleared s)) Reg.CONT_STATUS_ARMED = 0 := by
    have hend : Writes lineWrites (clearArm (reported 0xA (chatterCleared s))) (disconnected 0xA (chatterCleared s)) :=
      hlcEnd_writes (by rw [coilOn_clearArm, coilOn_reported, hcoil'])
    have hrarm := (clearArm_writes (.refl (reported 0xA (chatterCleared s))) (fs := lineWrites) (by decide)).rising hreported
    exact hend.disarmed hrarm (clearArm_armed hreported)
  refine ⟨?_, rfl, getF_setF_same hrdisc _ _, ?_⟩
  · exact (getF_setF_other hrdisc (by decide) _).trans harmed
  · exact ((getF_setF_other hrdisc (by decide) _).trans (hdisc.reads hr' _ (by decide))).trans
      (chatterCleared_writes.reads hr _ (by decide))

/-- From B to A, with the coils off and no cause held. -/
theorem newState_vehicleLeft {value : Nat} (hheld : held s = 0) (hwas : getF s Reg.VI_PILOT_STATE = 0xB) :
    newState 0xA value s = settle (vehicleLeft s) := by
  have hcoilLeft := coilOn_vehicleLeft hcoil
  obtain ⟨-, -, -, hsame⟩ := vehicleLeft_gives hcoil hr
  have hacts : reportActs 0xB 0xA (report 0xA (chatterCleared s)) = vehicleLeft s := reportActs_off hcoilLeft
  have hstart : newState 0xA value s =
      countMove 0xB 0xA value (settle (unplugged (reportActs 0xB 0xA (report 0xA (chatterCleared s))))) := by
    have hquiet (t : State) : pulseDue 0xB 0xA t = false := by simp [pulseDue]
    unfold newState
    dsimp only
    rw [hwas, hquiet]
    rfl
  rw [hstart, hacts, countMove_to_a, unplugged_none (hsame.trans hheld)]

end

end

end Sys2Proof.Machine
end

section
/-! SUPPORT. The pilot line with PILOT_PWM 0 and no trip, and what the monitor shows when the vehicle is plugged in and when it
leaves (07 R122, R123, R126, R128). -/
namespace Sys2Proof.Machine

section
variable {s t : State}

/-! ## The line with PILOT_PWM 0 and no trip -/

/-- Something puts the line at -12 V, but for a trip and the mode (R21, R26, R186). -/
def drivenF (s : State) : Bool :=
  s.sys.role == .repeater || s.sys.vsysLow || s.sys.pfwConfirmed || s.sup.trip3s ||
    (outletHeld s && openSession s == 0) || s.pilot.formeF

/-- Without PILOT_PWM the line does not follow the report, nor the difference between STANDBY and the role mode. -/
theorem serviceLine_unasked (hheld : held s = 0) (hreq : s.pilot.pwmReq = false) :
    serviceLine s = if drivenF s then .minus12 else .plus12 := by
  have hunwanted : pwmWanted s = false := by simp [pwmWanted, hreq]
  unfold serviceLine drivenF
  rw [hunwanted]
  by_cases hfirst : s.sys.role = .repeater ∨ s.sys.vsysLow ∨ s.sys.pfwConfirmed
  · rw [if_pos hfirst]
    rcases hfirst with h | h | h <;> simp [h]
  · rw [if_neg hfirst, if_neg (by simp [hheld])]
    obtain ⟨hrole, hvsys, hpfw⟩ : ¬s.sys.role = .repeater ∧ s.sys.vsysLow = false ∧ s.sys.pfwConfirmed = false := by
      simpa [not_or] using hfirst
    simp [hrole, hvsys, hpfw]

theorem pilotLine_inService (hm : inService s.sys.mode = true) :
    pilotLine s = if s.sys.booted then serviceLine s else .minus12 := by
  unfold pilotLine
  cases hmode : s.sys.mode <;> simp [hmode, inService] at hm ⊢

theorem inService_of_plus12 (h : pilotLine s = .plus12) : inService s.sys.mode = true := by
  by_contra hout
  unfold pilotLine at h
  cases hmode : s.sys.mode <;> simp [hmode, inService] at hout h
  split at h <;> cases h

theorem inService_roleMode (r : Role) : inService (roleMode r) = true := by cases r <;> rfl

/-- The line stays from one mode in service to another, where what drives it stays. -/
theorem pilotLine_stays (hline : pilotLine s = .plus12) (hms : inService t.sys.mode = true) (hboot : t.sys.booted = s.sys.booted)
    (hserve : serviceLine t = serviceLine s) : pilotLine t = .plus12 := by
  rw [pilotLine_inService (inService_of_plus12 hline)] at hline
  rw [pilotLine_inService hms, hboot, hserve, hline]

theorem Settles.drivenF (h : Settles lineFields s t) (hr : risingFrom 0 s.regs = true) : drivenF t = drivenF s := by
  have hsession : openSession t = openSession s := h.reads hr _ (by decide)
  unfold Machine.drivenF
  rw [h.role, h.vsysLow, h.pfwConfirmed, h.sup, h.outletHeld hr, hsession, h.formeF]

/-- The report and what it starts leave the line at +12 V. -/
theorem pilotLine_unasked (h : Settles lineFields s t) (hr : risingFrom 0 s.regs = true) (hheld : held s = 0)
    (hreq : s.pilot.pwmReq = false) (hline : pilotLine s = .plus12) : pilotLine t = .plus12 := by
  refine pilotLine_stays hline ?_ h.booted ?_
  · rw [h.mode]
    exact inService_of_plus12 hline
  · rw [serviceLine_unasked hheld hreq, serviceLine_unasked ((h.held hr).trans hheld) (h.pwmReq.trans hreq), h.drivenF hr]

/-- Settling at +12 V drives the line, and the report stays (R127). -/
theorem settle_plus12 (hcoil : coilOn s = false) (hr : risingFrom 0 s.regs = true) (hline : pilotLine s = .plus12) :
    Settles reportFields s (settle s) := by
  have hdrives {u : State} (hu : pilotLine u = .plus12) : settleLine u = driveLine u := by
    have hl : (driveLine u).pilot.line = .plus12 := by
      rw [driveLine_steady hu nofun]
      rfl
    exact if_neg fun h => by rw [hl] at h; cases h.1
  have hfirst : Settles reportFields s (driveLine s) := driveLine_settles
  have hmid := hfirst.trans (lastings_settle (hfirst.coilOn.trans hcoil))
  unfold settle
  rw [hdrives hline, hdrives ((hmid.pilotLine hr).trans hline)]
  exact hmid.trans driveLine_settles

/-! ## The vehicle is plugged in -/

/-- The role mode as STANDBY ends, before its doorbell. -/
def roleBack (s : State) : State := State.inMode (roleMode s.sys.role) (s.updSys fun y => { y with standbyReady := false })

/-- STANDBY ends in the role mode; of the rest only the doorbell of mailbox 0 and the spare core change. -/
theorem standbyExit_cases (s : State) : standbyExit s = s ∨ s.sys.mode = .standby ∧ standbyExit s = ringOut 0 0 (roleBack s) := by
  by_cases hmode : s.sys.mode = .standby
  · refine .inr ⟨hmode, ?_⟩
    have hother : (s.updSys fun y => { y with standbyReady := false }).sys.mode ≠ roleMode s.sys.role := by
      show s.sys.mode ≠ _
      rw [hmode]
      cases s.sys.role <;> nofun
    exact (if_pos hmode).trans (enterMode_other hother)
  · exact .inl (if_neg hmode)

theorem ringOut_settles {d : Nat} : Settles reportFields s (ringOut 0 d s) := setF_settles (.refl s) (by decide)

theorem ringOut_writes {d : Nat} : Writes [Reg.MB_OUT_PEND_PEND 0] s (ringOut 0 d s) := setF_writes (.refl s) (by decide) (by decide)

theorem standbyExit_writes : Writes [Reg.MB_OUT_PEND_PEND 0] s (standbyExit s) := by
  rcases standbyExit_cases s with h | ⟨-, h⟩ <;> rw [h]
  · exact .refl s
  · exact (Writes.of_regs (s := s) (t := roleBack s) rfl rfl).trans ringOut_writes

/-- With PILOT_PWM 0 the line drives the same when STANDBY has ended (R28). -/
theorem standbyExit_line (hr : risingFrom 0 s.regs = true) (hheld : held s = 0) (hreq : s.pilot.pwmReq = false)
    (hline : pilotLine s = .plus12) : held (standbyExit s) = 0 ∧ pilotLine (standbyExit s) = .plus12 := by
  rcases standbyExit_cases s with h | ⟨-, h⟩ <;> rw [h]
  · exact ⟨hheld, hline⟩
  · have hrole : pilotLine (roleBack s) = .plus12 := by
      refine pilotLine_stays hline (inService_roleMode _) rfl ?_
      rw [serviceLine_unasked hheld hreq, serviceLine_unasked (by exact hheld) (by exact hreq)]
      rfl
    have hring := ringOut_settles (s := roleBack s) (d := 0)
    exact ⟨(hring.weaken.held hr).trans hheld, (hring.pilotLine hr).trans hrole⟩

/-- What a plug-in writes. -/
def plugWrites : List Field := Reg.SAFE_RCM_TEST_RESULT :: settleWrites

theorem awake_writes : Writes settleWrites s (awake s) :=
  (chatterCleared_writes.trans ((reported_writes 0xB).mono (by decide))).trans (standbyExit_writes.mono (by decide))

theorem showWaiting_writes : Writes plugWrites s (showWaiting s) := by
  rcases showWaiting_cases (s := s) with h | h <;> rw [h]
  · exact .refl s
  · exact setF_writes (.refl s) (by decide) (by decide)

theorem showWaiting_settles : Settles reportFields s (showWaiting s) := by
  rcases showWaiting_cases (s := s) with h | h <;> rw [h]
  · exact .refl s
  · exact setF_settles (.refl s) (by decide)

theorem pluggedIn_writes : Writes plugWrites s (pluggedIn s) := by
  obtain ⟨ts, -, heq⟩ := pluggedIn_eq (s := s)
  rw [heq]
  have hawake := (awake_writes (s := s)).mono (gs := plugWrites) (List.subset_cons_self ..)
  exact updPilot_writes ((updSup_writes hawake).trans showWaiting_writes)

theorem pluggedIn_tests : (pluggedIn s).sup.tests ≠ [] := by
  obtain ⟨ts, hdue, heq⟩ := pluggedIn_eq (s := s)
  rw [heq, State.updPilot_sup, showWaiting_sup]
  exact hdue

theorem pluggedIn_due : (pluggedIn s).pilot.diodeDue = true := rfl

/-- The state is reported, and with PILOT_PWM 0 the line stays at +12 V. -/
theorem pluggedIn_line (hr : risingFrom 0 s.regs = true) (hheld : held s = 0) (hreq : s.pilot.pwmReq = false)
    (hline : pilotLine s = .plus12) :
    getF (pluggedIn s) Reg.VI_PILOT_STATE = 0xB ∧ pilotLine (pluggedIn s) = .plus12 := by
  have hclear : Settles lineFields s (chatterCleared s) := chatterCleared_settles
  have hrc := hclear.rising hr
  have hrep : Settles lineFields s (reported 0xB (chatterCleared s)) := raiseHw_settles (setF_settles hclear (by decide))
  have hrr := hrep.rising hr
  obtain ⟨-, hlawake⟩ := standbyExit_line hrr ((hrep.held hr).trans hheld) (hrep.pwmReq.trans hreq)
    (pilotLine_unasked hrep hr hheld hreq hline)
  have hstate : getF (awake s) Reg.VI_PILOT_STATE = 0xB :=
    (standbyExit_writes.reads hrr _ (by decide)).trans (reported_state hrc (by decide))
  have hra : risingFrom 0 (awake s).regs = true := awake_writes.rising hr
  obtain ⟨ts, -, heq⟩ := pluggedIn_eq (s := s)
  have hshow := showWaiting_settles (s := (awake s).updSup fun u => { u with tests := ts })
  rw [heq]
  exact ⟨(hshow.reads hra _ (by decide)).trans hstate, (hshow.pilotLine hra).trans hlawake⟩

end

end Sys2Proof.Machine
end

section
/-! SUPPORT. What the monitor's samples and a diode test pulse give (07 R122, R123, R128, R130). -/
namespace Sys2Proof.Machine

section
variable {s : State}

/-- What the supervisor does while its domain is powered. -/
theorem gives_supervised {c : Instr} {f : State → State} {P : State → Prop} (hexec : exec c s = supervised f s)
    (hon : domainOn 2 s = true) (h : P (f s)) : Gives c s P := ⟨f s, by rw [hexec, supervised, if_pos hon], h⟩

/-! ## Samples -/

section
variable {mv : BitVec 16}

theorem sampledHigh_settles : Settles reportFields s (sampledHigh mv s) :=
  setF_settles (updPilot_settles (.refl s) rfl id) (by decide)

theorem sampledHigh_shown (hr : risingFrom 0 s.regs = true) : getF (sampledHigh mv s) Reg.VI_PLATEAU_HIGH = mv.toNat :=
  (getF_setF_same (s := s.updPilot _) hr _ _).trans (Nat.mod_eq_of_lt mv.isLt)

theorem sampledHigh_state (hr : risingFrom 0 s.regs = true) :
    getF (sampledHigh mv s) Reg.VI_PILOT_STATE = getF s Reg.VI_PILOT_STATE := sampledHigh_settles.reads hr _ (by decide)

variable {k : Fin 50} {P : State → Prop} (hon : domainOn 2 s = true) (hline : s.pilot.line = .plus12)
  (hlow : s.pilot.mon.low = none)
include hon hline hlow

omit hlow in
/-- The one sample of a PILOT_STATE_CHANGE with no other. -/
theorem gives_sample (h : P (concludeSample mv.toNat (sampledHigh mv s))) : Gives (.pilotStateChange ⟨k, mv⟩ []) s P := by
  refine gives_supervised (f := fun s => [(⟨k, mv⟩ : PilotSample)].foldl pilotSample s) rfl hon ?_
  show P (pilotSample s ⟨k, mv⟩)
  rwa [pilotSample_steady k hline]

variable {band : Band} (hband : plateauBand s.pilot.mon.band mv.toInt = band)
include hband

/-- CP_FILT samples in a row in A or B are the new state. -/
theorem gives_newState {code : Nat} (hab : band = .a ∨ band = .b) (hcode : bandCode band = some code)
    (hr : risingFrom 0 s.regs = true) (hrun : filt s ≤ if s.pilot.mon.band = some band then s.pilot.mon.run + 1 else 1)
    (hmoves : code ≠ getF s Reg.VI_PILOT_STATE) (h : P (newState code mv.toNat (sampledHigh mv s))) :
    Gives (.pilotStateChange ⟨k, mv⟩ []) s P := by
  refine gives_sample hon hline ?_
  rwa [concludeSample_eq hlow hband hab hcode, sampledHigh_state hr, if_pos ⟨hrun, hmoves⟩]

/-- Fewer samples than CP_FILT are counted, and nothing else. -/
theorem gives_counted {code : Nat} (hab : band = .a ∨ band = .b) (hcode : bandCode band = some code)
    (hrun : (if s.pilot.mon.band = some band then s.pilot.mon.run + 1 else 1) < filt s) (h : P (sampledHigh mv s)) :
    Gives (.pilotStateChange ⟨k, mv⟩ []) s P := by
  refine gives_sample hon hline ?_
  rwa [concludeSample_eq hlow hband hab hcode, if_neg fun hboth => absurd hboth.1 (by omega)]

end

theorem Settles.diodeDue {fs : List Field} {t : State} (h : Settles fs s t) : t.pilot.diodeDue = s.pilot.diodeDue :=
  h.ofPilot (·.diodeDue)

/-- From A to B: the high plateau is shown and a self-test waits; with PILOT_PWM 0 the report is B and a diode pulse is due. -/
theorem settle_pluggedIn (hcoil : coilOn s = false) (hr : risingFrom 0 s.regs = true) (hheld : held s = 0) :
    getF (settle (pluggedIn s)) Reg.VI_PLATEAU_HIGH = getF s Reg.VI_PLATEAU_HIGH ∧ (settle (pluggedIn s)).sup.tests ≠ [] ∧
      (pilotLine s = .plus12 → s.pilot.pwmReq = false →
        getF (settle (pluggedIn s)) Reg.VI_PILOT_STATE = 0xB ∧ (settle (pluggedIn s)).pilot.diodeDue = true) := by
  have hcoilIn : coilOn (pluggedIn s) = false := coilOn_pluggedIn.trans hcoil
  have hrIn : risingFrom 0 (pluggedIn s).regs = true := pluggedIn_writes.rising hr
  have hsettles := settle_settles hcoilIn hrIn
  refine ⟨?_, ?_, fun hline hreq => ?_⟩
  · exact ((settle_writes hcoilIn hrIn).reads hrIn _ (by decide)).trans (pluggedIn_writes.reads hr _ (by decide))
  · rw [hsettles.sup]
    exact pluggedIn_tests
  · obtain ⟨hstate, hlineIn⟩ := pluggedIn_line hr hheld hreq hline
    exact ⟨((settle_plus12 hcoilIn hrIn hlineIn).reads hrIn _ (by decide)).trans hstate,
      hsettles.diodeDue.trans pluggedIn_due⟩

/-- From B to A: the arm is cleared, the match is gone, and no reclosure is counted. -/
theorem settle_vehicleLeft (hcoil : coilOn s = false) (hr : risingFrom 0 s.regs = true) :
    getF (settle (vehicleLeft s)) Reg.CONT_STATUS_ARMED = 0 ∧ (settle (vehicleLeft s)).hlc.matched = false ∧
      getF (settle (vehicleLeft s)) Reg.SAFE_RECLOSE_CFG_COUNT = 0 := by
  obtain ⟨harmed, hmatched, hcount, -⟩ := vehicleLeft_gives hcoil hr
  have hrLeft := vehicleLeft_rising hcoil hr
  have hsettle := settle_writes (coilOn_vehicleLeft hcoil) hrLeft
  exact ⟨hsettle.disarmed hrLeft harmed, hsettle.matched.trans hmatched, (hsettle.reads hrLeft _ (by decide)).trans hcount⟩

/-! ## The diode test pulse (R128) -/

/-- A test pulse is evaluated: its low plateau and its result are shown. -/
def diodeShown (low : BitVec 16) (result : Nat) (s : State) : State :=
  raiseHw 0x04 result (setF Reg.VI_DIODE_RESULT result (setF Reg.VI_PLATEAU_LOW low.toNat
    (s.updPilot fun p => { p with diodeDue := false })))

/-- What the evaluation writes. -/
def diodeWrites : List Field := [Reg.VI_DIODE_RESULT, Reg.VI_PLATEAU_LOW]

section
variable {low : BitVec 16} {result : Nat}

theorem diodeShown_writes : Writes diodeWrites s (diodeShown low result s) :=
  raiseHw_writes (setF_writes (setF_writes (updPilot_writes (.refl s)) (by decide) (by decide)) (by decide) (by decide))

theorem coilOn_diodeShown : coilOn (diodeShown low result s) = coilOn s := by simp [coilOn, diodeShown]

theorem diodeShown_gives (hr : risingFrom 0 s.regs = true) (hresult : result < 4) :
    getF (diodeShown low result s) Reg.VI_DIODE_RESULT = result ∧
      getF (diodeShown low result s) Reg.VI_PLATEAU_LOW = low.toNat := by
  have hrlow := setF_regs_rising (s := s.updPilot fun p => { p with diodeDue := false }) hr Reg.VI_PLATEAU_LOW low.toNat
  have hregs : (diodeShown low result s).regs = (setF Reg.VI_DIODE_RESULT result (setF Reg.VI_PLATEAU_LOW low.toNat
    (s.updPilot fun p => { p with diodeDue := false }))).regs := raiseHw_regs ..
  constructor
  · rw [getF, hregs]
    exact (getF_setF_same hrlow _ _).trans (Nat.mod_eq_of_lt hresult)
  · rw [getF, hregs]
    exact ((getF_setF_other hrlow (by decide) _).trans (getF_setF_same (s := s.updPilot _) hr _ _)).trans
      (Nat.mod_eq_of_lt low.isLt)

theorem diodePulse_good (hdue : s.pilot.diodeDue = true) (hlow : lowOf low.toInt = .good) (hwhy : s.sup.pilotWhy ≠ 3) :
    diodePulse low s = diodeShown low 1 s := by
  have hwhy' : (diodeShown low 1 s).sup.pilotWhy ≠ 3 := by rwa [diodeShown, raiseHw_sup]
  unfold diodePulse
  dsimp only
  rw [if_neg (by simp [hdue]), hlow]
  exact (if_pos rfl).trans (if_neg hwhy')

theorem diodePulse_suspect (hdue : s.pilot.diodeDue = true) (hlow : lowOf low.toInt = .suspect)
    (hthere : vehicleThere (diodeShown low 2 s) = true) (hfree : holds 5 (diodeShown low 2 s) = false) :
    diodePulse low s = tripAnomaly 3 low.toNat (diodeShown low 2 s) := by
  unfold diodePulse
  dsimp only
  rw [if_neg (by simp [hdue]), hlow]
  refine (if_neg nofun).trans (if_pos ?_)
  show (true && vehicleThere (diodeShown low 2 s) && !holds 5 (diodeShown low 2 s)) = true
  rw [hthere, hfree]
  rfl

end

theorem lowOf_good {v : Int} (hlo : -13500 ≤ v) (hhi : v ≤ -10500) : lowOf v = .good := by
  rw [lowOf, if_neg (by omega), if_pos hhi]

theorem lowOf_suspect {v : Int} (hlo : -10500 < v) (hhi : v ≤ -1500) : lowOf v = .suspect := by
  rw [lowOf, if_neg (by omega), if_neg (by omega), if_pos hhi]

/-- The anomaly DIODE, as it is shown, counted and announced before its trip. -/
def diodeMarked (value : Nat) (s : State) : State :=
  ((raiseHw 0x01 3 (violation 3 value (setF Reg.VI_PILOT_ANOM 3 (setF Reg.VI_DIODE_RESULT 2 s)))).updSup
    fun u => { u with pilotWhy := 3 }).updPilot fun p => { p with diodeDue := false }

theorem tripAnomaly_diode (value : Nat) : tripAnomaly 3 value s = trip 5 value (diodeMarked value s) := by
  unfold tripAnomaly
  dsimp only
  rw [if_pos rfl, if_neg (by decide : ¬((3 : Nat) = 4 ∨ (3 : Nat) = 6)), diodeMarked]

theorem coilOn_diodeMarked (value : Nat) : coilOn (diodeMarked value s) = coilOn s := by
  have hsw : (diodeMarked value s).sw = s.sw := by
    rw [diodeMarked, State.updPilot_sw, State.updSup_sw, raiseHw_sw, violation, logViolation_sw, incF_sw, setF_sw, setF_sw]
  rw [coilOn, hsw]
  rfl

theorem violation_writes {k value : Nat} (harm : Reg.CONT_STATUS_ARMED.key ≠ (Reg.VI_VIOL_COUNT k).key) :
    Writes [Reg.VI_VIOL_COUNT k] s (violation k value s) :=
  logViolation_writes (setF_writes (.refl s) (List.mem_cons_self ..) harm)

theorem diodeMarked_gives {value : Nat} (hr : risingFrom 0 s.regs = true) :
    risingFrom 0 (diodeMarked value s).regs = true ∧ getF (diodeMarked value s) Reg.VI_PILOT_ANOM = 3 ∧
      getF (diodeMarked value s) Reg.VI_DIODE_RESULT = 2 := by
  have hr1 := setF_regs_rising hr Reg.VI_DIODE_RESULT 2
  have hr2 := setF_regs_rising hr1 Reg.VI_PILOT_ANOM 3
  have hmark : Writes [Reg.VI_VIOL_COUNT 3] (setF Reg.VI_PILOT_ANOM 3 (setF Reg.VI_DIODE_RESULT 2 s)) (diodeMarked value s) :=
    updPilot_writes (updSup_writes (raiseHw_writes (violation_writes (by decide))))
  refine ⟨hmark.rising hr2, ?_, ?_⟩
  · exact (hmark.reads hr2 _ (by decide)).trans (getF_setF_same hr1 _ _)
  · exact ((hmark.reads hr2 _ (by decide)).trans (getF_setF_other hr1 (by decide) _)).trans (getF_setF_same hr _ _)

/-- A diode-suspect pulse trips for DIODE (R130). -/
theorem tripAnomaly_diode_gives {value : Nat} (hcoil : coilOn s = false) (hr : risingFrom 0 s.regs = true) :
    getF (tripAnomaly 3 value s) Reg.VI_DIODE_RESULT = 2 ∧ holds 5 (tripAnomaly 3 value s) = true ∧
      getF (tripAnomaly 3 value s) Reg.VI_PILOT_ANOM = 3 := by
  obtain ⟨hrm, hanom, hresult⟩ := diodeMarked_gives (value := value) hr
  obtain ⟨hheld, hanom', hresult'⟩ := pilotTrip_gives (value := value) ((coilOn_diodeMarked value).trans hcoil) hrm
    (by rw [hanom]; decide)
  rw [tripAnomaly_diode]
  exact ⟨hresult'.trans hresult, hheld, hanom'.trans hanom⟩

theorem diodePulse_suspect_gives {low : BitVec 16} (hcoil : coilOn s = false) (hr : risingFrom 0 s.regs = true)
    (hheld : held s = 0) (hdue : s.pilot.diodeDue = true) (hlow : lowOf low.toInt = .suspect) (hthere : vehicleThere s = true) :
    getF (diodePulse low s) Reg.VI_DIODE_RESULT = 2 ∧ holds 5 (diodePulse low s) = true ∧
      getF (diodePulse low s) Reg.VI_PILOT_ANOM = 3 := by
  have hshown : Writes diodeWrites s (diodeShown low 2 s) := diodeShown_writes
  have hthere' : vehicleThere (diodeShown low 2 s) = true := by
    unfold vehicleThere
    rwa [hshown.reads hr Reg.VI_PILOT_STATE (by decide)]
  have hheld' : held (diodeShown low 2 s) = 0 := (hshown.reads hr _ (by decide)).trans hheld
  have hfree : holds 5 (diodeShown low 2 s) = false := by rw [holds, hheld', Nat.zero_testBit]
  rw [diodePulse_suspect hdue hlow hthere' hfree]
  exact tripAnomaly_diode_gives (coilOn_diodeShown.trans hcoil) (hshown.rising hr)

end

end Sys2Proof.Machine
end

section
/-! SUPPORT. Readings of the cable resistance while the coils are off: three in a new band bring its code (07 R125, R132). -/
namespace Sys2Proof.Machine

/-- What the proximity decoder counts: the band reported, the band of the latest reading, and how many it has had in a row. -/
def Pilot.cable (p : Pilot) : Option Nat × Option Nat × Nat := (p.ppBand, p.ppSeen, p.ppRun)

/-- From `s` to `t` no field is written but those of `fs`, the coils stay off, and the decoder's counts stay. -/
structure CableKept (fs : List Field) (s t : State) : Prop where
  writes : Writes fs s t
  coil : coilOn t = coilOn s
  cable : t.pilot.cable = s.pilot.cable

section
variable {fs gs : List Field} {s t u : State}

theorem CableKept.trans (h : CableKept fs s t) (k : CableKept fs t u) : CableKept fs s u :=
  ⟨h.writes.trans k.writes, k.coil.trans h.coil, k.cable.trans h.cable⟩

theorem CableKept.mono (h : CableKept fs s t) (hsub : fs ⊆ gs) : CableKept gs s t := ⟨h.writes.mono hsub, h.coil, h.cable⟩

theorem Settles.cable (h : Settles gs s t) : t.pilot.cable = s.pilot.cable := h.ofPilot Pilot.cable

theorem settle_cable (hcoil : coilOn s = false) (hr : risingFrom 0 s.regs = true) : CableKept settleWrites s (settle s) :=
  have hsettles := settle_settles hcoil hr
  ⟨settle_writes hcoil hr, hsettles.coilOn, hsettles.cable⟩

theorem CableKept.fence {port : Nat} {arg : Option Word} {by_ : Option (Fin 320)} (h : CableKept fs s t) :
    CableKept fs s (Machine.fence port arg by_ t) := ⟨fence_writes h.writes, h.coil, h.cable⟩

theorem CableKept.lastingEnds {k : Nat} (h : CableKept fs s t) : CableKept fs s (Machine.lastingEnds k t) :=
  ⟨updPilot_writes h.writes, h.coil, h.cable⟩

theorem getF_lastingEnds (k : Nat) (f : Field) : getF (lastingEnds k s) f = getF s f := rfl

/-- ALLOC_CURRENT takes a value, and the line settles (R125). -/
theorem allocate_cable {v : Nat} (hcoil : coilOn s = false) (hr : risingFrom 0 s.regs = true) :
    CableKept settleWrites s (allocate v s) := by
  have hsettle : ∃ b : State, allocate v s = settle b ∧ b.regs = s.regs ∧ b.sw = s.sw ∧ b.hlc = s.hlc ∧
      b.pilot.cable = s.pilot.cable := by
    refine ⟨_, rfl, ?_⟩
    split_ifs <;> exact ⟨rfl, rfl, rfl, rfl⟩
  obtain ⟨b, heq, hregs, hsw, hhlc, hcable⟩ := hsettle
  have hstart : CableKept settleWrites s b := ⟨.of_regs hregs (by rw [hhlc]), by rw [coilOn, hsw]; rfl, hcable⟩
  rw [heq]
  exact hstart.trans (settle_cable (hstart.coil.trans hcoil) (hstart.writes.rising hr))

theorem lowerToCeiling_cable (hcoil : coilOn s = false) (hr : risingFrom 0 s.regs = true) :
    CableKept settleWrites s (lowerToCeiling s) := by
  unfold lowerToCeiling
  split
  · exact (allocate_cable hcoil hr).fence
  · exact ⟨.refl s, rfl, rfl⟩

/-! ## A new band -/

/-- PP_CODE follows its band. -/
def codeShown (code : Nat) (s : State) : State :=
  if code != getF s Reg.VI_PP_CODE then raiseHw 0x02 code (setF Reg.VI_PP_CODE code s) else s

theorem codeShown_cable (code : Nat) : CableKept [Reg.VI_PP_CODE] s (codeShown code s) := by
  unfold codeShown
  split
  · exact ⟨raiseHw_writes (setF_writes (.refl s) (by decide) (by decide)), by simp [coilOn], by rw [raiseHw_pilot, setF_pilot]⟩
  · exact ⟨.refl s, rfl, rfl⟩

theorem codeShown_reads {code : Nat} (hcode : code < 2 ^ 14) (hr : risingFrom 0 s.regs = true) :
    getF (codeShown code s) Reg.VI_PP_CODE = code := by
  unfold codeShown
  split
  · rw [getF, raiseHw_regs]
    exact (getF_setF_same hr _ _).trans (Nat.mod_eq_of_lt hcode)
  · next hsame => exact (bne_eq_false_iff_eq.mp (Bool.eq_false_iff.mpr hsame)).symm

/-- The decoder's new band. -/
def bandTaken (band : Nat) (s : State) : State := s.updPilot fun p => { p with ppBand := some band }

/-- The band is taken, its code shown, and PP_INVALID does not last. -/
def bandShown (band : Nat) (s : State) : State := lastingEnds 10 (codeShown (ppCodeOf band) (bandTaken band s))

theorem bandShown_cable (band : Nat) : CableKept [Reg.VI_PP_CODE] (bandTaken band s) (bandShown band s) :=
  (codeShown_cable _).lastingEnds

theorem bandShown_reads {band : Nat} (hcode : ppCodeOf band < 2 ^ 14) (hr : risingFrom 0 s.regs = true) :
    getF (bandShown band s) Reg.VI_PP_CODE = ppCodeOf band := by
  rw [bandShown, getF_lastingEnds]
  exact codeShown_reads hcode hr

/-- A valid new band, with the coils off, trips nothing. -/
theorem newBand_eq {band ohms : Nat} (hband : ¬(band = 0 ∨ band = 5)) (hcoil : coilOn s = false) :
    newBand band ohms s = settle (lowerToCeiling (bandShown band s)) := by
  have hoff : coilOn (bandShown band s) = false := (bandShown_cable band).coil.trans hcoil
  have hopen : ¬(s.pilot.ppBand.isSome && coilOn (bandShown band s)) = true := by simp [hoff]
  unfold newBand
  dsimp only
  rw [if_neg hband]
  exact congrArg (fun u => settle (lowerToCeiling u)) (if_neg hopen)

/-- What a new band writes. -/
def bandWrites : List Field := Reg.VI_PP_CODE :: settleWrites

/-- A valid new band, with the coils off: its code is shown (R132). -/
theorem newBand_gives {band ohms : Nat} (hband : ¬(band = 0 ∨ band = 5)) (hcode : ppCodeOf band < 2 ^ 14)
    (hcoil : coilOn s = false) (hr : risingFrom 0 s.regs = true) :
    CableKept bandWrites (bandTaken band s) (newBand band ohms s) ∧
      getF (newBand band ohms s) Reg.VI_PP_CODE = ppCodeOf band := by
  have hshown := bandShown_cable (s := s) band
  have hcoil1 : coilOn (bandShown band s) = false := hshown.coil.trans hcoil
  have hr1 : risingFrom 0 (bandShown band s).regs = true := hshown.writes.rising hr
  have hlower := lowerToCeiling_cable hcoil1 hr1
  have hr2 := hlower.writes.rising hr1
  have hsettle := settle_cable (hlower.coil.trans hcoil1) hr2
  rw [newBand_eq hband hcoil]
  refine ⟨(hshown.mono (by decide)).trans ((hlower.trans hsettle).mono (List.subset_cons_self ..)), ?_⟩
  exact ((hsettle.writes.reads hr2 _ (by decide)).trans (hlower.writes.reads hr1 _ (by decide))).trans
    (bandShown_reads hcode hr)

/-! ## Readings -/

/-- A reading is counted in its band and shown. -/
def cableRead (ohms : Nat) (s : State) : State :=
  setF Reg.VI_PP_OHMS (min 0xFFFF ohms) (s.updPilot fun p => { p with
    ppSeen := some (ppBandOf ohms), ppRun := if p.ppSeen = some (ppBandOf ohms) then p.ppRun + 1 else 1 })

theorem ppReading_eq {ohms : Nat} (hfree : getB s Reg.VI_CFG_TETHERED = false) : ppReading s ohms =
    if 3 ≤ (cableRead ohms s).pilot.ppRun ∧ s.pilot.ppBand ≠ some (ppBandOf ohms) then
      newBand (ppBandOf ohms) ohms (cableRead ohms s) else cableRead ohms s := by
  unfold ppReading
  rw [if_neg (by simp [hfree])]
  rfl

/-- A cable of `ohms` Ω, with `n` readings of it in a row. -/
structure CableAt (ohms n : Nat) (s : State) : Prop where
  rising : risingFrom 0 s.regs = true
  coil : coilOn s = false
  measured : getB s Reg.VI_CFG_TETHERED = false
  shown : 0 < n → getF s Reg.VI_PP_OHMS = ohms
  run : n = 0 ∨ s.pilot.ppSeen = some (ppBandOf ohms) ∧ n ≤ s.pilot.ppRun
  code : s.pilot.ppBand = some (ppBandOf ohms) → getF s Reg.VI_PP_CODE = ppCodeOf (ppBandOf ohms)
  band : 3 ≤ n → s.pilot.ppBand = some (ppBandOf ohms)

variable {ohms n : Nat}

theorem CableAt.read (h : CableAt ohms n s) (hohms : ohms < 2 ^ 16) :
    risingFrom 0 (cableRead ohms s).regs = true ∧ coilOn (cableRead ohms s) = false ∧
      getB (cableRead ohms s) Reg.VI_CFG_TETHERED = false ∧ getF (cableRead ohms s) Reg.VI_PP_OHMS = ohms ∧
      n + 1 ≤ (cableRead ohms s).pilot.ppRun ∧ getF (cableRead ohms s) Reg.VI_PP_CODE = getF s Reg.VI_PP_CODE := by
  have hread : Writes [Reg.VI_PP_OHMS] s (cableRead ohms s) := setF_writes (updPilot_writes (.refl s)) (by decide) (by decide)
  refine ⟨hread.rising h.rising, h.coil, ?_, ?_, ?_, hread.reads h.rising _ (by decide)⟩
  · rw [getB, hread.reads h.rising _ (by decide)]
    exact h.measured
  · have hmin : min 0xFFFF ohms % 2 ^ 16 = ohms := by omega
    exact (getF_setF_same (s := s.updPilot _) h.rising _ _).trans hmin
  · show n + 1 ≤ if s.pilot.ppSeen = some (ppBandOf ohms) then s.pilot.ppRun + 1 else 1
    rcases h.run with rfl | ⟨hseen, hrun⟩
    · split <;> omega
    · rw [if_pos hseen]
      omega

/-- One more reading. -/
theorem CableAt.next (h : CableAt ohms n s) (hohms : ohms < 2 ^ 16) (hband : ¬(ppBandOf ohms = 0 ∨ ppBandOf ohms = 5))
    (hcode : ppCodeOf (ppBandOf ohms) < 2 ^ 14) : CableAt ohms (n + 1) (ppReading s ohms) := by
  obtain ⟨hr, hcoil, hfree, hshown, hrun, hsame⟩ := h.read hohms
  rw [ppReading_eq h.measured]
  split
  · obtain ⟨hkept, hread⟩ := newBand_gives (ohms := ohms) hband hcode hcoil hr
    have hcable : (newBand (ppBandOf ohms) ohms (cableRead ohms s)).pilot.cable =
        (some (ppBandOf ohms), some (ppBandOf ohms), (cableRead ohms s).pilot.ppRun) := hkept.cable
    obtain ⟨hnew, hseen, hcount⟩ : (newBand (ppBandOf ohms) ohms (cableRead ohms s)).pilot.ppBand = some (ppBandOf ohms) ∧
        (newBand (ppBandOf ohms) ohms (cableRead ohms s)).pilot.ppSeen = some (ppBandOf ohms) ∧
        (newBand (ppBandOf ohms) ohms (cableRead ohms s)).pilot.ppRun = (cableRead ohms s).pilot.ppRun := by
      simpa [Pilot.cable] using hcable
    refine ⟨hkept.writes.rising hr, hkept.coil.trans hcoil, ?_, fun _ => ?_, .inr ⟨hseen, by omega⟩, fun _ => hread, fun _ => hnew⟩
    · rw [getB, hkept.writes.reads hr _ (by decide)]
      exact hfree
    · exact (hkept.writes.reads hr _ (by decide)).trans hshown
  · next hno =>
    refine ⟨hr, hcoil, hfree, fun _ => hshown, .inr ⟨rfl, hrun⟩, fun hold => hsame.trans (h.code hold), fun hthree => ?_⟩
    by_contra hother
    exact hno ⟨by omega, hother⟩

/-- Three readings of 220 Ω in a row are a cable of 32 A (R132). -/
theorem threeReadings_gives (hr : risingFrom 0 s.regs = true) (hcoil : coilOn s = false)
    (hfree : getB s Reg.VI_CFG_TETHERED = false) (hnew : s.pilot.ppBand ≠ some 2) :
    CableAt 220 3 (ppReading (ppReading (ppReading s 220) 220) 220) := by
  have hstart : CableAt 220 0 s := ⟨hr, hcoil, hfree, nofun, .inl rfl, fun h => absurd h hnew, nofun⟩
  have hnext {n : Nat} {s : State} (h : CableAt 220 n s) : CableAt 220 (n + 1) (ppReading s 220) :=
    h.next (by decide) (by decide) (by decide)
  exact hnext (hnext (hnext hstart))

/-- A PP_CHANGE is its readings, one after the other. -/
theorem gives_readings {rs : List (BitVec 32)} {P : State → Prop} (hon : domainOn 2 s = true)
    (h : P (rs.foldl (fun s r => ppReading s r.toNat) s)) : Gives (.ppChange rs) s P :=
  gives_supervised (f := fun s => rs.foldl (fun s r => ppReading s r.toNat) s) rfl hon h

theorem gives_threeReadings {P : State → Prop} (hon : domainOn 2 s = true)
    (h : P (ppReading (ppReading (ppReading s 220) 220) 220)) : Gives (.ppChange [220, 220, 220]) s P := by
  have hohms : (220 : BitVec 32).toNat = 220 := rfl
  refine gives_readings hon ?_
  rw [List.foldl_cons, List.foldl_cons, List.foldl_cons, List.foldl_nil, hohms]
  exact h

end

end Sys2Proof.Machine
end

section
/-! SUPPORT. The outputs of the socket lock's pulse, its commands, and the reading of its feedback (07 R134, R135). -/
namespace Sys2Proof.Machine

/-- The pilot block without the lock's pulse. -/
def Pilot.unpulsed (p : Pilot) : Pilot := { p with lockPulse := none }

/-- From `s` to `t` the time, VSYS, the pilot block but for the lock's pulse, and VI_LOCK stay. -/
structure Pulses (s t : State) : Prop where
  pilot : t.pilot.unpulsed = s.pilot.unpulsed
  usec : t.sys.usec = s.sys.usec
  vsysLow : t.sys.vsysLow = s.sys.vsysLow
  rising : risingFrom 0 s.regs = true → risingFrom 0 t.regs = true
  reads : risingFrom 0 s.regs = true → ∀ f : Field, f.addr = 0x9001C → f.lo < 32 → getF t f = getF s f

section
variable {s t u : State} {n : Fin 12} {lock : Bool}

/-! ## Outputs on and off -/

theorem Pulses.trans (h : Pulses s t) (k : Pulses t u) : Pulses s u where
  pilot := k.pilot.trans h.pilot
  usec := k.usec.trans h.usec
  vsysLow := k.vsysLow.trans h.vsysLow
  rising := k.rising ∘ h.rising
  reads hr f hf hl := (k.reads (h.rising hr) f hf hl).trans (h.reads hr f hf hl)

/-- What leaves the registers, system control and the pilot block but for the pulse. -/
theorem Pulses.of_parts (hregs : t.regs = s.regs) (hsys : t.sys = s.sys) (hpilot : t.pilot.unpulsed = s.pilot.unpulsed) :
    Pulses s t :=
  ⟨hpilot, by rw [hsys], by rw [hsys], fun hr => hregs ▸ hr, fun _ f _ _ => by rw [getF, hregs]; rfl⟩

theorem switchOut_regs (f : OutCh → OutCh) : (switchOut n f s).regs = s.regs := by
  unfold switchOut
  dsimp only
  split <;> rfl

theorem switchOut_pilot (f : OutCh → OutCh) : (switchOut n f s).pilot = s.pilot := by
  unfold switchOut
  dsimp only
  split <;> rfl

theorem clampEnergy_regs : (clampEnergy n s).regs = s.regs := by
  unfold clampEnergy
  split <;> rfl

theorem clampEnergy_pilot : (clampEnergy n s).pilot = s.pilot := by
  unfold clampEnergy
  split <;> rfl

theorem outOff_regs : (outOff n s).regs = s.regs := by
  unfold outOff
  split
  · split
    · exact switchOut_regs _
    · exact (switchOut_regs _).trans clampEnergy_regs
  · rfl

theorem outOff_pilot : (outOff n s).pilot = s.pilot := by
  unfold outOff
  split
  · split
    · exact switchOut_pilot _
    · exact (switchOut_pilot _).trans clampEnergy_pilot
  · rfl

/-- The cells follow, and no output turns on or off. -/
theorem drive_on {m : Fin 12} (p : Option OutCh) : (outCh m (modOut n (fun o => o.drive p) s)).on = (outCh m s).on := by
  by_cases h : m = n
  · rw [h, outCh_modOut_same, OutCh.drive_on]
  · rw [outCh_modOut_other h]

/-- An output that is commanded on is on. -/
theorem switchOut_on {f : OutCh → OutCh} (hf : ∀ o, (f o).on = true) : (outCh n (switchOut n f s)).on = true := by
  have hcmd : (outCh n (modOut n f s)).on = true := by
    rw [outCh_modOut_same]
    exact hf _
  unfold switchOut
  dsimp only
  split
  · exact (drive_on _).trans hcmd
  · exact (drive_on _).trans ((drive_on _).trans hcmd)

theorem outOn_on : (outCh n (outOn n s)).on = true := by
  unfold outOn
  split
  · assumption
  · exact switchOut_on fun _ => rfl

/-- A worn cell A is left for cell B, which is announced (R168). -/
theorem cellSwapped_pulses {f : Sw → Sw} (hf : (f s.sw).switches = s.sw.switches) :
    Pulses s (setHealth 2 (raiseHw 0x14 n.val (s.updSw f))) := by
  have hcalm : Calm quiet s (setHealth 2 (raiseHw 0x14 n.val (s.updSw f))) :=
    setHealth_calm (raiseHw_calm (updSw_calm (.refl s) hf)) (by decide)
  exact ⟨by simp, by simp, by simp, hcalm.rising, fun hr g hg hl => hcalm.reads hr g (by simp [quiet, hg]) hl⟩

theorem outOn_pulses : Pulses s (outOn n s) := by
  unfold outOn
  split
  · exact .of_parts rfl rfl rfl
  · refine .trans (t := if _ then _ else s) ?_ (.of_parts (switchOut_regs _) (switchOut_sys _) (congrArg _ (switchOut_pilot _)))
    split
    · exact cellSwapped_pulses rfl
    · exact .of_parts rfl rfl rfl

/-! ## The pulse -/

theorem lockPulseEnd_regs : (lockPulseEnd s).regs = s.regs := outOff_regs.trans outOff_regs

theorem lockPulseEnd_pilot : (lockPulseEnd s).pilot = s.pilot.unpulsed :=
  congrArg Pilot.unpulsed (outOff_pilot.trans outOff_pilot)

theorem lockPulseEnd_pulses : Pulses s (lockPulseEnd s) :=
  .of_parts lockPulseEnd_regs lockPulseEnd_sys (by rw [lockPulseEnd_pilot]; rfl)

/-- The output of the pair that moves the lock. -/
def lockOut (lock : Bool) (s : State) : Fin 12 := if lock then (lockPair s).1 else (lockPair s).2

/-- The pair as it is driven, before the pulse's end is set. -/
def lockDriven (lock : Bool) (s : State) : State :=
  if (lockPulseEnd s).sys.vsysLow then lockPulseEnd s else outOn (lockOut lock s) (lockPulseEnd s)

theorem lockPulseStart_eq : lockPulseStart lock s = (lockDriven lock s).updPilot fun p =>
    { p with lockPulse := some ((lockDriven lock s).sys.usec + 1000 * getF (lockDriven lock s) Reg.VI_LOCK_PULSE_MS) } := rfl

theorem lockDriven_pulses : Pulses s (lockDriven lock s) := by
  unfold lockDriven
  split
  · exact lockPulseEnd_pulses
  · exact lockPulseEnd_pulses.trans outOn_pulses

theorem lockPulseStart_pulses : Pulses s (lockPulseStart lock s) := lockDriven_pulses.trans (.of_parts rfl rfl rfl)

/-- The pulse lasts PULSE_MS. -/
theorem lockPulseStart_until (hr : risingFrom 0 s.regs = true) :
    (lockPulseStart lock s).pilot.lockPulse = some (s.sys.usec + 1000 * getF s Reg.VI_LOCK_PULSE_MS) := by
  have hdriven := lockDriven_pulses (s := s) (lock := lock)
  rw [lockPulseStart_eq, hdriven.usec, hdriven.reads hr _ rfl (by decide)]
  rfl

theorem lockPulseStart_on (hvsys : s.sys.vsysLow = false) : (outCh (lockOut lock s) (lockPulseStart lock s)).on = true := by
  have hon : lockDriven lock s = outOn (lockOut lock s) (lockPulseEnd s) := by
    refine if_neg ?_
    rw [lockPulseEnd_sys, hvsys]
    nofun
  rw [lockPulseStart_eq, hon]
  exact outOn_on

/-! ## A lock command -/

/-- A lock command is taken: LOCK_STATE reads 2, and LOCK_FAIL does not last. -/
def lockCommanded (lock : Bool) (s : State) : State := lastingEnds 12 (setF Reg.VI_LOCK_STATE 2 (s.locking lock))

theorem lockCommanded_rising (hr : risingFrom 0 s.regs = true) : risingFrom 0 (lockCommanded lock s).regs = true := by
  have hset := setF_regs_rising (s := s.locking lock) hr Reg.VI_LOCK_STATE 2
  exact hset

theorem lockCommanded_state (hr : risingFrom 0 s.regs = true) : getF (lockCommanded lock s) Reg.VI_LOCK_STATE = 2 := by
  rw [lockCommanded, getF_lastingEnds]
  exact getF_setF_same (s := s.locking lock) hr _ _

theorem lockCommanded_other (hr : risingFrom 0 s.regs = true) {f : Field} (hf : f.key ≠ Reg.VI_LOCK_STATE.key) :
    getF (lockCommanded lock s) f = getF s f := by
  rw [lockCommanded, getF_lastingEnds]
  exact getF_setF_other (s := s.locking lock) hr hf _

theorem lockStart_eq : lockStart lock s = lockPulseStart lock (lockCommanded lock s) := rfl

theorem lockOut_commanded (hr : risingFrom 0 s.regs = true) : lockOut lock (lockCommanded lock s) = lockOut lock s := by
  have hpair : getB (lockCommanded lock s) Reg.VI_LOCK_PAIR = getB s Reg.VI_LOCK_PAIR := by
    rw [getB, lockCommanded_other hr (by decide)]
    rfl
  unfold lockOut lockPair
  rw [hpair]

theorem lockStart_gives (hr : risingFrom 0 s.regs = true) : (lockStart lock s).pilot.lockDir = some lock ∧
    getF (lockStart lock s) Reg.VI_LOCK_STATE = 2 ∧
    (lockStart lock s).pilot.lockPulse = some (s.sys.usec + 1000 * getF s Reg.VI_LOCK_PULSE_MS) ∧
    (s.sys.vsysLow = false → (outCh (lockOut lock s) (lockStart lock s)).on = true) := by
  have hrc : risingFrom 0 (lockCommanded lock s).regs = true := lockCommanded_rising hr
  have hpulse : Pulses (lockCommanded lock s) (lockStart lock s) := lockPulseStart_pulses
  refine ⟨(congrArg (·.lockDir) hpulse.pilot :), ?_, ?_, fun hvsys => ?_⟩
  · exact (hpulse.reads hrc _ rfl (by decide)).trans (lockCommanded_state hr)
  · rw [lockStart_eq, lockPulseStart_until hrc, lockCommanded_other hr (by decide)]
    rfl
  · rw [← lockOut_commanded hr, lockStart_eq]
    exact lockPulseStart_on hvsys

theorem applyPort_lock {n : Fin 320} {arg : Word} {v : Nat} : applyPort n 0x209 arg v s = lockCommand v s :=
  applyPort_low rfl (by decide) (by decide)

section
variable (hen : getB s Reg.VI_LOCK_EN = true)
include hen

theorem lockCommand_lock : lockCommand 1 s = lockStart true s := by
  unfold lockCommand
  rw [hen]
  rfl

/-- A dead outlet unlocks, with no weld held (R135). -/
theorem lockCommand_unlock (hdead : outletDead s = true) (hfree : holds 7 s = false) : lockCommand 2 s = lockStart false s := by
  simp [lockCommand, hen, hdead, hfree]

theorem lockCommand_discarded (hlive : outletDead s = false) : lockCommand 2 s = s := by
  simp [lockCommand, hen, hlive]

end

/-! ## The feedback -/

theorem readsLocked_pulses (h : Pulses s t) (hr : risingFrom 0 s.regs = true) {level : Bool} :
    readsLocked level t = readsLocked level s := by
  unfold readsLocked getB
  rw [h.reads hr _ rfl (by decide)]

theorem lockMoved_gives (hr : risingFrom 0 s.regs = true) : (lockMoved lock s).pilot.lockDir = none ∧
    getF (lockMoved lock s) Reg.VI_LOCK_STATE = (if lock then 1 else 0) ∧
    (lockMoved lock s).pilot.lockPulse = s.pilot.lockPulse := by
  refine ⟨rfl, ?_, rfl⟩
  have hregs : (lockMoved lock s).regs = (setF Reg.VI_LOCK_STATE (ofBool lock)
      (s.updPilot fun p => { p with lockDir := none, lockRetry := false })).regs := raiseHw_regs ..
  rw [getF, hregs]
  refine (getF_setF_same (s := s.updPilot _) hr _ _).trans ?_
  cases lock <;> rfl

/-- LOCK_FAIL: LOCK_STATE reads 3. -/
def lockFailed (level : Bool) (s : State) : State :=
  raiseHw 0x03 3 (lastingBegins 12 (ofBool level) (setF Reg.VI_LOCK_STATE 3
    (s.updPilot fun p => { p with lockDir := none, lockRetry := false })))

theorem lockFailed_gives {level : Bool} (hr : risingFrom 0 s.regs = true) :
    (lockFailed level s).pilot.lockDir = none ∧ getF (lockFailed level s) Reg.VI_LOCK_STATE = 3 := by
  have hrset := setF_regs_rising (s := s.updPilot fun p => { p with lockDir := none, lockRetry := false }) hr
    Reg.VI_LOCK_STATE 3
  have hset := getF_setF_same (s := s.updPilot fun p => { p with lockDir := none, lockRetry := false }) hr
    Reg.VI_LOCK_STATE 3
  have hdir := (lastingBegins_settles (k := 12) (value := ofBool level) (by decide)
    (s := setF Reg.VI_LOCK_STATE 3 (s.updPilot fun p => { p with lockDir := none, lockRetry := false }))).ofPilot (·.lockDir)
  have hwrites : Writes [Reg.VI_VIOL_COUNT 12] (setF Reg.VI_LOCK_STATE 3
      (s.updPilot fun p => { p with lockDir := none, lockRetry := false })) (lockFailed level s) :=
    raiseHw_writes (lastingBegins_writes (List.mem_cons_self ..) (by decide))
  refine ⟨?_, (hwrites.reads hrset _ (by decide)).trans hset⟩
  rw [lockFailed, raiseHw_pilot]
  exact hdir

/-- The first pulse has ended, and the feedback is read. -/
def lockChecked (level : Bool) (s : State) : State := seeBolt level (lockPulseEnd s)

theorem lockChecked_reads (hr : risingFrom 0 s.regs = true) {level : Bool} :
    risingFrom 0 (lockChecked level s).regs = true ∧ readsLocked level (lockChecked level s) = readsLocked level s := by
  have hend := lockPulseEnd_pulses (s := s)
  exact ⟨hend.rising hr, readsLocked_pulses hend hr⟩

/-- A second pulse is due. -/
def secondPulse (s : State) : State := s.updPilot fun p => { p with lockRetry := true }

theorem secondPulse_gives : (secondPulse s).pilot.lockDir = s.pilot.lockDir ∧ (secondPulse s).pilot.lockRetry = true ∧
    (secondPulse s).regs = s.regs := ⟨rfl, rfl, rfl⟩

theorem lockChecked_regs {level : Bool} : (lockChecked level s).regs = s.regs := lockPulseEnd_regs

theorem lockChecked_mode {level : Bool} : (lockChecked level s).sys.mode = s.sys.mode := by
  rw [lockChecked, seeBolt, State.updPilot_sys, lockPulseEnd_sys]

theorem lockChecked_dir {level : Bool} : (lockChecked level s).pilot.lockDir = s.pilot.lockDir :=
  congrArg (·.lockDir) lockPulseEnd_pilot

theorem execLockFeedbackCheck_eq {level : Bool} (hon : domainOn 2 s = true) (hdir : s.pilot.lockDir = some lock)
    (hfirst : s.pilot.lockRetry = false) : exec (.lockFeedbackCheck level) s = .next
      (if readsLocked level (lockChecked level s) == lock then lockMoved lock (lockChecked level s)
       else if (lockChecked level s).sys.mode = .inert then lockChecked level s
       else secondPulse (lockChecked level s)) := by
  show execLockFeedbackCheck level s = _
  unfold execLockFeedbackCheck supervised
  rw [if_pos hon]
  dsimp only
  rw [hdir]
  dsimp only
  rw [hfirst]
  rfl

theorem execLockRetry_eq {level : Bool} (hon : domainOn 2 s = true) (hdir : s.pilot.lockDir = some lock)
    (hsecond : s.pilot.lockRetry = true) : exec (.lockRetry level) s = .next
      (if readsLocked level (lockChecked level (lockPulseStart lock s)) == lock then
         lockMoved lock (lockChecked level (lockPulseStart lock s))
       else lockFailed level (lockChecked level (lockPulseStart lock s))) := by
  show execLockRetry level s = _
  unfold execLockRetry supervised
  rw [if_pos hon]
  dsimp only
  rw [hdir]
  dsimp only
  rw [hsecond]
  rfl

end

end Sys2Proof.Machine
end

section

open Sys2Proof Sys2Proof.Machine

/-- Settles O25: with the coils off the line settles without touching what a report, a diode pulse, a cable or a lock command has
written, and a trip row keeps its anomaly code. -/
theorem pilotLineAndLock : Obligations.PilotLineAndLock := by
  unfold Obligations.PilotLineAndLock
  intro s hwf hcoil hheld htrip hon
  have hr := regs_rising hwf
  refine ⟨fun k high hline hlow => ⟨fun hband hrun hwas => ?plugged, fun hband hrun hwas => ?left, fun hband hrun => ?counted⟩,
    fun low hdue hlo hhi hwhy => ?diodeGood, fun low hdue hlo hhi hthere => ?diodeSuspect, fun hfree hnew => ?cable,
    fun hen hpower n hspec => ⟨?locks, fun hdead => ?unlocks, fun hlive => ?discarded⟩,
    fun lock hdir hfirst => ⟨fun level hmatch => ?moved, fun level hmode hmiss => ?again⟩,
    fun lock hdir hsecond => ⟨fun level hmatch => ?movedAgain, fun level hmiss => ?failed⟩⟩
  case plugged =>
    have hsample := sampledHigh_settles (s := s) (mv := high)
    have hrs := hsample.rising hr
    have hstate := sampledHigh_state (mv := high) hr
    refine gives_newState hon hline hlow hband (.inr rfl) rfl hr hrun (by rw [hwas]; decide) ?_
    rw [newState_pluggedIn (hsample.coilOn.trans hcoil) hline (hstate.trans hwas)]
    obtain ⟨hshown, hdue, hquiet⟩ := settle_pluggedIn (hsample.coilOn.trans hcoil) hrs ((hsample.weaken.held hr).trans hheld)
    exact ⟨hshown.trans (sampledHigh_shown hr), hdue, fun hplus hreq =>
      hquiet ((hsample.pilotLine hr).trans hplus) (hsample.pwmReq.trans hreq)⟩
  case left =>
    have hsample := sampledHigh_settles (s := s) (mv := high)
    have hrs := hsample.rising hr
    have hstate := sampledHigh_state (mv := high) hr
    refine gives_newState hon hline hlow hband (.inl rfl) rfl hr hrun (by rw [hwas]; decide) ?_
    rw [newState_vehicleLeft (hsample.coilOn.trans hcoil) hrs ((hsample.weaken.held hr).trans hheld) (hstate.trans hwas)]
    exact settle_vehicleLeft (hsample.coilOn.trans hcoil) hrs
  case counted =>
    exact gives_counted hon hline hlow hband (.inr rfl) rfl hrun
      ⟨sampledHigh_state hr, sampledHigh_band hband, sampledHigh_run hband, rfl⟩
  case diodeGood =>
    refine gives_supervised rfl hon ?_
    rw [diodePulse_good hdue (lowOf_good hlo hhi) hwhy]
    exact ⟨rfl, diodeShown_gives hr (by decide)⟩
  case diodeSuspect =>
    exact gives_supervised rfl hon (diodePulse_suspect_gives hcoil hr hheld hdue (lowOf_suspect hlo hhi) hthere)
  case cable =>
    refine gives_threeReadings hon ?_
    have hcable := threeReadings_gives hr hcoil hfree hnew
    have hband := hcable.band (by decide)
    exact ⟨hband, hcable.shown (by decide), hcable.code hband⟩
  case locks =>
    refine portRow_gives_plain hpower hspec rfl (port := 0x209) rfl (.inr rfl) ?_
    rw [show portLimit 0x209 0 1 s = 1 from rfl, applyPort_lock, lockCommand_lock hen]
    exact lockStart_gives hr
  case unlocks =>
    have hweld : holds 7 s = false := by rw [holds, hheld, Nat.zero_testBit]
    refine portRow_gives_plain hpower hspec rfl (port := 0x209) rfl (.inr rfl) ?_
    rw [show portLimit 0x209 0 2 s = 2 from rfl, applyPort_lock, lockCommand_unlock hen hdead hweld]
    exact lockStart_gives hr
  case discarded =>
    refine portRow_gives_plain hpower hspec rfl (port := 0x209) rfl (.inr rfl) ?_
    rw [show portLimit 0x209 0 2 s = 2 from rfl, applyPort_lock, lockCommand_discarded hen hlive]
    exact ⟨rfl, rfl⟩
  case moved =>
    obtain ⟨hrc, hreads⟩ := lockChecked_reads hr (level := level)
    obtain ⟨hnone, hshown, hpulse⟩ := lockMoved_gives (lock := lock) hrc
    refine ⟨_, execLockFeedbackCheck_eq hon hdir hfirst, ?_⟩
    rw [if_pos (beq_iff_eq.mpr (hreads.trans hmatch))]
    exact ⟨hnone, hshown, hpulse⟩
  case again =>
    obtain ⟨-, hreads⟩ := lockChecked_reads hr (level := level)
    have hmode' : (lockChecked level s).sys.mode ≠ .inert := by rwa [lockChecked_mode]
    refine ⟨_, execLockFeedbackCheck_eq hon hdir hfirst, ?_⟩
    rw [if_neg (fun h => hmiss (hreads.symm.trans (beq_iff_eq.mp h))), if_neg hmode']
    obtain ⟨hsame, hretry, hregs⟩ := secondPulse_gives (s := lockChecked level s)
    exact ⟨hsame.trans (lockChecked_dir.trans hdir), hretry, hregs.trans lockChecked_regs⟩
  case movedAgain =>
    have hpulse := lockPulseStart_pulses (s := s) (lock := lock)
    obtain ⟨hrc, hreads⟩ := lockChecked_reads (hpulse.rising hr) (level := level)
    obtain ⟨hnone, hshown, -⟩ := lockMoved_gives (lock := lock) hrc
    refine ⟨_, execLockRetry_eq hon hdir hsecond, ?_⟩
    rw [if_pos (beq_iff_eq.mpr ((hreads.trans (readsLocked_pulses hpulse hr)).trans hmatch))]
    exact ⟨hnone, hshown⟩
  case failed =>
    have hpulse := lockPulseStart_pulses (s := s) (lock := lock)
    obtain ⟨hrc, hreads⟩ := lockChecked_reads (hpulse.rising hr) (level := level)
    refine ⟨_, execLockRetry_eq hon hdir hsecond, ?_⟩
    rw [if_neg fun h => hmiss ((hreads.trans (readsLocked_pulses hpulse hr)).symm.trans (beq_iff_eq.mp h))]
    exact lockFailed_gives hrc

end

section
/-! SUPPORT. The twelve outputs: what one that is switched does to its own cells and to its bridge partner's, and what it leaves
of every other; the masks of OUT_ON and OUT_OFF (08 R161 to R170). -/
namespace Sys2Proof.Machine

/-! ## Events touch neither outputs nor fields -/

section
variable {s : State} {ev w : Nat}

theorem outCh_raiseHw {n : Fin 12} : outCh n (raiseHw ev w s) = outCh n s := by
  rw [outCh, raiseHw_sw]
  rfl

theorem getF_raiseHw {f : Field} : getF (raiseHw ev w s) f = getF s f := by
  rw [getF, raiseHw_regs]
  rfl

end

/-! ## The bridge partner (R169) -/

/-- The fields that say which outputs form a bridge. -/
def bridgeFields : List Field :=
  [Reg.OUT_CFG_BRIDGE 8, Reg.OUT_CFG_BRIDGE 10, Reg.VI_LOCK_EN, Reg.VI_LOCK_PAIR]

section
variable {n m : Fin 12} {s t u : State}

theorem partner_of_reads (h : ∀ f ∈ bridgeFields, getF t f = getF s f) : partner n t = partner n s := by
  have hbridged (upper : Bool) : bridged upper t = bridged upper s := by
    have hcfg : getF t (Reg.OUT_CFG_BRIDGE (if upper then 10 else 8)) = getF s (Reg.OUT_CFG_BRIDGE (if upper then 10 else 8)) := by
      cases upper
      · exact h _ (by decide)
      · exact h _ (by decide)
    unfold bridged getB
    rw [hcfg, h Reg.VI_LOCK_EN (by decide), h Reg.VI_LOCK_PAIR (by decide)]
  unfold partner
  rw [hbridged, hbridged]

theorem partner_of_regs (h : t.regs = s.regs) : partner n t = partner n s :=
  partner_of_reads fun f _ => by unfold getF; rw [h]

/-- No output is its own bridge partner. -/
theorem partner_ne (h : partner n s = some m) : m ≠ n := by
  unfold partner at h
  split at h
  case h_5 => cases h
  all_goals
    split at h
    · cases h
      decide
    · cases h

/-! ## What becomes of the other outputs -/

/-- From `s` to `t` no output but `n` turns on or off, and the cells of an output that is neither `n` nor its bridge partner stay
as they are (R169). -/
structure OthersKept (n : Fin 12) (s t : State) : Prop where
  rising : risingFrom 0 s.regs = true → risingFrom 0 t.regs = true
  partner : risingFrom 0 s.regs = true → partner n t = partner n s
  cells : risingFrom 0 s.regs = true → ∀ m, m ≠ n → Machine.partner n s ≠ some m → outCh m t = outCh m s
  on : ∀ m, m ≠ n → (outCh m t).on = (outCh m s).on

namespace OthersKept

theorem refl (s : State) : OthersKept n s s := ⟨id, fun _ => rfl, fun _ _ _ _ => rfl, fun _ _ => rfl⟩

theorem trans (h : OthersKept n s t) (k : OthersKept n t u) : OthersKept n s u where
  rising := k.rising ∘ h.rising
  partner hr := (k.partner (h.rising hr)).trans (h.partner hr)
  cells hr m hm hp := (k.cells (h.rising hr) m hm (by rwa [h.partner hr])).trans (h.cells hr m hm hp)
  on m hm := (k.on m hm).trans (h.on m hm)

theorem ite {p : Prop} [Decidable p] (ht : OthersKept n s t) (hu : OthersKept n s u) : OthersKept n s (if p then t else u) := by
  split
  · exact ht
  · exact hu

/-- What leaves the outputs and the bridges alone. -/
theorem of_outs (houts : t.sw.outs = s.sw.outs) (hrising : risingFrom 0 s.regs = true → risingFrom 0 t.regs = true)
    (hreads : risingFrom 0 s.regs = true → ∀ f ∈ bridgeFields, getF t f = getF s f) : OthersKept n s t := by
  have hout (m : Fin 12) : outCh m t = outCh m s := by rw [outCh, houts]; rfl
  exact ⟨hrising, fun hr => partner_of_reads (hreads hr), fun _ m _ _ => hout m, fun m _ => by rw [hout]⟩

theorem of_regs (houts : t.sw.outs = s.sw.outs) (hregs : t.regs = s.regs) : OthersKept n s t :=
  .of_outs houts (fun hr => hregs ▸ hr) fun _ f _ => by unfold getF; rw [hregs]

theorem setF {f : Field} {v : Nat} (hf : f.beside bridgeFields = true) : OthersKept n s (Machine.setF f v s) :=
  .of_outs rfl (fun hr => setF_regs_rising hr f v) fun hr g hg => getF_setF_other hr (bne_iff_ne.mp (List.all_eq_true.mp hf g hg)) v

theorem raiseHw (ev w : Nat) : OthersKept n s (Machine.raiseHw ev w s) := .of_regs (by simp) (by simp)

/-- The outputs other than `n`, as the statements say it. -/
theorem others (h : OthersKept n s t) (hr : risingFrom 0 s.regs = true) :
    ∀ m, m ≠ n → (Machine.partner n s ≠ some m → outCh m t = outCh m s) ∧ (outCh m t).on = (outCh m s).on :=
  fun m hm => ⟨h.cells hr m hm, h.on m hm⟩

end OthersKept

end

/-! ## An output is switched -/

@[simp] theorem OutCh.drive_hot (o : OutCh) (p : Option OutCh) : (o.drive p).hot = o.hot := by cases p <;> rfl
@[simp] theorem OutCh.drive_inrush (o : OutCh) (p : Option OutCh) : (o.drive p).inrush = o.inrush := by cases p <;> rfl

section
variable {n m : Fin 12} {f : OutCh → OutCh} {s : State}

theorem modOut_others {f : OutCh → OutCh} : OthersKept n s (modOut n f s) :=
  ⟨id, fun _ => partner_of_regs rfl, fun _ _ hm _ => outCh_modOut_other hm f s, fun _ hm => by rw [outCh_modOut_other hm]⟩

/-- Outside a bridge an output that is switched drives its own cell alone. -/
theorem switchOut_alone (h : partner n s = none) : switchOut n f s = modOut n (fun o => o.drive none) (modOut n f s) := by
  have hp : partner n (modOut n f s) = none := (partner_of_regs rfl).trans h
  unfold switchOut
  dsimp only
  rw [hp]

/-- In a bridge its partner's cells follow with it. -/
theorem switchOut_bridged (h : partner n s = some m) : switchOut n f s =
    modOut m (fun o => o.drive (some (f (outCh n s)))) (modOut n (fun o => o.drive (some (outCh m s))) (modOut n f s)) := by
  have hp : partner n (modOut n f s) = some m := (partner_of_regs rfl).trans h
  unfold switchOut
  dsimp only
  rw [hp]
  dsimp only
  rw [outCh_modOut_same, outCh_modOut_other (partner_ne h)]

theorem outCh_switchOut_alone (h : partner n s = none) : outCh n (switchOut n f s) = (f (outCh n s)).drive none := by
  rw [switchOut_alone h, outCh_modOut_same, outCh_modOut_same]

theorem outCh_switchOut_bridged (h : partner n s = some m) :
    outCh n (switchOut n f s) = (f (outCh n s)).drive (some (outCh m s)) ∧
      outCh m (switchOut n f s) = (outCh m s).drive (some (f (outCh n s))) := by
  have hne := partner_ne h
  rw [switchOut_bridged h]
  exact ⟨by rw [outCh_modOut_other hne.symm, outCh_modOut_same, outCh_modOut_same],
    by rw [outCh_modOut_same, outCh_modOut_other hne, outCh_modOut_other hne]⟩

/-- Whatever its cells then do, the output stands as it is switched. -/
theorem outCh_switchOut (n : Fin 12) (f : OutCh → OutCh) (s : State) : ∃ p, outCh n (switchOut n f s) = (f (outCh n s)).drive p := by
  cases h : partner n s with
  | none => exact ⟨none, outCh_switchOut_alone h⟩
  | some m => exact ⟨some (outCh m s), (outCh_switchOut_bridged h).1⟩

theorem switchOut_others : OthersKept n s (switchOut n f s) := by
  refine ⟨fun hr => (switchOut_regs f).symm ▸ hr, fun _ => partner_of_regs (switchOut_regs f), fun _ m hm hp => ?_, fun m hm => ?_⟩
  · cases h : partner n s with
    | none => rw [switchOut_alone h, outCh_modOut_other hm, outCh_modOut_other hm]
    | some k =>
      have hk : m ≠ k := fun e => hp (e ▸ h)
      rw [switchOut_bridged h, outCh_modOut_other hk, outCh_modOut_other hm, outCh_modOut_other hm]
  · cases h : partner n s with
    | none => rw [switchOut_alone h, outCh_modOut_other hm, outCh_modOut_other hm]
    | some k => rw [switchOut_bridged h, drive_on, drive_on, outCh_modOut_other hm]

/-! ## An output turns on (R162, R168) -/

/-- Output `n` before it turns on: a worn cell A is left for cell B, and its settings reach their boundary (R162, R168). -/
def outReady (n : Fin 12) (s : State) : State :=
  boundaries [Reg.OUT_CFG_SLEW n.val, Reg.OUT_CFG_RANGE n.val, Reg.OUT_CFG_OL_TH n.val, Reg.OUT_TIMING_INRUSH_T]
    (if !s.sw.onB.getLsbD n.val && 36000000 ≤ s.sw.cellA.get n then
      setHealth 2 (raiseHw 0x14 n.val (s.updSw fun w => { w with onB := w.onB ||| BitVec.ofNat 12 (2 ^ n.val) }))
    else s)

theorem outOn_off (h : (outCh n s).on = false) :
    outOn n s = switchOut n (fun o => { o with on := true, hot := false, inrush := true }) (outReady n s) := by
  unfold outOn
  rw [h]
  rfl

theorem outReady_outs : (outReady n s).sw.outs = s.sw.outs := by
  show (if _ then _ else s : State).sw.outs = _
  split
  · rw [setHealth_sw, raiseHw_sw]
    rfl
  · rfl

/-! ## An output turns off -/

theorem clampEnergy_outs : (clampEnergy n s).sw.outs = s.sw.outs := by
  unfold clampEnergy
  split
  · rfl
  · dsimp only [State.updSw_sw]
    split <;> rfl

theorem clampEnergy_others : OthersKept m s (clampEnergy n s) := .of_regs clampEnergy_outs clampEnergy_regs

theorem outOff_others : OthersKept n s (outOff n s) := by
  refine .ite (.trans (t := boundary (Reg.OUT_CFG_SLEW n.val) (if (outCh n s).hot then s else clampEnergy n s)) ?_ switchOut_others)
    (.refl s)
  exact (OthersKept.ite (.refl s) clampEnergy_others).trans (.of_regs rfl rfl)

theorem cause_beside (n : Fin 12) : (Reg.OUT_DIAG_CAUSE n.val).beside bridgeFields = true := by
  revert n
  decide

/-- An output turns off by itself: it is off with its cause, and no other is touched (R170). -/
theorem latchOff_gives {cause : Nat} (hr : risingFrom 0 s.regs = true) (hcause : cause < 16) :
    (outCh n (latchOff n cause s)).on = false ∧ getF (latchOff n cause s) (Reg.OUT_DIAG_CAUSE n.val) = cause ∧
      OthersKept n s (latchOff n cause s) := by
  have hroff : risingFrom 0 (outOff n s).regs = true := by rwa [outOff_regs]
  refine ⟨outOff_off n s, (getF_setF_same hroff _ _).trans (Nat.mod_eq_of_lt hcause), ?_⟩
  exact (outOff_others.trans (.setF (cause_beside n))).trans (.of_regs rfl rfl)

end

end Sys2Proof.Machine
end

section
/-! SUPPORT. What the energy path leaves of system control, whatever it has to do: all but the logs, the events that wait for a
pause to end, and the count of free values (08 R152 to R164, 20 R442). -/
namespace Sys2Proof.Machine

/-- System control without the logs, the events that wait, and the count of free values. -/
def Sys.unlogged (y : Sys) : Sys := { y with violLog := [], eventLog := [], pausedEvents := [], freeCtr := 0 }

/-- From `s` to `t` system control stays but for those. -/
structure SysKept (s t : State) : Prop where
  sys : t.sys.unlogged = s.sys.unlogged

namespace SysKept
variable {s t u : State}

theorem of_sys (h : t.sys = s.sys) : SysKept s t := ⟨by rw [h]⟩

theorem refl (s : State) : SysKept s s := of_sys rfl

theorem trans (h : SysKept s t) (k : SysKept t u) : SysKept s u := ⟨k.sys.trans h.sys⟩

theorem ite {p : Prop} [Decidable p] (ht : SysKept s t) (hu : SysKept s u) : SysKept s (if p then t else u) := by
  split
  · exact ht
  · exact hu

/-- A step that is taken or left out. -/
theorem when {p : Prop} [Decidable p] (ht : SysKept s t) (hu : SysKept s t → SysKept s u) : SysKept s (if p then u else t) :=
  ite (hu ht) ht

theorem foldl {β : Type} {g : State → β → State} (hg : ∀ s x, SysKept s (g s x)) (l : List β) (s : State) :
    SysKept s (l.foldl g s) := by
  induction l generalizing s with
  | nil => exact refl s
  | cons x l ih => exact (hg s x).trans (ih _)

theorem vsysLow (h : SysKept s t) : t.sys.vsysLow = s.sys.vsysLow := (congrArg Sys.vsysLow h.sys :)
theorem ctrlStop (h : SysKept s t) : t.sys.ctrlStop = s.sys.ctrlStop := (congrArg Sys.ctrlStop h.sys :)

end SysKept

section
variable {a s : State} (h : SysKept a s)
include h

/-! ## Single operations -/

theorem updPilot_sysKept {f} : SysKept a (s.updPilot f) := h.trans (.of_sys rfl)
theorem updHlc_sysKept {f} : SysKept a (s.updHlc f) := h.trans (.of_sys rfl)
theorem updSw_sysKept {f} : SysKept a (s.updSw f) := h.trans (.of_sys rfl)
theorem updSup_sysKept {f} : SysKept a (s.updSup f) := h.trans (.of_sys rfl)
theorem updKey_sysKept {f} : SysKept a (s.updKey f) := h.trans (.of_sys rfl)
theorem setF_sysKept {f : Field} {v : Nat} : SysKept a (setF f v s) := h.trans (.of_sys rfl)
theorem incF_sysKept {f : Field} : SysKept a (incF f s) := h.trans (.of_sys rfl)
theorem ringOut_sysKept {k d : Nat} : SysKept a (ringOut k d s) := h.trans (.of_sys rfl)
theorem boundary_sysKept {f : Field} : SysKept a (boundary f s) := h.trans (.of_sys rfl)
theorem fence_sysKept {port : Nat} {arg : Option Word} {by_ : Option (Fin 320)} : SysKept a (fence port arg by_ s) :=
  h.trans (.of_sys rfl)
theorem raiseHw_sysKept {ev w : Nat} : SysKept a (raiseHw ev w s) := h.trans (.of_sys (raiseHw_sys ..))

theorem boundaries_sysKept {fs : List Field} : SysKept a (boundaries fs s) :=
  h.trans (.foldl (fun s _ => boundary_sysKept (.refl s)) fs s)

theorem freeBelow_sysKept {n : Nat} : SysKept a (freeBelow n s).2 := h.trans ⟨rfl⟩

theorem raiseFw_sysKept {ev w : Nat} : SysKept a (raiseFw ev w s) := .ite (h.trans ⟨rfl⟩) (raiseHw_sysKept h)

theorem logEvent_sysKept {source code value : Nat} : SysKept a (logEvent source code value s) := .ite h (h.trans ⟨rfl⟩)

theorem logViolation_sysKept {source k value : Nat} : SysKept a (logViolation source k value s) := .ite h (h.trans ⟨rfl⟩)

theorem setHealth_sysKept {b : Nat} : SysKept a (setHealth b s) := .ite h (raiseFw_sysKept (setF_sysKept (setF_sysKept h)))

/-! ## The pilot line, the outputs and the contactors -/

theorem driveSteady_sysKept {l : Line} : SysKept a (driveSteady l s) :=
  setF_sysKept (setF_sysKept (setF_sysKept (updPilot_sysKept h)))

theorem driveLine_sysKept : SysKept a (driveLine s) := by
  unfold driveLine
  split
  · exact .ite h (driveSteady_sysKept h)
  · exact driveSteady_sysKept h

theorem stopPwm_sysKept : SysKept a (stopPwm s) := driveLine_sysKept (updPilot_sysKept h)

theorem supervisorStop_sysKept : SysKept a (supervisorStop s) := fence_sysKept (stopPwm_sysKept h)

theorem clearArm_sysKept : SysKept a (clearArm s) := fence_sysKept (setF_sysKept h)

theorem latchOff_sysKept {n : Fin 12} {cause : Nat} : SysKept a (latchOff n cause s) := h.trans (.of_sys outOff_sys)

/-- A coil is switched off with its output. -/
theorem coilOff_sysKept {second : Bool} : SysKept a (setCoil second false s) := by
  unfold setCoil
  refine updSw_sysKept ?_
  split
  · exact h.trans (.of_sys outOff_sys)
  · exact h

theorem countBreak_sysKept {second : Bool} {i : Nat} : SysKept a (countBreak second i s) :=
  .when (setF_sysKept (updSw_sysKept h)) fun h => setHealth_sysKept h

theorem openNow_sysKept {first second : Bool} : SysKept a (openNow first second s) := by
  have hhead : SysKept a (clearArm (openingBoundary s)) := clearArm_sysKept (boundaries_sysKept h)
  exact .ite h (updSw_sysKept (.when (.when hhead fun h => coilOff_sysKept (countBreak_sysKept h))
    fun h => coilOff_sysKept (countBreak_sysKept h)))

theorem beginDisc_sysKept {k : DiscKind} : SysKept a (beginDisc k s) := by
  have hhead : SysKept a ((clearArm (boundary Reg.CONT_CFG_ARC_LEAD (openingBoundary s))).updSw fun w =>
      { w with reported := false }) := updSw_sysKept (clearArm_sysKept (boundary_sysKept (boundaries_sysKept h)))
  exact .ite (updSw_sysKept hhead) (updSw_sysKept (.when (boundaries_sysKept hhead) stopPwm_sysKept))

theorem startDisc_sysKept {k : DiscKind} : SysKept a (startDisc k s) := by
  unfold startDisc
  split
  case h_1 | h_2 => exact beginDisc_sysKept h
  case h_3 => exact openNow_sysKept (.when h stopPwm_sysKept)
  case h_4 => exact updSw_sysKept h
  case h_5 => exact .when h fun h => updSw_sysKept h
  case h_6 | h_7 | h_8 => exact h
  case h_9 => exact .when h fun h => stopPwm_sysKept (clearArm_sysKept h)

/-! ## The end of an HLC session, trips and the report -/

theorem modSlot_sysKept {i : Nat} {f : Slot → Slot} : SysKept a (modSlot i f s) := by
  unfold modSlot
  split
  · exact updKey_sysKept h
  · exact h

theorem wipeSlot_sysKept {fails : Bool} {i : Nat} : SysKept a (wipeSlot fails i s) := by
  have hwiped := modSlot_sysKept h (i := i) (f := fun _ => {})
  exact .ite (.ite (setHealth_sysKept (updKey_sysKept hwiped)) (updKey_sysKept hwiped)) hwiped

theorem settleSlot_sysKept {fails : Option Bool} {i : Nat} : SysKept a (settleSlot fails i s) := by
  refine .ite h ?_
  cases fails with
  | some f => exact wipeSlot_sysKept h
  | none => exact wipeSlot_sysKept (freeBelow_sysKept (n := 2) h)

theorem dropTls_sysKept : SysKept a (dropTls s) := by
  unfold dropTls
  split
  · exact settleSlot_sysKept (modSlot_sysKept (updHlc_sysKept h))
  · exact updHlc_sysKept h

theorem hlcEnd_sysKept {reason : Nat} : SysKept a (hlcEnd reason s) :=
  .ite h (.when (raiseFw_sysKept (updHlc_sysKept (setF_sysKept (updHlc_sysKept (.when h dropTls_sysKept))))) fun h =>
    startDisc_sysKept (.ite h (raiseFw_sysKept h)))

theorem tripCore_sysKept {bit value : Nat} : SysKept a (tripCore bit value s) := by
  have hmarked : SysKept a (tripMarked bit s) := h.trans (.of_sys rfl)
  have hdriven : SysKept a (driveLine (openNow true true (supervisorStop (tripMarked bit s)))) :=
    driveLine_sysKept (openNow_sysKept (supervisorStop_sysKept hmarked))
  exact .when (incF_sysKept (logEvent_sysKept (ringOut_sysKept (raiseHw_sysKept hdriven)))) fun h => logViolation_sysKept h

theorem report_sysKept {st : Nat} : SysKept a (report st s) :=
  .when (.when (raiseHw_sysKept (setF_sysKept h)) fun h => hlcEnd_sysKept (clearArm_sysKept h)) fun h =>
    setF_sysKept (updHlc_sysKept h)

theorem reportActs_sysKept {was st : Nat} : SysKept a (reportActs was st s) :=
  .ite (.ite (startDisc_sysKept h) (.ite h (.ite h (tripCore_sysKept (updSup_sysKept h))))) h

/-! ## Settling -/

theorem settleLine_sysKept : SysKept a (settleLine s) :=
  .when (driveLine_sysKept h) fun h => driveLine_sysKept (reportActs_sysKept (report_sysKept h))

theorem lastingBegins_sysKept {k value : Nat} : SysKept a (lastingBegins k value s) :=
  .ite h (logViolation_sysKept (setF_sysKept (updPilot_sysKept h)))

theorem settleLasting_sysKept {k : Nat} : SysKept a (settleLasting k s) := by
  refine .ite (.when (raiseHw_sysKept ?_) fun h => startDisc_sysKept h) (.ite (.when (updPilot_sysKept h) fun h => setF_sysKept h) h)
  exact .ite (lastingBegins_sysKept h) (setF_sysKept (lastingBegins_sysKept h))

theorem settle_sysKept : SysKept a (settle s) :=
  settleLine_sysKept (settleLasting_sysKept (settleLasting_sysKept (settleLine_sysKept h)))

end

end Sys2Proof.Machine
end

section
/-! SUPPORT. The contactors' part of the switching block, its coils and its breaks: what a coil, a break and an immediate opening do
to it, and which fields they write (08 R147, R152, R156). -/
namespace Sys2Proof.Machine

/-! ## The switching block without its outputs -/

/-- The contactors' part of the switching block: all but the twelve outputs and their cells. -/
def Sw.contacts (w : Sw) : Sw :=
  { w with outs := Vector.replicate 12 {}, cellA := Vector.replicate 12 0, cellB := Vector.replicate 12 0, onB := 0, clampCtr := 0 }

/-- The coil of K1, or of K2, is commanded on or off. -/
def Sw.command (second on : Bool) (w : Sw) : Sw :=
  { w with k1 := if second then w.k1 else on, k2 := if second then on else w.k2 }

/-- One break of K1, or of K2, is counted. -/
def Sw.broken (second : Bool) (w : Sw) : Sw :=
  { w with
    wear1 := if second then w.wear1 else satInc 0xFFFFFFFF w.wear1
    wear2 := if second then satInc 0xFFFFFFFF w.wear2 else w.wear2 }

/-- An opening is under way: its feedback is still to be judged. -/
def Sw.openingLeft (w : Sw) : Sw :=
  { w with stage := .feedback, disc := none, discAfter := none, reported := false, bsClosed := w.bsClosed && (w.k1 || w.k2) }

/-- Both contactors have opened at once: each that was closed has one break more. -/
def Sw.opened (w : Sw) : Sw :=
  { w with
    k1 := false, k2 := false, stage := .feedback, disc := none, discAfter := none, reported := false, bsClosed := false
    wear1 := if w.k1 then satInc 0xFFFFFFFF w.wear1 else w.wear1
    wear2 := if w.k2 then satInc 0xFFFFFFFF w.wear2 else w.wear2 }

section
variable {n : Fin 12} {f : OutCh → OutCh} {s : State} {second on : Bool} {i : Nat}

theorem modOut_contacts : (modOut n f s).sw.contacts = s.sw.contacts := rfl

theorem switchOut_contacts : (switchOut n f s).sw.contacts = s.sw.contacts := by
  cases h : partner n s with
  | none => rw [switchOut_alone h, modOut_contacts, modOut_contacts]
  | some m => rw [switchOut_bridged h, modOut_contacts, modOut_contacts, modOut_contacts]

theorem clampEnergy_contacts : (clampEnergy n s).sw.contacts = s.sw.contacts := by
  unfold clampEnergy
  split
  · rfl
  · dsimp only [State.updSw_sw]
    split <;> rfl

theorem outOff_contacts : (outOff n s).sw.contacts = s.sw.contacts := by
  unfold outOff
  split
  · refine switchOut_contacts.trans ?_
    split
    · rfl
    · exact clampEnergy_contacts
  · rfl

theorem outReady_contacts : (outReady n s).sw.contacts = s.sw.contacts := by
  show (if _ then _ else s : State).sw.contacts = _
  split
  · rw [setHealth_sw, raiseHw_sw]
    rfl
  · rfl

theorem outOn_contacts : (outOn n s).sw.contacts = s.sw.contacts := by
  cases h : (outCh n s).on with
  | true => rw [outOn, if_pos h]
  | false => rw [outOn_off h, switchOut_contacts, outReady_contacts]

/-- A coil is switched with its output, and beside the outputs only its own command changes. -/
theorem setCoil_contacts : (setCoil second on s).sw.contacts = s.sw.contacts.command second on := by
  have hout : (match coilOutput second s with | some n => if on then outOn n s else outOff n s | none => s : State).sw.contacts =
      s.sw.contacts := by
    split
    · split
      · exact outOn_contacts
      · exact outOff_contacts
    · rfl
  unfold setCoil
  dsimp only [State.updSw_sw]
  rw [← hout]
  cases second <;> rfl

/-- Where the breaking current of K1's, or of K2's, last break is kept. -/
def lastBreak (second : Bool) : Field := if second then Reg.CONT_LASTBRK_K2 else Reg.CONT_LASTBRK_K1

theorem countBreak_eq : countBreak second i s =
    wornCheck (setF (lastBreak second) (min 0xFFFF i) (s.updSw (Sw.broken second))) := by
  cases second <;> rfl

theorem countBreak_sw : (countBreak second i s).sw = s.sw.broken second := by
  rw [countBreak_eq, wornCheck]
  split
  · rw [setHealth_sw]
    rfl
  · rfl

/-! ## An immediate opening of both (R152) -/

/-- The coil of a contactor that was closed turns off, and its break is counted. -/
def breakCoil (second : Bool) (i : Nat) (s : State) : State := setCoil second false (countBreak second i s)

theorem breakCoil_contacts : (breakCoil second i s).sw.contacts = (s.sw.contacts.broken second).command second false := by
  rw [breakCoil, setCoil_contacts, countBreak_sw]
  cases second <;> rfl

/-- The pair with what an opening ends, before its coils turn off. -/
def openingBegun (s : State) : State := clearArm (openingBoundary s)

/-- The coils that are on have turned off, K1 first. -/
def coilsBroken (i : Nat) (s : State) : State :=
  if s.sw.k2 then breakCoil true i (if s.sw.k1 then breakCoil false i s else s) else if s.sw.k1 then breakCoil false i s else s

theorem openNow_both (hon : coilOn s = true) :
    openNow true true s = (coilsBroken (largestI s) (openingBegun s)).updSw Sw.openingLeft := by
  have hnone : (!(true && s.sw.k1) && !(true && s.sw.k2)) = false := by
    unfold coilOn at hon
    cases h1 : s.sw.k1 <;> cases h2 : s.sw.k2 <;> simp [h1, h2] at hon ⊢
  unfold openNow
  dsimp only
  rw [hnone]
  rfl

theorem openNow_contacts (hon : coilOn s = true) : (openNow true true s).sw.contacts = s.sw.contacts.opened := by
  have hbegun : (openingBegun s).sw = s.sw := rfl
  have hleft (t : State) : (t.updSw Sw.openingLeft).sw.contacts = t.sw.contacts.openingLeft := rfl
  rw [openNow_both hon, hleft, coilsBroken, hbegun]
  unfold coilOn at hon
  cases h1 : s.sw.k1 <;> cases h2 : s.sw.k2
  · simp [h1, h2] at hon
  all_goals
    simp only [if_true, if_false, Bool.false_eq_true, breakCoil_contacts, hbegun]
    simp [Sw.openingLeft, Sw.broken, Sw.command, Sw.opened, Sw.contacts, h1, h2]

/-- After it both contactors are commanded open. -/
theorem openNow_open : (openNow true true s).sw.k1 = false ∧ (openNow true true s).sw.k2 = false := by
  cases hon : coilOn s with
  | true =>
    have hcontacts := openNow_contacts hon
    exact ⟨(congrArg (·.k1) hcontacts :), (congrArg (·.k2) hcontacts :)⟩
  | false =>
    rw [openNow_off hon]
    exact Bool.or_eq_false_iff.mp hon

end

/-! ## The fields they write -/

/-- The fields that a health bit writes with its doorbell (R16). -/
def healthWrites (b : Nat) : List Field := [⟨0x00000080, b, 1, 0⟩, Reg.MB_OUT_PEND_PEND 0]

/-- The fields that an immediate opening writes. -/
def openWrites : List Field :=
  [Reg.CONT_STATUS_ARMED, Reg.CONT_LASTBRK_K1, Reg.CONT_LASTBRK_K2, ⟨0x00000080, 6, 1, 0⟩, Reg.MB_OUT_PEND_PEND 0]

section
variable {n : Fin 12} {f : OutCh → OutCh} {s : State} {second : Bool} {i : Nat}

theorem updSw_writes {fs : List Field} {a : State} (h : Writes fs a s) {w : Sw → Sw} : Writes fs a (s.updSw w) :=
  h.trans (.of_regs rfl rfl)

theorem boundaries_writes {fs gs : List Field} {a : State} (h : Writes fs a s) : Writes fs a (boundaries gs s) := by
  refine h.trans ?_
  induction gs generalizing s a with
  | nil => exact .refl s
  | cons g gs ih => exact .trans (t := boundary g s) (.of_regs rfl rfl) (ih (.refl _))

theorem setHealth_writes {b : Nat} (hb : b < 32) : Writes (healthWrites b) s (setHealth b s) := by
  have harm : Reg.CONT_STATUS_ARMED.key ≠ (⟨0x00000080, b, 1, 0⟩ : Field).key :=
    Field.key_ne (show (0x5000C : Nat) ≠ 0x80 by decide) (by decide) hb
  exact .ite (.refl s) (raiseFw_writes (setF_writes (setF_writes (.refl s) (by simp [healthWrites]) harm)
    (by simp [healthWrites]) (by decide)))

theorem outReady_writes : Writes (healthWrites 2) s (outReady n s) :=
  boundaries_writes (.ite (.trans (raiseHw_writes (updSw_writes (.refl s))) (setHealth_writes (by decide))) (.refl s))

theorem switchOut_writes {fs : List Field} : Writes fs s (switchOut n f s) :=
  .of_regs (switchOut_regs f) (congrArg Hlc.matched (switchOut_session (.refl s)).hlc)

theorem outOn_writes : Writes (healthWrites 2) s (outOn n s) := by
  cases h : (outCh n s).on with
  | true =>
    rw [outOn, if_pos h]
    exact .refl s
  | false =>
    rw [outOn_off h]
    exact outReady_writes.trans switchOut_writes

theorem coilOn_writes : Writes (healthWrites 2) s (setCoil second true s) := by
  unfold setCoil
  refine .trans (t := match coilOutput second s with | some n => outOn n s | none => s) ?_ (.of_regs rfl rfl)
  split
  · exact outOn_writes
  · exact .refl s

theorem coilOff_regs : (setCoil second false s).regs = s.regs := by
  unfold setCoil
  dsimp only [State.updSw_regs]
  split
  · exact outOff_regs
  · rfl

/-- The coil that turns off writes no field. -/
theorem coilOff_writes {fs : List Field} : Writes fs s (setCoil second false s) :=
  .of_regs coilOff_regs (congrArg Hlc.matched (coilOff_session (.refl s)).hlc)

theorem wornCheck_writes : Writes (healthWrites 6) s (wornCheck s) := .ite (setHealth_writes (by decide)) (.refl s)

theorem countBreak_writes : Writes openWrites s (countBreak second i s) := by
  have hkept : lastBreak second ∈ openWrites ∧ Reg.CONT_STATUS_ARMED.key ≠ (lastBreak second).key := by
    cases second <;> decide
  rw [countBreak_eq]
  exact (setF_writes (updSw_writes (.refl s)) hkept.1 hkept.2).trans (wornCheck_writes.mono (by decide))

theorem breakCoil_writes : Writes openWrites s (breakCoil second i s) := countBreak_writes.trans coilOff_writes

theorem openNow_writes {a b : Bool} : Writes openWrites s (openNow a b s) := by
  have hbegun : Writes openWrites s (openingBegun s) := clearArm_writes (boundaries_writes (.refl s)) (by decide)
  exact .ite (.refl s) (updSw_writes (.when (.when hbegun fun h => h.trans breakCoil_writes) fun h => h.trans breakCoil_writes))

end

end Sys2Proof.Machine
end

section
/-! SUPPORT. The rows of the outputs: OUT_ON and OUT_OFF as a strand writes them, and what turns an output off or on again by
itself (08 R161 to R170). -/
namespace Sys2Proof.Machine

/-! ## Port writes that are not held (04 R81) -/

section
variable {k : Fin 320} {port x : Nat} {arg v : Word} {i : PortInfo} {s : State} {c : Instr} {P : State → Prop}

/-- A write that is not held takes effect on a state whose Capstan alone may differ. -/
theorem portRow_gives_unheld (hon : domainOn 7 s = true) (hheld : putHeld k port arg (portLimit port arg v s) s = false)
    (hexec : exec c s = .next (portRow k port arg v s))
    (h : ∀ d, P (applyPort k port arg (portLimit port arg v s) (s.updCap fun _ => d))) : Gives c s P := by
  refine ⟨_, hexec, ?_⟩
  obtain ⟨d, hd⟩ := putNow_eq (n := k) (port := port) (arg := arg) (x := portLimit port arg v s) (s := s)
  have hnow : portRow k port arg v s = putNow k port arg (portLimit port arg v s) s := by
    simp [portRow, hon, hheld]
  rw [hnow, hd]
  exact h d

/-- A write to a Safe port is never held. -/
theorem putHeld_safe (hinfo : portInfo port = some i) (hcls : i.cls = .safe) : putHeld k port arg x s = false := by
  simp [putHeld, hinfo, hcls]

/-- A write to a port of blocks 0x4 to 0xB. -/
theorem applyPort_high (hhub : hubPort port = false) (hhigh : 0x400 ≤ port) :
    applyPort k port arg x s = portWrite4 k port arg x s := by
  have hctrl : port ≠ 0x002 := by omega
  simp [applyPort, hhub, hctrl, portWrite, Nat.not_lt.mpr hhigh]

end

/-! ## The mask of one output -/

section
variable {n m : Fin 12} {s : State}

/-- The bits of `2 ^ n` name output `n` alone. -/
theorem named_single : named (2 ^ n.val) m = decide (m = n) := by
  rw [named, Nat.testBit_two_pow]
  exact decide_eq_decide.mpr ⟨fun h => (Fin.ext h).symm, fun h => congrArg Fin.val h.symm⟩

theorem named_or (a b : Nat) : named (a ||| b) n = (named a n || named b n) := Nat.testBit_or ..

/-- A step that does something for one number only, over all of them. -/
theorem foldl_single {α β : Type} {g : β → α → β} {x : α} (hskip : ∀ b, ∀ y, y ≠ x → g b y = b) {l : List α} (hnodup : l.Nodup)
    (hx : x ∈ l) (b : β) : l.foldl g b = g b x := by
  have hrest : ∀ l : List α, x ∉ l → ∀ b, l.foldl g b = b := by
    intro l hl
    induction l with
    | nil => exact fun _ => rfl
    | cons y l ih =>
      have hy : y ≠ x := (List.ne_of_not_mem_cons hl).symm
      exact fun b => by rw [List.foldl_cons, hskip b y hy, ih (List.not_mem_of_not_mem_cons hl)]
  induction l generalizing b with
  | nil => exact absurd hx List.not_mem_nil
  | cons y l ih =>
    obtain ⟨hy, hl⟩ := List.nodup_cons.mp hnodup
    rw [List.foldl_cons]
    rcases List.mem_cons.mp hx with rfl | hxl
    · exact hrest l hy _
    · rw [hskip b y fun e => hy (e ▸ hxl), ih hl hxl]

/-- OUT_ON does nothing while the outputs are not the forme's to switch (R164). -/
theorem putOutOn_unserved {mask : Nat} (hunserved : outputsServed s = false) : putOutOn mask s = s :=
  if_pos (by rw [hunserved]; rfl)

section
variable (hcoil : named (coilMask s) n = false) (hlock : named (lockMask s) n = false)
include hcoil hlock

/-- OUT_ON of one output that is the forme's to switch. -/
theorem putOutOn_single (hserved : outputsServed s = true) : putOutOn (2 ^ n.val) s = outOn n (clearCauseOn n s) := by
  unfold putOutOn
  rw [hserved, if_neg nofun]
  dsimp only
  rw [foldl_single (x := n) (fun b m hm => ?_) (List.nodup_finRange 12) (List.mem_finRange n)]
  · rw [named_single, named_or, hcoil, hlock]
    simp
  · simp [named_single, hm]

/-- OUT_OFF of one output that is the forme's to switch: no coil bit is in the mask. -/
theorem putOutOff_single : putOutOff (2 ^ n.val) s = outOff n s := by
  have hnone (j : Nat) : (2 ^ n.val &&& coilMask s).testBit j = false := by
    rw [Nat.testBit_and, Nat.testBit_two_pow]
    by_cases hj : n.val = j
    · rw [← hj]
      have hbit : (coilMask s).testBit n.val = false := hcoil
      rw [hbit, Bool.and_false]
    · simp [hj]
  unfold putOutOff
  dsimp only
  rw [hnone, hnone, Bool.or_self, if_neg nofun, foldl_single (x := n) (fun b m hm => ?_) (List.nodup_finRange 12) (List.mem_finRange n)]
  · rw [named_single, named_or, hcoil, hlock]
    simp
  · simp [named_single, hm]

end

/-- OUT_ON and OUT_OFF take twelve bits. -/
theorem portLimit_single {port : Nat} (hport : port = 0x403 ∨ port = 0x404) :
    portLimit port 0 (BitVec.ofNat 32 (2 ^ n.val)) s = 2 ^ n.val := by
  have hlt : 2 ^ n.val < 2 ^ 12 := Nat.pow_lt_pow_right (by decide) n.isLt
  have hnat : (BitVec.ofNat 32 (2 ^ n.val)).toNat = 2 ^ n.val := by
    rw [BitVec.toNat_ofNat, Nat.mod_eq_of_lt (by omega)]
  rcases hport with rfl | rfl
  · rw [portLimit_eq (i := ⟨.out, .outward, .none, 12, false, none⟩) (by decide) (by decide) rfl rfl (by rwa [hnat]), hnat]
  · rw [portLimit_eq (i := ⟨.out, .safe, .direct, 12, false, none⟩) (by decide) (by decide) rfl rfl (by rwa [hnat]), hnat]

/-! ## An output turns on (R162, R163) -/

theorem cause_besideHealth (n : Fin 12) : (Reg.OUT_DIAG_CAUSE n.val).beside (healthWrites 2) = true := by
  revert n
  decide

/-- What OUT_ON makes of an output that was off: its inrush window opens; alone it drives its high side; in a bridge it drives
against its partner's low side, or both low sides (R162, R169). -/
theorem outOn_gives (hr : risingFrom 0 s.regs = true) (hoff : (outCh n s).on = false) :
    (outCh n (outOn n s)).inrush = true ∧
      (partner n s = none → (outCh n (outOn n s)).high = true ∧ (outCh n (outOn n s)).low = false) ∧
      ∀ m, partner n s = some m → (outCh n (outOn n s)).high = !(outCh m s).on ∧ (outCh n (outOn n s)).low = (outCh m s).on ∧
        (outCh m (outOn n s)).high = false ∧ (outCh m (outOn n s)).low = !(outCh m s).hot := by
  have hpartner : partner n (outReady n s) = partner n s :=
    partner_of_reads fun f hf => outReady_writes.reads hr f (by revert f; decide)
  have hout (m : Fin 12) : outCh m (outReady n s) = outCh m s := congrArg (·.get m) outReady_outs
  rw [outOn_off hoff]
  refine ⟨?_, fun halone => ?_, fun m hm => ?_⟩
  · obtain ⟨p, hp⟩ := outCh_switchOut n (fun o => { o with on := true, hot := false, inrush := true }) (outReady n s)
    rw [hp, OutCh.drive_inrush]
  · rw [outCh_switchOut_alone (hpartner.trans halone)]
    exact ⟨rfl, rfl⟩
  · obtain ⟨hn, hm⟩ := outCh_switchOut_bridged (f := fun o => { o with on := true, hot := false, inrush := true })
      (hpartner.trans hm)
    rw [hn, hm, hout m]
    simp [OutCh.drive]

theorem outReady_others : OthersKept n s (outReady n s) :=
  .of_outs outReady_outs outReady_writes.rising fun hr f hf => outReady_writes.reads hr f (by revert f; decide)

theorem outOn_others : OthersKept n s (outOn n s) := by
  cases h : (outCh n s).on with
  | true =>
    rw [outOn, if_pos h]
    exact .refl s
  | false =>
    rw [outOn_off h]
    exact outReady_others.trans switchOut_others

theorem clearCauseOn_others : OthersKept n s (clearCauseOn n s) := .ite (.refl s) (.setF (cause_beside n))

theorem clearCauseOn_sw : (clearCauseOn n s).sw = s.sw := by
  unfold clearCauseOn
  split <;> rfl

/-- OUT_ON clears a cause other than the open-load ones. -/
theorem clearCauseOn_cause (hr : risingFrom 0 s.regs = true) (hcause : 2 < getF s (Reg.OUT_DIAG_CAUSE n.val)) :
    getF (clearCauseOn n s) (Reg.OUT_DIAG_CAUSE n.val) = 0 := by
  have hother : ¬(outCause n s = 1 ∨ outCause n s = 2) := by
    unfold outCause
    omega
  unfold clearCauseOn
  rw [if_neg hother]
  exact getF_setF_same hr _ _

/-- OUT_ON of one output: it is on, in its bridge as `outOn_gives` says, and a latched cause is cleared. -/
theorem turnedOn_gives (hr : risingFrom 0 s.regs = true) {t : State} (ht : t = outOn n (clearCauseOn n s)) :
    (outCh n t).on = true ∧
      ((outCh n s).on = false → (outCh n t).inrush = true ∧
        (partner n s = none → (outCh n t).high = true ∧ (outCh n t).low = false) ∧
        ∀ m, partner n s = some m → (outCh n t).high = !(outCh m s).on ∧ (outCh n t).low = (outCh m s).on ∧
          (outCh m t).high = false ∧ (outCh m t).low = !(outCh m s).hot) ∧
      (2 < getF s (Reg.OUT_DIAG_CAUSE n.val) → getF t (Reg.OUT_DIAG_CAUSE n.val) = 0) ∧ OthersKept n s t := by
  have hout (m : Fin 12) : outCh m (clearCauseOn n s) = outCh m s := by rw [outCh, clearCauseOn_sw]; rfl
  have hclear : OthersKept n s (clearCauseOn n s) := clearCauseOn_others
  have hrc := hclear.rising hr
  have hpartner := hclear.partner hr
  subst ht
  refine ⟨outOn_on, fun hoff => ?_, fun hcause => ?_, hclear.trans outOn_others⟩
  · have hgives := outOn_gives hrc ((congrArg (·.on) (hout n)).trans hoff)
    simpa only [hpartner, hout] using hgives
  · exact (outOn_writes.reads hrc _ (cause_besideHealth n)).trans (clearCauseOn_cause hr hcause)

/-! ## Thermal shutdown and restart (R163) -/

theorem inForce_boundary (hsh : risingFrom 0 s.shadow = true) (f : Field) : inForce (boundary f s) f = getF s f :=
  mapGet_mapSet_same hsh ..

theorem shadow_rising (hwf : Memory.wf s = true) : risingFrom 0 s.shadow = true := by
  unfold Memory.wf at hwf
  exact (Bool.and_eq_true _ _ ▸ hwf).2

theorem setCause_others {c : Nat} : OthersKept n s (setCause n c s) := .setF (cause_beside n)

theorem setCause_cause (hr : risingFrom 0 s.regs = true) {c : Nat} (hc : c < 16) :
    getF (setCause n c s) (Reg.OUT_DIAG_CAUSE n.val) = c := (getF_setF_same hr _ _).trans (Nat.mod_eq_of_lt hc)

/-- A cell that has got too hot shuts off and awaits its restart. -/
def shutHot (n : Fin 12) (s : State) : State :=
  setCause n 7 (switchOut n (fun o => { o with hot := true }) (clampEnergy n (boundary Reg.OUT_TIMING_THERM_RETRY s)))

theorem shutHot_gives (hr : risingFrom 0 s.regs = true) : (outCh n (shutHot n s)).on = (outCh n s).on ∧
    (outCh n (shutHot n s)).hot = true ∧ getF (shutHot n s) (Reg.OUT_DIAG_CAUSE n.val) = 7 ∧ OthersKept n s (shutHot n s) := by
  have hclamped : outCh n (clampEnergy n (boundary Reg.OUT_TIMING_THERM_RETRY s)) = outCh n s :=
    congrArg (·.get n) clampEnergy_outs
  obtain ⟨p, hp⟩ := outCh_switchOut n (fun o => { o with hot := true }) (clampEnergy n (boundary Reg.OUT_TIMING_THERM_RETRY s))
  rw [hclamped] at hp
  have hout : outCh n (shutHot n s) = ({ outCh n s with hot := true } : OutCh).drive p := hp
  have hregs : (switchOut n (fun o => { o with hot := true }) (clampEnergy n (boundary Reg.OUT_TIMING_THERM_RETRY s))).regs =
      s.regs := (switchOut_regs _).trans clampEnergy_regs
  refine ⟨by rw [hout, OutCh.drive_on], by rw [hout, OutCh.drive_hot], setCause_cause (hregs ▸ hr) (by decide), ?_⟩
  have hbound : OthersKept n s (boundary Reg.OUT_TIMING_THERM_RETRY s) := .of_regs rfl rfl
  exact ((hbound.trans clampEnergy_others).trans switchOut_others).trans setCause_others

section
variable (hsh : risingFrom 0 s.shadow = true) (hon : (outCh n s).on = true) (hcool : (outCh n s).hot = false)
include hsh hon hcool

/-- A shutdown is latched once the permitted restarts are spent. -/
theorem execThermalShutdown_eq : exec (.thermalShutdown n) s = .next (raiseHw 0x12 (2 ^ n.val)
    (if getF s Reg.OUT_TIMING_THERM_RETRY ≤ (recentRestarts n s).length then
      latchOff n 4 (boundary Reg.OUT_TIMING_THERM_RETRY s) else shutHot n s)) := by
  show execThermalShutdown n s = _
  unfold execThermalShutdown
  rw [hon, hcool, if_neg (by decide)]
  dsimp only
  rw [inForce_boundary hsh]
  rfl

end

/-- The cell has cooled down, and its restart is noted with its time. -/
def restartCool (n : Fin 12) (s : State) : State :=
  switchOut n (fun o => { o with hot := false, restarts := s.sys.usec :: recentRestarts n s }) s

theorem execThermalRestart_eq (hon : (outCh n s).on = true) (hhot : (outCh n s).hot = true)
    (hcause : getF s (Reg.OUT_DIAG_CAUSE n.val) = 7) : exec (.thermalRestart n) s = .next (setCause n 0 (restartCool n s)) := by
  have hshown : outCause n (restartCool n s) = 7 := by
    unfold outCause getF restartCool
    rw [switchOut_regs]
    exact hcause
  show execThermalRestart n s = _
  unfold execThermalRestart
  rw [hon, hhot, Bool.and_self, if_pos rfl]
  dsimp only
  exact congrArg Host.Outcome.next (if_pos hshown)

theorem restartCool_gives (hr : risingFrom 0 s.regs = true) : (outCh n (setCause n 0 (restartCool n s))).on = (outCh n s).on ∧
    (outCh n (setCause n 0 (restartCool n s))).hot = false ∧
    getF (setCause n 0 (restartCool n s)) (Reg.OUT_DIAG_CAUSE n.val) = 0 ∧
    OthersKept n s (setCause n 0 (restartCool n s)) := by
  obtain ⟨p, hp⟩ := outCh_switchOut n (fun o => { o with hot := false, restarts := s.sys.usec :: recentRestarts n s }) s
  have hout : outCh n (setCause n 0 (restartCool n s)) =
      ({ outCh n s with hot := false, restarts := s.sys.usec :: recentRestarts n s } : OutCh).drive p := hp
  have hregs : (restartCool n s).regs = s.regs := switchOut_regs _
  exact ⟨by rw [hout, OutCh.drive_on], by rw [hout, OutCh.drive_hot], setCause_cause (hregs ▸ hr) (by decide),
    OthersKept.trans (t := restartCool n s) switchOut_others setCause_others⟩

/-! ## Open load and the governor (R165, R170) -/

/-- An output that is on and draws too little is reported. -/
theorem openLoad_found (hon : (outCh n s).on = true) {r : BitVec 16} (hlow : r.toNat < openLoadLevel n s)
    (hcause : getF s (Reg.OUT_DIAG_CAUSE n.val) = 0) : openLoad n r s = raiseHw 0x12 (2 ^ n.val) (setCause n 1 s) := by
  have hnone : outCause n s = 0 := hcause
  unfold openLoad
  simp [hon, hlow, hnone]

/-- The governor turns off the output it picks, and notes it. -/
theorem governorAct_gives (hr : risingFrom 0 s.regs = true) (hgov : governed s = some n) :
    (outCh n (governorAct s)).on = false ∧ getF (governorAct s) (Reg.OUT_DIAG_CAUSE n.val) = 6 ∧
      getF (governorAct s) Reg.OUT_GOV_LAST = 2 ^ n.val ∧ OthersKept n s (governorAct s) := by
  obtain ⟨hoff, hcause, hothers⟩ := latchOff_gives (n := n) hr (show 6 < 16 by decide)
  have hkeys : (Reg.OUT_DIAG_CAUSE n.val).key ≠ Reg.OUT_GOV_LAST.key ∧ (Reg.OUT_DIAG_CAUSE n.val).key ≠ Reg.OUT_GOV_COUNT.key := by
    clear hoff hcause hothers hgov
    revert n
    decide
  have hr1 := hothers.rising hr
  have hr2 : risingFrom 0 (incF Reg.OUT_GOV_COUNT (latchOff n 6 s)).regs = true := setF_regs_rising hr1 _ _
  have heq : governorAct s = raiseHw 0x13 (2 ^ n.val) (setF Reg.OUT_GOV_LAST (2 ^ n.val) (incF Reg.OUT_GOV_COUNT (latchOff n 6 s))) := by
    unfold governorAct
    rw [hgov]
  have hread (f : Field) : getF (governorAct s) f =
      getF (setF Reg.OUT_GOV_LAST (2 ^ n.val) (incF Reg.OUT_GOV_COUNT (latchOff n 6 s))) f := by
    rw [heq, getF, raiseHw_regs]
    rfl
  refine ⟨?_, ?_, ?_, ?_⟩
  · rw [heq, outCh, raiseHw_sw]
    exact hoff
  · rw [hread, getF_setF_other hr2 hkeys.1]
    exact (getF_setF_other hr1 hkeys.2 _).trans hcause
  · rw [hread]
    refine (getF_setF_same hr2 _ _).trans (Nat.mod_eq_of_lt ?_)
    exact Nat.pow_lt_pow_right (by decide) n.isLt
  · rw [heq]
    exact ((hothers.trans (.setF (by decide))).trans (.setF (by decide))).trans (.raiseHw ..)

end

end Sys2Proof.Machine
end

section
/-! SUPPORT. The undervoltage of VSYS and its end (08 R164, 20 R442). -/
namespace Sys2Proof.Machine

section
variable {s : State}

/-- VSYS is noted as low, or as good again. -/
def supplyNoted (low : Bool) (s : State) : State :=
  setF Reg.PWR_STATUS_VSYS_LOW (ofBool low) (s.updSys fun y => { y with vsysLow := low })

/-- The outputs `was` names as on turn off for UNDERVOLT. -/
def outputsCut (was : Vector OutCh 12) (s : State) : State :=
  (List.finRange 12).foldl (fun s n => if (was.get n).on then latchOff n 5 s else s) s

/-- The module without VSYS, before the pilot line follows. -/
def undervolted (s : State) : State :=
  (supervisorStop (outputsCut s.sw.outs (openNow true true (supplyNoted true s)))).updPilot fun p => { p with formeF := true }

theorem undervolt_eq : undervolt s = settle (undervolted s) := rfl

theorem vsysRecovered_eq : vsysRecovered s = settle (supplyNoted false s) := rfl

theorem latchOff_calm {a : State} {n : Fin 12} {cause : Nat} (h : Calm quiet a s) : Calm quiet a (latchOff n cause s) := by
  have hcause : (Reg.OUT_DIAG_CAUSE n.val).apart quiet = true := by
    revert n
    decide
  exact fenceOutputs_calm (setF_calm hcause (outOff_calm h))

theorem outputsCut_calm {a : State} {was : Vector OutCh 12} (h : Calm quiet a s) : Calm quiet a (outputsCut was s) :=
  .foldl (fun _ _ h => .when h latchOff_calm) h

theorem outputsCut_sysKept {was : Vector OutCh 12} : SysKept s (outputsCut was s) :=
  .foldl (fun s _ => .when (.refl s) fun h => latchOff_sysKept h) _ s

/-- Each output that was on is off once its turn has come, and none turns on again. -/
theorem outputsCut_off {was : Vector OutCh 12} {m : Fin 12} (hwas : (was.get m).on = true) (s : State) :
    (outCh m (outputsCut was s)).on = false := by
  suffices h : ∀ l : List (Fin 12), m ∈ l → ∀ s : State,
      (outCh m (l.foldl (fun s n => if (was.get n).on then latchOff n 5 s else s) s)).on = false from h _ (List.mem_finRange m) s
  intro l
  induction l with
  | nil => nofun
  | cons n l ih =>
    intro hm s
    rcases List.mem_cons.mp hm with rfl | hl
    · have hrest : Calm quiet (latchOff m 5 s) (l.foldl (fun s n => if (was.get n).on then latchOff n 5 s else s) (latchOff m 5 s)) :=
        .foldl (fun _ _ h => .when h latchOff_calm) (.refl _)
      rw [List.foldl_cons, hwas, if_pos rfl]
      exact hrest.outs m (outOff_off m s)
    · exact ih hl _

theorem undervolted_calm : Calm quiet (supplyNoted true s) (undervolted s) :=
  updPilot_calm (supervisorStop_calm (outputsCut_calm (openNow_calm (.refl _)))) rfl

theorem undervolted_off (m : Fin 12) : (outCh m (undervolted s)).on = false := by
  have hstop (t : State) : Calm quiet t (supervisorStop t) := supervisorStop_calm (.refl t)
  refine (hstop _).outs m ?_
  cases hwas : (s.sw.outs.get m).on with
  | true => exact outputsCut_off hwas _
  | false =>
    have hcut : Calm quiet (supplyNoted true s) (outputsCut s.sw.outs (openNow true true (supplyNoted true s))) :=
      outputsCut_calm (openNow_calm (.refl _))
    exact hcut.outs m hwas

theorem undervolted_open : (undervolted s).sw.k1 = false ∧ (undervolted s).sw.k2 = false := by
  have hcalm : Calm quiet (openNow true true (supplyNoted true s)) (undervolted s) :=
    updPilot_calm (supervisorStop_calm (outputsCut_calm (.refl _))) rfl
  exact ⟨hcalm.k1 openNow_open.1, hcalm.k2 openNow_open.2⟩

theorem supervisorStop_pwmReq : (supervisorStop s).pilot.pwmReq = false := by
  have hdrive : Settles reportFields (s.updPilot fun p => { p with pwmReq := false, deferPwm := false }) (stopPwm s) :=
    driveLine_settles
  exact hdrive.pwmReq

theorem supplyNoted_shows (hr : risingFrom 0 s.regs = true) (low : Bool) :
    getF (supplyNoted low s) Reg.PWR_STATUS_VSYS_LOW = ofBool low := by
  refine (getF_setF_same (s := s.updSys _) hr _ _).trans ?_
  cases low <;> rfl

/-- Without VSYS every output and both contactors are off, PWM stops, and the pilot stays at F. -/
theorem undervolt_gives (hr : risingFrom 0 s.regs = true) : (∀ m, (outCh m (undervolt s)).on = false) ∧
    (undervolt s).sw.k1 = false ∧ (undervolt s).sw.k2 = false ∧ (undervolt s).pilot.pwmReq = false ∧
    (undervolt s).pilot.formeF = true ∧ (undervolt s).sys.vsysLow = true ∧ getF (undervolt s) Reg.PWR_STATUS_VSYS_LOW = 1 := by
  obtain ⟨hk1, hk2⟩ := undervolted_open (s := s)
  have hrnoted : risingFrom 0 (supplyNoted true s).regs = true :=
    setF_regs_rising (s := s.updSys fun y => { y with vsysLow := true }) hr _ _
  have hcalm := undervolted_calm (s := s)
  have hset : Settles lineFields (undervolted s) (settle (undervolted s)) :=
    settle_settles (Bool.or_eq_false_iff.mpr ⟨hk1, hk2⟩) (hcalm.rising hrnoted)
  have hsys : SysKept (supplyNoted true s) (settle (undervolted s)) :=
    settle_sysKept (updPilot_sysKept (supervisorStop_sysKept (.trans (openNow_sysKept (.refl _)) outputsCut_sysKept)))
  have hpwr := (settle_calm hcalm).reads hrnoted Reg.PWR_STATUS_VSYS_LOW (by decide) (by decide)
  rw [undervolt_eq]
  refine ⟨fun m => ?_, (congrArg (·.k1) hset.sw).trans hk1, (congrArg (·.k2) hset.sw).trans hk2, hset.pwmReq.trans supervisorStop_pwmReq,
    hset.formeF, hsys.vsysLow, hpwr.trans (supplyNoted_shows hr true)⟩
  rw [outCh, hset.sw]
  exact undervolted_off m

/-- With VSYS back the undervoltage is over, and with the coils off no output turns on or off. -/
theorem vsysRecovered_gives (hr : risingFrom 0 s.regs = true) : (vsysRecovered s).sys.vsysLow = false ∧
    getF (vsysRecovered s) Reg.PWR_STATUS_VSYS_LOW = 0 ∧
    (coilOn s = false → ∀ m, (outCh m (vsysRecovered s)).on = (outCh m s).on) := by
  have hrnoted : risingFrom 0 (supplyNoted false s).regs = true :=
    setF_regs_rising (s := s.updSys fun y => { y with vsysLow := false }) hr _ _
  have hsys : SysKept (supplyNoted false s) (settle (supplyNoted false s)) := settle_sysKept (.refl _)
  have hcalm : Calm quiet (supplyNoted false s) (settle (supplyNoted false s)) := settle_calm (.refl _)
  rw [vsysRecovered_eq]
  refine ⟨hsys.vsysLow, (hcalm.reads hrnoted _ (by decide) (by decide)).trans (supplyNoted_shows hr false), fun hcoil m => ?_⟩
  rw [outCh, (settle_settles (s := supplyNoted false s) hcoil hrnoted).sw]
  rfl

end

end Sys2Proof.Machine

open Sys2Proof Sys2Proof.Machine

/-- Settles O28: each row switches one output, whose own cells and its bridge partner's follow, and what else the row does touches
no output; with the coils off the pilot line settles without touching one. The thermal rows are 08 R163, the bridge 08 R169, and
the pilot at F with PWM stopped 20 R442; that VSYS comes first among what drives the line is the model's choice (assumption log
24). -/
theorem protectedOutputs : Obligations.ProtectedOutputs := by
  unfold Obligations.ProtectedOutputs
  intro n s hwf hpower hon mask others
  have hr := regs_rising hwf
  have hothers {t : State} (h : OthersKept n s t) : others t := h.others hr
  refine ⟨fun hserved hcoil hlock k hspec => ?outOn, fun k hspec hunserved => ?unserved, fun k hcoil hlock => ?outOff, ?inrush,
    fun hturned => ⟨?overload, fun hcool hfew => ?shut, fun hcool hmany => ?latched, fun hhot hcause => ?restart,
      fun r hlow hcause => ?openLoad, fun hgov => ?governor⟩, ?undervolt, ?recovered⟩
  case outOn =>
    refine portRow_gives_plain hpower hspec rfl (port := 0x403) rfl (.inr rfl) ?_
    rw [portLimit_single (.inl rfl), applyPort_high rfl (by decide)]
    obtain ⟨hturned, hcells, hcleared, hkept⟩ := turnedOn_gives hr (putOutOn_single hcoil hlock hserved)
    exact ⟨hturned, hcells, hcleared, hothers hkept⟩
  case unserved =>
    refine portRow_gives_plain hpower hspec rfl (port := 0x403) rfl (.inr rfl) ?_
    rw [portLimit_single (.inl rfl), applyPort_high rfl (by decide)]
    have hnone : putOutOn (2 ^ n.val) s = s := putOutOn_unserved hunserved
    exact ⟨congrArg State.sw hnone, congrArg State.regs hnone⟩
  case outOff =>
    refine portRow_gives_unheld hpower (putHeld_safe rfl rfl) rfl (port := 0x404) fun d => ?_
    rw [portLimit_single (.inr rfl), applyPort_high rfl (by decide)]
    let u := s.updCap fun _ => d
    have hoff : putOutOff (2 ^ n.val) u = outOff n u := putOutOff_single hcoil hlock
    have hkept : OthersKept n s (outOff n u) := .trans (t := u) (.of_regs rfl rfl) outOff_others
    have hcontacts : (outOff n u).sw.contacts = s.sw.contacts := outOff_contacts
    show (outCh n (putOutOff (2 ^ n.val) u)).on = false ∧ others (putOutOff (2 ^ n.val) u) ∧
      (putOutOff (2 ^ n.val) u).sw.k1 = s.sw.k1 ∧ (putOutOff (2 ^ n.val) u).sw.k2 = s.sw.k2
    rw [hoff]
    exact ⟨outOff_off n u, hothers hkept, congrArg (·.k1) hcontacts, congrArg (·.k2) hcontacts⟩
  case inrush => exact ⟨_, rfl, outCh_modOut_same .., hothers modOut_others, rfl⟩
  case overload =>
    obtain ⟨hoff, hcause, hkept⟩ := latchOff_gives (n := n) hr (show 3 < 16 by decide)
    refine gives_supervised rfl hon ?_
    rw [hturned, if_pos rfl]
    refine ⟨?_, ?_, hothers (hkept.trans (.raiseHw ..))⟩
    · rwa [outCh_raiseHw]
    · rwa [getF_raiseHw]
  case shut =>
    obtain ⟨hstays, hhot, hcause, hkept⟩ := shutHot_gives (n := n) hr
    refine .of_eq (execThermalShutdown_eq (shadow_rising hwf) hturned hcool) (by rw [if_neg (by omega)]) ?_
    refine ⟨?_, ?_, ?_, hothers (hkept.trans (.raiseHw ..))⟩
    · rwa [outCh_raiseHw, hstays]
    · rwa [outCh_raiseHw]
    · rwa [getF_raiseHw]
  case latched =>
    obtain ⟨hoff, hcause, hkept⟩ := latchOff_gives (n := n) (s := boundary Reg.OUT_TIMING_THERM_RETRY s) hr (show 4 < 16 by decide)
    refine .of_eq (execThermalShutdown_eq (shadow_rising hwf) hturned hcool) (by rw [if_pos hmany]) ?_
    have hbound : OthersKept n s (boundary Reg.OUT_TIMING_THERM_RETRY s) := .of_regs rfl rfl
    refine ⟨?_, ?_, hothers (hbound.trans (hkept.trans (.raiseHw ..)))⟩
    · rwa [outCh_raiseHw]
    · rwa [getF_raiseHw]
  case restart =>
    obtain ⟨hstays, hcool, hclear, hkept⟩ := restartCool_gives (n := n) hr
    exact ⟨_, execThermalRestart_eq hturned hhot hcause, hstays.trans hturned, hcool, hclear, hothers hkept⟩
  case openLoad =>
    refine gives_supervised rfl hon ?_
    rw [openLoad_found hturned hlow hcause, getF_raiseHw, raiseHw_sw]
    exact ⟨setCause_cause hr (by decide), rfl⟩
  case governor =>
    obtain ⟨hoff, hcause, hlast, hkept⟩ := governorAct_gives hr hgov
    exact ⟨_, rfl, hoff, hcause, hlast, hothers hkept⟩
  case undervolt => exact gives_supervised rfl hon (undervolt_gives hr)
  case recovered => exact gives_supervised rfl hon (vsysRecovered_gives hr)

end

section
/-! SUPPORT. The contactor sequence: a trip with the pair open, the feedback that confirms an opening, and the coils of a disconnect
(08 R149 to R157, 09 R186). -/
namespace Sys2Proof.Machine

/-! ## A trip of any cause, with the coils off (R186) -/

/-- The fields written for a trip of cause `bit`, but for the cause held. -/
def causeWrites (bit : Nat) : List Field :=
  Reg.SAFE_STATUS_SEEN :: Reg.SAFE_LAST_CAUSE :: Reg.MB_OUT_PEND_PEND 2 :: Reg.SAFE_TRIPCNT_COUNT bit :: lineWrites

section
variable {s : State} {bit value : Nat}

theorem lineWrites_subset : lineWrites ⊆ causeWrites bit := fun _ h => by simp [causeWrites, h]

theorem markedTrip_writes :
    Writes (causeWrites bit) (setF Reg.SAFE_STATUS_HELD (held s ||| 2 ^ bit) s) (tripMarked bit s) := by
  have hseen : Writes (causeWrites bit) (setF Reg.SAFE_STATUS_HELD (held s ||| 2 ^ bit) s) (setF Reg.SAFE_STATUS_SEEN
      (getF s Reg.SAFE_STATUS_SEEN ||| 2 ^ bit) (setF Reg.SAFE_STATUS_HELD (held s ||| 2 ^ bit) s)) :=
    setF_writes (.refl _) (by simp [causeWrites]) (by decide)
  have hlast := setF_writes (f := Reg.SAFE_LAST_CAUSE) (v := bit) hseen (by simp [causeWrites]) (by decide)
  exact updSup_writes (clearArm_writes hlast (lineWrites_subset (by decide)))

/-- The pilot line after a trip that has no contactor to open: PWM has stopped. -/
def tripDriven (bit : Nat) (s : State) : State := driveLine (supervisorStop (tripMarked bit s))

/-- EV_TRIP, the doorbell, the event log and the count of a trip (R192). -/
def tripNoted (bit value : Nat) (s : State) : State :=
  incF (Reg.SAFE_TRIPCNT_COUNT bit) (logEvent 1 bit value (ringOut 2 0 (raiseHw 0x08 bit s)))

theorem tripNoted_writes (hbit : bit < 16) : Writes (causeWrites bit) s (tripNoted bit value s) := by
  have harm : Reg.CONT_STATUS_ARMED.key ≠ (Reg.SAFE_TRIPCNT_COUNT bit).key := by
    revert bit
    decide
  have hrung : Writes (causeWrites bit) s (ringOut 2 0 (raiseHw 0x08 bit s)) :=
    setF_writes (raiseHw_writes (.refl s)) (by simp [causeWrites]) (by decide)
  exact setF_writes (logEvent_writes hrung) (by simp [causeWrites]) harm

theorem tripDriven_writes : Writes (causeWrites bit) (tripMarked bit s) (tripDriven bit s) :=
  .trans (fence_writes (stopPwm_writes.mono lineWrites_subset)) (driveLine_writes.mono lineWrites_subset)

theorem tripDriven_sw : (tripDriven bit s).sw = s.sw := by
  have hstop : Settles reportFields _ (stopPwm (tripMarked bit s)) := driveLine_settles
  have hdrive : Settles reportFields (supervisorStop (tripMarked bit s)) (tripDriven bit s) := driveLine_settles
  exact hdrive.sw.trans hstop.sw

section
variable (hcoil : coilOn s = false)
include hcoil

theorem tripCore_off : tripCore bit value s =
    if bit = 0 ∨ bit = 1 ∨ bit = 5 ∨ bit = 6 then logViolation 1 bit value (tripNoted bit value (tripDriven bit s))
    else tripNoted bit value (tripDriven bit s) := by
  have hopen : openNow true true (supervisorStop (tripMarked bit s)) = supervisorStop (tripMarked bit s) :=
    openNow_off (coilOff_supervisorStop (s := tripMarked bit s) hcoil) ..
  rw [tripDriven, ← hopen]
  rfl

theorem causeTrip_writes (hbit : bit < 16) :
    Writes (causeWrites bit) (setF Reg.SAFE_STATUS_HELD (held s ||| 2 ^ bit) s) (tripCore bit value s) := by
  rw [tripCore_off hcoil]
  exact .when ((markedTrip_writes.trans tripDriven_writes).trans (tripNoted_writes hbit)) fun h => logViolation_writes h

/-- The trip leaves the switching block as it is. -/
theorem causeTrip_sw : (tripCore bit value s).sw = s.sw := by
  have hnoted : (tripNoted bit value (tripDriven bit s)).sw = s.sw := by
    rw [tripNoted, incF_sw, logEvent_sw, ringOut_sw, raiseHw_sw, tripDriven_sw]
  rw [tripCore_off hcoil]
  split
  · exact (logViolation_sw ..).trans hnoted
  · exact hnoted

/-- A trip with the coils off: its cause is held, the switching block stays, and no field outside `causeWrites` and
`settleWrites` is written but the cause. -/
theorem openTrip_gives (hr : risingFrom 0 s.regs = true) (hbit : bit < 16) : holds bit (trip bit value s) = true ∧
    (trip bit value s).sw = s.sw ∧ ∀ f : Field, f.beside (causeWrites bit) = true → f.beside settleWrites = true →
      f.key ≠ Reg.SAFE_STATUS_HELD.key → getF (trip bit value s) f = getF s f := by
  have hrheld := setF_regs_rising hr Reg.SAFE_STATUS_HELD (held s ||| 2 ^ bit)
  have hcore := causeTrip_writes (value := value) hcoil hbit
  have hsw : (tripCore bit value s).sw = s.sw := causeTrip_sw hcoil
  have hcoil' : coilOn (tripCore bit value s) = false := by rwa [coilOn, hsw]
  have hrcore := hcore.rising hrheld
  have hsettle : Writes settleWrites (tripCore bit value s) (trip bit value s) := settle_writes hcoil' hrcore
  refine ⟨?_, (settle_settles hcoil' hrcore).sw.trans hsw, fun f hf hs hk => ?_⟩
  · have hbeside : Reg.SAFE_STATUS_HELD.beside (causeWrites bit) = true := by
      clear hcore hrcore hcoil' hsw hrheld hsettle
      revert bit
      decide
    have hheld : held (trip bit value s) = (held s ||| 2 ^ bit) % 2 ^ 16 :=
      ((hsettle.reads hrcore _ (by decide)).trans (hcore.reads hrheld _ hbeside)).trans (getF_setF_same hr _ _)
    rw [holds, hheld, Nat.testBit_mod_two_pow, Nat.testBit_or, Nat.testBit_two_pow_self]
    simp [hbit]
  · exact ((hsettle.reads hrcore f hs).trans (hcore.reads hrheld f hf)).trans (getF_setF_other hr hk _)

end

end

end Sys2Proof.Machine
end

section
/-! SUPPORT. Arming and closing (08 R149 to R151). -/
namespace Sys2Proof.Machine

section
variable {s : State}

/-! ## Arming (R149, R150) -/

/-- A write of 0 to CONT_CLOSE_REQ is safe-direction, so that no galley holds it. -/
theorem putHeld_withdrawal {k : Fin 320} : putHeld k 0x401 0 0 s = false := by
  have hinfo : portInfo 0x401 = some ⟨.both, .byRule, .lower, 1, false, none⟩ := rfl
  have hsafe : putIsSafe k 0x401 (0#32) 0 s = true := beq_iff_eq.mpr (Nat.min_zero _).symm
  simp [putHeld, hinfo]
  exact fun _ => hsafe

theorem applyPort_closeReq {k : Fin 320} {arg : Word} {v : Nat} : applyPort k 0x401 arg v s = putCloseReq v s :=
  applyPort_high rfl (by decide)

theorem armClose_accepted (hfree : refusal s = none) :
    armClose s = setF Reg.CONT_STATUS_ARMED 1 (s.updSw fun w => { w with refused := false }) := by
  unfold armClose
  rw [hfree]

theorem armClose_refused {c : Nat} (hrefused : refusal s = some c) (hr : risingFrom 0 s.regs = true) :
    (armClose s).sw = { s.sw with refused := true } ∧ getF (armClose s) Reg.CONT_FAULT_REFUSE = c ∧
      getF (armClose s) Reg.CONT_STATUS_ARMED = getF s Reg.CONT_STATUS_ARMED := by
  have hc : c < 8 := by
    unfold refusal at hrefused
    split_ifs at hrefused <;> cases hrefused <;> decide
  let u := setF Reg.CONT_FAULT_REFUSE c (s.updSw fun w => { w with refused := true })
  let x := if c = 4 then setF Reg.CONT_FAULT_PRECHECK 1 u else u
  have hru : risingFrom 0 u.regs = true := setF_regs_rising (s := s.updSw _) hr _ _
  have heq : armClose s = raiseHw 0x10 (contState x) x := by
    unfold armClose
    rw [hrefused]
  have hother {f : Field} (hf : f.key ≠ Reg.CONT_FAULT_PRECHECK.key) : getF x f = getF u f := by
    unfold x
    split
    · exact getF_setF_other hru hf _
    · rfl
  rw [heq]
  refine ⟨?_, ?_, ?_⟩
  · rw [raiseHw_sw]
    unfold x
    split <;> rfl
  · rw [getF_raiseHw, hother (by decide)]
    exact (getF_setF_same (s := s.updSw _) hr _ _).trans (Nat.mod_eq_of_lt hc)
  · rw [getF_raiseHw, hother (by decide)]
    exact getF_setF_other (s := s.updSw _) hr (by decide) _

/-! ## Closing (R151) -/

/-- The close that starts, before its first coil turns on. -/
def closing (s : State) : State :=
  (boundaries [Reg.CONT_TIMING_MIR_DEB, Reg.CONT_TIMING_MIR_T, Reg.CONT_TIMING_CLOSE_GAP] (setF Reg.CONT_STATUS_ARMED 0 s)).updSw
    fun w => { w with stage := .closing, duty2 := nextDuty2 s, discAfter := none, reported := false }

theorem closeStart_gives (hr : risingFrom 0 s.regs = true) (hready : closeReady s = true) : (closeStart s).sw.stage = .closing ∧
    getF (closeStart s) Reg.CONT_STATUS_ARMED = 0 ∧ (closeStart s).sw.duty2 = nextDuty2 s ∧
    (closeStart s).sw.k1 = nextDuty2 s ∧ (closeStart s).sw.k2 = !nextDuty2 s := by
  have hcoil : coilOn s = false := by
    unfold closeReady at hready
    simp only [Bool.and_eq_true, Bool.not_eq_true'] at hready
    obtain ⟨⟨⟨⟨⟨⟨⟨-, hcoil⟩, -⟩, -⟩, -⟩, -⟩, -⟩, -⟩ := hready
    exact hcoil
  obtain ⟨hk1, hk2⟩ := Bool.or_eq_false_iff.mp hcoil
  have heq : closeStart s = setCoil (!nextDuty2 s) true (closing s) := if_neg (by simp [hready])
  have hcontacts : (closeStart s).sw.contacts = (closing s).sw.contacts.command (!nextDuty2 s) true := by
    rw [heq, setCoil_contacts]
  have hrset := setF_regs_rising hr Reg.CONT_STATUS_ARMED 0
  have hdisarmed : getF (closing s) Reg.CONT_STATUS_ARMED = 0 := getF_setF_same hr Reg.CONT_STATUS_ARMED 0
  refine ⟨(congrArg (·.stage) hcontacts :), ?_, (congrArg (·.duty2) hcontacts :), ?_, ?_⟩
  · rw [heq]
    exact coilOn_writes.disarmed hrset hdisarmed
  · refine (congrArg (·.k1) hcontacts : (closeStart s).sw.k1 = if !nextDuty2 s then s.sw.k1 else true).trans ?_
    cases nextDuty2 s
    · exact hk1
    · rfl
  · refine (congrArg (·.k2) hcontacts : (closeStart s).sw.k2 = if !nextDuty2 s then true else s.sw.k2).trans ?_
    cases nextDuty2 s
    · rfl
    · exact hk2

theorem tryConfirm_unconfirmed (h : closeHolds s = false) : tryConfirm s = s := if_neg (by simp [h])

theorem closeHolds_of_contacts {t : State} {second on : Bool} (h : t.sw.contacts = s.sw.contacts.command second on) :
    closeHolds t = closeHolds s := by
  have hmir1 : t.sw.mir1 = s.sw.mir1 := (congrArg (·.mir1) h :)
  have hmir2 : t.sw.mir2 = s.sw.mir2 := (congrArg (·.mir2) h :)
  have hsupply : t.sw.supply = s.sw.supply := (congrArg (·.supply) h :)
  have hvl : t.sw.vl = s.sw.vl := (congrArg (·.vl) h :)
  rw [closeHolds, closeHolds, hmir1, hmir2, hsupply, hvl]

/-- The duty coil turns on in its turn; the close is not confirmed yet. -/
theorem dutyCoilOn_contacts (hstage : s.sw.stage = .closing) (hopen : closeHolds s = false) :
    (dutyCoilOn s).sw.contacts = ({ s.sw with stage := .closing2 } : Sw).contacts.command s.sw.duty2 true := by
  let u := s.updSw fun w => { w with stage := .closing2 }
  have hcoil : (setCoil s.sw.duty2 true u).sw.contacts = u.sw.contacts.command s.sw.duty2 true := setCoil_contacts
  have hholds : closeHolds (setCoil s.sw.duty2 true u) = false := (closeHolds_of_contacts hcoil).trans hopen
  have heq : dutyCoilOn s = tryConfirm (setCoil s.sw.duty2 true u) := if_pos hstage
  rw [heq, tryConfirm_unconfirmed hholds, hcoil]
  rfl

/-- The close that failed for K1 alone, before its trip. -/
def closeFailed (live : BitVec 3) (s : State) : State :=
  (setF Reg.CONT_FAULT_CLOSE_FAIL_K1 1 (seeSupply live s)).updSw fun w => { w with tripWhy := some .closeFail }

theorem contactorTrip_closeFail : contactorTrip .closeFail s =
    trip 8 (contState (s.updSw fun w => { w with tripWhy := some .closeFail }))
      (openNow true true (s.updSw fun w => { w with tripWhy := some .closeFail })) := by
  simp only [contactorTrip, reduceCtorEq, if_false]

/-- A close that only K2's mirror confirms has failed for K1: the contactor trip follows (R159). -/
theorem closeTimeout_eq {live : BitVec 3} (hstage : s.sw.stage = .closing2) (hmir1 : s.sw.mir1 = some true)
    (hmir2 : s.sw.mir2 = some false) : closeTimeout live s = trip 8 (contState (closeFailed live s))
      (openNow true true (closeFailed live s)) := by
  have hstage' : (seeSupply live s).sw.stage = .closing2 := hstage
  have hmir1' : (seeSupply live s).sw.mir1 = some true := hmir1
  have hmir2' : (seeSupply live s).sw.mir2 = some false := hmir2
  have hholds : closeHolds (seeSupply live s) = false := by simp [closeHolds, hmir1']
  have hfails : closeTimeout live s = contactorTrip .closeFail (setF Reg.CONT_FAULT_CLOSE_FAIL_K1 1 (seeSupply live s)) := by
    simp [closeTimeout, hstage', hmir1', hmir2', hholds]
  rw [hfails, contactorTrip_closeFail, closeFailed]

theorem openNow_tripWhy : (openNow true true s).sw.tripWhy = s.sw.tripWhy := by
  cases hon : coilOn s with
  | true => exact (congrArg (·.tripWhy) (openNow_contacts hon) :)
  | false => rw [openNow_off hon]

theorem closeTimeout_gives {live : BitVec 3} (hr : risingFrom 0 s.regs = true) (hstage : s.sw.stage = .closing2)
    (hmir1 : s.sw.mir1 = some true) (hmir2 : s.sw.mir2 = some false) : (closeTimeout live s).sw.k1 = false ∧
      (closeTimeout live s).sw.k2 = false ∧ (closeTimeout live s).sw.tripWhy = some .closeFail ∧
      holds 8 (closeTimeout live s) = true ∧ getF (closeTimeout live s) Reg.CONT_FAULT_CLOSE_FAIL_K1 = 1 ∧
      getF (closeTimeout live s) Reg.CONT_FAULT_CLOSE_FAIL_K2 = getF s Reg.CONT_FAULT_CLOSE_FAIL_K2 := by
  have hrf : risingFrom 0 (closeFailed live s).regs = true :=
    setF_regs_rising (s := seeSupply live s) hr Reg.CONT_FAULT_CLOSE_FAIL_K1 1
  have hfirst : getF (closeFailed live s) Reg.CONT_FAULT_CLOSE_FAIL_K1 = 1 :=
    getF_setF_same (s := seeSupply live s) hr Reg.CONT_FAULT_CLOSE_FAIL_K1 1
  have hsecond : getF (closeFailed live s) Reg.CONT_FAULT_CLOSE_FAIL_K2 = getF s Reg.CONT_FAULT_CLOSE_FAIL_K2 :=
    getF_setF_other (s := seeSupply live s) hr (f := Reg.CONT_FAULT_CLOSE_FAIL_K1) (g := Reg.CONT_FAULT_CLOSE_FAIL_K2) (by decide) 1
  have hopens : Writes openWrites (closeFailed live s) (openNow true true (closeFailed live s)) := openNow_writes
  obtain ⟨hk1, hk2⟩ := openNow_open (s := closeFailed live s)
  obtain ⟨hheld, hsw, hread⟩ := openTrip_gives (bit := 8) (value := contState (closeFailed live s))
    (Bool.or_eq_false_iff.mpr ⟨hk1, hk2⟩) (hopens.rising hrf) (by decide)
  rw [closeTimeout_eq hstage hmir1 hmir2, hsw, hread Reg.CONT_FAULT_CLOSE_FAIL_K1 (by decide) (by decide) (by decide),
    hread Reg.CONT_FAULT_CLOSE_FAIL_K2 (by decide) (by decide) (by decide),
    hopens.reads hrf Reg.CONT_FAULT_CLOSE_FAIL_K1 (by decide), hopens.reads hrf Reg.CONT_FAULT_CLOSE_FAIL_K2 (by decide)]
  exact ⟨hk1, hk2, openNow_tripWhy, hheld, hfirst, hsecond⟩

theorem stopDone_idle (h : s.sys.ctrlStop = false) : stopDone s = s := if_neg (by rw [h]; nofun)

/-- Both mirrors read closed and the load side is as live as the supply: the close is confirmed. -/
theorem tryConfirm_confirmed (hstage : s.sw.stage = .closing2) (hholds : closeHolds s = true) (hnone : s.sw.discAfter = none) :
    tryConfirm s = raiseHw 0x10 (contState (s.updSw fun w => { w with stage := .closed }))
      (s.updSw fun w => { w with stage := .closed }) := by
  have hnone' : (raiseHw 0x10 (contState (s.updSw fun w => { w with stage := .closed }))
      (s.updSw fun w => { w with stage := .closed })).sw.discAfter = none := by rwa [raiseHw_sw]
  unfold tryConfirm
  rw [if_pos ⟨hstage, hholds⟩]
  dsimp only
  rw [hnone']

end

end Sys2Proof.Machine
end

section
/-! SUPPORT. The feedback of a close and of an opening, and the coils of a disconnect (08 R151 to R157). -/
namespace Sys2Proof.Machine

section
variable {s : State} {live : BitVec 3}

/-! ## A change of the feedback (R151, R157) -/

/-- K2's mirror reads closed as well, and the load side is as live as the supply: the close is confirmed. -/
theorem mirrorChange_confirms (hon : domainOn 2 s = true) (hstage : s.sw.stage = .closing2) (hmir1 : s.sw.mir1 = some false)
    (hnone : s.sw.discAfter = none) (hlive : live &&& ~~~s.sw.vl = 0) : (mirrorChange true false live s).sys = s.sys ∧
      (mirrorChange true false live s).sw = { s.sw with mir2 := some false, supply := live, stage := .closed } := by
  let u := (seeSupply live s).updSw fun w => { w with mir2 := some false }
  have hholds : closeHolds u = true := by simp [u, closeHolds, seeSupply, hmir1, hlive]
  have hjudged : mirrorChange true false live s = tryConfirm u := by
    show feedbackChanged u = tryConfirm u
    have hon' : domainOn 2 u = true := hon
    have hstage' : u.sw.stage = .closing2 := hstage
    simp [feedbackChanged, hon', hstage']
  rw [hjudged, tryConfirm_confirmed (s := u) hstage hholds hnone, raiseHw_sys, raiseHw_sw]
  exact ⟨rfl, rfl⟩

/-- With one coil on and both mirrors closed no reading of the load side means that a contactor has not closed. -/
theorem finding_split (hcoils : s.sw.k1 ≠ s.sw.k2) (hmir1 : s.sw.mir1 = some false) (hmir2 : s.sw.mir2 = some false) :
    finding s ≠ some .notClosed := by
  have hsplit (second live supply : Bool) : judgeSplit second false false live supply ≠ .notClosed := by
    revert second live supply
    decide
  unfold finding
  rw [hmir1, hmir2]
  cases hk1 : s.sw.k1 <;> cases hk2 : s.sw.k2
  · exact absurd (hk1.trans hk2.symm) hcoils
  · exact fun h => hsplit _ _ _ (Option.some.inj h)
  · exact fun h => hsplit _ _ _ (Option.some.inj h)
  · exact absurd (hk1.trans hk2.symm) hcoils

theorem feedbackChanged_dutyOff (hstage : s.sw.stage = .dutyOff) (hfound : finding s ≠ some .notClosed) : feedbackChanged s = s := by
  unfold feedbackChanged
  rw [hstage]
  split
  · rfl
  · dsimp only
    split
    · next h => exact absurd h hfound
    · rfl

/-! ## The coils of a disconnect (R152, R153) -/

theorem largestI_readCurrents {ia ib ic : BitVec 16} :
    largestI (readCurrents ia ib ic s) = max ia.toNat (max ib.toNat ic.toNat) := by
  simp [largestI, readCurrents, max_assoc]

/-- From 0.2 A on, the end of the current wait starts the timed opening and moves no coil. -/
theorem currentWaitEnd_loaded {ia ib ic : BitVec 16} (hstage : s.sw.stage = .currentWait) (hload : 2 ≤ ia.toNat) :
    (currentWaitEnd ia ib ic s).sw = { s.sw with stage := .opening, phaseI := #v[ia.toNat, ib.toNat, ic.toNat] } := by
  let u := readCurrents ia ib ic s
  let x := if inForce u Reg.CONT_DISC_DISC_I < largestI u then setF Reg.CONT_FAULT_UNDER_LOAD 1 u else u
  have hx : x.sw = u.sw := by
    unfold x
    split <;> rfl
  have hlargest : largestI x = max ia.toNat (max ib.toNat ic.toNat) :=
    (congrArg (fun w : Sw => w.phaseI.toList.foldl max 0) hx).trans largestI_readCurrents
  have hsmall : ¬ largestI x < 2 := by omega
  have heq : currentWaitEnd ia ib ic s = x.updSw fun w => { w with stage := .opening } := by
    unfold currentWaitEnd
    rw [if_neg (by simp [hstage])]
    exact if_neg hsmall
  rw [heq, State.updSw_sw, hx]
  rfl

theorem breakDuty_second {i : Nat} (hduty : s.sw.duty2 = true) (hk2 : s.sw.k2 = true) :
    breakDuty i s = (breakCoil true i s).updSw fun w => { w with stage := .dutyOff } := by
  simp [breakDuty, breakCoil, hduty, hk2]

@[simp] theorem getF_updSw {w : Sw → Sw} {f : Field} : getF (s.updSw w) f = getF s f := rfl

/-- The breaking current of the last break is kept, up to 65535. -/
theorem breakCoil_lastBreak {second : Bool} {i : Nat} (hr : risingFrom 0 s.regs = true) (hi : i < 2 ^ 16) :
    getF (breakCoil second i s) (lastBreak second) = i := by
  let u := s.updSw (Sw.broken second)
  let x := setF (lastBreak second) (min 0xFFFF i) u
  have hrx : risingFrom 0 x.regs = true := setF_regs_rising (s := u) hr _ _
  have hbeside : (lastBreak second).beside (healthWrites 6) = true := by cases second <;> decide
  have hwidth : (lastBreak second).width = 16 := by cases second <;> rfl
  have hcoil : getF (breakCoil second i s) (lastBreak second) = getF (countBreak second i s) (lastBreak second) :=
    (coilOff_writes (fs := [])).reads (by rw [countBreak_eq]; exact wornCheck_writes.rising hrx) _ rfl
  calc getF (breakCoil second i s) (lastBreak second)
      = getF (wornCheck x) (lastBreak second) := by rw [hcoil, countBreak_eq]
    _ = getF x (lastBreak second) := wornCheck_writes.reads hrx _ hbeside
    _ = min 0xFFFF i % 2 ^ (lastBreak second).width := getF_setF_same (s := u) hr _ _
    _ = i := by rw [hwidth]; omega

/-! ## Open confirmed (R157, R160) -/

/-- The switching block once the opening is confirmed and reported; NEXT_DUTY changes over after a disconnect (R155). -/
def Sw.confirmed (w : Sw) : Sw :=
  { w with
    reported := true, disc := none, wearDuty := if w.disc.isSome then !w.wearDuty else w.wearDuty
    stage := if w.k1 || w.k2 then .split else .opened }

/-- The pair at rest: one contactor still commanded closed, or none. -/
def restage (s : State) : State := s.updSw fun w => { w with stage := if w.k1 || w.k2 then .split else .opened }

theorem restage_rising (hr : risingFrom 0 s.regs = true) : risingFrom 0 (restage s).regs = true := hr

theorem restage_confirmed {t : State} (h : t.sw = s.sw.confirmed) : (restage t).sw = s.sw.confirmed := by
  rw [restage, State.updSw_sw, h]
  rfl

theorem finding_open (hcoil : coilOn s = false) (hmir1 : s.sw.mir1 = some true) (hmir2 : s.sw.mir2 = some true)
    (hdead : s.sw.vl = 0) : finding s = some .openConfirmed := by
  obtain ⟨hk1, hk2⟩ := Bool.or_eq_false_iff.mp hcoil
  simp [finding, hmir1, hmir2, hdead, hk1, hk2, judgeOpen]

theorem deferred_sysKept {a : State} (h : SysKept a s) {applied : Bool} : SysKept a (deferred applied s) :=
  settle_sysKept (updPilot_sysKept h)

theorem deferred_sw (hcoil : coilOn s = false) (hr : risingFrom 0 s.regs = true) {applied : Bool} :
    (deferred applied s).sw = s.sw :=
  (settle_settles (s := s.updPilot _) hcoil hr).sw

theorem deferred_rising (hcoil : coilOn s = false) (hr : risingFrom 0 s.regs = true) {applied : Bool} :
    risingFrom 0 (deferred applied s).regs = true :=
  (settle_settles (s := s.updPilot _) hcoil hr).rising hr

/-- The contactor trip is released, and the line is still to settle (R187). -/
def contactorReleased (s : State) : State :=
  ringOut 2 1 (raiseHw 0x09 8 (((setF Reg.SAFE_STATUS_HELD (held s - 2 ^ 8) s).updSw fun w => { w with tripWhy := none }).updSup
    fun u => { u with savedMismatch := false }))

theorem release_contactor (h : holds 8 s = true) : release 8 s = settle (contactorReleased s) := by
  unfold release
  rw [if_neg (by simp [h])]
  rfl

theorem contactorReleased_sw : (contactorReleased s).sw = { s.sw with tripWhy := none } := by
  rw [contactorReleased, ringOut_sw, raiseHw_sw]
  rfl

theorem contactorReleased_sysKept : SysKept s (contactorReleased s) :=
  ringOut_sysKept (raiseHw_sysKept (updSup_sysKept (updSw_sysKept (setF_sysKept (.refl s)))))

theorem contactorReleased_rising (hr : risingFrom 0 s.regs = true) : risingFrom 0 (contactorReleased s).regs = true := by
  have hheld := setF_regs_rising hr Reg.SAFE_STATUS_HELD (held s - 2 ^ 8)
  refine setF_regs_rising ?_ _ _
  rw [raiseHw_regs, State.updSup_regs, State.updSw_regs]
  exact hheld

/-- A release of the contactor trip changes nothing of the switching block but why it was tripped. -/
theorem release_contactor_gives (hcoil : coilOn s = false) (hr : risingFrom 0 s.regs = true) (h : holds 8 s = true) :
    (release 8 s).sw = { s.sw with tripWhy := none } ∧ SysKept s (release 8 s) := by
  have hcoil' : coilOn (contactorReleased s) = false := by rwa [coilOn, contactorReleased_sw]
  rw [release_contactor h]
  exact ⟨(settle_settles hcoil' (contactorReleased_rising hr)).sw.trans contactorReleased_sw,
    settle_sysKept contactorReleased_sysKept⟩

/-- The opening is reported, and what waited for it has applied. -/
def openReported (s : State) : State :=
  deferred true (raiseHw 0x10 (contState (s.updSw Sw.confirmed)) (s.updSw Sw.confirmed))

theorem openReported_gives (hcoil : coilOn s = false) (hr : risingFrom 0 s.regs = true) :
    (openReported s).sw = s.sw.confirmed ∧ risingFrom 0 (openReported s).regs = true ∧ SysKept s (openReported s) := by
  let u := raiseHw 0x10 (contState (s.updSw Sw.confirmed)) (s.updSw Sw.confirmed)
  have hsw : u.sw = s.sw.confirmed := raiseHw_sw ..
  have hcoil' : coilOn u = false := by rwa [coilOn, hsw]
  have hr' : risingFrom 0 u.regs = true := by rwa [raiseHw_regs]
  exact ⟨(deferred_sw hcoil' hr').trans hsw, deferred_rising hcoil' hr',
    deferred_sysKept (raiseHw_sysKept (updSw_sysKept (.refl s)))⟩

theorem confirmOpen_eq (hrep : s.sw.reported = false) : confirmOpen s =
    if holds 8 (restage (openReported s)) && (restage (openReported s)).sw.tripWhy == some .dropout &&
      !coilOn (restage (openReported s)) then release 8 (restage (openReported s)) else restage (openReported s) := by
  simp only [confirmOpen, hrep, Bool.false_eq_true, if_false]
  rfl

/-- After it, only why CONTACTOR was tripped is left to change, when that was a dropout. -/
theorem confirmOpen_gives (hcoil : coilOn s = false) (hr : risingFrom 0 s.regs = true) (hrep : s.sw.reported = false) :
    (∃ why, (confirmOpen s).sw = { s.sw.confirmed with tripWhy := why }) ∧ SysKept s (confirmOpen s) := by
  obtain ⟨hsw, hr', hkept⟩ := openReported_gives hcoil hr
  have hsame := restage_confirmed hsw
  have hopen : coilOn (restage (openReported s)) = false := by
    rw [coilOn, hsame]
    exact hcoil
  have hkept' : SysKept s (restage (openReported s)) := updSw_sysKept hkept
  rw [confirmOpen_eq hrep]
  split
  · next h =>
    simp only [Bool.and_eq_true] at h
    obtain ⟨⟨hheld, -⟩, -⟩ := h
    obtain ⟨hreleased, hsys⟩ := release_contactor_gives hopen (restage_rising hr') hheld
    exact ⟨⟨none, by rw [hreleased, hsame]⟩, hkept'.trans hsys⟩
  · exact ⟨⟨_, hsame⟩, hkept'⟩

/-- Both mirrors open, the load side dead: MIR_T after the last coil-off the opening is confirmed. -/
theorem disconnectFeedback_confirms (hstage : s.sw.stage = .feedback) (hcoil : coilOn s = false) (hmir1 : s.sw.mir1 = some true)
    (hmir2 : s.sw.mir2 = some true) (hdead : s.sw.vl = 0) : disconnectFeedback live s = confirmOpen (seeSupply live s) := by
  have hfound : finding (seeSupply live s) = some .openConfirmed := finding_open (s := seeSupply live s) hcoil hmir1 hmir2 hdead
  have hstage' : (seeSupply live s).sw.stage = .feedback := hstage
  simp [disconnectFeedback, judgeOpening, hstage', hfound, actOn]

end

end Sys2Proof.Machine
end

section
open Sys2Proof Sys2Proof.Machine

/-- Settles O27: one lemma per step of the sequence. The arm and its withdrawal are port writes that are not held; what a coil, a
break, a trip and a feedback change is said of the contactors' part of the switching block and of the fields they write. -/
theorem contactorSequence : Obligations.ContactorSequence := by
  unfold Obligations.ContactorSequence
  intro s hwf hpower hon hstop
  have hr := regs_rising hwf
  refine ⟨fun n hspec hfree => ?armed, fun n c hspec hrefused => ?refused, fun n => ?withdrawn, fun hready => ?closeStart,
    fun hstage hopen => ?dutyCoilOn, fun live hstage hmir1 hmir2 => ?closeTimeout,
    fun live hstage hmir1 hnone hlive => ?mirrorChange, fun live hstage hcoils hmir1 hmir2 => ?loadSide, fun n hk1 => ?opened,
    fun ia ib ic hstage hload => ?currentWait, fun amps hstage hduty hk2 => ?dutyCoilOff, fun hstage => ?otherCoilOff,
    fun live hstage hcoil hmir1 hmir2 hdead hrep => ?feedback, fun d hbreak hlow hhigh => ?learned, fun ia ib ic hk1 hk2 => ?worn⟩
  case armed =>
    refine portRow_gives hpower hspec rfl (port := 0x401) fun d => ?_
    rw [applyPort_closeReq]
    let u := s.updCap fun _ => d
    have hfree' : refusal u = none := hfree
    show getF (armClose u) _ = 1 ∧ (armClose u).sw.refused = false
    rw [armClose_accepted hfree']
    exact ⟨getF_setF_same (s := u.updSw _) hr _ _, rfl⟩
  case refused =>
    refine portRow_gives hpower hspec rfl (port := 0x401) fun d => ?_
    rw [applyPort_closeReq]
    obtain ⟨hsw, hcause, harm⟩ := armClose_refused (s := s.updCap fun _ => d) hrefused hr
    show (armClose (s.updCap fun _ => d)).sw.refused = true ∧ _
    exact ⟨congrArg (·.refused) hsw, hcause, harm, congrArg (·.k1) hsw, congrArg (·.k2) hsw⟩
  case withdrawn =>
    refine portRow_gives_unheld hpower putHeld_withdrawal rfl (port := 0x401) fun d => ?_
    rw [applyPort_closeReq]
    exact ⟨getF_setF_same (s := s.updCap _) hr Reg.CONT_STATUS_ARMED 0, rfl⟩
  case closeStart => exact ⟨_, rfl, closeStart_gives hr hready⟩
  case dutyCoilOn =>
    have hcontacts := dutyCoilOn_contacts hstage hopen
    have hk1 : (dutyCoilOn s).sw.k1 = if s.sw.duty2 then s.sw.k1 else true := (congrArg (·.k1) hcontacts :)
    have hk2 : (dutyCoilOn s).sw.k2 = if s.sw.duty2 then true else s.sw.k2 := (congrArg (·.k2) hcontacts :)
    refine ⟨_, rfl, (congrArg (·.stage) hcontacts :), ?_⟩
    split
    · next h => exact ⟨hk2.trans (if_pos h), hk1.trans (if_pos h)⟩
    · next h => exact ⟨hk1.trans (if_neg h), hk2.trans (if_neg h)⟩
  case closeTimeout => exact ⟨_, rfl, closeTimeout_gives hr hstage hmir1 hmir2⟩
  case mirrorChange =>
    obtain ⟨hsys, hsw⟩ := mirrorChange_confirms hon hstage hmir1 hnone hlive
    refine .of_eq rfl (stopDone_idle (by rw [hsys, hstop])) ?_
    rw [hsw]
    exact ⟨rfl, rfl, rfl⟩
  case loadSide =>
    let u := (seeSupply live s).updSw fun w => { w with vl := w.vl ||| 1 }
    have hjudged : loadSideChange 0 true live s = u := feedbackChanged_dutyOff (s := u) hstage (finding_split hcoils hmir1 hmir2)
    have hidle : stopDone (loadSideChange 0 true live s) = u := by
      rw [hjudged]
      exact stopDone_idle hstop
    exact .of_eq rfl hidle ⟨rfl, rfl, hstage⟩
  case opened =>
    refine portRow_gives_unheld hpower (putHeld_safe rfl rfl) rfl (port := 0x402) fun d => ?_
    rw [applyPort_high rfl (by decide)]
    let u := s.updCap fun _ => d
    have hcontacts : (openNow true true u).sw.contacts = u.sw.contacts.opened :=
      openNow_contacts (show (s.sw.k1 || s.sw.k2) = true by rw [hk1, Bool.true_or])
    have hwear : u.sw.contacts.opened.wear1 = satInc 0xFFFFFFFF s.sw.wear1 := if_pos hk1
    have hrising : risingFrom 0 (openNow true true u).regs = true := openNow_writes.rising hr
    exact ⟨(congrArg (·.k1) hcontacts :), (congrArg (·.k2) hcontacts :), (congrArg (·.stage) hcontacts :), clearArm_armed hrising,
      (congrArg (·.wear1) hcontacts :).trans hwear⟩
  case currentWait =>
    have hsw : (currentWaitEnd ia ib ic s).sw = _ := currentWaitEnd_loaded hstage hload
    exact ⟨_, rfl, congrArg (·.stage) hsw, congrArg (·.phaseI) hsw, congrArg (·.k1) hsw, congrArg (·.k2) hsw⟩
  case dutyCoilOff =>
    have hcontacts : (breakCoil true amps.toNat s).sw.contacts = _ := breakCoil_contacts
    refine .of_eq rfl ((if_pos hstage).trans (breakDuty_second hduty hk2)) ?_
    rw [getF_updSw]
    exact ⟨rfl, (congrArg (·.k2) hcontacts :), (congrArg (·.k1) hcontacts :), breakCoil_lastBreak (second := true) hr amps.isLt,
      (congrArg (·.wear2) hcontacts :)⟩
  case otherCoilOff =>
    have hcontacts : (setCoil (!s.sw.duty2) false s).sw.contacts = _ := setCoil_contacts
    have hk1 : (setCoil (!s.sw.duty2) false s).sw.k1 = if !s.sw.duty2 then s.sw.k1 else false := (congrArg (·.k1) hcontacts :)
    have hk2 : (setCoil (!s.sw.duty2) false s).sw.k2 = if !s.sw.duty2 then false else s.sw.k2 := (congrArg (·.k2) hcontacts :)
    refine .of_eq rfl (if_pos hstage) ⟨rfl, ?_⟩
    split
    · next h => exact ⟨hk1.trans (if_neg (by simp [h])), hk2.trans (if_neg (by simp [h]))⟩
    · next h => exact ⟨hk2.trans (if_pos (by simp [h])), hk1.trans (if_pos (by simp [h]))⟩
  case feedback =>
    obtain ⟨⟨why, hsw⟩, hkept⟩ := confirmOpen_gives (s := seeSupply live s) hcoil hr hrep
    have hconfirms := disconnectFeedback_confirms (live := live) hstage hcoil hmir1 hmir2 hdead
    have hidle : stopDone (disconnectFeedback live s) = confirmOpen (seeSupply live s) := by
      rw [hconfirms]
      exact stopDone_idle (hkept.ctrlStop.trans hstop)
    refine .of_eq rfl hidle ?_
    rw [hsw]
    refine ⟨if_neg ?_, rfl, rfl, rfl⟩
    exact fun h => Bool.false_ne_true (hcoil.symm.trans h)
  case learned =>
    have hjudged : openDelayLearn false d s = s.updSw fun w => { w with dly1 := (d.toNat :: w.dly1).take 8 } := by
      have hband : ¬ (d.toNat < 20 ∨ 300 < d.toNat) := by omega
      simp [openDelayLearn, Nat.not_lt.mpr hbreak, hband]
    exact .of_eq rfl hjudged ⟨rfl, rfl, rfl⟩
  case worn =>
    let u := readCurrents ia ib ic s
    have hclosed : (u.sw.k1 && u.sw.k2) = true := by rw [Bool.and_eq_true]; exact ⟨hk1, hk2⟩
    exact .of_eq rfl (if_pos hclosed) ⟨rfl, largestI_readCurrents (s := s), rfl⟩

end
